-- ==== Sys2Proof/Word.lean ====
section
/-! DEFINITION. The word types of the LV648 (R4, R6, R7) and their plainest byte arithmetic. -/

namespace Sys2Proof

/-- One byte. -/
abbrev Byte := BitVec 8

/-- A 32-bit register (all registers are 32 bits wide). -/
abbrev Word := BitVec 32

/-- A visible time stamp (R7): nanoseconds in bits 71:8, the 1/256 ns fraction in bits 7:0. -/
abbrev Stamp := BitVec 72

/-- Device time as the counter holds it (R7, R115): 64 bits of ns, 8 of visible fraction and 32 hidden fraction
bits, in units of 2^-40 ns. -/
abbrev DevTime := BitVec 104

/-- The `n` little-endian bytes of `v` (R4). -/
def leBytes : Nat → Nat → List Byte
  | 0, _ => []
  | n + 1, v => BitVec.ofNat 8 v :: leBytes n (v / 256)

/-- The number that little-endian bytes spell (R4). -/
def ofLeBytes : List Byte → Nat
  | [] => 0
  | b :: bs => b.toNat + 256 * ofLeBytes bs

/-- Two's complement reading of the low `n` bits of `v`. -/
def signedOf (n v : Nat) : Int :=
  let m := v % 2 ^ n
  if m < 2 ^ (n - 1) then (m : Int) else (m : Int) - (2 ^ n : Nat)

/-- The `n`-bit two's complement code of `i`. -/
def codeOf (n : Nat) (i : Int) : Nat := (i % ((2 ^ n : Nat) : Int)).toNat

/-- The ns part of a stamp. -/
def stampNs (t : Stamp) : Nat := t.toNat / 256

/-- The fraction of a stamp, in 1/256 ns. -/
def stampFrac (t : Stamp) : Nat := t.toNat % 256

/-- The stamp of a whole number of ns. -/
def stampOfNs (ns : Nat) : Stamp := BitVec.ofNat 72 (ns * 256)

end Sys2Proof
end

