-- ==== Sys2Proof/Syntax.lean ====
section
/-! DEFINITION. The commands of the block: one constructor of `Instr` for each row of the opcode table, and the types of
their operands.

Every command carries `dt`, the number of 200 MHz ticks (5 ns each) that have passed since the command before it
(DESIGN CHOICE, log entry 2). What the part cannot know by itself (what a partner sent, what a sensor read, what a host
buffer holds) stands in the other operands. -/

namespace Sys2Proof

/-- A PCIe function: 0 is PF0, 1 to 15 are VF1 to VF15 (R31, R37). -/
abbrev Fn := Fin 16

/-- How a hamper reached Valtyn: through the porch (its 256 bytes are those captured at the doorbell, R78), or through
the request ring (R80); a ring hamper's 256 bytes stand in host memory, so the command carries them. -/
inductive Via where
  | porch
  | ring (msg : List Byte)
  deriving DecidableEq, Repr

/-- One hamper as Valtyn fetches it: the function whose porch or ring carried it (R75) and the way it came. -/
structure Req where
  fn : Fn
  via : Via
  deriving DecidableEq, Repr

/-- What a read of a host or Millpond buffer by Valtyn or an engine gave: the bytes, or a failed access (R67). -/
inductive Fetched where
  | data (bytes : List Byte)
  | failed
  deriving DecidableEq, Repr

/-- A configuration-space request (R34, R37 to R40). -/
inductive ConfigReq where
  | read (offset : Nat)
  | write (offset : Nat) (value : Word)
  deriving DecidableEq, Repr

/-- A request to PF0's BAR2 (R44): a write gives the bytes that its byte enables select, and a read its length in bytes. -/
inductive Bar2Req where
  | write (offset : Nat) (bytes : List (Option Byte))
  | read (offset : Nat) (length : Nat)
  deriving DecidableEq, Repr

/-- The inbound TLP violations that are judged at the receiver or by decode (R67). -/
inductive TlpError where
  | malformed
  | unsupported (posted : Bool)
  | poisonedWrite
  | ecrc
  | unexpectedCompletion
  deriving DecidableEq, Repr

/-- A sampled ball (R123, R124, R241): its level now, and, where that level is new, how many steps of 31.25 ps after the 200 MHz
tick before it the edge fell. -/
structure Line where
  level : Bool
  step : Nat
  deriving DecidableEq, Repr

/-- The LV648 engine whose read a completion answers (R67); a channel's fetch gives the block it brings (R406). -/
inductive Reader where
  | ringFetch (fn : Fn)
  | channel (c : Fin 64) (addr : Nat) (fetch : Option (List Byte))
  | pyramid
  | decoder
  | hopperCopy (h : Fin 16)
  | hamperBuffer (fn : Fn)
  deriving DecidableEq, Repr

/-- How a completion ended (R67, R430). -/
inductive CplStatus where
  | success
  | ur
  | ca
  | poisoned
  deriving DecidableEq, Repr

/-- The clock faults of R127 that lead to a full reset. -/
inductive ClockFault where
  | crystal
  | timePll
  | fabricPll
  | corePll
  | ddrPll
  deriving DecidableEq, Repr

/-- The route a start step ran and how it ended (R135 to R140): `ok` ends it DONE, otherwise it has failed. -/
structure StepResult where
  ok : Bool
  deriving DecidableEq, Repr

/-- What a panel training gave (R143): eDP link-rate code, lanes, voltage swing, pre-emphasis. -/
structure LinkSettings where
  rate : Nat
  lanes : Nat
  swing : Nat
  pre : Nat
  deriving DecidableEq, Repr

/-- What a SoC asks over AUX (R166, R206): `data` are the bytes of a write, and a read asks for as many bytes as `data`
has. `panel` is the panel's reply to a forwarded request, empty while it has not replied; for fields that the part copies
from the panel it is what the panel holds there. -/
structure AuxReq where
  malformed : Bool
  i2c : Bool
  write : Bool
  addr : Nat
  data : List Byte
  panel : List Byte
  deriving DecidableEq, Repr

/-- The main stream attributes of a SoC's stream (R165): pixel clock in Hz, the timing in the order of a layout (R193), bits
per component, whether the encoding is RGB, and the colorimetry field. -/
structure Msa where
  hz : Nat
  hActive : Nat
  hTotal : Nat
  vActive : Nat
  vTotal : Nat
  hSyncStart : Nat
  hSyncWidth : Nat
  vSyncStart : Nat
  vSyncWidth : Nat
  bpc : Nat
  rgb : Bool
  colorimetry : Nat
  deriving DecidableEq, Repr

/-- Why the sink lost its input (R191, R206). -/
inductive LossCause where
  | lock
  | msa
  | change
  deriving DecidableEq, Repr

/-- A panel event (R206). -/
inductive HpdEvent where
  | irqBadStatus
  | hpdLow
  deriving DecidableEq, Repr

/-- How a long packet arrived (R223, R236): unrecoverable after retransmission, header ECC uncorrectable, payload CRC
wrong. `drained` is the number of bytes that have left the port's input FIFO since the packet before it (R222, R223).
`stages` holds, by hopper, the bytes that have left its write stage since then (R329). -/
structure PacketFate where
  unrecoverable : Bool
  headerEcc : Bool
  crcBad : Bool
  retransmissions : Nat
  drained : Nat
  stages : List Nat
  deriving DecidableEq, Repr

/-- The answer of the camera to one tunnelled I2C transaction (R213): result code and the bytes read, or silence. -/
inductive I2cAnswer where
  | answered (result : Nat) (bytes : List Byte)
  | silent
  deriving DecidableEq, Repr

/-- What the LV648 read in one serial sensor cycle: in SSI, DATA when the frame began and the bits at the later falling edges
(R259); in BiSS-C, the line delay from the first rising MA edge to the acknowledge in steps of 31.25 ps, none where none came,
the MA clocks from there to the start bit, and the bits after it from CDS on (R260). -/
inductive SerialOutcome where
  | ssi (high : Bool) (bits : List Bool)
  | biss (delay : Option Nat) (startClocks : Nat) (bits : List Bool)
  deriving DecidableEq, Repr

/-- What the control channel gave for a BiSS register read (R263): a control frame with its value, no complete frame, or one
whose CRC is wrong. -/
inductive BissOutcome where
  | value (v : Byte)
  | timeout
  | crcFailed
  deriving DecidableEq, Repr

/-- What the reads of a Millrace instruction met (R430): the offset of the failing burst in its source, and the cause code. -/
structure BusFault where
  cause : Nat
  offset : Nat
  deriving DecidableEq, Repr

/-- What the error code met in a command's reads of LPDDR5X or Millpond (R397, R399): the errors it corrected, and the place in
what is read of one that it could not correct. -/
structure MemErrors where
  corrected : Nat
  uncorrectable : Option Nat
  deriving DecidableEq, Repr

/-- What reads the burst of an LPDDR5X uncorrectable error has for a reader during a staged copy (R397): the lines whose
data hold the burst, its address, and the errors corrected in the copy. -/
structure StagedRead where
  badLines : List Nat
  address : Nat
  corrected : Nat
  deriving DecidableEq, Repr

/-- What the scrubber found in one burst (R398). -/
inductive ScrubResult where
  | clean
  | corrected
  | uncorrectable
  deriving DecidableEq, Repr

/-- Why full retraining is requested (R390). -/
inductive RetrainCause where
  | temperature
  | eccBurst
  deriving DecidableEq, Repr

/-- An engine that Valtyn can reset abruptly (R468). -/
inductive StallEngine where
  | pyramid
  | decoder
  | audio
  deriving DecidableEq, Repr

/-- A line that the cross-line logic filters (R288): XTR0 to XTR3, EXT0, EXT1. -/
inductive FilteredLine where
  | xtr (l : Fin 4)
  | ext (e : Fin 2)
  deriving DecidableEq, Repr

/-- An output of R297 whose waiting configuration applies. -/
inductive OutputSel where
  | trig (k : Fin 12)
  | xtr (l : Fin 4)
  | ext (e : Fin 2)
  deriving DecidableEq, Repr

/-- The commands of the LV648: one constructor per row of the opcode table, in the table's order. The first operand of
each is `dt`. -/
inductive Instr where
  -- host link
  | perstDeassert (dt : Nat)
  | linkTrained (dt : Nat) (speed width : Nat) (reversed : Bool)
  | linkRetrainChange (dt : Nat) (speed width : Nat)
  | configRequest (dt : Nat) (fn : Fn) (req : ConfigReq)
  | flrInitiate (dt : Nat) (fn : Fn)
  | fenceClosed (dt : Nat) (fn : Fn)
  | fenceTimeoutWedge (dt : Nat) (fn : Fn) (holder : Nat)
  | vfEnableSet (dt : Nat)
  | vfEnableClear (dt : Nat)
  | busMasterEnableClear (dt : Nat) (fn : Fn) (addrs : List (Fin 64 × Nat))
  | busMasterEnableSet (dt : Nat) (fn : Fn)
  | dlDown (dt : Nat)
  | hotResetReceived (dt : Nat)
  | perstAssert (dt : Nat)
  | registerWrite (dt : Nat) (fn : Fn) (offset : Nat) (words : List (Word × BitVec 4))
  | bar0ReadRejected (dt : Nat) (fn : Fn) (offset : Nat) (bytes : Nat)
  | bar2Write (dt : Nat) (req : Bar2Req)
  | inboundTlpError (dt : Nat) (fn : Fn) (err : TlpError)
  | readCompletion (dt : Nat) (reader : Reader) (status : CplStatus)
  | completionTimeout (dt : Nat) (reader : Reader)
  | serialLoRead (dt : Nat) (fn : Fn)
  | instancePlanSet (dt : Nat) (r : Req)
  | instancePlanGet (dt : Nat) (r : Req)
  -- hampers and tailraces
  | porchDoorbell (dt : Nat) (fn : Fn)
  | reqTailWrite (dt : Nat) (fn : Fn) (value : Word)
  | repHeadWrite (dt : Nat) (fn : Fn) (value : Word)
  | deviceInfo (dt : Nat) (r : Req)
  | ringsSet (dt : Nat) (r : Req)
  | ringsClear (dt : Nat) (r : Req)
  | noticeRoute (dt : Nat) (r : Req)
  | echo (dt : Nat) (r : Req)
  | queueSet (dt : Nat) (r : Req)
  | queueClear (dt : Nat) (r : Req)
  | queueModerate (dt : Nat) (r : Req)
  | tqHeadWrite (dt : Nat) (fn : Fn) (q : Fin 32) (value : Word)
  | tqDroppedRead (dt : Nat) (fn : Fn) (q : Fin 32)
  | tqModerationTimer (dt : Nat) (q : Fin 32)
  | queueWriteFailed (dt : Nat) (q : Fin 32)
  | replyWriteFailed (dt : Nat) (fn : Fn)
  -- clocks and device time
  | timeNsLoRead (dt : Nat) (fn : Fn)
  | tdcDropRead (dt : Nat) (fn : Fn)
  | ptmDialogueStart (dt : Nat) (step : Nat)
  | ptmDialogueResponse (dt : Nat) (step : Nat) (masterNs turnaroundNs : Nat)
  | ptmDialogueTimeout (dt : Nat)
  | fantailHoldoverTimeout (dt : Nat)
  | ptmEnableChange (dt : Nat) (enable : Bool)
  | tdcCalibration (dt : Nat) (good : Bool)
  | clockLoss (dt : Nat) (fault : ClockFault)
  | refclkLoss (dt : Nat)
  | timeStatus (dt : Nat) (r : Req)
  | timeStep (dt : Nat) (r : Req)
  | fantailConfig (dt : Nat) (r : Req)
  | timeCorrelate (dt : Nat) (r : Req)
  -- power and start
  | carWakeRise (dt : Nat)
  | carWakeDebounceExpiry (dt : Nat)
  | xtr0WakeEdge (dt : Nat)
  | aonPowerApply (dt : Nat) (sris : Bool)
  | aonPowerLoss (dt : Nat)
  | parkHoldExpiry (dt : Nat)
  | mainSuppliesOff (dt : Nat)
  | suppliesGood (dt : Nat)
  | slotCheck (dt : Nat)
  | valtynRun (dt : Nat) (res : StepResult)
  | journalFold (dt : Nat)
  | outingRecord (dt : Nat)
  | guardianSurfaces (dt : Nat) (res : StepResult)
  | tslReceive (dt : Nat)
  | panelLinkTrained (dt : Nat) (path : Fin 2) (link : Option LinkSettings)
  | earlyPicture (dt : Nat) (path : Fin 2) (res : StepResult)
  | rearCameraLink (dt : Nat) (res : StepResult) (gear profile : Nat)
  | rearSensor (dt : Nat) (answers : List (List I2cAnswer)) (frame : Bool)
  | rearInsertion (dt : Nat) (res : StepResult)
  | lpddr5xTraining (dt : Nat) (res : StepResult) (mts gib : Nat)
  | cameraPortStart (dt : Nat) (port : Fin 8) (res : StepResult) (gear profile : Nat)
      (answers : List (List I2cAnswer)) (frame : Bool)
  | positionChannels (dt : Nat)
  | audioInputs (dt : Nat)
  | witnessArmStep (dt : Nat)
  | startDone (dt : Nat)
  | startStepTimeout (dt : Nat) (step inst : Nat)
  | lateRetry (dt : Nat) (step inst : Nat) (res : StepResult) (detail : Nat) (answers : List (List I2cAnswer)) (frame : Bool)
  -- provisioning, firmware, measurement
  | provision (dt : Nat) (r : Req)
  | provisionDone (dt : Nat) (cert : Fetched)
  | measReport (dt : Nat) (r : Req)
  | measReportDone (dt : Nat) (written : Bool)
  | fwStage (dt : Nat) (r : Req) (header : Fetched)
  | fwStageDone (dt : Nat) (image : Fetched)
  | fwActivate (dt : Nat) (r : Req)
  | outingWrite (dt : Nat) (r : Req)
  | outingWriteDone (dt : Nat) (record : Fetched)
  | journalRead (dt : Nat) (r : Req)
  | journalClear (dt : Nat) (r : Req)
  | slotSelect (dt : Nat) (r : Req)
  | liveQuietPoint (dt : Nat)
  | liveArmTimeout (dt : Nat)
  | liveSwitchOpen (dt : Nat)
  | liveSwitchRevert (dt : Nat)
  | debugPortOpen (dt : Nat) (halts : Bool)
  | debugPortClose (dt : Nat)
  | spdmRequest (dt : Nat) (msg : List Byte)
  | compactReportReady (dt : Nat)
  -- display guardian
  | tslFrame (dt : Nat) (bytes : List Byte)
  | tslStaleTimeout (dt : Nat)
  | tslLossTimeout (dt : Nat)
  | inputFrameStart (dt : Nat) (path : Fin 2) (msa : Msa)
  | inputRegionResult (dt : Nat) (path : Fin 2) (region : Fin 32) (pixels : List Word)
  | inputFrameEnd (dt : Nat) (path : Fin 2) (complete symbolErrors : Bool)
  | outputFrameStart (dt : Nat) (path : Fin 2)
  | outputFrameEnd (dt : Nat) (path : Fin 2) (seen : List (Fin 32 × List Word)) (ecc : MemErrors)
  | digestSigned (dt : Nat) (path : Fin 2)
  | inputLoss (dt : Nat) (path : Fin 2) (cause : LossCause)
  | inputVerticalTimeout (dt : Nat) (path : Fin 2)
  | psrEntry (dt : Nat) (path : Fin 2)
  | psrExit (dt : Nat) (path : Fin 2)
  | psrRepeatPeriod (dt : Nat) (path : Fin 2)
  | panelHpdEvent (dt : Nat) (path : Fin 2) (ev : HpdEvent)
  | panelRetrainDone (dt : Nat) (path : Fin 2) (link : Option LinkSettings)
  | sinkAuxRequest (dt : Nat) (path : Fin 2) (req : AuxReq)
  | auxDeferExpiry (dt : Nat) (path : Fin 2)
  | panelAuxTimeout (dt : Nat) (path : Fin 2)
  | sinkHpdPulseEnd (dt : Nat) (path : Fin 2)
  | settleWindowEnd (dt : Nat) (telltale : Fin 64)
  | chimeWindowEnd (dt : Nat) (template : Fin 16)
  | rearTapFrame (dt : Nat) (dataType width height : Nat) (lines : List (List Byte))
  | rearCameraStale (dt : Nat)
  | guardConfig (dt : Nat) (r : Req)
  | guardStatus (dt : Nat) (r : Req)
  | guardRegionsSet (dt : Nat) (r : Req) (table : Fetched)
  | guardRefsLoad (dt : Nat) (r : Req) (blob : Fetched)
  | guardRefsLoadDone (dt : Nat) (path : Fin 2) (read : Bool)
  | verdictRoute (dt : Nat) (r : Req)
  | digestGet (dt : Nat) (r : Req)
  | chainRead (dt : Nat) (r : Req)
  | chainReadDone (dt : Nat) (written : Bool)
  | chimeTemplatesLoad (dt : Nat) (r : Req) (blob : Fetched)
  | chimeTemplatesLoadDone (dt : Nat) (read : Bool)
  | chimeStatus (dt : Nat) (r : Req)
  -- camera ports
  | portLock (dt : Nat) (port : Fin 8)
  | portLoss (dt : Nat) (port : Fin 8)
  | relockAttempt (dt : Nat) (port : Fin 8)
  | gearRaiseTimeout (dt : Nat) (port : Fin 8)
  | csi2FrameStart (dt : Nat) (port : Fin 8) (vc : Nat) (skew : Int)
  | csi2LongPacket (dt : Nat) (port : Fin 8) (vc dataType : Nat) (payload : List Byte) (fate : PacketFate)
  | csi2FrameEnd (dt : Nat) (port : Fin 8) (vc : Nat) (skew : Int)
  | triggerEdgeAgeExpiry (dt : Nat) (stream : Fin 32)
  | portDrainEnd (dt : Nat) (port : Fin 8)
  | drainFrameTimeout (dt : Nat) (port : Fin 8)
  | stagedFrameCopyDone (dt : Nat) (stream : Fin 32) (read : StagedRead)
  | streamHeadWrite (dt : Nat) (fn : Fn) (stream : Fin 32) (value : Word)
  | streamDropsRead (dt : Nat) (fn : Fn) (stream : Fin 32)
  | streamErrsRead (dt : Nat) (fn : Fn) (stream : Fin 32)
  | portConfig (dt : Nat) (r : Req)
  | portStatus (dt : Nat) (r : Req)
  | portRestart (dt : Nat) (r : Req)
  | portRestartDone (dt : Nat) (port : Fin 8)
  | tunnelI2c (dt : Nat) (r : Req)
  | tunnelGpio (dt : Nat) (r : Req) (level : Bool)
  | streamOpen (dt : Nat) (r : Req)
  | streamClose (dt : Nat) (r : Req)
  | streamCloseQuiet (dt : Nat) (stream : Fin 32)
  | streamStage (dt : Nat) (r : Req)
  | streamStatus (dt : Nat) (r : Req)
  | streamBuffers (dt : Nat) (r : Req)
  | embeddedMapSet (dt : Nat) (r : Req)
  | embeddedMapSetDone (dt : Nat) (stream : Fin 32) (table : Fetched)
  -- position
  | quadStep (dt : Nat) (ch : Fin 4) (balls : Vector Line 4)
  | stepDirStep (dt : Nat) (ch : Fin 4) (balls : Vector Line 4)
  | upDownCount (dt : Nat) (ch : Fin 4) (balls : Vector Line 4)
  | hallChange (dt : Nat) (ch : Fin 4) (balls : Vector Line 4)
  | indexEdge (dt : Nat) (ch : Fin 4) (balls : Vector Line 4)
  | standstillTimeout (dt : Nat) (ch : Fin 4)
  | serialCycleStart (dt : Nat) (ch : Fin 4)
  | serialCycleEnd (dt : Nat) (ch : Fin 4) (outcome : SerialOutcome)
  | bissRegisterReadDone (dt : Nat) (ch : Fin 4) (outcome : BissOutcome)
  | emuOutputStep (dt : Nat) (emu : Fin 2)
  | posPLoRead (dt : Nat) (fn : Fn) (ch : Fin 4)
  | posIdxLoRead (dt : Nat) (fn : Fn) (ch : Fin 4)
  | posSerialErrsRead (dt : Nat) (fn : Fn) (ch : Fin 4)
  | posConfig (dt : Nat) (r : Req)
  | posConfigApply (dt : Nat) (ch : Fin 4)
  | posStatus (dt : Nat) (r : Req)
  | posPreset (dt : Nat) (r : Req)
  | emuConfig (dt : Nat) (r : Req)
  -- comparators, triggers, cross lines
  | comparatorFire (dt : Nat) (cmp : Fin 16)
  | trigDelayEnd (dt : Nat) (trig : Fin 12)
  | trigPulseEnd (dt : Nat) (trig : Fin 12) (step : Nat)
  | trigHoldoffEnd (dt : Nat) (trig : Fin 12)
  | trigPeriodTick (dt : Nat) (trig : Fin 12)
  | xtrFallingEdge (dt : Nat) (line : Fin 4) (step : Nat)
  | xtrAssertionTaken (dt : Nat) (line : Fin 4)
  | xtrDriveEnd (dt : Nat) (line : Fin 4) (step : Nat) (stillLow : Bool)
  | xtrGuardEnd (dt : Nat) (line : Fin 4)
  | xtrReleaseCheck (dt : Nat) (line : Fin 4)
  | xtrStuckTimeout (dt : Nat) (line : Fin 4)
  | xtrStuckClear (dt : Nat) (line : Fin 4)
  | extEdge (dt : Nat) (ext : Fin 2) (pin : Line)
  | cmpTargetLoRead (dt : Nat) (fn : Fn) (cmp : Fin 16)
  | cmpFireLoRead (dt : Nat) (fn : Fn) (cmp : Fin 16)
  | trigMergedRead (dt : Nat) (fn : Fn)
  | xtrRuntsRead (dt : Nat) (fn : Fn)
  | cmpArm (dt : Nat) (r : Req)
  | cmpDisarm (dt : Nat) (r : Req)
  | cmpStatus (dt : Nat) (r : Req)
  | trigConfig (dt : Nat) (r : Req)
  | xtrConfig (dt : Nat) (r : Req)
  | outputConfigApply (dt : Nat) (sel : OutputSel)
  | trigFire (dt : Nat) (r : Req)
  -- epochs
  | configCommit (dt : Nat) (r : Req)
  | epochSwitchTimer (dt : Nat) (stream : Fin 32)
  | configDiscard (dt : Nat) (r : Req)
  | configStatus (dt : Nat) (r : Req)
  -- hoppers
  | hopperBind (dt : Nat) (r : Req)
  | hopperArm (dt : Nat) (r : Req)
  | hopperDisarm (dt : Nat) (r : Req)
  | hopperDisarmQuiet (dt : Nat) (h : Fin 16)
  | hopperTrigger (dt : Nat) (r : Req)
  | hopperStatus (dt : Nat) (r : Req)
  | hopperCopyout (dt : Nat) (r : Req)
  | hopperCopyEnd (dt : Nat) (h : Fin 16) (failed : Bool) (corrected : Nat)
  | hopIgnoredRead (dt : Nat) (fn : Fn) (h : Fin 16)
  -- preparation engines
  | pyramidSubmit (dt : Nat) (r : Req)
  | pyramidCancel (dt : Nat) (r : Req)
  | pyramidPassEnd (dt : Nat) (input : Fetched) (ecc : MemErrors)
  | pyrDroppedRead (dt : Nat) (fn : Fn)
  | decodeSubmit (dt : Nat) (r : Req)
  | decodeCancel (dt : Nat) (r : Req)
  | decodeJobEnd (dt : Nat) (input : Fetched) (ecc : MemErrors)
  | prepQuiet (dt : Nat) (fn : Fn)
  | engineStallReset (dt : Nat) (engine : StallEngine)
  | audioConfig (dt : Nat) (r : Req)
  | audioRoute (dt : Nat) (r : Req)
  | audioFrame (dt : Nat) (input : Fin 2) (skew : Int) (lengthOk : Bool) (drained : Nat) (samples : List Int)
  | audioLossTimeout (dt : Nat) (input : Fin 2)
  | audioHop (dt : Nat) (input : Fin 2)
  | audioRecordsWritten (dt : Nat) (input : Fin 2)
  -- Weir
  | thermalSample (dt : Nat) (tj : Int)
  | fullRetrainRequest (dt : Nat) (cause : RetrainCause)
  | weirDrainEnd (dt : Nat)
  | weirDrainTimeout (dt : Nat)
  | retrainDone (dt : Nat)
  | shortRetrain (dt : Nat)
  | controllerStall (dt : Nat)
  | serveRestoreTimer (dt : Nat) (kind index : Nat)
  | sFaultClearTimer (dt : Nat)
  | scrubBurst (dt : Nat) (result : ScrubResult)
  | weirShedRead (dt : Nat) (fn : Fn)
  | weirEccAddrLoRead (dt : Nat) (fn : Fn)
  | weirStatus (dt : Nat) (r : Req)
  | weirShedOrder (dt : Nat) (r : Req)
  | weirCheck (dt : Nat) (r : Req)
  | weirScrub (dt : Nat) (r : Req)
  -- Millrace
  | chanLoad (dt : Nat) (r : Req) (programme : Fetched)
  | chanConfig (dt : Nat) (r : Req)
  | chanQuiet (dt : Nat) (c : Fin 64)
  | chanSignalMap (dt : Nat) (r : Req)
  | chanGo (dt : Nat) (fn : Fn) (c : Fin 64) (value : Word)
  | chanStop (dt : Nat) (fn : Fn) (c : Fin 64) (value : Word)
  | chanFlush (dt : Nat) (fn : Fn) (c : Fin 64) (value : Word)
  | chanRetry (dt : Nat) (fn : Fn) (c : Fin 64) (value : Word)
  | chanSkip (dt : Nat) (fn : Fn) (c : Fin 64) (value : Word)
  | chanKick (dt : Nat) (fn : Fn) (c : Fin 64) (value : Word)
  | chanBytesLoRead (dt : Nat) (fn : Fn) (c : Fin 64)
  | move (dt : Nat) (c : Fin 64) (hostData : List Byte) (fault : Option BusFault) (corrected : Nat)
  | move2d (dt : Nat) (c : Fin 64) (hostData : List Byte) (fault : Option BusFault) (corrected : Nat)
  | loop (dt : Nat) (c : Fin 64)
  | endLoop (dt : Nat) (c : Fin 64)
  | wait (dt : Nat) (c : Fin 64)
  | waitSatisfied (dt : Nat) (c : Fin 64)
  | waitTimeout (dt : Nat) (c : Fin 64)
  | signalEntry (dt : Nat) (c : Fin 64)
  | signalSlot (dt : Nat) (c : Fin 64)
  | setReg (dt : Nat) (c : Fin 64)
  | crcStart (dt : Nat) (c : Fin 64)
  | crcStore (dt : Nat) (c : Fin 64)
  | fence (dt : Nat) (c : Fin 64)
  | endRun (dt : Nat) (c : Fin 64)
  | arrivalReadbackDone (dt : Nat) (c : Fin 64)
  -- witness sampler
  | witnessConfig (dt : Nat) (r : Req)
  | witnessArm (dt : Nat) (r : Req)
  | witnessDisarm (dt : Nat) (r : Req)
  | witnessQuiet (dt : Nat)
  | witnessStatus (dt : Nat) (r : Req)
  | witnessRoute (dt : Nat) (r : Req)
  | adcConversion (dt : Nat) (code0 code1 : Option (BitVec 12)) (drained : Nat)
  | dwEdge (dt : Nat) (line : Fin 16) (ball : Line)
  | witnessUnitTimeout (dt : Nat) (unit : Fin 8)
  | witnessCaptureEnd (dt : Nat)
  | witnessDeliveryEnd (dt : Nat) (ok : Bool)
  | witIgnoredRead (dt : Nat) (fn : Fn)
  -- modes together, faults and reset
  | instanceQuiesce (dt : Nat) (r : Req)
  | instanceQuiesceDone (dt : Nat) (fn : Fn)
  | eventLogged (dt : Nat)
  | mirrorTimer (dt : Nat)
  | logRead (dt : Nat) (r : Req)
  | logClear (dt : Nat) (r : Req)
  | faultAck (dt : Nat) (r : Req)
  | faultStatus (dt : Nat) (r : Req)
  | logFilter (dt : Nat) (r : Req)
  | deviceReset (dt : Nat) (r : Req)
  | logLostRead (dt : Nat) (fn : Fn)
  | logFilteredRead (dt : Nat) (fn : Fn)
  | watchdogService (dt : Nat)
  | watchdogExpiry (dt : Nat)
  | lockstepMismatch (dt : Nat)
  | resetNAssert (dt : Nat)
  | resetNRelease (dt : Nat)
  | supplyFault (dt : Nat)
  | fullResetRelease (dt : Nat)
  | avsStep (dt : Nat)
  | carWakeFall (dt : Nat)
  | runtPulseEnd (dt : Nat) (line : FilteredLine) (step : Nat)
  | tunnelI2cAnswer (dt : Nat) (port : Fin 8) (answer : I2cAnswer)
  | refclkRestored (dt : Nat)
  | logMirrorDone (dt : Nat)
  | unknownOpcode (dt : Nat) (r : Req)
  deriving DecidableEq, Repr

end Sys2Proof
end

