-- ==== Sys2Proof/Decode.lean ====
section
/-! DEFINITION. The command that a word spells. The opcode table gives no row any bits: the block's commands are events and
accesses, and no word of the table spells one. -/

namespace Sys2Proof

/-- The command that a word spells by the table's bits: none, since no row has any. -/
def decodeTableWord (_nbits _w : Nat) : Option Instr := none

end Sys2Proof
end

