-- ==== Sys2Proof/Machine/Cbor.lean ====
section
/-! DEFINITION. The record decoder: the CBOR subset of R361, its output of R362, and the tree that Valtyn reads a record
through (R364). The order in which one item's failures are judged, and the offset of an input that ends inside a
container, are log entry 13. -/

namespace Sys2Proof.Machine

/-- One decoded item (R362): `value` is the 64-bit field. -/
structure CborItem where
  major : Nat
  depth : Nat
  isKey : Bool
  length : Nat
  value : Nat
  off : Nat
  deriving DecidableEq, Repr

/-- What a decode gives (R362): `error` 0 for none. -/
structure CborResult where
  error : Nat
  errorOff : Nat
  items : List CborItem
  maxDepth : Nat
  topItems : Nat
  consumed : Nat
  deriving DecidableEq, Repr

/-- An open container: its first byte's offset, items still to come, whether it is a map, the last key. -/
structure CborFrame where
  off : Nat
  left : Nat
  isMap : Bool
  lastKey : Option Nat
  deriving DecidableEq, Repr

/-- A big-endian number. -/
def beNat (bs : List Byte) : Nat := bs.foldl (fun a b => 256 * a + b.toNat) 0

/-- `n` continuation bytes and what follows. -/
def utf8Tail : Nat → List Byte → Option (List Byte)
  | 0, bs => some bs
  | n + 1, b :: bs => if b.toNat / 64 = 2 then utf8Tail n bs else none
  | _ + 1, [] => none

/-- Well-formed UTF-8 (RFC 3629). -/
def utf8Ok : Nat → List Byte → Bool
  | _, [] => true
  | 0, _ => false
  | fuel + 1, b :: bs =>
    let c := b.toNat
    let second := (bs.head?.map BitVec.toNat).getD 0
    let next (n : Nat) : Bool := match utf8Tail n bs with
      | some r => utf8Ok fuel r
      | none => false
    if c < 0x80 then utf8Ok fuel bs
    else if 0xC2 ≤ c ∧ c ≤ 0xDF then next 1
    else if c = 0xE0 then decide (0xA0 ≤ second) && next 2
    else if c = 0xED then decide (second ≤ 0x9F) && next 2
    else if 0xE1 ≤ c ∧ c ≤ 0xEF then next 2
    else if c = 0xF0 then decide (0x90 ≤ second) && next 3
    else if 0xF1 ≤ c ∧ c ≤ 0xF3 then next 3
    else if c = 0xF4 then decide (second ≤ 0x8F) && next 3
    else false

/-- The head of an item: major, argument, bytes of the head; or an error code of R361. -/
def cborHead (bs : List Byte) : Except Nat (Nat × Nat × Nat) :=
  match bs with
  | [] => .error 0x01
  | b :: rest =>
    let major := b.toNat / 32
    let ai := b.toNat % 32
    if ai = 31 then .error 0x03
    else if 28 ≤ ai then .error 0x02
    else if major = 6 then .error 0x05
    else if major = 7 ∧ ai ≠ 20 ∧ ai ≠ 21 ∧ ai ≠ 22 then .error 0x06
    else if ai < 24 then .ok (major, ai, 1)
    else
      let n := 2 ^ (ai - 24)
      if rest.length < n then .error 0x01
      else
        let v := beNat (rest.take n)
        if v < (if ai = 24 then 24 else if ai = 25 then 256 else if ai = 26 then 65536 else 2 ^ 32) then .error 0x04
        else .ok (major, v, 1 + n)

/-- The error of an item given its place, if any (R361). -/
def cborItemError (rest : List Byte) (depth major arg head : Nat) (top : Option CborFrame) (isKey : Bool) : Nat :=
  if isKey && major != 0 then 0x08
  else if isKey && (match top with
      | some f => (match f.lastKey with
        | some k => decide (arg ≤ k)
        | none => false)
      | none => false) then 0x09
  else if 8 < depth then 0x07
  else if major = 1 ∧ 2 ^ 63 ≤ arg then 0x0B
  else if (major = 4 ∨ major = 5) ∧ 65535 < arg then 0x0F
  else if (major = 2 ∨ major = 3) ∧ rest.length < head + arg then 0x01
  else if major = 3 ∧ ¬ utf8Ok (arg + 1) ((rest.drop head).take arg) then 0x0A
  else 0

/-- Close the containers that are complete; the Boolean is whether a top-level item has just ended. -/
def cborClose : List CborFrame → List CborFrame
  | [] => []
  | f :: fs => if f.left = 0 then cborClose fs else f :: fs

/-- Whether the next item of a map is a key: an even number of items is left. -/
def keyNext (stack : List CborFrame) : Bool :=
  match stack with
  | f :: _ => f.isMap && f.left % 2 == 0
  | [] => false

/-- Count one item in the innermost container. -/
def cborCount (isKey : Bool) (arg : Nat) : List CborFrame → List CborFrame
  | [] => []
  | f :: fs => { f with left := f.left - 1, lastKey := if isKey then some arg else f.lastKey } :: fs

/-- The decoder's loop: at most `fuel` items, room for `cap` entries. -/
def cborLoop (cap : Nat) : Nat → List Byte → Nat → List CborFrame → CborResult → CborResult
  | 0, _, pos, _, r => { r with error := 0x01, errorOff := pos }
  | fuel + 1, rest, pos, stack, r =>
    match rest with
    | [] =>
      match stack with
      | [] => r
      | f :: _ => { r with error := 0x01, errorOff := f.off }
    | b :: bs =>
      match cborHead (b :: bs) with
      | .error e => { r with error := e, errorOff := pos }
      | .ok (major, arg, head) =>
        let isKey := keyNext stack
        let depth := stack.length
        let e := cborItemError (b :: bs) depth major arg head stack.head? isKey
        if e ≠ 0 then { r with error := e, errorOff := pos }
        else if cap ≤ r.items.length then { r with error := 0x0D, errorOff := pos }
        else
          let size := head + (if major = 2 ∨ major = 3 then arg else 0)
          let item : CborItem :=
            { major := major, depth := depth, isKey := isKey
              length := if 2 ≤ major ∧ major ≤ 5 then arg else 0
              value := if major = 0 then arg else if major = 1 then 2 ^ 64 - 1 - arg
                else if major ≤ 3 then pos + head else if major ≤ 5 then pos else arg
              off := pos }
          let stack := cborCount isKey arg stack
          let stack := if major = 4 then ⟨pos, arg, false, none⟩ :: stack
            else if major = 5 then ⟨pos, 2 * arg, true, none⟩ :: stack else stack
          let stack := cborClose stack
          let r := { r with items := r.items ++ [item], maxDepth := max r.maxDepth depth }
          let r := if stack.isEmpty then { r with topItems := r.topItems + 1, consumed := pos + size } else r
          cborLoop cap fuel ((b :: bs).drop size) (pos + size) stack r

/-- Decode an input with room for `cap` entries (R361, R362). -/
def cborDecode (cap : Nat) (input : List Byte) : CborResult :=
  cborLoop cap (input.length + 1) input 0 [] ⟨0, 0xFFFFFFFF, [], 0, 0, 0⟩

/-- The bytes of an entry (R362). -/
def cborItemBytes (i : CborItem) : List Byte :=
  leBytes 1 i.major ++ leBytes 1 i.depth ++ leBytes 2 (if i.isKey then 1 else 0) ++ leBytes 4 i.length ++ leBytes 8 i.value

/-- The decoder's output (R362). -/
def cborOutput (r : CborResult) : List Byte :=
  leBytes 1 1 ++ leBytes 1 r.error ++ leBytes 1 r.maxDepth ++ leBytes 1 0 ++ leBytes 4 r.items.length ++
    leBytes 4 r.topItems ++ leBytes 4 r.consumed ++ leBytes 4 r.errorOff ++ leBytes 12 0 ++ r.items.flatMap cborItemBytes

/-- A decoded item as a tree; each node has the offsets of its first byte and of the byte after it. -/
inductive Cbor where
  | int (off stop : Nat) (v : Int)
  | str (off stop : Nat) (text : Bool) (bytes : List Byte)
  | arr (off stop : Nat) (items : List Cbor)
  | map (off stop : Nat) (items : List Cbor)
  | simple (off stop : Nat) (v : Nat)
  deriving Repr

/-- `n` items of a decoded input as trees, with what follows them. -/
def cborTrees : Nat → Nat → List Byte → Nat → Option (List Cbor × List Byte × Nat)
  | 0, _, _, _ => none
  | fuel + 1, n, bs, pos =>
    if n = 0 then some ([], bs, pos)
    else match cborHead bs with
      | .error _ => none
      | .ok (major, arg, head) =>
        let rest := bs.drop head
        let done (t : Cbor) (bs : List Byte) (pos : Nat) : Option (List Cbor × List Byte × Nat) :=
          (cborTrees fuel (n - 1) bs pos).map fun r => (t :: r.1, r.2.1, r.2.2)
        if major = 0 then done (.int pos (pos + head) arg) rest (pos + head)
        else if major = 1 then done (.int pos (pos + head) (-1 - arg)) rest (pos + head)
        else if major = 2 ∨ major = 3 then
          done (.str pos (pos + head + arg) (major = 3) (rest.take arg)) (rest.drop arg) (pos + head + arg)
        else if major = 4 then
          match cborTrees fuel arg rest (pos + head) with
          | some (l, r, p) => done (.arr pos p l) r p
          | none => none
        else if major = 5 then
          match cborTrees fuel (2 * arg) rest (pos + head) with
          | some (l, r, p) => done (.map pos p l) r p
          | none => none
        else done (.simple pos (pos + head) arg) rest (pos + head)

/-- The single top-level item of an input, when it decodes to exactly one. -/
def cborTree (input : List Byte) : Option Cbor :=
  match cborTrees (2 * input.length + 2) 1 input 0 with
  | some ([t], [], _) => some t
  | _ => none

/-- The offset of a node's first byte. -/
def Cbor.off : Cbor → Nat
  | .int o _ _ | .str o _ _ _ | .arr o _ _ | .map o _ _ | .simple o _ _ => o

/-- The offset after a node. -/
def Cbor.stop : Cbor → Nat
  | .int _ s _ | .str _ s _ _ | .arr _ s _ | .map _ s _ | .simple _ s _ => s

/-- The pairs of a flattened map. -/
def cborPairs : List Cbor → List (Nat × Cbor)
  | .int _ _ k :: v :: rest => (k.toNat, v) :: cborPairs rest
  | _ => []

/-- The pairs of a map node. -/
def Cbor.pairs : Cbor → List (Nat × Cbor)
  | .map _ _ l => cborPairs l
  | _ => []

/-- The items of an array node. -/
def Cbor.list : Cbor → List Cbor
  | .arr _ _ l => l
  | _ => []

/-- The value of a key. -/
def Cbor.key (c : Cbor) (k : Nat) : Option Cbor := (c.pairs.find? fun p => p.1 = k).map Prod.snd

/-- An unsigned integer. -/
def Cbor.nat? : Cbor → Option Nat
  | .int _ _ v => if 0 ≤ v then some v.toNat else none
  | _ => none

/-- A byte string. -/
def Cbor.bytes? : Cbor → Option (List Byte)
  | .str _ _ false b => some b
  | _ => none

/-- A Boolean. -/
def Cbor.bool? : Cbor → Option Bool
  | .simple _ _ v => if v = 20 then some false else if v = 21 then some true else none
  | _ => none

end Sys2Proof.Machine
end

