-- ==== Sys2Proof/Machine/Digest.lean ====
section
/-! DEFINITION. The checks and digests that the records use: CRCs by their polynomial (R142, R171, R300, R424) and
SHA-384 (R155, PRESUMED after FIPS 180-4, log entry 10). -/

namespace Sys2Proof.Machine

/-- One bit of a reflected CRC with polynomial `poly` in its reflected form. -/
def crcBitR (poly : Nat) : Nat → Nat → Nat
  | 0, c => c
  | n + 1, c => crcBitR poly n (if c % 2 = 1 then (c / 2) ^^^ poly else c / 2)

/-- A reflected CRC over bytes from a register value. -/
def crcR (poly : Nat) (c : Nat) : List Byte → Nat
  | [] => c
  | b :: bs => crcR poly (crcBitR poly 8 (c ^^^ b.toNat)) bs

/-- One bit of a CRC of `w` bits that is not reflected. -/
def crcBitN (w poly : Nat) : Nat → Nat → Nat
  | 0, c => c
  | n + 1, c =>
    crcBitN w poly n (if c.testBit (w - 1) then ((2 * c) % 2 ^ w) ^^^ poly else (2 * c) % 2 ^ w)

/-- A CRC of `w` bits that is not reflected, over bytes from a register value. -/
def crcN (w poly : Nat) (c : Nat) : List Byte → Nat
  | [] => c
  | b :: bs => crcN w poly (crcBitN w poly 8 (c ^^^ (b.toNat <<< (w - 8)))) bs

/-- The CRC-32C register after bytes, and its initial value and final XOR (R300). -/
def crc32cStep (c : Nat) (bs : List Byte) : Nat := crcR 0x82F63B78 c bs
def crc32c (bs : List Byte) : Nat := crc32cStep 0xFFFFFFFF bs ^^^ 0xFFFFFFFF

/-- The CRC-32 register (IEEE 802.3) after bytes (R424). -/
def crc32Step (c : Nat) (bs : List Byte) : Nat := crcR 0xEDB88320 c bs

/-- The CRC-16-CCITT register after bytes (R424). -/
def crc16Step (c : Nat) (bs : List Byte) : Nat := crcN 16 0x1021 c bs

/-- CRC-8 SAE J1850 (R171). -/
def crc8 (bs : List Byte) : Nat := crcN 8 0x1D 0xFF bs ^^^ 0xFF

/-- A CRC over bits, most significant first, for the serial sensors: `w` bits, polynomial without its top term (R261). -/
def crcBits (w poly : Nat) : Nat → List Bool → Nat
  | c, [] => c
  | c, b :: bs =>
    let top := c.testBit (w - 1) != b
    crcBits w poly (if top then ((2 * c) % 2 ^ w) ^^^ poly else (2 * c) % 2 ^ w) bs

/-- The round constants of SHA-384: the fractional parts of the cube roots of the first 80 primes. -/
def shaK : List (BitVec 64) :=
  [0x428A2F98D728AE22, 0x7137449123EF65CD, 0xB5C0FBCFEC4D3B2F, 0xE9B5DBA58189DBBC,
   0x3956C25BF348B538, 0x59F111F1B605D019, 0x923F82A4AF194F9B, 0xAB1C5ED5DA6D8118] ++
  [0xD807AA98A3030242, 0x12835B0145706FBE, 0x243185BE4EE4B28C, 0x550C7DC3D5FFB4E2,
   0x72BE5D74F27B896F, 0x80DEB1FE3B1696B1, 0x9BDC06A725C71235, 0xC19BF174CF692694] ++
  [0xE49B69C19EF14AD2, 0xEFBE4786384F25E3, 0x0FC19DC68B8CD5B5, 0x240CA1CC77AC9C65,
   0x2DE92C6F592B0275, 0x4A7484AA6EA6E483, 0x5CB0A9DCBD41FBD4, 0x76F988DA831153B5] ++
  [0x983E5152EE66DFAB, 0xA831C66D2DB43210, 0xB00327C898FB213F, 0xBF597FC7BEEF0EE4,
   0xC6E00BF33DA88FC2, 0xD5A79147930AA725, 0x06CA6351E003826F, 0x142929670A0E6E70] ++
  [0x27B70A8546D22FFC, 0x2E1B21385C26C926, 0x4D2C6DFC5AC42AED, 0x53380D139D95B3DF,
   0x650A73548BAF63DE, 0x766A0ABB3C77B2A8, 0x81C2C92E47EDAEE6, 0x92722C851482353B] ++
  [0xA2BFE8A14CF10364, 0xA81A664BBC423001, 0xC24B8B70D0F89791, 0xC76C51A30654BE30,
   0xD192E819D6EF5218, 0xD69906245565A910, 0xF40E35855771202A, 0x106AA07032BBD1B8] ++
  [0x19A4C116B8D2D0C8, 0x1E376C085141AB53, 0x2748774CDF8EEB99, 0x34B0BCB5E19B48A8,
   0x391C0CB3C5C95A63, 0x4ED8AA4AE3418ACB, 0x5B9CCA4F7763E373, 0x682E6FF3D6B2B8A3] ++
  [0x748F82EE5DEFB2FC, 0x78A5636F43172F60, 0x84C87814A1F0AB72, 0x8CC702081A6439EC,
   0x90BEFFFA23631E28, 0xA4506CEBDE82BDE9, 0xBEF9A3F7B2C67915, 0xC67178F2E372532B] ++
  [0xCA273ECEEA26619C, 0xD186B8C721C0C207, 0xEADA7DD6CDE0EB1E, 0xF57D4F7FEE6ED178,
   0x06F067AA72176FBA, 0x0A637DC5A2C898A6, 0x113F9804BEF90DAE, 0x1B710B35131C471B] ++
  [0x28DB77F523047D84, 0x32CAAB7B40C72493, 0x3C9EBE0A15C9BEBC, 0x431D67C49C100D4C,
   0x4CC5D4BECB3E42B6, 0x597F299CFC657E2A, 0x5FCB6FAB3AD6FAEC, 0x6C44198C4A475817]

/-- The initial hash value of SHA-384: the fractional parts of the square roots of the 9th to 16th primes. -/
def shaInit : List (BitVec 64) :=
  [0xCBBB9D5DC1059ED8, 0x629A292A367CD507, 0x9159015A3070DD17, 0x152FECD8F70E5939,
   0x67332667FFC00B31, 0x8EB44A8768581511, 0xDB0C2E0D64F98FA7, 0x47B5481DBEFA4FA4]

/-- The big-endian word of 8 bytes. -/
def beWord (bs : List Byte) : BitVec 64 := bs.foldl (fun a b => (a <<< 8) ||| b.setWidth 64) 0

/-- The big-endian bytes of a word. -/
def beBytes (w : BitVec 64) : List Byte :=
  [56, 48, 40, 32, 24, 16, 8, 0].map fun k => (w >>> (k : Nat)).setWidth 8

/-- The padding of a message of `n` bytes. -/
def shaPad (n : Nat) : List Byte :=
  0x80 :: List.replicate ((239 - n % 128) % 128) 0 ++ beBytes 0 ++ beBytes (BitVec.ofNat 64 (8 * n))

/-- The words of a block. -/
def shaWords (n : Nat) (block : List Byte) : List (BitVec 64) :=
  (List.range n).map fun i => beWord ((block.drop (8 * i)).take 8)

/-- Extend the message schedule, newest word first, by `n` words. -/
def shaSchedule : Nat → List (BitVec 64) → List (BitVec 64)
  | 0, w => w
  | n + 1, w =>
    let a := w.getD 14 0
    let b := w.getD 1 0
    let s0 := a.rotateRight 1 ^^^ a.rotateRight 8 ^^^ (a >>> 7)
    let s1 := b.rotateRight 19 ^^^ b.rotateRight 61 ^^^ (b >>> 6)
    shaSchedule n ((w.getD 15 0 + s0 + w.getD 6 0 + s1) :: w)

/-- The eight working variables. -/
structure ShaVars where
  a : BitVec 64
  b : BitVec 64
  c : BitVec 64
  d : BitVec 64
  e : BitVec 64
  f : BitVec 64
  g : BitVec 64
  h : BitVec 64

/-- One round. -/
def shaRound (v : ShaVars) (kw : BitVec 64) : ShaVars :=
  let s1 := v.e.rotateRight 14 ^^^ v.e.rotateRight 18 ^^^ v.e.rotateRight 41
  let ch := (v.e &&& v.f) ^^^ (~~~v.e &&& v.g)
  let t1 := v.h + s1 + ch + kw
  let s0 := v.a.rotateRight 28 ^^^ v.a.rotateRight 34 ^^^ v.a.rotateRight 39
  let maj := (v.a &&& v.b) ^^^ (v.a &&& v.c) ^^^ (v.b &&& v.c)
  ⟨t1 + (s0 + maj), v.a, v.b, v.c, v.d + t1, v.e, v.f, v.g⟩

/-- One block. -/
def shaBlock (h : List (BitVec 64)) (block : List Byte) : List (BitVec 64) :=
  let w := (shaSchedule 64 (shaWords 16 block).reverse).reverse
  let v := (List.zipWith (· + ·) shaK w).foldl shaRound
    ⟨h.getD 0 0, h.getD 1 0, h.getD 2 0, h.getD 3 0, h.getD 4 0, h.getD 5 0, h.getD 6 0, h.getD 7 0⟩
  List.zipWith (· + ·) h [v.a, v.b, v.c, v.d, v.e, v.f, v.g, v.h]

/-- `n` blocks. -/
def shaBlocks : Nat → List (BitVec 64) → List Byte → List (BitVec 64)
  | 0, h, _ => h
  | n + 1, h, m => shaBlocks n (shaBlock h (m.take 128)) (m.drop 128)

/-- SHA-384. -/
def sha384 (m : List Byte) : List Byte :=
  let p := m ++ shaPad m.length
  ((shaBlocks (p.length / 128) shaInit p).take 6).flatMap beBytes

end Sys2Proof.Machine
end

