-- ==== Sys2Proof/Config.lean ====
section
/-! DEFINITION. The free values: what the spec leaves open. Each is a constant without a body, so no proof can see what
it is; the assumption log names each of them. -/

namespace Sys2Proof.Config

/-- A free value for the `n`-th open choice of a run (log entry 5). -/
opaque freeNat : Nat → Nat

/-- The 96 bytes of an ECDSA P-384 signature over a digest under a key the part holds (R158, R160, R186): the `n`-th
signature made (log entry 6). -/
opaque signature : Nat → List Byte → List Byte

/-- The outcome of rounding a value that lies exactly between two integers: true rounds up (log entry 7). -/
opaque tieUp : Int → Bool

/-- A byte of an SPDM response that R159 leaves to the part (a nonce, a size of a transfer, a capability beside those of R159,
log entry 8): the response's number, and the byte's. -/
opaque spdmByte : Nat → Nat → Byte

/-- Ndosis's device chain, SPDM certificate slot 0 (R159, log entry 8). -/
opaque deviceChain : List Byte

/-- A configuration-space doubleword that the spec leaves to PCI Express (R37 to R39, log entry 9): function, offset. -/
opaque cfgDword : Nat → Nat → Word

/-- The built-in layout of a path, in the form of R193 (R135, R194, log entry 22). -/
opaque builtInLayout : Nat → List Byte

/-- The 16 bits that a window buffer holds for a pixel of the rear picture scaled to the window (R196, R203, log entry 55): the four
pixels around its place, and its distance from the first of them in each axis, in parts of the whole. -/
opaque rearCode : List (List Nat) → Nat × Nat → Nat × Nat → BitVec 16

/-- The colour that 16 bits of a window buffer show (R196, log entry 55). -/
opaque rearColour : BitVec 16 → Word

/-- The colorimetry that the source sends with its own timing (R165, R167, log entry 55). -/
opaque ownColorimetry : Nat

/-- The engine's deviation within the tolerance of R368 from the level of a hop's samples and from the level of a band of its
window, the whole level below −90 dB, and the peak where the formula has no value (R368, log entry 23). -/
opaque audioRms : List Int → Int
opaque audioBand : List Int → Nat → Int
opaque audioPeak : List Int → Nat

end Sys2Proof.Config
end

