-- ==== Sys2Proof/Machine/Memory.lean ====
section
/-! DEFINITION. Memory as a list of (address, byte) pairs in one canonical form: addresses strictly rising, no byte 0
listed. An unlisted address reads as 0 (DESIGN CHOICE, log entry 4). -/

namespace Sys2Proof.Machine

/-- A byte-addressed memory in canonical form. -/
abbrev Memory := List Host.Cell

/-- The canonical form: addresses strictly rising and no entry equal to what an unlisted address reads as. -/
abbrev Memory.wf (m : Memory) : Prop :=
  m.Pairwise (fun a b => a.1 < b.1) ∧ ∀ c ∈ m, c.2 ≠ 0

/-- The byte at an address. -/
def Memory.read : Memory → Nat → Byte
  | [], _ => 0
  | (a, b) :: rest, x => if a = x then b else Memory.read rest x

/-- Write one byte, keeping the canonical form. -/
def Memory.write : Memory → Nat → Byte → Memory
  | [], x, v => if v = 0 then [] else [(x, v)]
  | (a, b) :: rest, x, v =>
    if x < a then (if v = 0 then (a, b) :: rest else (x, v) :: (a, b) :: rest)
    else if x = a then (if v = 0 then rest else (a, v) :: rest)
    else (a, b) :: Memory.write rest x v

/-- Write bytes at rising addresses. -/
def Memory.writeList (m : Memory) (x : Nat) : List Byte → Memory
  | [] => m
  | v :: vs => Memory.writeList (Memory.write m x v) (x + 1) vs

/-- `n` bytes from an address. -/
def Memory.readList (m : Memory) (x n : Nat) : List Byte :=
  (List.range n).map fun i => Memory.read m (x + i)

end Sys2Proof.Machine
end

