-- ==== Sys2Proof/Machine/StateStart.lean ====
section
/-! DEFINITION. The types of clocks and device time, of power, start and journal, of MRAM, and of measurement (chapters
"Clocks, crossings and device time", "Start, journal and measurement", "Electrical, timing and package"). -/

namespace Sys2Proof.Machine

/-- A stamp that is held until a record is written: the stamp less every step applied so far, and the step count when it
was taken (R122). -/
structure Held where
  raw : Stamp
  steps : BitVec 16
  deriving DecidableEq, Repr

/-- Fantail's states (FANTAIL_STATE.state). -/
inductive FantailState where
  | free
  | acquire
  | locked
  | holdover
  deriving DecidableEq, Repr

/-- Fantail's modes (FANTAIL_CONFIG). -/
inductive FantailMode where
  | free
  | rate
  | slew
  deriving DecidableEq, Repr

/-- The steering loop (R117 to R120). `freq`, `r` and offsets are exact rationals in ppm and ns. -/
structure Fantail where
  state : FantailState
  mode : FantailMode
  intervalMs : Nat
  loopDialogues : Nat
  maxSlewPpm : Nat
  lockNs : Nat
  jumpNs : Nat
  jump : Bool
  needsStep : Bool
  /-- FANTAIL_OFFSET, the last valid offset (s32 saturating). -/
  offset : Word
  /-- FANTAIL_RATE (s32, 2^-16 ppm). -/
  rate : Word
  freq : Rat
  r : Rat
  prevOffset : Option Rat
  lastOffset : Rat
  /-- Device time of the last valid dialogue since the start, and when it was in `State.elapsed` ticks (R130). -/
  lastDevice : Option Held
  lastAt : Nat
  /-- A valid dialogue has come since the start and since the last step (R130). -/
  correlated : Bool
  lastHostNs : BitVec 64
  lastSteps : BitVec 16
  dialogues : Word
  within : Nat
  outside : Nat
  /-- The last valid dialogue, or the change of state since which none has come, in `State.elapsed` ticks (R119). -/
  validAt : Nat
  /-- When interval_ms last fired, in `State.elapsed` ticks. -/
  startedAt : Option Nat
  /-- A PTM request is waiting for its response: the tick at which it was sent, and the stamp of its marker (R117). -/
  waiting : Option (Nat × Held)
  /-- PTM requests in a row without a response (R128). -/
  silent : Nat
  roundTrips : List Nat
  deriving DecidableEq, Repr

/-- A line that the TDC stamps (R123). -/
inductive TdcLine where
  | pos (ch i : Fin 4)
  | xtr (l : Fin 4)
  | trig (k : Fin 12)
  | dw (l : Fin 16)
  | ext (e : Fin 2)
  | ptm
  deriving DecidableEq, Repr

/-- A stamp that the TDC took: its line and its `State.elapsed` tick (R126). -/
structure TdcStamp where
  line : TdcLine
  at_ : Nat
  deriving DecidableEq, Repr

/-- A ball whose edges the TDC stamps and whose level a filter follows (R123, R241): its level, the tick of its last edge, and
that edge's stamp, none where the TDC dropped it. -/
structure RawLine where
  level : Bool
  since : Nat
  edge : Option Held
  deriving DecidableEq, Repr

/-- Device time, its steps, the TDC and the clock monitors (R114 to R129). -/
structure Clocks where
  dev : DevTime
  /-- The sum of the steps applied since the start, in 1/256 ns, modulo 2^72. -/
  stepSum : Stamp
  stepCount : BitVec 16
  wakeOffsetUs : Word
  /-- The CAR_WAKE edge or other wake from which wake_offset_us is measured, in `State.elapsed` ticks. -/
  wakeAt : Nat
  fantail : Fantail
  calOk : Bool
  dense : Bool
  tdcDrop : Word
  /-- The stamps that the five stamp FIFOs still hold, newest first (R126). -/
  tdc : List TdcStamp
  xtalOk : Bool
  refclkOk : Bool
  /-- Bit 0 time, 1 fabric, 2 core, 3 DDR. -/
  pllLock : BitVec 4
  deriving DecidableEq, Repr

/-- The power states (chapter "Start, journal and measurement"). `off` is the part with no always-on supply. -/
inductive PowerState where
  | off
  | parked
  | starting
  | running
  | shutdown
  deriving DecidableEq, Repr

/-- The wake sources of R131. -/
inductive WakeSource where
  | carWake
  | perst
  | xtr0
  | aonSupply
  deriving DecidableEq, Repr

/-- The sources of a full reset (R492, R493). -/
inductive ResetSource where
  | resetN
  | perst
  | hotReset
  | deviceReset
  | watchdog
  | clock
  | supply
  deriving DecidableEq, Repr

/-- The always-on domain (R131 to R134, R489 to R498) and the supplies (R502 to R507). -/
structure Power where
  state : PowerState
  pwrEn : Bool
  /-- CAR_WAKE's level and the moment of its last rising edge while its debounce runs. -/
  carWake : Bool
  debounceFrom : Option Nat
  /-- CAR_WAKE has been recognised for the held steps of this start (R133, R495). -/
  recognised : Bool
  resetNLow : Bool
  /-- A wake source held during SHUTDOWN, and when it came (R114, R134). -/
  heldWake : Option (WakeSource × Nat)
  /-- Since when CAR_WAKE has been low and PERST# asserted together. -/
  parkFrom : Option Nat
  wakeOnXtr0 : Bool
  suppliesGood : Bool
  /-- The retained always-on state is valid (R131). -/
  retained : Bool
  /-- Internal reset is held by these sources (R493). -/
  resetHeld : List ResetSource
  /-- When internal reset may be released, in `State.elapsed` ticks. -/
  releaseAt : Option Nat
  /-- RESET_INFO, always-on (R498). -/
  warmCount : BitVec 16
  mirrored : Bool
  lockstep : Bool
  cause : Nat
  /-- The AVS request code driven, and the fused target (R503). -/
  avsCode : Nat
  avsFused : Nat
  avsAt : Option Nat
  /-- Valtyn has raised the AVS target (R502). -/
  avsRaised : Bool
  /-- STRAP_SRIS's level, sampled at the end of internal reset (R508). -/
  strapSris : Bool
  /-- Events of the always-on domain that the next start posts, and whether ST01 has missed its budget (R161). -/
  deferred : List Nat
  st01Late : Bool
  /-- The watchdog: armed, last service, late services (R489, R498). -/
  wdtArmed : Bool
  wdtLast : Nat
  wdtLate : BitVec 16
  /-- Since when the debug port has held the core halted, and for how long it has done so since the last service (R489). -/
  wdtHalt : Option Nat
  wdtPause : Nat
  deriving DecidableEq, Repr

/-- What runs on the control core. -/
inductive Core where
  | none
  | rom
  | recovery
  | valtyn
  deriving DecidableEq, Repr

/-- How a start step stands: running since a moment on a route (0 primary, 1 alternate, 2 late retry), or ended. -/
inductive StepStatus where
  | running (route : Nat) (since : Nat)
  | done
  | failed
  | skipped
  deriving DecidableEq, Repr

/-- A start step that has begun: ST number, instance (0xFF for none), status. -/
structure StepRec where
  step : Nat
  inst : Nat
  status : StepStatus
  deriving DecidableEq, Repr

/-- A learned entry (R144); `params` is the step's learned settings, the detail word of the record they came from in its
24 bytes (log entry 54). -/
structure Learned where
  step : Nat
  inst : Nat
  failCount : Nat
  useAlternate : Bool
  skip : Bool
  lastStart : Word
  params : BitVec 192
  deriving DecidableEq, Repr

/-- A journal record (R143); `good` is whether its CRC is good. -/
structure Record where
  kind : Nat
  step : Nat
  inst : Nat
  route : Nat
  startNumber : Word
  timeNs : BitVec 64
  durationUs : Word
  cause : Nat
  detail : Word
  good : Bool
  deriving DecidableEq, Repr

/-- A journal bank (R141, R142). -/
structure Bank where
  startNumber : Word
  cause : Nat
  path : Nat
  fwSlot : Nat
  outingCopy : Nat
  major : Nat
  minor : Nat
  wakeOffsetUs : Word
  learned : List Learned
  /-- Records in the order written. -/
  records : List Record
  headerGood : Bool
  learnedGood : Bool
  deriving DecidableEq, Repr

/-- The state of a firmware slot in the identity area (R148). -/
inductive SlotState where
  | empty
  | staging
  | valid
  | invalid
  deriving DecidableEq, Repr

/-- A firmware slot (R147). -/
structure Slot where
  state : SlotState
  image : List Byte
  deriving DecidableEq, Repr

/-- The identity area of MRAM (R37, R40, R148, R162). -/
structure Identity where
  serial : BitVec 64
  subsysVendor : BitVec 16
  subsysId : BitVec 16
  bar2Enable : Bool
  lock : Bool
  cert : List Byte
  activeSlot : Fin 2
  activeCopy : Fin 2
  deriving DecidableEq, Repr

/-- The outing record in force: what the decoded map of the active copy gives (R150). A key that is absent, or the
built-in record of R140, gives the default. -/
structure Outing where
  /-- Copy in force: none for the built-in record. -/
  copy : Option (Fin 2)
  guardianOwner : Fn
  rearPort : Option (Fin 8)
  optionalMask : BitVec 11
  parkHoldS : Nat
  wakeOnXtr0 : Bool
  /-- Encoded items of keys 1, 3, 4, 5, 6, 8, empty where absent. -/
  planItem : List Byte
  layoutItem : List Byte
  refsItem : List Byte
  chimeItem : List Byte
  defaultsItem : List Byte
  fantailItem : List Byte
  deriving DecidableEq, Repr

/-- A live switch (R151 to R154). -/
inductive Live where
  | idle
  | armed (slot : Fin 2) (since : Nat)
  | switching (slot : Fin 2) (since : Nat)
  deriving DecidableEq, Repr

/-- The start sequence and what runs (R133 to R140, R151). -/
structure Start where
  number : Word
  cause : Nat
  core : Core
  runningSlot : Fin 2
  /-- The slot ST02 is checking, and whether ST03's alternate has begun: the start again at ST02 on the other slot. -/
  trySlot : Fin 2
  otherTried : Bool
  major : Nat
  minor : Nat
  safePath : Bool
  steps : List StepRec
  startDone : Bool
  /-- When this start began, in `State.elapsed` ticks. -/
  since : Nat
  /-- The routes that have failed in this start: step, instance, route (R140, R149). -/
  failedRoutes : List (Nat × Nat × Nat)
  /-- Late retries still owed, in ascending order (R138). -/
  retries : List (Nat × Nat)
  learned : List Learned
  outing : Outing
  live : Live
  doorClosed : Bool
  /-- The doors of SHUTDOWN (R134). -/
  allDoorsClosed : Bool
  /-- Steps whose block's door a missed budget has closed (R136). -/
  closed : List (Nat × Nat)
  /-- The identity values latched at this start (R162: PROVISION takes effect at the next start). -/
  ident : Identity
  deriving DecidableEq, Repr

/-- The contents of MRAM: they survive every reset (R494). -/
structure Mram where
  identity : Identity
  slots : Vector Slot 2
  copies : Vector (List Byte) 2
  banks : Vector (Option Bank) 16
  /-- Learned entries whose use_alternate was cleared since the last fold (R144): step numbers. -/
  clearAlternate : List Nat
  lastStart : Word
  deriving DecidableEq, Repr

/-- One logged extension (R157, R158). -/
structure Extension where
  count : Word
  slot : Nat
  extender : Nat
  timeNs : BitVec 64
  digest : List Byte
  deriving DecidableEq, Repr

/-- The compact report of R160. -/
inductive Compact where
  | none
  | pending (nonce : List Byte)
  | ready (report : List Byte)
  deriving DecidableEq, Repr

/-- The SPDM connection of R159: what has been negotiated so far. -/
inductive Spdm where
  | none
  | version
  | capabilities
  | algorithms
  deriving DecidableEq, Repr

/-- The measurement engine (R155 to R160). -/
structure Meas where
  slots : Vector (List Byte) 8
  count : Word
  /-- The last 256 extensions, oldest first. -/
  log : List Extension
  base : Vector (List Byte) 8
  baseCount : Word
  debugOpen : Bool
  spdm : Spdm
  compact : Compact
  deriving DecidableEq, Repr

end Sys2Proof.Machine
end

