-- ==== Sys2Proof/Machine/StateMotion.lean ====
section
/-! DEFINITION. The types of position channels, encoder emulators, comparators, trigger outputs and cross lines (chapters
"Position and speed feedback" and "Position-domain triggering"). Times in state are `Held` stamps (R122) or
`State.elapsed` ticks. -/

namespace Sys2Proof.Machine

/-- A channel's kind (R239). -/
inductive PosKind where
  | off
  | quad
  | stepDir
  | upDown
  | hall
  | ssi
  | bissC
  deriving DecidableEq, Repr

/-- A channel's state (R240). -/
inductive PosMode where
  | off
  | starting
  | running
  | serialLost
  deriving DecidableEq, Repr

/-- The fields of POS_CONFIG with "0 selects" resolved (R272). -/
structure PosCfg where
  glitch : Nat
  policy : Nat
  invert : Nat
  index : Nat
  window : Nat
  stepEdge : Nat
  perIndex : Nat
  tolerance : Nat
  stopMs : Nat
  clkKhz : Nat
  dataBits : Nat
  serialFlags : Nat
  periodUs : Nat
  timeoutUs : Nat
  crcLen : Nat
  crcPoly : Nat
  latchNs : Nat
  jumpLimit : Nat
  deriving DecidableEq, Repr

/-- A point of a channel's history: a counted event, a preset or an index reset. From its stamp on P = 4096 × `loc` plus
the fraction in direction `fwd` at `speed` counts per second (R244, R246); `ev` is the stamp of the last counted event
(R257). -/
structure PosPoint where
  at_ : Held
  ev : Held
  loc : Int
  fwd : Option Bool
  speed : Rat
  /-- How long after `ev` the channel reaches standstill, in 1/256 ns (R257, R268). -/
  stop : Int
  deriving DecidableEq, Repr

/-- A valid serial sample (R261): its instant, P there not reduced to 60 bits (R245), and the velocity it gave. -/
structure PosSample where
  at_ : Held
  p : Int
  v : Rat
  deriving DecidableEq, Repr

/-- A BiSS register read in progress (R263): its register, the cycles since it began or was repeated, and whether a control frame
has failed its CRC. -/
structure BissRead where
  reg : Nat
  cycles : Nat
  failed : Bool
  deriving DecidableEq, Repr

/-- A position channel (R239 to R264, R271). -/
structure Pos where
  kind : PosKind
  mode : PosMode
  cfg : PosCfg
  /-- The balls IN0 to IN3, and their filtered levels, IN0 in bit 0 (R241). -/
  raw : Vector RawLine 4
  lines : BitVec 4
  /-- Hall: the last valid state (R254). -/
  hallRef : Nat
  /-- The edge count (R244). -/
  count : Int
  /-- No event has come since the channel started or was preset (R252, R280). -/
  fresh : Bool
  /-- A serial kind: the direction in which P last changed (R280). -/
  serialDir : Option Bool
  /-- History, newest first: at least one point and at most 17 (R247). -/
  points : List PosPoint
  /-- The events in the present direction that the velocity window may use, newest first, with their weights (R256). -/
  run : List (Held × Nat)
  /-- The directions of the last 8 events (R252). -/
  dirs : List Bool
  standstill : Bool
  /-- Time of the last event, in `State.elapsed` ticks. -/
  eventAt : Option Nat
  flags : BitVec 13
  skips : Word
  /-- The last 16 illegal steps: stamp and the count after it (R247). -/
  skipAt : List (Held × Word)
  /-- The last counted event had a coarse stamp (R242). -/
  coarse : Bool
  idx : Int
  idxCount : Word
  /-- The previous latch and the direction in which it was crossed (R255). -/
  idxPrev : Option (Int × Option Bool)
  idxReset : Bool
  serialErrs : Word
  serialTotal : Word
  fails : Nat
  hallInvalid : Word
  presets : Word
  /-- The sum of the preset deltas (R264). -/
  presetSum : Int
  /-- P while the channel is OFF or STARTING (R240). -/
  heldP : Int
  /-- A waiting AT_INDEX preset, in counts (R264). -/
  waiting : Option Int
  /-- A BiSS register read is in progress (R263). -/
  biss : Option BissRead
  /-- A serial cycle is in progress, with the stamp of its first falling POSn_CLK edge (R259, R261) and that edge's tick, and when
  the next is due at the earliest. -/
  cycle : Option Held
  cycleFrom : Nat
  cycleAt : Nat
  /-- The line delay that the last BiSS-C cycle measured, in steps of 31.25 ps (R260). -/
  lineDelay : Nat
  /-- Valid serial samples, newest first (R261). -/
  samples : List PosSample
  rPrev : Option Nat
  /-- Latches (R271). -/
  latchHi : Word
  latchVel : Word
  latchNsLo : Word
  latchNsHi : Word
  latchIdxHi : Word
  deriving DecidableEq, Repr

/-- A snapshot of a channel for a stamped instant (R247): P less every preset delta by then (R264), the velocity as R258
codes it and POS_SKIP_COUNT. -/
structure Snap where
  at_ : Held
  raw : Int
  vel : Int
  skips : Word
  deriving DecidableEq, Repr

/-- An encoder emulator (R265 to R267, R271). -/
structure Emu where
  running : Bool
  source : Nat
  flags : Nat
  n : Nat
  d : Nat
  zPeriod : Nat
  p0 : Int
  out : Int
  lagged : Bool
  /-- |g − o| was above 65 535 when it was last judged (R266). -/
  exceeds : Bool
  /-- g, held while the source is OFF or SERIAL_LOST (R266). -/
  held : Int
  /-- When it last stepped, in `State.elapsed` ticks. -/
  stepAt : Nat
  deriving DecidableEq, Repr

/-- A comparator's state (R273). -/
inductive CmpMode where
  | idle
  | armed
  | held
  | done
  deriving DecidableEq, Repr

/-- A fire that its source has brought about and that COMPARATOR_FIRE carries out (R276). -/
structure Reach where
  at_ : Held
  /-- The `State.elapsed` tick on which the source brought it about. -/
  tick : Nat
  pos : Int
  vel : Int
  points : Nat
  late : Bool
  inferred : Bool
  interp : Bool
  coarse : Bool
  /-- For a grid, the next target, or for EITHER the lattice point that fired. -/
  next : Int
  deriving DecidableEq, Repr

/-- A comparator (R273 to R284, R296). -/
structure Cmp where
  mode : CmpMode
  source : Nat
  qual : Nat
  policy : Nat
  grid : Bool
  interp : Bool
  report : Bool
  queue : Nat
  /-- T, or the next target of a FORWARD or REVERSE grid. -/
  target : Int
  t0 : Int
  pitch : Nat
  gridCount : Nat
  hysteresis : Nat
  slots : Nat
  recBase : Nat
  recMillpond : Bool
  /-- EITHER grid: the lattice point that fired last, and whether it is re-armed (R278). -/
  fired : Option Int
  rearmed : Bool
  /-- EITHER grid before its first fire: the lower point of the bracket. -/
  low : Int
  /-- The comparison value that crossings are judged from. -/
  value : Int
  /-- The instant up to which interpolation has been judged (R276). -/
  valueAt : Held
  events : Word
  skipped : Word
  sticky : BitVec 3
  reached : Option Reach
  /-- TIME grid: the tick of the next point after the first fire (R293). -/
  nextTick : Option Nat
  lastPos : Int
  lastTime : Held
  latchTargetHi : Word
  latchPosHi : Word
  latchNsLo : Word
  latchNsHi : Word
  deriving DecidableEq, Repr

/-- A trigger output's state (R274). -/
inductive TrigMode where
  | idle
  | delay
  | pulse
  | holdoff
  deriving DecidableEq, Repr

/-- The fields of TRIG_CONFIG (R297). -/
structure TrigCfg where
  on : Bool
  low : Bool
  cmpMask : BitVec 16
  xtrMask : BitVec 4
  extMask : BitVec 2
  delay : Nat
  width : Nat
  holdoff : Nat
  period : Nat
  deriving DecidableEq, Repr

/-- A trigger output (R285, R286). -/
structure Trig where
  cfg : TrigCfg
  mode : TrigMode
  /-- When the present state began, in `State.elapsed` ticks. -/
  since : Nat
  /-- LATE and INFERRED of the fire that started the pulse (R292). -/
  late : Bool
  inferred : Bool
  /-- When the output last left IDLE, and when a fire last found it busy (R285, R286). -/
  firedAt : Nat
  mergedAt : Option Nat
  /-- Where the leading edge falls at the ball, from the device time of the tick at which delay_ns has run, in 1/256 ns (R287); and
  whether the ball has yet to show it. -/
  lead : Int
  due : Bool
  /-- The tick from which the generator counts, and the fires it has made. -/
  periodFrom : Nat
  periods : Nat
  deriving DecidableEq, Repr

/-- The fields of XTR_CONFIG for a cross line (R297). -/
structure XtrCfg where
  drive : Bool
  cmpMask : BitVec 16
  extMask : BitVec 2
  minNs : Nat
  driveNs : Nat
  guardNs : Nat
  stuckMs : Nat
  deriving DecidableEq, Repr

/-- A cross line (R288 to R290). -/
structure Xtr where
  cfg : XtrCfg
  low : Bool
  driving : Bool
  stuck : Bool
  joined : Bool
  /-- A drive request waits for guard_ns (R289). -/
  waiting : Bool
  /-- When the line last fell or rose, in `State.elapsed` ticks. -/
  since : Nat
  /-- When the last assertion ended, and whether the present low began within guard_ns of it (R295). -/
  ended : Option Nat
  close : Bool
  /-- The falling edge whose min_ns filter runs (R288). -/
  edge : Option Held
  /-- The LV648 has released the line and its level 200 ns later has not been judged: the stamp and the tick of the release. -/
  released : Option (Held × Nat)
  deriving DecidableEq, Repr

/-- An external input (R288). -/
structure Ext where
  rising : Bool
  minNs : Nat
  /-- The level at the ball, when it last changed in `State.elapsed` ticks, and the active edge whose min_ns filter runs. -/
  level : Bool
  since : Nat
  edge : Option Held
  deriving DecidableEq, Repr

/-- Trigger outputs, cross lines and external inputs (R285 to R297). -/
structure Trigs where
  outs : Vector Trig 12
  xtr : Vector Xtr 4
  ext : Vector Ext 2
  merged : Word
  runts : Word
  deriving DecidableEq, Repr

end Sys2Proof.Machine
end

