-- ==== Sys2Proof/Machine/StateWeir.lean ====
section
/-! DEFINITION. The types of Weir: flows, the LPDDR5X store, ECC and scrubbing (chapter "Weir memory admission"). -/

namespace Sys2Proof.Machine

/-- The classes of R379. -/
inductive Class where
  | s
  | p
  | b
  deriving DecidableEq, Repr

/-- The two stores. -/
inductive Store where
  | lpddr
  | millpond
  deriving DecidableEq, Repr

/-- The availability of the LPDDR5X store (WEIR_STATE.store). -/
inductive LpState where
  | unavailable
  | available
  | draining
  | retraining
  deriving DecidableEq, Repr

/-- An admitted frame flow (R379 to R387). `kind` is 1 stream, 2 hopper, 3 pyramid binding. -/
structure Flow where
  kind : Nat
  index : Nat
  owner : Fn
  cls : Class
  rank : Nat
  store : Store
  /-- kB/s, rounded up. -/
  demand : Nat
  /-- LPDDR5X units of 2 MiB, and the first of them. -/
  units : Nat
  base : Nat
  serving : Bool
  /-- Since when avail has covered a shedding flow, in `State.elapsed` ticks. -/
  coverFrom : Option Nat
  deriving DecidableEq, Repr

/-- An allocation of the Millpond dynamic pool (R394): owner kind (2 hopper stage, 7 witness), index, first 4 KiB unit,
units. -/
structure DynAlloc where
  kind : Nat
  index : Nat
  first : Nat
  units : Nat
  deriving DecidableEq, Repr

/-- Weir (R376 to R402). -/
structure Weir where
  /-- What a commit in progress reserves beyond the flows in force, with its function (R312). -/
  reserved : List (Fn × Flow)
  store : LpState
  hot : Bool
  tj : BitVec 16
  mts : Nat
  gib : Nat
  /-- The guardian's and the witness's fixed class S flows are set up (R381, from ST05). -/
  fixedFlows : Bool
  flows : List Flow
  sFault : Bool
  sCoverFrom : Option Nat
  band : Vector Nat 16
  sAllow : BitVec 16
  grantKib : Nat
  dyn : List DynAlloc
  scrubPeriodH : Nat
  scrubPos : Nat
  /-- A pass was asked for by WEIR_SCRUB, and when the present or last pass began (R398). -/
  scrubNow : Bool
  scrubFrom : Option Nat
  passes : Word
  passEndNs : BitVec 64
  scrubCorrected : Word
  scrubUncorrectable : Word
  ce : Word
  ue : Word
  ueAddr : BitVec 64
  ueAddrHi : Word
  mpCorrectable : Nat
  mpUncorrectable : Nat
  shed : Vector Word 16
  /-- The moments of DRAINING and RETRAINING, and of the last short retraining, in `State.elapsed` ticks. -/
  drainFrom : Option Nat
  retrainFrom : Option Nat
  shortAt : Option Nat
  /-- The moments of the last 16 uncorrectable errors, newest first. -/
  ueTimes : List Nat
  deriving DecidableEq, Repr

end Sys2Proof.Machine
end

