-- ==== Sys2Proof/Machine/StateCapture.lean ====
section
/-! DEFINITION. The types of camera ports, stream contexts, tags, epochs and hoppers (chapters "Camera ports", "Frame tags
and delivery order" and "Hopper frame rings"). -/

namespace Sys2Proof.Machine

/-- A port's state (R208). -/
inductive PortMode where
  | off
  | acquire
  | locked
  | lost
  | drain
  deriving DecidableEq, Repr

/-- The fields of PORT_CONFIG (R238). -/
structure PortCfg where
  enable : Bool
  gear : Nat
  profile : Nat
  medium : Nat
  syncMode : Nat
  syncTrig : Nat
  syncGpio : Nat
  /-- Virtual channel of each slot, 0xFF unused. -/
  vcMap : Vector Nat 4
  i2cKhz : Nat
  perLimit : Nat
  relockMs : Nat
  deriving DecidableEq, Repr

/-- What brought a port to ACQUIRE or DRAIN, so that its end can be told (R217, R232). -/
inductive PortTask where
  | none
  /-- A start step (ST11 or ST15) or an enabling PORT_CONFIG. -/
  | start
  /-- PORT_RESTART: HAMPER_DONE is owed (R232). -/
  | restart
  /-- A committed restart of an epoch. -/
  | staged
  deriving DecidableEq, Repr

/-- A camera port (R208 to R223, R238). -/
structure Port where
  mode : PortMode
  cfg : PortCfg
  /-- The settings that a restart applies at ACQUIRE (R232). -/
  next : Option PortCfg
  task : PortTask
  /-- When the present mode began, in `State.elapsed` ticks. -/
  since : Nat
  /-- Present gear. -/
  gear : Nat
  /-- The gear raise of R217 runs since this tick. -/
  raising : Option Nat
  degraded : Bool
  locks : Word
  losses : Word
  attempts : Word
  /-- The tick at which the last relock attempt started (R220). -/
  attemptAt : Nat
  retransmissions : Word
  unrecoverable : Word
  fifoHigh : Nat
  fifo : Nat
  /-- The `State.elapsed` ticks of the unrecoverable packets of the last 1 ms (R219). -/
  bad : List Nat
  stray : Word
  closed : Word
  lockNs : BitVec 64
  /-- The levels of the four uplink GPIO lines (R214). -/
  gpio : BitVec 4
  deriving DecidableEq, Repr

/-- The state of a stream context that its port does not decide (R209): OPEN, RUNNING, STALLED and DRAINING follow from
the port and the frame in progress. -/
inductive StreamMode where
  | closed
  | opened
  | closing
  deriving DecidableEq, Repr

/-- The settings of a stream (R238). -/
structure StreamCfg where
  dataType : Nat
  width : Nat
  height : Nat
  embedded : Nat
  packing : Nat
  queue : Nat
  cls : Class
  rank : Nat
  instant : Nat
  pos : Nat
  route : Nat
  maxFps : Nat
  pitch : Nat
  maxAge : Nat
  deriving DecidableEq, Repr

/-- A slot ring of a stream (R224, R226, R308). -/
structure Ring where
  slots : Nat
  slotBytes : Nat
  payload : Nat
  payloadMill : Bool
  tags : Nat
  tagsMill : Bool
  deriving DecidableEq, Repr

/-- A rising edge of TRIG sync_trig with the flags of its fire (R215, R292). -/
structure Edge where
  at_ : Held
  snap : Option Snap
  late : Bool
  inferred : Bool
  deriving DecidableEq, Repr

/-- A tag before it is written (R298); times are held (R299). `gap`, `overflow` and TIME_STEPPED of the stream are added
when it is written. -/
structure Tag where
  stream : Fin 32
  fn : Fn
  vc : Nat
  seq : Word
  trigger : Option Held
  sof : Held
  sofFraction : Bool
  eof : Held
  lines : Nat
  flags : Nat
  pos : Int
  vel : Int
  epoch : Word
  crc : Nat
  deriving DecidableEq, Repr

/-- A frame in progress (R212 to R230). -/
structure Frame where
  seq : Word
  fn : Fn
  cfg : StreamCfg
  epoch : Word
  /-- The ring that judged it, none when no slot was free (R226). -/
  ring : Option Ring
  shed : Bool
  sof : Held
  trigger : Option Edge
  snapSof : Option Snap
  snapTrig : Option Snap
  inferred : Bool
  /-- TRANSITION at its FS (R314). -/
  transition : Bool
  /-- The frame is discarded whole by the rate guard (R230). -/
  discard : Bool
  /-- Its lines go to LPDDR5X staging (R226, R391). -/
  lp : Bool
  /-- Long packets of type 0x12 and pixel lines received, newest first. -/
  embedded : List (List Byte)
  lines : List (List Byte)
  corrupt : Nat
  partner : Bool
  overflowed : Bool
  /-- No further packets are taken (R223). -/
  stopped : Bool
  excess : Bool
  deriving DecidableEq, Repr

/-- Which entry a tag gets (R227, R233, R309). -/
inductive EntryKind where
  | frame (busError : Bool)
  | aborted
  | shed
  | interval
  deriving DecidableEq, Repr

/-- A tag that waits for its turn (R226, R307): a complete frame staged in LPDDR5X and not yet copied (`copying`), or a tag behind
one. -/
structure Staged where
  kind : EntryKind
  copying : Bool
  tag : Tag
  cfg : StreamCfg
  ring : Ring
  lines : List (List Byte)
  /-- Lines that arrived corrupt. -/
  corrupt : Nat
  deriving DecidableEq, Repr

/-- One field of an embedded translation table (R229). -/
structure EmbField where
  field : Nat
  line : Nat
  byte : Nat
  bits : Nat
  stride : Nat
  scale : Nat
  constant : Option Int
  deriving DecidableEq, Repr

/-- An interval that a port loss or a restart has opened and whose tag is owed (R221, R304). -/
structure Gap where
  from_ : Held
  loss : Bool
  edges : Word
  deriving DecidableEq, Repr

/-- A stream context (R209 to R238, R302 to R308). -/
structure Stream where
  mode : StreamMode
  quiet : Bool
  cfg : StreamCfg
  /-- The function that opened it. -/
  fn : Fn
  ring : Option Ring
  /-- STREAM_BUFFERS waits for the next frame boundary (R224). -/
  nextRing : Option Ring
  head : Nat
  tail : Nat
  /-- The release point H (R308). -/
  release : Word
  /-- Written tags that the host has not released, oldest first. -/
  unreleased : List Word
  nextSeq : Word
  /-- STREAM_SEQ. -/
  lastSeq : Word
  /-- A tag has been written since STREAM_OPEN. -/
  written : Bool
  drops : Word
  errs : Word
  delivered : Word
  gapTags : Word
  corruptFrames : Word
  sensorSkips : Word
  missed : Word
  allDrops : Word
  frame : Option Frame
  staged : List Staged
  edges : List Edge
  gap : Option Gap
  /-- The eof of the last tag written, or the open (R304). -/
  lastEof : Held
  /-- The numbers that no tag has followed yet and that ended for want of a slot (true) or by the rate guard (false), oldest first
  (R301, R306). -/
  unwritten : List (Word × Bool)
  steppedOwed : Bool
  /-- The previous FS, in 1/256 ns of elapsed time (R230). -/
  prevSof : Option Held
  /-- The channels' skip counts at the previous FS that took a number, or at the open (R302). -/
  prevSkips : Vector Word 4
  prevCounter : Option Nat
  embMap : List EmbField
  nextMap : Option (List EmbField)
  /-- The map has come from outing key 6 at a first open (R234). -/
  openedOnce : Bool
  epoch : Word
  /-- New settings of a commit that switch at the frame boundary (R313). -/
  nextCfg : Option StreamCfg
  /-- STREAM_CLOSE: cancelled items (R233). -/
  cancelled : Nat
  /-- Rising edges of TRIG sync_trig since `lastEof` (R304). -/
  edgeCount : Word
  deriving DecidableEq, Repr

/-- One item of a staged set (R310). -/
inductive StageItem where
  | stream (n : Fin 32) (cfg : StreamCfg)
  | port (p : Fin 8) (cfg : PortCfg)
  deriving DecidableEq, Repr

/-- An epoch that a function is switching (R311 to R314). -/
structure Commit where
  epoch : Word
  streams : List (Fin 32)
  unswitched : List (Fin 32)
  switched : Nat
  ports : List (Fin 8)
  /-- Validation, in `State.elapsed` ticks. -/
  at_ : Nat
  first : Option Held
  deriving DecidableEq, Repr

/-- A function's staged set and its epochs (R310 to R317). -/
structure Epochs where
  items : List StageItem
  commit : Option Commit
  lastEpoch : Word
  lastStatus : Nat
  /-- The first and last switch of the last completed epoch, for TRANSITION (R314). -/
  lastSpan : Option (Held × Held)
  lastStreams : List (Fin 32)
  deriving DecidableEq, Repr

/-- A hopper's state (R318). -/
inductive HopMode where
  | unbound
  | bound
  | pending
  | armed
  | triggered
  | captured
  | stopped
  deriving DecidableEq, Repr

/-- A ring entry (R330): its tag as it entered the ring, its payload, and the moment that places it (R327). -/
structure HopEntry where
  tag : Tag
  /-- DROPPED_WEIR, GAP, OVERFLOW and TIME_STEPPED as the ring wrote them. -/
  flags : Nat
  meas : Nat
  mark : Held
  payload : List Byte
  /-- The step count when it entered the ring (R331). -/
  steps : BitVec 16
  deriving DecidableEq, Repr

/-- A copy-out in progress (R332 to R334). -/
structure HopCopy where
  first : Nat
  /-- 0 for all from `first`. -/
  count : Nat
  channel : Fin 64
  payload : Nat
  payloadMill : Bool
  tags : Nat
  tagsMill : Bool
  half : Bool
  copied : Nat
  bytes : Nat
  halfDone : Bool
  deriving DecidableEq, Repr

/-- A hopper (R318 to R343). -/
structure Hop where
  mode : HopMode
  stream : Option (Fin 32)
  cls : Class
  rank : Nat
  slots : Nat
  slotBytes : Nat
  queue : Nat
  units : Nat
  autoCopy : Bool
  half : Bool
  preDepth : Nat
  postCount : Nat
  trigMask : BitVec 128
  tslMask : BitVec 64
  channel : Nat
  bufPayload : Nat
  bufPayloadMill : Bool
  bufTags : Nat
  bufTagsMill : Bool
  /-- Entries held, oldest first; the first `gone` of them have left the ring's slots by copy-out (R333). -/
  entries : List HopEntry
  gone : Nat
  /-- The sequence of the frame that is being written into the ring. -/
  partialSeq : Option Word
  /-- Weir sheds that frame for this hopper (R337). -/
  partialShed : Bool
  /-- Bytes in the write stage (R329). -/
  stage : Nat
  prevSeq : Option Word
  guardOwed : Bool
  /-- The event number of the present capture, 0 for none, and the last one (HOP_STATE.event). -/
  event : Nat
  lastEvent : Nat
  code : Nat
  stamp : Held
  trigFlags : Nat
  /-- The tick of the trigger (R325). -/
  trigAt : Nat
  preShort : Bool
  overflow : Bool
  aborted : Bool
  quiet : Bool
  /-- A disarm waits for its line boundary and copy instruction: mode (R338). -/
  disarming : Option Nat
  endAt : Option Held
  snap : Option Snap
  epoch : Word
  meas : Nat
  copy : Option HopCopy
  copied : Nat
  ignored : Word
  deriving DecidableEq, Repr

end Sys2Proof.Machine
end

