-- ==== Sys2Proof/Machine/StateChan.lean ====
section
/-! DEFINITION. The types of Millrace channels (chapter "Millrace DMA"). -/

namespace Sys2Proof.Machine

/-- A channel's state (R403). -/
inductive ChanMode where
  | idle
  | loaded
  | running
  | waiting
  | stopping
  | halted
  deriving DecidableEq, Repr

/-- A pointer register: space 0 host, 1 Millpond, 2 LPDDR5X (R404). -/
structure Ptr where
  space : Nat
  addr : BitVec 64
  deriving DecidableEq, Repr

/-- A shape register (R410). -/
structure Shape where
  line : Nat
  lines : Nat
  stride : Int
  deriving DecidableEq, Repr

/-- The CRC accumulator (R415): its kind, its side (true for DESTINATION) and its register. -/
structure Crc where
  kind : Nat
  dst : Bool
  value : Nat
  deriving DecidableEq, Repr

/-- A wait slot (R421). -/
structure WaitSlot where
  kind : Nat
  index : Nat
  count : Nat
  deriving DecidableEq, Repr

/-- An open loop: the index of its LOOP and the passes left, 0 for unbounded (R411). -/
structure OpenLoop where
  at_ : Nat
  left : Nat
  unbounded : Bool
  deriving DecidableEq, Repr

/-- What an arrival point holds until the read-back completes (R424). -/
inductive Arrival where
  | entry
  | slot
  | fence
  | endRun
  | stop
  deriving DecidableEq, Repr

/-- A WAIT in progress (R422): its slot and count, whether it fails with CONTINUE, and its deadline. -/
structure Waiting where
  slot : Nat
  count : Nat
  goOn : Bool
  deadline : Option Nat
  deriving DecidableEq, Repr

/-- A Millrace channel (R403 to R436). -/
structure Chan where
  mode : ChanMode
  enabled : Bool
  quiet : Bool
  borrowed : Bool
  /-- It halted in a borrow: CHAN_CTRL stop returns it to IDLE (R433). -/
  copyHalt : Bool
  goRefused : Bool
  waitFailed : Bool
  slotDropped : Bool
  ctrlIgnored : Bool
  queue : Nat
  share : Nat
  /-- The Sluice buckets in eighths of a byte, as they stood at `bucketAt`, in `State.elapsed` ticks (R426). -/
  readBucket : Nat
  writeBucket : Nat
  bucketAt : Nat
  /-- The programme as Valtyn read it, 16 bytes an instruction, its buffer, and the loop depth of each index (R405). -/
  programme : List Byte
  progAddr : Nat
  progMill : Bool
  depths : List Nat
  ptrs : Vector Ptr 8
  shapes : Vector Shape 4
  runId : Word
  crc : Option Crc
  loops : List OpenLoop
  slots : Vector WaitSlot 8
  /-- Queued runs: entry point and the job key by which its queue knows the run until its final entry. -/
  queued : List (Nat × Word)
  runKey : Word
  nextKey : Word
  pc : Nat
  bytes : Nat
  entryBytes : Nat
  lastHost : Option Nat
  arrival : Option Arrival
  wait : Option Waiting
  keptStatus : Nat
  haltCause : Nat
  haltStatus : Nat
  haltSpace : Nat
  haltWrite : Bool
  haltAddr : Nat
  lastCrc : Word
  runs : Word
  latchBytesHi : Word
  /-- A disable owes its QUIET notice: the runs cancelled (R429). -/
  quietOwed : Option Nat
  /-- A stop has been accepted while an arrival point is in progress (R427). -/
  stopAfter : Bool
  deriving DecidableEq, Repr

end Sys2Proof.Machine
end

