-- ==== Sys2Proof/Machine/StateHost.lean ====
section
/-! DEFINITION. The types of the host side of the state: functions, hampers, tailrace queues, the instance plan, the
event log, and what the part sends out (chapters "Host link", "Hampers and tailraces", "Faults, logging and reset"). -/

namespace Sys2Proof.Machine

/-- The state of a function (FUNC_STATUS.state, R56 to R68). -/
inductive FnMode where
  | absent
  | bare
  | ready
  | fencing
  | wedged
  deriving DecidableEq, Repr

/-- FUNC_STATUS.state as the register codes it (R68). -/
def FnMode.code : FnMode → Nat
  | .absent => 0
  | .bare => 1
  | .ready => 2
  | .fencing => 3
  | .wedged => 4

/-- What the camera window of an early picture shows (R195 to R197): nothing where there is none, the background while reverse
is not engaged, the waiting colour, or one of the two window buffers. -/
inductive Window where
  | none
  | background
  | waiting (colour : Word)
  | camera (buffer : Fin 2)
  deriving DecidableEq, Repr

/-- The picture of a frame sent to a panel (R163, R189, R195): black, the SoC's, the SoC's with the painter drawing, or the
early picture with its camera window. -/
inductive Picture where
  | black
  | soc
  | painted
  | early (window : Window)
  deriving DecidableEq, Repr

/-- What leaves the part, newest first in `State.out`. Host memory and the partners are outside the machine, so a write
to them is held as the write itself. -/
inductive Output where
  /-- A memory write into a function's host memory with its attributes Relaxed Ordering and No Snoop (R31, R36). -/
  | hostWrite (fn : Fn) (addr : Nat) (bytes : List Byte) (relaxed noSnoop : Bool)
  /-- An MSI-X message of a function (R42, R101). -/
  | msix (fn : Fn) (vector : Nat) (addr : Nat) (data : Word)
  /-- A successful completion of a read by the host. -/
  | completion (fn : Fn) (data : List Word)
  /-- A completion with Request Retry Status (R34, R56). -/
  | rrs (fn : Fn)
  /-- A completion with Unsupported Request status (R32, R67). -/
  | ur (fn : Fn)
  /-- A completion with Completer Abort status (R52). -/
  | ca (fn : Fn)
  /-- A fatal error message to the root (R67). -/
  | fatalMessage (fn : Fn)
  /-- A PTM request to the root (R117). -/
  | ptmRequest
  /-- An SPDM response over DOE (R159). -/
  | spdm (bytes : List Byte)
  /-- The reply half of a TSL transaction (R174, R175). -/
  | tsl (bytes : List Byte)
  /-- An AUX reply to the SoC (R166). -/
  | auxReply (path : Fin 2) (bytes : List Byte)
  /-- An AUX DEFER to the SoC (R166). -/
  | auxDefer (path : Fin 2)
  /-- An AUX NACK to the SoC (R166, R206). -/
  | auxNack (path : Fin 2)
  /-- An AUX request forwarded to the panel (R166). -/
  | auxForward (path : Fin 2) (write : Bool) (addr : Nat) (data : List Byte)
  /-- A pulse or a level change of the sink's HPD ball towards the SoC: `pulseUs` is its length, 0 for a lasting low. -/
  | hpd (path : Fin 2) (pulseUs : Nat)
  /-- One frame sent to a panel (R163, R195, R197). -/
  | panelFrame (path : Fin 2) (picture : Picture)
  /-- The timing and the attributes that the source sends to the panel from here on (R165, R167, R199). -/
  | panelTiming (path : Fin 2) (msa : Msa)
  /-- PSR entry or exit repeated towards the panel (Edges of R165). -/
  | panelPsr (path : Fin 2) (enter : Bool)
  /-- A tunnelled I2C transaction sent up a camera link (R213). -/
  | i2c (port : Fin 8) (dev : Nat) (write : List Byte) (readLength : Nat)
  /-- A GPIO level sent over a camera link (R214). -/
  | gpio (port : Fin 8) (line : Nat) (level : Bool)
  /-- A trigger edge sent up a camera link (R214). -/
  | uplinkTrigger (port : Fin 8) (level : Bool)
  /-- A command up a camera link to change its gear (R217). -/
  | gearCommand (port : Fin 8) (gear : Nat)
  /-- A cycle on POSn_CLK, inverted or not (R259, R260, R272): the clock frequency, and the number of pulses where the LV648 knows
  it. -/
  | sensorClock (ch : Fin 4) (khz : Nat) (pulses : Option Nat) (inverted : Bool)
  /-- The level at which POSn_CLK rests (R239). -/
  | sensorIdle (ch : Fin 4) (level : Bool)
  /-- The levels of EMUm_A, EMUm_B and EMUm_Z (R265, R267). -/
  | emulator (m : Fin 2) (a b z : Bool)
  deriving DecidableEq, Repr

/-- One MSI-X table entry with its pending bit (R42). -/
structure MsixEntry where
  addr : BitVec 64
  data : Word
  masked : Bool
  pending : Bool
  deriving DecidableEq, Repr

/-- The AER status bits that R67 names. -/
structure Aer where
  malformed : Bool
  ur : Bool
  ca : Bool
  poisoned : Bool
  ecrc : Bool
  unexpected : Bool
  timeout : Bool
  deriving DecidableEq, Repr

/-- An INSTANCE_QUIESCE in progress (R475): the blocks whose QUIET notice it still waits for, as the notice names them, and
the items cancelled so far. -/
structure Quiesce where
  blocks : List Nat
  total : Nat
  deriving DecidableEq, Repr

/-- One function of the part (R31, R56 to R68, R77 to R89, R107). -/
structure FnState where
  mode : FnMode
  /-- When the FLR of the fence in progress was accepted, in `State.elapsed` ticks (R56). -/
  flrAt : Option Nat
  /-- Device Status Transactions Pending (R61). -/
  transPending : Bool
  busMaster : Bool
  msixEnable : Bool
  msixMaskAll : Bool
  msix : Vector MsixEntry 32
  aer : Aer
  /-- AER masks the fatal message of a malformed TLP (R67). -/
  malformedMasked : Bool
  /-- The other configuration doublewords the host has written (offset, value). -/
  cfg : List (Nat × Word)
  scratch : Word
  errPartial : Bool
  errUnimpl : Bool
  errUnowned : Bool
  errLocked : Bool
  errAddr : Word
  serialHi : Word
  timeHi : Word
  timeFrac : Word
  /-- PORCH_REQ, 256 bytes. -/
  porchReq : List Byte
  /-- The hamper that Valtyn copied at the accepted doorbell (R78). -/
  porchCopy : List Byte
  porchReply : List Byte
  porchBusy : Bool
  porchDone : Bool
  porchRefused : Bool
  reqBase : Nat
  repBase : Nat
  repVector : Nat
  reqTail : BitVec 6
  reqHead : BitVec 6
  repTail : BitVec 6
  repHead : BitVec 6
  replyErr : Bool
  fetchErr : Bool
  indexErr : Bool
  /-- The submitted hampers that Valtyn has not fetched, oldest first: true for the porch, false for a ring (R83). -/
  doorbells : List Bool
  /-- RINGS_CLEAR has been answered and ring hampers submitted before it are still being answered (R108). -/
  clearing : Bool
  noticeQueue : Option (Fin 32)
  noticesDiscarded : Word
  quiesce : Option Quiesce
  deriving DecidableEq, Repr

/-- The live instance plan (R45 to R49, R69). -/
structure Plan where
  planId : Word
  streams : Vector Fn 32
  channels : Vector Fn 64
  queues : Vector Fn 32
  hoppers : Vector Fn 16
  comparators : Vector Fn 16
  deriving DecidableEq, Repr

/-- The PCIe link and what the part as a whole holds of configuration space (R31 to R40). -/
structure Link where
  perstLow : Bool
  /-- The moment from which the 60 ms of R34 and R495 run, in `State.elapsed` ticks. -/
  rrsFrom : Nat
  up : Bool
  speed : BitVec 4
  width : BitVec 3
  reversed : Bool
  flit : Bool
  sris : Bool
  changed : Bool
  vfEnable : Bool
  numVfs : Nat
  ptmEnable : Bool
  deriving DecidableEq, Repr

/-- A tailrace entry before its phase bit (R95). -/
structure TqEntry where
  kind : Nat
  index : Nat
  job : Word
  status : Nat
  flags : Nat
  count : Word
  deriving DecidableEq, Repr

/-- A job submitted to a queue whose entry has not been written (R103, R104). `entry` is its finished entry, held for
STRICT order. -/
structure QJob where
  kind : Nat
  index : Nat
  job : Word
  entry : Option TqEntry
  deriving DecidableEq, Repr

/-- A tailrace queue (R94 to R105, R107). -/
structure Queue where
  enabled : Bool
  stopped : Bool
  millpond : Bool
  anyOrder : Bool
  vector : Nat
  entries : Nat
  base : Nat
  threshold : Nat
  timeUs : Nat
  head : Nat
  tail : Nat
  phase : Bool
  headErr : Bool
  overflow : Bool
  dropped : Word
  /-- The next entry written carries OVERFLOW (R66, R99, R100). -/
  owed : Bool
  /-- Unsignalled entries (R101). -/
  unsignalled : Nat
  /-- When the moderation timer started, in `State.elapsed` ticks. -/
  timerFrom : Option Nat
  jobs : List QJob
  deriving DecidableEq, Repr

/-- A hamper answered ACCEPTED whose HAMPER_DONE notice is owed (R85, R89): its opcode, sender, sequence, the index of
the resource it works on and its request payload. -/
structure Accepted where
  op : Nat
  fn : Fn
  sequence : Word
  index : Nat
  payload : List Byte
  deriving DecidableEq, Repr

/-- A hamper that Valtyn has fetched and whose reply follows a later command (R83, R213, R268, R297): its opcode, the
index of what it waits for, its sender, way, sequence and payload, and when it was fetched. -/
structure Owed where
  op : Nat
  index : Nat
  fn : Fn
  porch : Bool
  sequence : Nat
  payload : List Byte
  at_ : Nat
  deriving DecidableEq, Repr

/-- An event in the collector (R480). -/
structure Event where
  code : Nat
  fn : Nat
  unit : Nat
  time : BitVec 64
  count : Word
  deriving DecidableEq, Repr

/-- An entry of the event log (R481). -/
structure LogEntry where
  code : Nat
  severity : Nat
  acked : Bool
  mirrored : Bool
  saturated : Bool
  lostBefore : Bool
  sequence : Word
  firstNs : BitVec 64
  lastNs : BitVec 64
  count : Word
  fn : Nat
  unit : Nat
  start : BitVec 16
  deriving DecidableEq, Repr

/-- A pending fault (R484). -/
structure PendingFault where
  code : Nat
  fn : Nat
  unit : Nat
  sequence : Word
  count : Word
  deriving DecidableEq, Repr

/-- A bank of the event-log mirror in MRAM (R486); `good` is whether its CRC is good. -/
structure MirrorBank where
  number : Word
  startNumber : Word
  reason : Nat
  newestSequence : Word
  lost : Word
  timeNs : BitVec 64
  entries : List LogEntry
  good : Bool
  deriving DecidableEq, Repr

/-- The event collector, the log, the pending faults and the mirror's schedule (R480 to R488, R498). -/
structure Log where
  /-- Events not yet drained, oldest first, at most 256. -/
  collector : List Event
  /-- The log, newest entry first, at most 1024. -/
  entries : List LogEntry
  sequence : Word
  /-- Slot of the newest entry. -/
  headSlot : Nat
  lostSticky : Bool
  restored : Bool
  lost : Word
  /-- Events dropped since the start (FAULT_STATUS.lost). -/
  lostTotal : Word
  /-- Events dropped and not yet reported by 0x9013. -/
  lostUnreported : Word
  /-- The next entry carries LOST_BEFORE. -/
  lostBefore : Bool
  filtered : Word
  /-- LOG_FILTER's info_mask. -/
  filterMask : BitVec 16
  faults : List PendingFault
  faultOverflow : Bool
  /-- Log holds entries newer than the last mirror; a FAULT among them (R487). -/
  newSinceMirror : Bool
  faultSinceMirror : Bool
  lastMirror : Option Nat
  /-- The reason code of a mirror being written, with what follows it (3: the full reset of a DEVICE_RESET). -/
  mirroring : Option Nat
  /-- A reset has left the log in Millpond intact (R488, R494). -/
  kept : Bool
  deriving DecidableEq, Repr

end Sys2Proof.Machine
end

