-- ==== Sys2Proof/Machine/StateGuard.lean ====
section
/-! DEFINITION. The types of the display guardian (chapter "Display guardian"). -/

namespace Sys2Proof.Machine

/-- A path's state (R163). -/
inductive PathMode where
  | bypass
  | held
  | unchecked
  | early
  | trial
  | checked
  | repair
  deriving DecidableEq, Repr

/-- The codes of R163. -/
def PathMode.code : PathMode → Nat
  | .bypass => 0
  | .held => 1
  | .unchecked => 2
  | .early => 3
  | .trial => 4
  | .checked => 5
  | .repair => 6

/-- A reference: one word per pixel (R180). -/
structure Look where
  w : Nat
  h : Nat
  words : List Word
  deriving DecidableEq, Repr

/-- A region (R178); early items are EXACT regions (R195). -/
structure Region where
  region : Nat
  telltale : Nat
  x : Nat
  y : Nat
  w : Nat
  h : Nat
  onRef : Nat
  offRef : Nat
  tolerance : Nat
  maxMismatch : Nat
  deriving DecidableEq, Repr

/-- A region set with its regions_id (R184). -/
structure RegionSet where
  id : Word
  regions : List Region
  deriving DecidableEq, Repr

/-- A layout of the early picture (R193); the camera window has width 0 where there is none. -/
structure Layout where
  khz : Nat
  timing : List Nat
  bpc : Nat
  background : Word
  camX : Nat
  camY : Nat
  camW : Nat
  camH : Nat
  mirror : Bool
  pattern : Nat
  /-- Tell-tale, x, y, on_ref, off_ref of each item. -/
  items : List (Nat × Nat × Nat × Nat × Nat)
  deriving DecidableEq, Repr

/-- What a path latches at the start of a frame (R177): the expected state, reverse, the alive counter, the TSL's verdict
flags, the tell-tales in their settle window, the tell-tale painting phase's moment, all at this `State.elapsed` tick. -/
structure Latch where
  codes : BitVec 128
  reverse : Bool
  alive : Nat
  stale : Bool
  lost : Bool
  settling : BitVec 64
  at_ : Nat
  deriving DecidableEq, Repr

/-- A frame of a path: of the SoC (input, and output where it passes), or of the path's own PLL (R167, R177). -/
structure GFrame where
  /-- It leaves on the path's own timing. -/
  own : Bool
  /-- The state at its start. -/
  mode : PathMode
  latch : Latch
  regions : List Region
  regionsId : Word
  /-- The camera window of the early picture (R195). -/
  window : Window
  /-- The first active output pixel. -/
  sof : Option Held
  /-- The pixels of the regions as received. -/
  pixels : List (Nat × List Word)
  judgedIn : BitVec 32
  failedIn : BitVec 32
  /-- BLINK draws on_ref (R189). -/
  blinkOn : Bool
  /-- Active lines (R184). -/
  lines : Nat
  complete : Bool
  deriving DecidableEq, Repr

/-- What a check point remembers of each region for BLINK (R181): when BLINK was first latched, and when an ON look was
last seen, in `State.elapsed` ticks. -/
structure Check where
  opened : Vector (Option Nat) 32
  lastOn : Vector (Option Nat) 32
  deriving DecidableEq, Repr

/-- A verdict and digest route (R188). -/
structure GRoute where
  queue : Fin 32
  slots : Nat
  addr : Nat
  mill : Bool
  digestSlots : Nat
  digestAddr : Nat
  digestMill : Bool
  deriving DecidableEq, Repr

/-- A digest that Valtyn has still to sign (R186). -/
structure OwedDigest where
  k : Nat
  meas : Nat
  timeNs : BitVec 64
  chain : List Byte
  deriving DecidableEq, Repr

/-- A display path (R163 to R199). -/
structure GPath where
  mode : PathMode
  /-- The always-on bypass switch is closed (R168). -/
  bypass : Bool
  trained : Bool
  retraining : Bool
  /-- DEVICE_STATUS.handover of the path (R199). -/
  handed : Bool
  /-- The early picture is on the panel: ST10 has ended (R135). -/
  showing : Bool
  /-- The sink holds HPD low after the switch opened (R169). -/
  hpdLow : Option Nat
  /-- AUX towards the panel: when the present run of AUX_DEFER began, whether its 50 ms have passed, a forwarded request
  that waits for its reply (R166, R206). -/
  deferFrom : Option Nat
  deferOver : Bool
  auxWait : Option Nat
  /-- The sink's link configuration field, as the SoC wrote it. -/
  dpcd : List Host.Cell
  /-- The SoC's stream. -/
  stream : Option Msa
  /-- The timing in force at the output (R167, R191). -/
  timing : Option Msa
  /-- The last vertical start of the SoC, or since when the path has waited for one, in `State.elapsed` ticks (R191). -/
  startAt : Nat
  mismatchLogged : Bool
  good : Nat
  /-- The next frame boundary takes the path to CHECKED (R164). -/
  boundary : Bool
  input : Option GFrame
  outs : List GFrame
  /-- The last latch of an output frame. -/
  latch : Option Latch
  inCheck : Check
  outCheck : Check
  /-- When the present painting or early picture began, for BLINK (R189). -/
  paintFrom : Option Nat
  psr : Bool
  /-- Looks and regions of the last frame checked at the output. -/
  lastLooks : List (Nat × Nat)
  gapOwed : Bool
  set : RegionSet
  nextSet : Option RegionSet
  refs : Vector (Option Look) 128
  nextRefs : List (Nat × Look)
  /-- The looks of a GUARD_REFS_LOAD in progress. -/
  loading : List (Nat × Look)
  layout : Option Layout
  /-- The generator runs the built-in layout (R135, R194). -/
  builtIn : Bool
  nextSeq : Word
  newestSeq : Word
  newestFail : Word
  failFrames : Word
  paintedFrames : Word
  signed : Word
  /-- h of R185; empty before the first verdict of the start. -/
  chain : List Byte
  /-- The last 4 096 verdict records, newest first. -/
  verdicts : List (List Byte)
  /-- The last 64 digests with their numbers, newest first. -/
  digests : List (Nat × List Byte)
  owedDigests : List OwedDigest
  route : Option GRoute
  undelivered : Word
  deriving DecidableEq, Repr

/-- The guardian configuration in ms (R207). -/
structure GuardCfg where
  tslTimeout : Nat
  tslLoss : Nat
  settle : Nat
  blinkMax : Nat
  blinkPeriod : Nat
  cameraStale : Nat
  deriving DecidableEq, Repr

/-- The TSL's state (R176). -/
inductive TslMode where
  | none
  | live
  | stale
  | lost
  deriving DecidableEq, Repr

/-- The code of a TSL state. -/
def TslMode.code : TslMode → Nat
  | .none => 0
  | .live => 1
  | .stale => 2
  | .lost => 3

/-- What a latch takes of the TSL (R177). -/
structure TslView where
  mode : TslMode
  validAlive : Nat
  codes : BitVec 128
  reverse : Bool
  settle : Vector (Option Nat) 64
  deriving DecidableEq, Repr

/-- The tell-tale state link (R170 to R176). -/
structure Tsl where
  /-- ST07 has enabled the target. -/
  on : Bool
  mode : TslMode
  /-- Alive of the last valid frame, or of the last resynchronisation. -/
  alive : Option Nat
  /-- Alive of the last valid frame, for replies. -/
  validAlive : Nat
  codes : BitVec 128
  reverse : Bool
  /-- When the last valid frame ended, or ST07 did, in `State.elapsed` ticks. -/
  lastAt : Nat
  silenceLogged : Bool
  valid : Word
  bad : Word
  /-- The last valid frame was MEAS_READ with this chunk index. -/
  chunk : Option Nat
  /-- When the guardian has served the frames in the buffer (R113), in `State.elapsed` ticks. -/
  busy : List Nat
  /-- The link as it stood before the tick of the last valid frame (Edges of R177). -/
  before : TslView
  deriving DecidableEq, Repr

/-- A chime template (R200). -/
structure Template where
  telltale : Nat
  input : Nat
  slot : Nat
  hops : Nat
  windowMs : Nat
  threshold : Nat
  minRms : Int
  mask : BitVec 40
  values : List (List Int)
  deriving DecidableEq, Repr

/-- A chime result (R201, R202): 1 HEARD, 2 MISSED; `seq` is its carrying verdict's sequence. -/
structure ChimeResult where
  template : Nat
  result : Nat
  distance : Nat
  seq : Word
  at_ : Held
  deriving DecidableEq, Repr

/-- The rear camera's newest complete window buffer: when it completed, the size of its rear picture, and which of the two it
is (R196). -/
structure Rear where
  at_ : Nat
  w : Nat
  h : Nat
  buffer : Fin 2
  stale : Bool
  deriving DecidableEq, Repr

/-- The guardian (chapter "Display guardian"). -/
structure Guard where
  paths : Vector GPath 2
  cfg : GuardCfg
  /-- A GUARD_CONFIG waits for the next latch. -/
  nextCfg : Option GuardCfg
  tsl : Tsl
  powerOn : BitVec 128
  lossSet : BitVec 128
  waiting : Word
  /-- The ends of the settle windows, in `State.elapsed` ticks (R182). -/
  settle : Vector (Option Nat) 64
  templates : Vector (Option Template) 16
  /-- The ends of the open chime windows, in `State.elapsed` ticks (R201). -/
  windows : Vector (Option Nat) 16
  /-- Decided results that no verdict has carried yet, oldest first. -/
  chimes : List ChimeResult
  /-- The last eight results, newest first. -/
  results : List ChimeResult
  heard : Word
  missed : Word
  rear : Option Rear
  /-- The two window buffers, 16 bits a pixel (R196, R203). -/
  rearBuffers : Vector (List (BitVec 16)) 2
  /-- The newest rear frame had a data type that the tap does not accept (R197). -/
  rearBad : Bool
  /-- The templates of a CHIME_TEMPLATES_LOAD in progress. -/
  loading : List (Nat × Template)
  /-- The rear port's lock count when 0x4014 was logged (R197). -/
  noTypeAt : Option Word
  deriving DecidableEq, Repr

end Sys2Proof.Machine
end

