-- ==== Sys2Proof/Machine/StatePrep.lean ====
section
/-! DEFINITION. The types of the pyramid engine, the record decoder and the audio feature engine (chapter "Preparation
engines"). -/

namespace Sys2Proof.Machine

/-- What a pyramid is built from and into (R350 to R356): levels, write_level0, input kind, pattern, output, data type,
size, source pitch and whether RAW is unpacked. -/
structure PyrDesc where
  levels : Nat
  write0 : Bool
  kind : Nat
  pattern : Nat
  output : Nat
  dataType : Nat
  w : Nat
  h : Nat
  srcPitch : Nat
  unpacked : Bool
  deriving DecidableEq, Repr

/-- A pyramid job (R344 to R357). -/
structure PyrJob where
  job : Word
  fn : Fn
  queue : Fin 32
  /-- The stream of a frame job. -/
  stream : Option (Fin 32)
  desc : PyrDesc
  /-- A buffer job's source in Millpond, if it lies there. -/
  source : Option Nat
  /-- Destination: space 0 host, 1 Millpond, 2 LPDDR5X, and address. -/
  space : Nat
  addr : Nat
  running : Bool
  stopping : Bool
  pass : Nat
  /-- A frame job's lines once its frame has ended. -/
  fed : Option (List (List Byte))
  partner : Bool
  written : Nat
  /-- The job belongs to a binding that has been ended. -/
  ended : Bool
  deriving DecidableEq, Repr

/-- A stream's pyramid binding (R356 to R360). -/
structure Binding where
  stream : Fin 32
  fn : Fn
  queue : Fin 32
  desc : PyrDesc
  cls : Class
  rank : Nat
  /-- Destination ring: space 0 host, 1 Millpond, 2 LPDDR5X, and address. -/
  space : Nat
  addr : Nat
  slots : Nat
  slotBytes : Nat
  units : Nat
  /-- The next entry carries OVERFLOW (R360). -/
  owed : Bool
  deriving DecidableEq, Repr

/-- A decode job (R361 to R365). -/
structure DecJob where
  job : Word
  fn : Fn
  queue : Fin 32
  input : Nat × Bool × Nat
  output : Nat × Bool × Nat
  stopping : Bool
  deriving DecidableEq, Repr

/-- An ended binding or route whose QUIET notice is owed (R348): kind (3 pyramid, 5 audio), index and jobs cancelled. -/
structure EndedWork where
  fn : Fn
  kind : Nat
  index : Nat
  cancelled : Nat
  deriving DecidableEq, Repr

/-- The pyramid engine and the record decoder (R344 to R365, R374). -/
structure Prep where
  jobs : List PyrJob
  bindings : List Binding
  dropped : Vector Word 16
  decRun : Option DecJob
  decQueue : List DecJob
  ended : List EndedWork
  /-- When the pyramid engine, the decoder and the audio engine last made progress, in `State.elapsed` ticks (R468). -/
  pyrAt : Nat
  decAt : Nat
  audAt : Nat
  deriving DecidableEq, Repr

/-- An audio input's state (R367). -/
inductive AudMode where
  | off
  | acquire
  | running
  | lost
  deriving DecidableEq, Repr

/-- The fields of AUDIO_CONFIG (R375). -/
structure AudCfg where
  format : Nat
  slots : Nat
  slotBits : Nat
  sampleBits : Nat
  edges : Nat
  mask : BitVec 8
  deriving DecidableEq, Repr

/-- A route of an input's records (R371). -/
structure AudRoute where
  fn : Fn
  queue : Fin 32
  mask : BitVec 8
  slots : Nat
  addr : Nat
  mill : Bool
  deriving DecidableEq, Repr

/-- The feature record of one slot and hop before its time field is written (R369). -/
structure AudRecord where
  slot : Nat
  clipped : Bool
  gap : Bool
  rate : Bool
  hop : Word
  at_ : Held
  rms : Int
  peak : Nat
  bands : List Int
  deriving DecidableEq, Repr

/-- A computed hop whose records are not yet written: its sequence, whether a route's job waits for it, and its records. -/
structure AudReady where
  routed : Bool
  hop : Word
  records : List AudRecord
  deriving DecidableEq, Repr

/-- An audio input (R366 to R373). -/
structure Audio where
  mode : AudMode
  cfg : AudCfg
  /-- The feature mask from the next hop on (R372). -/
  nextMask : BitVec 8
  good : Nat
  bad : Nat
  lastFs : Option Held
  /-- Hops produced; the newest hop's sequence is one less. -/
  hops : Word
  /-- Frames of the hop in progress, newest first, at most 480; and the frames before it that the window may reach. -/
  frames : List (List Int)
  before : List (List Int)
  hopStart : Option Held
  hopFs : Option Held
  gap : Bool
  /-- Bytes in the input FIFO (R113). -/
  fifo : Nat
  route : Option AudRoute
  /-- The hop in progress has been submitted as a job of the route (R103). -/
  submitted : Bool
  ready : Option AudReady
  /-- The records of the last 64 hops, newest first, for the chime witness (R201). -/
  past : List (List AudRecord)
  deriving DecidableEq, Repr

end Sys2Proof.Machine
end

