-- ==== Sys2Proof/Machine/StateWitness.lean ====
section
/-! DEFINITION. The types of the witness sampler (chapter "Witness sampler"). -/

namespace Sys2Proof.Machine

/-- The sampler's state (R438). -/
inductive WitMode where
  | unconfigured
  | configured
  | pending
  | armed
  | triggered
  | captured
  | stopped
  deriving DecidableEq, Repr

/-- The codes of R438. -/
def WitMode.code : WitMode → Nat
  | .unconfigured => 0
  | .configured => 1
  | .pending => 2
  | .armed => 3
  | .triggered => 4
  | .captured => 5
  | .stopped => 6

/-- A trigger unit's entry of WITNESS_CONFIG (R447, R463). -/
structure WitUnit where
  kind : Nat
  source : Nat
  fall : Bool
  outside : Bool
  lo : Nat
  hi : Nat
  tMin : Nat
  tMax : Nat
  deriving DecidableEq, Repr

/-- What a trigger unit remembers of its source (R447): whether it is above, when it went above, the last sample at or
below thr_lo, the start of a runt, and whether TIMEOUT has fired for this pulse. -/
structure WitTrack where
  above : Option Bool
  rose : Option Held
  low : Option Held
  wasLow : Bool
  runt : Option Held
  timedOut : Bool
  deriving DecidableEq, Repr

/-- The fields of WITNESS_CONFIG (R463). -/
structure WitCfg where
  ain : BitVec 16
  dw : BitVec 16
  div : Nat
  glitch : Nat
  pos : Nat
  reduce : Nat
  bytes : Nat
  edgeBytes : Nat
  units : List WitUnit
  deriving DecidableEq, Repr

/-- The fields of WITNESS_ARM (R463). -/
structure WitArm where
  pre : Nat
  post : Nat
  units : BitVec 8
  codes : BitVec 128
  tsl : BitVec 64
  deriving DecidableEq, Repr

/-- What the analog ring holds of one tick, or with reduction of one group (R441, R446): the number of its first tick, its
instant, the DW levels then, and its words. -/
structure WitTick where
  n : Nat
  at_ : Held
  level : BitVec 16
  words : List (BitVec 16)
  deriving DecidableEq, Repr

/-- An edge record before its offset is known (R443). -/
structure WitEdge where
  at_ : Held
  line : Fin 16
  dense : Bool
  level : Bool
  deriving DecidableEq, Repr

/-- The trigger of a capture (R449 to R451): code, stamp, LATE and INFERRED in bits 0 and 1, i_trig, hopper event number,
measurement index, the snapshot of pos_channel and the tick on which it was decided. -/
structure WitTrig where
  code : Nat
  stamp : Held
  flags : Nat
  tick : Int
  event : Nat
  meas : Nat
  snap : Option Snap
  decided : Nat
  deriving DecidableEq, Repr

/-- A capture route (R455). -/
structure WitRoute where
  queue : Fin 32
  slots : Nat
  slotBytes : Nat
  addr : Nat
  mill : Bool
  deriving DecidableEq, Repr

/-- The witness sampler (R438 to R463). -/
structure Wit where
  mode : WitMode
  cfg : WitCfg
  arm : WitArm
  /-- The `State.elapsed` tick on which the configuration applied: capture ticks count from it. -/
  appliedAt : Nat
  /-- Capture ticks that have converted, and the instant of the newest. -/
  tick : Nat
  tickAt : Option Held
  /-- The next input of each ADC, as a place in its group's enabled inputs. -/
  next0 : Nat
  next1 : Nat
  codes : Vector (BitVec 12) 16
  /-- Raw and filtered levels of DW15–DW0. -/
  raw : Vector RawLine 16
  level : BitVec 16
  /-- Bytes in the ADC capture FIFO (R113). -/
  fifo : Nat
  tracks : Vector WitTrack 8
  /-- The group in progress: its first tick, that tick's instant and levels, and input, least and greatest code so far. -/
  group : Option WitTick
  extremes : List (Nat × Nat × Nat)
  ticks : List WitTick
  edges : List WitEdge
  /-- The stamp of the newest record that another has overwritten. -/
  edgeLost : Option Held
  denseOwed : BitVec 16
  trig : Option WitTrig
  capture : Word
  overflow : Bool
  cause : Nat
  aborted : Bool
  preShort : Bool
  quiet : Bool
  glitches : Nat
  dense : Nat
  endAt : Option Held
  endMeas : Nat
  /-- The finished record's trigger and step count at t0 stay with `ticks`; a delivery of it runs. -/
  delivering : Bool
  delivered : Bool
  /-- A disarm that WITNESS_QUIET completes: mode, and whether it cancelled an arm. -/
  disarm : Option (Nat × Bool)
  ignored : Word
  route : Option WitRoute
  /-- Byte positions of the analog and edge rings in Millpond. -/
  analogHead : Nat
  edgeHead : Nat
  deriving DecidableEq, Repr

end Sys2Proof.Machine
end

