-- ==== Sys2Proof/Machine/State.lean ====
section
/-! DEFINITION. The state of the LV648, the reasons a command can stop, and the state after reset. -/

namespace Sys2Proof.Machine

/-- No command stops the machine with a fault: what the spec excludes leaves the state as it is (log entry 3). -/
inductive Fault where
  /-- Raised by nothing; the type needs no inhabitant that a step answers. Safe. -/
  | none
  deriving DecidableEq, Repr

/-- Why a command has no meaning. -/
inductive Refusal where
  /-- A command that has no meaning yet, by its mnemonic; raised by `exec` alone. Safe. -/
  | notModelled (mnemonic : String)
  deriving DecidableEq, Repr

/-- The machine. -/
structure State where
  /-- Ticks of 5 ns since the model began (log entry 2). -/
  elapsed : Nat
  /-- How many free values have been drawn (the model's own field, log entry 5). -/
  drawn : Nat
  /-- The commands that are waiting, first in, first out. -/
  pending : List Instr
  /-- What has left the part, newest first. -/
  out : List Output
  link : Link
  fns : Vector FnState 16
  /-- The function last served (R84). -/
  lastServed : Fn
  plan : Plan
  queues : Vector Queue 32
  /-- ACCEPTED hampers whose work is in progress, oldest first. -/
  accepted : List Accepted
  /-- Fetched hampers whose reply a later command brings (R83). -/
  owed : List Owed
  log : Log
  /-- The event-log mirror in MRAM, and the newest mirror number (R486). -/
  mirror : Vector (Option MirrorBank) 31
  mirrorNumber : Word
  clk : Clocks
  pwr : Power
  start : Start
  mram : Mram
  meas : Meas
  guard : Guard
  ports : Vector Port 8
  streams : Vector Stream 32
  /-- The newest epoch number of the device (R312). -/
  deviceEpoch : Word
  epochs : Vector Epochs 16
  pos : Vector Pos 4
  emu : Vector Emu 2
  cmps : Vector Cmp 16
  trigs : Trigs
  hoppers : Vector Hop 16
  /-- The last hopper event number (R325). -/
  hopEvent : Nat
  prep : Prep
  audio : Vector Audio 2
  weir : Weir
  chans : Vector Chan 64
  wit : Wit
  /-- Millpond, 32 MiB: the bytes that are not 0, by rising address (log entry 4). -/
  millpond : List Host.Cell
  /-- The LPDDR5X pool, by offset, in the same form (log entry 4). -/
  lpddr : List Host.Cell
  deriving DecidableEq, Repr

/-! ### Reset values. Each is the value of its register's table, or one that log entry 17 names. -/

def MsixEntry.reset : MsixEntry := ⟨0, 0, true, false⟩

def Aer.reset : Aer := ⟨false, false, false, false, false, false, false⟩

/-- A function after reset: PF0 is BARE and no VF exists (R31, R68). -/
def FnState.reset (mode : FnMode) : FnState where
  mode := mode
  flrAt := none
  transPending := false
  busMaster := false
  msixEnable := false
  msixMaskAll := false
  msix := Vector.replicate 32 MsixEntry.reset
  aer := Aer.reset
  malformedMasked := false
  cfg := []
  scratch := 0
  errPartial := false
  errUnimpl := false
  errUnowned := false
  errLocked := false
  errAddr := 0
  serialHi := 0
  timeHi := 0
  timeFrac := 0
  porchReq := List.replicate 256 0
  porchCopy := List.replicate 256 0
  porchReply := List.replicate 256 0
  porchBusy := false
  porchDone := false
  porchRefused := false
  reqBase := 0
  repBase := 0
  repVector := 0xFF
  reqTail := 0
  reqHead := 0
  repTail := 0
  repHead := 0
  replyErr := false
  fetchErr := false
  indexErr := false
  doorbells := []
  clearing := false
  noticeQueue := none
  noticesDiscarded := 0
  quiesce := none

def Link.reset : Link where
  perstLow := true
  rrsFrom := 0
  up := false
  speed := 1
  width := 0
  reversed := false
  flit := false
  sris := false
  changed := false
  vfEnable := false
  numVfs := 0
  ptmEnable := false

/-- Before the outing record is read, every resource is PF0's (R140). -/
def Plan.reset : Plan :=
  ⟨0, Vector.replicate 32 0, Vector.replicate 64 0, Vector.replicate 32 0, Vector.replicate 16 0, Vector.replicate 16 0⟩

def Queue.reset : Queue where
  enabled := false
  stopped := false
  millpond := false
  anyOrder := false
  vector := 0
  entries := 0
  base := 0
  threshold := 0
  timeUs := 0
  head := 0
  tail := 0
  phase := true
  headErr := false
  overflow := false
  dropped := 0
  owed := false
  unsignalled := 0
  timerFrom := none
  jobs := []

def Log.reset : Log where
  collector := []
  entries := []
  sequence := 0
  headSlot := 0
  lostSticky := false
  restored := false
  lost := 0
  lostTotal := 0
  lostUnreported := 0
  lostBefore := false
  filtered := 0
  filterMask := 0
  faults := []
  faultOverflow := false
  newSinceMirror := false
  faultSinceMirror := false
  lastMirror := none
  mirroring := none
  kept := false

/-- Mode FREE and the defaults of FANTAIL_CONFIG (R120, R130). -/
def Fantail.reset : Fantail where
  state := .free
  mode := .free
  intervalMs := 10
  loopDialogues := 64
  maxSlewPpm := 200
  lockNs := 1000
  jumpNs := 1000000
  jump := false
  needsStep := false
  offset := 0
  rate := 0
  freq := 0
  r := 0
  prevOffset := none
  lastOffset := 0
  lastDevice := none
  lastAt := 0
  correlated := false
  lastHostNs := 0
  lastSteps := 0
  dialogues := 0
  within := 0
  outside := 0
  validAt := 0
  startedAt := none
  waiting := none
  silent := 0
  roundTrips := []

def Clocks.reset : Clocks where
  dev := 0
  stepSum := 0
  stepCount := 0
  wakeOffsetUs := 0
  wakeAt := 0
  fantail := Fantail.reset
  calOk := false
  dense := false
  tdcDrop := 0
  tdc := []
  xtalOk := false
  refclkOk := false
  pllLock := 0

/-- The part without its always-on supply. -/
def Power.reset : Power where
  state := .off
  pwrEn := false
  carWake := false
  debounceFrom := none
  recognised := false
  resetNLow := false
  heldWake := none
  parkFrom := none
  wakeOnXtr0 := false
  suppliesGood := false
  retained := false
  resetHeld := []
  releaseAt := none
  warmCount := 0
  mirrored := false
  lockstep := false
  cause := 0
  avsCode := 0
  avsFused := 0
  avsAt := none
  avsRaised := false
  strapSris := false
  deferred := []
  st01Late := false
  wdtArmed := false
  wdtLast := 0
  wdtLate := 0
  wdtHalt := none
  wdtPause := 0

/-- The built-in record of R140, with the defaults of R150. -/
def Outing.builtIn : Outing where
  copy := none
  guardianOwner := 0
  rearPort := none
  optionalMask := 0x7FF
  parkHoldS := 30
  wakeOnXtr0 := false
  planItem := []
  layoutItem := []
  refsItem := []
  chimeItem := []
  defaultsItem := []
  fantailItem := []

def Identity.reset : Identity := ⟨0, 0, 0, false, false, [], 0, 0⟩

def Start.reset : Start where
  number := 0
  cause := 0
  core := .none
  runningSlot := 0
  trySlot := 0
  otherTried := false
  major := 0
  minor := 0
  safePath := false
  steps := []
  startDone := false
  since := 0
  failedRoutes := []
  retries := []
  learned := []
  outing := Outing.builtIn
  live := .idle
  doorClosed := false
  allDoorsClosed := false
  closed := []
  ident := Identity.reset

/-- MRAM of a part that has never been provisioned. -/
def Mram.reset : Mram where
  identity := Identity.reset
  slots := Vector.replicate 2 ⟨.empty, []⟩
  copies := Vector.replicate 2 []
  banks := Vector.replicate 16 none
  clearAlternate := []
  lastStart := 0

/-- Every slot is zero at internal reset (R155). -/
def Meas.reset : Meas where
  slots := Vector.replicate 8 (List.replicate 48 0)
  count := 0
  log := []
  base := Vector.replicate 8 (List.replicate 48 0)
  baseCount := 0
  debugOpen := false
  spdm := .none
  compact := .none

def Check.reset : Check := ⟨Vector.replicate 32 none, Vector.replicate 32 none⟩

/-- A path in BYPASS (R163, R168). -/
def GPath.reset : GPath where
  mode := .bypass
  bypass := true
  trained := false
  handed := false
  retraining := false
  showing := false
  hpdLow := none
  deferFrom := none
  deferOver := false
  auxWait := none
  dpcd := []
  stream := none
  timing := none
  startAt := 0
  mismatchLogged := false
  good := 0
  boundary := false
  input := none
  outs := []
  latch := none
  inCheck := Check.reset
  outCheck := Check.reset
  paintFrom := none
  psr := false
  lastLooks := []
  gapOwed := false
  set := ⟨0, []⟩
  nextSet := none
  refs := Vector.replicate 128 none
  nextRefs := []
  loading := []
  layout := none
  builtIn := false
  nextSeq := 0
  newestSeq := 0
  newestFail := 0
  failFrames := 0
  paintedFrames := 0
  signed := 0
  chain := []
  verdicts := []
  digests := []
  owedDigests := []
  route := none
  undelivered := 0

/-- The defaults of GUARD_CONFIG (R207). -/
def GuardCfg.reset : GuardCfg := ⟨50, 500, 100, 800, 667, 150⟩

def Tsl.reset : Tsl where
  on := false
  mode := .none
  alive := none
  validAlive := 0
  codes := 0
  reverse := false
  lastAt := 0
  silenceLogged := false
  valid := 0
  bad := 0
  chunk := none
  busy := []
  before := ⟨.none, 0, 0, false, Vector.replicate 64 none⟩

/-- Every tell-tale ON (R194). -/
def allOn : BitVec 128 := 0x55555555555555555555555555555555

def Guard.reset : Guard where
  paths := Vector.replicate 2 GPath.reset
  cfg := GuardCfg.reset
  nextCfg := none
  tsl := Tsl.reset
  powerOn := allOn
  lossSet := allOn
  waiting := 0
  settle := Vector.replicate 64 none
  templates := Vector.replicate 16 none
  windows := Vector.replicate 16 none
  chimes := []
  results := []
  heard := 0
  missed := 0
  rear := none
  rearBuffers := Vector.replicate 2 []
  rearBad := false
  loading := []
  noTypeAt := none

/-- No PORT_CONFIG has set a port (log entry 17). -/
def PortCfg.reset : PortCfg := ⟨false, 0, 0, 0, 0, 0, 0, Vector.replicate 4 0xFF, 0, 0, 0⟩

/-- A port in OFF (R208). -/
def Port.reset : Port where
  mode := .off
  cfg := PortCfg.reset
  next := none
  task := .none
  since := 0
  gear := 0
  raising := none
  degraded := false
  locks := 0
  losses := 0
  attempts := 0
  attemptAt := 0
  retransmissions := 0
  unrecoverable := 0
  fifoHigh := 0
  fifo := 0
  bad := []
  stray := 0
  closed := 0
  lockNs := 0
  gpio := 0

def StreamCfg.reset : StreamCfg := ⟨0, 0, 0, 0, 0, 0xFF, .b, 0, 0, 0xFF, 0, 0, 0, 0⟩

def Held.zero : Held := ⟨0, 0⟩

/-- A context in CLOSED (R209). -/
def Stream.reset : Stream where
  mode := .closed
  quiet := false
  cfg := StreamCfg.reset
  fn := 0
  ring := none
  nextRing := none
  head := 0
  tail := 0
  release := 0
  unreleased := []
  nextSeq := 0
  lastSeq := 0
  written := false
  drops := 0
  errs := 0
  delivered := 0
  gapTags := 0
  corruptFrames := 0
  sensorSkips := 0
  missed := 0
  allDrops := 0
  frame := none
  staged := []
  edges := []
  gap := none
  lastEof := Held.zero
  unwritten := []
  steppedOwed := false
  prevSof := none
  prevSkips := Vector.replicate 4 0
  prevCounter := none
  embMap := []
  nextMap := none
  openedOnce := false
  epoch := 0
  nextCfg := none
  cancelled := 0
  edgeCount := 0

def Epochs.reset : Epochs := ⟨[], none, 0, 0, none, []⟩

def PosCfg.reset : PosCfg := ⟨0, 0, 0, 0, 1, 0, 0, 0, 0, 0, 0, 0, 0, 0, 0, 0, 0, 0⟩

/-- A ball at low, with no edge yet. -/
def RawLine.reset : RawLine := ⟨false, 0, none⟩

/-- A channel in OFF; standstill reads 1 (R271). -/
def Pos.reset : Pos where
  kind := .off
  mode := .off
  cfg := PosCfg.reset
  raw := Vector.replicate 4 RawLine.reset
  lines := 0
  hallRef := 0
  count := 0
  fresh := true
  serialDir := none
  points := []
  run := []
  dirs := []
  standstill := true
  eventAt := none
  flags := 0
  skips := 0
  skipAt := []
  coarse := false
  idx := 0
  idxCount := 0
  idxPrev := none
  idxReset := false
  serialErrs := 0
  serialTotal := 0
  fails := 0
  hallInvalid := 0
  presets := 0
  presetSum := 0
  heldP := 0
  waiting := none
  biss := none
  cycle := none
  cycleFrom := 0
  cycleAt := 0
  lineDelay := 0
  samples := []
  rPrev := none
  latchHi := 0
  latchVel := 0
  latchNsLo := 0
  latchNsHi := 0
  latchIdxHi := 0

def Emu.reset : Emu := ⟨false, 0, 0, 0, 1, 0, 0, 0, false, false, 0, 0⟩

def Cmp.reset : Cmp where
  mode := .idle
  source := 0
  qual := 0
  policy := 0
  grid := false
  interp := false
  report := false
  queue := 0xFF
  target := 0
  t0 := 0
  pitch := 0
  gridCount := 0
  hysteresis := 0
  slots := 0
  recBase := 0
  recMillpond := false
  fired := none
  rearmed := false
  low := 0
  value := 0
  valueAt := Held.zero
  events := 0
  skipped := 0
  sticky := 0
  reached := none
  nextTick := none
  lastPos := 0
  lastTime := Held.zero
  latchTargetHi := 0
  latchPosHi := 0
  latchNsLo := 0
  latchNsHi := 0

/-- Each trigger output begins with mode OFF (R297). -/
def Trig.reset : Trig := ⟨⟨false, false, 0, 0, 0, 0, 0, 0, 0⟩, .idle, 0, false, false, 0, none, 0, false, 0, 0⟩

/-- A cross line's starting state (R297). -/
def Xtr.reset : Xtr := ⟨⟨false, 0, 0, 100, 2000, 1000, 100⟩, false, false, false, false, false, 0, none, false, none, none⟩

/-- An external input's starting state (R297). -/
def Ext.reset : Ext := ⟨false, 100, false, 0, none⟩

def Trigs.reset : Trigs := ⟨Vector.replicate 12 Trig.reset, Vector.replicate 4 Xtr.reset, Vector.replicate 2 Ext.reset, 0, 0⟩

/-- A hopper in UNBOUND (R318). -/
def Hop.reset : Hop where
  mode := .unbound
  stream := none
  cls := .b
  rank := 0
  slots := 0
  slotBytes := 0
  queue := 0xFF
  units := 0
  autoCopy := false
  half := false
  preDepth := 0
  postCount := 0
  trigMask := 0
  tslMask := 0
  channel := 0xFF
  bufPayload := 0
  bufPayloadMill := false
  bufTags := 0
  bufTagsMill := false
  entries := []
  gone := 0
  partialSeq := none
  partialShed := false
  stage := 0
  prevSeq := none
  guardOwed := false
  event := 0
  lastEvent := 0
  code := 0xFF
  stamp := Held.zero
  trigFlags := 0
  trigAt := 0
  preShort := false
  overflow := false
  aborted := false
  quiet := false
  disarming := none
  endAt := none
  snap := none
  epoch := 0
  meas := 0
  copy := none
  copied := 0
  ignored := 0

/-- A channel in IDLE; its wait slots have source HOST (R403, R421). -/
def Chan.reset : Chan where
  mode := .idle
  enabled := false
  quiet := false
  borrowed := false
  copyHalt := false
  goRefused := false
  waitFailed := false
  slotDropped := false
  ctrlIgnored := false
  queue := 0xFF
  share := 256
  readBucket := 4096
  writeBucket := 4096
  bucketAt := 0
  programme := []
  progAddr := 0
  progMill := false
  depths := []
  ptrs := Vector.replicate 8 ⟨0, 0⟩
  shapes := Vector.replicate 4 ⟨0, 0, 0⟩
  runId := 0
  crc := none
  loops := []
  slots := Vector.replicate 8 ⟨1, 0, 0⟩
  queued := []
  runKey := 0
  nextKey := 0
  pc := 0
  bytes := 0
  entryBytes := 0
  lastHost := none
  arrival := none
  wait := none
  keptStatus := 0
  haltCause := 0
  haltStatus := 0
  haltSpace := 0
  haltWrite := false
  haltAddr := 0
  lastCrc := 0
  runs := 0
  latchBytesHi := 0
  quietOwed := none
  stopAfter := false

def Prep.reset : Prep := ⟨[], [], Vector.replicate 16 0, none, [], [], 0, 0, 0⟩

/-- An input in OFF (R367). -/
def Audio.reset : Audio where
  mode := .off
  cfg := ⟨0, 0, 0, 0, 0, 0⟩
  nextMask := 0
  good := 0
  bad := 0
  lastFs := none
  hops := 0
  frames := []
  before := []
  hopStart := none
  hopFs := none
  gap := false
  fifo := 0
  route := none
  submitted := false
  ready := none
  past := []

/-- Weir before LPDDR5X has trained, with the defaults of R380, R385 and R396. -/
def Weir.reset : Weir where
  reserved := []
  store := .unavailable
  hot := false
  tj := 0
  mts := 0
  gib := 0
  fixedFlows := false
  flows := []
  sFault := false
  sCoverFrom := none
  band := Vector.ofFn fun i => if i.val = 0 then 0 else 8
  sAllow := 1
  grantKib := 1024
  dyn := []
  scrubPeriodH := 24
  scrubPos := 0
  scrubNow := false
  scrubFrom := none
  passes := 0
  passEndNs := 0
  scrubCorrected := 0
  scrubUncorrectable := 0
  ce := 0
  ue := 0
  ueAddr := 0
  ueAddrHi := 0
  mpCorrectable := 0
  mpUncorrectable := 0
  shed := Vector.replicate 16 0
  drainFrom := none
  retrainFrom := none
  shortAt := none
  ueTimes := []

def WitTrack.reset : WitTrack := ⟨none, none, none, false, none, false⟩

def WitCfg.reset : WitCfg := ⟨0, 0, 1, 0, 0xFF, 1, 0, 0, []⟩

def WitArm.reset : WitArm := ⟨0, 0, 0, 0, 0⟩

/-- The sampler in UNCONFIGURED (R438). -/
def Wit.reset : Wit where
  mode := .unconfigured
  cfg := WitCfg.reset
  arm := WitArm.reset
  appliedAt := 0
  tick := 0
  tickAt := none
  next0 := 0
  next1 := 0
  codes := Vector.replicate 16 0
  raw := Vector.replicate 16 RawLine.reset
  level := 0
  fifo := 0
  tracks := Vector.replicate 8 WitTrack.reset
  group := none
  extremes := []
  ticks := []
  edges := []
  edgeLost := none
  denseOwed := 0
  trig := none
  capture := 0
  overflow := false
  cause := 0
  aborted := false
  preShort := false
  quiet := false
  glitches := 0
  dense := 0
  endAt := none
  endMeas := 0
  delivering := false
  delivered := false
  disarm := none
  ignored := 0
  route := none
  analogHead := 0
  edgeHead := 0

/-- The machine right after reset: the part with no supply, whose next event is AON_POWER_APPLY (R131). -/
def State.reset : State where
  elapsed := 0
  drawn := 0
  pending := []
  out := []
  link := Link.reset
  fns := Vector.ofFn fun i => FnState.reset (if i.val = 0 then .bare else .absent)
  lastServed := 15
  plan := Plan.reset
  queues := Vector.replicate 32 Queue.reset
  accepted := []
  owed := []
  log := Log.reset
  mirror := Vector.replicate 31 none
  mirrorNumber := 0
  clk := Clocks.reset
  pwr := Power.reset
  start := Start.reset
  mram := Mram.reset
  meas := Meas.reset
  guard := Guard.reset
  ports := Vector.replicate 8 Port.reset
  streams := Vector.replicate 32 Stream.reset
  deviceEpoch := 0
  epochs := Vector.replicate 16 Epochs.reset
  pos := Vector.replicate 4 Pos.reset
  emu := Vector.replicate 2 Emu.reset
  cmps := Vector.replicate 16 Cmp.reset
  trigs := Trigs.reset
  hoppers := Vector.replicate 16 Hop.reset
  hopEvent := 0
  prep := Prep.reset
  audio := Vector.replicate 2 Audio.reset
  weir := Weir.reset
  chans := Vector.replicate 64 Chan.reset
  wit := Wit.reset
  millpond := []
  lpddr := []

end Sys2Proof.Machine
end

