-- ==== Sys2Proof/Machine/Operands.lean ====
section
/-! DEFINITION. Operand forms: the fields of hamper payloads, buffer references, and the record of one hamper (R71 to
R76). -/

namespace Sys2Proof.Machine

/-- The little-endian field of `n` bytes at `off` (R4). -/
def fld (p : List Byte) (off n : Nat) : Nat := ofLeBytes ((p.drop off).take n)

/-- The signed field of `n` bytes at `off`. -/
def sfld (p : List Byte) (off n : Nat) : Int := signedOf (8 * n) (fld p off n)

/-- Every byte of `n` bytes at `off` is 0 (R5). -/
def zeros (p : List Byte) (off n : Nat) : Bool := ((p.drop off).take n).all (· == 0)

/-- The bytes at `off`. -/
def slice (p : List Byte) (off n : Nat) : List Byte := (p.drop off).take n

/-- Bit `i` of a number. -/
def bit (v i : Nat) : Bool := v.testBit i

/-- The number of a Boolean. -/
def b2n (b : Bool) : Nat := if b then 1 else 0

/-- A record's bytes from its fields (size, value), in order (R4). -/
def record (fs : List (Nat × Nat)) : List Byte := fs.flatMap fun f => leBytes f.1 f.2

/-- The two's complement field value of an integer in `n` bytes. -/
def sval (n : Nat) (i : Int) : Nat := codeOf (8 * n) i

/-- `bytes` followed by zeros up to `n` bytes. -/
def padTo (n : Nat) (bytes : List Byte) : List Byte := bytes ++ List.replicate (n - bytes.length) 0

/-- The number of a natural within `Fin n`, when it is below `n`. -/
def fin? (n v : Nat) : Option (Fin n) := if h : v < n then some ⟨v, h⟩ else none

/-- The entry of a register window of `n` entries of `size` bytes at an offset within it: every window starts at a multiple
of its length. -/
def entryAt (n size off : Nat) : Option (Fin n) := fin? n (off % (n * size) / size)

/-- A buffer reference (R76). -/
structure Buffer where
  addr : Nat
  length : Nat
  millpond : Bool
  /-- A reserved bit of the reference is set. -/
  reserved : Bool
  deriving DecidableEq, Repr

/-- The buffer reference at `off` of a payload (R76). -/
def bufferAt (p : List Byte) (off : Nat) : Buffer where
  addr := fld p off 8
  length := fld p (off + 8) 4
  millpond := bit (fld p (off + 12) 1) 0
  reserved := fld p (off + 12) 1 / 2 != 0 || !zeros p (off + 13) 3

/-- One hamper as Valtyn reads it (R71, R72): `payload` is the 240-byte area with the bytes beyond payload_length read
as 0. -/
structure Hamper where
  fn : Fn
  porch : Bool
  op : Nat
  flags : Nat
  sequence : Nat
  length : Nat
  status : Nat
  retry : Nat
  payload : List Byte
  deriving DecidableEq, Repr

/-- The hamper that 256 bytes spell (R71). -/
def hamperOf (fn : Fn) (porch : Bool) (msg : List Byte) : Hamper where
  fn := fn
  porch := porch
  op := fld msg 0 2
  flags := fld msg 2 2
  sequence := fld msg 4 4
  length := fld msg 8 2
  status := fld msg 10 2
  retry := fld msg 12 4
  payload := padTo 240 (((msg.drop 16).take 240).take (fld msg 8 2))

/-- Header checks of R87 step 3. -/
def Hamper.headerBad (h : Hamper) : Bool :=
  bit h.flags 0 || h.flags / 4 != 0 || h.length > 240 || h.status != 0 || h.retry != 0

/-- A non-zero byte beyond the `n` bytes that the request's table defines (R72). -/
def Hamper.tail (h : Hamper) (n : Nat) : Bool := !zeros h.payload n 240

/-- What a hamper's own section answers (R73, R74): the new state with OK or ACCEPTED and a reply payload, a reply
that a later command brings, or a refusal with its error payload and no change of state. -/
inductive Verdict where
  | ok (s : State) (reply : List Byte)
  | accepted (s : State) (reply : List Byte)
  | later (s : State) (index : Nat)
  | refuse (status : Nat) (reply : List Byte)
  deriving DecidableEq, Repr

/-- Status codes of R86. -/
abbrev stOk : Nat := 0x0000
abbrev stAccepted : Nat := 0x0001
abbrev stBadOpcode : Nat := 0x0101
abbrev stBadArgument : Nat := 0x0102
abbrev stNotOwner : Nat := 0x0103
abbrev stNoResource : Nat := 0x0104
abbrev stRefusedAdmission : Nat := 0x0105
abbrev stWrongState : Nat := 0x0106
abbrev stBusyUpdating : Nat := 0x0201
abbrev stUnitOff : Nat := 0x0202
abbrev stUnitReset : Nat := 0x0203
abbrev stInstanceReset : Nat := 0x0204
abbrev stTimeout : Nat := 0x0205
abbrev stCancelled : Nat := 0x0206
abbrev stAborted : Nat := 0x0207
abbrev stPartnerFault : Nat := 0x0301
abbrev stBusError : Nat := 0x0302
abbrev stOverflow : Nat := 0x0303
abbrev stSkipped : Nat := 0x0304

/-- Refusals. -/
def badArg : Verdict := .refuse stBadArgument []
def notOwner : Verdict := .refuse stNotOwner []
def wrongState : Verdict := .refuse stWrongState []
def noResource : Verdict := .refuse stNoResource []

end Sys2Proof.Machine
end

