-- ==== Sys2Proof/Machine/Flags.lean ====
section
/-! DEFINITION. Codes and flag words: the severity of every event code (R476 to R478), and how a word packs its fields.
-/

namespace Sys2Proof.Machine

/-- The FAULT codes of R478. -/
def faultCodes : List Nat :=
  [0x1108, 0x1114, 0x4002, 0x4120, 0x6106, 0x6201, 0x8003, 0x8008, 0x9009, 0xA001, 0xA003, 0xA104,
   0xB105, 0xB203, 0xB306]

/-- The WARNING codes of R478. -/
def warningCodes : List Nat :=
  [0x1101, 0x110A, 0x110B, 0x110C, 0x110E, 0x1111, 0x1112, 0x1113, 0x2002, 0x2101, 0x210E, 0x210F,
   0x3013, 0x3101, 0x3102, 0x3103, 0x3105, 0x310D, 0x3302] ++
  [0x4001, 0x4005, 0x4010, 0x4013, 0x4014, 0x4107, 0x4108, 0x4110, 0x4112, 0x4121,
   0x5101, 0x5102, 0x5103, 0x5104, 0x5105, 0x5106, 0x5107, 0x5108, 0x5109] ++
  [0x6001, 0x6003, 0x6102, 0x6103, 0x6301, 0x6401, 0x6402, 0x6404, 0x7101, 0x7102, 0x7103, 0x7301,
   0x8002, 0x8005, 0x8006, 0x800A, 0x8102] ++
  [0x9003, 0x9005, 0x9008, 0x9011, 0x9013, 0x9015, 0xA002, 0xA004, 0xA101, 0xA105, 0xB102, 0xB202,
   0xB301, 0xB304]

/-- The severity of an event code: 0 INFO, 1 WARNING, 2 FAULT (R476, R478). -/
def severity (code : Nat) : Nat :=
  if faultCodes.contains code then 2 else if warningCodes.contains code then 1 else 0

/-- A word from fields (lowest bit, value). -/
def packed (fs : List (Nat × Nat)) : Word := BitVec.ofNat 32 ((fs.map fun f => f.2 <<< f.1).sum)

/-- Tailrace entry flags (R95). -/
abbrev fNeverStarted : Nat := 1
abbrev fHalf : Nat := 2
abbrev fFull : Nat := 4
abbrev fOverflow : Nat := 8
abbrev fLast : Nat := 16

/-- Source kinds of R95. -/
abbrev kStream : Nat := 1
abbrev kMillrace : Nat := 2
abbrev kPyramid : Nat := 3
abbrev kDecoder : Nat := 4
abbrev kAudio : Nat := 5
abbrev kHopper : Nat := 6
abbrev kWitness : Nat := 7
abbrev kVerdict : Nat := 8
abbrev kComparator : Nat := 9
abbrev kNotice : Nat := 10

/-- Notice codes of R88. -/
abbrev nHamperDone : Nat := 1
abbrev nCommitDone : Nat := 2
abbrev nFault : Nat := 3
abbrev nQuiet : Nat := 4
abbrev nUpdateDone : Nat := 5
abbrev nPlanChanged : Nat := 6
abbrev nTimeStepped : Nat := 7
abbrev nStartDone : Nat := 8

/-- A stream is open (R209). -/
def Stream.isOpen (st : Stream) : Bool := st.mode == .opened

/-! ### Who names a queue (R105) -/

/-- An open stream. -/
def Stream.usesQueue (st : Stream) (q : Fin 32) : Bool := st.mode != .closed && st.cfg.queue == q.val

/-- A loaded or running channel. -/
def Chan.usesQueue (c : Chan) (q : Fin 32) : Bool := c.mode != .idle && !c.borrowed && c.queue == q.val

/-- A bound hopper. -/
def Hop.usesQueue (h : Hop) (q : Fin 32) : Bool := h.mode != .unbound && h.queue == q.val

/-- An armed comparator that reports. -/
def Cmp.usesQueue (c : Cmp) (q : Fin 32) : Bool :=
  c.report && c.queue == q.val && (c.mode == .armed || c.mode == .held)

/-- A verdict route. -/
def GPath.usesQueue (p : GPath) (q : Fin 32) : Bool := p.route.any fun r => r.queue == q

/-- A witness route. -/
def Wit.usesQueue (w : Wit) (q : Fin 32) : Bool := w.route.any fun r => r.queue == q

/-- An audio route. -/
def Audio.usesQueue (a : Audio) (q : Fin 32) : Bool := a.route.any fun r => r.queue == q

end Sys2Proof.Machine
end

