-- ==== Sys2Proof/Machine/Ops.lean ====
section
/-! DEFINITION. The named operations that every meaning is built from: time, outputs, events, Millpond, tailrace queues,
notices, and the serving of a hamper. -/

namespace Sys2Proof.Machine

/-- What a meaning answers. -/
abbrev Answer := Host.Outcome State Fault Refusal

/-- Change one element of a bank. -/
def vmod {α : Type} {n : Nat} (v : Vector α n) (i : Fin n) (f : α → α) : Vector α n := v.set i (f v[i])

/-- All indices of a bank, rising. -/
abbrev allFin (n : Nat) : List (Fin n) := List.finRange n

/-- Change one function. -/
def State.modFn (s : State) (f : Fn) (g : FnState → FnState) : State := { s with fns := vmod s.fns f g }

/-- Change one queue. -/
def State.modQueue (s : State) (q : Fin 32) (g : Queue → Queue) : State := { s with queues := vmod s.queues q g }

/-- Change the log. -/
def State.modLog (s : State) (g : Log → Log) : State := { s with log := g s.log }

/-- Send something out of the part. -/
def emit (o : Output) (s : State) : State := { s with out := o :: s.out }

/-- Draw the next free value (log entry 5). -/
def draw (s : State) : Nat × State := (Config.freeNat s.drawn, { s with drawn := s.drawn + 1 })

/-- Nearest integer to `a / b` for `b > 0`, a tie going up; used where no tie can occur. -/
def roundDiv (a : Int) (b : Int) : Int := (2 * a + b) / (2 * b)

/-- Nearest integer to `a / b` for `b > 0`, an exact tie left open (log entry 7). -/
def roundTie (a : Int) (b : Int) : Int :=
  let f := a / b
  let twice := 2 * (a - f * b)
  if twice < b then f else if b < twice then f + 1 else if Config.tieUp a then f + 1 else f

/-- The increment of one 200 MHz tick, in 2^-40 ns (R115). -/
def tickIncrement (rate : Word) : Int := 5 * 2 ^ 40 + roundDiv (5 * 2 ^ 40 * rate.toInt) 65536000000

/-- The main domain is out of internal reset (R131, R492). -/
def mainRuns (s : State) : Bool :=
  s.pwr.suppliesGood && s.pwr.resetHeld.isEmpty &&
    (match s.pwr.state with
      | .starting | .running | .shutdown => true
      | _ => false)

/-- `dt` ticks of 5 ns pass (R115). -/
def advance (dt : Nat) (s : State) : State :=
  { s with
    elapsed := s.elapsed + dt
    clk := if mainRuns s then
        { s.clk with dev := s.clk.dev + BitVec.ofInt 104 (tickIncrement s.clk.fantail.rate * dt) }
      else s.clk }

/-- Ticks of a time in ns, µs and ms. -/
def ticksNs (n : Nat) : Nat := n / 5
def ticksUs (n : Nat) : Nat := n * 200
def ticksMs (n : Nat) : Nat := n * 200000

/-- Visible device time (R7). -/
def now (s : State) : Stamp := BitVec.ofNat 72 (s.clk.dev.toNat / 2 ^ 32)

/-- Device time in ns. -/
def nowNs (s : State) : BitVec 64 := BitVec.ofNat 64 (s.clk.dev.toNat / 2 ^ 40)

/-- Hold a stamp of the present timebase (R122). -/
def hold (s : State) (t : Stamp) : Held := ⟨t - s.clk.stepSum, s.clk.stepCount⟩

/-- A held stamp in the present timebase, and whether a step came between (R122). -/
def release (s : State) (h : Held) : Stamp × Bool := (h.raw + s.clk.stepSum, h.steps != s.clk.stepCount)

/-- The ns part of a held stamp in the present timebase. -/
def heldNs (s : State) (h : Held) : Nat := stampNs (release s h).1

/-- A deadline that `State.elapsed` has reached. -/
def due (s : State) (deadline : Option Nat) : Bool :=
  match deadline with
  | some d => d ≤ s.elapsed
  | none => false

/-- At least `ticks` have passed since a moment. -/
def since (s : State) (from_ : Option Nat) (ticks : Nat) : Bool :=
  match from_ with
  | some f => f + ticks ≤ s.elapsed
  | none => false

/-! ### Events -/

/-- Device-wide, in an event's function or unit field. -/
abbrev wide : Nat := 0xFF

/-- Post one event to the collector (R480), with LOG_FILTER applied (R499). -/
def postCount (code fn unit : Nat) (count : Word) (s : State) : State :=
  if severity code = 0 ∧ s.log.filterMask.getLsbD (code / 0x1000) = true then
    s.modLog fun l => { l with filtered := l.filtered + 1 }
  else if s.log.collector.length < 256 then
    s.modLog fun l => { l with collector := l.collector ++ [⟨code, fn, unit, nowNs s, count⟩] }
  else
    s.modLog fun l => { l with
      lost := l.lost + 1
      lostTotal := l.lostTotal + 1
      lostUnreported := l.lostUnreported + 1
      lostSticky := true
      lostBefore := true }

/-- Post one event of a function and unit. -/
def post (code fn unit : Nat) (s : State) : State := postCount code fn unit 1 s

/-! ### Millpond -/

/-- The size of Millpond, 32 MiB (R393). -/
abbrev millpondSize : Nat := 0x2000000

/-- Write bytes into Millpond. -/
def millWrite (addr : Nat) (bytes : List Byte) (s : State) : State :=
  { s with millpond := Memory.writeList s.millpond addr bytes }

/-- Read bytes of Millpond. -/
def millRead (s : State) (addr n : Nat) : List Byte := Memory.readList s.millpond addr n

/-- PF0's Millpond grant begins here (R393). -/
abbrev grantBase : Nat := 0x1000000

/-- The range lies in PF0's Millpond grant (R394). -/
def inGrant (s : State) (addr n : Nat) : Bool :=
  grantBase ≤ addr && addr + n ≤ grantBase + s.weir.grantKib * 1024

/-- A buffer reference that Valtyn refuses with BAD_ARGUMENT (R76). -/
def bufferBad (s : State) (fn : Fn) (b : Buffer) : Bool :=
  b.reserved || b.length == 0 || b.length > 0xFFFFFFC0 ||
    (if b.millpond then fn != 0 || !inGrant s b.addr b.length else b.addr + b.length > 2 ^ 64)

/-- Device Control of a function: its reset value is PCI Express's own, Relaxed Ordering and No Snoop enabled and reads of
512 bytes (log entry 9). -/
def deviceControl (f : FnState) : Word := (f.cfg.lookup 0x78).getD 0x2810

/-- A write into a function's host memory; none is issued while Bus Master Enable is 0 (R66). A write of data may carry
Relaxed Ordering and No Snoop, each when Device Control enables it (R31, R36, log entry 9). -/
def hostSend (fn : Fn) (addr : Nat) (bytes : List Byte) (data : Bool) (s : State) : State :=
  let c := deviceControl s.fns[fn]
  if (s.fns[fn]).busMaster then emit (.hostWrite fn addr bytes (data && c.getLsbD 4) (data && c.getLsbD 11)) s else s

/-- What Valtyn reads of a buffer (R76): the command says what host memory gave, which is nothing while the sender's Bus
Master Enable is 0 (R66); Millpond is the part's own. -/
def bufferRead (s : State) (fn : Fn) (b : Buffer) (host : Fetched) : Fetched :=
  match host with
  | .failed => .failed
  | .data d =>
    if b.millpond then .data (millRead s b.addr b.length)
    else if (s.fns[fn]).busMaster then .data (d.take b.length) else .failed

/-- Write into a host or Millpond buffer at an offset (R76). -/
def bufferWrite (fn : Fn) (b : Buffer) (off : Nat) (bytes : List Byte) (s : State) : State :=
  if b.millpond then millWrite (b.addr + off) bytes s
  else hostSend fn (b.addr + off) bytes false s

/-! ### MSI-X and tailrace queues -/

/-- Signal a vector of a function (R42, R101). -/
def signal (fn : Fn) (vector : Nat) (s : State) : State :=
  match fin? 32 vector with
  | none => s
  | some v =>
    let f := s.fns[fn]
    if f.mode = .absent ∨ f.mode = .fencing ∨ ¬ f.msixEnable then s
    else if f.msixMaskAll || (f.msix[v]).masked then
      s.modFn fn fun f => { f with msix := vmod f.msix v fun e => { e with pending := true } }
    else if f.busMaster then emit (.msix fn v (f.msix[v]).addr.toNat (f.msix[v]).data) s
    else s

/-- Signal a queue's vector: u becomes 0 and the timer stops (R101). -/
def signalQueue (q : Fin 32) (s : State) : State :=
  signal s.plan.queues[q] (s.queues[q]).vector
    (s.modQueue q fun Q => { Q with unsignalled := 0, timerFrom := none })

/-- Every usable slot is occupied (R99). -/
def Queue.full (Q : Queue) : Bool := Q.enabled && (Q.tail + 1) % Q.entries == Q.head

/-- The bytes of an entry with its phase (R95). -/
def entryBytes (e : TqEntry) (owed phase : Bool) : List Byte :=
  record [(2, e.kind), (2, e.index), (4, e.job.toNat), (2, e.status),
    (2, (e.flags ||| (if owed then fOverflow else 0)) ||| (if phase then 0x8000 else 0)), (4, e.count.toNat)]

/-- The tail, the phase and the unsignalled count after an entry is written at the tail (R97, R101). -/
def Queue.pushed (Q : Queue) (at_ : Nat) : Queue :=
  { Q with
    tail := (Q.tail + 1) % Q.entries
    phase := if Q.tail + 1 = Q.entries then !Q.phase else Q.phase
    owed := false
    unsignalled := Q.unsignalled + 1
    timerFrom := if Q.unsignalled = 0 then some at_ else Q.timerFrom }

/-- A queue drops an entry (R66, R99, R100). -/
def Queue.drop (Q : Queue) : Queue := { Q with dropped := Q.dropped + 1, overflow := true, owed := true }

/-- Write one entry at the tail of a queue, or drop it (R96 to R101). While the owner's Bus Master Enable is 0 an entry is
dropped whether its queue lies in host memory or in Millpond (R66, log entry 27). -/
def putEntry (q : Fin 32) (e : TqEntry) (s : State) : State :=
  let Q := s.queues[q]
  let fn := s.plan.queues[q]
  if ¬ Q.enabled then s.modQueue q Queue.drop
  else if Q.stopped || !(s.fns[fn]).busMaster then s.modQueue q Queue.drop
  else if Q.full then post 0x1113 fn q (s.modQueue q Queue.drop)
  else
    let bytes := entryBytes e Q.owed Q.phase
    let at_ := Q.base + 16 * Q.tail
    let s := if Q.millpond then millWrite at_ bytes s else hostSend fn at_ bytes false s
    let s := s.modQueue q fun Q => Q.pushed s.elapsed
    if e.status ≠ stOk ∨ (s.queues[q]).unsignalled ≥ Q.threshold then signalQueue q s else s

/-- Write the finished entries at the front of a STRICT queue's submission order (R103). -/
def flushJobs (q : Fin 32) : List QJob → State → State
  | [], s => s.modQueue q fun Q => { Q with jobs := [] }
  | j :: rest, s =>
    match j.entry with
    | some e => flushJobs q rest (putEntry q e s)
    | none => s.modQueue q fun Q => { Q with jobs := j :: rest }

/-- The first unfinished job with these identifiers, changed. -/
def markJob (kind index : Nat) (job : Word) (e : TqEntry) : List QJob → List QJob
  | [] => []
  | j :: rest =>
    if j.kind = kind ∧ j.index = index ∧ j.job = job ∧ j.entry = none then { j with entry := some e } :: rest
    else j :: markJob kind index job e rest

/-- The first unfinished job with these identifiers, removed. -/
def dropJob (kind index : Nat) (job : Word) : List QJob → List QJob
  | [] => []
  | j :: rest =>
    if j.kind = kind ∧ j.index = index ∧ j.job = job ∧ j.entry = none then rest
    else j :: dropJob kind index job rest

/-- A queue can take one more pending job (R104). -/
def canSubmit (s : State) (q : Fin 32) : Bool := (s.queues[q]).anyOrder || (s.queues[q]).jobs.length < 256

/-- A job is submitted to a queue (R103, R104). -/
def submitJob (q : Fin 32) (kind index : Nat) (job : Word) (s : State) : State :=
  s.modQueue q fun Q => { Q with jobs := Q.jobs ++ [⟨kind, index, job, none⟩] }

/-- A job with these identifiers is unfinished in the queue. -/
def hasJob (kind index : Nat) (job : Word) (l : List QJob) : Bool :=
  l.any fun j => j.kind == kind && j.index == index && j.job == job && j.entry.isNone

/-- A job of a queue finishes with its entry (R103). The entry of a job that the queue no longer holds, since it was cleared
while STOPPED, meets the queue as it stands (R105). -/
def finishJob (q : Fin 32) (e : TqEntry) (s : State) : State :=
  if (s.queues[q]).anyOrder || !hasJob e.kind e.index e.job (s.queues[q]).jobs then
    putEntry q e (s.modQueue q fun Q => { Q with jobs := dropJob e.kind e.index e.job Q.jobs })
  else flushJobs q (markJob e.kind e.index e.job e (s.queues[q]).jobs) s

/-- A job is discarded without an entry (R57). -/
def discardJob (q : Fin 32) (kind index : Nat) (job : Word) (s : State) : State :=
  flushJobs q (dropJob kind index job (s.queues[q]).jobs) s

/-- TQ_HELD (R104). -/
def Queue.held (Q : Queue) : Nat := (Q.jobs.filter fun j => j.entry.isSome).length

/-- ENABLED in the sense of R88 and R94. -/
def queueOpen (s : State) (q : Fin 32) : Bool := (s.queues[q]).enabled && !(s.queues[q]).stopped

/-! ### Notices -/

/-- A QUIET notice counts for an INSTANCE_QUIESCE that waits for it (R475). -/
def noteQuiet (fn : Fn) (code : Nat) (job count : Word) (s : State) : State :=
  if code = nQuiet then
    s.modFn fn fun f => { f with
      quiesce := f.quiesce.map fun (q : Quiesce) =>
        if (q.blocks.contains job.toNat) then Quiesce.mk (q.blocks.erase job.toNat) (q.total + count.toNat) else q }
  else s

/-- A notice to a function (R88). -/
def notice (fn : Fn) (code : Nat) (job : Word) (status : Nat) (count : Word) (s : State) : State :=
  let s := noteQuiet fn code job count s
  match (s.fns[fn]).noticeQueue with
  | some q =>
    if queueOpen s q then putEntry q ⟨kNotice, code, job, status, 0, count⟩ s
    else s.modFn fn fun f => { f with noticesDiscarded := f.noticesDiscarded + 1 }
  | none => s.modFn fn fun f => { f with noticesDiscarded := f.noticesDiscarded + 1 }

/-- A notice to every READY function (R88). -/
def noticeAll (code : Nat) (job : Word) (status : Nat) (count : Word) (s : State) : State :=
  (allFin 16).foldl (fun s f => if (s.fns[f]).mode = .ready then notice f code job status count s else s) s

/-- The first ACCEPTED hamper with this opcode and index. -/
def findAccepted (s : State) (op index : Nat) : Option Accepted :=
  s.accepted.find? fun a => a.op == op && a.index == index

/-- Remove the first ACCEPTED hamper with this opcode and index. -/
def dropAccepted (op index : Nat) : List Accepted → List Accepted
  | [] => []
  | a :: rest => if a.op = op ∧ a.index = index then rest else a :: dropAccepted op index rest

/-- The work of an ACCEPTED hamper ends: its HAMPER_DONE notice (R85, R89). -/
def hamperDone (op index status : Nat) (count : Word) (s : State) : State :=
  match findAccepted s op index with
  | none => s
  | some a =>
    notice a.fn nHamperDone a.sequence status count { s with accepted := dropAccepted op index s.accepted }

/-- A hamper is answered ACCEPTED: its work is recorded (R85). -/
def accept (h : Hamper) (index : Nat) (s : State) : State :=
  { s with accepted := s.accepted ++ [⟨h.op, h.fn, BitVec.ofNat 32 h.sequence, index, h.payload⟩] }

/-! ### Serving a hamper -/

/-- The measurement index in force (R156). -/
def measIndex (s : State) : Nat := s.meas.count.toNat % 256

/-- Valtyn, or the boot ROM in recovery, serves hampers (R34, R149). -/
def serves (s : State) : Bool :=
  mainRuns s &&
    (match s.start.core with
      | .valtyn | .recovery => true
      | _ => false)

/-- FUNC_STATUS.porch_ready of a function (R34, R149). -/
def porchReady (s : State) (f : Fn) : Bool :=
  (s.fns[f]).mode != .absent &&
    (match s.start.core with
      | .valtyn => true
      | .recovery => f == 0
      | _ => false)

/-- A function whose oldest submitted hamper can be fetched: one whose reply to the hamper before it is not owed (R83). -/
def fetchable (s : State) (f : Fn) : Bool :=
  let F := s.fns[f]
  !(s.owed.any fun o => o.fn == f) &&
  (match F.mode with
    | .bare | .ready | .wedged => true
    | _ => false) &&
  (match F.doorbells with
    | [] => false
    | true :: _ => true
    | false :: _ => F.busMaster)

/-- The functions in the order of Valtyn's turns: ascending after the one last served (R84). -/
def turnOrder (s : State) : List Fn := (allFin 16).map fun k => s.lastServed + 1 + k

/-- The function whose turn it is (R84). -/
def nextTurn (s : State) : Option Fn := (turnOrder s).find? (fetchable s)

/-- The hamper that Valtyn fetches for a command: the oldest of the function whose turn it is, which came the way the
command says (R75, R83, R84). -/
def fetch (s : State) (r : Req) : Option Hamper :=
  if serves s && nextTurn s == some r.fn then
    match r.via, (s.fns[r.fn]).doorbells with
    | .porch, true :: _ => some (hamperOf r.fn true (s.fns[r.fn]).porchCopy)
    | .ring msg, false :: _ => some (hamperOf r.fn false (padTo 256 (msg.take 256)))
    | _, _ => none
  else none

/-- The µs before a resend can succeed while the door is closed (R90, R152): what is left of the 20 ms bound, and 1 µs
once that has passed, also while a revert lasts (log entry 53). -/
def retryAfter (s : State) : Nat :=
  match s.start.live with
  | .switching _ t => max 1 (20000 - (s.elapsed - t) / 200)
  | _ => 1

/-- A ring empties while RINGS_CLEAR is answered: the function returns to BARE (R108). -/
def clearRings (f : FnState) : FnState :=
  { f with
    mode := if f.mode = .ready then .bare else f.mode
    clearing := false
    reqBase := 0, repBase := 0, repVector := 0xFF
    reqTail := 0, reqHead := 0, repTail := 0, repHead := 0
    doorbells := f.doorbells.filter id }

/-- Valtyn has fetched a hamper: its function has had its turn, and a ring's REQ_HEAD moves (R80, R84). -/
def taken (fn : Fn) (porch : Bool) (s : State) : State :=
  { s with lastServed := fn }.modFn fn fun f => { f with
    doorbells := f.doorbells.tail, reqHead := if porch then f.reqHead else f.reqHead + 1 }

/-- Write a reply (R71, R73, R77, R80, R82): `retry` is not 0 only with BUSY_UPDATING. Replies follow the order of the
requests, so that the reply slot of REP_TAIL is the slot of the request answered. -/
def reply (h : Hamper) (status retry : Nat) (payload : List Byte) (s : State) : State :=
  let bytes := record [(2, h.op), (2, if h.porch then 3 else 1), (4, h.sequence), (2, payload.length), (2, status),
    (4, retry)] ++ padTo 240 payload
  if h.porch then
    s.modFn h.fn fun f => { f with porchReply := bytes, porchBusy := false, porchDone := true }
  else
    let f := s.fns[h.fn]
    let s := hostSend h.fn (f.repBase + 256 * (f.repTail.toNat % 32)) bytes false s
    let s := s.modFn h.fn fun f => { f with repTail := f.repTail + 1 }
    let s := signal h.fn f.repVector s
    if f.clearing && !f.doorbells.contains false then s.modFn h.fn clearRings else s

/-- The opcodes that the boot ROM accepts in ROM recovery (R149). -/
def recoveryOps : List Nat := [0x0001, 0x0B02, 0x0B03, 0x0008]

/-- The hampers that give a hardware block new work; what reads a status, or closes, disarms, cancels or discards, is served
at a closed door (R134, log entry 21). -/
def newWorkOps : List Nat :=
  [0x0201, 0x0203, 0x0204, 0x0205, 0x0210, 0x0212, 0x0214, 0x0220, 0x0301, 0x0303, 0x0304, 0x0310, 0x0320, 0x0321, 0x0322,
    0x0401, 0x0403, 0x0404, 0x0405, 0x0407, 0x0410, 0x0501, 0x0502, 0x0504, 0x0506, 0x0601, 0x0610, 0x0620, 0x0621, 0x0702,
    0x0704, 0x0801, 0x0802, 0x0803, 0x0901, 0x0902, 0x0905, 0x0A02, 0x0A03]

/-- The block that a hamper asks was in use by a start step that timed out, and its door is closed (R136, log entry 21). -/
def stepDoorShut (c : List (Nat × Nat)) (h : Hamper) : Bool :=
  let first := fld h.payload 0 1
  let port := if h.op < 0x0210 then first else first / 4
  let at_ (lo hi : Nat) : Bool := decide (lo ≤ h.op) && decide (h.op < hi)
  (at_ 0x0200 0x0300 && (c.contains (11, port) || c.contains (12, port) || c.contains (15, port))) ||
    (at_ 0x0300 0x0310 && c.contains (16, 0xFF)) ||
    (at_ 0x0403 0x0405 && (c.contains (8 + first, first) || (first == 1 && c.contains (13, 1)))) ||
    (h.op == 0x0403 && (c.contains (6, 0xFF) || c.contains (10, first))) ||
    (at_ 0x0501 0x0503 && c.contains (14, 0xFF)) ||
    (at_ 0x0620 0x0630 && c.contains (17, 0xFF)) ||
    (at_ 0x0900 0x0A00 && c.contains (18, 0xFF))

/-- The door of the block that a hamper asks for new work is closed (R134, R136, R467): a SHUTDOWN closes every hardware
block's, and a start step that timed out its own (log entry 21). -/
def doorShut (s : State) (h : Hamper) : Bool :=
  newWorkOps.contains h.op && (s.start.allDoorsClosed || stepDoorShut s.start.closed h)

/-- The first five checks of R87 and the version rule of R14, then the hamper's own section. `minor` is the version that
introduced it and `pf0` whether only PF0 sends it (R93). -/
def judge (s : State) (h : Hamper) (minor : Nat) (pf0 : Bool) (body : State → Hamper → Verdict) : Verdict :=
  if (s.fns[h.fn]).mode = .wedged then .refuse stInstanceReset []
  else if s.start.doorClosed then .refuse stBusyUpdating []
  else if h.headerBad then badArg
  else if s.start.core = .recovery then
    (if recoveryOps.contains h.op then (if pf0 && h.fn != 0 then notOwner else body s h) else .refuse stBadOpcode [])
  else if s.start.minor < minor then .refuse stBadOpcode []
  else if pf0 && h.fn != 0 then notOwner
  else if doorShut s h then .refuse stUnitOff []
  else body s h

/-- Event 0x1115 for a header that fails R87 step 3 (R87, R106). -/
def logHeader (h : Hamper) (s : State) : State :=
  if (s.fns[h.fn]).mode ≠ .wedged ∧ ¬ s.start.doorClosed ∧ h.headerBad then post 0x1115 h.fn wide s else s

/-- Write the reply that a verdict asks for (R73, R74), or owe it (R83). -/
def answer (h : Hamper) (v : Verdict) (s : State) : State :=
  match v with
  | .ok t p => reply h stOk 0 p (taken h.fn h.porch t)
  | .accepted t p => reply h stAccepted 0 p (taken h.fn h.porch t)
  | .later t i =>
    let t := taken h.fn h.porch t
    { t with owed := t.owed ++ [⟨h.op, i, h.fn, h.porch, h.sequence, h.payload, t.elapsed⟩] }
  | .refuse st p =>
    reply h st (if st = stBusyUpdating then retryAfter s else 0) p (taken h.fn h.porch (logHeader h s))

/-- The owed reply of an opcode and index. -/
def findOwed (s : State) (op index : Nat) : Option Owed := s.owed.find? fun o => o.op == op && o.index == index

/-- Write an owed reply (R83). -/
def replyOwed (o : Owed) (status : Nat) (payload : List Byte) (s : State) : State :=
  reply ⟨o.fn, o.porch, o.op, 0, o.sequence, 0, 0, 0, o.payload⟩ status 0 payload
    { s with owed := s.owed.filter fun x => x.fn != o.fn }

/-- Valtyn fetches and answers the hamper of a command, if its opcode is `op` (R83 to R87). Where no such hamper can be
fetched the command has no effect (log entry 3). -/
def serve (r : Req) (op minor : Nat) (pf0 : Bool) (body : State → Hamper → Verdict) (s : State) : State :=
  match fetch s r with
  | none => s
  | some h => if h.op = op then answer h (judge s h minor pf0 body) s else s

end Sys2Proof.Machine
end

