-- ==== Sys2Proof/Machine/Access.lean ====
section
/-! DEFINITION. How a BAR0 access reaches a register: function state, windows of resources, access errors (R42, R43, R50
to R56, R62, R67). -/

namespace Sys2Proof.Machine

/-- The function that owns the per-resource window at a BAR0 offset, with the resource's index (R43, R107, R237, R296,
R342, R436). -/
def windowOwner (s : State) (off : Nat) : Option (Fn × Nat) :=
  if 0x3000 ≤ off ∧ off < 0x3400 then (entryAt 32 0x20 off).map fun i => (s.plan.queues[i], i.val)
  else if 0x8000 ≤ off ∧ off < 0x8400 then (entryAt 32 0x20 off).map fun i => (s.plan.streams[i], i.val)
  else if 0x8400 ≤ off ∧ off < 0x8600 then (entryAt 16 0x20 off).map fun i => (s.plan.hoppers[i], i.val)
  else if 0x10000 ≤ off ∧ off < 0x14000 then
    (entryAt 64 0x100 off).map fun i => (s.plan.channels[i], i.val)
  else if 0x21200 ≤ off ∧ off < 0x21400 then
    (entryAt 16 0x20 off).map fun i => (s.plan.comparators[i], i.val)
  else none

/-- How an access of one doubleword stands (R43, R62). -/
inductive Gate where
  | pass
  | unowned (index : Nat)
  | wedgedIndex
  | wedged
  deriving DecidableEq, Repr

/-- The index registers of a function's rings and of its own queues (R62, R107). -/
def isIndexRegister (s : State) (fn : Fn) (off : Nat) : Bool :=
  (0x2000 ≤ off && off < 0x2010) ||
    (0x3000 ≤ off && off < 0x3400 && (off % 0x20 == 0 || off % 0x20 == 4) &&
      (match windowOwner s off with
        | some (o, _) => o == fn
        | none => false))

/-- Where one doubleword access stands. -/
def gateOf (s : State) (fn : Fn) (off : Nat) : Gate :=
  if (s.fns[fn]).mode = .wedged ∧ 0x2000 ≤ off then (if isIndexRegister s fn off then .wedgedIndex else .wedged)
  else match windowOwner s off with
    | some (o, i) => if o = fn then .pass else .unowned i
    | none => .pass

/-- Set an ACCESS_ERR bit and ACCESS_ERR_ADDR (R54). -/
def flagAccess (fn : Fn) (off : Nat) (g : FnState → FnState) (s : State) : State :=
  s.modFn fn fun f => { g f with errAddr := BitVec.ofNat 32 off }

/-- An access to an unowned window (R43). -/
def flagUnowned (fn : Fn) (off index : Nat) (s : State) : State :=
  post 0x1106 fn index (flagAccess fn off (fun f => { f with errUnowned := true }) s)

/-- An access to an unimplemented offset (R54). -/
def flagUnimplemented (fn : Fn) (off : Nat) (s : State) : State :=
  post 0x1103 fn wide (flagAccess fn off (fun f => { f with errUnimpl := true }) s)

/-- A write to a locked RWL field (R9, R67). -/
def flagLocked (fn : Fn) (off : Nat) (s : State) : State :=
  post 0x1105 fn wide (flagAccess fn off (fun f => { f with errLocked := true }) s)

/-- Whether a BAR0 request reaches the function (R34, R40, R56, R67): `none` when the link carries nothing, `some false`
when it is an unsupported request. The spec does not say what a BAR0 request gets before the 60 ms of R34; the model
answers it as an unsupported request (log entry 53). -/
def reaches (s : State) (fn : Fn) (off : Nat) : Option Bool :=
  if ¬ s.link.up then none
  else some (since s (some s.link.rrsFrom) (ticksMs 60) && (s.fns[fn]).mode != .absent &&
    (s.fns[fn]).mode != .fencing && decide (off < if fn = 0 then 0x100000 else 0x40000))

/-- An unsupported request to BAR0 (R56, R67): AER UR unless the function is in FENCING. -/
def unsupported (fn : Fn) (read : Bool) (s : State) : State :=
  let s := if (s.fns[fn]).mode = .fencing then s
    else s.modFn fn fun f => { f with aer := { f.aer with ur := true } }
  let s := if read then emit (.ur fn) s else s
  post 0x1102 fn wide s

/-- One doubleword access with its gate: what a read returns, and the state after. -/
def gated (fn : Fn) (off : Nat) (write : Bool) (op : State → Word × State) (s : State) : Word × State :=
  match gateOf s fn off with
  | .pass => op s
  | .unowned i => (0, flagUnowned fn off i s)
  | .wedgedIndex => (0, if write then post 0x1110 fn wide s else s)
  | .wedged => (0, post 0x1106 fn wide s)

/-- A full 32-bit read of one register (R9). -/
def readRegister (fn : Fn) (off : Nat) (op : State → Word × State) (s : State) : State :=
  match reaches s fn off with
  | none => s
  | some false => unsupported fn true s
  | some true =>
    let r := gated fn off false op s
    emit (.completion fn [r.1]) r.2

/-- A full 32-bit write of one register (R9). -/
def writeRegister (fn : Fn) (off : Nat) (op : State → State) (s : State) : State :=
  match reaches s fn off with
  | none => s
  | some false => unsupported fn false s
  | some true => (gated fn off true (fun s => (0, op s)) s).2

end Sys2Proof.Machine
end

