-- ==== Sys2Proof/Machine/Time.lean ====
section
/-! DEFINITION. Meanings of the chapter "Clocks, crossings and device time": Fantail, time steps, the TDC and the time
registers and hampers (R114 to R130). -/

namespace Sys2Proof.Machine

/-- Change Fantail. -/
def State.modFantail (s : State) (g : Fantail → Fantail) : State :=
  { s with clk := { s.clk with fantail := g s.clk.fantail } }

/-- The code of FANTAIL_STATE.state. -/
def FantailState.code : FantailState → Nat
  | .free => 0
  | .acquire => 1
  | .locked => 2
  | .holdover => 3

/-- The code of FANTAIL_STATE.mode. -/
def FantailMode.code : FantailMode → Nat
  | .free => 0
  | .rate => 1
  | .slew => 2

/-- Enter ACQUIRE with o_prev discarded; mode FREE stays in FREE (R118, R121). -/
def Fantail.toAcquire (f : Fantail) (at_ : Nat) : Fantail :=
  { f with
    state := if f.mode = .free then .free else .acquire
    prevOffset := none, within := 0, outside := 0, jump := false, validAt := at_ }

/-- Enter HOLDOVER, FANTAIL_RATE frozen (R119). -/
def Fantail.toHoldover (f : Fantail) : Fantail :=
  if f.mode = .free then f else { f with state := .holdover, prevOffset := none, within := 0, outside := 0 }

/-- The nearest integer to a rational, an exact tie left open (log entry 7). -/
def ratRound (x : Rat) : Int := roundTie x.num x.den

/-- Saturate to s32. -/
def sat32 (i : Int) : Word := BitVec.ofInt 32 (max (-2147483648) (min 2147483647 i))

/-- The round trip exceeds four times the median of the last 16 valid ones (R119); the median of an even count is the
mean of the middle two, and while there are fewer it is that of those there are (log entry 12): with none, no round trip is too
long. Round trips in 1/256 ns. -/
def roundTripBad (trips : List Nat) (rt : Nat) : Bool :=
  let l := trips.insertionSort (· ≤ ·)
  let n := l.length
  n != 0 && decide (2 * rt > 4 * (l.getD ((n - 1) / 2) 0 + l.getD (n / 2) 0))

/-- The rate update of R118 after the first dialogue: offset `o`, previous offset `p`, `t` ns since the previous valid
dialogue. -/
def Fantail.steer (f : Fantail) (o p t : Rat) : Fantail :=
  let n : Rat := f.loopDialogues
  let e := (o - p) / t * 1000000 - f.r
  let freq := f.freq + (e - f.freq) / n
  let big : Bool := decide ((f.jumpNs : Rat) < |o|)
  let r := if f.mode = .slew ∧ ¬ big then -freq - o / (n * t) * 1000000 else -freq
  let m : Rat := f.maxSlewPpm
  let r := max (-m) (min m r)
  { f with
    freq := freq, r := r, rate := BitVec.ofInt 32 (ratRound (r * 65536)), prevOffset := some o
    needsStep := f.mode == .slew && big }

/-- The move between ACQUIRE and LOCKED after a valid dialogue at offset `o`. -/
def Fantail.judgeLock (f : Fantail) (o : Rat) : Fantail :=
  let inside : Bool := decide (|o| ≤ (f.lockNs : Rat))
  let f := { f with
    within := if inside then f.within + 1 else 0
    outside := if inside then 0 else f.outside + 1 }
  match f.state with
  | .acquire => if 8 ≤ f.within then { f with state := .locked } else f
  | .locked => if 4 ≤ f.outside then { f with state := .acquire, prevOffset := none, within := 0, outside := 0 } else f
  | _ => f

/-! ### The time-to-digital converter -/

/-- The group of a line (R123): each has a stamp FIFO; the PTM markers have none. -/
def TdcLine.group : TdcLine → Option Nat
  | .pos .. => some 0
  | .xtr _ => some 1
  | .trig _ => some 2
  | .dw _ => some 3
  | .ext _ => some 4
  | .ptm => none

/-- What the TDC makes of an edge (R126): a stamp, or none, since the line had one in this tick or the FIFO is full. -/
inductive TdcAnswer where
  | stamped (h : Held)
  | dense
  | full
  deriving DecidableEq, Repr

/-- The stamp, if there is one. -/
def TdcAnswer.held? : TdcAnswer → Option Held
  | .stamped h => some h
  | _ => none

/-- A TDC stamp is dropped (R126). -/
def tdcDropped (s : State) : State :=
  post 0xA005 wide wide { s with clk := { s.clk with tdcDrop := s.clk.tdcDrop + 1, dense := true } }

/-- How long a stamp stays in its FIFO: the 1 µs drain of R113, in ticks (log entry 54). -/
abbrev tdcDrain : Nat := 200

/-- An edge on a line: its stamp is device time at the tick before it plus `step` steps of 31.25 ps (R123, R124, R126). -/
def tdcEdge (line : TdcLine) (step : Nat) (s : State) : TdcAnswer × State :=
  let held := s.clk.tdc.filter fun x => decide (s.elapsed < x.at_ + tdcDrain)
  if held.any fun x => x.line == line && x.at_ == s.elapsed then (.dense, tdcDropped s)
  else if line.group.isSome && decide (64 ≤ (held.filter fun x => x.line.group == line.group).length) then
    (.full, tdcDropped s)
  else
    (.stamped (hold s (now s + BitVec.ofNat 72 (8 * step))),
      { s with clk := { s.clk with tdc := ⟨line, s.elapsed⟩ :: held } })

/-- An edge whose stamp only the TDC takes (R123). -/
def tdcNote (line : TdcLine) (step : Nat) (s : State) : State := (tdcEdge line step s).2

/-- A ball's level is sampled (R123, R241): a new level is an edge, which the TDC stamps. -/
def RawLine.sample (line : TdcLine) (x : Line) (r : RawLine) (s : State) : RawLine × State :=
  if x.level = r.level then (r, s)
  else
    let (a, s) := tdcEdge line x.step s
    (⟨x.level, s.elapsed, a.held?⟩, s)

/-- The filtered level of a ball (R241): a new one once its samples have shown it `glitch` + 1 times in a row. -/
def RawLine.filter (r : RawLine) (glitch now_ : Nat) (level : Bool) : Bool :=
  if r.since + glitch ≤ now_ then r.level else level

/-- When the ball took its present level: the stamp of its edge, or, where the TDC dropped that, the coarse time of R242. -/
def RawLine.edgeTime (r : RawLine) (s : State) : Held × Bool :=
  match r.edge with
  | some h => (h, false)
  | none => (hold s (now s - BitVec.ofNat 72 ((s.elapsed - r.since) * 1280)), true)

/-- The stamp of a happening at this tick whose device time lies `skew` steps of 1/256 ns from the tick's (R112). -/
def stampNear (s : State) (skew : Int) : Stamp := now s + BitVec.ofInt 72 skew

/-! ### Dialogues -/

/-- What every valid dialogue records (R119, R129, R130). -/
def noteDialogue (device : Stamp) (masterNs rt : Nat) (o : Rat) (s : State) : State :=
  s.modFantail fun f => { f with
    offset := sat32 (ratRound o), lastOffset := o, lastDevice := some (hold s device), lastAt := s.elapsed, correlated := true
    lastHostNs := BitVec.ofNat 64 masterNs, lastSteps := s.clk.stepCount, dialogues := f.dialogues + 1
    validAt := s.elapsed, waiting := none, roundTrips := (rt :: f.roundTrips).take 16 }

/-- A valid dialogue (R118, R119). -/
def validDialogue (device : Stamp) (masterNs rt : Nat) (s : State) : State :=
  let o : Rat := (device.toNat : Rat) / 256 - masterNs
  let f := s.clk.fantail
  let t : Rat := match f.lastDevice with
    | some h => ((device.toNat : Int) - ((release s h).1.toNat : Int) : Rat) / 256
    | none => 0
  if f.mode = .free then noteDialogue device masterNs rt o s
  else if f.state = .holdover ∧ f.jump then noteDialogue device masterNs rt o s
  else
    let s := if f.state = .holdover then s.modFantail fun f => { f with state := .acquire, prevOffset := none } else s
    match s.clk.fantail.prevOffset with
    | none =>
      (noteDialogue device masterNs rt o s).modFantail fun f =>
        ({ f with prevOffset := some o, needsStep := f.mode == .slew && decide ((f.jumpNs : Rat) < |o|) } :
          Fantail).judgeLock o
    | some p =>
      if (f.jumpNs : Rat) < |o - p| then
        post 0xA104 wide wide (s.modFantail fun f => { f with jump := true, state := .holdover, waiting := none })
      else (noteDialogue device masterNs rt o s).modFantail fun f => (f.steer o p t).judgeLock o

/-- A PTM response arrives (R117 to R119): the root took the request at its time `masterNs` and held it for `turnaroundNs`. The
round trip is the time between the stamps of the two markers less that; the common instant is the request's arrival at the
root, half a round trip after the request's marker (log entry 54). -/
def ptmResponse (step masterNs turnaroundNs : Nat) (s : State) : State :=
  match s.clk.fantail.waiting with
  | none => s
  | some (t, sent) =>
    if t + ticksMs 1 < s.elapsed then s
    else
      let (a, s) := tdcEdge .ptm step (s.modFantail fun f => { f with silent := 0 })
      let t1 : Int := (release s sent).1.toNat
      let t4 : Int := (release s (a.held?.getD (hold s (now s)))).1.toNat
      let rt := (t4 - t1 - 256 * turnaroundNs).toNat
      if roundTripBad s.clk.fantail.roundTrips rt then
        post 0xA103 wide wide (s.modFantail fun f => { f with waiting := none })
      else validDialogue (BitVec.ofInt 72 (t1 + rt / 2)) masterNs rt s

/-- The interval_ms timer fires (R117, R128). -/
def ptmStart (step : Nat) (s : State) : State :=
  let f := s.clk.fantail
  if mainRuns s ∧ (f.startedAt = none ∨ since s f.startedAt (ticksMs f.intervalMs)) then
    let s := s.modFantail fun f => { f with startedAt := some s.elapsed }
    if ¬ s.link.ptmEnable then post 0xA101 wide wide (s.modFantail fun f => { f.toHoldover with waiting := none })
    else if s.link.up then
      let (a, s) := tdcEdge .ptm step s
      emit .ptmRequest (s.modFantail fun f => { f with waiting := some (s.elapsed, a.held?.getD (hold s (now s))) })
    else s
  else s

/-- The requests without a response after which there is no PTM responder (R128, log entry 54). -/
abbrev silentLimit : Nat := 4

/-- A PTM response is missing after 1 ms (R119); with none for `silentLimit` requests there is no responder (R128). -/
def ptmMissing (s : State) : State :=
  if since s (s.clk.fantail.waiting.map Prod.fst) (ticksMs 1) then
    let s := post 0xA102 wide wide (s.modFantail fun f => { f with waiting := none, silent := f.silent + 1 })
    if s.clk.fantail.silent = silentLimit then post 0xA101 wide wide (s.modFantail Fantail.toHoldover) else s
  else s

/-- TIME_STATUS.ptm_enabled: PTM Enable is set and there is a responder (R128). -/
def ptmEnabled (s : State) : Bool := s.link.ptmEnable && decide (s.clk.fantail.silent < silentLimit)

/-- Four intervals pass with no valid dialogue (R119). -/
def fantailQuiet (s : State) : State :=
  let f := s.clk.fantail
  if f.mode ≠ .free ∧ f.state ≠ .holdover ∧ f.validAt + 4 * ticksMs f.intervalMs ≤ s.elapsed then
    post 0xA105 wide wide (s.modFantail Fantail.toHoldover)
  else s

/-- PTM Enable of PF0 changes (R119). -/
def setPtmEnable (on : Bool) (s : State) : State :=
  let s := { s with link := { s.link with ptmEnable := on } }
  if on then s.modFantail fun f => { f with silent := 0 } else s.modFantail fun f => { f.toHoldover with waiting := none }

/-- The 1 ms calibration of the TDC (R125). -/
def tdcCalibrate (good : Bool) (s : State) : State :=
  let s := { s with clk := { s.clk with calOk := good } }
  if good then s else post 0xA004 wide wide s

/-- A full read of TIME_NS_LO (R129). -/
def readTimeLo (fn : Fn) (s : State) : Word × State :=
  ((nowNs s).setWidth 32,
    s.modFn fn fun f => { f with
      timeHi := ((nowNs s) >>> (32 : Nat)).setWidth 32
      timeFrac := packed [(16, s.clk.stepCount.toNat), (0, stampFrac (now s))] })

/-- A full read of TDC_DROP (R129). -/
def readTdcDrop (s : State) : Word × State := (s.clk.tdcDrop, { s with clk := { s.clk with tdcDrop := 0 } })

/-- FANTAIL_STATE (R129). -/
def fantailWord (s : State) : Word :=
  let f := s.clk.fantail
  packed [(6, b2n s.link.ptmEnable), (5, b2n f.needsStep), (4, b2n f.jump), (2, f.mode.code), (0, f.state.code)]

/-- CLOCK_STATUS (R129). -/
def clockWord (s : State) : Word :=
  packed [(5, b2n s.clk.refclkOk), (4, b2n s.clk.xtalOk), (0, s.clk.pllLock.toNat)]

/-- The time registers without a side effect (R129). -/
def timeRegister (s : State) (fn : Fn) (off : Nat) : Option Word :=
  if off = 0x20000 then some ((nowNs s).setWidth 32)
  else if off = 0x20004 then some (s.fns[fn]).timeHi
  else if off = 0x20008 then some (s.fns[fn]).timeFrac
  else if off = 0x2000C then some (fantailWord s)
  else if off = 0x20010 then some s.clk.fantail.offset
  else if off = 0x20014 then some s.clk.fantail.rate
  else if off = 0x20018 then some (packed [(1, b2n s.clk.dense), (0, b2n s.clk.calOk)])
  else if off = 0x2001C then some s.clk.tdcDrop
  else if off = 0x20020 then some (clockWord s)
  else none

/-- TIME_STATUS (R130). -/
def timeStatusBody (s : State) (h : Hamper) : Verdict :=
  if h.tail 0 then badArg
  else
    let f := s.clk.fantail
    .ok s (record [(8, (nowNs s).toNat), (1, stampFrac (now s)), (1, f.state.code), (1, f.mode.code),
      (1, b2n f.needsStep + 2 * b2n f.jump + 4 * b2n (ptmEnabled s)), (2, s.clk.stepCount.toNat), (2, 0),
      (4, f.offset.toNat), (4, f.rate.toNat), (8, (f.lastDevice.map (heldNs s)).getD 0),
      (4, s.clk.wakeOffsetUs.toNat), (4, f.dialogues.toNat)])

/-- The ticks that have passed since device time first was at least `ns` (R293), and the stamp of that tick. -/
def tickReached (s : State) (ns : Int) : Nat × Stamp :=
  let inc := max 1 (tickIncrement s.clk.fantail.rate)
  let k := min s.elapsed (((s.clk.dev.toNat : Int) - ns * 2 ^ 40) / inc).toNat
  (k, BitVec.ofInt 72 (((s.clk.dev.toNat : Int) - inc * k) / 2 ^ 32))

/-- The ticks until device time first is at least `ns`. -/
def ticksUntil (s : State) (ns : Int) : Nat :=
  let inc := max 1 (tickIncrement s.clk.fantail.rate)
  ((ns * 2 ^ 40 - s.clk.dev.toNat + inc - 1) / inc).toNat

/-- A TIME target that a step of `d` meets (R122, R293): one already reached keeps its tick, and one that a forward step passes fires
with LATE. A backward step moves no grid point: a first point keeps the tick that it had. -/
def Cmp.timeStepped (s : State) (d : Int) (c : Cmp) : Cmp :=
  if c.source = 4 ∧ c.mode = .armed ∧ c.reached = none ∧ c.nextTick = none then
    let next := c.target + (if c.grid then (c.pitch : Int) else 0)
    if c.target ≤ (nowNs s).toNat then
      let (k, t) := tickReached s c.target
      { c with reached := some ⟨hold s t, s.elapsed - k, stampNs t, 0, 1, false, false, false, false, next⟩ }
    else
      let after := (now s).toNat + d
      if c.target * 256 ≤ after then
        let h : Held := ⟨BitVec.ofInt 72 after - (s.clk.stepSum + BitVec.ofInt 72 d), s.clk.stepCount + 1⟩
        { c with reached := some ⟨h, s.elapsed, after / 256, 0, 1, true, false, false, false, next⟩ }
      else if c.grid ∧ d < 0 then { c with nextTick := some (s.elapsed + ticksUntil s c.target) }
      else c
  else c

/-- Device time steps by `d` in 1/256 ns (R121, R122). -/
def stepTime (d : Int) (s : State) : State :=
  let s := { s with
    cmps := s.cmps.map (Cmp.timeStepped s d)
    clk := { s.clk with
      dev := s.clk.dev + BitVec.ofInt 104 (d * 2 ^ 32)
      stepSum := s.clk.stepSum + BitVec.ofInt 72 d
      stepCount := s.clk.stepCount + 1
      fantail := { s.clk.fantail.toAcquire s.elapsed with correlated := false } }
    streams := s.streams.map fun x => { x with steppedOwed := x.steppedOwed || x.isOpen } }
  noticeAll nTimeStepped (BitVec.ofInt 32 (d / 256)) stOk 0 (post 0xA010 wide wide s)

/-- A valid dialogue lies within the last 4 intervals (R130). -/
def dialogueFresh (s : State) : Bool :=
  let f := s.clk.fantail
  f.lastDevice.isSome && decide (s.elapsed ≤ f.lastAt + 4 * ticksMs f.intervalMs)

/-- TIME_STEP (R121, R130). -/
def timeStepBody (s : State) (h : Hamper) : Verdict :=
  let p := h.payload
  let ns := sfld p 0 8
  let frac := fld p 8 1
  let toHost := bit (fld p 9 1) 0
  let d : Int := if toHost then -(s.clk.fantail.lastOffset * 256).floor else ns * 256 + frac
  if toHost && !dialogueFresh s then wrongState
  else if h.tail 16 || fld p 9 1 / 2 != 0 || !zeros p 10 6 ||
      (!toHost && ns == 0 && frac == 0) || (toHost && (ns != 0 || frac != 0)) ||
      decide (d.natAbs > 2 ^ 70) || decide (((now s).toNat : Int) + d < 0) then badArg
  else .ok (stepTime d s) (record [(8, codeOf 64 (d / 256)), (1, (d % 256).toNat), (1, 0),
    (2, (s.clk.stepCount + 1).toNat), (4, 0), (8, (nowNs s).toNat)])

/-- The settings of a FANTAIL_CONFIG payload, when each lies in its range (R130). -/
def fantailSettings (p : List Byte) : Option (FantailMode × Nat × Nat × Nat × Nat × Nat) :=
  let mode := fld p 0 1
  let i := fld p 2 2
  let n := fld p 4 2
  let m := fld p 6 2
  let l := fld p 8 4
  let j := fld p 12 4
  if mode ≤ 2 ∧ zeros p 1 1 ∧ 1 ≤ i ∧ i ≤ 1000 ∧ 4 ≤ n ∧ n ≤ 1024 ∧ 1 ≤ m ∧ m ≤ 200 ∧ 10 ≤ l ∧ l ≤ 1000000 ∧
      1000 ≤ j ∧ j ≤ 1000000000 ∧ zeros p 16 4 then
    some (if mode = 0 then .free else if mode = 1 then .rate else .slew, i, n, m, l, j)
  else none

/-- Apply Fantail settings (R120). -/
def applyFantail (c : FantailMode × Nat × Nat × Nat × Nat × Nat) (at_ : Nat) (f : Fantail) : Fantail :=
  let (mode, i, n, m, l, j) := c
  let f := if f.mode = .free then { f with freq := 0, r := 0 } else f
  let f := { f with mode := mode, intervalMs := i, loopDialogues := n, maxSlewPpm := m, lockNs := l, jumpNs := j
                    needsStep := false }
  let f := f.toAcquire at_
  if mode = .free then { f with rate := 0, r := 0 } else f

/-- FANTAIL_CONFIG (R120, R130). -/
def fantailConfigBody (s : State) (h : Hamper) : Verdict :=
  match fantailSettings h.payload with
  | none => badArg
  | some c => if h.tail 20 then badArg else .ok (s.modFantail (applyFantail c s.elapsed)) []

/-- TIME_CORRELATE (R130). -/
def timeCorrelateBody (s : State) (h : Hamper) : Verdict :=
  let f := s.clk.fantail
  match f.lastDevice with
  | none => wrongState
  | some d =>
    if ¬ f.correlated then wrongState
    else if h.tail 0 then badArg
    else
      let t := (release s d).1
      .ok s (record [(8, stampNs t), (1, stampFrac t), (1, f.state.code), (2, f.lastSteps.toNat), (4, f.rate.toNat),
        (8, f.lastHostNs.toNat), (4, min 0xFFFFFFFF (((nowNs s).toNat - stampNs t) / 1000)), (4, 0)])

/-! ### The meanings -/

/-- TIME_NS_LO_READ (R129). -/
def execTimeNsLoRead (dt : Nat) (fn : Fn) (s : State) : Answer :=
  .next (readRegister fn 0x20000 (readTimeLo fn) (advance dt s))

/-- TDC_DROP_READ (R129). -/
def execTdcDropRead (dt : Nat) (fn : Fn) (s : State) : Answer :=
  .next (readRegister fn 0x2001C readTdcDrop (advance dt s))

/-- PTM_DIALOGUE_START (R117). -/
def execPtmDialogueStart (dt : Nat) (step : Nat) (s : State) : Answer := .next (ptmStart step (advance dt s))

/-- PTM_DIALOGUE_RESPONSE (R118). -/
def execPtmDialogueResponse (dt : Nat) (step masterNs turnaroundNs : Nat) (s : State) : Answer :=
  .next (ptmResponse step masterNs turnaroundNs (advance dt s))

/-- PTM_DIALOGUE_TIMEOUT (R119). -/
def execPtmDialogueTimeout (dt : Nat) (s : State) : Answer := .next (ptmMissing (advance dt s))

/-- FANTAIL_HOLDOVER_TIMEOUT (R119). -/
def execFantailHoldoverTimeout (dt : Nat) (s : State) : Answer := .next (fantailQuiet (advance dt s))

/-- PTM_ENABLE_CHANGE (R119). -/
def execPtmEnableChange (dt : Nat) (on : Bool) (s : State) : Answer := .next (setPtmEnable on (advance dt s))

/-- TDC_CALIBRATION (R125). -/
def execTdcCalibration (dt : Nat) (good : Bool) (s : State) : Answer := .next (tdcCalibrate good (advance dt s))

/-- TIME_STATUS (R130). -/
def execTimeStatus (dt : Nat) (r : Req) (s : State) : Answer :=
  .next (serve r 0x0A01 0 false timeStatusBody (advance dt s))

/-- TIME_STEP (R121). -/
def execTimeStep (dt : Nat) (r : Req) (s : State) : Answer :=
  .next (serve r 0x0A02 0 true timeStepBody (advance dt s))

/-- FANTAIL_CONFIG (R120). -/
def execFantailConfig (dt : Nat) (r : Req) (s : State) : Answer :=
  .next (serve r 0x0A03 0 true fantailConfigBody (advance dt s))

/-- TIME_CORRELATE (R130). -/
def execTimeCorrelate (dt : Nat) (r : Req) (s : State) : Answer :=
  .next (serve r 0x0A04 1 false timeCorrelateBody (advance dt s))

end Sys2Proof.Machine
end

