-- ==== Sys2Proof/Machine/PosOps.lean ====
section
/-! DEFINITION. The position value, velocity and snapshots of a position channel (R244 to R258, R261). Times here are
integers in 1/256 ns. -/

namespace Sys2Proof.Machine

/-- Two's complement wrap of an integer to `n` bits. -/
def wrapS (n : Nat) (i : Int) : Int :=
  let m := i % (2 ^ n : Int)
  if m < 2 ^ (n - 1) then m else m - 2 ^ n

/-- A held stamp as an integer in the present timebase. -/
def timeOf (s : State) (h : Held) : Int := (release s h).1.toNat

/-- 1/256 ns in one second, and in one ms. -/
abbrev unitsPerSecond : Int := 256000000000
abbrev unitsPerMs : Int := 256000000

/-- Change one channel. -/
def State.modPos (s : State) (c : Fin 4) (g : Pos → Pos) : State := { s with pos := vmod s.pos c g }

/-- An incremental kind (R244). -/
def PosKind.incremental : PosKind → Bool
  | .quad | .stepDir | .upDown | .hall => true
  | _ => false

/-- A serial kind. -/
def PosKind.serial : PosKind → Bool
  | .ssi | .bissC => true
  | _ => false

/-- The code of a kind (R239). -/
def PosKind.code : PosKind → Nat
  | .off => 0
  | .quad => 1
  | .stepDir => 2
  | .upDown => 3
  | .hall => 4
  | .ssi => 5
  | .bissC => 6

/-- The code of a state (R240). -/
def PosMode.code : PosMode → Nat
  | .off => 0
  | .starting => 1
  | .running => 2
  | .serialLost => 3

/-- |v| of R257 after `e` units without an event, with standstill at `stop`. -/
def speedAfter (stop : Int) (speed : Rat) (e : Int) : Rat :=
  if stop ≤ e then 0
  else if (unitsPerSecond : Rat) < e * speed then (unitsPerSecond : Rat) / e
  else speed

/-- The fraction f of R246 after `e` units, `gap` units after the last event; it freezes at standstill, `stop` units after that
event (R257). -/
def fractionAfter (stop : Int) (speed : Rat) (e gap : Int) : Int :=
  min 4095 (4096 * (min (max e 0) (max 0 (stop - (gap - e))) : Int) * speed / (unitsPerSecond : Rat)).floor

/-- The sign of a direction. -/
def sign (fwd : Bool) : Int := if fwd then 1 else -1

/-- The point in force at an instant: the newest at or before it, or the oldest kept (R247). -/
def pointAt (s : State) (t : Int) : List PosPoint → Option PosPoint
  | [] => none
  | [p] => some p
  | p :: rest => if timeOf s p.at_ ≤ t then some p else pointAt s t rest

/-- The velocity that a serial sample gives over the last `k` samples before it, newest first (R261). -/
def serialVelocity (s : State) (k : Nat) (at_ : Held) (p : Int) (before : List PosSample) : Rat :=
  match before[min k before.length - 1]? with
  | some b => ((p - b.p : Int) : Rat) / 4096 * unitsPerSecond / ((timeOf s at_ - timeOf s b.at_ : Int) : Rat)
  | none => 0

/-- P(t) between and after serial samples, newest first (R261). -/
def serialP (s : State) (c : PosCfg) (t : Int) : List PosSample → Int
  | [] => 0
  | a :: rest =>
    let ta := timeOf s a.at_
    if ta ≤ t then
      let dt := min (t - ta) (2 * (c.periodUs : Int) * 1000 * 256)
      a.p + ratRound (4096 * a.v * dt / (unitsPerSecond : Rat))
    else
      match rest with
      | [] => a.p
      | b :: _ =>
        let tb := timeOf s b.at_
        if tb ≤ t then b.p + ratRound (((a.p - b.p) * (t - tb) : Int) / ((ta - tb : Int) : Rat))
        else serialP s c t rest

/-- P at the newest valid serial sample, or the held P before one (R240, R261). -/
def Pos.sampled (c : Pos) : Int :=
  match c.samples with
  | x :: _ => wrapS 60 x.p
  | [] => c.heldP

/-- The channel has been without an event for stop_timeout_ms at an instant (R257). -/
def Pos.still (s : State) (p : Pos) (t : Int) : Bool :=
  p.standstill || (match p.points with
    | x :: _ => decide (x.stop ≤ t - timeOf s x.ev)
    | [] => true)

/-- Interpolation moves P at an instant (R246, R276): there is a period estimate, and the channel is not at standstill. -/
def Pos.moving (s : State) (p : Pos) (t : Int) : Bool :=
  !p.still s t && (match p.points with
    | x :: _ => x.fwd.isSome && decide (x.speed ≠ 0)
    | [] => false)

/-- P(t) of a channel (R240, R244 to R247, R261). -/
def posP (s : State) (c : Pos) (t : Int) : Int :=
  match c.mode with
  | .off | .starting => c.heldP
  | .serialLost => c.sampled
  | .running =>
    if c.kind.serial then wrapS 60 (serialP s c.cfg t c.samples)
    else
      match pointAt s t c.points with
      | none => c.heldP
      | some p =>
        match p.fwd with
        | none => wrapS 60 (4096 * p.loc)
        | some d => wrapS 60 (4096 * p.loc + sign d * fractionAfter p.stop p.speed (t - timeOf s p.at_) (t - timeOf s p.ev))

/-- The velocity at an instant in counts per second (R256, R257, R261). -/
def posV (s : State) (c : Pos) (t : Int) : Rat :=
  match c.mode with
  | .running =>
    if c.kind.serial then
      ((c.samples.find? fun a => decide (timeOf s a.at_ ≤ t)).map PosSample.v).getD 0
    else
      match pointAt s t c.points with
      | some ⟨_, h, _, some d, v, stop⟩ => sign d * speedAfter stop v (t - timeOf s h)
      | _ => 0
  | _ => 0

/-- The s32 of R258: nearest 1/256, ties away from zero, saturating. -/
def velCode (v : Rat) : Int :=
  let m := (|v| * 256 + 1 / 2).floor
  let m := min m 0x7FFFFFFF
  if v < 0 then -m else m

/-- POS_SKIP_COUNT at an instant (R247). -/
def skipsAt (s : State) (c : Pos) (t : Int) : Word :=
  match c.skipAt.find? fun x => timeOf s x.1 ≤ t with
  | some x => x.2
  | none =>
    match c.skipAt.getLast? with
    | some x => x.2 - 1
    | none => c.skips

/-- A snapshot of a channel for a stamp (R247). -/
def snapshot (s : State) (ch : Fin 4) (h : Held) : Snap :=
  let c := s.pos[ch]
  let t := timeOf s h
  ⟨h, posP s c t - c.presetSum, velCode (posV s c t), skipsAt s c t⟩

/-- The position of a snapshot at its use (R264). -/
def snapPos (s : State) (ch : Fin 4) (n : Snap) : Int := wrapS 60 (n.raw + (s.pos[ch]).presetSum)

/-- A snapshot's position and velocity for a channel number, 0 without a channel (R228, R334). -/
def snapOf (s : State) (channel : Nat) (h : Held) : Option Snap := (fin? 4 channel).map fun c => snapshot s c h

/-- P now. -/
def pNow (s : State) (c : Fin 4) : Int := posP s s.pos[c] (now s).toNat

/-- Set sticky bits of POS_FLAGS (R271). -/
def posFlag (c : Fin 4) (i : Nat) (s : State) : State :=
  s.modPos c fun p => { p with flags := p.flags ||| BitVec.ofNat 13 (2 ^ i) }

/-! ### Emulators -/

/-- Change one emulator. -/
def State.modEmu (s : State) (m : Fin 2) (g : Emu → Emu) : State := { s with emu := vmod s.emu m g }

/-- g of R265 on the present P of its source; held while the source is OFF or SERIAL_LOST (R266). -/
def emuTarget (s : State) (m : Fin 2) : Int :=
  let e := s.emu[m]
  match fin? 4 e.source with
  | none => e.held
  | some c =>
    match (s.pos[c]).mode with
    | .off | .serialLost => e.held
    | _ => ((e.n : Int) * (pNow s c - e.p0)) / (4096 * (e.d : Int))

/-- The lag of an emulator is judged (R266): each time that it comes to exceed 65 535 it is flagged and logged. -/
def judgeEmu (m : Fin 2) (s : State) : State :=
  let e := s.emu[m]
  if ¬ e.running then s
  else
    let g := emuTarget s m
    let far := decide (65535 < |g - e.out|)
    let s := s.modEmu m fun e => { e with held := g, exceeds := far, lagged := e.lagged || far }
    if far ∧ ¬ e.exceeds then post 0x3013 wide m s else s

/-- The levels of EMUm_A and EMUm_B at an output count (R248, R265): the X4 sequence, in the other direction when reversed, and
inverted as configured (R272). -/
def Emu.levels (e : Emu) : Bool × Bool :=
  let k := (if bit e.flags 3 then -e.out else e.out) % 4
  (decide (k = 1 ∨ k = 2) != bit e.flags 0, decide (k = 2 ∨ k = 3) != bit e.flags 1)

/-- The level of EMUm_Z (R267, R272). -/
def Emu.zLevel (e : Emu) : Bool := (e.zPeriod != 0 && e.out % e.zPeriod == 0) != bit e.flags 2

/-- The levels of an emulator's balls as they now are. -/
def emuOut (m : Fin 2) (s : State) : State :=
  let e := s.emu[m]
  emit (.emulator m e.levels.1 e.levels.2 e.zLevel) s

/-- The emulators that follow a channel are judged. -/
def judgeEmus (c : Fin 4) (s : State) : State :=
  (allFin 2).foldl (fun s m => if (s.emu[m]).source = c.val then judgeEmu m s else s) s

/-- A source went OFF or SERIAL_LOST: POS_FLAGS.emu_src (R271). -/
def emuSourceGone (c : Fin 4) (s : State) : State :=
  if (allFin 2).any fun m => (s.emu[m]).running && (s.emu[m]).source == c.val then posFlag c 12 s else s

end Sys2Proof.Machine
end

