-- ==== Sys2Proof/Machine/LogOps.lean ====
section
/-! DEFINITION. The event log, pending faults and the mirror (R480 to R488). -/

namespace Sys2Proof.Machine

/-- The present start number as log entries carry it. -/
def startLow (s : State) : BitVec 16 := s.start.number.setWidth 16

/-- The limit interval in ns of the codes whose owning rule sets one (R253, R482). -/
def limitNs (code : Nat) : Nat := if code = 0x3101 ∨ code = 0x3103 then 10000000 else 0

/-- An event merges into the entry at a place in the log, 0 for the newest (R482). -/
def merges (s : State) (e : Event) (place : Nat) (l : LogEntry) : Bool :=
  l.code == e.code && l.fn == e.fn && l.unit == e.unit && l.start == startLow s &&
  ((decide (place < 64) && decide (e.time.toNat - l.firstNs.toNat ≤ 10000000000) && !(severity e.code == 2 && l.acked))
    || (limitNs e.code != 0 && decide (e.time.toNat - l.firstNs.toNat ≤ limitNs e.code)))

/-- The newest entry that an event merges into. -/
def mergePlace (s : State) (e : Event) : Option Nat :=
  (List.range s.log.entries.length).find? fun i =>
    match s.log.entries[i]? with
    | some l => merges s e i l
    | none => false

/-- Merge an event into an entry (R481, R482). -/
def mergeInto (e : Event) (l : LogEntry) : LogEntry :=
  { l with
    lastNs := e.time
    count := if l.count.toNat + e.count.toNat < 2 ^ 32 then l.count + e.count else 0xFFFFFFFF
    saturated := l.saturated || decide (2 ^ 32 ≤ l.count.toNat + e.count.toNat) }

/-- Change the entry at a place. -/
def modPlace {α : Type} (f : α → α) : Nat → List α → List α
  | _, [] => []
  | 0, a :: rest => f a :: rest
  | n + 1, a :: rest => a :: modPlace f n rest

/-- A FAULT entry makes a pending fault and a FAULT notice to PF0 (R484). The notice's "fault status" is a free value
(log entry 5). -/
def raiseFault (e : Event) (sequence : Word) (s : State) : State :=
  let s := if s.log.faults.length < 32 then
      s.modLog fun l => { l with faults := l.faults ++ [⟨e.code, e.fn, e.unit, sequence, 1⟩] }
    else s.modLog fun l => { l with faultOverflow := true }
  let (v, s) := draw s
  notice 0 nFault (BitVec.ofNat 32 e.code) (v % 0x10000) 1 s

/-- An event takes a new entry (R481, R483). -/
def newEntry (e : Event) (s : State) : State :=
  let seq := s.log.sequence + 1
  let l : LogEntry :=
    { code := e.code, severity := severity e.code, acked := false, mirrored := false, saturated := false
      lostBefore := s.log.lostBefore, sequence := seq, firstNs := e.time, lastNs := e.time, count := e.count
      fn := e.fn, unit := e.unit, start := startLow s }
  let s := s.modLog fun g => { g with
    entries := (l :: g.entries).take 1024
    headSlot := if g.entries.isEmpty then 0 else (g.headSlot + 1) % 1024
    sequence := seq
    lostBefore := false
    newSinceMirror := true
    faultSinceMirror := g.faultSinceMirror || severity e.code == 2 }
  let n := s.log.lostUnreported
  let s := if n ≠ 0 ∧ l.lostBefore then
      postCount 0x9013 wide wide n (s.modLog fun g => { g with lostUnreported := 0 })
    else s
  if severity e.code = 2 then raiseFault e seq s else s

/-- One event enters the log: merged or as a new entry (R482 to R484). -/
def record1 (e : Event) (s : State) : State :=
  match mergePlace s e with
  | some i =>
    let seq := (s.log.entries[i]?).map LogEntry.sequence
    s.modLog fun g => { g with
      entries := modPlace (mergeInto e) i g.entries
      newSinceMirror := true
      faults := g.faults.map fun f => if seq = some f.sequence then { f with count := f.count + 1 } else f }
  | none => newEntry e s

/-- Valtyn, or the boot ROM in recovery, drains the oldest collected event; not during a switch (R480). -/
def drainOne (s : State) : State :=
  if serves s ∧ ¬ s.start.doorClosed then
    match s.log.collector with
    | [] => s
    | e :: rest => record1 e (s.modLog fun g => { g with collector := rest })
  else s

/-- Drain what the collector holds now, at most `n` events: used where the log must be complete before a mirror. -/
def drainAll : Nat → State → State
  | 0, s => s
  | n + 1, s => drainAll n (drainOne s)

/-- Every collected event enters the log ahead of a clock-fault reset, at most `n` of them (R127, R480, log entry 54). -/
def recordAll : Nat → State → State
  | 0, s => s
  | n + 1, s =>
    match s.log.collector with
    | [] => s
    | e :: rest => recordAll n (record1 e (s.modLog fun g => { g with collector := rest }))

/-- The bank of a mirror number (R486). -/
def mirrorBank (n : Word) : Fin 31 := ⟨n.toNat % 31, Nat.mod_lt _ (by decide)⟩

/-- The mirror in progress completes: its bank is good (R486). -/
def mirrorEnd (s : State) : State :=
  let b := mirrorBank s.mirrorNumber
  { s with
    mirror := s.mirror.set b (s.mirror[b].map fun k => { k with good := true })
    log := { s.log with mirroring := none }
    pwr := { s.pwr with mirrored := true } }

/-- A mirror begins, after the one in progress: its bank is torn until it completes (R486, R487). What a SHUTDOWN or a DEVICE_RESET
waits for is the last of them. -/
def mirrorBegin (reason : Nat) (s : State) : State :=
  let was := s.log.mirroring
  let s := if was.isSome then mirrorEnd s else s
  let n := s.mirrorNumber + 1
  let b : MirrorBank :=
    { number := n, startNumber := s.start.number, reason := reason, newestSequence := s.log.sequence
      lost := s.log.lost, timeNs := nowNs s, entries := s.log.entries.take 256, good := false }
  { s with
    mirrorNumber := n
    mirror := s.mirror.set (mirrorBank n) (some b)
    log := { s.log with
      mirroring := if was = some 2 ∨ was = some 3 then was else some reason, newSinceMirror := false, faultSinceMirror := false, lastMirror := some s.elapsed } }

/-- The newest mirror bank with a good CRC (R488). -/
def newestMirror (s : State) : Option MirrorBank :=
  (allFin 31).foldl (fun best i =>
    match s.mirror[i] with
    | some b =>
      if b.good then
        (match best with
          | some a => if a.number < b.number then some b else best
          | none => some b)
      else best
    | none => best) none

/-- What ST03 does with the log: keep the Millpond log of a warm reset, else restore it from the mirror (R488). -/
def restoreLog (kept : Bool) (s : State) : State :=
  if kept then s
  else match newestMirror s with
    | some b =>
      s.modLog fun g => { g with
        entries := b.entries.map fun l => { l with mirrored := true }
        headSlot := b.entries.length - 1
        sequence := b.newestSequence
        restored := true
        lostBefore := g.lostBefore || s.start.cause == 0x16 || s.start.cause == 0x04 }
    | none => s.modLog fun g => { g with entries := [], headSlot := 0, sequence := 0 }

/-- The bytes of a log entry (R481). -/
def logEntryBytes (l : LogEntry) : List Byte :=
  record [(2, l.code), (1, l.severity),
    (1, b2n l.acked + 2 * b2n l.mirrored + 4 * b2n l.saturated + 8 * b2n l.lostBefore),
    (4, l.sequence.toNat), (8, l.firstNs.toNat), (8, l.lastNs.toNat), (4, l.count.toNat), (1, l.fn), (1, l.unit),
    (2, l.start.toNat)]

end Sys2Proof.Machine
end

