-- ==== Sys2Proof/Machine/WeirOps.lean ====
section
/-! DEFINITION. Weir: capacity, admission, shed order, the S fault, and allocation (R376 to R396). -/

namespace Sys2Proof.Machine

/-- Change Weir. -/
def State.modWeir (s : State) (g : Weir → Weir) : State := { s with weir := g s.weir }

/-- kB/s in MB/s, rounded up (R381). -/
def mbps (kb : Nat) : Nat := (kb + 999) / 1000

/-- How far a class is protected (R379). -/
def Class.weight : Class → Nat
  | .s => 2
  | .p => 1
  | .b => 0

/-- The LPDDR5X peak in kB/s (R376). -/
def lpPeak (w : Weir) : Nat := 4 * w.mts * 1000

/-- The LPDDR5X capacity of a thermal state (R376). -/
def lpCapacity (w : Weir) (hot : Bool) : Nat := lpPeak w * (if hot then 70 else 80) / 100

/-- The Millpond capacity (R376). -/
abbrev mpCapacity : Nat := 245760000

/-- C_now of R382: 0 while LPDDR5X is UNAVAILABLE (R383). -/
def capacityNow (w : Weir) : Store → Nat
  | .lpddr => if w.store = .unavailable then 0 else lpCapacity w w.hot
  | .millpond => mpCapacity

/-- The capacity of rule 1 of R382. -/
def capacityHot (w : Weir) : Store → Nat
  | .lpddr => if w.store = .unavailable then 0 else lpCapacity w true
  | .millpond => mpCapacity

/-- avail of R386. -/
def avail (w : Weir) : Store → Nat
  | .lpddr => if w.store = .available then lpCapacity w w.hot else 0
  | .millpond => mpCapacity

/-- The demand of a flow on a store: an S stream of LPDDR5X also counts on Millpond while fault 0x6201 stands (R391). -/
def flowDemand (w : Weir) (st : Store) (f : Flow) : Nat :=
  if f.store = st then f.demand
  else if st = .millpond ∧ w.sFault ∧ f.cls = .s ∧ f.kind = 1 then f.demand
  else 0

/-- The fixed class S flows of the guardian and the witness (R381). -/
def fixedDemand (w : Weir) (st : Store) : Nat := if st = .millpond ∧ w.fixedFlows then 6200000 else 0

/-- The S demand on a store. -/
def sDemand (w : Weir) (st : Store) (fs : List Flow) : Nat :=
  fixedDemand w st + ((fs.filter fun f => f.cls = .s).map (flowDemand w st)).sum

/-- The P demand on a store. -/
def pDemand (w : Weir) (st : Store) (fs : List Flow) : Nat :=
  ((fs.filter fun f => f.cls = .p).map (flowDemand w st)).sum

/-- The LPDDR5X pool in 2 MiB units (R378, R395). -/
def poolUnits (w : Weir) : Nat := w.gib * 480

/-- The units in use. -/
def usedUnits (fs : List Flow) : Nat := (fs.map Flow.units).sum

/-- The error payload of R384: capacity, demand in the same unit. -/
def refusal (st : Store) (rule kind index capacity demand : Nat) : List Byte :=
  record [(1, if st = .lpddr then 0 else 1), (1, rule), (1, kind), (1, index), (4, capacity), (4, demand),
    (4, demand - capacity)]

/-- A flow replaced or added in the admitted set. -/
def putFlow (f : Flow) (fs : List Flow) : List Flow :=
  if fs.any fun g => g.kind = f.kind ∧ g.index = f.index then
    fs.map fun g => if g.kind = f.kind ∧ g.index = f.index then f else g
  else fs ++ [f]

/-- The admitted set with a change counted at the greater of its old and new demand, and in the more protected of its old and
new classes (R312, R382). -/
def withGreater (fs : List Flow) (f : Flow) : List Flow :=
  match fs.find? fun g => g.kind = f.kind ∧ g.index = f.index ∧ g.store = f.store with
  | some g => fs.map fun k => if k.kind = f.kind ∧ k.index = f.index ∧ k.store = f.store then
      { f with
        demand := max g.demand f.demand, units := max g.units f.units
        cls := if g.cls.weight < f.cls.weight then f.cls else g.cls }
      else k
  | none => f :: fs

/-- What commits in progress and the flows in force hold together (R312). -/
def heldFlows (w : Weir) : List Flow := (w.reserved.map Prod.snd).foldl withGreater w.flows

/-- The rules of R382 on one store, and the space of LPDDR5X: the refusal payload, if any. -/
def checkStore (w : Weir) (st : Store) (fs : List Flow) (kind index : Nat) : Option (List Byte) :=
  let sd := sDemand w st fs
  let pd := pDemand w st fs
  if sd > capacityHot w st then some (refusal st 0 kind index (mbps (capacityHot w st)) (mbps sd))
  else if sd + pd > capacityNow w st then some (refusal st 1 kind index (mbps (capacityNow w st)) (mbps (sd + pd)))
  else none

/-- The space rule of R383: MiB of free units before the change against the MiB that the change needs. -/
def checkSpace (w : Weir) (fs : List Flow) (kind index : Nat) : Option (List Byte) :=
  let pool := if w.store = .unavailable then 0 else poolUnits w
  if usedUnits fs > pool then
    let free := pool - usedUnits (heldFlows w)
    some (refusal .lpddr 2 kind index (2 * free) (2 * (free + (usedUnits fs - pool))))
  else none


/-- A changed flow asks for more than the flow in force: demand, space, another store, or a more protected class (R28, R382). -/
def flowGrows (w : Weir) (f : Flow) : Bool :=
  match w.flows.find? fun g => g.kind = f.kind ∧ g.index = f.index with
  | some g => decide (g.demand < f.demand) || decide (g.units < f.units) || g.store != f.store || decide (g.cls.weight < f.cls.weight)
  | none => true

/-- Admission of changed flows, in ascending kind and index (R382 to R384): the refusal payload, if any. -/
def admission (w : Weir) (changes : List Flow) : Option (List Byte) :=
  let fs := changes.foldl withGreater (heldFlows w)
  let grows := changes.find? (flowGrows w)
  match grows with
  | none => none
  | some g =>
    (checkStore w .lpddr fs g.kind g.index <|> checkStore w .millpond fs g.kind g.index <|>
      checkSpace w fs g.kind g.index)

/-- What a commit reserves for a flow until its switch: the flow as it will be, where it grows (R312). -/
def extraOf (w : Weir) (f : Flow) : Option Flow := if flowGrows w f then some f else none

/-- The shed order of R385. -/
def flowKey (w : Weir) (f : Flow) : Nat :=
  ((((if f.cls = .b then 1 else 0) * 16 + w.band[f.owner]) * 64 + (if f.cls = .b then 32 else f.rank)) * 4 +
    f.kind) * 64 + f.index

/-- The P and B frame flows of a store, most protected first. -/
def shedOrder (w : Weir) (st : Store) : List Flow :=
  (w.flows.filter fun f => f.cls ≠ .s ∧ f.store = st).mergeSort fun a b => flowKey w a ≤ flowKey w b

/-- The flows that R386 would have serving: kind and index. -/
def covered (avail : Nat) : Nat → List Flow → List (Nat × Nat)
  | _, [] => []
  | load, f :: rest =>
    if load + f.demand ≤ avail then (f.kind, f.index) :: covered avail (load + f.demand) rest else []

/-- The new marks of one flow: shedding at once, serving only after 100 ms of cover (R386, R387). -/
def markFlow (at_ : Nat) (c : List (Nat × Nat)) (f : Flow) : Flow :=
  if f.cls = .s then f
  else if c.contains (f.kind, f.index) then
    if f.serving then { f with coverFrom := none } else { f with coverFrom := some (f.coverFrom.getD at_) }
  else { f with serving := false, coverFrom := none }

/-- Fault 0x6201 rises, or its cover begins (R391). -/
def judgeSFault (s : State) : State :=
  let d := sDemand s.weir .lpddr s.weir.flows
  if avail s.weir .lpddr < d then
    if s.weir.sFault then s.modWeir fun w => { w with sCoverFrom := none }
    else post 0x6201 wide wide (s.modWeir fun w => { w with sFault := true, sCoverFrom := none })
  else if s.weir.sFault ∧ s.weir.sCoverFrom = none then s.modWeir fun w => { w with sCoverFrom := some s.elapsed }
  else s

/-- Weir recomputes its marks after a change (R386, R387, R391). -/
def recompute (s : State) : State :=
  let s := judgeSFault s
  let w := s.weir
  let c (st : Store) := covered (avail w st) (sDemand w st w.flows) (shedOrder w st)
  let marks := c .lpddr ++ c .millpond
  let stopped := w.flows.filter fun f => f.serving && !(markFlow s.elapsed marks f).serving
  let s := s.modWeir fun w => { w with flows := w.flows.map (markFlow s.elapsed marks) }
  stopped.foldl (fun s f => post 0x6003 f.owner f.index s) s

/-- The first place in the LPDDR5X pool where `n` units fit beside the other flows (log entry 18). -/
def lpPlace (fs : List Flow) (n : Nat) : Nat :=
  let lp := fs.filter fun f => f.units != 0
  let fits := (0 :: lp.map fun f => f.base + f.units).filter fun u =>
    lp.all fun f => decide (u + n ≤ f.base) || decide (f.base + f.units ≤ u)
  (fits.min?).getD 0

/-- A flow with its place in the pool: its old one where its size has not changed. -/
def placed (w : Weir) (f : Flow) : Flow :=
  match w.flows.find? fun g => g.kind = f.kind ∧ g.index = f.index ∧ g.units = f.units with
  | some g => { f with base := g.base }
  | none => { f with base := lpPlace (w.flows.filter fun g => ¬ (g.kind = f.kind ∧ g.index = f.index)) f.units }

/-- An admitted flow joins or changes the set (R383, R386). -/
def setFlow (f : Flow) (s : State) : State :=
  recompute (s.modWeir fun w => { w with flows := putFlow (placed w f) w.flows })

/-- A flow ends (R383). -/
def endFlow (kind index : Nat) (s : State) : State :=
  recompute (s.modWeir fun w => { w with flows := w.flows.filter fun f => ¬ (f.kind = kind ∧ f.index = index) })

/-- The mark of a flow: a flow outside the set, or of class S, serves. -/
def serving (s : State) (kind index : Nat) : Bool :=
  match s.weir.flows.find? fun f => f.kind = kind ∧ f.index = index with
  | some f => f.cls == .s || f.serving
  | none => true

/-- A frame of a function's flow is shed (R388). -/
def countShed (fn : Fn) (s : State) : State := s.modWeir fun w => { w with shed := vmod w.shed fn (· + 1) }

/-- The 4 KiB units of the dynamic pool (R393, R394). -/
def dynUnits (w : Weir) : Nat := 3584 - w.grantKib / 4

/-- The first of `n` consecutive free units of the dynamic pool, searching from unit `u` for at most `fuel` units. -/
def dynFirst (w : Weir) (n : Nat) : Nat → Nat → Option Nat
  | 0, _ => none
  | fuel + 1, u =>
    if u + n > dynUnits w then none
    else if w.dyn.all fun a => u + n ≤ a.first ∨ a.first + a.units ≤ u then some u
    else dynFirst w n fuel (u + 1)

/-- Allocate `kib` KiB of the dynamic pool (R394). -/
def dynAlloc (kind index kib : Nat) (w : Weir) : Option Weir :=
  let n := (kib + 3) / 4
  (dynFirst w n (dynUnits w + 1) 0).map fun u => { w with dyn := w.dyn ++ [⟨kind, index, u, n⟩] }

/-- Free an allocation of the dynamic pool. -/
def dynFree (kind index : Nat) (w : Weir) : Weir :=
  { w with dyn := w.dyn.filter fun a => ¬ (a.kind = kind ∧ a.index = index) }

/-- The Millpond address of an allocation of the dynamic pool. -/
def dynAddr (w : Weir) (kind index : Nat) : Nat :=
  match w.dyn.find? fun a => a.kind = kind ∧ a.index = index with
  | some a => grantBase + w.grantKib * 1024 + 4096 * a.first
  | none => grantBase + w.grantKib * 1024

/-- The KiB of the dynamic pool that are free. -/
def dynFreeKib (w : Weir) : Nat := 4 * (dynUnits w - (w.dyn.map DynAlloc.units).sum)

/-- An error corrected in a read of a store (R397, R399). -/
def correctedRead (st : Store) (s : State) : State :=
  match st with
  | .lpddr => post 0x6101 wide wide (s.modWeir fun w => { w with ce := if w.ce = 0xFFFFFFFF then w.ce else w.ce + 1 })
  | .millpond => post 0x6105 wide wide (s.modWeir fun w => { w with mpCorrectable := min (w.mpCorrectable + 1) 255 })

/-- Errors corrected in the reads of a store. -/
def correctedReads (st : Store) : Nat → State → State
  | 0, s => s
  | n + 1, s => correctedReads st n (correctedRead st s)

/-- An uncorrectable read of Millpond (R399). -/
def millUncorrectable (s : State) : State :=
  s.modWeir fun w => { w with mpUncorrectable := min (w.mpUncorrectable + 1) 255 }

/-- An uncorrectable read of LPDDR5X (R397): counted, its address latched, its time kept for R390. -/
def uncorrectable (addr code unit : Nat) (s : State) : State :=
  post code wide unit (s.modWeir fun w => { w with
    ue := if w.ue = 0xFFFFFFFF then w.ue else w.ue + 1
    ueAddr := BitVec.ofNat 64 addr
    ueTimes := (s.elapsed :: w.ueTimes).take 16 })

/-- The errors of a command's reads from an address of a store, none for host memory (R397, R399). -/
def readErrors (st : Option Store) (addr unit : Nat) (e : MemErrors) (s : State) : State :=
  match st with
  | none => s
  | some st =>
    let s := correctedReads st e.corrected s
    match e.uncorrectable, st with
    | none, _ => s
    | some o, .lpddr => uncorrectable ((addr + o) / 32 * 32) 0x6102 unit s
    | some _, .millpond => millUncorrectable s

end Sys2Proof.Machine
end

