-- ==== Sys2Proof/Machine/TagOps.lean ====
section
/-! DEFINITION. Lines, payloads, embedded fields, the reference instant and the 64-byte tag (R211, R224 to R229, R298 to
R305, R314). -/

namespace Sys2Proof.Machine

/-- Change one stream, one port, one hopper. -/
def State.modStream (s : State) (n : Fin 32) (g : Stream → Stream) : State := { s with streams := vmod s.streams n g }
def State.modPort (s : State) (p : Fin 8) (g : Port → Port) : State := { s with ports := vmod s.ports p g }
def State.modHop (s : State) (h : Fin 16) (g : Hop → Hop) : State := { s with hoppers := vmod s.hoppers h g }
def State.modEpochs (s : State) (f : Fn) (g : Epochs → Epochs) : State := { s with epochs := vmod s.epochs f g }

/-- The port and slot of a stream (R209). -/
def portOf (n : Fin 32) : Fin 8 := ⟨n.val / 4, by omega⟩
def slotOf (n : Fin 32) : Fin 4 := ⟨n.val % 4, by omega⟩
/-- The stream of a port's slot (R209). -/
def streamOf (p : Fin 8) (k : Fin 4) : Fin 32 := ⟨4 * p.val + k.val, by omega⟩

/-- Bits per pixel as received; 8 per byte for user-defined types (R211). -/
def bitsPerPixel (dataType : Nat) : Nat :=
  ([(0x2A, 8), (0x2B, 10), (0x2C, 12), (0x2D, 14), (0x2E, 16), (0x1E, 16), (0x24, 24)].lookup dataType).getD 8

/-- The data types a context can be opened with (R211). -/
def dataTypeOk (dataType : Nat) : Bool :=
  [0x2A, 0x2B, 0x2C, 0x2D, 0x2E, 0x1E, 0x24].contains dataType || (decide (0x30 ≤ dataType) && decide (dataType ≤ 0x37))

/-- RAW10 to RAW16, which UNPACKED16 applies to (R225). -/
def unpackable (dataType : Nat) : Bool := decide (0x2B ≤ dataType) && decide (dataType ≤ 0x2E)

/-- The bytes of a pixel line as received. -/
def lineBytes (c : StreamCfg) : Nat := (c.width * bitsPerPixel c.dataType + 7) / 8

/-- The bytes of a pixel line as delivered (R225). -/
def outBytes (c : StreamCfg) : Nat := if c.packing = 1 then 2 * c.width else lineBytes c

/-- Embedded lines that the slot holds (R224). -/
def embeddedOut (c : StreamCfg) : Nat := if bit c.route 2 then c.embedded else 0

/-- The bytes of a frame in its slot (R224). -/
def frameBytes (c : StreamCfg) : Nat := (embeddedOut c + c.height) * c.pitch

/-- The pixels of a packed line: RAW10, RAW12 and RAW14 carry the high 8 bits of a group's pixels first and their low bits
after them; RAW16 is low byte first (log entry 14). -/
def unpackLine (dataType : Nat) (line : List Byte) (width : Nat) : List Nat :=
  let b (i : Nat) : Nat := (line.getD i 0).toNat
  (List.range width).map fun i =>
    if dataType = 0x2B then 4 * b (5 * (i / 4) + i % 4) + b (5 * (i / 4) + 4) / 4 ^ (i % 4) % 4
    else if dataType = 0x2C then 16 * b (3 * (i / 2) + i % 2) + b (3 * (i / 2) + 2) / 16 ^ (i % 2) % 16
    else if dataType = 0x2D then
      let low := b (7 * (i / 4) + 4) + 256 * b (7 * (i / 4) + 5) + 65536 * b (7 * (i / 4) + 6)
      64 * b (7 * (i / 4) + i % 4) + low / 64 ^ (i % 4) % 64
    else b (2 * i) + 256 * b (2 * i + 1)

/-- A pixel line as delivered, at line_pitch (R224, R225, R300). -/
def formatLine (c : StreamCfg) (line : List Byte) : List Byte :=
  let bytes := if c.packing = 1 then (unpackLine c.dataType line c.width).flatMap (leBytes 2) else line
  padTo c.pitch (bytes.take c.pitch)

/-- The lines of a slot, each at line_pitch: embedded lines first, when delivered (R224). `embedded` and `lines` are
oldest first. -/
def slotLines (c : StreamCfg) (embedded lines : List (List Byte)) : List (List Byte) :=
  (if bit c.route 2 then embedded.map fun l => padTo c.pitch (l.take c.pitch) else []) ++ lines.map (formatLine c)

/-- The lines of a frame in its slot layout. -/
def frameLines (f : Frame) : List (List Byte) := slotLines f.cfg f.embedded.reverse f.lines.reverse

/-- The value of an embedded field in the lines received (R229): none when it is missing. -/
def embValue (m : EmbField) (lines : List (List Byte)) : Option Nat :=
  match lines[m.line]? with
  | none => none
  | some l =>
    let n := (m.bits + 7) / 8
    if m.byte + (n - 1) * m.stride < l.length then
      some ((List.range n).foldl (fun v i => 256 * v + (l.getD (m.byte + i * m.stride) 0).toNat) 0 % 2 ^ m.bits)
    else none

/-- A time field in ns: scaled and truncated, or the constant. -/
def embTime (m : EmbField) (lines : List (List Byte)) : Option Int :=
  match m.constant with
  | some c => some c
  | none => (embValue m lines).map fun v => ((v * m.scale / 65536 : Nat) : Int)

/-- The entry of a table for a field number, and its time. -/
def fieldTime (map : List EmbField) (field : Nat) (lines : List (List Byte)) : Option Int :=
  (map.find? fun m => m.field = field).bind fun m => embTime m lines

/-- Position and velocity at an instant between, or outside, two snapshots a ≤ b (R228). -/
def interpolate (s : State) (ch : Fin 4) (a b : Snap) (t : Int) : Int × Int :=
  let ta := timeOf s a.at_
  let tb := timeOf s b.at_
  let pa := snapPos s ch a
  let pb := snapPos s ch b
  let outside (n : Snap) (tn p : Int) : Int × Int :=
    (wrapS 60 (p + ratRound ((n.vel * (t - tn) * 16 : Int) / (unitsPerSecond : Rat))), n.vel)
  if t < ta then outside a ta pa
  else if tb < t then outside b tb pb
  else if tb = ta then (pb, b.vel)
  else
    let near := if 2 * (t - ta) < tb - ta then a else if tb - ta < 2 * (t - ta) then b
      else if Config.tieUp t then b else a
    (wrapS 60 (pa + ratRound (((pb - pa) * (t - ta) : Int) / ((tb - ta : Int) : Rat))), near.vel)

/-- The reference instant of a frame (R228). -/
def referenceInstant (s : State) (f : Frame) (map : List EmbField) : Int :=
  let fs := timeOf s f.sof
  let trig := match f.trigger with
    | some e => timeOf s e.at_
    | none => fs
  if f.cfg.instant = 0 then fs
  else if f.cfg.instant = 1 then trig
  else
    let lines := f.embedded.reverse
    match fieldTime map 1 lines, fieldTime map 2 lines with
    | some e, some o => fs - 256 * o - 256 * (e / 2)
    | _, _ => trig

/-- The position and velocity of a frame's tag (R228). -/
def framePosition (s : State) (f : Frame) (map : List EmbField) : Int × Int :=
  match fin? 4 f.cfg.pos, f.snapSof with
  | some ch, some b => interpolate s ch (f.snapTrig.getD b) b (referenceInstant s f map)
  | _, _ => (0, 0)

/-- A moment of a stream lies in the TRANSITION span of an epoch (R314). -/
def inTransition (s : State) (n : Fin 32) (h : Held) : Bool :=
  let t := timeOf s h
  (allFin 16).any fun f =>
    let e := s.epochs[f]
    (match e.commit with
      | some c => c.streams.contains n && (match c.first with
          | some a => decide (timeOf s a < t)
          | none => false)
      | none => false) ||
    (match e.lastSpan with
      | some (a, b) => e.lastStreams.contains n && decide (timeOf s a < t) && decide (t ≤ timeOf s b)
      | none => false)

/-- Tag flags of R301. -/
abbrev tCorrupt : Nat := 0x001
abbrev tTruncated : Nat := 0x002
abbrev tTransition : Nat := 0x004
abbrev tLate : Nat := 0x008
abbrev tInferred : Nat := 0x010
abbrev tShed : Nat := 0x020
abbrev tGap : Nat := 0x040
abbrev tPartner : Nat := 0x080
abbrev tStepped : Nat := 0x100
abbrev tPre : Nat := 0x200
abbrev tPost : Nat := 0x400
abbrev tOverflow : Nat := 0x800

/-- A flag when a condition holds. -/
def flag (b : Bool) (f : Nat) : Nat := if b then f else 0

/-- The tag of a frame as it was received (R298, R300, R301), before shedding, GAP and TIME_STEPPED. -/
def formTag (s : State) (n : Fin 32) (f : Frame) (eof : Held) : Tag :=
  let pv := framePosition s f (s.streams[n]).embMap
  { stream := n, fn := f.fn, vc := (s.ports[portOf n]).cfg.vcMap[slotOf n], seq := f.seq
    trigger := f.trigger.map Edge.at_, sof := f.sof, sofFraction := true, eof := eof, lines := f.lines.length
    flags := flag (f.corrupt != 0) tCorrupt ||| flag (decide (f.lines.length < f.cfg.height)) tTruncated |||
      flag f.transition tTransition ||| flag ((f.trigger.map Edge.late).getD false) tLate |||
      flag ((f.trigger.map Edge.inferred).getD false || f.inferred) tInferred ||| flag f.partner tPartner |||
      flag f.overflowed tOverflow
    pos := pv.1, vel := pv.2, epoch := f.epoch, crc := crc32c (frameLines f).flatten }

/-- A frame's lines in a slot: whole lines only, where an epoch has made its frames larger than the slot (log entry 56). The tag and
its CRC follow the lines written (R298, R300). -/
def fitSlot (r : Ring) (c : StreamCfg) (t : Tag) (lines : List (List Byte)) : Tag × List (List Byte) :=
  let kept := lines.take (r.slotBytes / c.pitch)
  if kept.length = lines.length then (t, lines)
  else ({ t with
    lines := kept.length - (lines.length - t.lines), flags := t.flags ||| tTruncated, crc := crc32c kept.flatten }, kept)

/-- The shed tag of a frame (R305): no lines, and the flags that describe lines do not apply. -/
def Tag.asShed (t : Tag) : Tag :=
  { t with
    lines := 0, crc := 0
    flags := (t.flags &&& (tTransition ||| tLate ||| tInferred ||| tPartner)) ||| tShed ||| tGap }

/-- The interval tag of a gap that ends at `eof` (R304). -/
def intervalTag (s : State) (n : Fin 32) (seq : Word) (g : Gap) (eof : Held) : Tag :=
  let st := s.streams[n]
  let snap := snapOf s st.cfg.pos eof
  { stream := n, fn := st.fn, vc := (s.ports[portOf n]).cfg.vcMap[slotOf n], seq := seq
    trigger := none, sof := g.from_, sofFraction := false, eof := eof, lines := 0
    flags := tGap ||| flag g.loss tPartner ||| flag (inTransition s n eof) tTransition
    pos := match fin? 4 st.cfg.pos, snap with
      | some ch, some x => snapPos s ch x
      | _, _ => 0
    vel := (snap.map Snap.vel).getD 0
    epoch := st.epoch
    crc := if (s.ports[portOf n]).cfg.syncMode = 0 then 0 else g.edges.toNat }

/-- A time step came after one of the tag's stamps was taken (R122). -/
def Tag.stepped (s : State) (t : Tag) : Bool :=
  (release s t.sof).2 || (release s t.eof).2 || (match t.trigger with
    | some h => (release s h).2
    | none => false)

/-- The 64 bytes of a tag (R298, R299). -/
def tagBytes (s : State) (t : Tag) (flags event meas : Nat) : List Byte :=
  let trig := match t.trigger with
    | some h => (release s h).1
    | none => 0
  let sof := (release s t.sof).1
  record [(1, t.stream), (1, t.fn), (1, t.stream / 4), (1, t.vc), (4, t.seq.toNat), (8, stampNs trig), (8, stampNs sof),
    (8, stampNs (release s t.eof).1), (1, stampFrac trig), (1, if t.sofFraction then stampFrac sof else 0),
    (2, t.lines), (4, flags ||| flag (t.stepped s) tStepped), (8, sval 8 t.pos), (4, sval 4 t.vel),
    (4, t.epoch.toNat), (4, t.crc), (2, event), (1, meas), (1, 1)]

/-- The kB/s of `n` bytes per frame at a rate in hundredths of Hz, rounded up (R381). -/
def kbps (bytes maxFps : Nat) : Nat := (bytes * maxFps + 99999) / 100000

/-- Units of 2 MiB (R319). -/
def units2M (bytes : Nat) : Nat := (bytes + 0x1FFFFF) / 0x200000

/-- A write of a record into host memory or Millpond: never with Relaxed Ordering (R36, R44). -/
def deliver (fn : Fn) (mill : Bool) (addr : Nat) (bytes : List Byte) (s : State) : State :=
  if mill then millWrite addr bytes s else hostSend fn addr bytes false s

/-- A write of frame payload or pyramid output, which may carry Relaxed Ordering (R36). -/
def deliverData (fn : Fn) (mill : Bool) (addr : Nat) (bytes : List Byte) (s : State) : State :=
  if mill then millWrite addr bytes s else hostSend fn addr bytes true s

end Sys2Proof.Machine
end

