-- ==== Sys2Proof/Machine/ChanOps.lean ====
section
/-! DEFINITION. Millrace channels: address windows, wait slots, arrival, entries, halts and the ends of runs (R403 to
R434). -/

namespace Sys2Proof.Machine

/-- Change one channel. -/
def State.modChan (s : State) (c : Fin 64) (g : Chan → Chan) : State := { s with chans := vmod s.chans c g }

/-- The owner of a channel. -/
def chanFn (s : State) (c : Fin 64) : Fn := s.plan.channels[c]

/-- A channel executes a run, or is halted in one (R403). -/
def Chan.inUse (c : Chan) : Bool :=
  match c.mode with
  | .running | .waiting | .stopping | .halted => true
  | _ => false

/-- LPDDR5X bytes at an offset of the pool. -/
def lpRead (s : State) (addr n : Nat) : List Byte := Memory.readList s.lpddr addr n
def lpWrite (addr : Nat) (bytes : List Byte) (s : State) : State :=
  { s with lpddr := Memory.writeList s.lpddr addr bytes }

/-- A range lies inside the windows of R404 for a function: in LPDDR5X, each of its 2 MiB units. -/
def inWindow (s : State) (fn : Fn) (space addr n : Nat) : Bool :=
  if space = 0 then true
  else if space = 1 then fn == 0 && inGrant s addr n
  else (List.range ((addr + n - 1) / 0x200000 + 1 - addr / 0x200000)).all fun i => s.weir.flows.any fun f =>
    (f.kind == 2 || f.kind == 3) && f.owner == fn && f.store == .lpddr &&
      decide (f.base ≤ addr / 0x200000 + i) && decide (addr / 0x200000 + i < f.base + f.units)

/-! ### Wait slots -/

/-- The source of a slot is off (R421). -/
def slotOff (s : State) (w : WaitSlot) : Bool :=
  match w.kind with
  | 0 => true
  | 2 => (match fin? 64 w.index with
    | some m => (s.chans[m]).mode == .idle || !(s.chans[m]).enabled
    | none => true)
  | 3 => (match fin? 32 w.index with
    | some n => (s.streams[n]).mode != .opened || (s.ports[portOf n]).mode == .off
    | none => true)
  | 4 => (match fin? 16 w.index with
    | some n => (s.cmps[n]).mode == .idle || (s.cmps[n]).mode == .done
    | none => true)
  | 5 => (match fin? 16 w.index with
    | some h => (s.hoppers[h]).mode == .unbound || (s.hoppers[h]).mode == .bound
    | none => true)
  | 7 => !(s.prep.bindings.any fun b => b.stream.val == w.index)
  | _ => false

/-- Add to a slot of a channel, saturating (R421). -/
def slotAdd (c : Fin 64) (k : Fin 8) (n : Nat) (s : State) : State :=
  let w := (s.chans[c]).slots[k]
  if w.count + n ≤ 65535 then s.modChan c fun x => { x with slots := x.slots.set k { w with count := w.count + n } }
  else post 0x510E (chanFn s c) c (s.modChan c fun x => { x with
    slots := x.slots.set k { w with count := 65535 }, slotDropped := true })

/-- One increment of a source, into every slot that it feeds (R421). -/
def slotBump (kind index : Nat) (s : State) : State :=
  (allFin 64).foldl (fun s c => (allFin 8).foldl (fun s k =>
    let w := (s.chans[c]).slots[k]
    if w.kind = kind ∧ w.index = index then slotAdd c k 1 s else s) s) s

/-! ### Entries -/

/-- The bytes-or-count field of a byte count, saturating (R425). -/
def satWord (n : Nat) : Word := BitVec.ofNat 32 (min n 0xFFFFFFFF)

/-- Write a SIGNAL or halt entry at once (R425). -/
def chanEntry (c : Fin 64) (status flags : Nat) (count : Word) (s : State) : State :=
  let x := s.chans[c]
  if x.borrowed then s
  else match fin? 32 x.queue with
    | some q => putEntry q ⟨kMillrace, c, x.runId, status, flags, count⟩ s
    | none => s

/-- The final entry of a run takes the place of its job key (R103, R425). -/
def finalEntry (c : Fin 64) (key runId : Word) (status flags : Nat) (count : Word) (s : State) : State :=
  match fin? 32 (s.chans[c]).queue with
  | none => s
  | some q =>
    let e : TqEntry := ⟨kMillrace, c, runId, status, flags, count⟩
    if (s.queues[q]).anyOrder then
      putEntry q e (s.modQueue q fun Q => { Q with jobs := dropJob kMillrace c key Q.jobs })
    else flushJobs q (markJob kMillrace c key e (s.queues[q]).jobs) s

/-! ### Sluice -/

/-- What a bucket of a share holds some ticks later, without its bound: share × 125 bytes per µs, in eighths of a byte (R426). -/
def bucketAfter (share level ticks : Nat) : Nat := level + 5 * share * ticks

/-- An instruction begins: the buckets have filled to at most 512 bytes (R426). -/
def Chan.fill (x : Chan) (at_ : Nat) : Chan :=
  { x with
    readBucket := min 4096 (bucketAfter x.share x.readBucket (at_ - x.bucketAt))
    writeBucket := min 4096 (bucketAfter x.share x.writeBucket (at_ - x.bucketAt)), bucketAt := at_ }

/-- Sluice lets the last burst of an instruction's reads and writes issue by now (R426): a share of 256 has no buckets. -/
def sluicePermits (x : Chan) (at_ reads writes : Nat) : Bool :=
  x.share == 256 || (decide (8 * reads ≤ bucketAfter x.share x.readBucket (at_ - x.bucketAt)) &&
    decide (8 * writes ≤ bucketAfter x.share x.writeBucket (at_ - x.bucketAt)))

/-- The buckets after an instruction's bursts. -/
def Chan.spend (x : Chan) (at_ reads writes : Nat) : Chan :=
  if x.share = 256 then x
  else { x with
    readBucket := min 4096 (bucketAfter x.share x.readBucket (at_ - x.bucketAt) - 8 * reads)
    writeBucket := min 4096 (bucketAfter x.share x.writeBucket (at_ - x.bucketAt) - 8 * writes), bucketAt := at_ }

/-! ### Runs -/

/-- A run starts from an entry point (R407). -/
def startRun (c : Fin 64) (entry : Nat) (key : Word) (s : State) : State :=
  s.modChan c fun x => { x.fill s.elapsed with
    mode := .running, pc := entry, runKey := key, runId := 0, crc := none, loops := [], bytes := 0, entryBytes := 0
    lastHost := none, arrival := none, wait := none, keptStatus := stOk, stopAfter := false }

/-- The executing run ends with its final entry, and the next queued run starts (R403, R407, R425). -/
def endRunNow (c : Fin 64) (status : Nat) (s : State) : State :=
  let x := s.chans[c]
  let s := finalEntry c x.runKey x.runId status fLast (satWord x.bytes) s
  let s := s.modChan c fun x => { x with
    mode := .loaded, runs := x.runs + 1, arrival := none, wait := none, stopAfter := false, loops := [] }
  match (s.chans[c]).queued with
  | (e, k) :: rest => startRun c e k (s.modChan c fun x => { x with queued := rest })
  | [] => s

/-- Halt a channel (R430): cause, status, direction, space and failing address. `logged` is false only for an entry that
Bus Master Enable discards (R431). -/
def haltChan (c : Fin 64) (cause status : Nat) (write : Bool) (space addr : Nat) (s : State) : State :=
  let count := satWord (s.chans[c]).bytes
  let s := s.modChan c fun x => { x with
    mode := .halted, haltCause := cause, haltStatus := status, haltWrite := write, haltSpace := space
    haltAddr := addr, arrival := none, wait := none, entryBytes := 0 }
  post (0x5100 + cause) (chanFn s c) c (chanEntry c status 0 count s)

/-- The entry status of a cause (R430). -/
def haltStatusOf (cause : Nat) : Nat := if cause ≤ 6 then stBusError else stAborted

/-- Go to the next instruction. -/
def chanNext (c : Fin 64) (s : State) : State :=
  s.modChan c fun x => { x.fill s.elapsed with pc := x.pc + 1, mode := .running, wait := none, arrival := none }

/-- A failed WAIT (R422). -/
def failWait (c : Fin 64) (goOn : Bool) (status : Nat) (s : State) : State :=
  if goOn then
    let s := s.modChan c fun x => { x with
      waitFailed := true, keptStatus := if x.keptStatus = stOk then status else x.keptStatus }
    chanNext c (post 0x510A (chanFn s c) c s)
  else haltChan c 9 status false 0 0 s

/-- The WAITs whose source has gone off fail (R422). -/
def sweepWaits (s : State) : State :=
  (allFin 64).foldl (fun s c =>
    let x := s.chans[c]
    match x.mode, x.wait with
    | .waiting, some w =>
      (match fin? 8 w.slot with
        | some k => if slotOff s x.slots[k] ∧ (x.slots[k]).count < w.count then failWait c w.goOn stUnitOff s else s
        | none => s)
    | _, _ => s) s

/-- The waits on a source that a fault has reset fail (R422). -/
def resetWaits (kind : Nat) (s : State) : State :=
  (allFin 64).foldl (fun s c =>
    let x := s.chans[c]
    match x.mode, x.wait with
    | .waiting, some w =>
      (match fin? 8 w.slot with
        | some k => if (x.slots[k]).kind = kind ∧ (x.slots[k]).count < w.count then failWait c w.goOn stUnitReset s else s
        | none => s)
    | _, _ => s) s

/-- Cancel every queued run (R427 to R429): how many, and the state after. -/
def flushRuns (c : Fin 64) (s : State) : Nat × State :=
  let l := (s.chans[c]).queued
  let s := s.modChan c fun x => { x with queued := [] }
  (l.length, l.foldl (fun s r =>
    finalEntry c r.2 0 stCancelled (fNeverStarted ||| fLast) 0 (s.modChan c fun x => { x with runs := x.runs + 1 })) s)

/-- The 16 bytes of the instruction at the present index: a Millpond buffer is read as it stands (R406). -/
def chanInstr (s : State) (c : Fin 64) : List Byte :=
  let x := s.chans[c]
  if x.progMill then millRead s (x.progAddr + 16 * x.pc) 16 else slice x.programme (16 * x.pc) 16

/-- The instruction in progress moves data (R403, R427). -/
def dataInstr (s : State) (c : Fin 64) : Bool := fld (chanInstr s c) 0 1 == 1 || fld (chanInstr s c) 0 1 == 2

/-- The run ends after arrival (R424, R427): a host write outstanding is read back first. -/
def stopRun (c : Fin 64) (s : State) : State :=
  if (s.chans[c]).lastHost.isSome then
    s.modChan c fun x => { x with mode := .stopping, arrival := some .stop, wait := none }
  else endRunNow c stAborted s

/-- A stop request (R427, R428). -/
def stopChan (c : Fin 64) (s : State) : State :=
  let x := s.chans[c]
  match x.mode with
  | .running =>
    (match x.arrival with
      | some .endRun => s
      | some _ => s.modChan c fun x => { x with stopAfter := true }
      | none => if dataInstr s c then s.modChan c fun x => { x with mode := .stopping } else stopRun c s)
  | .waiting => stopRun c s
  | .halted => if x.copyHalt then s.modChan c fun x => { x with mode := .idle, copyHalt := false } else stopRun c s
  | _ => s

/-- A channel's state after FLR and at every start (R432, R434). -/
def freeChan (c : Fin 64) (s : State) : State := { s with chans := s.chans.set c Chan.reset }

/-- A function can borrow a channel (R332, R433). -/
def chanFree (s : State) (fn : Fn) (c : Fin 64) : Bool :=
  chanFn s c == fn && (s.chans[c]).mode == .idle && !(s.chans[c]).borrowed

/-- Borrow a channel, and return it (R433). -/
def borrow (c : Fin 64) (s : State) : State :=
  s.modChan c fun x => { x.fill s.elapsed with mode := .running, borrowed := true }
def unborrow (c : Fin 64) (s : State) : State := s.modChan c fun x => { x with mode := .idle, borrowed := false }

/-- A borrowed copy halts (R433): the channel stays HALTED with its registers latched. -/
def haltBorrow (c : Fin 64) (cause : Nat) (write : Bool) (space addr : Nat) (s : State) : State :=
  let s := s.modChan c fun x => { x with
    mode := .halted, borrowed := false, copyHalt := true, haltCause := cause, haltStatus := stBusError
    haltWrite := write, haltSpace := space, haltAddr := addr }
  post (0x5100 + cause) (chanFn s c) c s

end Sys2Proof.Machine
end

