-- ==== Sys2Proof/Machine/HopOps.lean ====
section
/-! DEFINITION. Hopper rings: entries, triggers, overflow, capture end and copy-out (R318 to R341). -/

namespace Sys2Proof.Machine

/-- Write an entry of a hopper (R335). -/
def hopEntry (i : Fin 16) (status flags count : Nat) (s : State) : State :=
  let h := s.hoppers[i]
  match fin? 32 h.queue with
  | some q => putEntry q ⟨kHopper, i, BitVec.ofNat 32 h.event, status, flags, BitVec.ofNat 32 count⟩ s
  | none => s

/-- An entry is a pre entry of the capture (R327). -/
def isPre (s : State) (h : Hop) (e : HopEntry) : Bool :=
  h.mode != .triggered && h.mode != .captured && h.mode != .stopped || h.code == 0xFF ||
    decide (timeOf s e.mark ≤ timeOf s h.stamp)

/-- The pre and post entries held. -/
def preHeld (s : State) (h : Hop) : Nat := (h.entries.filter (isPre s h)).length
def postHeld (s : State) (h : Hop) : Nat := h.entries.length - preHeld s h

/-- The hoppers that take a stream's frames (R321). -/
def hoppersOf (s : State) (n : Fin 32) : List (Fin 16) :=
  (allFin 16).filter fun i => (s.hoppers[i]).stream == some n

/-- The capture ends (R328, R329, R338): `status` and its flags. -/
def captureEnd (i : Fin 16) (mode : HopMode) (status flags : Nat) (s : State) : State :=
  let s := s.modHop i fun h => { h with
    mode := mode, partialSeq := none, endAt := some (hold s (now s))
    overflow := h.overflow || status == stOverflow, aborted := status == stAborted }
  hopEntry i status flags (s.hoppers[i]).entries.length s

/-- The capture ends when its last entry is complete (R328). -/
def judgeEnd (i : Fin 16) (s : State) : State :=
  let h := s.hoppers[i]
  if h.mode = .triggered ∧ h.partialSeq = none ∧ h.postCount ≤ postHeld s h then
    captureEnd i .captured stOk fLast s
  else s

/-- Both overflows stop the capture; an ARMED ring's entries all count as pre entries (R329). -/
def hopOverflow (code : Nat) (i : Fin 16) (s : State) : State :=
  let h := s.hoppers[i]
  if h.mode = .armed ∨ h.mode = .triggered then
    let s := post code s.plan.hoppers[i] i s
    let s := if h.mode = .armed then s.modHop i fun h => { h with code := 0xFF, event := 0 } else s
    captureEnd i .stopped stOverflow (fOverflow ||| fLast) s
  else s

/-- Every slot of the ring holds an entry that is not yet copied out (R329). -/
def ringFull (h : Hop) : Bool := decide (h.slots ≤ h.entries.length - h.gone)

/-- The oldest pre entries beyond pre_depth leave the capture (R327). -/
def trimPre (depth pre : Nat) (l : List HopEntry) : List HopEntry := l.drop (pre - depth)

/-- A complete entry enters the ring (R327, R328). -/
def hopPush (i : Fin 16) (e : HopEntry) (s : State) : State :=
  let h := s.hoppers[i]
  match h.mode with
  | .armed =>
    s.modHop i fun h => { h with
      entries := (h.entries ++ [e]).drop (h.entries.length + 1 - (h.slots - 1))
      partialSeq := none, prevSeq := some e.tag.seq, guardOwed := false }
  | .triggered =>
    let before := h.entries.takeWhile (isPre s h)
    let after := h.entries.dropWhile (isPre s h)
    let l := if isPre s h e then trimPre h.preDepth (before.length + 1) (before ++ [e]) ++ after else h.entries ++ [e]
    judgeEnd i (s.modHop i fun h => { h with
      entries := l, partialSeq := none, prevSeq := some e.tag.seq, guardOwed := false })
  | _ => s

/-- The tag flags with which an entry of a sequence enters a ring (R330): the first entry has GAP clear. -/
def ringFlags (h : Hop) (t : Tag) : Nat :=
  match h.prevSeq with
  | some q =>
    let gap := t.seq != q + 1
    t.flags ||| flag gap tGap ||| flag (gap && h.guardOwed) tPartner
  | none => t.flags - (t.flags &&& tGap)

/-- The frame that is being written is a pre entry (R327). -/
def prePartial (s : State) (h : Hop) : Bool :=
  match h.stream with
  | some n => h.partialSeq.isSome && ((s.streams[n]).frame.map fun f => decide (timeOf s f.sof ≤ timeOf s h.stamp)).getD false
  | none => false

/-- The entries of a capture, those still to come included (R332, R333). -/
def captureTotal (s : State) (h : Hop) : Nat :=
  preHeld s h + (if h.mode = .triggered then b2n (prePartial s h) + h.postCount else postHeld s h)

/-- Copy-out progress (R332, R333): entries up to `k` of the copy are written, with the half entry when it is due. -/
def copyEntry (i : Fin 16) (s : State) : State :=
  let h := s.hoppers[i]
  match h.copy with
  | none => s
  | some c =>
    match h.entries[c.first + c.copied]? with
    | none => s
    | some e =>
      let fn := s.plan.hoppers[i]
      let pre := isPre s h e
      let flags := e.flags ||| flag pre tPre ||| flag (!pre) tPost |||
        flag (e.steps != s.clk.stepCount) tStepped
      let s := if e.payload.isEmpty then s else deliverData fn c.payloadMill (c.payload + c.copied * h.slotBytes) e.payload s
      let s := deliver fn c.tagsMill (c.tags + 64 + 64 * c.copied) (tagBytes s e.tag flags h.event e.meas) s
      let total := if c.count = 0 then captureTotal s h - c.first else c.count
      let c1 := { c with
        copied := c.copied + 1, bytes := c.bytes + e.payload.length
        halfDone := c.halfDone || c.copied + 1 == (total + 1) / 2 }
      let s := s.modHop i fun h => { h with copy := some c1, copied := c1.copied, gone := max h.gone (c.first + c1.copied) }
      if c.half ∧ c1.halfDone ∧ ¬ c.halfDone then hopEntry i stOk fHalf c1.bytes s else s

/-- Copy `k` more entries. -/
def copyEntries (i : Fin 16) : Nat → State → State
  | 0, s => s
  | k + 1, s => copyEntries i k (copyEntry i s)

/-- Entries that a copy can still move now. -/
def copyReady (h : Hop) : Nat :=
  match h.copy with
  | none => 0
  | some c =>
    let n := h.entries.length - c.first - c.copied
    if c.count = 0 then n else min n (c.count - c.copied)

/-- The copy's progress between commands is not stated: a free number of the entries that are ready (log entry 15). -/
def copyProgress (i : Fin 16) (s : State) : State :=
  let k := copyReady s.hoppers[i]
  if k = 0 then s
  else
    let (v, s) := draw s
    copyEntries i (v % (k + 1)) s

/-- The event header of a copy (R334). -/
def eventHeader (s : State) (i : Fin 16) (h : Hop) (c : HopCopy) : List Byte :=
  let trig := release s h.stamp
  let endR := h.endAt.map (release s)
  let noTrig := h.code == 0xFF
  let first := h.entries[0]?
  let n := match h.stream with
    | some n => n.val
    | none => 0xFF
  let pos := match h.snap, h.stream with
    | some x, some n =>
      (match fin? 4 (s.streams[n]).cfg.pos with
        | some ch => (snapPos s ch x, x.vel)
        | none => (0, 0))
    | _, _ => (0, 0)
  let flags := b2n (h.mode == .stopped) + 2 * b2n h.aborted + 4 * b2n h.preShort + 8 * (h.trigFlags % 4) +
    32 * b2n ((!noTrig && trig.2) || (endR.map Prod.snd).getD false) +
    64 * b2n (!noTrig && h.postCount ≤ postHeld s h)
  let body := record [(1, 1), (1, i), (1, n), (1, h.code), (2, h.event), (1, flags), (1, h.meas),
    (8, stampNs trig.1), (1, stampFrac trig.1), (1, 0), (2, preHeld s h), (2, postHeld s h), (2, c.copied),
    (4, ((first.map fun e => e.tag.seq.toNat).getD 0)), (4, c.first), (8, sval 8 pos.1), (4, sval 4 pos.2),
    (4, h.epoch.toNat), (8, ((endR.map fun r => stampNs r.1).getD 0)), (2, h.preDepth), (2, h.postCount)]
  body ++ leBytes 4 (crc32c body)

/-- A copy ends: the event header, then the copy-end entry; the channel returns (R332, R334, R335). -/
def copyEnd (i : Fin 16) (status : Nat) (s : State) : State :=
  let h := s.hoppers[i]
  match h.copy with
  | none => s
  | some c =>
    let s := deliver s.plan.hoppers[i] c.tagsMill c.tags (eventHeader s i h c) s
    let s := unborrow c.channel (s.modHop i fun h => { h with copy := none })
    hopEntry i status fFull c.bytes s

/-- The copy of an ended capture, or of a stated count, has everything it moves (R333). -/
def copyCanEnd (h : Hop) : Bool :=
  match h.copy with
  | none => false
  | some c => (h.mode != .triggered) || (c.count != 0 && decide (c.first + c.count ≤ h.entries.length))

/-- The automatic copy begins at the trigger (R332); nothing starts on a channel that is not free. -/
def autoCopy (i : Fin 16) (s : State) : State :=
  let h := s.hoppers[i]
  match fin? 64 h.channel with
  | some c =>
    if h.autoCopy ∧ chanFree s s.plan.hoppers[i] c then
      borrow c (s.modHop i fun h => { h with
        copied := 0
        copy := some ⟨0, 0, c, h.bufPayload, h.bufPayloadMill, h.bufTags, h.bufTagsMill, h.half, 0, 0, false⟩ })
    else s
  | none => s

/-- The entries of a capture around a trigger stamp (R327): the newest pre_depth before it, and at most post_count after it. -/
def placeCapture (s : State) (stamp : Held) (h : Hop) : Hop :=
  let h := { h with stamp := stamp }
  let pre := h.entries.filter (isPre s h)
  let post := (h.entries.filter fun e => !isPre s h e).take h.postCount
  let writing := prePartial s h
  let kept := pre.drop (pre.length + b2n writing - h.preDepth)
  { h with
    entries := kept ++ post, preShort := decide (kept.length + b2n writing < h.preDepth)
    partialSeq := if !writing && decide (h.postCount ≤ post.length) then none else h.partialSeq
    snap := match h.stream with
      | some n => snapOf s (s.streams[n]).cfg.pos stamp
      | none => none }

/-- A trigger starts a capture (R326, R327, R334, R335). `flags` holds LATE in bit 0 and INFERRED in bit 1. -/
def hopStart (i : Fin 16) (code : Nat) (stamp : Held) (flags event : Nat) (s : State) : State :=
  let s := s.modHop i fun h => placeCapture s stamp { h with
    mode := .triggered, event := event, lastEvent := event, code := code, trigFlags := flags, trigAt := s.elapsed
    endAt := none, aborted := false
    epoch := match h.stream with
      | some n => (s.streams[n]).epoch
      | none => 0
    meas := measIndex s, gone := 0, copied := 0 }
  let h := s.hoppers[i]
  judgeEnd i (autoCopy i (hopEntry i stOk 0 (preHeld s h + b2n (prePartial s h)) s))

/-- A hopper is open to triggers (R326, R338). -/
def hopTakes (h : Hop) : Bool := (h.mode == .armed || h.mode == .pending) && h.disarming.isNone

/-- A trigger event reaches the hoppers `mask` selects (R324 to R326): the started ones, and the state after. -/
def hopTriggerMask (mask : Fin 16 → Bool) (code : Nat) (stamp : Held) (flags : Nat) (s : State) : List (Fin 16) × State :=
  let chosen := (allFin 16).filter mask
  let starts := chosen.filter fun i => hopTakes s.hoppers[i]
  let event := if s.hopEvent = 65535 then 1 else s.hopEvent + 1
  let s := if starts.isEmpty then s else { s with hopEvent := event }
  let one (s : State) (i : Fin 16) : State :=
    let h := s.hoppers[i]
    if starts.contains i then hopStart i code stamp flags event s
    else if h.mode = .triggered ∧ h.trigAt = s.elapsed then
      (if code < h.code then judgeEnd i (s.modHop i fun h => placeCapture s stamp { h with code := code, trigFlags := flags }) else s)
    else post 0x6403 s.plan.hoppers[i] i (s.modHop i fun h => { h with ignored := h.ignored + 1 })
  (starts, chosen.foldl one s)

/-- A trigger event of a code reaches the hoppers whose mask names it (R324). -/
def hopTrigger (code : Nat) (stamp : Held) (flags : Nat) (s : State) : State :=
  (hopTriggerMask (fun i => (s.hoppers[i]).stream.isSome && (s.hoppers[i]).trigMask.getLsbD code) code stamp flags s).2

/-- An FS that the stream accepts (R323, R327 to R329, R337). -/
def hopFs (n : Fin 32) (seq : Word) (sof : Held) (s : State) : State :=
  let one (s : State) (i : Fin 16) : State :=
    let s := if (s.hoppers[i]).mode = .pending ∧ (s.hoppers[i]).disarming = none then
        s.modHop i fun h => { h with mode := .armed } else s
    let h := s.hoppers[i]
    let begins (s : State) : State :=
      let shed := !serving s 2 i
      let s := s.modHop i fun h => { h with partialSeq := some seq, partialShed := shed }
      if shed then countShed s.plan.hoppers[i] s else s
    if h.mode = .armed then begins s
    else if h.mode = .triggered then
      if timeOf s sof ≤ timeOf s h.stamp then begins s
      else if h.postCount ≤ postHeld s h then s
      else
        let s := if ringFull h then copyProgress i s else s
        if ringFull s.hoppers[i] then hopOverflow 0x6402 i s else begins s
    else s
  (hoppersOf s n).foldl one s

/-- The frame ends: its entry enters every ring that was writing it (R328, R330, R337). -/
def hopFrameEnd (n : Fin 32) (t : Tag) (payload : List Byte) (s : State) : State :=
  let one (s : State) (i : Fin 16) : State :=
    let h := s.hoppers[i]
    if h.partialSeq = some t.seq then
      let t1 := if h.partialShed then t.asShed else t
      hopPush i ⟨t1, ringFlags h t1, measIndex s, t1.sof, if h.partialShed then [] else payload, s.clk.stepCount⟩ s
    else s
  (hoppersOf s n).foldl one s

/-- An interval tag becomes an entry of every circulating ring (R304, R327). -/
def hopInterval (n : Fin 32) (t : Tag) (s : State) : State :=
  let one (s : State) (i : Fin 16) : State :=
    let h := s.hoppers[i]
    let e : HopEntry := ⟨t, ringFlags h t, measIndex s, t.eof, [], s.clk.stepCount⟩
    if h.mode = .armed then hopPush i e s
    else if h.mode = .triggered ∧ (isPre s h e ∨ postHeld s h < h.postCount) then
      let s := if ringFull h then copyProgress i s else s
      if ringFull s.hoppers[i] then hopOverflow 0x6402 i s else hopPush i e s
    else s
  (hoppersOf s n).foldl one s

/-- A rate-guard discard lies among the numbers before a ring's next entry (R306, R330). -/
def hopGuard (n : Fin 32) (s : State) : State :=
  (hoppersOf s n).foldl (fun s i => s.modHop i fun h => { h with guardOwed := true }) s

/-- The bytes of a hopper's write stage (R329). -/
abbrev writeStage : Nat := 262144

/-- A line of `bytes` bytes enters the write stages of the rings that are writing its frame, out of which LPDDR5X has taken some bytes
since the line before (R329): one that meets a full stage stops the capture. -/
def hopLine (n : Fin 32) (bytes : Nat) (taken : List Nat) (s : State) : State :=
  (hoppersOf s n).foldl (fun (s : State) (i : Fin 16) =>
    let h := s.hoppers[i]
    if h.partialSeq.isNone ∨ h.partialShed then s
    else
      let k := h.stage - taken.getD i 0 + bytes
      if writeStage < k then hopOverflow 0x6401 i s else s.modHop i fun h => { h with stage := k }) s

/-- An arm is cancelled (R323). -/
def cancelArm (i : Fin 16) (s : State) : State :=
  let s := s.modHop i fun h => { h with mode := .bound, entries := [], event := 0 }
  hopEntry i stCancelled (fNeverStarted ||| fLast) 0 s

/-- What a disarm does once its line boundary and copy instruction have passed (R338): mode 0 STOP, 1 RELEASE. -/
def disarmNow (i : Fin 16) (mode : Nat) (s : State) : State :=
  let s := match (s.hoppers[i]).mode with
    | .pending => cancelArm i s
    | .armed =>
      let s := s.modHop i fun h => { h with mode := .bound, entries := [], partialSeq := none, event := 0 }
      hopEntry i stAborted fLast 0 s
    | .triggered => captureEnd i .captured stAborted fLast s
    | _ => s
  let left := copyReady s.hoppers[i]
  let running := (s.hoppers[i]).copy.isSome
  let s := if mode = 1 ∧ running then copyEnd i stAborted s else s
  let s := if mode = 1 then
      s.modHop i fun h => { h with
        mode := if h.mode = .unbound then .unbound else .bound, entries := [], partialSeq := none }
    else s
  let s := s.modHop i fun h => { h with disarming := none, quiet := true }
  notice s.plan.hoppers[i] nQuiet (BitVec.ofNat 32 (256 * kHopper + i)) stOk
    (BitVec.ofNat 32 (if mode = 1 ∧ running then left else 0)) s

/-- The hopper returns to UNBOUND: ring, stage and admission are freed (R339, R340). -/
def hopFree (i : Fin 16) (s : State) : State :=
  let s := match (s.hoppers[i]).copy with
    | some c => unborrow c.channel s
    | none => s
  endFlow 2 i ((s.modHop i fun h => { Hop.reset with ignored := h.ignored, lastEvent := h.lastEvent }).modWeir (dynFree 2 i))

end Sys2Proof.Machine
end

