-- ==== Sys2Proof/Machine/PrepOps.lean ====
section
/-! DEFINITION. The pyramid engine: geometry, conversion, filter and frame jobs (R344 to R360). -/

namespace Sys2Proof.Machine

/-- Change the preparation engines. -/
def State.modPrep (s : State) (g : Prep → Prep) : State := { s with prep := g s.prep }

/-! ### Geometry (R350, R351) -/

/-- The width and height of a level. -/
def levelSize (d : PyrDesc) : Nat → Nat × Nat
  | 0 => if d.kind = 1 then (d.w / 2, d.h / 2) else (d.w, d.h)
  | k + 1 => (((levelSize d k).1 + 1) / 2, ((levelSize d k).2 + 1) / 2)

/-- Bytes per pixel of an output format. -/
def outBpp (output : Nat) : Nat := if output = 0 then 1 else if output = 1 then 2 else 3

/-- The line pitch and the bytes of a level. -/
def levelPitch (d : PyrDesc) (k : Nat) : Nat := ((levelSize d k).1 * outBpp d.output + 63) / 64 * 64
def levelBytes (d : PyrDesc) (k : Nat) : Nat := levelPitch d k * (levelSize d k).2

/-- The offset of a level in the destination; level 0 takes no place unless it is written. -/
def levelOffset (d : PyrDesc) (k : Nat) : Nat :=
  ((List.range k).map fun j => if j = 0 ∧ ¬ d.write0 then 0 else levelBytes d j).sum

/-- The total T of R351. -/
def pyrTotal (d : PyrDesc) : Nat := levelOffset d d.levels

/-- The bytes R of levels 1 to L − 2 (R381). -/
def pyrReadBack (d : PyrDesc) : Nat := ((List.range (d.levels - 2)).map fun j => levelBytes d (j + 1)).sum

/-- The pass-input pixels of a pyramid (R354, R359). -/
def passPixels (d : PyrDesc) : Nat :=
  d.w * d.h + ((List.range (d.levels - 2)).map fun j => (levelSize d (j + 1)).1 * (levelSize d (j + 1)).2).sum

/-- The combination of R352 is refused. -/
def formatBad (d : PyrDesc) : Bool :=
  let raw := decide (0x2A ≤ d.dataType) && decide (d.dataType ≤ 0x2E)
  match d.kind with
  | 0 => !raw || d.output == 2
  | 1 => !raw
  | 2 => d.dataType != 0x1E
  | 3 => d.dataType != 0x24 || d.output == 1
  | _ => true

/-- The geometry of R350 is refused. -/
def geometryBad (d : PyrDesc) : Bool :=
  decide (d.levels < 2) || decide (d.levels > 6) || decide (d.w < 16) || decide (d.w > 8192) || decide (d.h < 16) ||
  decide (d.h > 8192) || decide ((levelSize d (d.levels - 1)).1 < 8) || decide ((levelSize d (d.levels - 1)).2 < 8) ||
  (d.kind == 2 && d.w % 2 != 0) || (d.kind == 1 && (d.w % 2 != 0 || d.h % 2 != 0))

/-! ### Conversion and filter (R352, R353) -/

/-- The samples of an input line: RAW pixels, or the bytes of YUV422 and RGB888. -/
def inputLine (d : PyrDesc) (line : List Byte) : List Nat :=
  if d.unpacked then (List.range d.w).map fun i => fld line (2 * i) 2
  else if unpackable d.dataType then unpackLine d.dataType line d.w
  else line.map BitVec.toNat

/-- Clip to `bits` bits. -/
def clip (bits : Nat) (v : Int) : Nat := (max 0 (min v (2 ^ bits - 1))).toNat

/-- Luma of R352. -/
def luma (r g b : Nat) : Nat := (77 * r + 150 * g + 29 * b + 128) / 256

/-- The quad's R, G and B for a pattern (R352): samples at top-left, top-right, bottom-left, bottom-right. -/
def quadRgb (pattern a b c d : Nat) : Nat × Nat × Nat :=
  match pattern with
  | 0 => (a, (b + c + 1) / 2, d)
  | 1 => (b, (a + d + 1) / 2, c)
  | 2 => (c, (a + d + 1) / 2, b)
  | _ => (d, (b + c + 1) / 2, a)

/-- One row of level 0: each pixel its components (R352). YUV422 carries U, Y, V, Y and RGB888 R, G, B (log entry 14).
`l0` and `l1` are the input lines that the row needs. -/
def level0Row (d : PyrDesc) (l0 l1 : List Nat) : List (List Nat) :=
  let b := bitsPerPixel d.dataType
  let narrow (v : Nat) : Nat := if d.output = 1 then v else v / 2 ^ (b - 8)
  (List.range (levelSize d 0).1).map fun x =>
    match d.kind with
    | 0 => [clip (if d.output = 1 then b else 8) (narrow (l0.getD x 0))]
    | 1 =>
      let (r, g, bl) := quadRgb d.pattern (l0.getD (2 * x) 0) (l0.getD (2 * x + 1) 0) (l1.getD (2 * x) 0)
        (l1.getD (2 * x + 1) 0)
      if d.output = 2 then [narrow r, narrow g, narrow bl].map fun v => clip 8 v
      else [clip (if d.output = 1 then b else 8) (narrow (luma r g bl))]
    | 2 =>
      let y : Int := l0.getD (2 * x + 1) 0
      let u : Int := l0.getD (4 * (x / 2)) 0
      let v : Int := l0.getD (4 * (x / 2) + 2) 0
      if d.output = 2 then
        [(298 * (y - 16) + 459 * (v - 128) + 128) / 256,
          (298 * (y - 16) - 55 * (u - 128) - 136 * (v - 128) + 128) / 256,
          (298 * (y - 16) + 541 * (u - 128) + 128) / 256].map (clip 8)
      else [clip 8 y]
    | _ =>
      let p := [l0.getD (3 * x) 0, l0.getD (3 * x + 1) 0, l0.getD (3 * x + 2) 0]
      if d.output = 2 then p else [luma (p.getD 0 0) (p.getD 1 0) (p.getD 2 0)]

/-- Level 0 of input lines; absent lines are zeros (R357). -/
def level0 (d : PyrDesc) (lines : List (List Byte)) : List (List (List Nat)) :=
  let ls := lines.map (inputLine d)
  (List.range (levelSize d 0).2).map fun y =>
    if d.kind = 1 then level0Row d (ls.getD (2 * y) []) (ls.getD (2 * y + 1) []) else level0Row d (ls.getD y []) []

/-- A coordinate reflected without repeating the edge (R353). -/
def reflect (n : Nat) (i : Int) : Nat := if i < 0 then (-i).toNat else if i < n then i.toNat else (2 * ((n : Int) - 1) - i).toNat

/-- The filter's taps. -/
def taps : List (Int × Nat) := [(-2, 1), (-1, 4), (0, 6), (1, 4), (2, 1)]

/-- One row of the next level from a level of `w` × `h` (R353). -/
def filterRow (w h : Nat) (rows : List (List (List Nat))) (y : Nat) : List (List Nat) :=
  let comps := ((rows.head?.bind List.head?).map List.length).getD 1
  (List.range ((w + 1) / 2)).map fun x =>
    (List.range comps).map fun c =>
      let sum := (taps.map fun j =>
        let row := rows.getD (reflect h (2 * y + j.1)) []
        j.2 * (taps.map fun i => i.2 * ((row.getD (reflect w (2 * x + i.1)) []).getD c 0)).sum).sum
      (sum + 128) / 256

/-- The next level (R353). -/
def nextLevel (w h : Nat) (rows : List (List (List Nat))) : List (List (List Nat)) :=
  (List.range ((h + 1) / 2)).map (filterRow w h rows)

/-- The bytes of a level's rows at its pitch (R351). -/
def levelOut (d : PyrDesc) (k : Nat) (rows : List (List (List Nat))) : List Byte :=
  rows.flatMap fun row => padTo (levelPitch d k)
    (row.flatMap fun px => if d.output = 1 then leBytes 2 (px.getD 0 0) else px.flatMap (leBytes 1))

/-- The rows of a level from its bytes as read back. -/
def levelIn (d : PyrDesc) (k : Nat) (bytes : List Byte) : List (List (List Nat)) :=
  let (w, h) := levelSize d k
  let bpp := outBpp d.output
  (List.range h).map fun y => (List.range w).map fun x =>
    let at_ := y * levelPitch d k + x * bpp
    if d.output = 1 then [fld bytes at_ 2] else (List.range bpp).map fun i => fld bytes (at_ + i) 1

/-! ### Jobs -/

/-- A job's identity is its place in the list of jobs held. -/
def modJob (i : Nat) (f : PyrJob → PyrJob) (s : State) : State :=
  s.modPrep fun p => { p with jobs := modPlace f i p.jobs }

/-- Write bytes to a pyramid's destination. -/
def pyrWrite (j : PyrJob) (off : Nat) (bytes : List Byte) (s : State) : State :=
  if j.space = 2 then lpWrite (j.addr + off) bytes s else deliverData j.fn (j.space == 1) (j.addr + off) bytes s

/-- The oldest queued buffer job starts when no buffer job runs (R355). -/
def startBuffer (s : State) : State :=
  if s.prep.jobs.any fun j => j.stream.isNone ∧ j.running then s
  else match s.prep.jobs.findIdx? fun j => j.stream.isNone ∧ ¬ j.running with
    | some i => (modJob i (fun j => { j with running := true }) s).modPrep fun p => { p with pyrAt := s.elapsed }
    | none => s

/-- The next entry of a binding carries OVERFLOW (R360). -/
def takeOwed (n : Fin 32) (s : State) : Nat × State :=
  match s.prep.bindings.find? fun b => b.stream = n ∧ b.owed with
  | some _ => (fOverflow, s.modPrep fun p => { p with
      bindings := p.bindings.map fun b => if b.stream = n then { b with owed := false } else b })
  | none => (0, s)

/-- A job ends with its entry (R345); a frame job's entry feeds the PYRAMID slots (R421). -/
def pyrEnd (i : Nat) (status flags : Nat) (count : Nat) (s : State) : State :=
  match s.prep.jobs[i]? with
  | none => s
  | some j =>
    let s := s.modPrep fun p => { p with jobs := p.jobs.eraseIdx i, pyrAt := s.elapsed }
    let (owed, s) := match j.stream with
      | some n => takeOwed n s
      | none => (0, s)
    let s := finishJob j.queue ⟨kPyramid, 0, j.job, status, flags ||| owed, BitVec.ofNat 32 count⟩ s
    let s := match j.stream with
      | some n => slotBump 7 n s
      | none => s
    startBuffer s

/-- The flow of a binding (R359, R381). -/
def bindingFlow (b : Binding) (maxFps : Nat) : Flow :=
  let t := pyrTotal b.desc
  ⟨3, b.stream, b.fn, b.cls, b.rank, if b.space = 2 then .lpddr else .millpond,
    kbps (if b.space = 2 then t + pyrReadBack b.desc else 2 * t) maxFps, b.units, 0, true, none⟩

/-- A binding's description for its stream's settings. -/
def bindDesc (d : PyrDesc) (c : StreamCfg) : PyrDesc := { d with dataType := c.dataType, w := c.width, h := c.height }

/-- A commit has switched a bound stream: its flow follows (R358). -/
def pyrReadmit (n : Fin 32) (c : StreamCfg) (s : State) : State :=
  match s.prep.bindings.find? fun b => b.stream = n with
  | some b =>
    let b1 := { b with desc := bindDesc b.desc c }
    setFlow (bindingFlow b1 c.maxFps) (s.modPrep fun p => { p with
      bindings := p.bindings.map fun x => if x.stream = n then b1 else x })
  | none => s

/-- An FS of a bound stream starts one frame job, or it is shed or dropped (R356, R360). The entry of a shed job takes its place
in the order of submission (R103), and needs one in the queue (R104). -/
def pyrFs (n : Fin 32) (seq : Word) (s : State) : State :=
  match s.prep.bindings.find? fun b => b.stream = n with
  | none => s
  | some b =>
    let c := match (s.streams[n]).frame with
      | some f => f.cfg
      | none => (s.streams[n]).cfg
    let s := if serving s 3 n then s else post 0xB104 b.fn n (countShed b.fn s)
    if (serving s 3 n ∧ 256 ≤ s.prep.jobs.length) ∨ ¬ canSubmit s b.queue then
      post 0xB103 b.fn n (s.modPrep fun p => { p with
        dropped := vmod p.dropped b.fn (· + 1)
        bindings := p.bindings.map fun x => if x.stream = n then { x with owed := true } else x })
    else if ¬ serving s 3 n then
      let (owed, s) := takeOwed n s
      finishJob b.queue ⟨kPyramid, 0, seq, stOverflow, fNeverStarted ||| owed, 0⟩ (submitJob b.queue kPyramid 0 seq s)
    else
      let j : PyrJob :=
        { job := seq, fn := b.fn, queue := b.queue, stream := some n, desc := bindDesc b.desc c, source := none, space := b.space
          addr := b.addr + (seq.toNat % b.slots) * b.slotBytes, running := true, stopping := false, pass := 1
          fed := none, partner := false, written := 0, ended := false }
      submitJob b.queue kPyramid 0 seq (s.modPrep fun p => { p with jobs := p.jobs ++ [j], pyrAt := s.elapsed })

/-- Level 0 and level 1 of pass 1 as far as the input's rows reach (R354): the bytes written and the state after. -/
def passOne (j : PyrJob) (rows : List (List (List Nat))) (have_ : Nat) (s : State) : Nat × State :=
  let d := j.desc
  let (w, h) := levelSize d 0
  let r1 := (nextLevel w h rows).take (if h ≤ have_ then (h + 1) / 2 else (have_ - 1) / 2)
  let b0 := if d.write0 then levelOut d 0 (rows.take have_) else []
  let b1 := levelOut d 1 r1
  let s := if b0.isEmpty then s else pyrWrite j 0 b0 s
  let s := if b1.isEmpty then s else pyrWrite j (levelOffset d 1) b1 s
  (b0.length + b1.length, s)

/-- The frame of a job ends (R357): its lines wait for the end of pass 1; a frame that STREAM_CLOSE cut ends the job
ABORTED at its last line. -/
def pyrFrameEnd (n : Fin 32) (f : Frame) (t : Tag) (aborted : Bool) (s : State) : State :=
  match s.prep.jobs.findIdx? fun j => j.stream = some n ∧ j.job = f.seq ∧ j.fed = none with
  | none => s
  | some i =>
    let lines := f.lines.reverse
    let partner := t.flags &&& (tTruncated ||| tCorrupt) != 0
    if aborted then
      match s.prep.jobs[i]? with
      | some j =>
        let have_ := if j.desc.kind = 1 then lines.length / 2 else lines.length
        let (w, s) := passOne j (level0 j.desc lines) have_ s
        pyrEnd i stAborted 0 w s
      | none => s
    else
      let s := if partner then post 0xB101 (s.streams[n]).fn n s else s
      (modJob i (fun j => { j with fed := some lines, partner := partner }) s).modPrep fun p => { p with pyrAt := s.elapsed }

/-- A binding ends (R348): its running jobs stop; the QUIET notice is owed. -/
def endBinding (n : Fin 32) (s : State) : State :=
  match s.prep.bindings.find? fun b => b.stream = n with
  | none => s
  | some b =>
    let s := s.modPrep fun p => { p with
      bindings := p.bindings.filter fun x => x.stream != n
      ended := p.ended ++ [⟨b.fn, kPyramid, n, 0⟩]
      jobs := p.jobs.map fun j => if j.stream = some n then { j with stopping := true, ended := true } else j }
    sweepWaits (endFlow 3 n s)

end Sys2Proof.Machine
end

