-- ==== Sys2Proof/Machine/StreamOps.lean ====
section
/-! DEFINITION. Streams: slots, tags, gaps, frame boundaries, epochs, drains and losses (R209 to R233, R302 to R315). -/

namespace Sys2Proof.Machine

/-- STREAM_STATE.state (R209). -/
def streamCode (s : State) (n : Fin 32) : Nat :=
  let st := s.streams[n]
  match st.mode with
  | .closed => 0
  | .closing => 5
  | .opened =>
    match (s.ports[portOf n]).mode with
    | .drain => 4
    | .locked => if st.frame.isSome then 2 else 1
    | _ => 3

/-- The open contexts of a port. -/
def openOf (s : State) (p : Fin 8) : List (Fin 32) := ((allFin 4).map (streamOf p)).filter fun n => (s.streams[n]).isOpen

/-- The nominal period of a stream in ticks, rounded up (R230, R313). -/
def periodTicks (c : StreamCfg) : Nat := if c.maxFps = 0 then 0 else (20000000000 + c.maxFps - 1) / c.maxFps

/-- Now, as a held stamp. -/
def holdNow (s : State) : Held := hold s (now s)

/-! ### Slots and tags -/

/-- The ring is judged for a sequence number (R308): a free release point moves forward first. -/
def Stream.judge (st : Stream) (q : Word) : Stream × Option Ring :=
  match st.ring with
  | none => (st, none)
  | some r =>
    let lead := q - BitVec.ofNat 32 r.slots + 1
    let st := if st.unreleased.isEmpty ∧ 0 < (lead - st.release).toInt then
        { st with release := lead, head := lead.toNat % r.slots }
      else st
    let held := st.unreleased ++ (st.staged.filter fun x => x.ring == r).map fun x => x.tag.seq
    (st, if held.any fun u => r.slots ≤ (q - u).toNat then none else some r)

/-- Judge the ring of a stream in place. -/
def judgeSlot (n : Fin 32) (q : Word) (s : State) : Option Ring × State :=
  let j := (s.streams[n]).judge q
  (j.2, s.modStream n fun _ => j.1)

/-- A number stays unwritten for want of a slot (R226, R308). -/
def dropNumber (n : Fin 32) (q : Word) (s : State) : State :=
  s.modStream n fun st => { st with
    drops := st.drops + 1, allDrops := st.allDrops + 1, unwritten := st.unwritten ++ [(q, true)] }

/-- The entry status of a tag (R227, R309). -/
def entryStatus (k : EntryKind) (flags : Nat) : Nat :=
  match k with
  | .aborted => stAborted
  | .shed => stOverflow
  | .interval => if flags &&& tPartner ≠ 0 then stPartnerFault else stOk
  | .frame busError =>
    if flags &&& tOverflow ≠ 0 then stOverflow
    else if busError then stBusError
    else if flags &&& (tCorrupt ||| tTruncated ||| tPartner) ≠ 0 then stPartnerFault
    else stOk

/-- A gap tag (R305, R304). -/
def EntryKind.isGap : EntryKind → Bool
  | .shed | .interval => true
  | _ => false

/-- The unwritten numbers before a tag's (R306). -/
def Stream.before (st : Stream) (q : Word) : List (Word × Bool) := st.unwritten.filter fun u => decide (0 < (q - u.1).toInt)

/-- The flags of a tag as it is written: GAP with the causes of the unwritten numbers before it, and TIME_STEPPED (R122, R301,
R306). -/
def Stream.tagFlags (st : Stream) (t : Tag) : Nat :=
  let gap := if st.written then t.seq != st.lastSeq + 1 else t.seq != 0
  let causes := st.before t.seq
  t.flags ||| flag gap tGap ||| flag (gap && causes.any Prod.snd) tOverflow ||| flag (gap && causes.any fun u => !u.2) tPartner |||
    flag st.steppedOwed tStepped

/-- Write a tag into its ring: the payload, the tag, then the entry (R226, R227, R306 to R309). With Bus Master Enable clear
the frame is not delivered and its number stays unwritten (R66). -/
def putTag (n : Fin 32) (x : Staged) (s : State) : State :=
  let st := s.streams[n]
  if ¬ (s.fns[st.fn]).busMaster then s
  else
    let r := x.ring
    let t := x.tag
    let flags := st.tagFlags t
    let slot := t.seq.toNat % r.slots
    let payload := x.lines.flatten
    let s := if payload.isEmpty then s else deliverData st.fn r.payloadMill (r.payload + slot * r.slotBytes) payload s
    let s := deliver st.fn r.tagsMill (r.tags + 64 * slot) (tagBytes s t flags 0 (measIndex s)) s
    let s := s.modStream n fun st => { st with
      written := true, lastSeq := t.seq, steppedOwed := false
      unwritten := st.unwritten.filter fun u => !decide (0 < (t.seq - u.1).toInt)
      delivered := if x.kind.isGap then st.delivered else st.delivered + 1
      gapTags := if x.kind.isGap then st.gapTags + 1 else st.gapTags
      corruptFrames := if t.flags &&& tCorrupt ≠ 0 then st.corruptFrames + 1 else st.corruptFrames
      errs := st.errs + BitVec.ofNat 32 x.corrupt
      tail := if st.ring = some r then (t.seq.toNat + 1) % r.slots else st.tail
      unreleased := if st.ring = some r then st.unreleased ++ [t.seq] else st.unreleased }
    match fin? 32 st.cfg.queue with
    | some q => putEntry q ⟨kStream, n, t.seq, entryStatus x.kind flags, 0, BitVec.ofNat 32 payload.length⟩ s
    | none => s

/-- The tags behind a copied frame, up to the next frame that is not yet copied, are written (R307). -/
def putWaiting (n : Fin 32) (s : State) : State :=
  let l := (s.streams[n]).staged
  (l.takeWhile fun x => !x.copying).foldl (fun s x => putTag n x s)
    (s.modStream n fun st => { st with staged := l.dropWhile fun x => !x.copying })

/-- A tag takes its place in the stream's order (R307): it is written at once, or once what waits before it has been. An interval
that begins later begins at its eof, and counts edges from there (R304, log entry 56). -/
def queueTag (n : Fin 32) (x : Staged) (s : State) : State :=
  let s := if (s.fns[(s.streams[n]).fn]).busMaster then
      s.modStream n fun st => { st with lastEof := x.tag.eof, edgeCount := 0 }
    else s
  if x.copying ∨ ¬ (s.streams[n]).staged.isEmpty then s.modStream n fun st => { st with staged := st.staged ++ [x] }
  else putTag n x s

/-- A gap tag, judged for a slot now (R304, R305, R308); without host delivery nothing is written (R226). -/
def putGapTag (n : Fin 32) (k : EntryKind) (t : Tag) (s : State) : State :=
  if ¬ bit (s.streams[n]).cfg.route 0 then s
  else
    let (r, s) := judgeSlot n t.seq s
    match r with
    | some r => queueTag n ⟨k, false, t, (s.streams[n]).cfg, r, [], 0⟩ s
    | none => dropNumber n t.seq s

/-- Take the next sequence number (R303). -/
def takeSeq (n : Fin 32) (s : State) : Word × State :=
  ((s.streams[n]).nextSeq, s.modStream n fun st => { st with nextSeq := st.nextSeq + 1 })

/-- A missed trigger edge (R215). -/
def missEdge (n : Fin 32) (s : State) : State :=
  let s := (takeSeq n s).2
  post 0x210A (s.streams[n]).fn n (s.modStream n fun st => { st with missed := st.missed + 1 })

/-! ### Epochs -/

/-- The Weir flow of a stream (R381): none when it has neither host delivery nor staging. -/
def streamFlow (n : Fin 32) (fn : Fn) (c : StreamCfg) : Option Flow :=
  let f := frameBytes c
  if bit c.route 1 then
    some ⟨1, n, fn, c.cls, c.rank, .lpddr, kbps (2 * f) c.maxFps, units2M (2 * f), 0, true, none⟩
  else if bit c.route 0 then some ⟨1, n, fn, c.cls, c.rank, .millpond, kbps (2 * f) c.maxFps, 0, 0, true, none⟩
  else none

/-- Admit a stream's flow in force. -/
def admitStream (n : Fin 32) (c : StreamCfg) (s : State) : State :=
  match streamFlow n (s.streams[n]).fn c with
  | some f => setFlow f s
  | none => endFlow 1 n s

/-- The demand of hoppers on a stream follows its rate (R336). -/
def hopFlow (i : Fin 16) (h : Hop) (fn : Fn) (maxFps : Nat) : Flow :=
  ⟨2, i, fn, h.cls, h.rank, .lpddr, kbps h.slotBytes maxFps, h.units, 0, true, none⟩

/-- The last switch of a function's epoch (R312, R313): reservations fall, HAMPER_DONE and COMMIT_DONE. -/
def finishCommit (f : Fn) (s : State) : State :=
  match (s.epochs[f]).commit with
  | none => s
  | some c =>
    if ¬ c.unswitched.isEmpty then s
    else
      let s := s.modEpochs f fun e => { e with
        commit := none, lastEpoch := c.epoch, lastStatus := stOk
        lastSpan := c.first.map fun a => (a, holdNow s), lastStreams := c.streams }
      let s := s.modWeir fun w => { w with reserved := w.reserved.filter fun x => x.1 != f }
      let s := c.streams.foldl (fun s n =>
        if (s.streams[n]).isOpen then
          let s := admitStream n (s.streams[n]).cfg s
          let s := (hoppersOf s n).foldl (fun s i =>
            setFlow (hopFlow i s.hoppers[i] s.plan.hoppers[i] (s.streams[n]).cfg.maxFps) s) s
          pyrReadmit n (s.streams[n]).cfg s
        else s) s
      let count := BitVec.ofNat 32 c.switched
      let s := hamperDone 0x0010 f stOk count s
      (allFin 16).foldl (fun s g =>
        if (s.fns[g]).mode = .ready ∧ (g = f ∨ c.streams.any fun n => (s.streams[n]).fn = g) then
          notice g nCommitDone c.epoch stOk count s
        else s) s

/-- A stream switches in every epoch that waits for it (R313). -/
def switchStream (n : Fin 32) (s : State) : State :=
  (allFin 16).foldl (fun s f =>
    match (s.epochs[f]).commit with
    | some c =>
      if c.unswitched.contains n then
        let s := s.modStream n fun st => { st with
          cfg := st.nextCfg.getD st.cfg, nextCfg := none
          epoch := if st.mode = .opened ∧ st.epoch < c.epoch then c.epoch else st.epoch }
        finishCommit f (s.modEpochs f fun e => { e with commit := some { c with
          unswitched := c.unswitched.filter (· != n), switched := c.switched + 1
          first := some (c.first.getD (holdNow s)) } })
      else s
    | none => s) s

/-- A frame boundary: what waits for it applies (R224, R229, R313). A draining port's contexts switch at its end (R232). -/
def boundary (n : Fin 32) (s : State) : State :=
  if (s.streams[n]).frame.isSome then s
  else
    let s := s.modStream n fun st =>
      match st.nextRing with
      | some r => { st with
          ring := some r, nextRing := none, head := 0, tail := 0, unreleased := []
          release := st.nextSeq - BitVec.ofNat 32 (st.nextSeq.toNat % r.slots) }
      | none => st
    let s := s.modStream n fun st =>
      match st.nextMap with
      | some m => { st with embMap := m, nextMap := none, prevCounter := none }
      | none => st
    if (s.ports[portOf n]).mode = .drain then s else switchStream n s

/-! ### Frames -/

/-- An interval without numbers begins for a stream (R221): edges since its last tag are its edges. -/
def openGap (n : Fin 32) (loss : Bool) (s : State) : State :=
  s.modStream n fun st =>
    match st.gap with
    | some g => { st with gap := some { g with loss := g.loss || loss } }
    | none => { st with gap := some ⟨st.lastEof, loss, st.edgeCount⟩, edges := [] }

/-- Sensor counter and missing embedded fields of a frame (R229). -/
def judgeEmbedded (n : Fin 32) (f : Frame) (s : State) : State :=
  let st := s.streams[n]
  let lines := f.embedded.reverse
  let s := if st.embMap.any fun m => m.constant.isNone && (embValue m lines).isNone then post 0x210B st.fn n s else s
  match st.embMap.find? fun m => m.field = 0 with
  | none => s
  | some m =>
    match (match m.constant with
      | some c => some c.toNat
      | none => embValue m lines) with
    | none => s
    | some v =>
      let jump := match st.prevCounter with
        | some p => if m.constant.isSome then 0 else (v + 2 ^ m.bits - p) % 2 ^ m.bits
        | none => 0
      let s := s.modStream n fun st => { st with prevCounter := some v }
      if 1 < jump then
        post 0x210C st.fn n (s.modStream n fun st => { st with
          sensorSkips := st.sensorSkips + BitVec.ofNat 32 (jump - 1) })
      else s

/-- A frame in progress ends (R219, R227, R305): it is shed, staged, written or undelivered, and its consumers take it. -/
def endFrame (n : Fin 32) (eof : Held) (aborted : Bool) (s : State) : State :=
  match (s.streams[n]).frame with
  | none => s
  | some f =>
    if f.discard then boundary n (s.modStream n fun st => { st with frame := none })
    else
      let s := judgeEmbedded n f s
      let t := formTag s n f eof
      let lines := frameLines f
      let payload := lines.flatten
      let s := s.modStream n fun st => { st with frame := none }
      let s := if f.shed then putGapTag n .shed t.asShed s
        else match f.ring with
          | none => s
          | some r =>
            let (fit, kept) := fitSlot r f.cfg t lines
            queueTag n ⟨if aborted then .aborted else .frame false, f.lp && !aborted, fit, f.cfg, r, kept, f.corrupt⟩ s
      let s := hopFrameEnd n t payload s
      let s := pyrFrameEnd n f t aborted s
      let s := if (s.ports[portOf n]).mode = .drain then openGap n false s else s
      boundary n s

/-- A frame that has not ended when the next one starts is cut (R236). -/
def cutOpenFrame (n : Fin 32) (s : State) : State :=
  if (s.streams[n]).frame.isSome then
    let s := s.modStream n fun st => { st with frame := st.frame.map fun f => { f with partner := true } }
    post 0x2107 (s.streams[n]).fn n (endFrame n (holdNow s) false s)
  else s

/-- The interval tag that is due at an FS (R221). -/
def intervalDue (n : Fin 32) (sof : Held) (s : State) : State :=
  match (s.streams[n]).gap with
  | some g =>
    let r := takeSeq n s
    let t := intervalTag r.2 n r.1 g sof
    hopInterval n t (putGapTag n .interval t (r.2.modStream n fun st => { st with gap := none, edges := [] }))
  | none => s

/-- The number of trigger edges too old for a frame, and the edges left (R215). -/
def staleEdges (s : State) (port : PortCfg) (st : Stream) (sof : Held) : Nat × List Edge :=
  let old (e : Edge) : Bool := decide (timeOf s e.at_ + (st.cfg.maxAge : Int) * 256000 < timeOf s sof)
  if port.syncMode != 0 && st.cfg.maxAge != 0 then ((st.edges.filter old).length, st.edges.filter fun e => !old e)
  else (0, [])

/-- The edge that a frame takes, and the rest (R215). -/
def takeEdge (s : State) (sof : Held) (live : List Edge) : Option Edge × List Edge :=
  match live with
  | e :: rest => if timeOf s e.at_ < timeOf s sof then (some e, rest) else (none, live)
  | [] => (none, [])

/-- The slot of a frame, judged at its FS (R226, R308); none where the frame is shed or not delivered. -/
def frameSlot (n : Fin 32) (wanted : Bool) (q : Word) (s : State) : Option Ring × State :=
  if wanted then
    let r := judgeSlot n q s
    (r.1, if r.1.isNone then dropNumber n q r.2 else r.2)
  else (none, s)

/-- A frame that the rate guard drops, and every frame before its fields are known. -/
def blankFrame (st : Stream) (sof : Held) : Frame :=
  { seq := 0, fn := st.fn, cfg := st.cfg, epoch := st.epoch, ring := none, shed := false, sof := sof, trigger := none
    snapSof := none, snapTrig := none, inferred := false, transition := false, discard := true, lp := false, embedded := [], lines := []
    corrupt := 0, partner := false, overflowed := false, stopped := false, excess := false }

/-- The edge that an FS binds, once the ones that are too old have counted as missed frames (R215). -/
def bindEdge (n : Fin 32) (sof : Held) (s : State) : Option Edge × State :=
  let (stale, live) := staleEdges s (s.ports[portOf n]).cfg (s.streams[n]) sof
  let s := (List.range stale).foldl (fun s _ => missEdge n s) s
  let (trig, rest) := takeEdge s sof live
  (trig, s.modStream n fun st => { st with edges := rest })

/-- The skip counts of the channels at a moment (R302). -/
def skipCounts (s : State) (h : Held) : Vector Word 4 := Vector.ofFn fun c => skipsAt s s.pos[c] (timeOf s h)

/-- The rate guard drops a frame (R230): its FS binds its edge and takes its number as any other (R215, R302, R303). -/
def guardFrame (n : Fin 32) (blank : Frame) (s : State) : State :=
  let (q, s) := takeSeq n (bindEdge n blank.sof s).2
  post 0x210F blank.fn n (hopGuard n (s.modStream n fun st => { st with
    unwritten := st.unwritten ++ [(q, false)], prevSkips := skipCounts s blank.sof, frame := some blank }))

/-- A frame that the rate guard lets pass begins (R215, R226, R230, R303). -/
def openFrame (n : Fin 32) (sof : Held) (st : Stream) (s : State) : State :=
  let cfg := st.cfg
  let (trig, s) := bindEdge n sof s
  let (q, s) := takeSeq n s
  let snap := snapOf s cfg.pos sof
  let skips := skipCounts s sof
  let inferred := match fin? 4 cfg.pos with
    | some c => skips[c] != ((s.streams[n]).prevSkips)[c]
    | none => false
  let shed := !serving s 1 n
  let s := if shed then countShed st.fn s else s
  let slot := frameSlot n (bit cfg.route 0 && !shed) q s
  let s := slot.2
  let f : Frame := { blankFrame st sof with
    seq := q, ring := slot.1, shed := shed, trigger := trig, snapSof := snap, snapTrig := trig.bind Edge.snap
    inferred := inferred, transition := inTransition s n sof, discard := false, lp := bit cfg.route 1 && !(s.weir.sFault && cfg.cls == .s) }
  pyrFs n q (hopFs n q sof (s.modStream n fun st => { st with frame := some f, prevSkips := skips }))

/-- An FS that an open context accepts (R215, R221, R226, R228, R230, R303). -/
def beginFrame (n : Fin 32) (sof : Held) (s : State) : State :=
  let s := intervalDue n sof (cutOpenFrame n s)
  let st := s.streams[n]
  let early := match st.prevSof with
    | some h => decide ((sof.raw - h.raw).toInt * st.cfg.maxFps < 95 * unitsPerSecond)
    | none => false
  let s := s.modStream n fun st => { st with prevSof := some sof }
  if early then guardFrame n (blankFrame st sof) s else openFrame n sof st s

/-- A rising edge of TRIG k reaches the streams whose port it syncs (R215, R221, R292). -/
def streamEdges (k : Nat) (stamp : Held) (late inferred : Bool) (s : State) : State :=
  (allFin 32).foldl (fun s n =>
    let p := (s.ports[portOf n]).cfg
    let st := s.streams[n]
    if p.syncMode ≠ 0 ∧ p.syncTrig = k ∧ st.isOpen then
      let e : Edge := ⟨stamp, snapOf s st.cfg.pos stamp, late, inferred⟩
      s.modStream n fun st => { st with
        edgeCount := st.edgeCount + 1
        gap := st.gap.map fun g => { g with edges := g.edges + 1 }
        edges := if st.gap.isSome ∨ st.cfg.maxAge = 0 then st.edges else st.edges ++ [e] }
    else s) s

/-- The uplink events of TRIG k (R214). -/
def uplinkEdges (k : Nat) (s : State) : State :=
  (allFin 8).foldl (fun s p =>
    let c := (s.ports[p]).cfg
    if c.syncMode = 2 ∧ c.syncTrig = k ∧ (s.ports[p]).mode = .locked then emit (.uplinkTrigger p true) s else s) s

/-! ### Ports -/

/-- A port goes to ACQUIRE with settings (R208, R216). -/
def acquire (p : Fin 8) (c : PortCfg) (gear : Nat) (s : State) : State :=
  s.modPort p fun x => { x with
    mode := .acquire, cfg := c, next := none, gear := gear, raising := none, degraded := false, since := s.elapsed
    fifo := 0, bad := [] }

/-- What a port is brought up for; a PORT_RESTART in progress stays owed (R232). -/
def Port.withTask (x : Port) (task : PortTask) : Port := { x with task := if x.task = .restart then .restart else task }

/-- The port goes OFF (R208): a PORT_RESTART in progress ends with its 300 ms (R232). -/
def portOff (p : Fin 8) (c : PortCfg) (s : State) : State :=
  sweepWaits (s.modPort p fun x => { x.withTask .none with
    mode := .off, cfg := c, next := none, raising := none, attempts := 0, fifo := 0, bad := [] })

/-- The drain boundary (R232): contexts switch, their intervals are open, and the port acquires with its new settings, or is OFF where
a commit has disabled it meanwhile (R208). -/
def drainEnds (p : Fin 8) (loss : Bool) (s : State) : State :=
  let x := s.ports[p]
  let c := x.next.getD x.cfg
  let s := (openOf s p).foldl (fun s n => switchStream n (openGap n loss s)) s
  if c.enable then acquire p c c.gear s else portOff p c s

/-- A restart begins (R232): from LOCKED it drains, otherwise the drain ends at once. -/
def startRestart (p : Fin 8) (c : PortCfg) (task : PortTask) (s : State) : State :=
  let was := (s.ports[p]).mode
  let s := post 0x2003 wide p (s.modPort p fun x => { x.withTask task with next := some c })
  if was = .locked then
    let s := s.modPort p fun x => { x with mode := .drain, since := s.elapsed }
    (openOf s p).foldl (fun s n => if (s.streams[n]).frame.isNone then boundary n (openGap n false s) else s) s
  else if was = .drain then s
  else drainEnds p false s

/-- The frames in progress of a port end now (R219, R232). -/
def cutFrames (p : Fin 8) (partner : Bool) (s : State) : State :=
  (openOf s p).foldl (fun s n =>
    let s := if partner then s.modStream n fun st => { st with
        frame := st.frame.map fun f => { f with partner := true } } else s
    endFrame n (holdNow s) false s) s

/-- A port is lost (R219): contexts are STALLED, their frames end, and they count as switched. -/
def losePort (p : Fin 8) (s : State) : State :=
  let x := s.ports[p]
  match x.mode with
  | .locked =>
    let s := cutFrames p true s
    let s := s.modPort p fun x => { x with
      mode := .lost, since := s.elapsed, losses := x.losses + 1, attempts := 0, fifo := 0, bad := [], raising := none }
    let s := (openOf s p).foldl (fun s n => switchStream n (openGap n true s)) s
    post 0x2101 wide p s
  | .drain =>
    let s := cutFrames p true s
    let s := s.modPort p fun x => { x with losses := x.losses + 1, fifo := 0, bad := [] }
    post 0x2101 wide p (drainEnds p true s)
  | _ => s

/-- A stream becomes CLOSED (R233, R339): bindings and flows go, and an owed interval tag is written first (R221). -/
def closeStream (n : Fin 32) (s : State) : State :=
  let s := s.modStream n fun st => { st with mode := .closed, frame := none, staged := [], edges := [], gap := none }
  sweepWaits (endFlow 1 n s)

/-- Remove a stream's items from its owner's staged set (R310). -/
def unstage (n : Fin 32) (s : State) : State :=
  s.modEpochs (s.streams[n]).fn fun e => { e with
    items := e.items.filter fun i => match i with
      | .stream m _ => m != n
      | .port _ _ => true }

end Sys2Proof.Machine
end

