-- ==== Sys2Proof/Machine/LpFrames.lean ====
section
/-! DEFINITION. Frames in progress on LPDDR5X at an outage (R389, R390). -/

namespace Sys2Proof.Machine

/-- A frame of a stream goes to LPDDR5X staging now. -/
def streamOnLp (st : Stream) : Bool := (st.frame.map Frame.lp).getD false || st.staged.any Staged.copying

/-- A frame is in progress on LPDDR5X: stream staging, a staged frame not yet copied, or a hopper's entry. -/
def lpFrames (s : State) : Bool :=
  (allFin 32).any (fun n => streamOnLp s.streams[n]) ||
    (allFin 16).any fun i => (s.hoppers[i]).partialSeq.isSome && !(s.hoppers[i]).partialShed

/-- The input FIFO takes no more of a frame (R223). -/
def overflowFrame (n : Fin 32) (s : State) : State :=
  match (s.streams[n]).frame with
  | some f =>
    if f.stopped then s
    else post 0x210E (s.streams[n]).fn n (s.modStream n fun st => { st with
      frame := some { f with overflowed := true, stopped := true } })
  | none => s

/-- Frames in progress on LPDDR5X lose the rest of their data at their producers (R389, R390). -/
def cutLpFrames (s : State) : State :=
  let s := (allFin 32).foldl (fun s n =>
    if (((s.streams[n]).frame.map Frame.lp).getD false) then overflowFrame n s else s) s
  (allFin 16).foldl (fun s i =>
    if (s.hoppers[i]).partialSeq.isSome ∧ ¬ (s.hoppers[i]).partialShed then hopOverflow 0x6401 i s else s) s

end Sys2Proof.Machine
end

