-- ==== Sys2Proof/Machine/CamCmds.lean ====
section
/-! DEFINITION. Meanings of camera ports: lock and loss, packets, drains, staged frames, and the stream window (R208 to
R237). -/

namespace Sys2Proof.Machine

/-! ### Lock, loss and relock -/

/-- Gear G1. -/
abbrev gearOne : Nat := 1

/-- What a lock at the port's present gear gives (R216, R217, R232): below the configured gear the port is raised. -/
def lockHere (p : Fin 8) (s : State) : State :=
  let x := s.ports[p]
  let s := post 0x2001 wide p (s.modPort p fun x => { x with
    mode := .locked, locks := x.locks + 1, attempts := 0, lockNs := nowNs s, raising := none
    degraded := x.degraded && decide (x.gear < x.cfg.gear) })
  if x.gear < x.cfg.gear ∧ ¬ x.degraded then
    emit (.gearCommand p x.cfg.gear) (s.modPort p fun x => { x with
      mode := .acquire, gear := x.cfg.gear, raising := some s.elapsed
      since := if x.task = .none then s.elapsed else x.since })
  else
    match x.task with
    | .restart => post 0x2004 wide p s
    | .staged => post 0x2004 wide p (s.modPort p fun x => { x with task := .none })
    | _ => s.modPort p fun x => { x with task := .none }

/-- A port meets the lock criterion (R216, R220): in ACQUIRE, or within 100 ms of a relock attempt's start. -/
def portLocks (p : Fin 8) (s : State) : State :=
  let x := s.ports[p]
  match x.mode with
  | .acquire => lockHere p s
  | .lost => if x.attempts ≠ 0 ∧ s.elapsed ≤ x.attemptAt + ticksMs 100 then lockHere p s else s
  | _ => s

/-- PORT_LOCK (R216). -/
def execPortLock (dt : Nat) (p : Fin 8) (s : State) : Answer := .next (portLocks p (advance dt s))

/-- PORT_LOSS (R219). -/
def execPortLoss (dt : Nat) (p : Fin 8) (s : State) : Answer := .next (losePort p (advance dt s))

/-- The relock timer (R220): attempts count from the loss; odd ones acquire at the configured gear, even ones at G1. -/
def relockStarts (p : Fin 8) (s : State) : State :=
  let x := s.ports[p]
  let k := x.attempts.toNat + 1
  if x.mode = .lost ∧ x.since + k * ticksMs x.cfg.relockMs ≤ s.elapsed then
    s.modPort p fun x => { x with
      attempts := x.attempts + 1, attemptAt := s.elapsed, gear := if k % 2 = 1 then x.cfg.gear else gearOne }
  else s

/-- RELOCK_ATTEMPT (R220). -/
def execRelockAttempt (dt : Nat) (p : Fin 8) (s : State) : Answer := .next (relockStarts p (advance dt s))

/-- The relock at the configured gear fails (R217): the port relocks at G1 and stays there. -/
def raiseFails (p : Fin 8) (s : State) : State :=
  let x := s.ports[p]
  if x.mode = .acquire ∧ since s x.raising (ticksMs 100) then
    post 0x2002 wide p (s.modPort p fun x => { x with raising := none, gear := gearOne, degraded := true })
  else s

/-! ### Packets -/

/-- The slot that a port's vc_map gives a virtual channel (R209). -/
def slotOfVc (s : State) (p : Fin 8) (vc : Nat) : Option (Fin 4) :=
  if vc < 16 then (allFin 4).find? fun k => (s.ports[p]).cfg.vcMap[k] = vc else none

/-- A packet on an unmapped channel or of a type not opened (R236). -/
def strayPacket (p : Fin 8) (s : State) : State :=
  post 0x2109 wide p (s.modPort p fun x => { x with stray := x.stray + 1 })

/-- A packet for a CLOSED context (R209). -/
def closedPacket (p : Fin 8) (s : State) : State := s.modPort p fun x => { x with closed := x.closed + 1 }

/-- What a packet of a virtual channel is for: packets arrive in LOCKED and DRAIN; `f` takes one of a context that is not
CLOSED. -/
def packetFor (p : Fin 8) (vc : Nat) (f : Fin 32 → State → State) (s : State) : State :=
  match (s.ports[p]).mode with
  | .locked | .drain =>
    (match slotOfVc s p vc with
      | none => strayPacket p s
      | some k => if (s.streams[streamOf p k]).mode = .closed then closedPacket p s else f (streamOf p k) s)
  | _ => s

/-- A frame start (R112, R212, R232, R233): a draining port and a closing context accept none. -/
def frameStarts (p : Fin 8) (vc : Nat) (skew : Int) (s : State) : State :=
  packetFor p vc (fun n s =>
    if (s.ports[p]).mode = .locked ∧ (s.streams[n]).isOpen then beginFrame n (hold s (stampNear s skew)) s else s) s

/-- CSI2_FRAME_START (R212). -/
def execCsi2FrameStart (dt : Nat) (p : Fin 8) (vc : Nat) (skew : Int) (s : State) : Answer :=
  .next (frameStarts p vc skew (advance dt s))

/-- A packet that no frame in progress takes (R236): outside a frame in an open context of a LOCKED port. -/
def outsideFrame (n : Fin 32) (s : State) : State :=
  if (s.ports[portOf n]).mode = .locked ∧ (s.streams[n]).isOpen then post 0x2108 (s.streams[n]).fn n s else s

/-- Change the frame in progress. -/
def State.modFrame (s : State) (n : Fin 32) (g : Frame → Frame) : State :=
  s.modStream n fun st => { st with frame := st.frame.map g }

/-- Events of a packet's damage (R236). -/
def damage (n : Fin 32) (fate : PacketFate) (s : State) : State :=
  let fn := (s.streams[n]).fn
  if fate.unrecoverable then post 0x2102 fn n s
  else if fate.headerEcc then post 0x2103 fn n s
  else if fate.crcBad then post 0x2104 fn n s
  else s

/-- A pixel line that has arrived, cut or padded to width, or zeros where its packet was lost (R212, R236). -/
def pixelLine (n : Fin 32) (f : Frame) (payload : List Byte) (fate : PacketFate) (s : State) : State :=
  let fn := (s.streams[n]).fn
  if f.cfg.height ≤ f.lines.length then
    let s := if f.excess then s else post 0x2106 fn n s
    s.modFrame n fun f => { f with excess := true, partner := true }
  else
    let want := lineBytes f.cfg
    let lost := fate.unrecoverable || fate.headerEcc
    let wrong := !lost && payload.length != want
    let s := if wrong then post 0x2105 fn n s else s
    let line := if lost then List.replicate want 0 else padTo want (payload.take want)
    s.modFrame n fun f => { f with lines := line :: f.lines, corrupt := f.corrupt + b2n (lost || wrong || fate.crcBad) }

/-- An embedded line that has arrived (R212, R236): a packet that header ECC discards is no line. -/
def embeddedLine (n : Fin 32) (payload : List Byte) (fate : PacketFate) (s : State) : State :=
  if fate.unrecoverable then
    s.modFrame n fun f => { f with embedded := List.replicate payload.length 0 :: f.embedded, corrupt := f.corrupt + 1 }
  else if fate.headerEcc then s
  else s.modFrame n fun f => { f with embedded := payload :: f.embedded, corrupt := f.corrupt + b2n fate.crcBad }

/-- The bytes of a port's input FIFO (R222). -/
abbrev inputFifo : Nat := 262144

/-- The input FIFO holds `k` bytes (R222). -/
def Port.fill (k : Nat) (x : Port) : Port := { x with fifo := k, fifoHigh := max x.fifoHigh k }

/-- A long packet of an accepted type inside a frame (R212, R223, R329): with no room in the FIFO its line and the rest of
the frame are discarded. -/
def frameLine (n : Fin 32) (f : Frame) (dataType : Nat) (payload : List Byte) (fate : PacketFate) (s : State) : State :=
  if f.discard ∨ f.stopped then s
  else if inputFifo < (s.ports[portOf n]).fifo + payload.length then
    overflowFrame n (s.modPort (portOf n) (Port.fill inputFifo))
  else
    let s := damage n fate s
    let s := if dataType = 0x12 ∧ f.embedded.length < f.cfg.embedded then embeddedLine n payload fate s
      else pixelLine n f payload fate s
    hopLine n f.cfg.pitch fate.stages (s.modPort (portOf n) fun x => x.fill (x.fifo + payload.length))

/-- The types that a context accepts (R212). -/
def acceptsType (c : StreamCfg) (dataType : Nat) : Bool :=
  dataType == c.dataType || (dataType == 0x12 && c.embedded != 0)

/-- A long packet of a context (R212, R233, R236): in CLOSING the frame ends at this line's end. -/
def contextPacket (p : Fin 8) (dataType : Nat) (payload : List Byte) (fate : PacketFate) (n : Fin 32) (s : State) : State :=
  let st := s.streams[n]
  let c := match st.frame with
    | some f => f.cfg
    | none => st.cfg
  if ¬ acceptsType c dataType then strayPacket p s
  else match st.frame with
    | none => outsideFrame n s
    | some f =>
      let s := frameLine n f dataType payload fate s
      if st.mode = .closing then endFrame n (holdNow s) true s else s

/-- What the receiver counts of a long packet (R219, R222, R238): retransmissions, the unrecoverable packets of the last 1 ms, and what
the fabric has taken out of the FIFO since the packet before it. -/
def Port.receive (elapsed : Nat) (fate : PacketFate) (x : Port) : Port :=
  let recent := x.bad.filter fun t => decide (elapsed ≤ t + ticksMs 1)
  { x with
    retransmissions := x.retransmissions + BitVec.ofNat 32 fate.retransmissions
    unrecoverable := x.unrecoverable + (if fate.unrecoverable then 1 else 0)
    bad := if fate.unrecoverable then elapsed :: recent else recent
    fifo := x.fifo - fate.drained }

/-- A long packet (R212, R219, R222): more than per_limit unrecoverable ones within 1 ms lose the port. -/
def longPacket (p : Fin 8) (vc dataType : Nat) (payload : List Byte) (fate : PacketFate) (s : State) : State :=
  let listening := (s.ports[p]).mode == .locked || (s.ports[p]).mode == .drain
  let s := if listening then s.modPort p (Port.receive s.elapsed fate) else s
  let s := packetFor p vc (contextPacket p dataType payload fate) s
  if listening ∧ (s.ports[p]).cfg.perLimit < (s.ports[p]).bad.length then losePort p s else s

/-- CSI2_LONG_PACKET (R212). -/
def execCsi2LongPacket (dt : Nat) (p : Fin 8) (vc dataType : Nat) (payload : List Byte) (fate : PacketFate) (s : State) :
    Answer :=
  .next (longPacket p vc dataType payload fate (advance dt s))

/-- A frame end (R112, R227, R236). -/
def frameEnds (p : Fin 8) (vc : Nat) (skew : Int) (s : State) : State :=
  packetFor p vc (fun n s =>
    match (s.streams[n]).frame with
    | none => outsideFrame n s
    | some f =>
      let short := f.lines.length < f.cfg.height ∧ ¬ f.discard ∧ ¬ f.stopped
      let s := if short then post 0x2106 (s.streams[n]).fn n (s.modFrame n fun f => { f with partner := true }) else s
      endFrame n (hold s (stampNear s skew)) ((s.streams[n]).mode == .closing) s) s

/-- CSI2_FRAME_END (R227). -/
def execCsi2FrameEnd (dt : Nat) (p : Fin 8) (vc : Nat) (skew : Int) (s : State) : Answer :=
  .next (frameEnds p vc skew (advance dt s))

/-- The oldest unbound edge has become older than max_trigger_age_us (R215). -/
def edgeExpires (n : Fin 32) (s : State) : State :=
  let st := s.streams[n]
  match st.edges with
  | e :: rest =>
    if st.isOpen ∧ timeOf s e.at_ + (st.cfg.maxAge : Int) * 256000 < (now s).toNat then
      missEdge n (s.modStream n fun st => { st with edges := rest })
    else s
  | [] => s

/-- TRIGGER_EDGE_AGE_EXPIRY (R215). -/
def execTriggerEdgeAgeExpiry (dt : Nat) (n : Fin 32) (s : State) : Answer := .next (edgeExpires n (advance dt s))

/-! ### Drain and restart -/

/-- A context of the port still has its frame in progress. -/
def portBusy (s : State) (p : Fin 8) : Bool := (openOf s p).any fun n => (s.streams[n]).frame.isSome

/-- PORT_DRAIN_END (R232). -/
def execPortDrainEnd (dt : Nat) (p : Fin 8) (s : State) : Answer :=
  let s := advance dt s
  .next (if (s.ports[p]).mode = .drain ∧ portBusy s p = false then drainEnds p false s else s)

/-- F of R232: the longest frame period among the port's open contexts, in ticks. -/
def longestPeriod (s : State) (p : Fin 8) : Nat :=
  ((openOf s p).map fun n => periodTicks (s.streams[n]).cfg).foldl max 0

/-- FE has not arrived within F (R232). -/
def drainCuts (p : Fin 8) (s : State) : State :=
  if (s.ports[p]).mode = .drain ∧ (s.ports[p]).since + longestPeriod s p ≤ s.elapsed then cutFrames p false s else s

/-- DRAIN_FRAME_TIMEOUT (R232). -/
def execDrainFrameTimeout (dt : Nat) (p : Fin 8) (s : State) : Answer := .next (drainCuts p (advance dt s))

/-- A restart that has locked is told so (R232). -/
def restartLocked (p : Fin 8) (s : State) : State :=
  match (s.ports[p]).task, (s.ports[p]).mode with
  | .restart, .locked | .restart, .lost =>
    hamperDone 0x0203 p stOk 0 (s.modPort p fun x => { x with task := .none })
  | _, _ => s

/-- A restart misses its 300 ms (R232): the port continues under R220, or stays OFF where it was disabled. -/
def restartMisses (p : Fin 8) (s : State) : State :=
  let x := s.ports[p]
  if (x.mode = .acquire ∨ x.mode = .off) ∧ (x.task = .restart ∨ x.task = .staged) ∧ x.since + ticksMs 300 ≤ s.elapsed then
    hamperDone 0x0203 p stTimeout 0 (s.modPort p fun x => { x with
      mode := if x.mode = .off then .off else .lost, since := s.elapsed, attempts := 0, raising := none, task := .none })
  else s

/-- PORT_RESTART_DONE (R232). -/
def execPortRestartDone (dt : Nat) (p : Fin 8) (s : State) : Answer :=
  .next (restartMisses p (restartLocked p (advance dt s)))

/-! ### Staged frames -/

/-- A staged frame is copied to its slot (R226, R397): lines whose burst could not be read are zeros for class S, and the
frame is shed otherwise. The tags behind it follow (R307). -/
def stagedCopied (n : Fin 32) (read : StagedRead) (s : State) : State :=
  match (s.streams[n]).staged with
  | [] => s
  | x :: rest =>
    let bad := (List.range x.lines.length).filter read.badLines.contains
    let s := correctedReads .lpddr read.corrected s
    let s := if bad.isEmpty then s else uncorrectable read.address 0x6102 n s
    let s := s.modStream n fun st => { st with staged := rest }
    if bad.isEmpty then putWaiting n (putTag n { x with copying := false } s)
    else if x.cfg.cls = .s then
      let lines := (List.range x.lines.length).map fun i =>
        if bad.contains i then List.replicate x.cfg.pitch 0 else x.lines.getD i []
      let t := { x.tag with flags := x.tag.flags ||| tCorrupt, crc := crc32c lines.flatten }
      putWaiting n (putTag n { x with
        kind := .frame true, copying := false, tag := t, lines := lines, corrupt := x.corrupt + bad.length } s)
    else
      putWaiting n (putTag n { x with kind := .shed, copying := false, tag := x.tag.asShed, lines := [], corrupt := 0 }
        (countShed x.tag.fn s))

/-- STAGED_FRAME_COPY_DONE (R226). -/
def execStagedFrameCopyDone (dt : Nat) (n : Fin 32) (read : StagedRead) (s : State) : Answer :=
  .next (stagedCopied n read (advance dt s))

/-! ### The stream window -/

/-- A write of STREAM_HEAD (R98, R226, R308). With every slot held by an unreleased tag, tail equals head and the whole
ring is unread. -/
def writeStreamHead (fn : Fn) (n : Fin 32) (v : Word) (s : State) : State :=
  let st := s.streams[n]
  let h := v.toNat % 1024
  let refuse := post 0x2120 fn n s
  match st.ring with
  | none => refuse
  | some r =>
    let step := (h + r.slots - st.head) % r.slots
    let held := (st.tail + r.slots - st.head) % r.slots
    if h < r.slots ∧ (step ≤ held ∨ (held = 0 ∧ ¬ st.unreleased.isEmpty)) then
      s.modStream n fun st =>
        let point := st.release + BitVec.ofNat 32 step
        { st with head := h, release := point, unreleased := st.unreleased.filter fun q => 0 ≤ (q - point).toInt }
    else refuse

/-- STREAM_HEAD_WRITE (R308). -/
def execStreamHeadWrite (dt : Nat) (fn : Fn) (n : Fin 32) (v : Word) (s : State) : Answer :=
  .next (writeRegister fn (0x8008 + 0x20 * n) (writeStreamHead fn n v) (advance dt s))

/-- A full read of STREAM_DROPS (R237). -/
def readDrops (n : Fin 32) (s : State) : Word × State :=
  ((s.streams[n]).drops, s.modStream n fun st => { st with drops := 0 })

/-- STREAM_DROPS_READ (R237). -/
def execStreamDropsRead (dt : Nat) (fn : Fn) (n : Fin 32) (s : State) : Answer :=
  .next (readRegister fn (0x8010 + 0x20 * n) (readDrops n) (advance dt s))

/-- A full read of STREAM_ERRS (R237). -/
def readErrs (n : Fin 32) (s : State) : Word × State :=
  ((s.streams[n]).errs, s.modStream n fun st => { st with errs := 0 })

/-- STREAM_ERRS_READ (R237). -/
def execStreamErrsRead (dt : Nat) (fn : Fn) (n : Fin 32) (s : State) : Answer :=
  .next (readRegister fn (0x8014 + 0x20 * n) (readErrs n) (advance dt s))

/-- The stream window without a read effect (R237). -/
def streamRegister (s : State) (off : Nat) : Option Word :=
  if off < 0x8000 ∨ 0x8400 ≤ off then none
  else (entryAt 32 0x20 off).bind fun n =>
    let st := s.streams[n]
    match off % 0x20 with
    | 0x00 => some (packed [(9, b2n ((s.ports[portOf n]).mode == .locked)), (8, b2n st.quiet), (0, streamCode s n)])
    | 0x04 => some st.lastSeq
    | 0x08 => some (BitVec.ofNat 32 st.head)
    | 0x0C => some (BitVec.ofNat 32 st.tail)
    | 0x10 => some st.drops
    | 0x14 => some st.errs
    | _ => none

end Sys2Proof.Machine
end

