-- ==== Sys2Proof/Machine/WitOps.lean ====
section
/-! DEFINITION. The witness sampler: its rings, trigger units, captures and records (R439 to R457), and the delivery of
trigger events to hoppers, sampler and wait slots (R291). -/

namespace Sys2Proof.Machine

/-- Change the sampler. -/
def State.modWit (s : State) (g : Wit → Wit) : State := { s with wit := g s.wit }

/-! ### Geometry -/

/-- The enabled inputs of an ADC, ascending (R439). -/
def adcInputs (ain : BitVec 16) (a : Nat) : List Nat := ((List.range 8).map (· + 8 * a)).filter ain.getLsbD

/-- n_a of an ADC. -/
def WitCfg.inputs (c : WitCfg) (a : Nat) : Nat := (adcInputs c.ain a).length

/-- Reduction is in use (R441). -/
def WitCfg.reduced (c : WitCfg) : Bool := decide (1 < c.reduce) && c.ain != 0

/-- Ticks per place of the analog ring: G with reduction, otherwise 1 (R441). -/
def WitCfg.span (c : WitCfg) : Nat := if c.reduced then c.reduce * max (c.inputs 0) (c.inputs 1) else 1

/-- Bytes per place of the analog ring. -/
def WitCfg.placeBytes (c : WitCfg) : Nat :=
  if c.reduced then 4 * (c.inputs 0 + c.inputs 1)
  else 2 * ((if c.inputs 0 = 0 then 0 else 1) + (if c.inputs 1 = 0 then 0 else 1))

/-- Places of the analog ring; 2^32 − 1 without an analog input (R452). -/
def WitCfg.places (c : WitCfg) : Nat :=
  if c.placeBytes = 0 then 2 ^ 32 - 1 else (c.bytes - c.edgeBytes) / c.placeBytes

/-- The capacity of the analog ring in ticks (R444, R452). -/
def WitCfg.capacity (c : WitCfg) : Nat := min (2 ^ 32 - 1) (c.places * c.span)

/-- t_c in 1/256 ns. -/
def WitCfg.period (c : WitCfg) : Int := c.div * 50 * 256

/-- Edge records that the edge ring holds. -/
def WitCfg.edgePlaces (c : WitCfg) : Nat := c.edgeBytes / 8

/-! ### The held capture -/

/-- The number of the first held tick of a capture that its trigger has placed (R451): data begins with a whole place. -/
def Wit.firstPlace (w : Wit) : Option WitTick :=
  match w.trig with
  | none => w.ticks.head?
  | some t => w.ticks.find? fun e => decide (t.tick - w.arm.pre + 1 < (e.n + w.cfg.span : Nat))

/-- Ticks before the trigger that the capture holds. -/
def Wit.preTicks (w : Wit) : Nat :=
  match w.trig, w.firstPlace with
  | some t, some e => (t.tick - e.n + 1).toNat
  | _, _ => 0

/-- The last post tick is stored (R451). -/
def Wit.complete (w : Wit) : Bool :=
  match w.trig, w.ticks.getLast? with
  | some t, some e => decide (t.tick + w.arm.post < (e.n + w.cfg.span : Nat))
  | _, _ => false

/-- Write an entry to the route's queue (R456). -/
def witEntry (status flags count : Nat) (s : State) : State :=
  match s.wit.route with
  | some r => putEntry r.queue ⟨kWitness, 0, s.wit.capture, status, flags, BitVec.ofNat 32 count⟩ s
  | none => s

/-- Analog words of the held capture, as bytes. -/
def Wit.analogBytes (w : Wit) : List Byte := w.ticks.flatMap fun e => e.words.flatMap fun v => leBytes 2 v.toNat

/-- An edge record against t0 (R443). -/
def edgeBytes (s : State) (t0 : Held) (e : WitEdge) : List Byte :=
  leBytes 8 (((timeOf s e.at_ - timeOf s t0) / 8).toNat * 256 + e.line * 16 + 4 * b2n e.dense + b2n e.level)

/-- record_bytes of the held capture (R454). -/
def Wit.recordBytes (w : Wit) : Nat :=
  let a := w.analogBytes.length
  128 + (a + 7) / 8 * 8 + 8 * w.edges.length

/-- The capture's end (R451, R453, R457): the span is fixed, the entry written and a delivery begun. -/
def witEnd (mode : WitMode) (status flags : Nat) (s : State) : State :=
  let w := s.wit
  let kept := match w.trig, w.firstPlace with
    | some t, some e => w.ticks.filter fun x => decide (e.n ≤ x.n) && decide ((x.n : Int) ≤ t.tick + w.arm.post)
    | some _, none => []
    | none, _ => w.ticks
  let inSpan (x : WitEdge) : Bool := match kept.head?, kept.getLast? with
    | some a, some b => decide (timeOf s a.at_ ≤ timeOf s x.at_) &&
        decide (timeOf s x.at_ < timeOf s b.at_ + w.cfg.span * w.cfg.period)
    | _, _ => false
  let s := s.modWit fun w => { w with
    mode := mode, ticks := kept, edges := w.edges.filter inSpan, group := none, extremes := []
    endAt := some (hold s (now s)), endMeas := measIndex s, aborted := status == stAborted
    delivered := false, delivering := w.route.isSome }
  witEntry status flags s.wit.recordBytes s

/-- A capture stops with an overflow (R453). -/
def witOverflow (cause event : Nat) (s : State) : State :=
  let s := post event wide wide (s.modWit fun w => { w with overflow := true, cause := cause })
  witEnd .stopped stOverflow (fLast ||| fOverflow) s

/-! ### Triggers -/

/-- A trigger reaches the sampler (R449 to R451): `chosen` is whether the arm's masks select it, `event` the hopper event
number that it has. -/
def witTrigger (chosen : Bool) (code : Nat) (stamp : Held) (flags event : Nat) (s : State) : State :=
  if ¬ chosen then s
  else
    let w := s.wit
    let t := timeOf s stamp
    let t0 := (w.ticks.head? <|> w.group).map fun e => timeOf s e.at_
    let late : Bool := match t0 with
      | some a => decide (t < a)
      | none => true
    let tick : Int := match w.tickAt with
      | some a => (w.tick : Int) - 1 + (t - timeOf s a) / max 1 w.cfg.period
      | none => 0
    let trig : WitTrig := ⟨code, stamp, flags, tick, event, measIndex s, snapOf s w.cfg.pos stamp, s.elapsed⟩
    if w.mode = .armed ∧ w.disarm = none ∧ ¬ late then
      let s := s.modWit fun w => { w with mode := .triggered, trig := some trig }
      let s := s.modWit fun w => { w with preShort := decide (w.preTicks < w.arm.pre) }
      witEntry stOk 0 s.wit.preTicks s
    else
      match w.mode, w.trig with
      | .triggered, some old =>
        if old.decided = s.elapsed ∧ ¬ late ∧ w.disarm = none ∧
            (t < timeOf s old.stamp ∨ (t = timeOf s old.stamp ∧ code < old.code)) then
          s.modWit fun w => { w with trig := some trig }
        else post 0x7105 wide wide (s.modWit fun w => { w with ignored := w.ignored + 1 })
      | _, _ => post 0x7105 wide wide (s.modWit fun w => { w with ignored := w.ignored + 1 })

/-- A trigger event reaches hoppers, sampler and wait slots (R291, R324, R421, R449). `flags` holds LATE in bit 0 and
INFERRED in bit 1. -/
def publishMask (mask : Fin 16 → Bool) (chosen : Bool) (code : Nat) (stamp : Held) (flags : Nat) (s : State) : State :=
  let (starts, s) := hopTriggerMask mask code stamp flags s
  slotBump 6 code (witTrigger chosen code stamp flags (if starts.isEmpty then 0 else s.hopEvent) s)

/-- The hoppers whose trigger_mask names a code (R324). -/
def hopMask (s : State) (code : Nat) (i : Fin 16) : Bool :=
  (s.hoppers[i]).stream.isSome && (s.hoppers[i]).trigMask.getLsbD code

/-- A trigger event of a code. -/
def publish (code : Nat) (stamp : Held) (flags : Nat) (s : State) : State :=
  let chosen := if 0x50 ≤ code ∧ code ≤ 0x57 then s.wit.arm.units.getLsbD (code - 0x50) else s.wit.arm.codes.getLsbD code
  publishMask (hopMask s code) chosen code stamp flags s

/-- TSL_TELLTALE, for the tell-tales that a frame has switched to ON or BLINK (R324, R449). -/
def publishTelltale (changed : BitVec 64) (stamp : Held) (s : State) : State :=
  if changed = 0 then s
  else
    publishMask (fun i => hopMask s 0x40 i && ((s.hoppers[i]).tslMask &&& changed) != 0)
      (s.wit.arm.codes.getLsbD 0x40 && (s.wit.arm.tsl &&& changed) != 0) 0x40 stamp 0 s

/-! ### Trigger units -/

/-- The qualifier of a width in 1/256 ns (R447). -/
def WitUnit.meets (u : WitUnit) (width : Int) : Bool :=
  let lo : Int := u.tMin * 256
  let hi : Int := u.tMax * 256
  if u.tMax = 0 then true
  else if u.outside then decide (width < lo) || decide (hi < width)
  else decide (lo ≤ width) && decide (width ≤ hi)

/-- A sample or filtered level reaches a unit (R447): the new track, and whether the unit fires at it. `analog` is
whether the source is an AIN, where TIMEOUT is decided at samples. -/
def WitUnit.feed (s : State) (u : WitUnit) (analog isHigh isLow : Bool) (h : Held) (t : WitTrack) : WitTrack × Bool :=
  let gap (a : Held) : Int := timeOf s h - timeOf s a
  let rise := isHigh && t.above == some false
  let fall := isLow && t.above == some true
  let rose := if rise then some h else if fall then none else t.rose
  let timeout := u.kind == 4 && analog && !isLow && (rise || !t.timedOut) &&
    (match rose with
      | some r => decide ((u.tMin : Int) * 256 ≤ gap r)
      | none => false)
  let fires := match u.kind with
    | 1 => rise
    | 2 => fall && (match t.rose with
      | some r => u.meets (gap r)
      | none => false)
    | 3 => isLow && (match t.runt with
      | some r => u.meets (gap r)
      | none => false)
    | 4 => timeout
    | 5 => isHigh && (match t.low with
      | some l => u.meets (gap l)
      | none => false)
    | _ => false
  ({ above := if isHigh then some true else if isLow then some false else t.above
     rose := rose
     low := if isLow then some h else if isHigh then none else t.low
     wasLow := isLow
     runt := if isHigh || isLow then none else if t.wasLow then some h else t.runt
     timedOut := (if rise then false else t.timedOut) || timeout }, fires)

/-- A unit's track. -/
def setTrack (k : Nat) (t : WitTrack) (s : State) : State :=
  match fin? 8 k with
  | some i => s.modWit fun w => { w with tracks := w.tracks.set i t }
  | none => s

/-- A sample of an analog input reaches the units that watch it (R447, R448). -/
def feedAnalog (input code : Nat) (h : Held) (s : State) : State :=
  (allFin 8).foldl (fun s k =>
    match s.wit.cfg.units[k.val]? with
    | some u =>
      if u.kind ≠ 0 ∧ u.source = input then
        let c := if u.fall then 4095 - code else code
        let lo := if u.fall then 4095 - u.hi else u.lo
        let hi := if u.fall then 4095 - u.lo else u.hi
        let (t, fires) := u.feed s true (decide (hi ≤ c)) (decide (c ≤ lo)) h s.wit.tracks[k]
        let s := setTrack k t s
        if fires then publish (0x50 + k) h 0 s else s
      else s
    | none => s) s

/-- A filtered change of a DW line reaches the units that watch it (R447, R448). -/
def feedDigital (line : Nat) (level : Bool) (h : Held) (s : State) : State :=
  (allFin 8).foldl (fun s k =>
    match s.wit.cfg.units[k.val]? with
    | some u =>
      if u.kind ≠ 0 ∧ u.source = 16 + line then
        let lv := level != u.fall
        let (t, fires) := u.feed s false lv (!lv) h s.wit.tracks[k]
        let s := setTrack k t s
        if fires then publish (0x50 + k) h 0 s else s
      else s
    | none => s) s

/-! ### Storing -/

/-- Raw levels of DW15–DW0. -/
def Wit.rawLevel (w : Wit) : BitVec 16 :=
  (allFin 16).foldl (fun (v : BitVec 16) (i : Fin 16) =>
    if (w.raw[i]).level then v ||| BitVec.ofNat 16 (2 ^ i.val) else v) 0

/-- The words of one tick, or at the end of a group its pairs (R441). -/
def analogWord (input code : Nat) : BitVec 16 := BitVec.ofNat 16 (4096 * input + code)

/-- The extremes of a group with one more sample. -/
def widen (input code : Nat) : List (Nat × Nat × Nat) → List (Nat × Nat × Nat)
  | [] => [(input, code, code)]
  | (i, a, b) :: rest => if i = input then (i, min a code, max b code) :: rest else (i, a, b) :: widen input code rest

/-- A place enters the analog ring, over the oldest when it is full (R446); its words go to the ring in Millpond (log
entry 20). -/
def storePlace (e : WitTick) (s : State) : State :=
  let c := s.wit.cfg
  let s := millWrite (dynAddr s.weir 7 0 + s.wit.analogHead) (e.words.flatMap fun v => leBytes 2 v.toNat) s
  s.modWit fun w => { w with
    ticks := (w.ticks ++ [e]).drop (w.ticks.length + 1 - c.places)
    analogHead := if c.placeBytes = 0 then 0 else (w.analogHead + c.placeBytes) % (c.places * c.placeBytes) }

/-- A capture tick's samples are stored (R441, R446). -/
def storeTick (n : Nat) (h : Held) (samples : List (Nat × Nat)) (s : State) : State :=
  let w := s.wit
  if w.cfg.reduced then
    let g := w.group.getD ⟨n, h, w.rawLevel, []⟩
    let ex := samples.foldl (fun l x => widen x.1 x.2 l) w.extremes
    if n + 1 = g.n + w.cfg.span then
      let pair (i : Nat) : List (BitVec 16) := match ex.find? fun x => x.1 = i with
        | some (_, a, b) => [analogWord i a, analogWord i b]
        | none => []
      let words := (adcInputs w.cfg.ain 0 ++ adcInputs w.cfg.ain 1).flatMap pair
      storePlace { g with words := words } (s.modWit fun w => { w with group := none, extremes := [] })
    else s.modWit fun w => { w with group := some g, extremes := ex }
  else storePlace ⟨n, h, w.rawLevel, samples.map fun x => analogWord x.1 x.2⟩ s

/-- The raw form of a circulating edge record in Millpond is not stated: free bytes at the ring's head (log entry 20). -/
def rawEdge (s : State) : State :=
  let c := s.wit.cfg
  if c.edgeBytes = 0 then s
  else
    let (v, s) := draw s
    let s := millWrite (dynAddr s.weir 7 0 + (c.bytes - c.edgeBytes) + s.wit.edgeHead) (leBytes 8 v) s
    s.modWit fun w => { w with edgeHead := (w.edgeHead + 8) % c.edgeBytes }

/-- An edge record enters the edge ring (R443, R446, R453). -/
def storeEdge (e : WitEdge) (s : State) : State :=
  let s := rawEdge s
  let w := s.wit
  let full := decide (w.cfg.edgePlaces ≤ w.edges.length)
  let t0 := (w.firstPlace <|> w.group).map fun x => timeOf s x.at_
  match w.edges with
  | old :: rest =>
    if full then
      if w.mode = .triggered ∧ (t0.map fun a => decide (a ≤ timeOf s old.at_)).getD false then witOverflow 3 0x7103 s
      else s.modWit fun w => { w with edges := rest ++ [e], edgeLost := some old.at_ }
    else s.modWit fun w => { w with edges := w.edges ++ [e] }
  | [] =>
    if full then s.modWit fun w => { w with edgeLost := some e.at_ }
    else s.modWit fun w => { w with edges := [e] }

/-- The capture stores (R438). -/
def Wit.storing (w : Wit) : Bool := (w.mode == .armed || w.mode == .triggered) && w.disarm.isNone

/-! ### The record -/

/-- Inputs that gave code 0 or 4 095 in the held span (R454). -/
def Wit.clipped (w : Wit) : Nat :=
  w.ticks.foldl (fun m e => e.words.foldl (fun m v =>
    if v.toNat % 4096 = 0 ∨ v.toNat % 4096 = 4095 then m ||| 2 ^ (v.toNat / 4096) else m) m) 0

/-- The 128-byte header (R454). -/
def witHeader (s : State) : List Byte :=
  let w := s.wit
  let first := w.ticks.head?
  let t0 := first.map fun e => release s e.at_
  let trig := w.trig.map fun t => release s t.stamp
  let short := match first, w.edgeLost with
    | some e, some l => decide (timeOf s e.at_ ≤ timeOf s l)
    | _, _ => false
  let sampled := match w.trig with
    | some t => if 0x50 ≤ t.code ∧ t.code ≤ 0x57 then (match w.cfg.units[t.code - 0x50]? with
        | some u => if u.source < 16 then 4 else 8
        | none => 0) else if 0x10 ≤ t.code ∧ t.code ≤ 0x2B then 8 else 0
    | none => 0
  let analog := w.analogBytes.length
  let edgeOff := 128 + (analog + 7) / 8 * 8
  let flags := b2n w.overflow + 2 * b2n w.aborted + 4 * b2n w.preShort + 8 * b2n short + 16 * b2n (w.clipped != 0) +
    32 * b2n (w.dense != 0) + 64 * b2n ((t0.map Prod.snd).getD false) + 128 * b2n (w.complete && !w.aborted)
  let pos := match w.trig, fin? 4 w.cfg.pos with
    | some t, some ch => (match t.snap with
      | some x => (snapPos s ch x, x.vel)
      | none => (0, 0))
    | _, _ => (0, 0)
  let body := record [(1, 1), (1, flags), (1, w.cause), (1, (w.trig.map WitTrig.meas).getD w.endMeas),
    (4, w.capture.toNat), (1, (w.trig.map WitTrig.code).getD 0xFF), (1, (w.trig.map WitTrig.flags).getD 0 % 4 + sampled),
    (2, w.cfg.div), (4, w.cfg.reduce), (8, (t0.map fun x => stampNs x.1).getD 0), (1, (t0.map fun x => stampFrac x.1).getD 0),
    (1, (trig.map fun x => stampFrac x.1).getD 0), (2, w.cfg.ain.toNat), (2, w.cfg.dw.toNat),
    (2, (w.trig.map WitTrig.event).getD 0), (8, (trig.map fun x => stampNs x.1).getD 0),
    (4, (match w.trig, first with
      | some t, some e => (t.tick - e.n).toNat
      | _, _ => 0)), (4, w.ticks.length * w.cfg.span), (4, w.arm.pre), (4, w.arm.post), (4, analog / 2),
    (4, w.edges.length), (2, (first.map fun e => e.level.toNat).getD w.rawLevel.toNat), (2, min 65535 w.glitches),
    (2, min 65535 w.dense), (2, w.clipped), (8, (w.endAt.map fun h => heldNs s h).getD 0), (8, sval 8 pos.1),
    (4, sval 4 pos.2), (1, w.cfg.pos), (3, 0), (4, 128), (4, edgeOff), (4, w.recordBytes), (16, 0)]
  body ++ leBytes 4 (crc32c body)

/-- The capture record (R454). -/
def witRecord (s : State) : List Byte :=
  let w := s.wit
  let analog := w.analogBytes
  let t0 := (w.ticks.head?.map WitTick.at_).getD Held.zero
  witHeader s ++ padTo ((analog.length + 7) / 8 * 8) analog ++ w.edges.flatMap (edgeBytes s t0)

/-- Held data goes, and the sampler is CONFIGURED (R457). -/
def witDiscard (s : State) : State :=
  s.modWit fun w => { w with
    mode := .configured, ticks := [], edges := [], group := none, extremes := [], trig := none, edgeLost := none
    delivering := false, delivered := false, preShort := false, endAt := none }

end Sys2Proof.Machine
end

