-- ==== Sys2Proof/Machine/TrigOps.lean ====
section
/-! DEFINITION. Trigger outputs, cross lines and external inputs: fires, pulses, drive and assertions (R285 to R292). -/

namespace Sys2Proof.Machine

/-- Change the trigger block, an output, a cross line, an external input. -/
def State.modTrigs (s : State) (g : Trigs → Trigs) : State := { s with trigs := g s.trigs }
def State.modTrig (s : State) (k : Fin 12) (g : Trig → Trig) : State :=
  s.modTrigs fun t => { t with outs := vmod t.outs k g }
def State.modXtr (s : State) (l : Fin 4) (g : Xtr → Xtr) : State := s.modTrigs fun t => { t with xtr := vmod t.xtr l g }
def State.modExt (s : State) (e : Fin 2) (g : Ext → Ext) : State := s.modTrigs fun t => { t with ext := vmod t.ext e g }

/-- LATE and INFERRED as a trigger event carries them (R291, R292). -/
def trigFlags (late inferred : Bool) : Nat := b2n late + 2 * b2n inferred

/-- `n` ns have passed since a tick. -/
def sinceNs (s : State) (from_ n : Nat) : Bool := decide (from_ * 5 + n ≤ s.elapsed * 5)

/-! ### Outputs -/

/-- Device time at an elapsed tick that is not after now, in 1/256 ns. -/
def timeAtTick (s : State) (k : Nat) : Int :=
  ((s.clk.dev.toNat : Int) - tickIncrement s.clk.fantail.rate * ((s.elapsed - k : Nat) : Int)) / 2 ^ 32

/-- Where the leading edge that a fire makes without delay_ns may fall (R287): from `least` ns after the instant `from_`, in
1/256 ns, and for `span` ns from there. -/
structure Lead where
  from_ : Int
  least : Nat
  span : Nat
  deriving DecidableEq, Repr

/-- The bound of a fire on this tick. -/
def leadNow (s : State) : Lead := ⟨(now s).toNat, 0, 40⟩

/-- The leading edge of an output's pulse reaches the ball: it is a trigger event, a sync edge and an uplink event, with the flags of
every fire of its tick (R214, R215, R285, R286, R291, R292). Its own stamp is device time at the tick on which delay_ns had run,
plus the lead (R287). -/
def ballEdge (k : Fin 12) (s : State) : State :=
  let t := s.trigs.outs[k]
  let h := hold s (BitVec.ofInt 72 (timeAtTick s t.since + t.lead))
  let s := tdcNote (.trig k) 0 (s.modTrig k fun t => { t with due := false })
  let s := uplinkEdges k (streamEdges k h t.late t.inferred s)
  publish (0x20 + k) h (trigFlags t.late t.inferred) s

/-- A fire reaches an output (R285, R286): whether it is merged. With delay_ns 0 the output is in PULSE at once; TRIG_DELAY_END gives
the ball its edge, once every fire of the tick has come. Fires of one tick are one fire. -/
def fireTrig (k : Fin 12) (late inferred : Bool) (lead : Lead) (s : State) : Bool × State :=
  let t := s.trigs.outs[k]
  if ¬ t.cfg.on then (false, s)
  else if t.mode = .idle then
    let (v, s) := draw s
    let edge : Int := lead.from_ + 256 * lead.least + 8 * (v % (32 * lead.span + 1) : Nat)
    (false, s.modTrig k fun t => { t with
      mode := if t.cfg.delay = 0 then .pulse else .delay
      firedAt := s.elapsed, since := s.elapsed, late := late, inferred := inferred, lead := edge - (now s).toNat, due := true })
  else if t.firedAt = s.elapsed then
    (false, s.modTrig k fun t => { t with late := t.late || late, inferred := t.inferred || inferred })
  else if t.mergedAt = some s.elapsed then (true, s)
  else
    let s := s.modTrig k fun t => { t with mergedAt := some s.elapsed }
    (true, post 0x3203 wide k (s.modTrigs fun x => { x with merged := x.merged + 1 }))

/-- A fire reaches every output whose masks name its source: the outputs that merged it. -/
def fireTrigs (mask : TrigCfg → Bool) (late inferred : Bool) (lead : Lead) (s : State) : List (Fin 12) × State :=
  (allFin 12).foldl (fun (r : List (Fin 12) × State) k =>
    if mask (r.2.trigs.outs[k]).cfg then
      let (m, s) := fireTrig k late inferred lead r.2
      (if m then r.1 ++ [k] else r.1, s)
    else r) ([], s)

/-! ### Cross lines -/

/-- The line is driven low (R289). -/
def driveNow (l : Fin 4) (s : State) : State :=
  tdcNote (.xtr l) 0 (s.modXtr l fun x => { x with
    driving := true, waiting := false, low := true, since := s.elapsed, edge := none, released := none })

/-- A fire is joined to the assertion already on the line (R289). -/
def joinLine (l : Fin 4) (s : State) : State :=
  post 0x3205 wide l (s.modXtr l fun x => { x with joined := true, waiting := false })

/-- A drive request reaches a line (R289): whether it is joined. -/
def driveXtr (l : Fin 4) (s : State) : Bool × State :=
  let x := s.trigs.xtr[l]
  if ¬ x.cfg.drive ∨ x.stuck ∨ x.driving ∨ x.waiting then (false, s)
  else if x.low then (true, joinLine l s)
  else if sinceNs s x.since x.cfg.guardNs then (false, driveNow l s)
  else (false, s.modXtr l fun x => { x with waiting := true })

/-- A fire reaches every cross line whose drive sources name it. -/
def driveXtrs (mask : XtrCfg → Bool) (s : State) : List (Fin 4) × State :=
  (allFin 4).foldl (fun (r : List (Fin 4) × State) l =>
    if mask (r.2.trigs.xtr[l]).cfg then
      let (j, s) := driveXtr l r.2
      (if j then r.1 ++ [l] else r.1, s)
    else r) ([], s)

/-- A received assertion (R285, R288, R291): it fires outputs and is a trigger event. -/
def assertion (l : Fin 4) (h : Held) (lead : Lead) (s : State) : State :=
  publish (0x10 + l) h 0 (fireTrigs (fun c => c.xtrMask.getLsbD l) false false lead s).2

/-- A line whose filter runs has stayed low for min_ns (R288); one that fell within guard_ns of an assertion's end is
merged into it (R295). -/
def takeAssertion (l : Fin 4) (s : State) : State :=
  let x := s.trigs.xtr[l]
  match x.edge with
  | none => s
  | some h =>
    let s := s.modXtr l fun x => { x with edge := none }
    if x.close then post 0x3306 wide l s else assertion l h ⟨timeOf s h, x.cfg.minNs, 40⟩ s

/-- An active edge of an external input that has lasted min_ns (R285, R288, R289, R291). -/
def extFires (e : Fin 2) (h : Held) (s : State) : State :=
  let s := s.modExt e fun x => { x with edge := none }
  let s := (fireTrigs (fun c => c.extMask.getLsbD e) false false ⟨timeOf s h, (s.trigs.ext[e]).minNs, 40⟩ s).2
  publish (0x14 + e) h 0 (driveXtrs (fun c => c.extMask.getLsbD e) s).2

end Sys2Proof.Machine
end

