-- ==== Sys2Proof/Machine/CmpOps.lean ====
section
/-! DEFINITION. Comparators: crossings, fires, skips and records (R273 to R284, R293). -/

namespace Sys2Proof.Machine

/-- Change one comparator. -/
def State.modCmp (s : State) (n : Fin 16) (g : Cmp → Cmp) : State := { s with cmps := vmod s.cmps n g }

/-- The comparator waits for its source (R273). -/
def Cmp.live (c : Cmp) : Bool := c.mode == .armed || c.mode == .held

/-! ### Values and crossings -/

/-- The comparison value of a position source for fire mode EDGE (R275): 4096 × L, or P of a serial kind. -/
def edgeValue (s : State) (ch : Fin 4) : Int :=
  let p := s.pos[ch]
  if p.kind.serial then p.sampled
  else match p.points with
    | x :: _ => wrapS 60 (4096 * x.loc)
    | [] => p.heldP

/-- The comparison value now (R275, R276, R293): INTERPOLATED acts as EDGE while the channel has no period estimate or stands
still. -/
def cmpValue (s : State) (c : Cmp) : Int :=
  match fin? 4 c.source with
  | some ch =>
    let p := s.pos[ch]
    if c.interp && (p.kind.serial || p.moving s (now s).toNat) then pNow s ch else edgeValue s ch
  | none => (nowNs s).toNat

/-- The direction of motion of a channel (R280): of the last counted event, or of a serial kind's last change. -/
def motion (p : Pos) : Option Bool :=
  if p.fresh then none
  else if p.kind.serial then p.serialDir
  else (p.points.head?).bind PosPoint.fwd

/-- What a move of the comparison value crosses: lattice points or targets passed, the last of them, and the grid's next
target (for EITHER, the point that fired last). -/
structure Crossing where
  points : Nat
  last : Int
  next : Int
  deriving DecidableEq, Repr

/-- The first and last lattice point T0 + k × pitch in (a, b], if any (R277). -/
def latticeIn (t0 : Int) (pitch : Nat) (a b : Int) : Option (Int × Int) :=
  let p : Int := max 1 pitch
  let first := t0 + ((a - t0) / p + 1) * p
  let last := t0 + (b - t0) / p * p
  if a < first ∧ first ≤ b then some (first, last) else none

/-- The first and last lattice point in [b, a), for a falling value: `first` is met first. -/
def latticeDown (t0 : Int) (pitch : Nat) (a b : Int) : Option (Int × Int) :=
  (latticeIn (-t0) pitch (-a) (-b)).map fun x => (-x.1, -x.2)

/-- A move from `old` to `new` (R276 to R278, R282). -/
def crossing (c : Cmp) (old new : Int) : Option Crossing :=
  let p : Int := max 1 c.pitch
  let single (up : Bool) : Option Crossing :=
    if (up ∧ old < c.target ∧ c.target ≤ new) ∨ (¬ up ∧ new ≤ c.target ∧ c.target < old) then
      some ⟨1, c.target, c.target⟩
    else none
  let walk (up : Bool) : Option Crossing :=
    if up ∧ old < c.target ∧ c.target ≤ new then
      let n := ((new - c.target) / p).toNat
      some ⟨n + 1, c.target + n * p, c.target + (n + 1) * p⟩
    else if ¬ up ∧ new ≤ c.target ∧ c.target < old then
      let n := ((c.target - new) / p).toNat
      some ⟨n + 1, c.target - n * p, c.target - (n + 1) * p⟩
    else none
  let either (up : Bool) : Option Crossing :=
    (if up then latticeIn c.t0 c.pitch old new else latticeDown c.t0 c.pitch old new).bind fun x =>
      let n := (|x.2 - x.1| / p).toNat + 1
      let skipsFirst := !c.rearmed && c.fired == some x.1
      if skipsFirst && n == 1 then none
      else some ⟨if skipsFirst then n - 1 else n, x.2, x.2⟩
  if old = new then none
  else
    let up := decide (old < new)
    match c.grid, c.qual with
    | false, 0 => if up then single true else none
    | false, 1 => if up then none else single false
    | false, _ => single up
    | true, 0 => if up then walk true else none
    | true, 1 => if up then none else walk false
    | true, _ => either up

/-- The comparison value has moved: an EITHER grid re-arms its point beyond hysteresis (R278). -/
def Cmp.moved (c : Cmp) (v : Int) : Cmp :=
  { c with
    value := v
    rearmed := c.rearmed || (match c.fired with
      | some f => decide ((c.hysteresis : Int) < |v - f|)
      | none => false) }

/-! ### Records -/

/-- A comparator's record, entry and counters for a fire or skip (R281, R283, R284). -/
def cmpRecord (n : Fin 16) (skip : Bool) (r : Reach) (merged done : Bool) (s : State) : State :=
  let c := s.cmps[n]
  let fn := s.plan.comparators[n]
  let (t, stepped) := release s r.at_
  let event := c.events + 1
  let flags := b2n r.late + 2 * b2n r.inferred + 4 * b2n r.interp + 8 * b2n stepped + 16 * b2n merged + 32 * b2n done +
    64 * b2n r.coarse
  let points := min 65535 r.points
  let bytes := record [(4, event.toNat), (1, n), (1, if skip then 2 else 1), (2, flags), (8, stampNs t), (1, stampFrac t),
    (1, 0), (2, points), (4, sval 4 r.vel), (8, sval 8 r.pos)]
  let s := s.modCmp n fun c => { c with
    events := event, skipped := if skip then c.skipped + BitVec.ofNat 32 r.points else c.skipped
    sticky := c.sticky ||| BitVec.ofNat 3 (b2n r.late + 2 * b2n skip + 4 * b2n r.inferred)
    lastPos := if skip then c.lastPos else r.pos, lastTime := if skip then c.lastTime else r.at_ }
  let s := if c.slots = 0 then s else deliver fn c.recMillpond (c.recBase + 32 * (event.toNat % c.slots)) bytes s
  match c.report, fin? 32 c.queue with
  | true, some q => putEntry q ⟨kComparator, n, event, if skip then stSkipped else stOk, 0,
      BitVec.ofNat 32 (points + 65536 * flags)⟩ s
  | _, _ => s

/-- A fire or skip ends the target list (R273, R277). -/
def Cmp.ends (c : Cmp) : Bool := !c.grid || (c.gridCount != 0 && decide (c.gridCount ≤ c.events.toNat + 1))

/-- The comparator after a fire or skip: DONE, or ARMED for its next target. -/
def Cmp.after (c : Cmp) (r : Reach) (done : Bool) : Cmp :=
  if done then { c with mode := .done, reached := none }
  else if c.qual = 2 then { c with mode := .armed, fired := some r.next, rearmed := false, reached := none }
  else { c with mode := .armed, target := r.next, reached := none }

/-- The bound of R287 for a comparator's fire: INTERPOLATED counts from the fire instant, EDGE from the edge at the ball, with the
filter between, and a fire on the arm tick from now. -/
def cmpLead (s : State) (c : Cmp) (r : Reach) : Lead :=
  if r.late then leadNow s
  else if r.interp then ⟨timeOf s r.at_, 0, 25⟩
  else match fin? 4 c.source with
    | some ch => ⟨timeOf s r.at_, 5 * (s.pos[ch]).cfg.glitch, 40⟩
    | none => ⟨timeOf s r.at_, 0, 40⟩

/-- A comparator fires (R276, R283, R285, R289, R291). -/
def cmpFires (n : Fin 16) (r : Reach) (s : State) : State :=
  let c := s.cmps[n]
  let done := c.ends
  let (merged, s) := fireTrigs (fun t => t.cmpMask.getLsbD n) r.late r.inferred (cmpLead s c r) s
  let s := (driveXtrs (fun x => x.cmpMask.getLsbD n) s).2
  let s := cmpRecord n false r (!merged.isEmpty) done s
  let s := s.modCmp n fun c => (c.after r done).moved c.value
  let s := if r.late then post 0x3201 s.plan.comparators[n] n s else s
  let s := if r.inferred then post 0x3204 s.plan.comparators[n] n s else s
  let s := slotBump 4 n (publish n r.at_ (trigFlags r.late r.inferred) s)
  if done then sweepWaits s else s

/-- A comparator skips a target that is behind (R281). -/
def cmpSkips (n : Fin 16) (r : Reach) (s : State) : State :=
  let c := s.cmps[n]
  let done := c.ends
  let s := cmpRecord n true r false done s
  let s := s.modCmp n fun c => (c.after r done).moved c.value
  let s := post 0x3202 s.plan.comparators[n] n s
  if done then sweepWaits s else s

/-! ### Interpolated targets -/

/-- The interpolated crossing of a comparator by an instant, on an incremental channel (R276): one fire at most, at its
own instant. -/
def interpReach (s : State) (ch : Fin 4) (c : Cmp) (until_ : Int) : Option Reach :=
  let p := s.pos[ch]
  match p.points with
  | [] => none
  | x :: _ =>
    match x.fwd with
    | none => none
    | some d =>
      let e := timeOf s x.at_
      let base := wrapS 60 (4096 * x.loc)
      let f := fractionAfter x.stop x.speed (until_ - e) (until_ - timeOf s x.ev)
      let new := base + sign d * f
      if x.speed = 0 ∨ until_ < e then none
      else
        -- the point that is met first
        let met : Option (Int × Int) :=
          match c.grid, c.qual with
          | true, 2 =>
            let a := if d then (latticeIn c.t0 c.pitch c.value new) else (latticeDown c.t0 c.pitch c.value new)
            a.bind fun y =>
              if !c.rearmed && c.fired == some y.1 then
                let z := y.1 + sign d * (max 1 c.pitch : Nat)
                if |z - base| ≤ f then some (z, z) else none
              else some (y.1, y.1)
          | g, _ =>
            (crossing { c with grid := false } c.value new).map fun y =>
              (y.last, if g then y.last + (if c.qual = 1 then -1 else 1) * (max 1 c.pitch : Nat) else y.last)
        met.map fun y =>
          let t := e + ratRound ((unitsPerSecond : Rat) / x.speed * (|y.1 - base| : Int) / 4096)
          ⟨⟨BitVec.ofInt 72 t - s.clk.stepSum, s.clk.stepCount⟩, s.elapsed, y.1, velCode (posV s p t), 1, false, false, true,
            false, y.2⟩

/-- The interpolated crossings of a serial channel up to now (R261, R275). -/
def serialReach (s : State) (ch : Fin 4) (c : Cmp) : Option Reach :=
  let v := pNow s ch
  (crossing c c.value v).map fun y =>
    ⟨hold s (now s), s.elapsed, v, velCode (posV s s.pos[ch] (now s).toNat), y.points, false, false, true, false, y.next⟩

/-- The instant of standstill of a channel, after its last event (R257). -/
def Pos.stopsAt (s : State) (p : Pos) : Int :=
  match p.points with
  | x :: _ => timeOf s x.ev + x.stop
  | [] => 0

/-- One interpolated fire of a comparator by an instant, if one is due; otherwise its value follows P. An incremental channel
interpolates until its standstill; from there the value is that of EDGE (R276). -/
def interpStep (n : Fin 16) (until_ : Int) (s : State) : Bool × State :=
  let c := s.cmps[n]
  match fin? 4 c.source with
  | none => (false, s)
  | some ch =>
    let p := s.pos[ch]
    let stop := p.stopsAt s
    if ¬ (c.interp ∧ c.live ∧ c.reached = none ∧ p.mode = .running) ∨ (¬ p.kind.serial ∧ stop ≤ timeOf s c.valueAt) then
      (false, s)
    else
      match (if p.kind.serial then serialReach s ch c else interpReach s ch c (min until_ stop)) with
      | some r => (true, cmpFires n r (s.modCmp n fun c => c.moved r.pos))
      | none =>
        let v := if p.kind.serial then pNow s ch else if until_ < stop then posP s p until_ else edgeValue s ch
        (false, s.modCmp n fun c => { c.moved v with valueAt := hold s (BitVec.ofInt 72 until_) })

/-- Every interpolated fire of a comparator by an instant: at most one for each point of one count. -/
def interpAll : Nat → Fin 16 → Int → State → State
  | 0, _, _, s => s
  | k + 1, n, t, s =>
    let (more, s) := interpStep n t s
    if more then interpAll k n t s else s

/-- What a comparator's source has brought about is carried out. -/
def carryOut (n : Fin 16) (s : State) : State :=
  match (s.cmps[n]).reached with
  | some r => if (s.cmps[n]).live then cmpFires n r s else s.modCmp n fun c => { c with reached := none }
  | none => s

/-- The comparators of a channel are brought up to an instant before it changes. -/
def settleCmps (ch : Fin 4) (until_ : Int) (s : State) : State :=
  (allFin 16).foldl (fun (s : State) (n : Fin 16) =>
    if (s.cmps[n]).source = ch.val then interpAll 32 n until_ (carryOut n s) else s) s

/-- A counted event or serial sample has moved the channel: the comparators that it brings to a target are marked
(R276, R282). -/
def markCmps (ch : Fin 4) (h : Held) (inferred coarse : Bool) (s : State) : State :=
  let p := s.pos[ch]
  let t := timeOf s h
  (allFin 16).foldl (fun (s : State) (n : Fin 16) =>
    let c := s.cmps[n]
    if c.source = ch.val ∧ c.live then
      let v := edgeValue s ch
      let r : Option Reach := (crossing c c.value v).map fun y =>
        ⟨h, s.elapsed, posP s p t, velCode (posV s p t), y.points, false, inferred, false, coarse, y.next⟩
      s.modCmp n fun c => { c.moved v with reached := r, valueAt := h }
    else s) s

/-! ### Targets behind, and targets met on the tick -/

/-- The result of a target write (R279 to R281, R297): 0 ARMED, 1 FIRED_NOW, 2 LATE, 3 SKIPPED, 4 HELD, 5
ARMED_OPPOSED. -/
structure Armed where
  result : Nat
  points : Nat
  deriving DecidableEq, Repr

/-- A target write takes effect on this tick (R279 to R282, R293). -/
def writeTarget (n : Fin 16) (s : State) : Armed × State :=
  let c := s.cmps[n]
  let v := cmpValue s c
  let stamp := hold s (now s)
  let pos? := fin? 4 c.source
  let d : Option Bool := match pos? with
    | some ch => motion s.pos[ch]
    | none => some true
  let vel := match pos? with
    | some ch => velCode (posV s s.pos[ch] (now s).toNat)
    | none => 0
  let at_ : Int := match pos? with
    | some ch => pNow s ch
    | none => (nowNs s).toNat
  let p : Int := max 1 c.pitch
  let reach (late : Bool) (points : Nat) (next : Int) : Reach :=
    ⟨stamp, s.elapsed, at_, vel, points, late, false, false, false, next⟩
  let lattice := c.t0 + (v - c.t0) / p * p
  let s := s.modCmp n fun c => { c with mode := .armed, value := v, valueAt := stamp, fired := none, rearmed := false, low := lattice }
  let names (b : Bool) : Bool := (c.qual == 0 && b) || (c.qual == 1 && !b)
  let onTick := if c.grid ∧ c.qual = 2 then decide (lattice = v) else decide (c.target = v)
  if onTick then
    let next := if c.qual = 2 then v else if c.qual = 1 then c.target - p else c.target + p
    (⟨1, 1⟩, cmpFires n (reach false 1 next) s)
  else match d with
    | none => (⟨0, 0⟩, s)
    | some fwd =>
      if c.qual ≠ 2 ∧ ¬ names fwd then (⟨5, 0⟩, s)
      else if names fwd ∧ (c.target - v) * sign fwd < 0 then
        -- points from the target up to the last one passed
        let passed : Int := if c.grid then |v - c.target| / p + 1 else 1
        let next := c.target + sign fwd * passed * p
        match c.policy with
        | 1 => (⟨2, passed.toNat⟩, cmpFires n (reach true passed.toNat next) s)
        | 2 => (⟨3, passed.toNat⟩, cmpSkips n (reach false passed.toNat next) s)
        | _ => (⟨4, 0⟩, s.modCmp n fun c => { c with mode := .held })
      else (⟨0, 0⟩, s)

/-- A preset or index reset is a target write for every armed and held comparator of the channel (R282). -/
def presetCmps (ch : Fin 4) (s : State) : State :=
  (allFin 16).foldl (fun (s : State) (n : Fin 16) =>
    let c := s.cmps[n]
    if c.source = ch.val ∧ c.live then (writeTarget n s).2 else s) s

/-! ### TIME -/

/-- A TIME comparator's fire, when its tick has come (R293). -/
def timeReach (s : State) (c : Cmp) : Option Reach :=
  match c.nextTick with
  | some k =>
    if k ≤ s.elapsed then
      let t : Stamp := BitVec.ofInt 72 (timeAtTick s k)
      some ⟨hold s t, k, stampNs t, 0, 1, false, false, false, false, c.target + c.pitch⟩
    else none
  | none =>
    if c.target ≤ (nowNs s).toNat then
      let (k, t) := tickReached s c.target
      some ⟨hold s t, s.elapsed - k, stampNs t, 0, 1, false, false, false, false, c.target + c.pitch⟩
    else none

/-- A TIME comparator fires; a grid's later points follow by elapsed ticks (R293). -/
def timeFires (n : Fin 16) (r : Reach) (s : State) : State :=
  cmpFires n r (s.modCmp n fun c => { c with nextTick := if c.grid then some (r.tick + c.pitch / 5) else none })

end Sys2Proof.Machine
end

