-- ==== Sys2Proof/Machine/PosCmds.lean ====
section
/-! DEFINITION. Meanings of position channels and encoder emulators (R239 to R272). -/

namespace Sys2Proof.Machine

/-! ### Counted events -/

/-- An input's level after inversion (R272). -/
def Pos.level (p : Pos) (i : Nat) : Bool := p.lines.getLsbD i != bit p.cfg.invert i

/-- A ball IN0 to IN3 is sampled (R123, R239, R241). -/
def sampleBall (ch : Fin 4) (balls : Vector Line 4) (s : State) (i : Fin 4) : State :=
  let (r, s) := ((s.pos[ch]).raw[i]).sample (.pos ch i) balls[i] s
  s.modPos ch fun p => { p with raw := p.raw.set i r }

/-- The filtered levels after the samples so far, of the lines in `mask` (R241). -/
def Pos.filtered (p : Pos) (now_ : Nat) (mask : BitVec 4) : BitVec 4 :=
  (allFin 4).foldl (fun (v : BitVec 4) (i : Fin 4) =>
    let b := BitVec.ofNat 4 (2 ^ i.val)
    if ¬ mask.getLsbD i then v
    else if ((p.raw[i]).filter p.cfg.glitch now_ (v.getLsbD i)) then v ||| b else v &&& ~~~ b) p.lines

/-- The filtered levels of the lines in `mask` follow the samples up to tick `t`; `count` decodes the change from the channel before
it (R241). -/
def filterMoves (ch : Fin 4) (mask : BitVec 4) (t : Nat) (count : Pos → State → State) (s : State) : State :=
  count s.pos[ch] (s.modPos ch fun p => { p with lines := p.filtered t mask })

/-- The balls of a channel are sampled (R241): the filters of the lines in `mask` have first taken what held until now. -/
def ballMoves (ch : Fin 4) (mask : BitVec 4) (balls : Vector Line 4) (count : Pos → State → State) (s : State) : State :=
  let s := filterMoves ch mask (s.elapsed - 1) count s
  filterMoves ch mask s.elapsed count ((allFin 4).foldl (sampleBall ch balls) s)

/-- The channel counts (R240). -/
def Pos.counts (p : Pos) (k : PosKind) : Bool := p.kind == k && p.mode == .running

/-- The stamp of the raw edge that began a line's stable run, and whether it is coarse (R242). -/
def edgeTime (ch i : Fin 4) (s : State) : Held × Bool := ((s.pos[ch]).raw[i]).edgeTime s

/-- The stamp of an event on the lines whose filtered level has changed since `p`: the later of theirs (R242, R252). -/
def eventStamp (ch : Fin 4) (p : Pos) (s : State) : Held × Bool :=
  let l := ((allFin 4).filter fun (i : Fin 4) => p.lines.getLsbD i != (s.pos[ch]).lines.getLsbD i).map fun i => edgeTime ch i s
  l.foldl (fun (a : Held × Bool) b => if timeOf s a.1 < timeOf s b.1 then (b.1, a.2 || b.2) else (a.1, a.2 || b.2))
    (match l with
      | a :: _ => a
      | [] => (hold s (now s), false))

/-- A coarse stamp is flagged and logged (R242). -/
def noteCoarse (ch : Fin 4) (coarse : Bool) (s : State) : State :=
  if coarse then post 0x310C wide ch (posFlag ch 4 s) else s

/-- Speed over a window of events, newest first (R256): none where the span is 0. -/
def windowSpeed (s : State) (k : Nat) (run : List (Held × Nat)) : Option Rat :=
  match run with
  | [] | [_] => some 0
  | a :: _ =>
    let m := min k (run.length - 1)
    match run[m]? with
    | none => some 0
    | some b =>
      let span := timeOf s a.1 - timeOf s b.1
      let w : Nat := ((run.take m).map Prod.snd).sum
      if span ≤ 0 then none else some ((w : Rat) * unitsPerSecond / (span : Rat))

/-- The saturation flag of a velocity (R258). -/
def judgeVel (ch : Fin 4) (v : Rat) (s : State) : State :=
  if velCode |v| = 0x7FFFFFFF ∧ 8388607996 / 1000 < |v| then post 0x3012 wide ch (posFlag ch 11 s) else s

/-- A counted event of weight 1 or 2 (R244, R245, R252, R256): P, history, velocity, then what follows P. -/
def posEvent (ch : Fin 4) (fwd : Bool) (weight : Nat) (h : Held) (coarse inferred : Bool) (s : State) : State :=
  let t := timeOf s h
  let s := settleCmps ch t (noteCoarse ch coarse s)
  let p := s.pos[ch]
  let n := p.count
  let count := wrapS 48 (n + sign fwd * weight)
  let loc := wrapS 48 (if fwd then n + weight else n - weight + 1)
  let onward := !p.still s t && (match p.run, p.dirs with
    | _ :: _, d :: _ => d == fwd
    | _, _ => false)
  let run := ((h, weight) :: (if onward then p.run else [])).take 65
  let (speed, s) := match windowSpeed s p.cfg.window run with
    | some v => (v, s)
    | none =>
      let (v, s) := draw s
      ((v : Rat), s)
  let s := s.modPos ch fun p => { p with
    count := count, fresh := false, run := run, dirs := (fwd :: p.dirs).take 8
    points := (⟨h, h, loc, some fwd, speed, p.cfg.stopMs * unitsPerMs⟩ :: p.points).take 17
    standstill := false, eventAt := some s.elapsed, coarse := coarse }
  let s := if count ≠ n + sign fwd * weight then post 0x3011 wide ch (posFlag ch 10 s) else s
  markCmps ch h inferred coarse (judgeEmus ch (judgeVel ch speed s))

/-- AUTO infers (R252): fast enough for the filter, and the last 8 events of one direction. -/
def autoInfers (s : State) (p : Pos) (t : Int) : Bool :=
  decide (1 / 4 ≤ |posV s p t| * ((p.cfg.glitch + 1) * 5 : Nat) / 1000000000) &&
  p.dirs.length == 8 && (p.dirs.all id || p.dirs.all (!·))

/-- An illegal step (R251 to R253). `way` is a Hall step's sign, `opposite` a Hall step that has none. -/
def illegalStep (ch : Fin 4) (way : Option Bool) (opposite : Bool) (h : Held) (coarse : Bool) (s : State) : State :=
  let p := s.pos[ch]
  let s := s.modPos ch fun p => { p with skips := p.skips + 1, skipAt := ((h, p.skips + 1) :: p.skipAt).take 16 }
  let s := post (if opposite then 0x3103 else 0x3101) wide ch (posFlag ch 0 s)
  let infer := !opposite && !p.fresh &&
    (match p.cfg.policy with
      | 0 => autoInfers s p (timeOf s h)
      | 1 => false
      | _ => true)
  match infer, p.dirs with
  | true, d :: _ => if way = none ∨ way = some d then posEvent ch d 2 h coarse true s else s
  | _, _ => s

/-- The place of a quadrature state in the forward sequence (R248). -/
def quadPlace (a b : Bool) : Nat :=
  match a, b with
  | false, false => 0
  | true, false => 1
  | true, true => 2
  | false, true => 3

/-- A and B have changed from those of `p` (R248). -/
def quadCount (ch : Fin 4) (p : Pos) (s : State) : State :=
  let q := s.pos[ch]
  if ¬ p.counts .quad then s
  else
    let k := (quadPlace (q.level 0) (q.level 1) + 4 - quadPlace (p.level 0) (p.level 1)) % 4
    if k = 0 then s
    else
      let (h, coarse) := eventStamp ch { p with lines := p.lines ^^^ ((p.lines ^^^ q.lines) &&& 0b1000) } s
      if k = 2 then illegalStep ch none false h coarse s else posEvent ch (k = 1) 1 h coarse false s

/-- STEP and DIR have changed from those of `p` (R249). -/
def stepCount (ch : Fin 4) (p : Pos) (s : State) : State :=
  let q := s.pos[ch]
  if ¬ p.counts .stepDir ∨ q.level 0 = p.level 0 then s
  else if (p.cfg.stepEdge = 0 ∧ ¬ q.level 0) ∨ (p.cfg.stepEdge = 1 ∧ q.level 0) then s
  else
    let (h, coarse) := edgeTime ch 0 s
    let s := if q.level 1 ≠ p.level 1 then post 0x3104 wide ch (posFlag ch 2 s) else s
    posEvent ch (p.level 1) 1 h coarse false s

/-- STEP_DIR_STEP (R249). -/
def execStepDirStep (dt : Nat) (ch : Fin 4) (balls : Vector Line 4) (s : State) : Answer :=
  .next (ballMoves ch 0b1111 balls (stepCount ch) (advance dt s))

/-- UP and DOWN have changed from those of `p` (R250). -/
def upDownCounts (ch : Fin 4) (p : Pos) (s : State) : State :=
  let q := s.pos[ch]
  let rises (i : Nat) : Bool := q.level i && !p.level i
  if ¬ p.counts .upDown ∨ rises 0 = rises 1 then s
  else
    let (h, coarse) := edgeTime ch (if rises 0 then 0 else 1) s
    posEvent ch (rises 0) 1 h coarse false s

/-- UP_DOWN_COUNT (R250). -/
def execUpDownCount (dt : Nat) (ch : Fin 4) (balls : Vector Line 4) (s : State) : Answer :=
  .next (ballMoves ch 0b1111 balls (upDownCounts ch) (advance dt s))

/-- s of R251. -/
def Pos.hall (p : Pos) : Nat := 4 * b2n (p.level 0) + 2 * b2n (p.level 1) + b2n (p.level 2)

/-- The position of a valid Hall state (R251). -/
def hallPlace : Nat → Option Nat
  | 1 => some 0
  | 3 => some 1
  | 2 => some 2
  | 6 => some 3
  | 4 => some 4
  | 5 => some 5
  | _ => none

/-- The Hall lines have changed from those of `p` (R251, R254). -/
def hallCount (ch : Fin 4) (p : Pos) (s : State) : State :=
  let q := s.pos[ch]
  if ¬ p.counts .hall ∨ q.hall = p.hall then s
  else
    match hallPlace q.hall with
    | none =>
      post 0x3102 wide ch (posFlag ch 1 (s.modPos ch fun p => { p with hallInvalid := p.hallInvalid + 1 }))
    | some j =>
      let i := p.hallRef
      let s := s.modPos ch fun p => { p with hallRef := j }
      let k := (j + 6 - i) % 6
      if 5 < i ∨ k = 0 then s
      else
        let (h, coarse) := eventStamp ch { p with lines := p.lines ^^^ ((p.lines ^^^ q.lines) &&& 0b1000) } s
        if k = 1 ∨ k = 5 then posEvent ch (k = 1) 1 h coarse false s
        else if k = 3 then illegalStep ch none true h coarse s
        else illegalStep ch (some (k = 2)) false h coarse s

/-- HALL_CHANGE (R251). -/
def execHallChange (dt : Nat) (ch : Fin 4) (balls : Vector Line 4) (s : State) : Answer :=
  .next (ballMoves ch 0b1111 balls (hallCount ch) (advance dt s))

/-! ### Presets and index -/

/-- P becomes 4096 × `value` at an instant; interpolation restarts with f = 0 (R255, R264). -/
def setPosition (ch : Fin 4) (value : Int) (h : Held) (s : State) : State :=
  let p := s.pos[ch]
  let old := posP s p (timeOf s h)
  let delta := 4096 * value - old
  s.modPos ch fun p => { p with
    count := value, heldP := 4096 * value
    points := match p.points with
      | x :: _ => (⟨h, x.ev, value, x.fwd, x.speed, x.stop⟩ :: p.points).take 17
      | [] => []
    samples := p.samples.map fun a => { a with p := a.p + delta }
    idxPrev := p.idxPrev.map fun a => (a.1 + delta, a.2) }

/-- A preset applies (R264, R282): delta. -/
def presetNow (ch : Fin 4) (value : Int) (h : Held) (s : State) : Int × State :=
  let s := settleCmps ch (timeOf s h) s
  let delta := wrapS 64 (4096 * value - posP s s.pos[ch] (timeOf s h))
  let s := (setPosition ch value h s).modPos ch fun p => { p with
    presets := p.presets + 1, presetSum := p.presetSum + delta, fresh := true, serialDir := none }
  (delta, presetCmps ch (judgeEmus ch (post 0x3010 wide ch s)))

/-- A waiting AT_INDEX preset ends with CANCELLED (R264). -/
def cancelPreset (ch : Fin 4) (s : State) : State :=
  if (s.pos[ch]).waiting.isSome then
    hamperDone 0x0303 ch stCancelled 0 (s.modPos ch fun p => { p with waiting := none })
  else s

/-- A qualified Z edge (R255, R264): on it an AT_INDEX preset replaces the reset of mode 2 or 3. -/
def indexRises (ch : Fin 4) (h : Held) (s : State) : State :=
  let p := s.pos[ch]
  let mode := p.cfg.index % 4
  let gated := bit p.cfg.index 2
  if ¬ p.counts .quad ∨ (mode = 0 ∧ p.waiting = none) ∨
      (gated ∧ ¬ (p.level 0 = bit p.cfg.index 3 ∧ p.level 1 = bit p.cfg.index 4)) then s
  else
    let s := settleCmps ch (timeOf s h) s
    let p := s.pos[ch]
    let z := posP s p (timeOf s h)
    let dir := (p.points.head?).bind PosPoint.fwd
    let s := if mode = 0 then s
      else
        let wrong := p.cfg.perIndex != 0 && (match p.idxPrev with
          | some (a, d) => d == dir &&
              decide (4096 * (p.cfg.tolerance : Int) < |(|z - a| - 4096 * (p.cfg.perIndex : Int))|)
          | none => false)
        let s := s.modPos ch fun p => { p with idx := z, idxCount := p.idxCount + 1, idxPrev := some (z, dir) }
        if wrong then post 0x3105 wide ch (posFlag ch 3 s) else s
    let s := s.modPos ch fun p => { p with idxReset := true }
    match p.waiting with
    | some v =>
      let (delta, s) := presetNow ch v h (s.modPos ch fun p => { p with waiting := none })
      hamperDone 0x0303 ch stOk (BitVec.ofInt 32 delta) s
    | none =>
      if mode = 3 ∨ (mode = 2 ∧ ¬ p.idxReset) then presetCmps ch (judgeEmus ch (setPosition ch 0 h s)) else s

/-- Z has changed from that of `p` (R255). -/
def indexCount (ch : Fin 4) (p : Pos) (s : State) : State :=
  if (s.pos[ch]).level 2 ∧ ¬ p.level 2 then
    let (h, coarse) := edgeTime ch 2 s
    indexRises ch h (noteCoarse ch (coarse && p.counts .quad) s)
  else s

/-- The lines of A, B and the unused one, and of Z. -/
abbrev quadMask : BitVec 4 := 0b1011
abbrev indexMask : BitVec 4 := 0b0100

/-- The balls of a channel move on A or B (R241, R248): what Z has done until now comes first. -/
def quadMoves (ch : Fin 4) (balls : Vector Line 4) (s : State) : State :=
  ballMoves ch quadMask balls (quadCount ch) (filterMoves ch indexMask (s.elapsed - 1) (indexCount ch) s)

/-- The balls of a channel move on Z (R241, R255): what A and B have done until now comes first. -/
def indexMoves (ch : Fin 4) (balls : Vector Line 4) (s : State) : State :=
  ballMoves ch indexMask balls (indexCount ch) (filterMoves ch quadMask (s.elapsed - 1) (quadCount ch) s)

/-- INDEX_EDGE (R255). -/
def execIndexEdge (dt : Nat) (ch : Fin 4) (balls : Vector Line 4) (s : State) : Answer :=
  .next (indexMoves ch balls (advance dt s))

/-- QUAD_STEP (R248). -/
def execQuadStep (dt : Nat) (ch : Fin 4) (balls : Vector Line 4) (s : State) : Answer :=
  .next (quadMoves ch balls (advance dt s))

/-- Standstill (R257). -/
def standsStill (ch : Fin 4) (s : State) : State :=
  let p := s.pos[ch]
  if p.kind.incremental ∧ p.mode = .running ∧ p.still s (now s).toNat then
    s.modPos ch fun p => { p with standstill := true }
  else s

/-- STANDSTILL_TIMEOUT (R257). -/
def execStandstillTimeout (dt : Nat) (ch : Fin 4) (s : State) : Answer := .next (standsStill ch (advance dt s))

/-! ### Serial sensors -/

/-- POSn_CLK is inverted (R272). -/
def PosCfg.clkInverted (c : PosCfg) : Bool := bit c.invert 4

/-- The level at which POSn_CLK rests: high for the serial kinds, low otherwise (R239). -/
def clkRests (k : PosKind) (c : PosCfg) : Bool := k.serial != c.clkInverted

/-- The pulses of an SSI frame: data_bits, and one more when the error bit is configured (R259). -/
def PosCfg.ssiPulses (c : PosCfg) : Nat := c.dataBits + b2n (bit c.serialFlags 1)

/-- The bits of a BiSS-C frame after its start bit (R260). -/
def PosCfg.bissBits (c : PosCfg) : Nat := 1 + c.dataBits + b2n (bit c.serialFlags 3) + b2n (bit c.serialFlags 4) + c.crcLen

/-- A serial cycle starts: the first falling edge falls on a 200 MHz tick, whose device time is its stamp (R259 to R261). -/
def cycleStarts (ch : Fin 4) (s : State) : State :=
  let p := s.pos[ch]
  if p.kind.serial ∧ p.mode ≠ .off ∧ p.cycle = none ∧ p.cycleAt ≤ s.elapsed then
    emit (.sensorClock ch p.cfg.clkKhz (if p.kind = .ssi then some p.cfg.ssiPulses else none) p.cfg.clkInverted)
      (s.modPos ch fun p => { p with
        cycle := some (hold s (now s)), cycleFrom := s.elapsed, cycleAt := s.elapsed + ticksUs p.cfg.periodUs })
  else s

/-- SERIAL_CYCLE_START (R259). -/
def execSerialCycleStart (dt : Nat) (ch : Fin 4) (s : State) : Answer := .next (cycleStarts ch (advance dt s))

/-- Gray code to binary (R259). -/
def grayDecode : Nat → Nat → Nat
  | 0, v => v
  | n + 1, v => v ^^^ grayDecode n (v / 2)

/-- The number that bits spell, most significant first. -/
def bitsNat (l : List Bool) : Nat := l.foldl (fun v b => 2 * v + b2n b) 0

/-- The CRC of bits, first bit first, with a polynomial of `n` bits without its top term, from 0 (R260). -/
def bitsCrc (n poly : Nat) (l : List Bool) : Nat :=
  l.foldl (fun c b =>
    let shifted := 2 * c % 2 ^ n
    if decide (2 ^ n ≤ 2 * c) != b then shifted ^^^ (poly % 2 ^ n) else shifted) 0

/-- What one serial cycle gave (R259 to R262): a sample with its raw value and warning, or the flag and the event of its failure. -/
inductive CycleResult where
  | sample (raw : Nat) (warn : Bool)
  | failed (flag code : Nat)
  deriving DecidableEq, Repr

/-- The most MA clocks from the acknowledge to the start bit (R260). -/
abbrev startLimit : Nat := 64

/-- A serial frame is read (R259, R260, R262). The error bit of SSI follows its data, and is active at 1; nE and nW are active at 0
(log entry 56). A frame of too few bits is none. -/
def readFrame (k : PosKind) (c : PosCfg) : SerialOutcome → CycleResult
  | .ssi high bits =>
    let raw := bitsNat (bits.take c.dataBits)
    if k ≠ .ssi ∨ ¬ high ∨ bits.length < c.ssiPulses then .failed 6 0x3107
    else if bit c.serialFlags 1 ∧ bits.getD c.dataBits false then .failed 7 0x3108
    else .sample raw false
  | .biss delay start bits =>
    if k ≠ .bissC ∨ delay = none ∨ startLimit < start ∨ bits.length < c.bissBits then .failed 6 0x3107
    else
      let body := (bits.drop 1).take (c.bissBits - 1 - c.crcLen)
      let crc := (bits.drop (c.bissBits - c.crcLen)).take c.crcLen
      let nE := body.getD c.dataBits true
      let nW := body.getD (c.dataBits + b2n (bit c.serialFlags 3)) true
      if c.crcLen ≠ 0 ∧ bitsNat (crc.map (!·)) ≠ bitsCrc c.crcLen c.crcPoly body then .failed 5 0x3106
      else if bit c.serialFlags 3 ∧ ¬ nE then .failed 7 0x3108
      else .sample (bitsNat (body.take c.dataBits)) (bit c.serialFlags 4 && !nW)

/-- The clocks that a cycle's frame has taken at least (R259, R260). -/
def frameClocks : SerialOutcome → Nat
  | .ssi _ bits => bits.length
  | .biss _ _ bits => bits.length

/-- A serial cycle fails (R262). -/
def cycleFails (ch : Fin 4) (flag code : Nat) (s : State) : State :=
  let s := post code wide ch (posFlag ch flag (s.modPos ch fun p => { p with
    serialErrs := p.serialErrs + 1, serialTotal := p.serialTotal + 1, fails := p.fails + 1 }))
  if 8 ≤ (s.pos[ch]).fails ∧ (s.pos[ch]).mode = .running then
    emuSourceGone ch (post 0x310D wide ch ((judgeEmus ch s).modPos ch fun p => { p with
      mode := .serialLost, heldP := p.sampled }))
  else s

/-- A valid raw value becomes a sample (R245, R261, R280): unless its jump is rejected, P, its velocity and its direction, and what
follows P. -/
def takeSample (ch : Fin 4) (h : Held) (raw : Nat) (warn : Bool) (s : State) : State :=
  let p := s.pos[ch]
  let c := p.cfg
  let m := 2 ^ c.dataBits
  let r := if bit c.serialFlags 0 then grayDecode c.dataBits raw else raw
  let delta : Int := match p.rPrev with
    | some q => ((r : Int) - q + m / 2) % m - m / 2
    | none => 0
  if p.rPrev.isSome ∧ c.jumpLimit ≠ 0 ∧ (c.jumpLimit : Int) < |delta| then cycleFails ch 9 0x310B s
  else
    let s := settleCmps ch (now s).toNat s
    let at_ : Held := ⟨h.raw + BitVec.ofNat 72 (c.latchNs * 256), h.steps⟩
    let old := ((s.pos[ch]).samples.head?.map PosSample.p).getD p.heldP
    let new := if p.rPrev.isNone then 4096 * (r : Int) else old + 4096 * delta
    let v := serialVelocity s c.window at_ new (s.pos[ch]).samples
    let s := s.modPos ch fun p => { p with
      mode := .running, fails := 0, rPrev := some r, samples := (⟨at_, new, v⟩ :: p.samples).take 65, eventAt := some s.elapsed
      fresh := p.fresh && delta == 0, serialDir := if delta = 0 then p.serialDir else some (decide (0 < delta)) }
    let s := if wrapS 60 old + 4096 * delta ≠ wrapS 60 (old + 4096 * delta) then post 0x3011 wide ch (posFlag ch 10 s) else s
    let s := if warn then post 0x3109 wide ch (posFlag ch 8 s) else s
    markCmps ch at_ false false (judgeEmus ch (judgeVel ch v s))

/-- A serial cycle ends, once its frame's clocks have run (R259 to R263): SSI then holds POSn_CLK high for timeout_us, and a
register read in progress has had one more cycle. -/
def cycleEnds (ch : Fin 4) (outcome : SerialOutcome) (s : State) : State :=
  let p := s.pos[ch]
  match p.cycle with
  | none => s
  | some h =>
    if (s.elapsed - p.cycleFrom) * p.cfg.clkKhz < 200000 * frameClocks outcome then s
    else
      let s := s.modPos ch fun p => { p with
        cycle := none
        cycleAt := if p.kind = .ssi then max p.cycleAt (s.elapsed + ticksUs p.cfg.timeoutUs) else p.cycleAt
        lineDelay := match outcome with
          | .biss (some d) _ _ => d
          | _ => p.lineDelay
        biss := p.biss.map fun b => { b with cycles := b.cycles + 1 } }
      match readFrame p.kind p.cfg outcome with
      | .failed flag code => cycleFails ch flag code s
      | .sample raw warn => takeSample ch h raw warn s

/-- SERIAL_CYCLE_END (R261). -/
def execSerialCycleEnd (dt : Nat) (ch : Fin 4) (outcome : SerialOutcome) (s : State) : Answer :=
  .next (cycleEnds ch outcome (advance dt s))

/-- The cycles within which a control frame must be complete (R263). -/
abbrev controlLimit : Nat := 64

/-- A BiSS register read ends (R263): with the value, with TIMEOUT once its cycles have passed, or at the second frame whose CRC is
wrong; after the first the read is repeated (log entry 56). -/
def bissReadEnds (ch : Fin 4) (outcome : BissOutcome) (s : State) : State :=
  match (s.pos[ch]).biss with
  | none => s
  | some b =>
    let ends := s.modPos ch fun p => { p with biss := none }
    match outcome with
    | .value v => hamperDone 0x0302 ch stOk (v.setWidth 32) ends
    | .timeout => if controlLimit ≤ b.cycles then hamperDone 0x0302 ch stTimeout 0 ends else s
    | .crcFailed =>
      if b.failed then hamperDone 0x0302 ch stPartnerFault 0 ends
      else s.modPos ch fun p => { p with biss := some { b with cycles := 0, failed := true } }

/-- BISS_REGISTER_READ_DONE (R263). -/
def execBissRegisterReadDone (dt : Nat) (ch : Fin 4) (outcome : BissOutcome) (s : State) : Answer :=
  .next (bissReadEnds ch outcome (advance dt s))

/-! ### Emulators -/

/-- An emulator steps one output edge towards g, 40 ns after the last at the earliest (R266). -/
def emuSteps (m : Fin 2) (s : State) : State :=
  let s := judgeEmu m s
  let e := s.emu[m]
  let g := emuTarget s m
  if e.running ∧ g ≠ e.out ∧ sinceNs s e.stepAt 40 then
    emuOut m (judgeEmu m (s.modEmu m fun e => { e with
      out := if e.out < g then e.out + 1 else e.out - 1, stepAt := s.elapsed }))
  else s

/-- EMU_OUTPUT_STEP (R266). -/
def execEmuOutputStep (dt : Nat) (m : Fin 2) (s : State) : Answer := .next (emuSteps m (advance dt s))

/-! ### Registers (R271) -/

/-- The low and high words of P, s64. -/
def loWord (i : Int) : Word := BitVec.ofInt 32 i
def hiWord (i : Int) : Word := BitVec.ofInt 32 (i / 2 ^ 32)

/-- A full read of POS_P_LO. -/
def readPosPLo (ch : Fin 4) (s : State) : Word × State :=
  let v := pNow s ch
  (loWord v, s.modPos ch fun p => { p with
    latchHi := hiWord v, latchVel := BitVec.ofInt 32 (velCode (posV s p (now s).toNat))
    latchNsLo := (nowNs s).setWidth 32, latchNsHi := BitVec.ofNat 32 ((nowNs s).toNat / 2 ^ 32) })

/-- POS_P_LO_READ (R271). -/
def execPosPLoRead (dt : Nat) (fn : Fn) (ch : Fin 4) (s : State) : Answer :=
  .next (readRegister fn (0x21000 + 0x40 * ch) (readPosPLo ch) (advance dt s))

/-- A full read of POS_IDX_LO. -/
def readPosIdxLo (ch : Fin 4) (s : State) : Word × State :=
  (loWord (s.pos[ch]).idx, s.modPos ch fun p => { p with latchIdxHi := hiWord p.idx })

/-- POS_IDX_LO_READ (R271). -/
def execPosIdxLoRead (dt : Nat) (fn : Fn) (ch : Fin 4) (s : State) : Answer :=
  .next (readRegister fn (0x21020 + 0x40 * ch) (readPosIdxLo ch) (advance dt s))

/-- A full read of POS_SERIAL_ERRS. -/
def readSerialErrs (ch : Fin 4) (s : State) : Word × State :=
  ((s.pos[ch]).serialErrs, s.modPos ch fun p => { p with serialErrs := 0 })

/-- POS_SERIAL_ERRS_READ (R271). -/
def execPosSerialErrsRead (dt : Nat) (fn : Fn) (ch : Fin 4) (s : State) : Answer :=
  .next (readRegister fn (0x21028 + 0x40 * ch) (readSerialErrs ch) (advance dt s))

/-- POS_STATE. -/
def posStateWord (s : State) (p : Pos) : Word :=
  let forward := (p.points.head?).bind PosPoint.fwd == some true
  packed [(12, p.lines.toNat), (8, p.hall), (7, b2n (p.still s (now s).toNat)), (6, b2n forward), (4, p.mode.code),
    (0, p.kind.code)]

/-- The lag g − o of an emulator, present. -/
def emuLag (s : State) (m : Fin 2) : Int := emuTarget s m - (s.emu[m]).out

/-- The position registers whose reads have no effect: none at an unimplemented offset. -/
def posRegister (s : State) (off : Nat) : Option Word :=
  if 0x21000 ≤ off ∧ off < 0x21100 then
    (entryAt 4 0x40 off).bind fun ch =>
      let p := s.pos[ch]
      match off % 0x40 with
      | 0x04 => some p.latchHi
      | 0x08 => some p.latchVel
      | 0x0C => some p.latchNsLo
      | 0x10 => some p.latchNsHi
      | 0x14 => some (posStateWord s p)
      | 0x18 => some (p.flags.setWidth 32)
      | 0x1C => some p.skips
      | 0x24 => some p.latchIdxHi
      | _ => none
  else if 0x21100 ≤ off ∧ off < 0x21120 then
    (entryAt 2 0x10 off).bind fun m =>
      let e := s.emu[m]
      match off % 0x10 with
      | 0x0 => some (packed [(4, e.source % 4), (1, b2n (decide (65535 < |emuLag s m|))), (0, b2n e.running)])
      | 0x4 => some (packed [(0, b2n e.lagged)])
      | 0x8 => some (sat32 (emuLag s m))
      | 0xC => some (BitVec.ofInt 32 e.out)
      | _ => none
  else none

/-- A write of POS_FLAGS or EMU_FLAGS: W1C. -/
def writePosFlags (ch : Fin 4) (v : Word) (s : State) : State :=
  s.modPos ch fun p => { p with flags := p.flags &&& ~~~ (v.setWidth 13) }
def writeEmuFlags (m : Fin 2) (v : Word) (s : State) : State :=
  if v.getLsbD 0 then s.modEmu m fun e => { e with lagged := false } else s

/-! ### Hampers (R268, R272) -/

/-- The kind of a code (R239). -/
def posKindOf : Nat → Option PosKind
  | 0 => some .off
  | 1 => some .quad
  | 2 => some .stepDir
  | 3 => some .upDown
  | 4 => some .hall
  | 5 => some .ssi
  | 6 => some .bissC
  | _ => none

/-- The configuration that a POS_CONFIG request asks for (R272). -/
def posCfgOf (p : List Byte) : PosCfg where
  glitch := fld p 2 1
  policy := fld p 3 1
  invert := fld p 4 1
  index := fld p 5 1
  window := if fld p 6 1 = 0 then 4 else fld p 6 1
  stepEdge := fld p 7 1
  perIndex := fld p 8 4
  tolerance := fld p 12 1
  stopMs := if fld p 14 2 = 0 then 100 else fld p 14 2
  clkKhz := fld p 0x10 2
  dataBits := fld p 0x12 1
  serialFlags := fld p 0x13 1
  periodUs := fld p 0x14 2
  timeoutUs := fld p 0x16 1
  crcLen := fld p 0x17 1
  crcPoly := fld p 0x18 2
  latchNs := fld p 0x1A 2
  jumpLimit := fld p 0x1C 4

/-- A POS_CONFIG field lies outside its range (R272). -/
def posCfgBad (k : PosKind) (p : List Byte) : Bool :=
  let c := posCfgOf p
  decide (2 < c.policy) || decide (31 < c.invert) || decide (31 < c.index) || decide (64 < c.window) ||
  decide (2 < c.stepEdge) || decide (2 ^ 31 < c.perIndex) || !zeros p 13 1 || decide (1000 < c.stopMs) ||
  decide (31 < c.serialFlags) ||
  (if k.serial then
    decide (c.clkKhz < 100) || decide (10000 < c.clkKhz) || decide (c.dataBits < 8) || decide (40 < c.dataBits) ||
    decide (c.periodUs < 10) || c.timeoutUs == 0 || (c.crcLen != 0 && (decide (c.crcLen < 4) || decide (16 < c.crcLen)))
  else c.clkKhz != 0)

/-- The fields at offsets 0x10 to 0x1B. -/
def PosCfg.framing (c : PosCfg) : List Nat :=
  [c.clkKhz, c.dataBits, c.serialFlags, c.periodUs, c.timeoutUs, c.crcLen, c.crcPoly, c.latchNs]

/-- A POS_CONFIG resets P (R268). -/
def posResets (p : Pos) (k : PosKind) (c : PosCfg) : Bool :=
  p.kind != k || p.cfg.invert != c.invert || p.cfg.framing != c.framing

/-- An armed comparator, an open stream's pos_channel or an emulator names the channel (R268). -/
def posInUse (s : State) (ch : Fin 4) : Bool :=
  ((allFin 16).any fun n => (s.cmps[n]).live && (s.cmps[n]).source == ch.val) ||
  ((allFin 32).any fun n => (s.streams[n]).isOpen && (s.streams[n]).cfg.pos == ch.val) ||
  ((allFin 2).any fun m => (s.emu[m]).running && (s.emu[m]).source == ch.val)

/-- A new stop_timeout_ms applies without changing P (R257, R268): a channel that stands still stays there, and one that has been
without an event for as long already stops where it is. -/
def Pos.withStop (s : State) (stopMs : Nat) (p : Pos) : Pos :=
  { p with points := match p.points with
      | x :: rest =>
        let gap := (now s).toNat - timeOf s x.ev
        { x with stop := if x.stop ≤ gap then x.stop else max (stopMs * unitsPerMs) gap } :: rest
      | [] => [] }

/-- A configuration applies on a tick (R240, R268); a change to OFF keeps the last P (R240). -/
def applyPosCfg (ch : Fin 4) (k : PosKind) (c : PosCfg) (s : State) : State :=
  let p := s.pos[ch]
  if ¬ posResets p k c then
    let s := settleCmps ch (now s).toNat s
    s.modPos ch fun p => { (if p.cfg.stopMs = c.stopMs then p else p.withStop s c.stopMs) with cfg := c, idxReset := false }
  else
    let h := hold s (now s)
    let last := pNow s ch
    emit (.sensorIdle ch (clkRests k c)) <| s.modPos ch fun p =>
      let q := { p with cfg := c }
      { p with
        kind := k, cfg := c
        mode := if k = .off then .off else if k.serial then .starting else .running
        hallRef := (hallPlace q.hall).getD 6
        count := 0, fresh := true, serialDir := none, run := [], dirs := [], standstill := true, eventAt := none, skipAt := []
        points := if k.incremental then [⟨h, h, 0, none, 0, c.stopMs * unitsPerMs⟩] else []
        idxPrev := none, idxReset := false, fails := 0, heldP := if k = .off then last else 0
        cycle := none, cycleFrom := 0, cycleAt := s.elapsed, lineDelay := 0, samples := [], rPrev := none }

/-- POS_CONFIG (R264, R268, R272). -/
def posConfigBody (s : State) (h : Hamper) : Verdict :=
  let p := h.payload
  match fin? 4 (fld p 0 1), posKindOf (fld p 1 1) with
  | some ch, some k =>
    let c := posCfgOf p
    let resets := posResets s.pos[ch] k c
    if resets ∧ posInUse s ch then wrongState
    else if h.tail 32 || posCfgBad k p then badArg
    else
      let s := cancelPreset ch s
      if resets ∧ (s.pos[ch]).cycle.isSome then .later s ch else .ok (applyPosCfg ch k c s) []
  | _, _ => badArg

/-- POS_CONFIG (R268). -/
def execPosConfig (dt : Nat) (r : Req) (s : State) : Answer :=
  .next (serve r 0x0301 0 true posConfigBody (advance dt s))

/-- A POS_CONFIG that waited for a serial cycle applies (R268). -/
def posConfigApplies (ch : Fin 4) (s : State) : State :=
  match findOwed s 0x0301 ch with
  | some o =>
    if (s.pos[ch]).cycle.isSome then s
    else match posKindOf (fld o.payload 1 1) with
      | some k => replyOwed o stOk [] (applyPosCfg ch k (posCfgOf o.payload) s)
      | none => s
  | none => s

/-- POS_CONFIG_APPLY (R268). -/
def execPosConfigApply (dt : Nat) (ch : Fin 4) (s : State) : Answer := .next (posConfigApplies ch (advance dt s))

/-- The 56 bytes of a POS_STATUS reply (R272). -/
def posStatusBytes (s : State) (ch : Fin 4) : List Byte :=
  let p := s.pos[ch]
  record [(1, p.kind.code), (1, p.mode.code), (1, p.hall), (1, p.flags.toNat % 256), (4, p.skips.toNat),
    (8, sval 8 (pNow s ch)), (4, sval 4 (velCode (posV s p (now s).toNat))), (4, 0), (8, (nowNs s).toNat),
    (8, sval 8 p.idx), (4, p.idxCount.toNat), (4, p.serialTotal.toNat), (4, p.hallInvalid.toNat), (4, p.presets.toNat)]

/-- POS_STATUS (R263, R272). -/
def posStatusBody (s : State) (h : Hamper) : Verdict :=
  let p := h.payload
  match fin? 4 (fld p 0 1) with
  | none => badArg
  | some ch =>
    let x := s.pos[ch]
    let read := bit (fld p 1 1) 0
    if read ∧ (x.kind ≠ .bissC ∨ ¬ bit x.cfg.serialFlags 2 ∨ x.biss.isSome) then wrongState
    else if h.tail 8 || decide (1 < fld p 1 1) || (read && decide (127 < fld p 2 1)) || !zeros p 3 5 then badArg
    else if read then .accepted (accept h ch (s.modPos ch fun x => { x with biss := some ⟨fld p 2 1, 0, false⟩ })) []
    else .ok s (posStatusBytes s ch)

/-- POS_STATUS (R272). -/
def execPosStatus (dt : Nat) (r : Req) (s : State) : Answer :=
  .next (serve r 0x0302 0 false posStatusBody (advance dt s))

/-- POS_PRESET (R264, R272). -/
def posPresetBody (s : State) (h : Hamper) : Verdict :=
  let p := h.payload
  let v := sfld p 8 8
  match fin? 4 (fld p 0 1) with
  | none => badArg
  | some ch =>
    let k := (s.pos[ch]).kind
    if k = .off ∨ (fld p 1 1 = 1 ∧ k ≠ .quad) then wrongState
    else if h.tail 16 || decide (1 < fld p 1 1) || !zeros p 2 6 || decide (v < -(2 ^ 47)) || decide (2 ^ 47 ≤ v) then badArg
    else
      let s := cancelPreset ch s
      if fld p 1 1 = 1 then .accepted (accept h ch (s.modPos ch fun x => { x with waiting := some v })) []
      else
        let (delta, s) := presetNow ch v (hold s (now s)) s
        .ok s (record [(8, sval 8 delta), (8, (nowNs s).toNat)])

/-- POS_PRESET (R264). -/
def execPosPreset (dt : Nat) (r : Req) (s : State) : Answer :=
  .next (serve r 0x0303 0 true posPresetBody (advance dt s))

/-- EMU_CONFIG (R265, R267, R272). -/
def emuConfigBody (s : State) (h : Hamper) : Verdict :=
  let p := h.payload
  let source := fld p 1 1
  let n := fld p 4 4
  let d := fld p 8 4
  match fin? 2 (fld p 0 1) with
  | none => badArg
  | some m =>
    if h.tail 20 || (decide (3 < source) && source != 0xFF) || decide (15 < fld p 2 1) || !zeros p 3 1 || n == 0 ||
        decide (65536 < n) || d == 0 || decide (65536 < d) || !zeros p 16 4 then badArg
    else match fin? 4 source with
      | some c => .ok (emuOut m (s.modEmu m fun _ =>
          { running := true, source := source, flags := fld p 2 1, n := n, d := d, zPeriod := fld p 12 4, p0 := pNow s c
            out := 0, lagged := (s.emu[m]).lagged, exceeds := false, held := 0, stepAt := (s.emu[m]).stepAt })) []
      | none => .ok (s.modEmu m fun e => { e with running := false }) []

/-- EMU_CONFIG (R265). -/
def execEmuConfig (dt : Nat) (r : Req) (s : State) : Answer :=
  .next (serve r 0x0304 1 true emuConfigBody (advance dt s))

end Sys2Proof.Machine
end

