-- ==== Sys2Proof/Machine/CmpCmds.lean ====
section
/-! DEFINITION. Meanings of comparators, trigger outputs, cross lines and external inputs (R273 to R297). -/

namespace Sys2Proof.Machine

/-! ### Comparators -/

/-- A comparator's source has reached its target (R276, R293). -/
def comparatorFires (n : Fin 16) (s : State) : State :=
  let c := s.cmps[n]
  if ¬ (mainRuns s ∧ c.live) then s
  else match c.reached with
    | some r => if c.source = 4 then timeFires n r s else cmpFires n r s
    | none =>
      if c.source = 4 then
        match timeReach s c with
        | some r => timeFires n r s
        | none => s
      else (interpStep n (now s).toNat s).2

/-- COMPARATOR_FIRE (R276). -/
def execComparatorFire (dt : Nat) (n : Fin 16) (s : State) : Answer := .next (comparatorFires n (advance dt s))

/-- What the source brought about before this tick is carried out before a disarm; in the same tick the disarm wins
(Edges of chapter "Position-domain triggering"). -/
def settleOne (n : Fin 16) (s : State) : State :=
  let c := s.cmps[n]
  match c.reached with
  | some r => if r.tick < s.elapsed then comparatorFires n s else s
  | none => if c.source = 4 then s else interpAll 32 n ((now s).toNat - 1280) s

/-- The combinations that CMP_ARM refuses (R293, R297). -/
def cmpArmBad (s : State) (h : Hamper) : Bool :=
  let p := h.payload
  let source := fld p 1 1
  let qual := fld p 2 1
  let policy := fld p 3 1
  let mode := fld p 4 1
  let grid := bit mode 0
  let pitch := fld p 0x10 8
  let slots := fld p 0x20 4
  let report := bit mode 2
  let owned := match fin? 32 (fld p 5 1) with
    | some q => s.plan.queues[q] == h.fn
    | none => false
  h.tail 56 || decide (2 < qual) || decide (3 < policy) || decide (7 < mode) || (report && !owned) || !zeros p 6 2 ||
  (grid && source != 4 && (decide (pitch < 256) || decide (2 ^ 47 < pitch))) ||
  (grid && source == 4 && (pitch % 5 != 0 || decide (pitch < 1000))) ||
  (source == 4 && (qual != 0 || bit mode 1 || policy == 3)) ||
  (slots != 0 && (!slots.isPowerOfTwo || decide (slots < 4) || decide (4096 < slots) ||
    bufferBad s h.fn (bufferAt p 0x28) || decide ((bufferAt p 0x28).length < 32 * slots))) || !zeros p 0x24 4 ||
  (bufferAt p 0x28).reserved

/-- The comparator that a CMP_ARM request asks for, before its target is written (R281, R297). -/
def cmpOf (old : Cmp) (p : List Byte) : Cmp :=
  let grid := bit (fld p 4 1) 0
  { old with
    source := fld p 1 1
    qual := fld p 2 1
    policy := if fld p 3 1 = 0 then (if grid then 2 else 1) else fld p 3 1
    grid := grid
    interp := bit (fld p 4 1) 1
    report := bit (fld p 4 1) 2
    queue := fld p 5 1
    target := sfld p 8 8
    t0 := sfld p 8 8
    pitch := fld p 0x10 8
    gridCount := fld p 0x18 4
    hysteresis := fld p 0x1C 4
    slots := fld p 0x20 4
    recBase := (bufferAt p 0x28).addr
    recMillpond := (bufferAt p 0x28).millpond
    events := 0, skipped := 0, reached := none, nextTick := none }

/-- CMP_STATE's code of a state (R273). -/
def CmpMode.code : CmpMode → Nat
  | .idle => 0
  | .armed => 1
  | .held => 2
  | .done => 3

/-- CMP_ARM (R279 to R281, R293, R297). -/
def cmpArmBody (s : State) (h : Hamper) : Verdict :=
  let p := h.payload
  match fin? 16 (fld p 0 1) with
  | none => badArg
  | some n =>
    let source := fld p 1 1
    if s.plan.comparators[n] ≠ h.fn then notOwner
    else if (fin? 4 source).any fun ch => (s.pos[ch]).mode == .off then wrongState
    else if decide (4 < source) || cmpArmBad s h then badArg
    else
      let s := match fin? 4 (s.cmps[n]).source with
        | some ch => settleCmps ch (now s).toNat s
        | none => s
      let s := s.modCmp n fun c => cmpOf c p
      let v := cmpValue s s.cmps[n]
      let (a, s) := writeTarget n s
      let s := s.modCmp n fun c => { c with
        nextTick := if ¬ (c.source = 4 ∧ c.grid) then c.nextTick
          else if a.result = 1 then some (s.elapsed + c.pitch / 5)
          else if a.result = 2 ∨ a.result = 3 then some (s.elapsed + ticksUntil s c.target)
          else c.nextTick }
      .ok s (record [(8, (nowNs s).toNat), (8, sval 8 v), (1, a.result), (1, (s.cmps[n]).mode.code),
        (2, min 65535 a.points), (4, 0)])

/-- CMP_ARM (R279). -/
def execCmpArm (dt : Nat) (r : Req) (s : State) : Answer := .next (serve r 0x0310 0 false cmpArmBody (advance dt s))

/-- CMP_DISARM (R273, R297). -/
def cmpDisarmBody (s : State) (h : Hamper) : Verdict :=
  match fin? 16 (fld h.payload 0 1) with
  | none => badArg
  | some n =>
    if s.plan.comparators[n] ≠ h.fn then notOwner
    else if h.tail 4 || !zeros h.payload 1 3 then badArg
    else
      let s := settleOne n s
      let s := s.modCmp n fun c => { c with mode := .idle, reached := none }
      .ok (sweepWaits s) (leBytes 4 (s.cmps[n]).events.toNat)

/-- CMP_DISARM (R297). -/
def execCmpDisarm (dt : Nat) (r : Req) (s : State) : Answer :=
  .next (serve r 0x0311 0 false cmpDisarmBody (advance dt s))

/-- The next target of a comparator: for an EITHER grid the nearer lattice point above the point that fired last, or the
upper of its first bracket. -/
def Cmp.nextTarget (c : Cmp) : Int :=
  if c.grid ∧ c.qual = 2 then (c.fired.getD c.low) + c.pitch else c.target

/-- CMP_STATUS (R297). -/
def cmpStatusBody (s : State) (h : Hamper) : Verdict :=
  match fin? 16 (fld h.payload 0 1) with
  | none => badArg
  | some n =>
    if s.plan.comparators[n] ≠ h.fn then notOwner
    else if h.tail 4 || !zeros h.payload 1 3 then badArg
    else
      let c := s.cmps[n]
      .ok s (record [(1, c.mode.code), (1, c.source), (1, c.qual), (1, c.policy), (1, c.sticky.toNat), (3, 0),
        (4, c.events.toNat), (4, c.skipped.toNat), (8, sval 8 c.nextTarget), (8, sval 8 c.lastPos), (8, heldNs s c.lastTime)])

/-- CMP_STATUS (R297). -/
def execCmpStatus (dt : Nat) (r : Req) (s : State) : Answer :=
  .next (serve r 0x0312 0 false cmpStatusBody (advance dt s))

/-! ### Trigger outputs -/

/-- delay_ns ends, in whole ticks, and the ball shows the leading edge (R286). -/
def delayEnds (k : Fin 12) (s : State) : State :=
  let t := s.trigs.outs[k]
  if t.mode = .delay ∧ sinceNs s t.since t.cfg.delay then
    ballEdge k (s.modTrig k fun t => { t with mode := .pulse, since := t.since + t.cfg.delay / 5 })
  else if t.mode = .pulse ∧ t.due then ballEdge k s
  else s

/-- TRIG_DELAY_END (R286). -/
def execTrigDelayEnd (dt : Nat) (k : Fin 12) (s : State) : Answer := .next (delayEnds k (advance dt s))

/-- width_ns ends, and the TDC stamps the trailing edge (R123, R286). -/
def pulseEnds (k : Fin 12) (step : Nat) (s : State) : State :=
  let t := s.trigs.outs[k]
  if t.mode = .pulse ∧ sinceNs s t.since t.cfg.width then
    let s := tdcNote (.trig k) step (if t.due then ballEdge k s else s)
    s.modTrig k fun t => { t with
      mode := if t.cfg.holdoff = 0 then .idle else .holdoff, since := t.since + t.cfg.width / 5 }
  else s

/-- TRIG_PULSE_END (R286). -/
def execTrigPulseEnd (dt : Nat) (k : Fin 12) (step : Nat) (s : State) : Answer := .next (pulseEnds k step (advance dt s))

/-- holdoff_ns ends (R286). -/
def holdoffEnds (k : Fin 12) (s : State) : State :=
  let t := s.trigs.outs[k]
  if t.mode = .holdoff ∧ sinceNs s t.since t.cfg.holdoff then
    s.modTrig k fun t => { t with mode := .idle, since := t.since + t.cfg.holdoff / 5 }
  else s

/-- TRIG_HOLDOFF_END (R286). -/
def execTrigHoldoffEnd (dt : Nat) (k : Fin 12) (s : State) : Answer := .next (holdoffEnds k (advance dt s))

/-- The period generator fires (R285): the first time one period after the configuration applied. -/
def periodFires (k : Fin 12) (s : State) : State :=
  let t := s.trigs.outs[k]
  if t.cfg.on ∧ t.cfg.period ≠ 0 ∧ t.periodFrom + (t.periods + 1) * (t.cfg.period / 5) ≤ s.elapsed then
    (fireTrig k false false (leadNow s) (s.modTrig k fun t => { t with periods := t.periods + 1 })).2
  else s

/-- TRIG_PERIOD_TICK (R285). -/
def execTrigPeriodTick (dt : Nat) (k : Fin 12) (s : State) : Answer := .next (periodFires k (advance dt s))

/-! ### Cross lines and external inputs -/

/-- A falling edge that another instrument causes (R288, R289). -/
def xtrFalls (l : Fin 4) (step : Nat) (s : State) : State :=
  let x := s.trigs.xtr[l]
  if ¬ mainRuns s ∨ x.low then s
  else
    let (a, s) := tdcEdge (.xtr l) step s
    let stamp := a.held?.getD (hold s (now s))
    let close := match x.ended with
      | some e => !sinceNs s e x.cfg.guardNs
      | none => false
    let s := s.modXtr l fun x => { x with
      low := true, since := s.elapsed, close := close, released := none
      edge := if x.stuck then none else some stamp }
    if x.waiting then joinLine l s else s

/-- XTR_FALLING_EDGE (R288). -/
def execXtrFallingEdge (dt : Nat) (l : Fin 4) (step : Nat) (s : State) : Answer :=
  .next (xtrFalls l step (advance dt s))

/-- The line has stayed low for min_ns (R288). -/
def assertionTaken (l : Fin 4) (s : State) : State :=
  let x := s.trigs.xtr[l]
  if x.low ∧ x.edge.isSome ∧ sinceNs s x.since x.cfg.minNs then takeAssertion l s else s

/-- XTR_ASSERTION_TAKEN (R288). -/
def execXtrAssertionTaken (dt : Nat) (l : Fin 4) (s : State) : Answer := .next (assertionTaken l (advance dt s))

/-- drive_ns ends (R289, R290): the LV648 releases the line, which rises unless another instrument holds it low; its level is judged
200 ns later. -/
def driveEnds (l : Fin 4) (step : Nat) (stillLow : Bool) (s : State) : State :=
  let x := s.trigs.xtr[l]
  if x.driving ∧ sinceNs s x.since x.cfg.driveNs then
    let s := if stillLow then s else tdcNote (.xtr l) step s
    s.modXtr l fun x => { x with
      driving := false, low := stillLow, since := if stillLow then x.since else s.elapsed, ended := some s.elapsed
      released := some (hold s (now s), s.elapsed) }
  else s

/-- XTR_DRIVE_END (R289). -/
def execXtrDriveEnd (dt : Nat) (l : Fin 4) (step : Nat) (stillLow : Bool) (s : State) : Answer :=
  .next (driveEnds l step stillLow (advance dt s))

/-- A waiting drive request meets guard_ns (R289). -/
def guardEnds (l : Fin 4) (s : State) : State :=
  let x := s.trigs.xtr[l]
  if x.waiting ∧ ¬ x.stuck then
    if x.low then joinLine l s
    else if sinceNs s x.since x.cfg.guardNs then driveNow l s
    else s
  else s

/-- XTR_GUARD_END (R289). -/
def execXtrGuardEnd (dt : Nat) (l : Fin 4) (s : State) : Answer := .next (guardEnds l (advance dt s))

/-- 200 ns after a release (R289, R295): a line that has stayed low is another instrument's assertion; a STUCK one gives none. -/
def releaseJudged (l : Fin 4) (s : State) : State :=
  let x := s.trigs.xtr[l]
  match x.released with
  | none => s
  | some (h, t) =>
    if ¬ sinceNs s t 200 then s
    else if x.low ∧ ¬ x.stuck then
      assertion l h (leadNow s) (post 0x3304 wide l (s.modXtr l fun x => { x with joined := true, released := none, edge := none }))
    else s.modXtr l fun x => { x with released := none }

/-- XTR_RELEASE_CHECK (R289). -/
def execXtrReleaseCheck (dt : Nat) (l : Fin 4) (s : State) : Answer := .next (releaseJudged l (advance dt s))

/-- The line has stayed low for stuck_ms (R290). -/
def lineSticks (l : Fin 4) (s : State) : State :=
  let x := s.trigs.xtr[l]
  if x.cfg.stuckMs ≠ 0 ∧ x.low ∧ ¬ x.stuck ∧ sinceNs s x.since (x.cfg.stuckMs * 1000000) then
    post 0x3302 wide l (s.modXtr l fun x => { x with stuck := true, driving := false, waiting := false, edge := none })
  else s

/-- XTR_STUCK_TIMEOUT (R290). -/
def execXtrStuckTimeout (dt : Nat) (l : Fin 4) (s : State) : Answer := .next (lineSticks l (advance dt s))

/-- A STUCK line has been high for 1 ms (R290). -/
def lineClears (l : Fin 4) (s : State) : State :=
  let x := s.trigs.xtr[l]
  if x.stuck ∧ ¬ x.low ∧ sinceNs s x.since 1000000 then
    post 0x3303 wide l (s.modXtr l fun x => { x with stuck := false })
  else s

/-- XTR_STUCK_CLEAR (R290). -/
def execXtrStuckClear (dt : Nat) (l : Fin 4) (s : State) : Answer := .next (lineClears l (advance dt s))

/-- A runt is ignored and counted (R288, R295). -/
def runt (code unit : Nat) (s : State) : State :=
  post code wide unit (s.modTrigs fun t => { t with runts := t.runts + 1 })

/-- The active edge of an external input is taken once its level has lasted min_ns (R288). -/
def extTaken (e : Fin 2) (s : State) : State :=
  let x := s.trigs.ext[e]
  match x.edge with
  | some h => if sinceNs s x.since x.minNs then extFires e h s else s
  | none => s

/-- The level of an external input (R123, R288): an edge is stamped; an active one starts the min_ns filter, and one back within
min_ns ends a runt. -/
def extMoves (e : Fin 2) (pin : Line) (s : State) : State :=
  let x := s.trigs.ext[e]
  if ¬ mainRuns s then s
  else
    let s := extTaken e s
    if pin.level = x.level then s
    else
      let s := if (s.trigs.ext[e]).edge.isSome then runt 0x3305 e s else s
      let (a, s) := tdcEdge (.ext e) pin.step s
      let stamp := a.held?.getD (hold s (now s))
      s.modExt e fun x => { x with
        level := pin.level, since := s.elapsed, edge := if pin.level = x.rising then some stamp else none }

/-- EXT_EDGE (R288). -/
def execExtEdge (dt : Nat) (e : Fin 2) (pin : Line) (s : State) : Answer := .next (extMoves e pin (advance dt s))

/-- A line returns to its inactive level: within min_ns the pulse was a runt; later the assertion has been taken and only
the level changes (R288). -/
def pulseReturns (line : FilteredLine) (step : Nat) (s : State) : State :=
  if ¬ mainRuns s then s
  else match line with
    | .xtr l =>
      let x := s.trigs.xtr[l]
      if ¬ x.low ∨ x.driving then s
      else
        let short := x.edge.isSome && !sinceNs s x.since x.cfg.minNs
        let s := tdcNote (.xtr l) step s
        let s := if short then runt 0x3301 l s else takeAssertion l s
        s.modXtr l fun x => { x with
          low := false, edge := none, close := false, since := s.elapsed, released := none
          ended := if short then x.ended else some s.elapsed }
    | .ext e => extMoves e ⟨!(s.trigs.ext[e]).rising, step⟩ s

/-- RUNT_PULSE_END (R288). -/
def execRuntPulseEnd (dt : Nat) (line : FilteredLine) (step : Nat) (s : State) : Answer :=
  .next (pulseReturns line step (advance dt s))

/-! ### Registers (R296) -/

/-- A full read of CMP_TARGET_LO. -/
def readCmpTargetLo (n : Fin 16) (s : State) : Word × State :=
  let t := (s.cmps[n]).nextTarget
  (loWord t, s.modCmp n fun c => { c with latchTargetHi := hiWord t })

/-- CMP_TARGET_LO_READ (R296). -/
def execCmpTargetLoRead (dt : Nat) (fn : Fn) (n : Fin 16) (s : State) : Answer :=
  .next (readRegister fn (0x21208 + 0x20 * n) (readCmpTargetLo n) (advance dt s))

/-- A full read of CMP_FIRE_LO. -/
def readCmpFireLo (n : Fin 16) (s : State) : Word × State :=
  let c := s.cmps[n]
  let t := heldNs s c.lastTime
  (loWord c.lastPos, s.modCmp n fun c => { c with
    latchPosHi := hiWord c.lastPos, latchNsLo := BitVec.ofNat 32 t, latchNsHi := BitVec.ofNat 32 (t / 2 ^ 32) })

/-- CMP_FIRE_LO_READ (R296). -/
def execCmpFireLoRead (dt : Nat) (fn : Fn) (n : Fin 16) (s : State) : Answer :=
  .next (readRegister fn (0x21210 + 0x20 * n) (readCmpFireLo n) (advance dt s))

/-- A full read of TRIG_MERGED. -/
def readTrigMerged (s : State) : Word × State := (s.trigs.merged, s.modTrigs fun t => { t with merged := 0 })

/-- TRIG_MERGED_READ (R296). -/
def execTrigMergedRead (dt : Nat) (fn : Fn) (s : State) : Answer :=
  .next (readRegister fn 0x21404 readTrigMerged (advance dt s))

/-- A full read of XTR_RUNTS. -/
def readXtrRunts (s : State) : Word × State := (s.trigs.runts, s.modTrigs fun t => { t with runts := 0 })

/-- XTR_RUNTS_READ (R296). -/
def execXtrRuntsRead (dt : Nat) (fn : Fn) (s : State) : Answer :=
  .next (readRegister fn 0x2140C readXtrRunts (advance dt s))

/-- Bits of a bank. -/
def bankBits {α : Type} {n : Nat} (v : Vector α n) (f : α → Bool) : Nat :=
  (v.toList.mapIdx fun i x => if f x then 2 ^ i else 0).sum

/-- The comparator and trigger registers whose reads have no effect: none at an unimplemented offset. -/
def trigRegister (s : State) (off : Nat) : Option Word :=
  let t := s.trigs
  if 0x21200 ≤ off ∧ off < 0x21400 then
    (entryAt 16 0x20 off).bind fun n =>
      let c := s.cmps[n]
      match off % 0x20 with
      | 0x00 => some (packed [(16, c.sticky.toNat), (10, c.policy), (8, c.qual), (4, c.source), (3, b2n c.grid),
          (0, c.mode.code)])
      | 0x04 => some c.events
      | 0x0C => some c.latchTargetHi
      | 0x14 => some c.latchPosHi
      | 0x18 => some c.latchNsLo
      | 0x1C => some c.latchNsHi
      | _ => none
  else if off = 0x21400 then
    some (packed [(16, bankBits t.outs fun o => (o.mode == .pulse) != o.cfg.low), (0, bankBits t.outs fun o => o.mode != .idle)])
  else if off = 0x21408 then
    some (packed [(20, bankBits t.ext Ext.level), (16, bankBits t.xtr Xtr.joined),
      (8, bankBits t.xtr Xtr.stuck), (4, bankBits t.xtr Xtr.driving), (0, bankBits t.xtr Xtr.low)])
  else none

/-- A write of CMP_STATE: its sticky bits are W1C. -/
def writeCmpState (n : Fin 16) (v : Word) (s : State) : State :=
  s.modCmp n fun c => { c with sticky := c.sticky &&& ~~~ BitVec.ofNat 3 (v.toNat / 2 ^ 16) }

/-- A write of XTR_STATE: joined is W1C. -/
def writeXtrState (v : Word) (s : State) : State :=
  (allFin 4).foldl (fun (s : State) l =>
    if v.getLsbD (16 + l.val) then s.modXtr l fun x => { x with joined := false } else s) s

/-! ### Hampers (R297) -/

/-- The settings that a TRIG_CONFIG request asks for. -/
def trigCfgOf (p : List Byte) : TrigCfg where
  on := fld p 1 1 = 1
  low := fld p 2 1 = 1
  cmpMask := BitVec.ofNat 16 (fld p 4 2)
  xtrMask := BitVec.ofNat 4 (fld p 6 1)
  extMask := BitVec.ofNat 2 (fld p 7 1)
  delay := fld p 8 4
  width := fld p 12 4
  holdoff := fld p 16 4
  period := fld p 20 4

/-- A TRIG_CONFIG field lies outside its range. -/
def trigCfgBad (p : List Byte) : Bool :=
  let c := trigCfgOf p
  decide (1 < fld p 1 1) || decide (1 < fld p 2 1) || !zeros p 3 1 || decide (15 < fld p 6 1) || decide (3 < fld p 7 1) ||
  decide (1000000 < c.delay) || c.delay % 5 != 0 || decide (c.width < 10) || decide (1000000 < c.width) ||
  c.width % 5 != 0 || decide (1000000 < c.holdoff) || c.holdoff % 5 != 0 ||
  (c.period != 0 && (decide (c.period < 1000) || decide (1000000000 < c.period) || c.period % 5 != 0)) || !zeros p 24 8

/-- An output's settings apply (R285, R297). -/
def applyTrigCfg (k : Fin 12) (c : TrigCfg) (s : State) : State :=
  s.modTrig k fun t => { t with cfg := c, periodFrom := s.elapsed, periods := 0 }

/-- TRIG_CONFIG (R297): on a busy output it waits for IDLE, and so does its reply. -/
def trigConfigBody (s : State) (h : Hamper) : Verdict :=
  match fin? 12 (fld h.payload 0 1) with
  | none => badArg
  | some k =>
    if h.tail 32 || trigCfgBad h.payload then badArg
    else if (s.trigs.outs[k]).mode = .idle then .ok (applyTrigCfg k (trigCfgOf h.payload) s) []
    else .later s k

/-- TRIG_CONFIG (R297). -/
def execTrigConfig (dt : Nat) (r : Req) (s : State) : Answer :=
  .next (serve r 0x0320 0 true trigConfigBody (advance dt s))

/-- The settings that an XTR_CONFIG request asks for on a cross line. -/
def xtrCfgOf (p : List Byte) : XtrCfg where
  drive := fld p 1 1 = 1
  cmpMask := BitVec.ofNat 16 (fld p 4 2)
  extMask := BitVec.ofNat 2 (fld p 6 1)
  minNs := if fld p 8 4 = 0 then 100 else fld p 8 4
  driveNs := if fld p 12 4 = 0 then 2000 else fld p 12 4
  guardNs := fld p 16 4
  stuckMs := fld p 20 2

/-- An XTR_CONFIG field lies outside its range. -/
def xtrCfgBad (p : List Byte) : Bool :=
  let c := xtrCfgOf p
  let ext := decide (4 ≤ fld p 0 1)
  decide (1 < fld p 1 1) || (ext && c.drive) || decide (1 < fld p 2 1) || (!ext && fld p 2 1 != 0) || !zeros p 3 1 ||
  decide (3 < fld p 6 1) || !zeros p 7 1 || decide (c.minNs < 20) || decide (1000000 < c.minNs) || c.minNs % 5 != 0 ||
  decide (c.driveNs < 100) || decide (1000000 < c.driveNs) || decide (1000000 < c.guardNs) || decide (60000 < c.stuckMs) ||
  !zeros p 22 10

/-- A line's settings apply (R297). -/
def applyXtrCfg (line : Nat) (p : List Byte) (s : State) : State :=
  match fin? 4 line with
  | some l => s.modXtr l fun x => { x with cfg := xtrCfgOf p }
  | none =>
    match fin? 2 (line - 4) with
    | some e => s.modExt e fun x => { x with rising := fld p 2 1 = 1, minNs := (xtrCfgOf p).minNs, edge := none }
    | none => s

/-- A cross line that is driven, or waits to be (R297). -/
def lineBusy (s : State) (line : Nat) : Bool :=
  match fin? 4 line with
  | some l => (s.trigs.xtr[l]).driving || (s.trigs.xtr[l]).waiting
  | none => false

/-- XTR_CONFIG (R297). -/
def xtrConfigBody (s : State) (h : Hamper) : Verdict :=
  let p := h.payload
  let line := fld p 0 1
  if decide (5 < line) || h.tail 32 || xtrCfgBad p then badArg
  else if lineBusy s line then .later s line
  else .ok (applyXtrCfg line p s) []

/-- XTR_CONFIG (R297). -/
def execXtrConfig (dt : Nat) (r : Req) (s : State) : Answer :=
  .next (serve r 0x0321 0 true xtrConfigBody (advance dt s))

/-- A waiting configuration applies, and its reply follows (R297). -/
def outputConfigApplies (sel : OutputSel) (s : State) : State :=
  match sel with
  | .trig k =>
    (match findOwed s 0x0320 k with
      | some o => if (s.trigs.outs[k]).mode = .idle then replyOwed o stOk [] (applyTrigCfg k (trigCfgOf o.payload) s) else s
      | none => s)
  | .xtr l =>
    (match findOwed s 0x0321 l with
      | some o => if lineBusy s l then s else replyOwed o stOk [] (applyXtrCfg l o.payload s)
      | none => s)
  | .ext e =>
    (match findOwed s 0x0321 (4 + e) with
      | some o => replyOwed o stOk [] (applyXtrCfg (4 + e) o.payload s)
      | none => s)

/-- OUTPUT_CONFIG_APPLY (R297). -/
def execOutputConfigApply (dt : Nat) (sel : OutputSel) (s : State) : Answer :=
  .next (outputConfigApplies sel (advance dt s))

/-- TRIG_FIRE (R285, R289, R291, R297): host fires of outputs and cross lines on one tick. -/
def trigFireBody (s : State) (h : Hamper) : Verdict :=
  let p := h.payload
  let trigs := BitVec.ofNat 16 (fld p 0 2)
  let lines := BitVec.ofNat 8 (fld p 2 1)
  if h.tail 8 || decide (0x0FFF < fld p 0 2) || decide (15 < fld p 2 1) || !zeros p 3 5 || (trigs == 0 && lines == 0) then
    badArg
  else
    let stamp := hold s (now s)
    let (merged, s) := (allFin 12).foldl (fun (r : Nat × State) (k : Fin 12) =>
      if trigs.getLsbD k then
        let (m, s) := fireTrig k false false (leadNow r.2) r.2
        (if m then r.1 + 2 ^ k.val else r.1, s)
      else r) (0, s)
    let (joined, s) := (allFin 4).foldl (fun (r : Nat × State) (l : Fin 4) =>
      if lines.getLsbD l then
        let (j, s) := driveXtr l r.2
        (if j then r.1 + 2 ^ l.val else r.1, s)
      else r) (0, s)
    let s := publish 0x30 stamp 0 s
    .ok s (record [(8, (nowNs s).toNat), (2, merged), (1, joined), (5, 0)])

/-- TRIG_FIRE (R297). -/
def execTrigFire (dt : Nat) (r : Req) (s : State) : Answer :=
  .next (serve r 0x0322 1 true trigFireBody (advance dt s))

end Sys2Proof.Machine
end

