-- ==== Sys2Proof/Machine/GuardParse.lean ====
section
/-! DEFINITION. The guardian's records as bytes: regions, references, layouts, templates and configuration (R178 to R180,
R193, R200, R207). -/

namespace Sys2Proof.Machine

/-- Consecutive pieces of `n` bytes, at most `fuel` of them. -/
def pieces (n : Nat) : Nat → List Byte → List (List Byte)
  | 0, _ => []
  | fuel + 1, bs => if bs.isEmpty then [] else bs.take n :: pieces n fuel (bs.drop n)

/-- One region entry, when each field lies in its range (R178, R179). -/
def parseRegion (p : List Byte) : Option Region :=
  let r : Region := ⟨fld p 0 1, fld p 1 1, fld p 4 2, fld p 6 2, fld p 8 2, fld p 10 2, fld p 12 2, fld p 14 2,
    fld p 16 2, fld p 20 4⟩
  let kind := fld p 2 1
  if r.region ≤ 31 ∧ r.telltale ≤ 63 ∧ kind ≤ 1 ∧ zeros p 3 1 ∧ zeros p 18 2 ∧ zeros p 24 8 ∧ 1 ≤ r.w ∧ r.w ≤ 512 ∧
      1 ≤ r.h ∧ r.h ≤ 512 ∧ r.onRef ≤ 127 ∧ r.offRef ≤ 127 ∧ r.tolerance ≤ 1023 ∧ r.maxMismatch ≤ 262144 ∧
      (kind = 1 ∨ (r.tolerance = 0 ∧ r.maxMismatch = 0)) ∧ r.x + r.w ≤ 3840 ∧ r.y + r.h ≤ 1440 then
    some r
  else none

/-- Region numbers are distinct, and no line carries more than 4 096 columns of regions (R179). -/
def regionsOk (rs : List Region) : Bool :=
  (rs.map Region.region).Nodup &&
  rs.all fun a => decide (((rs.filter fun b => b.y ≤ a.y ∧ a.y < b.y + b.h).map Region.w).sum ≤ 4096)

/-- A region table of 32-byte entries (R178). -/
def parseRegions (bytes : List Byte) : Option (List Region) :=
  match (pieces 32 32 bytes).mapM parseRegion with
  | some rs => if bytes.length % 32 = 0 ∧ bytes.length ≤ 1024 ∧ regionsOk rs then some rs else none
  | none => none

/-- The reference of an index. -/
def refAt (refs : Vector (Option Look) 128) (i : Nat) : Option Look := (refs.toList[i]?).join

/-- A loaded reference has the size of its region (R179). -/
def refFits (refs : Vector (Option Look) 128) (r : Region) : Bool :=
  [r.onRef, r.offRef].all fun i =>
    match refAt refs i with
    | some l => l.w == r.w && l.h == r.h
    | none => true

/-- `count` looks of a reference blob, with the bytes they take (R180, R207). -/
def parseLooks : Nat → List Byte → Option (List Look × Nat)
  | 0, _ => some ([], 0)
  | n + 1, bs =>
    let w := fld bs 0 2
    let h := fld bs 2 2
    let size := 8 + 4 * (w * h)
    if w = 0 ∨ 512 < w ∨ h = 0 ∨ 512 < h ∨ bs.length < size ∨ ¬ zeros bs 4 4 then none
    else
      let words := (pieces 4 (w * h) ((bs.drop 8).take (4 * (w * h)))).map fun b => BitVec.ofNat 32 (ofLeBytes b)
      if words.any fun v => v.getLsbD 31 then none
      else (parseLooks n (bs.drop size)).map fun r => (⟨w, h, words⟩ :: r.1, size + r.2)

/-- How many looks fill a blob to its end. -/
def countLooks : Nat → List Byte → Nat
  | 0, _ => 0
  | n + 1, bs =>
    if bs.length < 8 then 0 else 1 + countLooks n (bs.drop (8 + 4 * (fld bs 0 2 * fld bs 2 2)))

/-- A whole reference blob from index 0 (R207, outing key 4). -/
def parseBlob (bs : List Byte) : Option (List Look) :=
  match parseLooks (min 128 (countLooks 129 bs)) bs with
  | some (l, used) => if used = bs.length then some l else none
  | none => none

/-- A look as its blob holds it (R180, R207). -/
def lookBytes (l : Look) : List Byte :=
  record [(2, l.w), (2, l.h), (4, 0)] ++ l.words.flatMap fun v => leBytes 4 v.toNat

/-- References placed from an index. -/
def placeLooks (first : Nat) (l : List Look) (refs : Vector (Option Look) 128) : Vector (Option Look) 128 :=
  Vector.ofFn fun i => if first ≤ i.val then (match l[i.val - first]? with
    | some x => some x
    | none => refs[i]) else refs[i]

/-- The bytes that references take in the guardian area (R203). -/
def refsBytes (refs : Vector (Option Look) 128) : Nat :=
  (refs.toList.map fun o => match o with
    | some l => 8 + 4 * (l.w * l.h)
    | none => 0).sum

/-- An item of a layout as an EXACT region (R195); its size is its on_ref's. -/
def itemRegion (refs : Vector (Option Look) 128) (n : Nat) (it : Nat × Nat × Nat × Nat × Nat) : Region :=
  let (t, x, y, on, off) := it
  let l := refAt refs on
  ⟨n, t, x, y, (l.map Look.w).getD 0, (l.map Look.h).getD 0, on, off, 0, 0⟩

/-- The early regions of a layout (R195). -/
def earlyRegions (refs : Vector (Option Look) 128) (l : Layout) : List Region :=
  l.items.mapIdx fun n it => itemRegion refs n it

/-- A layout's bytes (R193); the camera window is DISP1's alone. -/
def parseLayout (path : Nat) (p : List Byte) : Option Layout :=
  let f := fld p 0x22 1
  let n := fld p 0x15 1
  let items := (pieces 12 32 (p.drop 40)).map fun b => (fld b 0 1, fld b 2 2, fld b 4 2, fld b 6 2, fld b 8 2)
  let reserved := (pieces 12 32 (p.drop 40)).all fun b => zeros b 1 1 && zeros b 10 2 && decide (fld b 0 1 ≤ 63)
  if n ≤ 32 ∧ p.length = 40 + 12 * n ∧ f / 8 = 0 ∧ zeros p 0x23 5 ∧ reserved ∧ (fld p 0x14 1 = 8 ∨ fld p 0x14 1 = 10) then
    some ⟨fld p 0 4, (List.range 8).map fun i => fld p (4 + 2 * i) 2, fld p 0x14 1, BitVec.ofNat 32 (fld p 0x16 4),
      fld p 0x1A 2, fld p 0x1C 2, if path = 1 then fld p 0x1E 2 else 0, fld p 0x20 2, bit f 0, f / 2 % 4, items⟩
  else none

/-- The active width and height of a layout. -/
def Layout.active (l : Layout) : Nat × Nat := (l.timing.getD 0 0, l.timing.getD 2 0)

/-- The timing that a layout gives the path's own frames (R167, R193). -/
def Layout.msa (l : Layout) : Msa :=
  let t (i : Nat) : Nat := l.timing.getD i 0
  ⟨l.khz * 1000, t 0, t 1, t 2, t 3, t 4, t 5, t 6, t 7, l.bpc, true, Config.ownColorimetry⟩

/-- The bytes of the two window buffers of a layout (R203). -/
def Layout.rearBytes (l : Layout) : Nat := 4 * (l.camW * l.camH)

/-- The guardian area of 16 MiB has room beside the verdict and digest stores for references, rear buffers and templates of
these sizes (R203). -/
def areaHolds (refs0 refs1 camera templates : Nat) : Bool :=
  decide (refs0 ≤ 0x300000) && decide (refs1 ≤ 0x300000) &&
  decide (refs0 + refs1 + camera + templates + 2 * (4096 * 64 + 64 * 256) ≤ 0x1000000)

/-- A layout stays within R165, clears its camera window, and names references that exist (R193). -/
def layoutOk (refs : Vector (Option Look) 128) (l : Layout) : Bool :=
  let total := l.timing.getD 1 0 * l.timing.getD 3 0
  decide (l.active.1 ≤ 3840) && decide (l.active.2 ≤ 1440) && decide (l.khz ≤ 361000) &&
  decide (l.khz * 1000 ≤ 60 * total) &&
  (earlyRegions refs l).all fun r =>
    (refAt refs r.onRef).isSome && (refAt refs r.offRef).isSome && refFits refs r &&
    (l.camW == 0 || decide (r.x + r.w ≤ l.camX) || decide (l.camX + l.camW ≤ r.x) ||
      decide (r.y + r.h ≤ l.camY) || decide (l.camY + l.camH ≤ r.y))

/-- `count` chime templates of a blob, with the bytes they take (R200). -/
def parseTemplates : Nat → List Byte → Option (List Template × Nat)
  | 0, _ => some ([], 0)
  | n + 1, bs =>
    let hops := fld bs 3 1
    let size := 32 + 80 * hops
    let mask := fld bs 10 8
    if 63 < fld bs 0 1 ∨ 1 < fld bs 1 1 ∨ 7 < fld bs 2 1 ∨ hops = 0 ∨ 64 < hops ∨ fld bs 4 2 < 50 ∨ 2000 < fld bs 4 2 ∨
        mask = 0 ∨ 2 ^ 40 ≤ mask ∨ ¬ zeros bs 18 14 ∨ bs.length < size then none
    else
      let values := (pieces 80 hops ((bs.drop 32).take (80 * hops))).map fun row =>
        (pieces 2 40 row).map fun b => signedOf 16 (ofLeBytes b)
      let t : Template := ⟨fld bs 0 1, fld bs 1 1, fld bs 2 1, hops, fld bs 4 2, fld bs 6 2, sfld bs 8 2,
        BitVec.ofNat 40 mask, values⟩
      (parseTemplates n (bs.drop size)).map fun r => (t :: r.1, size + r.2)

/-- A template as its blob holds it (R200). -/
def templateRecord (t : Template) : List Byte :=
  record [(1, t.telltale), (1, t.input), (1, t.slot), (1, t.hops), (2, t.windowMs), (2, t.threshold), (2, sval 2 t.minRms),
    (8, t.mask.toNat), (14, 0)] ++ t.values.flatMap fun row => row.flatMap fun v => leBytes 2 (sval 2 v)

/-- How many templates fill a blob. -/
def countTemplates : Nat → List Byte → Nat
  | 0, _ => 0
  | n + 1, bs => if bs.isEmpty then 0 else 1 + countTemplates n (bs.drop (32 + 80 * fld bs 3 1))

/-- A whole template blob (outing key 5). -/
def parseTemplateBlob (bs : List Byte) : Option (List Template) :=
  match parseTemplates (countTemplates 17 bs) bs with
  | some (l, used) => if used = bs.length ∧ l.length ≤ 16 then some l else none
  | none => none

/-- A guardian configuration, when each field lies in its range (R207). -/
def parseGuardCfg (p : List Byte) : Option GuardCfg :=
  let c : GuardCfg := ⟨fld p 0 2, fld p 2 2, fld p 4 2, fld p 6 2, fld p 8 2, fld p 10 2⟩
  if 20 ≤ c.tslTimeout ∧ c.tslTimeout ≤ 200 ∧ c.tslTimeout < c.tslLoss ∧ c.tslLoss ≤ 2000 ∧ c.settle ≤ 500 ∧
      200 ≤ c.blinkMax ∧ c.blinkMax ≤ 2000 ∧ 200 ≤ c.blinkPeriod ∧ c.blinkPeriod ≤ 2000 ∧
      50 ≤ c.cameraStale ∧ c.cameraStale ≤ 1000 ∧ zeros p 12 4 then
    some c
  else none

end Sys2Proof.Machine
end

