-- ==== Sys2Proof/Machine/StartOps.lean ====
section
/-! DEFINITION. The start sequence, the journal, the measurement engine and the full reset (R131 to R157, R492 to R496).
-/

namespace Sys2Proof.Machine

/-- Change the start, the power state, MRAM. -/
def State.modStart (s : State) (g : Start → Start) : State := { s with start := g s.start }
def State.modPower (s : State) (g : Power → Power) : State := { s with pwr := g s.pwr }
def State.modMram (s : State) (g : Mram → Mram) : State := { s with mram := g s.mram }

/-! ### Measurement -/

/-- Extend a slot with measured bytes (R155 to R157): extender 0 ROM, 1 loader, 2 Valtyn, 3 debug unit. -/
def extend (slot : Fin 8) (extender : Nat) (bytes : List Byte) (s : State) : State :=
  let d := sha384 bytes
  let m := s.meas
  let e : Extension := ⟨m.count + 1, slot, extender, nowNs s, d⟩
  let m1 : Meas := { m with
    slots := vmod m.slots slot fun v => sha384 (v ++ d)
    count := m.count + 1
    log := m.log ++ [e] }
  match m1.log with
  | old :: rest =>
    if 256 < m1.log.length then
      post 0x9007 wide wide { s with meas := { m1 with
        log := rest
        base := match fin? 8 old.slot with
          | some i => vmod m1.base i fun v => sha384 (v ++ old.digest)
          | none => m1.base
        baseCount := old.count } }
    else { s with meas := m1 }
  | [] => { s with meas := m1 }

/-- The debug state extends M6 (R155). -/
def extendDebug (isOpen : Bool) (s : State) : State :=
  extend 6 3 (record [(1, b2n isOpen), (7, 0), (8, (nowNs s).toNat)]) s

/-! ### The journal -/

/-- The bank of a start number (R141). -/
def bankOf (n : Word) : Fin 16 := ⟨n.toNat % 16, Nat.mod_lt _ (by decide)⟩

/-- Append a record to the present start's bank (R141, R143). -/
def jot (kind step inst route durationUs cause detail : Nat) (s : State) : State :=
  let r : Record :=
    { kind := kind, step := step, inst := inst, route := route, startNumber := s.start.number, timeNs := nowNs s
      durationUs := BitVec.ofNat 32 durationUs, cause := cause, detail := BitVec.ofNat 32 detail, good := true }
  s.modMram fun m => { m with
    banks := vmod m.banks (bankOf s.start.number) fun b => b.map fun b =>
      if b.records.length < 384 then { b with records := b.records ++ [r] } else b }

/-- The newest bank with a good header that is not the present start's (R145). -/
def newestBank (s : State) : Option Bank :=
  (allFin 16).foldl (fun best i =>
    match s.mram.banks[i] with
    | some b =>
      if b.headerGood && b.startNumber != s.start.number then
        (match best with
          | some a => if a.startNumber < b.startNumber then some b else best
          | none => some b)
      else best
    | none => best) none

/-- Steps that are mandatory, and those with an alternate (R135, R144). -/
def mandatory (step : Nat) : Bool := step ≤ 14 || step == 19
def hasAlternate (step : Nat) : Bool := [2, 3, 5, 6, 8, 9, 11, 12, 14].contains step

/-- The other route that a step takes in the start when one fails (R135, R137, R140): its alternate, which ST04 has too, and
for ST02 and ST05 also the primary that a learned use_alternate passed over, so that both slots or copies are tried. -/
def otherRoute (step route : Nat) : Option Nat :=
  if route = 0 ∧ step ≠ 3 ∧ (hasAlternate step ∨ step = 4) then some 1
  else if route = 1 ∧ (step = 2 ∨ step = 5) then some 0
  else none

/-- The entry of a step, created with zeros if absent. -/
def entryOf (l : List Learned) (step inst : Nat) : Learned :=
  (l.find? fun e => e.step = step ∧ e.inst = inst).getD ⟨step, inst, 0, false, false, 0, 0⟩

/-- Replace or add an entry. -/
def putLearned (e : Learned) (l : List Learned) : List Learned :=
  if l.any fun x => x.step = e.step ∧ x.inst = e.inst then
    l.map fun x => if x.step = e.step ∧ x.inst = e.inst then e else x
  else l ++ [e]

/-- One record of the fold (R144): its entry is created with zeros if absent, whatever its kind. -/
def foldRecord (l : List Learned) (r : Record) : List Learned :=
  if r.kind = 0x12 then []
  else
    let e := entryOf l r.step r.inst
    if r.kind = 2 then
      let e := { e with failCount := 0, skip := false, lastStart := r.startNumber }
      if r.route ≠ 1 ∨ [8, 9, 11, 12, 14].contains r.step then
        putLearned { e with params := r.detail.setWidth 192, useAlternate := false } l
      else putLearned e l
    else if r.kind = 3 then
      let e := { e with failCount := min (e.failCount + 1) 255, lastStart := r.startNumber }
      if mandatory r.step ∧ hasAlternate r.step ∧ r.route = 0 then putLearned { e with useAlternate := true } l
      else if ¬ mandatory r.step ∧ e.failCount ≥ 2 then putLearned { e with skip := true } l
      else putLearned e l
    else putLearned e l

/-- A STARTED record of a bank without its outcome (R146). -/
def openRecords (rs : List Record) : List Record :=
  let rec go : List Record → List Record
    | [] => []
    | r :: rest =>
      if r.kind = 1 ∧ ¬ (rest.any fun x => x.step = r.step ∧ x.inst = r.inst ∧ (x.kind = 2 ∨ x.kind = 3)) then
        r :: go rest
      else go rest
  go rs

/-- A STARTED record whose outcome is missing becomes INTERRUPTED rather than FAILED: any of them when power was lost
without a SHUTDOWN, and ST03's whatever the cause (R146). -/
def interrupted (cause : Nat) (b : Bank) : List Record :=
  let loss : Bool := cause == 0x04 && !(b.records.any fun r => r.kind = 0x11)
  (openRecords b.records).filter fun r => loss || r.step == 3

/-- The records that a bank folds to: the outcomes of R146 for STARTED records without one. The Boolean is whether a torn
last record was ignored, and the records that count as FAILED with 0x8005 follow. -/
def foldable (cause : Nat) (b : Bank) : List Record × Bool × List Record :=
  let hasShutdown := b.records.any fun r => r.kind = 0x11
  let loss : Bool := cause == 0x04 && !hasShutdown
  let torn : Bool := loss && (match b.records.getLast? with
    | some r => !r.good
    | none => false)
  let rs := if torn then b.records.dropLast else b.records
  let extra := if loss then [] else (openRecords rs).filter fun r => r.step ≠ 3
  (rs ++ extra.map fun r => { r with kind := 3, cause := 0x8005 }, torn, extra)

/-- The learned state folded from the newest bank, and whether the start takes the fast path (R144 to R146). -/
def foldBank (cause : Nat) (clear : List Nat) (b : Option Bank) : List Learned × Bool × Bool × List Record :=
  match b with
  | none => ([], false, false, [])
  | some b =>
    let (rs, torn, n) := foldable cause b
    let l := rs.foldl foldRecord b.learned
    let l := l.map fun e => if clear.contains e.step then { e with useAlternate := false } else e
    let ok := b.learnedGood && rs.all Record.good && !l.isEmpty && !(rs.any fun r => r.kind = 0x12)
    (if ok then l.take 126 else [], ok, torn, n)

/-! ### Firmware images and slots -/

/-- The header of an image is good for its length (R147, R148). -/
def headerGood (h : List Byte) : Bool :=
  fld h 0 4 == 0x56414C31 && fld h 0xFC 4 == crc32c (h.take 0xFC) && decide (0x100 ≤ fld h 0x1C 4) &&
  decide (fld h 0x1C 4 ≤ 0x200000) && decide (fld h 8 4 + fld h 0xC 4 ≤ fld h 0x1C 4) &&
  decide (fld h 0x10 4 + fld h 0x14 4 ≤ fld h 0x1C 4)

/-- A slot is intact (R148). -/
def intact (image : List Byte) : Bool :=
  headerGood image && decide (fld image 0x1C 4 ≤ image.length) &&
  fld image 0x18 4 == crc32c (slice image 0x100 (fld image 0x1C 4 - 0x100))

/-- Image header and loader section, and the Valtyn section (R155). -/
def loaderBytes (image : List Byte) : List Byte :=
  image.take 0x100 ++ slice image (fld image 8 4) (fld image 0xC 4)
def valtynBytes (image : List Byte) : List Byte := slice image (fld image 0x10 4) (fld image 0x14 4)

/-- A display path goes to BYPASS: the switch closes, and what it showed and awaited is gone (R163, R164, R168). -/
def GPath.shut (x : GPath) : GPath :=
  { x with
    mode := .bypass, bypass := true, trained := false, retraining := false, showing := false, handed := false, input := none
    outs := [], psr := false, boundary := false, stream := none, timing := none, hpdLow := none, deferFrom := none
    deferOver := false, auxWait := none }

/-! ### The step table -/

/-- Budget of a step in ms, primary and alternate (R135). -/
def budget (step route : Nat) : Nat :=
  if route = 1 then
    ([(2, 20), (3, 90), (4, 5), (5, 40), (6, 20), (8, 300), (9, 300), (11, 300), (12, 300), (14, 400)].lookup step).getD 0
  else
    ([(1, 40), (2, 20), (3, 70), (4, 5), (5, 25), (6, 40), (7, 5), (8, 150), (9, 150), (10, 20), (11, 200), (12, 100),
      (13, 40), (14, 60), (15, 250), (16, 5), (17, 10), (18, 5), (19, 5)].lookup step).getD 0

/-- The instance field of steps without one. -/
abbrev noInst : Nat := 0xFF

/-- The steps of the start that has read its record, but for ST19 (R135, R140, R150). ST10 of a path does not run without
surfaces or on a held path. -/
def plannedSteps (s : State) : List (Nat × Nat) :=
  let o := s.start.outing
  let built := o.copy.isNone
  let picture (p : Nat) : List (Nat × Nat) :=
    if built || (s.start.steps.any fun r => r.status == .failed && (r.step == 6 || (r.step == 8 + p && r.inst == p))) then []
    else [(10, p)]
  [(1, noInst), (2, noInst), (3, noInst), (4, noInst), (5, noInst)] ++
  (if built then [] else [(6, noInst)]) ++ [(7, noInst), (8, 0), (9, 1)] ++
  picture 0 ++ picture 1 ++
  (match o.rearPort with
    | some p => [(11, p.val), (12, p.val)] ++ (if built then [] else [(13, 1)])
    | none => []) ++
  [(14, noInst)] ++
  (((List.range 8).filter fun n => o.optionalMask.getLsbD n && o.rearPort != fin? 8 n).map fun n => (15, n)) ++
  (if o.optionalMask.getLsbD 8 then [(16, noInst)] else []) ++
  (if o.optionalMask.getLsbD 9 then [(17, noInst)] else []) ++
  (if o.optionalMask.getLsbD 10 then [(18, noInst)] else [])

/-- The "After" column of R135, with ST11 waiting for ST10 on the safe path (R137). -/
def afterOf (s : State) (step inst : Nat) : List (Nat × Nat) :=
  let rear := (s.start.outing.rearPort.map Fin.val).getD noInst
  match step with
  | 1 => []
  | 2 => [(1, noInst)]
  | 3 => [(2, noInst)]
  | 4 => [(3, noInst)]
  | 5 => [(4, noInst)]
  | 10 => [(6, noInst), if inst = 0 then (8, 0) else (9, 1)]
  | 11 => (5, noInst) :: (if s.start.safePath then [(10, 0), (10, 1)] else [])
  | 12 => [(11, rear)]
  | 13 => [(10, 1), (12, rear), (7, noInst)]
  | 15 => [(5, noInst), (14, noInst)]
  | 19 => plannedSteps s
  | _ => [(5, noInst)]

/-- How a step stands. -/
def stepStatus (s : State) (step inst : Nat) : Option StepStatus :=
  (s.start.steps.find? fun r => r.step = step ∧ r.inst = inst).map StepRec.status

/-- A step has ended. -/
def stepEnded (s : State) (x : Nat × Nat) : Bool :=
  match stepStatus s x.1 x.2 with
  | some .done | some .failed | some .skipped => true
  | _ => false

/-- The route and the beginning of a running step. -/
def stepRunning (s : State) (step inst : Nat) : Option (Nat × Nat) :=
  match stepStatus s step inst with
  | some (.running r t) => some (r, t)
  | _ => none

/-- Set how a step stands. -/
def setStep (step inst : Nat) (st : StepStatus) (s : State) : State :=
  s.modStart fun a => { a with
    steps := a.steps.filter (fun r => ¬ (r.step = step ∧ r.inst = inst)) ++ [⟨step, inst, st⟩] }

/-- The steps that R133 holds until CAR_WAKE is recognised. -/
def heldStep (step : Nat) : Bool := step == 6 || (decide (8 ≤ step) && decide (step ≤ 13))

/-- A step can begin (R133, R135). -/
def canBegin (s : State) (x : Nat × Nat) : Bool :=
  (stepStatus s x.1 x.2).isNone &&
  ((afterOf s x.1 x.2).all fun y => stepEnded s y || !((plannedSteps s).contains y)) &&
  (!heldStep x.1 || s.start.cause == 0x01 || s.pwr.recognised)

/-- A mandatory step takes its alternate at once (R137). ST02 and ST03 run before ST04 has chosen the path, and go by the
learned state that the fold of the newest bank will give. -/
def usesAlternate (s : State) (step inst : Nat) : Bool :=
  hasAlternate step &&
  (if s.start.safePath then [8, 9, 11, 12, 14].contains step
    else (entryOf s.start.learned step inst).useAlternate)

/-- The loader measures the Valtyn section of the slot that runs (R135, R155). -/
def measureValtyn (s : State) : State := extend 1 1 (valtynBytes (s.mram.slots[s.start.trySlot]).image) s

/-- A route of a step begins (R143). The first ST02 of a start extends M6 with the debug state, and ST03 measures the Valtyn
section first (R135, R155): in its alternate once ST02 has found the other slot intact. -/
def runStep (step inst route : Nat) (s : State) : State :=
  let first := step == 2 && !s.start.otherTried && (stepStatus s step inst).isNone
  let s := jot 1 step inst route 0 0 0 (setStep step inst (.running route s.elapsed) s)
  let s := if first then extendDebug s.meas.debugOpen s else s
  if step = 3 ∧ route ≠ 1 then measureValtyn s else s

/-- ST03's alternate begins (R135, R137): the start goes back to ST02 on the other slot, both within the 90 ms. -/
def startAgain (s : State) : State :=
  runStep 2 noInst 1 (runStep 3 noInst 1 (s.modStart fun a => { a with otherTried := true, trySlot := 1 - a.trySlot }))

/-- A step is recorded SKIPPED and owed as a late retry (R138). -/
def skipStep (step inst : Nat) (s : State) : State :=
  (jot 4 step inst 0 0 0 0 s).modStart fun a => { a with retries := a.retries ++ [(step, inst)] }

/-- A step begins (R136 to R138). -/
def beginStep (x : Nat × Nat) (s : State) : State :=
  let (step, inst) := x
  if ¬ mandatory step ∧ (entryOf s.start.learned step inst).skip then skipStep step inst (setStep step inst .skipped s)
  else if step = 3 ∧ usesAlternate s step inst then startAgain s
  else if usesAlternate s step inst then
    runStep step inst 1 (if (step = 5 ∨ step = 6) ∧ ¬ s.start.safePath then skipStep step inst s else s)
  else runStep step inst 0 s

/-- Begin every step that can, in ascending order; ST19 last (R135). -/
def beginReady (s : State) : State :=
  let pass (s : State) : State :=
    (if stepEnded s (5, noInst) then plannedSteps s ++ [(19, noInst)] else (plannedSteps s).take 5).foldl
      (fun s x => if canBegin s x then beginStep x s else s) s
  pass (pass s)

/-- The event code of a panel or camera step that fails (R143, R161). -/
def failCause (step : Nat) : Nat := if [8, 9, 11, 12, 15].contains step then 0x8002 else 0

/-- The duration of a running step in µs. -/
def stepUs (s : State) (step inst : Nat) : Nat :=
  match stepRunning s step inst with
  | some (_, t) => (s.elapsed - t) / 200
  | none => 0

/-- A running step ends DONE (R135, R143). -/
def stepDone (step inst detail : Nat) (s : State) : State :=
  match stepRunning s step inst with
  | none => s
  | some (route, _) => beginReady (setStep step inst .done (jot 2 step inst route (stepUs s step inst) 0 detail s))

/-- A route of a step has failed in this start. -/
def routeFailed (s : State) (step inst route : Nat) : Bool := s.start.failedRoutes.contains (step, inst, route)

/-- The copy that ST05 reads on a route: the active copy as it stood when the start began, or the other (R21, R135). -/
def copyOf (s : State) (route : Nat) : Fin 2 :=
  if route = 1 then 1 - s.start.ident.activeCopy else s.start.ident.activeCopy

/-- The detail of a failed step's record (R143): the slot or the copy. -/
def failDetail (s : State) (step route : Nat) : Nat :=
  if step = 2 ∨ step = 3 then s.start.trySlot else if step = 5 then copyOf s route else 0

/-- The record of a route that fails, and its mark (R136, R143). -/
def routeFails (step inst route cause : Nat) (s : State) : State :=
  let s := jot 3 step inst route (stepUs s step inst) cause (failDetail s step route) s
  s.modStart fun a => { a with failedRoutes := a.failedRoutes ++ [(step, inst, route)] }

/-- A running step ends FAILED on its route; where another route is open to it that runs at once, otherwise the step has
failed for good (R136, R137, R140). The caller applies the result of a final failure. -/
def stepFailed (step inst cause : Nat) (s : State) : State :=
  match stepRunning s step inst with
  | none => s
  | some (route, _) =>
    let s := routeFails step inst route cause s
    let s := if cause = 0x8002 ∧ route = 0 then post 0x8002 wide step s else s
    match (otherRoute step route).filter fun r => !routeFailed s step inst r with
    | some r => runStep step inst r (if step = 2 then s.modStart fun a => { a with trySlot := 1 - a.trySlot } else s)
    | none =>
      let s := setStep step inst .failed s
      if mandatory step then post 0x8003 wide step s else s

/-! ### Starts and full resets -/

/-- The µs of a time on the always-on counter of 32.768 kHz (R114): whole counts, and of those whole µs (log entry 54). -/
def aonUs (ticks : Nat) : Nat := (ticks * 5 * 32768 / 1000000000) * 1000000 / 32768

/-- Everything of the main domain takes its reset value; MRAM, the always-on domain and, for a warm source, the log stay
(R494). -/
def mainReset (warm : Bool) (s : State) : State :=
  { State.reset with
    elapsed := s.elapsed, drawn := s.drawn, pending := s.pending, out := s.out
    link := { State.reset.link with perstLow := s.link.perstLow, sris := s.link.sris }
    mirror := s.mirror, mirrorNumber := s.mirrorNumber, mram := s.mram, pwr := s.pwr
    start := { State.reset.start with number := s.start.number }
    meas := { State.reset.meas with debugOpen := s.meas.debugOpen }
    clk := { State.reset.clk with
      xtalOk := s.clk.xtalOk, refclkOk := s.clk.refclkOk, pllLock := s.clk.pllLock, wakeAt := s.clk.wakeAt }
    log := { State.reset.log with
      entries := if warm then s.log.entries else []
      headSlot := if warm then s.log.headSlot else 0
      sequence := if warm then s.log.sequence else 0
      newSinceMirror := warm && s.log.newSinceMirror
      faultSinceMirror := warm && s.log.faultSinceMirror
      kept := warm } }

/-- A start begins when internal reset is released: device time 0, a new start number and its bank (R114, R141). ST01
has been running since the wake. -/
def releaseMain (cause : Nat) (s : State) : State :=
  let n := s.mram.lastStart + 1
  let offset := aonUs (s.elapsed - s.clk.wakeAt)
  let late := s.pwr.st01Late
  let b : Bank :=
    { startNumber := n, cause := cause, path := 0, fwSlot := 0, outingCopy := 0xFF, major := 0, minor := 0
      wakeOffsetUs := BitVec.ofNat 32 offset, learned := [], records := [], headerGood := false, learnedGood := false }
  let s := { s with
    clk := { s.clk with dev := 0, wakeOffsetUs := BitVec.ofNat 32 offset, xtalOk := true, pllLock := 0xF }
    link := { s.link with rrsFrom := s.elapsed, sris := s.pwr.strapSris }
    fns := s.fns.map fun (f : FnState) => { f with serialHi := (s.mram.identity.serial >>> (32 : Nat)).setWidth 32 }
    mram := { s.mram with lastStart := n, banks := s.mram.banks.set (bankOf n) (some b) }
    start := { s.start with
      number := n, cause := cause, core := .rom, since := s.elapsed, ident := s.mram.identity
      trySlot := s.mram.identity.activeSlot
      learned := (foldBank cause s.mram.clearAlternate (newestBank s)).1 } }
  let s := jot 1 1 noInst 0 0 0 0 (setStep 1 noInst (.running 0 s.clk.wakeAt) s)
  let s := if (entryOf s.start.learned 2 noInst).useAlternate then
      skipStep 2 noInst (s.modStart fun a => { a with trySlot := 1 - a.trySlot })
    else s
  let s := (s.pwr.deferred.foldl (fun s c => post c wide wide s) s).modPower fun p => { p with deferred := [] }
  if late then
    beginReady (setStep 1 noInst .failed (routeFails 1 noInst 0 0x8102 (post 0x8102 wide wide
      (s.modPower fun p => { p with st01Late := false }))))
  else stepDone 1 noInst 0 s

/-- A wake source is taken (R131): the supplies are raised for a start with this cause. Where no CAR_WAKE edge is the source,
wake_offset_us counts from the source itself, and in a full reset from its assertion (R114, log entry 54). -/
def wake (source : WakeSource) (from_ : Nat) (s : State) : State :=
  match s.pwr.state with
  | .parked =>
    let s := mainReset false s
    let cause := match source with
      | .carWake => 0x01
      | .perst => 0x02
      | .xtr0 => 0x03
      | .aonSupply => 0x04
    { s with
      clk := { s.clk with wakeAt := from_ }
      pwr := { s.pwr with
        state := .starting, pwrEn := true, heldWake := none, suppliesGood := false
        recognised := source == .carWake, retained := true
        cause := if source = .aonSupply then 0x04 else s.pwr.cause
        parkFrom := if !s.pwr.carWake && s.link.perstLow then some s.elapsed else none }
      start := { s.start with cause := cause } }
  | .shutdown => s.modPower fun p => { p with heldWake := p.heldWake <|> some (source, from_) }
  | _ => s

/-- The order of R493. -/
def ResetSource.rank : ResetSource → Nat
  | .supply => 1
  | .clock => 2
  | .watchdog => 3
  | .perst => 4
  | .hotReset => 5
  | .resetN => 6
  | .deviceReset => 7

/-- The cause codes of R142 and R492. -/
def ResetSource.code : ResetSource → Nat
  | .resetN => 0x12
  | .perst => 0x10
  | .hotReset => 0x11
  | .deviceReset => 0x13
  | .watchdog => 0x14
  | .clock => 0x15
  | .supply => 0x16

/-- The cause that several sources record (R493). -/
def causeOf (l : List ResetSource) : Nat :=
  match l.foldl (fun (best : Option ResetSource) x =>
      match best with
      | some a => if x.rank < a.rank then some x else best
      | none => some x) none with
  | some x => x.code
  | none => 0

/-- Ticks for which a source holds internal reset after its assertion (R492); RESET_N and SUPPLY end by their own
events. -/
def ResetSource.holdTicks : ResetSource → Nat
  | .clock => ticksUs 1100
  | _ => ticksUs 100

/-- A source of a full reset asserts (R492 to R496): both bypass switches close, the main domain is reset, and the AVS code is the
fused one (R507). -/
def assertReset (src : ResetSource) (s : State) : State :=
  match s.pwr.state with
  | .starting | .running | .shutdown =>
    let first := s.pwr.resetHeld.isEmpty
    let mirrored := if src = .deviceReset then s.pwr.mirrored && !s.log.newSinceMirror
      else s.log.lastMirror.isSome && !s.log.newSinceMirror && s.log.mirroring.isNone
    let held := if s.pwr.resetHeld.contains src then s.pwr.resetHeld else src :: s.pwr.resetHeld
    let until_ := s.elapsed + src.holdTicks
    let s1 := mainReset (src != .supply && (first || s.log.kept)) s
    { s1 with
      clk := { s1.clk with wakeAt := s.elapsed }
      pwr := { s.pwr with
        state := .starting
        suppliesGood := s.pwr.suppliesGood && src != .supply
        resetHeld := held
        releaseAt := some (max until_ (s.pwr.releaseAt.getD 0))
        warmCount := if first && s.pwr.warmCount != 0xFFFF then s.pwr.warmCount + 1 else s.pwr.warmCount
        mirrored := if first then mirrored else s.pwr.mirrored
        lockstep := if first then false else s.pwr.lockstep
        cause := causeOf held
        pwrEn := true
        recognised := false
        debounceFrom := if s.pwr.carWake then some s.elapsed else none
        avsCode := s.pwr.avsFused
        avsRaised := false
        wdtArmed := false } }
  | _ => s

/-- The hold of internal reset ends and a new start begins (R492, R493); CAR_WAKE high for 1 ms from here is its recognition (R495). -/
def releaseReset (s : State) : State :=
  if ¬ s.pwr.resetHeld.isEmpty ∧ ¬ s.pwr.resetNLow ∧ s.pwr.suppliesGood ∧ due s s.pwr.releaseAt then
    let cause := causeOf s.pwr.resetHeld
    releaseMain cause (s.modPower fun p => { p with
      resetHeld := [], releaseAt := none, debounceFrom := if p.carWake then some s.elapsed else none })
  else s

end Sys2Proof.Machine
end

