-- ==== Sys2Proof/Machine/Outing.lean ====
section
/-! DEFINITION. The outing record: its container, its schema, and what it decodes to (R150, R193, R234, R364). -/

namespace Sys2Proof.Machine

/-- The CBOR bytes of a container whose header and CRC are good (R150). -/
def outingCbor (c : List Byte) : Option (List Byte) :=
  let n := fld c 8 4
  let body := slice c 16 n
  if fld c 0 4 = 0x4F555431 ∧ fld c 4 2 = 1 ∧ fld c 6 2 = 0 ∧ 16 + n ≤ c.length ∧ body.length = n ∧
      crc32c body = fld c 12 4 then some body
  else none

/-- The owner bytes and reserved fields of a plan are legal (R69). -/
def planLegal (p : List Byte) : Bool :=
  p.length == 168 && fld p 4 2 / 2 == 0 && zeros p 6 2 && (slice p 8 160).all fun b => decide (b.toNat ≤ 15)

/-- The first item, by offset, that a check refuses; `unknown` names map keys outside a table. -/
def badKey (c : Cbor) (known : List Nat) : Option Nat :=
  (c.pairs.find? fun p => !known.contains p.1).map fun p => p.2.off

/-- An optional key fails its check. -/
def badItem (c : Cbor) (k : Nat) (ok : Cbor → Bool) : Option Nat :=
  match c.key k with
  | some v => if ok v then none else some v.off
  | none => none

/-- An array of at most `n` byte strings. -/
def byteStrings (n : Nat) (c : Cbor) : Bool :=
  match c with
  | .arr _ _ l => decide (l.length ≤ n) && l.all fun i => i.bytes?.isSome
  | _ => false

/-- A map. -/
def Cbor.isMap : Cbor → Bool
  | .map _ _ _ => true
  | _ => false

/-- A map of byte strings with keys up to `n`. -/
def byteMap (n : Nat) (c : Cbor) : Bool :=
  c.isMap && c.pairs.all fun p => decide (p.1 ≤ n) && p.2.bytes?.isSome

/-- The references of outing key 4 for a path. -/
def outingRefs (key4 : Option Cbor) (path : Nat) : Vector (Option Look) 128 :=
  let empty := Vector.replicate 128 none
  match (key4.bind fun c => c.key (3 + path)).bind Cbor.bytes? with
  | some b => (match parseBlob b with
    | some l => placeLooks 0 l empty
    | none => empty)
  | none => empty

/-- The schema error of the layout map, outing key 3 (R193). -/
def layoutError (top c : Cbor) : Option Nat :=
  if ¬ c.isMap then some c.off
  else
    let lay (path : Nat) (v : Cbor) : Bool :=
      match v.bytes? with
      | some b => (match parseLayout path b with
        | some l => layoutOk (outingRefs (top.key 4) path) l
        | none => false)
      | none => false
    let set16 (v : Cbor) : Bool := (v.bytes?.map List.length) == some 16
    badKey c [1, 2, 3, 4, 5, 6] <|> badItem c 1 (lay 0) <|> badItem c 2 (lay 1) <|>
      badItem c 3 (fun v => (v.nat?.map fun n => decide (n < 2 ^ 32)).getD false) <|> badItem c 4 set16 <|>
      badItem c 5 set16 <|>
      badItem c 6 fun v => ((v.bytes?.map fun b => b.length == 16 && (parseGuardCfg b).isSome)).getD false

/-- The schema error of the region and reference map, outing key 4 (R207). -/
def refsError (c : Cbor) : Option Nat :=
  if ¬ c.isMap then some c.off
  else
    let table (path : Nat) (v : Cbor) : Bool :=
      match v.bytes?.bind parseRegions with
      | some rs => rs.all (refFits (outingRefs (some c) path))
      | none => false
    let blob (v : Cbor) : Bool :=
      match v.bytes?.bind parseBlob with
      | some l => decide (refsBytes (placeLooks 0 l (Vector.replicate 128 none)) ≤ 0x300000)
      | none => false
    badKey c [1, 2, 3, 4] <|> badItem c 1 (table 0) <|> badItem c 2 (table 1) <|> badItem c 3 blob <|> badItem c 4 blob

/-- The schema error of the defaults map, outing key 6 (R234, R269, R396, R460). -/
def defaultsError (c : Cbor) : Option Nat :=
  if ¬ c.isMap then some c.off
  else
    let posMap (v : Cbor) : Bool :=
      v.isMap && (badKey v [1, 2, 3, 4, 5]).isNone && (badItem v 1 (byteStrings 4)).isNone &&
        (badItem v 2 (byteStrings 2)).isNone && (badItem v 3 (byteStrings 4)).isNone &&
        (badItem v 4 (byteStrings 12)).isNone && (badItem v 5 (byteStrings 6)).isNone
    let witMap (v : Cbor) : Bool :=
      v.isMap && (badKey v [1, 2]).isNone && v.pairs.all fun p => p.2.bytes?.isSome
    let weirMap (v : Cbor) : Bool :=
      v.isMap && (badKey v [1, 2, 3]).isNone && (badItem v 1 fun x => x.nat?.isSome).isNone &&
        (badItem v 2 fun x => x.bytes?.isSome).isNone && (badItem v 3 fun x => x.bytes?.isSome).isNone
    badKey c [1, 2, 3, 4, 5, 6, 7] <|> badItem c 1 (byteStrings 8) <|> badItem c 2 (byteMap 7) <|> badItem c 3 posMap <|>
      badItem c 4 witMap <|> badItem c 5 (byteMap 31) <|> badItem c 6 (byteStrings 2) <|> badItem c 7 weirMap

/-- The schema error of the journal policy, outing key 7 (R150). -/
def policyError (c : Cbor) : Option Nat :=
  if ¬ c.isMap then some c.off
  else
    let upTo (a b : Nat) (v : Cbor) : Bool := (v.nat?.map fun n => decide (a ≤ n) && decide (n ≤ b)).getD false
    badKey c [1, 2, 3, 4] <|> badItem c 1 (upTo 0 7) <|> badItem c 2 (upTo 0 0x7FF) <|> badItem c 3 (upTo 1 3600) <|>
      badItem c 4 fun v => v.bool?.isSome

/-- What the record asks of the guardian area fits (R203). -/
def recordFits (top : Cbor) : Bool :=
  let refs (p : Nat) : Nat := refsBytes (outingRefs (top.key 4) p)
  let camera := ((((top.key 3).bind fun c => c.key 2).bind Cbor.bytes?).bind (parseLayout 1)).map Layout.rearBytes
  let templates := (((top.key 5).bind Cbor.bytes?).map List.length).getD 0
  areaHolds (refs 0) (refs 1) (camera.getD 0) templates

/-- The schema error of a decoded record (R150, R203, R364). -/
def schemaError (top : Cbor) : Option Nat :=
  if ¬ top.isMap then some top.off
  else
    let sub (k : Nat) (f : Cbor → Option Nat) : Option Nat := (top.key k).bind f
    badKey top [1, 2, 3, 4, 5, 6, 7, 8] <|> (if recordFits top then none else (top.key 3).map Cbor.off) <|>
      (if (top.key 1).isNone ∨ (top.key 2).isNone then some top.off else none) <|>
      badItem top 1 (fun v => (v.bytes?.map planLegal).getD false) <|>
      badItem top 2 (fun v => (v.nat?.map fun n => decide (n ≤ 15)).getD false) <|>
      sub 3 (layoutError top) <|> sub 4 refsError <|>
      badItem top 5 (fun v => (v.bytes?.bind parseTemplateBlob).isSome) <|>
      sub 6 defaultsError <|> sub 7 policyError <|>
      badItem top 8 fun v => (v.bytes?.map fun b => b.length == 20 && (fantailSettings b).isSome).getD false

/-- The error offset of a container that ST05 would refuse (R150, R162, R363); a header that fails has offset 0 (log entry
19). -/
def outingError (c : List Byte) : Option Nat :=
  match outingCbor c with
  | none => some 0
  | some body =>
    let r := cborDecode 0x100000 body
    if r.error ≠ 0 then some r.errorOff
    else match cborTree body with
      | none => some 0
      | some top => schemaError top

/-- The record that a good copy decodes to (R150). -/
def decodeOuting (c : List Byte) : Option Outing :=
  match outingError c, (outingCbor c).bind fun b => (cborTree b).map fun t => (b, t) with
  | none, some (body, top) =>
    let item (k : Nat) : List Byte :=
      match top.key k with
      | some v => slice body v.off (v.stop - v.off)
      | none => []
    let policy (k : Nat) : Option Cbor := (top.key 7).bind fun p => p.key k
    some { Outing.builtIn with
      guardianOwner := (((top.key 2).bind Cbor.nat?).bind (fin? 16)).getD 0
      rearPort := ((policy 1).bind Cbor.nat?).bind (fin? 8)
      optionalMask := BitVec.ofNat 11 (((policy 2).bind Cbor.nat?).getD 0x7FF)
      parkHoldS := ((policy 3).bind Cbor.nat?).getD 30
      wakeOnXtr0 := ((policy 4).bind Cbor.bool?).getD false
      planItem := item 1, layoutItem := item 3, refsItem := item 4, chimeItem := item 5, defaultsItem := item 6
      fantailItem := item 8 }
  | _, _ => none

/-- An epoch commit is in progress (R151). -/
def commitBusy (s : State) : Bool := (allFin 16).any fun f => (s.epochs[f]).commit.isSome

end Sys2Proof.Machine
end

