-- ==== Sys2Proof/Machine/StreamCmds.lean ====
section
/-! DEFINITION. Meanings of the stream and port hampers (R213, R214, R218, R229 to R233, R238). -/

namespace Sys2Proof.Machine

/-! ### Ports -/

/-- DISP1 is in EARLY or TRIAL and the port is the rear camera's (R218). -/
def rearHeld (s : State) (p : Fin 8) : Bool :=
  s.start.outing.rearPort == some p &&
    (match (s.guard.paths[(1 : Fin 2)]).mode with
      | .early | .trial => true
      | _ => false)

/-- Settings that R218 keeps for the rear port. -/
def rearRefuses (s : State) (p : Fin 8) (c : PortCfg) : Bool :=
  let x := (s.ports[p]).cfg
  rearHeld s p && ((!c.enable && (s.ports[p]).mode != .off) || c.gear != x.gear || c.profile != x.profile || c.vcMap != x.vcMap)

/-- The settings of a PORT_CONFIG payload, when each lies in its range (R210, R238). -/
def portSettings (p : List Byte) : Option PortCfg :=
  let vc := Vector.ofFn fun k : Fin 4 => fld p (8 + k.val) 1
  let used := vc.toList.filter (· ≠ 0xFF)
  let gear := fld p 2 1
  let profile := fld p 3 1
  if fld p 1 1 ≤ 1 ∧ 1 ≤ gear ∧ gear ≤ 5 ∧ (profile = 2 ∨ (profile = 1 ∧ gear ≤ 3)) ∧ fld p 4 1 ≤ 1 ∧ fld p 5 1 ≤ 2 ∧
      fld p 6 1 ≤ 11 ∧ fld p 7 1 ≤ 3 ∧ used.all (· ≤ 15) ∧ used.Nodup ∧ [100, 400, 1000].contains (fld p 12 2) ∧
      1 ≤ fld p 14 2 ∧ fld p 14 2 ≤ 1000 ∧ 20 ≤ fld p 16 2 ∧ fld p 16 2 ≤ 1000 ∧ zeros p 18 6 then
    some ⟨fld p 1 1 = 1, gear, profile, fld p 4 1, fld p 5 1, fld p 6 1, fld p 7 1, vc, fld p 12 2, fld p 14 2, fld p 16 2⟩
  else none

/-- A changed setting that a port restarts for (R231). -/
def portRestarts (a b : PortCfg) : Bool :=
  a.gear != b.gear || a.profile != b.profile || a.medium != b.medium || a.vcMap != b.vcMap

/-- A staged item replaces the one of the same stream or port (R231, R310). -/
def stageItem (f : Fn) (i : StageItem) (s : State) : State :=
  s.modEpochs f fun e => { e with
    items := (e.items.filter fun j => match i, j with
      | .stream a _, .stream b _ => a != b
      | .port a _, .port b _ => a != b
      | _, _ => true) ++ [i] }

/-- Some context of the port is not CLOSED. -/
def portHasOpen (s : State) (p : Fin 8) : Bool := (allFin 4).any fun k => (s.streams[streamOf p k]).mode != .closed

/-- PORT_CONFIG (R218, R231, R238, R310): the settings of an enabled port are staged, a disable too (log entry 56). -/
def portConfigBody (s : State) (h : Hamper) : Verdict :=
  match fin? 8 (fld h.payload 0 1) with
  | none => badArg
  | some p =>
    let on := (s.ports[p]).mode != .off
    let held := match portSettings h.payload with
      | some c => rearRefuses s p c
      | none => false
    if held || (on && fld h.payload 1 1 == 0 && portHasOpen s p) then wrongState
    else match portSettings h.payload with
      | none => badArg
      | some c =>
        if h.tail 24 then badArg
        else if on then .ok (stageItem h.fn (.port p c) s) []
        else if c.enable then .ok (acquire p c c.gear (s.modPort p fun x => x.withTask .start)) []
        else .ok (s.modPort p fun x => { x with cfg := c }) []

/-- PORT_CONFIG (R238). -/
def execPortConfig (dt : Nat) (r : Req) (s : State) : Answer :=
  .next (serve r 0x0201 0 true portConfigBody (advance dt s))

/-- The code of a port's state (R208). -/
def PortMode.code : PortMode → Nat
  | .off => 0
  | .acquire => 1
  | .locked => 2
  | .lost => 3
  | .drain => 4

/-- PORT_STATUS (R222, R238): what counts since the last PORT_STATUS begins again. -/
def portStatusBody (s : State) (h : Hamper) : Verdict :=
  match fin? 8 (fld h.payload 0 1) with
  | none => badArg
  | some p =>
    let x := s.ports[p]
    if h.tail 4 || !zeros h.payload 1 3 then badArg
    else .ok (s.modPort p fun x => { x with retransmissions := 0, unrecoverable := 0, fifoHigh := x.fifo })
      (record [(1, x.mode.code), (1, x.gear), (1, x.cfg.profile), (1, b2n x.degraded), (4, x.locks.toNat),
        (4, x.losses.toNat), (4, x.attempts.toNat), (4, x.retransmissions.toNat), (4, x.unrecoverable.toNat),
        (4, x.fifoHigh), (4, x.stray.toNat), (4, x.closed.toNat), (8, x.lockNs.toNat), (4, 0)])

/-- PORT_STATUS (R238). -/
def execPortStatus (dt : Nat) (r : Req) (s : State) : Answer :=
  .next (serve r 0x0202 0 false portStatusBody (advance dt s))

/-- PORT_RESTART (R218, R232). -/
def portRestartBody (s : State) (h : Hamper) : Verdict :=
  match fin? 8 (fld h.payload 0 1) with
  | none => badArg
  | some p =>
    let x := s.ports[p]
    if (x.mode ≠ .locked ∧ x.mode ≠ .lost) ∨ rearHeld s p then wrongState
    else if h.tail 4 || !zeros h.payload 1 3 then badArg
    else .accepted (startRestart p x.cfg .restart (accept h p (restartLocked p s))) []

/-- PORT_RESTART (R232). -/
def execPortRestart (dt : Nat) (r : Req) (s : State) : Answer :=
  .next (serve r 0x0203 0 true portRestartBody (advance dt s))

/-- TUNNEL_I2C (R213): the register address goes out high byte first (log entry 25). -/
def tunnelI2cBody (s : State) (h : Hamper) : Verdict :=
  let p := h.payload
  match fin? 8 (fld p 0 1) with
  | none => badArg
  | some k =>
    let flags := fld p 2 1
    let n := fld p 3 1
    let addr := (if bit flags 1 then (leBytes 2 (fld p 4 2)).reverse else leBytes 1 (fld p 4 2))
    if (s.ports[k]).mode ≠ .locked then wrongState
    else if h.tail 72 || fld p 1 1 > 127 || flags > 3 || n == 0 || n > 64 || !zeros p 6 2 then badArg
    else if bit flags 0 then .later (emit (.i2c k (fld p 1 1) addr n) s) k
    else .later (emit (.i2c k (fld p 1 1) (addr ++ slice p 8 n) 0) s) k

/-- TUNNEL_I2C (R213). -/
def execTunnelI2c (dt : Nat) (r : Req) (s : State) : Answer :=
  .next (serve r 0x0204 0 true tunnelI2cBody (advance dt s))

/-- The camera's answer, or 10 ms without one (R213, R236). -/
def i2cAnswered (p : Fin 8) (a : I2cAnswer) (s : State) : State :=
  match findOwed s 0x0204 p with
  | none => s
  | some o =>
    let late := decide (o.at_ + ticksMs 10 ≤ s.elapsed)
    match a with
    | .answered result bytes =>
      if late then replyOwed o stTimeout [] (post 0x210D wide p s)
      else if 3 < result then s
      else
        let read := if bit (fld o.payload 2 1) 0 then bytes.take (fld o.payload 3 1) else []
        let s := if result = 1 ∨ result = 2 then post 0x210D wide p s else s
        replyOwed o stOk (record [(1, result), (1, read.length), (2, 0)] ++ padTo 64 read) s
    | .silent => if late then replyOwed o stTimeout [] (post 0x210D wide p s) else s

/-- TUNNEL_I2C_ANSWER (R213). -/
def execTunnelI2cAnswer (dt : Nat) (p : Fin 8) (a : I2cAnswer) (s : State) : Answer :=
  .next (i2cAnswered p a (advance dt s))

/-- TUNNEL_GPIO (R214): a read answers the level at the line. -/
def tunnelGpioBody (level : Bool) (s : State) (h : Hamper) : Verdict :=
  let p := h.payload
  match fin? 8 (fld p 0 1) with
  | none => badArg
  | some k =>
    let x := s.ports[k]
    let line := fld p 1 1
    let action := fld p 2 1
    if x.mode ≠ .locked then wrongState
    else if h.tail 4 || line > 3 || action > 2 || !zeros p 3 1 ||
        (action != 2 && x.cfg.syncMode == 2 && x.cfg.syncGpio == line) then badArg
    else
      let v := if action = 2 then level else action == 1
      let s := if action = 2 then s else emit (.gpio k line v) s
      let g := BitVec.ofNat 4 (2 ^ line)
      .ok (s.modPort k fun x => { x with gpio := if v then x.gpio ||| g else x.gpio &&& ~~~ g }) (record [(1, b2n v), (3, 0)])

/-- TUNNEL_GPIO (R214). -/
def execTunnelGpio (dt : Nat) (r : Req) (level : Bool) (s : State) : Answer :=
  .next (serve r 0x0205 0 true (tunnelGpioBody level) (advance dt s))

/-! ### Opening and staging streams -/

/-- The settings of a STREAM_OPEN or STREAM_STAGE payload, when each lies in its range (R211, R224, R225, R238). -/
def streamSettings (s : State) (fn : Fn) (p : List Byte) : Option StreamCfg :=
  let type := fld p 1 1
  let cls := fld p 9 1
  let c : StreamCfg :=
    { dataType := type, width := fld p 2 2, height := fld p 4 2, embedded := fld p 6 1, packing := fld p 7 1
      queue := fld p 8 1, cls := if cls = 0 then .s else if cls = 1 then .p else .b, rank := fld p 10 1
      instant := fld p 11 1, pos := fld p 12 1, route := fld p 13 1, maxFps := fld p 14 2, pitch := fld p 16 4
      maxAge := fld p 20 4 }
  let owned := (fin? 32 c.queue).any fun q => s.plan.queues[q] == fn
  if dataTypeOk type ∧ 1 ≤ c.width ∧ c.width ≤ (if 0x30 ≤ type ∧ type ≤ 0x37 then 16384 else 8192) ∧ 1 ≤ c.height ∧
      c.height ≤ 8192 ∧ c.embedded ≤ 8 ∧ c.packing ≤ 1 ∧ (c.packing = 0 ∨ unpackable type) ∧ owned ∧ cls ≤ 2 ∧
      c.rank ≤ 31 ∧ (c.rank = 0 ∨ cls = 1) ∧ c.instant ≤ 2 ∧ (c.pos ≤ 3 ∨ c.pos = 0xFF) ∧ c.route ≤ 7 ∧
      100 ≤ c.maxFps ∧ c.maxFps ≤ 24000 ∧ c.pitch % 64 = 0 ∧ outBytes c ≤ c.pitch ∧ zeros p 24 8 then
    some c
  else none

/-- Class S from a function that s_allow leaves out (R380). -/
def classRefused (s : State) (h : Hamper) : Bool := fld h.payload 9 1 == 0 && !s.weir.sAllow.getLsbD h.fn

/-! ### Embedded translation tables (R229) -/

/-- A required unsigned value of a map, with its range. -/
def embNeed (c : Cbor) (k lo hi : Nat) : Except Nat Nat :=
  match c.key k with
  | none => .error c.off
  | some v =>
    match v.nat? with
    | some n => if lo ≤ n ∧ n ≤ hi then .ok n else .error v.off
    | none => .error v.off

/-- One map of the table: an error is the offset of the item that breaks it. -/
def embField (c : Cbor) : Except Nat EmbField := do
  if ¬ c.isMap then .error c.off
  match badKey c [1, 2, 3, 4, 5, 6, 7] with
  | some o => .error o
  | none =>
    let field ← embNeed c 1 0 2
    match c.key 7 with
    | some (.int _ _ v) => .ok ⟨field, 0, 0, 0, 1, 0, some v⟩
    | some v => .error v.off
    | none =>
      let line ← embNeed c 2 0 7
      let byte ← embNeed c 3 0 16383
      let bits ← embNeed c 4 1 32
      let stride ← embNeed c 5 1 2
      let scale ← if field = 0 ∧ (c.key 6).isNone then .ok 0 else embNeed c 6 0 0xFFFFFFFF
      .ok ⟨field, line, byte, bits, stride, scale, none⟩

/-- A table: an array of up to eight maps. An error is the decoder's or the schema's offset (R363, R364). -/
def embTable (bytes : List Byte) : Except Nat (List EmbField) :=
  let r := cborDecode 0x100000 bytes
  if r.error ≠ 0 then .error r.errorOff
  else match cborTree bytes with
    | some (.arr o _ l) => if 8 < l.length then .error o else l.mapM embField
    | some t => .error t.off
    | none => .error 0

/-- The table of outing key 6 for a stream's first open (R234). -/
def openingTable (s : State) (n : Fin 32) : Option (List EmbField) :=
  match (cborTree s.start.outing.defaultsItem).bind fun t => ((t.key 5).bind fun m => m.key n).bind Cbor.bytes? with
  | none => none
  | some b =>
    match embTable b with
    | .ok l => some l
    | .error _ => none

/-- A context is opened (R209, R302 to R304, R311). -/
def openStream (n : Fin 32) (fn : Fn) (c : StreamCfg) (s : State) : State :=
  let old := s.streams[n]
  let first := if old.openedOnce then none else openingTable s n
  let s := s.modStream n fun _ => { Stream.reset with
    mode := .opened, cfg := c, fn := fn, lastEof := holdNow s, openedOnce := true
    embMap := first.getD old.embMap, epoch := s.deviceEpoch
    prevSkips := skipCounts s (holdNow s) }
  let x := s.ports[portOf n]
  let s := if x.mode = .lost then openGap n true s
    else if x.mode = .drain ∨ (x.mode = .acquire ∧ (x.task = .restart ∨ x.task = .staged)) then openGap n false s
    else s
  admitStream n c s

/-- STREAM_OPEN (R238, R383). -/
def streamOpenBody (s : State) (h : Hamper) : Verdict :=
  match fin? 32 (fld h.payload 0 1) with
  | none => badArg
  | some n =>
    if s.plan.streams[n] ≠ h.fn ∨ classRefused s h then notOwner
    else if (s.streams[n]).mode ≠ .closed ∨ (s.ports[portOf n]).mode = .off then wrongState
    else match streamSettings s h.fn h.payload with
      | none => badArg
      | some c =>
        if h.tail 32 then badArg
        else match admission s.weir (streamFlow n h.fn c).toList with
          | some e => .refuse stRefusedAdmission e
          | none => .ok (openStream n h.fn c s) []

/-- STREAM_OPEN (R238). -/
def execStreamOpen (dt : Nat) (r : Req) (s : State) : Answer :=
  .next (serve r 0x0210 0 false streamOpenBody (advance dt s))

/-- STREAM_STAGE (R231): admission is checked when the change reaches the commit (R383). -/
def streamStageBody (s : State) (h : Hamper) : Verdict :=
  match fin? 32 (fld h.payload 0 1) with
  | none => badArg
  | some n =>
    if s.plan.streams[n] ≠ h.fn ∨ classRefused s h then notOwner
    else if ¬ (s.streams[n]).isOpen then wrongState
    else match streamSettings s h.fn h.payload with
      | none => badArg
      | some c => if h.tail 32 then badArg else .ok (stageItem h.fn (.stream n c) s) []

/-- STREAM_STAGE (R231). -/
def execStreamStage (dt : Nat) (r : Req) (s : State) : Answer :=
  .next (serve r 0x0212 0 false streamStageBody (advance dt s))

/-! ### Closing -/

/-- A hopper is disarmed (R338): new triggers are refused and the partial entry is discarded; what else a disarm does waits
for its boundary. -/
def hopDisarm (i : Fin 16) (mode : Nat) (s : State) : State :=
  s.modHop i fun h => { h with disarming := some (max mode (h.disarming.getD 0)), partialSeq := none }

/-- The staged frames that are not yet copied are discarded and counted; tags behind them are written (R233, R307). -/
def discardStaged (n : Fin 32) (s : State) : State :=
  putWaiting n (s.modStream n fun st => { st with
    staged := st.staged.filter fun x => !x.copying, cancelled := (st.staged.filter Staged.copying).length })

/-- A stream begins to close (R221, R233, R310, R313, R339, R358). -/
def beginClose (n : Fin 32) (s : State) : State :=
  let s := discardStaged n (s.modStream n fun st => { st with mode := .closing, edges := [] })
  let s := switchStream n (unstage n s)
  let s := match (s.streams[n]).gap, (s.ports[portOf n]).mode with
    | some g, .locked =>
      let (q, s) := takeSeq n s
      let t := intervalTag s n q g (holdNow s)
      hopInterval n t (putGapTag n .interval t (s.modStream n fun st => { st with gap := none }))
    | _, _ => s.modStream n fun st => { st with gap := none }
  let s := (hoppersOf s n).foldl (fun s i => hopDisarm i 0 s) s
  sweepWaits (endBinding n s)

/-- STREAM_CLOSE (R233). -/
def streamCloseBody (s : State) (h : Hamper) : Verdict :=
  match fin? 32 (fld h.payload 0 1) with
  | none => badArg
  | some n =>
    if s.plan.streams[n] ≠ h.fn then notOwner
    else if ¬ (s.streams[n]).isOpen then wrongState
    else if h.tail 4 || !zeros h.payload 1 3 then badArg
    else .ok (beginClose n s) []

/-- STREAM_CLOSE (R233). -/
def execStreamClose (dt : Nat) (r : Req) (s : State) : Answer :=
  .next (serve r 0x0211 0 false streamCloseBody (advance dt s))

/-- The close completes (R233): the frame in progress, the quiet bit, the notice with the cancelled items, CLOSED. -/
def closeCompletes (n : Fin 32) (s : State) : State :=
  if (s.streams[n]).mode ≠ .closing then s
  else
    let s := endFrame n (holdNow s) true s
    let count := (s.streams[n]).cancelled
    let fn := (s.streams[n]).fn
    let s := s.modStream n fun st => { st with quiet := true }
    closeStream n (notice fn nQuiet (BitVec.ofNat 32 (256 * kStream + n)) stOk (BitVec.ofNat 32 count) s)

/-- STREAM_CLOSE_QUIET (R233). -/
def execStreamCloseQuiet (dt : Nat) (n : Fin 32) (s : State) : Answer := .next (closeCompletes n (advance dt s))

/-- STREAM_STATUS (R238). -/
def streamStatusBody (s : State) (h : Hamper) : Verdict :=
  match fin? 32 (fld h.payload 0 1) with
  | none => badArg
  | some n =>
    let st := s.streams[n]
    if s.plan.streams[n] ≠ h.fn then notOwner
    else if h.tail 4 || !zeros h.payload 1 3 then badArg
    else .ok s (record [(1, streamCode s n), (3, 0), (4, st.lastSeq.toNat), (4, st.delivered.toNat), (4, st.gapTags.toNat),
      (4, st.corruptFrames.toNat), (4, st.sensorSkips.toNat), (4, st.missed.toNat), (4, st.allDrops.toNat)])

/-- STREAM_STATUS (R238). -/
def execStreamStatus (dt : Nat) (r : Req) (s : State) : Answer :=
  .next (serve r 0x0213 0 false streamStatusBody (advance dt s))

/-- STREAM_BUFFERS (R224): the new ring applies at the next frame boundary, which is now when no frame is in progress. -/
def streamBuffersBody (s : State) (h : Hamper) : Verdict :=
  let p := h.payload
  match fin? 32 (fld p 0 1) with
  | none => badArg
  | some n =>
    let slots := fld p 2 2
    let bytes := fld p 4 4
    let a := bufferAt p 8
    let b := bufferAt p 24
    if s.plan.streams[n] ≠ h.fn then notOwner
    else if ¬ (s.streams[n]).isOpen then wrongState
    else if h.tail 48 || !zeros p 1 1 || !zeros p 40 8 || slots < 2 || slots > 1024 || !slots.isPowerOfTwo ||
        bytes < frameBytes (s.streams[n]).cfg || bufferBad s h.fn a || bufferBad s h.fn b ||
        a.length < slots * bytes || b.length < 64 * slots then badArg
    else
      let r : Ring := ⟨slots, bytes, a.addr, a.millpond, b.addr, b.millpond⟩
      .ok (boundary n (s.modStream n fun st => { st with nextRing := some r })) []

/-- STREAM_BUFFERS (R224). -/
def execStreamBuffers (dt : Nat) (r : Req) (s : State) : Answer :=
  .next (serve r 0x0214 0 false streamBuffersBody (advance dt s))

/-- EMBEDDED_MAP_SET (R229). -/
def embeddedMapBody (s : State) (h : Hamper) : Verdict :=
  match fin? 32 (fld h.payload 0 1) with
  | none => badArg
  | some n =>
    if s.plan.streams[n] ≠ h.fn then notOwner
    else if ¬ (s.streams[n]).isOpen then wrongState
    else if h.tail 20 || !zeros h.payload 1 3 || bufferBad s h.fn (bufferAt h.payload 4) then badArg
    else .accepted (accept h n s) []

/-- EMBEDDED_MAP_SET (R229). -/
def execEmbeddedMapSet (dt : Nat) (r : Req) (s : State) : Answer :=
  .next (serve r 0x0220 2 false embeddedMapBody (advance dt s))

/-- The table has been read and decoded (R229, R238). -/
def mapLoaded (n : Fin 32) (table : Fetched) (s : State) : State :=
  match findAccepted s 0x0220 n with
  | none => s
  | some a =>
    match bufferRead s a.fn (bufferAt a.payload 4) table with
    | .failed => hamperDone 0x0220 n stBusError 0 s
    | .data d =>
      match embTable d with
      | .error o => hamperDone 0x0220 n stAborted (BitVec.ofNat 32 o) s
      | .ok m => hamperDone 0x0220 n stOk 0 (boundary n (s.modStream n fun st => { st with nextMap := some m }))

/-- EMBEDDED_MAP_SET_DONE (R229). -/
def execEmbeddedMapSetDone (dt : Nat) (n : Fin 32) (table : Fetched) (s : State) : Answer :=
  .next (mapLoaded n table (advance dt s))

end Sys2Proof.Machine
end

