-- ==== Sys2Proof/Machine/EpochCmds.lean ====
section
/-! DEFINITION. Meanings of the epoch hampers (R310 to R317). -/

namespace Sys2Proof.Machine

/-- The staged settings of a stream, and of a port. -/
def stagedStream (items : List StageItem) (n : Fin 32) : Option StreamCfg :=
  items.findSome? fun i => match i with
    | .stream m c => if m = n then some c else none
    | .port _ _ => none
def stagedPort (items : List StageItem) (p : Fin 8) : Option PortCfg :=
  items.findSome? fun i => match i with
    | .port q c => if q = p then some c else none
    | .stream _ _ => none

/-- A stream change that restarts its port (R231). -/
def streamRestarts (a b : StreamCfg) : Bool :=
  a.dataType != b.dataType || a.width != b.width || a.height != b.height || a.embedded != b.embedded

/-- The ports that a staged set restarts (R231). -/
def portsRestarting (s : State) (items : List StageItem) : List (Fin 8) :=
  (allFin 8).filter fun p =>
    (s.ports[p]).mode != .off &&
    ((stagedPort items p).any (fun c => c.enable && portRestarts (s.ports[p]).cfg c) ||
      (openOf s p).any fun n => (stagedStream items n).any (streamRestarts (s.streams[n]).cfg))

/-- The streams of an epoch: staged ones, and the open contexts of the ports that restart (R232, R313). -/
def epochStreams (s : State) (items : List StageItem) : List (Fin 32) :=
  (allFin 32).filter fun n => (s.streams[n]).isOpen &&
    ((stagedStream items n).isSome || (portsRestarting s items).contains (portOf n))

/-- The settings that a stream of the epoch takes. -/
def epochCfg (s : State) (items : List StageItem) (n : Fin 32) : StreamCfg :=
  (stagedStream items n).getD (s.streams[n]).cfg

/-- The flows of an epoch with their new demand, in ascending kind and index (R312, R336, R358). -/
def epochFlows (s : State) (items : List StageItem) : List Flow :=
  let ns := epochStreams s items
  (ns.filterMap fun n => streamFlow n (s.streams[n]).fn (epochCfg s items n)) ++
  ((allFin 16).filterMap fun i => ((s.hoppers[i]).stream).bind fun n =>
    if ns.contains n then some (hopFlow i s.hoppers[i] s.plan.hoppers[i] (epochCfg s items n).maxFps) else none) ++
  (ns.filterMap fun n => (s.prep.bindings.find? fun b => b.stream = n).map fun b =>
    bindingFlow { b with desc := bindDesc b.desc (epochCfg s items n) } (epochCfg s items n).maxFps)

/-- Pass-input pixels of a binding per 100 seconds (R359). -/
def bindingLoad (d : PyrDesc) (maxFps : Nat) : Nat := passPixels d * maxFps

/-- The engine's capacity in the same unit (R354, R359). -/
abbrev pyramidCapacity : Nat := 320000000000

/-- The load of all bindings under new settings (R359). -/
def epochLoad (s : State) (items : List StageItem) : Nat :=
  (s.prep.bindings.map fun b =>
    let c := epochCfg s items b.stream
    bindingLoad (bindDesc b.desc c) c.maxFps).sum

/-- A hopper that is PENDING, ARMED or TRIGGERED would not hold the stream's slots (R320). -/
def hopperTooSmall (s : State) (n : Fin 32) (c : StreamCfg) : Bool :=
  (hoppersOf s n).any fun i =>
    (match (s.hoppers[i]).mode with
      | .pending | .armed | .triggered => true
      | _ => false) && decide ((s.hoppers[i]).slotBytes < frameBytes c)

/-- A binding that the new geometry breaks (R358). -/
def bindingBreaks (s : State) (n : Fin 32) (c : StreamCfg) : Bool :=
  s.prep.bindings.any fun b => b.stream == n &&
    (let d := bindDesc b.desc c
     formatBad d || geometryBad d || decide (b.slotBytes < pyrTotal d))

/-- The settings name a queue that the sender does not own any more, or a class it may not use (R238, R380). -/
def settingsStale (s : State) (fn : Fn) (c : StreamCfg) : Bool :=
  !((fin? 32 c.queue).any fun q => s.plan.queues[q] == fn) || (c.cls == .s && !s.weir.sAllow.getLsbD fn)

/-- A staged set is not legal in the present state (R218, R238, R320, R358). -/
def commitIllegal (s : State) (items : List StageItem) : Bool :=
  (allFin 8).any (fun p => (stagedPort items p).any fun c =>
      rearRefuses s p c || (!c.enable && (s.ports[p]).mode != .off && portHasOpen s p)) ||
    (epochStreams s items).any fun n => hopperTooSmall s n (epochCfg s items n) || bindingBreaks s n (epochCfg s items n)

/-- The first later check that a staged set fails (R312, R359). -/
def commitRefused (s : State) (fn : Fn) (items : List StageItem) : Option Verdict :=
  let ns := epochStreams s items
  if ns.any fun n => (stagedStream items n).any (settingsStale s fn) then some badArg
  else if pyramidCapacity < epochLoad s items then some noResource
  else (admission s.weir (epochFlows s items)).map fun e => .refuse stRefusedAdmission e

/-- CONFIG_COMMIT (R311, R312, R315, R317): the switches follow the reply. -/
def configCommitBody (s : State) (h : Hamper) : Verdict :=
  let dry := bit (fld h.payload 0 1) 0
  let e := s.epochs[h.fn]
  if (e.commit.isNone && e.items.isEmpty) || (!dry && e.commit.isSome) || commitIllegal s e.items then wrongState
  else if h.tail 8 || fld h.payload 0 1 > 1 || !zeros h.payload 1 7 then badArg
  else match commitRefused s h.fn e.items with
    | some v => v
    | none =>
      let ns := epochStreams s e.items
      let ps := portsRestarting s e.items
      let number := s.deviceEpoch + 1
      let answer (k : Nat) : List Byte := record [(4, k), (2, ns.length), (1, ps.length), (1, 0)]
      if dry then .ok s (answer 0)
      else
        let extra := (epochFlows s e.items).filterMap (extraOf s.weir)
        let s := { s with deviceEpoch := number }
        let s := s.modWeir fun w => { w with reserved := w.reserved ++ extra.map fun f => (h.fn, f) }
        let s := ns.foldl (fun s n => s.modStream n fun st => { st with
          nextCfg := some ((stagedStream e.items n).getD (st.nextCfg.getD st.cfg)) }) s
        let s := s.modEpochs h.fn fun x => { x with
          items := [], commit := some ⟨number, ns, ns, 0, ps, s.elapsed, none⟩ }
        .accepted (accept h h.fn s) (answer number.toNat)

/-- Port settings of an accepted commit apply (R208, R231, R232): ports that do not restart take them at validation, a draining port
at its drain boundary too. -/
def applyPort (items : List StageItem) (restarting : List (Fin 8)) (p : Fin 8) (s : State) : State :=
  let x := s.ports[p]
  if restarting.contains p then startRestart p ((stagedPort items p).getD x.cfg) .staged (restartLocked p s)
  else match stagedPort items p with
    | none => s
    | some c =>
      if x.mode = .off then
        if c.enable then acquire p c c.gear (s.modPort p fun x => x.withTask .start) else s.modPort p fun x => { x with cfg := c }
      else if c.enable ∨ x.mode = .drain then s.modPort p fun x => { x with
        cfg := if c.enable then c else x.cfg, next := if x.mode = .drain then some c else x.next }
      else portOff p c s

/-- An accepted commit begins to switch (R313): streams without a frame in progress switch now. -/
def startCommit (f : Fn) (items : List StageItem) (s : State) : State :=
  match (s.epochs[f]).commit with
  | none => s
  | some c =>
    let s := (allFin 8).foldl (fun s p => applyPort items c.ports p s) s
    let s := c.streams.foldl (fun s n =>
      if (s.streams[n]).frame.isNone ∧ ¬ c.ports.contains (portOf n) then switchStream n s else s) s
    finishCommit f s

/-- A commit that this command has accepted begins after its reply (R89). -/
def commitAccepted (f : Fn) (before after : State) : State :=
  if (before.epochs[f]).commit.isNone ∧ (after.epochs[f]).commit.isSome then
    startCommit f (before.epochs[f]).items after
  else after

/-- CONFIG_COMMIT (R317). -/
def execConfigCommit (dt : Nat) (r : Req) (s : State) : Answer :=
  let s := advance dt s
  .next (commitAccepted r.fn s (serve r 0x0010 0 false configCommitBody s))

/-- The nominal period of a stream has passed since validation (R313): it switches with its frame in progress. -/
def epochTimer (n : Fin 32) (s : State) : State :=
  let st := s.streams[n]
  let passed := (allFin 16).any fun f =>
    (s.epochs[f]).commit.any fun c =>
      c.unswitched.contains n && !c.ports.contains (portOf n) && decide (c.at_ + periodTicks st.cfg ≤ s.elapsed)
  if passed then switchStream n s else s

/-- EPOCH_SWITCH_TIMER (R313). -/
def execEpochSwitchTimer (dt : Nat) (n : Fin 32) (s : State) : Answer := .next (epochTimer n (advance dt s))

/-- CONFIG_DISCARD (R317). -/
def configDiscardBody (s : State) (h : Hamper) : Verdict :=
  if h.tail 0 then badArg
  else .ok (s.modEpochs h.fn fun e => { e with items := [] }) (record [(2, (s.epochs[h.fn]).items.length), (2, 0)])

/-- CONFIG_DISCARD (R317). -/
def execConfigDiscard (dt : Nat) (r : Req) (s : State) : Answer :=
  .next (serve r 0x0011 0 false configDiscardBody (advance dt s))

/-- The bits of the indices that satisfy a predicate. -/
def bitsOf {n : Nat} (p : Fin n → Bool) : Nat := ((allFin n).map fun i => if p i then 2 ^ i.val else 0).sum

/-- CONFIG_STATUS (R317). -/
def configStatusBody (s : State) (h : Hamper) : Verdict :=
  if h.tail 0 then badArg
  else
    let e := s.epochs[h.fn]
    let state := if e.commit.isSome then 2 else if e.items.isEmpty then 0 else 1
    .ok s (record [(4, bitsOf fun n => (stagedStream e.items n).isSome), (1, bitsOf fun p => (stagedPort e.items p).isSome),
      (1, state), (2, 0), (4, (e.commit.map fun c => c.epoch.toNat).getD 0), (4, e.lastEpoch.toNat), (2, e.lastStatus),
      (2, 0), (4, s.deviceEpoch.toNat)])

/-- CONFIG_STATUS (R317). -/
def execConfigStatus (dt : Nat) (r : Req) (s : State) : Answer :=
  .next (serve r 0x0012 1 false configStatusBody (advance dt s))

end Sys2Proof.Machine
end

