-- ==== Sys2Proof/Machine/FaultCmds.lean ====
section
/-! DEFINITION. Meanings of the log, pending faults and DEVICE_RESET (R480 to R488, R498, R499). -/

namespace Sys2Proof.Machine

/-- EVENT_LOGGED (R482). -/
def execEventLogged (dt : Nat) (s : State) : Answer := .next (drainOne (advance dt s))

/-- The periodic or fault mirror (R487). -/
def mirrorTimer (s : State) : State :=
  let g := s.log
  let sixty := g.lastMirror = none ∨ since s g.lastMirror (ticksMs 60000)
  let due := g.newSinceMirror ∧ sixty ∧ (g.faultSinceMirror ∨ g.lastMirror ≠ none ∨ ticksMs 60000 ≤ s.elapsed - s.start.since)
  if s.start.core = .valtyn ∧ mainRuns s ∧ g.mirroring = none ∧ due then
    mirrorBegin (if g.faultSinceMirror then 1 else 0) s
  else s

/-- MIRROR_TIMER (R487). -/
def execMirrorTimer (dt : Nat) (s : State) : Answer := .next (mirrorTimer (advance dt s))

/-- Entries in sequence order, oldest first, from a source of LOG_READ. -/
def logSource (s : State) (source : Nat) : List LogEntry :=
  (if source = 0 then s.log.entries else ((newestMirror s).map MirrorBank.entries).getD []).reverse

/-- LOG_READ (R499). -/
def logReadBody (s : State) (h : Hamper) : Verdict :=
  let p := h.payload
  let from_ := fld p 0 4
  let count := fld p 4 2
  let b := bufferAt p 8
  if h.tail 24 || count == 0 || count > 1024 || fld p 6 1 > 1 || !zeros p 7 1 || bufferBad s h.fn b ||
      decide (b.length < 32 * count) then badArg
  else
    let l := logSource s (fld p 6 1)
    let l := (if from_ = 0xFFFFFFFF then l else l.filter fun e => decide (from_ ≤ e.sequence.toNat)).take count
    .ok (if l.isEmpty then s else bufferWrite h.fn b 0 (l.flatMap logEntryBytes) s)
      (record [(2, l.length), (2, 0), (4, (l.head?.map fun e => e.sequence.toNat).getD 0)])

/-- LOG_READ (R499). -/
def execLogRead (dt : Nat) (r : Req) (s : State) : Answer := .next (serve r 0x0C01 0 true logReadBody (advance dt s))

/-- LOG_CLEAR (R499): with also_mirror the cleared log is mirrored; the sequence restarts at 1 with 0x9014. -/
def logClearBody (s : State) (h : Hamper) : Verdict :=
  let p := h.payload
  if h.tail 4 || fld p 0 1 > 1 || !zeros p 1 3 then badArg
  else
    let n := s.log.entries.length
    let s1 := s.modLog fun g => { g with entries := [], headSlot := 0 }
    let s2 := if bit (fld p 0 1) 0 then mirrorBegin 4 s1 else s1
    let s3 := s2.modLog fun g => { g with sequence := 0 }
    .ok (newEntry ⟨0x9014, wide, wide, nowNs s, 1⟩ s3) (leBytes 4 n)

/-- LOG_CLEAR (R499). -/
def execLogClear (dt : Nat) (r : Req) (s : State) : Answer := .next (serve r 0x0C02 0 true logClearBody (advance dt s))

/-- Acknowledge the faults that `p` selects (R485). -/
def acknowledge (p : PendingFault → Bool) (s : State) : State :=
  let seqs := (s.log.faults.filter p).map PendingFault.sequence
  s.modLog fun g => { g with
    faults := g.faults.filter fun f => !p f
    faultOverflow := false
    entries := g.entries.map fun e => if seqs.contains e.sequence ∧ e.severity = 2 then { e with acked := true } else e }

/-- FAULT_ACK (R485, R499). -/
def faultAckBody (s : State) (h : Hamper) : Verdict :=
  let p := h.payload
  let q := fld p 0 4
  let sel (f : PendingFault) : Bool := q == 0xFFFFFFFF || f.sequence.toNat == q
  if h.tail 8 || !zeros p 4 4 || (q != 0xFFFFFFFF && !s.log.faults.any sel) then badArg
  else
    let t := acknowledge sel s
    .ok t (record [(2, t.log.faults.length), (2, 0)])

/-- FAULT_ACK (R485). -/
def execFaultAck (dt : Nat) (r : Req) (s : State) : Answer := .next (serve r 0x0C03 0 true faultAckBody (advance dt s))

/-- The functions that are WEDGED, as bits (R499). -/
def wedgedMask (s : State) : Nat :=
  ((allFin 16).filter fun f => (s.fns[f]).mode = .wedged).foldl (fun a f => a + 2 ^ f.val) 0

/-- FAULT_STATUS (R499). -/
def faultStatusBody (s : State) (h : Hamper) : Verdict :=
  if h.tail 0 then badArg
  else
    let g := s.log
    let one (f : PendingFault) : List Byte :=
      record [(2, f.code), (1, f.fn), (1, f.unit), (4, f.sequence.toNat), (4, f.count.toNat), (4, 0)]
    .ok s (record [(2, g.faults.length), (2, wedgedMask s), (4, s.start.number.toNat), (1, s.pwr.cause),
      (1, b2n g.faultOverflow + 2 * b2n g.restored + 4 * b2n s.pwr.lockstep), (2, 0), (4, g.lostTotal.toNat)] ++
      padTo 128 ((g.faults.take 8).flatMap one))

/-- FAULT_STATUS (R499). -/
def execFaultStatus (dt : Nat) (r : Req) (s : State) : Answer :=
  .next (serve r 0x0C04 0 false faultStatusBody (advance dt s))

/-- LOG_FILTER (R499). -/
def logFilterBody (s : State) (h : Hamper) : Verdict :=
  let p := h.payload
  let m := fld p 0 2
  if h.tail 4 || m &&& 0xF001 != 0 || !zeros p 2 2 then badArg
  else .ok (s.modLog fun g => { g with filterMask := BitVec.ofNat 16 m })
    (record [(2, s.log.filterMask.toNat), (2, 0)])

/-- LOG_FILTER (R499). -/
def execLogFilter (dt : Nat) (r : Req) (s : State) : Answer := .next (serve r 0x0C05 4 true logFilterBody (advance dt s))

/-- DEVICE_RESET (R492, R496, R499): with a mirror the bypass switches close when it begins and internal reset follows
it; an armed switch is discarded. -/
def deviceResetBody (s : State) (h : Hamper) : Verdict :=
  let p := h.payload
  if h.tail 8 || fld p 0 4 != 0x4C565253 || fld p 4 1 > 1 || !zeros p 5 3 then badArg
  else .ok ((post 0x9016 wide wide s).modStart fun a => { a with live := .idle }) []

/-- What follows the reply of an accepted DEVICE_RESET. -/
def deviceResetFollows (skip : Bool) (s : State) : State :=
  if skip ∨ s.start.core = .recovery then assertReset .deviceReset s
  else
    let s := { s with guard := { s.guard with paths := s.guard.paths.map GPath.shut } }
    mirrorBegin 3 (drainAll 256 s)

/-- DEVICE_RESET (R492). -/
def execDeviceReset (dt : Nat) (r : Req) (s : State) : Answer :=
  let s := advance dt s
  let t := serve r 0x0008 0 true deviceResetBody s
  .next (match fetch s r with
    | some h =>
      if h.op = 0x0008 then
        (match judge s h 0 true deviceResetBody with
          | .ok _ _ => deviceResetFollows (bit (fld h.payload 4 1) 0) t
          | _ => t)
      else t
    | none => t)

/-- A full read of LOG_LOST (R498). -/
def readLogLost (s : State) : Word × State := (s.log.lost, s.modLog fun g => { g with lost := 0 })

/-- LOG_LOST_READ (R498). -/
def execLogLostRead (dt : Nat) (fn : Fn) (s : State) : Answer :=
  .next (readRegister fn 0x4000C readLogLost (advance dt s))

/-- A full read of LOG_FILTERED (R498). -/
def readLogFiltered (s : State) : Word × State := (s.log.filtered, s.modLog fun g => { g with filtered := 0 })

/-- LOG_FILTERED_READ (R498). -/
def execLogFilteredRead (dt : Nat) (fn : Fn) (s : State) : Answer :=
  .next (readRegister fn 0x40010 readLogFiltered (advance dt s))

/-- The word at a byte offset of a slot of the log window (R498): slots run on from the newest entry backwards. -/
def logWindow (s : State) (slot word : Nat) : Word :=
  let back := (s.log.headSlot + 1024 - slot) % 1024
  match s.log.entries[back]? with
  | some e => BitVec.ofNat 32 (fld (logEntryBytes e) (4 * word) 4)
  | none => 0

/-- The log, fault and management registers without a side effect (R498). -/
def logRegister (s : State) (off : Nat) : Option Word :=
  let g := s.log
  if off = 0x40000 then some (packed [(17, b2n g.lostSticky), (16, b2n g.restored), (0, g.entries.length)])
  else if off = 0x40004 then some g.sequence
  else if off = 0x40008 then some (BitVec.ofNat 32 g.headSlot)
  else if off = 0x4000C then some g.lost
  else if off = 0x40010 then some g.filtered
  else if off = 0x40014 then some (packed [(8, b2n g.faultOverflow), (0, g.faults.length)])
  else if 0x48000 ≤ off ∧ off < 0x50000 then some (logWindow s (off % 0x8000 / 32) (off % 32 / 4))
  else if off = 0x80000 then some (packed [(16, s.pwr.warmCount.toNat), (9, b2n s.pwr.mirrored), (8, b2n s.pwr.lockstep),
    (0, s.pwr.cause)])
  else if off = 0x80004 then some (packed [(16, s.pwr.wdtLate.toNat),
    (0, min 0xFFFF (if s.pwr.wdtArmed then (s.elapsed - s.pwr.wdtLast) / 200000 else 0))])
  else none

end Sys2Proof.Machine
end

