-- ==== Sys2Proof/Machine/Features.lean ====
section
/-! DEFINITION. The audio features of R368, computed in fixed point: far finer than the ±0.25 dB that R368 leaves the engine,
which is a free deviation here (log entry 23). Angles are in 1/512 of a turn, samples are 24-bit codes. -/

namespace Sys2Proof.Machine

/-! ### Fixed point -/

/-- The number 1 in fixed point. -/
abbrev fxOne : Int := 2 ^ 128

/-- π in fixed point. -/
def fxPi : Int := 3141592653589793238462643383279502884197169399375105820974 * fxOne / 10 ^ 57

/-- log10 2 in fixed point. -/
def fxLogTwo : Int := 301029995663981195213738894724493026768189881462108541310 * fxOne / 10 ^ 57

/-- The natural logarithm of 2 in fixed point. -/
def fxLnTwo : Int := 693147180559945309417232121458176568075500134360255254120 * fxOne / 10 ^ 57

/-- The terms of a power series from one on: the next is `term` × `x` / `div k` (Taylor). -/
def series (x : Int) (div : Nat → Int) : Nat → Nat → Int → Int
  | 0, _, _ => 0
  | n + 1, k, term => term + series x div n (k + 1) (term * x / fxOne / div k)

/-- cos(2πn/512) of the first quadrant. -/
def cosFirst (n : Nat) : Int :=
  let t := fxPi * n / 256
  series (-(t * t / fxOne)) (fun k => (2 * k + 1) * (2 * k + 2)) 40 0 fxOne

/-- cos(2πn/512). -/
def cosAt (n : Nat) : Int :=
  let n := n % 512
  let m := if 256 < n then 512 - n else n
  if m ≤ 128 then cosFirst m else -cosFirst (256 - m)

/-- The cosines of one turn. -/
def cosTable : Array Int := ((List.range 512).map cosAt).toArray

/-- The first `n` binary digits of log2 of a mantissa between 1 and 2. -/
def log2Digits : Nat → Nat → Nat → Nat
  | 0, _, acc => acc
  | n + 1, m, acc =>
    let q := m * m / 2 ^ 128
    if 2 ^ 129 ≤ q then log2Digits n (q / 2) (2 * acc + 1) else log2Digits n q (2 * acc)

/-- log2 of a positive number, in 2^-64. -/
def log2Of (x : Nat) : Int :=
  let e := Nat.log2 x
  (e : Int) * 2 ^ 64 + log2Digits 64 (x * 2 ^ 128 / 2 ^ e) 0

/-- e^t in fixed point, for t below 4. -/
def fxExp (t : Int) : Int := series t (fun k => k + 1) 80 0 fxOne

/-! ### Spectrum (R368, items 1 and 2) -/

/-- The windowed samples: w[n] = (1 − cos(2πn/512)) / 2. -/
def windowed (xs : List Int) : List Int := xs.mapIdx fun n v => (fxOne - cosTable.getD (n % 512) 0) * v / 2 ^ 24

/-- |X[k]|², scaled by the square of `fxOne`. -/
def binEnergy (ys : List Int) (k : Nat) : Nat :=
  let re : Int := (ys.mapIdx fun n y => y * cosTable.getD (k * n % 512) 0 / fxOne).sum
  let im : Int := (ys.mapIdx fun n y => y * cosTable.getD ((k * n + 384) % 512) 0 / fxOne).sum
  (re * re + im * im).toNat

/-- 65 536 × P[k], k from 0 to 256, scaled by the square of `fxOne`. -/
def spectrum (xs : List Int) : List Nat :=
  let ys := windowed xs
  (List.range 257).map fun k => (if k = 0 ∨ k = 256 then 1 else 4) * binEnergy ys k

/-! ### Levels (R368, items 3 to 5) -/

/-- 10 × log10 of `num` / `den` in Q8.8 dB, no less than −120 dB. -/
def decibels (num den : Nat) : Int :=
  if num * 10 ^ 12 ≤ den then -30720
  else roundDiv (2560 * fxLogTwo * (log2Of num - log2Of den)) (2 ^ 64 * fxOne)

/-- The edge f(m_i) in Hz in fixed point: mel is a logarithm of 1 + f/700, so equal steps of it are equal ratios of
1 + f/700, from 1 to 247/7. -/
def melEdge (i : Nat) : Int :=
  700 * (fxExp ((log2Of 247 - log2Of 7) * i * fxLnTwo / (41 * 2 ^ 64)) - fxOne)

/-- The edges m_0 to m_41. -/
def melEdges : Array Int := ((List.range 42).map melEdge).toArray

/-- The weight of band `b` at bin `k`, in fixed point. -/
def bandWeight (b k : Nat) : Int :=
  let f : Int := 9375 * k * fxOne / 100
  let lo := melEdges.getD b 0
  let mid := melEdges.getD (b + 1) 0
  let hi := melEdges.getD (b + 2) 0
  if f ≤ lo ∨ hi ≤ f then 0
  else if f ≤ mid then (f - lo) * fxOne / (mid - lo)
  else (hi - f) * fxOne / (hi - mid)

/-- band[b] of a spectrum in Q8.8 dB. -/
def bandLevel (spec : List Nat) (b : Nat) : Int :=
  let e : Int := (spec.mapIdx fun k p => bandWeight b k * p / fxOne).sum
  decibels e.toNat (65536 * 2 ^ 256)

/-- rms of a hop's samples in Q8.8 dBFS. -/
def rmsLevel (xs : List Int) : Int := decibels ((xs.map fun v => v * v).sum).toNat (xs.length * 2 ^ 46)

/-- A number held within the s16 range. -/
def s16 (v : Int) : Int := max (-32768) (min 32767 v)

/-- The level that is written: within 0.25 dB of `ref`, which is itself rounded, above −90 dB, and free below (R368, log
entry 23). The floor of silence is exact. -/
def written (silent : Bool) (ref free : Int) : Int :=
  if silent then -30720 else if ref < -23038 then s16 free else s16 (ref + (free % 131 - 65))

/-! ### Peak (R368, item 6) -/

/-- The bin from 1 to 255 with the largest P, the lowest of equal ones: values closer than 2^-40 count as equal (log entry
23). -/
def peakBin (spec : List Nat) : Nat :=
  let mids := (spec.take 256).drop 1
  let top := mids.foldl max 0
  1 + mids.findIdx fun p => decide ((top - p) * 2 ^ 40 ≤ top)

/-- P[k] is too small to tell from 0 in fixed point. -/
def vanishing (p : Nat) : Bool := decide (p < 2 ^ 100)

/-- peak_hz of a spectrum; `free` stands where the formula has no value: a neighbour of the peak without power, a zero
denominator, a result outside u16 (log entry 23). -/
def peakHz (spec : List Nat) (free : Nat) : Nat :=
  if ((spec.take 256).drop 1).all (· == 0) then 0
  else
    let k := peakBin spec
    let pa := spec.getD (k - 1) 0
    let pb := spec.getD k 0
    let pc := spec.getD (k + 1) 0
    let a := log2Of pa
    let b := log2Of pb
    let c := log2Of pc
    let den := 2 * (a - 2 * b + c)
    if vanishing pa || vanishing pb || vanishing pc || den == 0 then free % 65536
    else
      let num := (k * den + (a - c)) * 9375
      let hz := if 0 < den then roundTie num (100 * den) else roundTie (-num) (-(100 * den))
      if 0 ≤ hz ∧ hz ≤ 65535 then hz.toNat else free % 65536

end Sys2Proof.Machine
end

