-- ==== Sys2Proof/Machine/Firmware.lean ====
section
/-! DEFINITION. Meanings of provisioning, firmware, live update and measurement (R147 to R162). -/

namespace Sys2Proof.Machine

/-- An ACCEPTED hamper whose notice's count the spec does not state: a free value (log entry 5). -/
def hamperDoneFree (op index status : Nat) (s : State) : State :=
  let (v, s) := draw s
  hamperDone op index status (BitVec.ofNat 32 v) s

/-- PROVISION (R162). -/
def provisionBody (s : State) (h : Hamper) : Verdict :=
  let p := h.payload
  let f := fld p 4 1
  if s.mram.identity.lock then wrongState
  else if h.tail 24 || f > 7 || !zeros p 5 3 || (bufferAt p 8).reserved || (bit f 2 && bufferBad s h.fn (bufferAt p 8)) then
    badArg
  else .accepted (accept h 0 s) []

/-- PROVISION (R162). -/
def execProvision (dt : Nat) (r : Req) (s : State) : Answer :=
  .next (serve r 0x0009 0 true provisionBody (advance dt s))

/-- Provisioning finishes (R162): the identity area is written, or the certificate's buffer could not be read. The bytes
written are those of the request's fields, 5, and of the chain (log entry 54). -/
def provisionEnds (cert : Fetched) (s : State) : State :=
  match findAccepted s 0x0009 0 with
  | none => s
  | some a =>
    let f := fld a.payload 4 1
    let write (c : List Byte) (s : State) : State :=
      hamperDone 0x0009 0 stOk (BitVec.ofNat 32 (5 + c.length)) (s.modMram fun m => { m with identity := { m.identity with
        subsysVendor := BitVec.ofNat 16 (fld a.payload 0 2), subsysId := BitVec.ofNat 16 (fld a.payload 2 2)
        bar2Enable := bit f 0, lock := m.identity.lock || bit f 1
        cert := if bit f 2 then c else m.identity.cert } })
    if bit f 2 then
      match bufferRead s a.fn (bufferAt a.payload 8) cert with
      | .data c => write c s
      | .failed => hamperDone 0x0009 0 stBusError 0 s
    else write [] s

/-- PROVISION_DONE (R162). -/
def execProvisionDone (dt : Nat) (cert : Fetched) (s : State) : Answer := .next (provisionEnds cert (advance dt s))

/-- MEAS_REPORT (R158, R162). -/
def measReportBody (s : State) (h : Hamper) : Verdict :=
  let p := h.payload
  let b := bufferAt p 0x24
  if h.tail 52 || fld p 0x20 1 > 1 || !zeros p 0x21 3 || bufferBad s h.fn b ||
      decide (b.length < if bit (fld p 0x20 1) 0 then 17328 else 944) then badArg
  else .accepted (accept h h.fn s) []

/-- MEAS_REPORT (R158). -/
def execMeasReport (dt : Nat) (r : Req) (s : State) : Answer :=
  .next (serve r 0x0B01 0 false measReportBody (advance dt s))

/-- One logged extension of a report (R158). -/
def extensionBytes (e : Extension) : List Byte :=
  record [(4, e.count.toNat), (1, e.slot), (1, e.extender), (2, 0), (8, e.timeNs.toNat)] ++ e.digest

/-- The report before its signature (R158). -/
def reportBody (s : State) (nonce : List Byte) (withLog : Bool) : List Byte :=
  let m := s.meas
  let n := if withLog then m.log.length else 0
  record [(2, 1), (2, 0), (4, 0x350 + 64 * n + 96), (8, s.start.ident.serial.toNat), (4, s.start.number.toNat),
      (1, s.start.major), (1, s.start.minor), (1, s.start.runningSlot), (1, measIndex s), (8, (nowNs s).toNat)] ++
    nonce ++ m.slots.toList.flatten ++
    record [(4, m.count.toNat), (4, if withLog then m.baseCount.toNat else m.count.toNat), (4, n), (4, 0)] ++
    (if withLog then m.base.toList.flatten else m.slots.toList.flatten) ++
    (if withLog then m.log.flatMap extensionBytes else [])

/-- Sign bytes: 96 bytes that the spec leaves to the key (R158, log entry 6). -/
def signBytes (bytes : List Byte) (s : State) : List Byte × State :=
  (padTo 96 ((Config.signature s.drawn (sha384 bytes)).take 96), (draw s).2)

/-- The first MEAS_REPORT in progress ends (R158). -/
def measReportEnds (written : Bool) (s : State) : State :=
  match s.accepted.find? fun a => a.op == 0x0B01 with
  | none => s
  | some a =>
    if written then
      let body := reportBody s (slice a.payload 0 32) (bit (fld a.payload 0x20 1) 0)
      let (sig, s) := signBytes body s
      let bytes := body ++ sig
      hamperDone 0x0B01 a.index stOk (BitVec.ofNat 32 bytes.length)
        (bufferWrite a.fn (bufferAt a.payload 0x24) 0 bytes s)
    else hamperDoneFree 0x0B01 a.index stBusError s

/-- MEAS_REPORT_DONE (R158). -/
def execMeasReportDone (dt : Nat) (written : Bool) (s : State) : Answer := .next (measReportEnds written (advance dt s))

/-- The slot that runs; none in ROM recovery (R149). -/
def runningSlot (s : State) : Option (Fin 2) := if s.start.core = .valtyn then some s.start.runningSlot else none

/-- FW_STAGE (R162), with the header that Valtyn reads from the buffer. -/
def fwStageBody (header : Fetched) (s : State) (h : Hamper) : Verdict :=
  let p := h.payload
  let b := bufferAt p 8
  match fin? 2 (fld p 0 1) with
  | none => badArg
  | some slot =>
    if runningSlot s = some slot then wrongState
    else if h.tail 24 || !zeros p 1 7 || bufferBad s h.fn b || decide (b.length < 0x100) ||
        decide (b.length > 0x200000) then badArg
    else match bufferRead s h.fn b header with
      | .failed => .refuse stBusError []
      | .data d =>
        if ¬ headerGood d ∨ d.length < 0x100 ∨ b.length < fld d 0x1C 4 then badArg
        else .accepted ((accept h slot s).modMram fun m => { m with
          slots := m.slots.set slot ⟨.staging, []⟩ }) []

/-- FW_STAGE (R162). -/
def execFwStage (dt : Nat) (r : Req) (header : Fetched) (s : State) : Answer :=
  .next (serve r 0x0B02 0 true (fwStageBody header) (advance dt s))

/-- Staging ends (R161, R162). -/
def fwStageEnds (image : Fetched) (s : State) : State :=
  match s.accepted.find? fun a => a.op == 0x0B02 with
  | none => s
  | some a =>
    match fin? 2 a.index with
    | none => s
    | some slot =>
      let set (st : SlotState) (bytes : List Byte) (s : State) : State :=
        s.modMram fun m => { m with slots := m.slots.set slot ⟨st, bytes⟩ }
      match bufferRead s a.fn (bufferAt a.payload 8) image with
      | .failed => hamperDoneFree 0x0B02 slot stBusError (set .invalid [] s)
      | .data d =>
        if intact d then hamperDoneFree 0x0B02 slot stOk (set .valid d s)
        else hamperDoneFree 0x0B02 slot stAborted (post 0x9008 wide slot (set .invalid d s))

/-- FW_STAGE_DONE (R161). -/
def execFwStageDone (dt : Nat) (image : Fetched) (s : State) : Answer := .next (fwStageEnds image (advance dt s))

/-- Make a slot active, clearing use_alternate of ST02 and ST03 when it changes (R144, R148). -/
def activateSlot (slot : Fin 2) (s : State) : State :=
  s.modMram fun m => { m with
    identity := { m.identity with activeSlot := slot }
    clearAlternate := if m.identity.activeSlot = slot then m.clearAlternate else m.clearAlternate ++ [2, 3] }

/-- Make a copy active, clearing use_alternate of ST05 and ST06 when it changes (R144, R148). -/
def activateCopy (copy : Fin 2) (s : State) : State :=
  s.modMram fun m => { m with
    identity := { m.identity with activeCopy := copy }
    clearAlternate := if m.identity.activeCopy = copy then m.clearAlternate else m.clearAlternate ++ [5, 6] }

/-- A live switch is armed or running. -/
def liveBusy (s : State) : Bool :=
  match s.start.live with
  | .idle => false
  | _ => true

/-- FW_ACTIVATE (R151, R162). -/
def fwActivateBody (s : State) (h : Hamper) : Verdict :=
  let p := h.payload
  let mode := fld p 1 1
  if s.start.core = .recovery ∧ mode ≠ 0 then .refuse stBadOpcode []
  else match fin? 2 (fld p 0 1) with
    | none => badArg
    | some slot =>
      let img := (s.mram.slots[slot]).image
      if (s.mram.slots[slot]).state ≠ .valid then wrongState
      else if mode = 1 ∧ (runningSlot s = some slot ∨ fld img 6 1 ≠ s.start.major ∨ liveBusy s) then wrongState
      else if h.tail 4 || mode > 1 || !zeros p 2 2 then badArg
      else if mode = 0 then .ok (activateSlot slot s) []
      else .ok (s.modStart fun a => { a with live := .armed slot s.elapsed }) []

/-- FW_ACTIVATE (R151). -/
def execFwActivate (dt : Nat) (r : Req) (s : State) : Answer :=
  .next (serve r 0x0B03 0 true fwActivateBody (advance dt s))

/-- OUTING_WRITE (R162). -/
def outingWriteBody (s : State) (h : Hamper) : Verdict :=
  let p := h.payload
  let b := bufferAt p 8
  match fin? 2 (fld p 0 1) with
  | none => badArg
  | some copy =>
    if s.mram.identity.activeCopy = copy then wrongState
    else if h.tail 24 || fld p 1 1 > 1 || !zeros p 2 6 || bufferBad s h.fn b || decide (b.length > 0x100000) then badArg
    else .accepted (accept h copy s) []

/-- OUTING_WRITE (R162). -/
def execOutingWrite (dt : Nat) (r : Req) (s : State) : Answer :=
  .next (serve r 0x0B04 0 true outingWriteBody (advance dt s))

/-- The written copy has been decoded (R161, R162). No copy changes before ST05 has read its record, so that what is written
takes effect at the next start and not before (R21, log entry 54). -/
def outingWriteEnds (rec : Fetched) (s : State) : State :=
  match s.accepted.find? fun a => a.op == 0x0B04 with
  | none => s
  | some a =>
    if ¬ stepEnded s (5, noInst) then s
    else match fin? 2 a.index, bufferRead s a.fn (bufferAt a.payload 8) rec with
    | none, _ => s
    | some copy, .failed => hamperDoneFree 0x0B04 copy stBusError s
    | some copy, .data d =>
      let s := s.modMram fun m => { m with copies := m.copies.set copy d }
      match outingError d with
      | none => hamperDone 0x0B04 copy stOk 0 (if bit (fld a.payload 1 1) 0 then activateCopy copy s else s)
      | some off => hamperDone 0x0B04 copy stAborted (BitVec.ofNat 32 off) (post 0x9003 wide copy s)

/-- OUTING_WRITE_DONE (R162). -/
def execOutingWriteDone (dt : Nat) (rec : Fetched) (s : State) : Answer := .next (outingWriteEnds rec (advance dt s))

/-- The bytes of a record with its CRC (R143). -/
def recordBytes (r : Record) : List Byte :=
  let b := record [(1, r.kind), (1, r.step), (1, r.inst), (1, r.route), (4, r.startNumber.toNat), (8, r.timeNs.toNat),
    (4, r.durationUs.toNat), (2, r.cause), (2, 0), (4, r.detail.toNat)]
  b ++ leBytes 4 (crc32c b)

/-- The bytes of a learned entry (R144). -/
def learnedBytes (e : Learned) : List Byte :=
  record [(1, e.step), (1, e.inst), (1, e.failCount), (1, b2n e.useAlternate + 2 * b2n e.skip), (4, e.lastStart.toNat),
    (24, e.params.toNat)]

/-- The bytes of a bank (R141, R142). -/
def bankBytes (b : Bank) : List Byte :=
  let l := b.learned.flatMap learnedBytes
  let h := record [(4, 0x4C564A31), (4, b.startNumber.toNat), (1, b.cause), (1, b.path), (1, b.fwSlot), (1, b.outingCopy),
    (1, b.major), (1, b.minor), (2, b.learned.length), (4, b.wakeOffsetUs.toNat), (4, crc32c l), (36, 0)]
  let h := if b.headerGood then h ++ leBytes 4 (crc32c h) else List.replicate 64 0
  h ++ padTo 4032 l ++ padTo 12288 (b.records.flatMap recordBytes)

/-- JOURNAL_READ (R162). -/
def journalReadBody (s : State) (h : Hamper) : Verdict :=
  let p := h.payload
  let back := fld p 0 1
  let b := bufferAt p 8
  let n := s.start.number - BitVec.ofNat 32 back
  if h.tail 24 || back > 15 || !zeros p 1 7 || bufferBad s h.fn b || decide (b.length < 16384) then badArg
  else match s.mram.banks[bankOf n] with
    | some k =>
      if k.startNumber = n ∧ (k.headerGood ∨ back = 0) then
        .ok (bufferWrite h.fn b 0 (bankBytes k) s) (record [(4, n.toNat), (4, 16384)])
      else badArg
    | none => badArg

/-- JOURNAL_READ (R162). -/
def execJournalRead (dt : Nat) (r : Req) (s : State) : Answer :=
  .next (serve r 0x0B05 0 false journalReadBody (advance dt s))

/-- JOURNAL_CLEAR (R162). -/
def journalClearBody (s : State) (h : Hamper) : Verdict :=
  if h.tail 0 then badArg else .ok (jot 0x12 0 noInst 0 0 0 0 s) []

/-- JOURNAL_CLEAR (R162). -/
def execJournalClear (dt : Nat) (r : Req) (s : State) : Answer :=
  .next (serve r 0x0B06 0 true journalClearBody (advance dt s))

/-- SLOT_SELECT (R162). -/
def slotSelectBody (s : State) (h : Hamper) : Verdict :=
  let p := h.payload
  let f := fld p 0 1
  let c := fld p 1 1
  let slotBad := match fin? 2 f with
    | some i => decide ((s.mram.slots[i]).state ≠ .valid)
    | none => false
  let copyBad := match fin? 2 c with
    | some i => (outingError s.mram.copies[i]).isSome
    | none => false
  if slotBad || copyBad then wrongState
  else if h.tail 4 || !zeros p 2 2 || (f > 1 && f != 0xFF) || (c > 1 && c != 0xFF) then badArg
  else
    let s := match fin? 2 f with
      | some i => activateSlot i s
      | none => s
    .ok (match fin? 2 c with
      | some i => activateCopy i s
      | none => s) []

/-- SLOT_SELECT (R162). -/
def execSlotSelect (dt : Nat) (r : Req) (s : State) : Answer :=
  .next (serve r 0x0B07 1 true slotSelectBody (advance dt s))

/-! ### Live update -/

/-- The version in an image's header (R147). -/
def imageVersion (img : List Byte) : Nat × Nat := (fld img 6 1, fld img 7 1)

/-- The 16 measured bytes of M5 (R155). -/
def updateEntry (old new : Nat × Nat) (slot : Fin 2) (reverted : Bool) : List Byte :=
  record [(1, old.1), (1, old.2), (1, new.1), (1, new.2), (1, slot), (1, b2n reverted), (10, 0)]

/-- The quiet point of an armed switch (R91, R151, R152): every fetched hamper has its reply, every ACCEPTED one its notice,
and no commit is in progress. -/
def quietPoint (s : State) : State :=
  match s.start.live with
  | .armed slot _ =>
    if s.accepted.isEmpty ∧ s.owed.isEmpty ∧ ¬ commitBusy s then
      let img := (s.mram.slots[slot]).image
      let s := s.modStart fun a => { a with live := .switching slot s.elapsed, doorClosed := true }
      extend 5 1 (updateEntry (s.start.major, s.start.minor) (imageVersion img) slot false)
        (extend 1 1 (valtynBytes img) s)
    else s
  | _ => s

/-- LIVE_QUIET_POINT (R152). -/
def execLiveQuietPoint (dt : Nat) (s : State) : Answer := .next (quietPoint (advance dt s))

/-- The job field of UPDATE_DONE (R88). -/
def versionWord (v : Nat × Nat) : Word := packed [(8, v.1), (0, v.2)]

/-- No quiet point has come 2 s after the arm (R151). -/
def armTimeout (s : State) : State :=
  match s.start.live with
  | .armed slot t =>
    if t + ticksMs 2000 ≤ s.elapsed then
      noticeAll nUpdateDone (versionWord (imageVersion (s.mram.slots[slot]).image)) stTimeout 0
        (s.modStart fun a => { a with live := .idle })
    else s
  | _ => s

/-- LIVE_ARM_TIMEOUT (R151). -/
def execLiveArmTimeout (dt : Nat) (s : State) : Answer := .next (armTimeout (advance dt s))

/-- The new image opens the door within 20 ms (R152). -/
def switchOpens (s : State) : State :=
  match s.start.live with
  | .switching slot t =>
    if s.elapsed < t + ticksMs 20 then
      let v := imageVersion (s.mram.slots[slot]).image
      let s := s.modStart fun a => { a with
        live := .idle, doorClosed := false, runningSlot := slot, major := v.1, minor := v.2 }
      noticeAll nUpdateDone (versionWord v) stOk 0
        (jot 0x13 0 noInst 0 0 0 (256 * v.1 + v.2) (activateSlot slot s))
    else s
  | _ => s

/-- LIVE_SWITCH_OPEN (R152). -/
def execLiveSwitchOpen (dt : Nat) (s : State) : Answer := .next (switchOpens (advance dt s))

/-- The new image has not opened the door by 20 ms: the loader restores the old image (R153). -/
def switchReverts (s : State) : State :=
  match s.start.live with
  | .switching slot t =>
    if t + ticksMs 20 ≤ s.elapsed then
      let v := imageVersion (s.mram.slots[slot]).image
      let old := (s.mram.slots[s.start.runningSlot]).image
      let s := extend 5 1 (updateEntry (s.start.major, s.start.minor) v slot true) (extend 1 1 (valtynBytes old) s)
      let s := s.modStart fun a => { a with live := .idle, doorClosed := false }
      post 0x9005 wide slot (noticeAll nUpdateDone (versionWord v) stTimeout 0
        (jot 0x13 0 noInst 0 0 0 (65536 + 256 * v.1 + v.2) s))
    else s
  | _ => s

/-- LIVE_SWITCH_REVERT (R153). -/
def execLiveSwitchRevert (dt : Nat) (s : State) : Answer := .next (switchReverts (advance dt s))

/-! ### Debug port, SPDM, compact report -/

/-- The debug port opens or closes (R155). -/
def debugPort (isOpen : Bool) (s : State) : State :=
  if s.meas.debugOpen = isOpen then s
  else
    let s := { s with meas := { s.meas with debugOpen := isOpen } }
    if mainRuns s then extendDebug isOpen s else s

/-- The debug port holds the core halted, and the watchdog pauses (R489). -/
def haltCore (s : State) : State :=
  if s.meas.debugOpen ∧ s.pwr.wdtHalt = none then s.modPower fun p => { p with wdtHalt := some s.elapsed } else s

/-- The debug port lets the core run, and the watchdog with it (R489). -/
def freeCore (s : State) : State :=
  match s.pwr.wdtHalt with
  | some t => s.modPower fun p => { p with wdtHalt := none, wdtPause := p.wdtPause + (s.elapsed - max t p.wdtLast) }
  | none => s

/-- DEBUG_PORT_OPEN (R155): the debugger may hold the core halted (R489). -/
def execDebugPortOpen (dt : Nat) (halts : Bool) (s : State) : Answer :=
  let s := debugPort true (advance dt s)
  .next (if halts then haltCore s else s)

/-- DEBUG_PORT_CLOSE (R155). -/
def execDebugPortClose (dt : Nat) (s : State) : Answer := .next (freeCore (debugPort false (advance dt s)))

/-- The requests of R159. -/
inductive SpdmReq where
  | version
  | capabilities
  | algorithms
  | digests
  /-- A portion of the chain of a slot, from an offset. -/
  | certificate (slot offset length : Nat)
  | challenge (slot : Nat)
  /-- The measurement block of an index, 0 for their number and 0xFF for all, signed or not. -/
  | measurements (index : Nat) (signed : Bool)
  deriving DecidableEq, Repr

/-- The chain of a certificate slot: Ndosis's device chain in slot 0, the one that PROVISION wrote in slot 1 (R159). -/
def spdmChain (s : State) (slot : Nat) : List Byte := if slot = 0 then Config.deviceChain else s.start.ident.cert

/-- The certificate slots that hold a chain: slot 1 only once PROVISION has written one. -/
def spdmSlots (s : State) : Nat := if s.start.ident.cert.isEmpty then 1 else 3

/-- The request that a message spells (the codes PRESUMED after SPDM 1.2, log entry 8); none for a malformed one: an unknown
code, too few bytes, a slot without a chain, a chain's end passed, a block that R159 does not have. -/
def spdmReq (s : State) (msg : List Byte) : Option SpdmReq :=
  if msg.length < 4 then none
  else
    let slot := fld msg 2 1
    let held := decide (slot < 2) && bit (spdmSlots s) slot
    match fld msg 1 1 with
    | 0x84 => some .version
    | 0xE1 => some .capabilities
    | 0xE3 => some .algorithms
    | 0x81 => some .digests
    | 0x82 =>
      if held ∧ 8 ≤ msg.length ∧ fld msg 4 2 < (spdmChain s slot).length then
        some (.certificate slot (fld msg 4 2) (fld msg 6 2)) else none
    | 0x83 => if held ∧ 36 ≤ msg.length then some (.challenge slot) else none
    | 0xE0 =>
      let index := fld msg 3 1
      if (index ≤ 9 ∨ index = 0xFF) ∧ (bit slot 0 → 36 ≤ msg.length) then some (.measurements index (bit slot 0)) else none
    | _ => none

/-- The connection state that a request of R159 needs, and the one it leaves (PRESUMED after SPDM 1.2, log entry 8); none out of
sequence. -/
def spdmSequence : SpdmReq → Spdm → Option Spdm
  | .version, _ => some .version
  | .capabilities, .version => some .capabilities
  | .algorithms, .capabilities => some .algorithms
  | .digests, .algorithms | .certificate .., .algorithms | .challenge .., .algorithms | .measurements .., .algorithms =>
    some .algorithms
  | _, _ => none

/-- The state of the connection after a message; none for one that is malformed or out of sequence (R159, R161). -/
def spdmNext (s : State) (msg : List Byte) : Option Spdm := (spdmReq s msg).bind fun r => spdmSequence r s.meas.spdm

/-- A measurement block of R159: blocks 1 to 8 are the digests M0 to M7 with their DMTF value types, block 9 is meas_count. -/
def spdmBlock (s : State) (i : Nat) : List Byte :=
  let (kind, value) :=
    if i = 9 then (0x84, leBytes 4 s.meas.count.toNat)
    else (if i = 7 then 2 else if i = 1 ∨ i = 2 ∨ i = 6 then 1 else 3, (s.meas.slots.toList[i - 1]?).getD [])
  record [(1, i), (1, 1), (2, 3 + value.length), (1, kind), (2, value.length)] ++ value

/-- Free bytes of a response: `n` of them from the `from_`-th on. -/
def spdmFree (s : State) (from_ n : Nat) : List Byte := (List.range n).map fun i => Config.spdmByte s.drawn (from_ + i)

/-- The response to a request (R159; its layout PRESUMED after SPDM 1.2, log entry 8), and whether a signature follows it. -/
def spdmResponse (s : State) : SpdmReq → List Byte × Bool
  | .version => (record [(1, 0x10), (1, 0x04), (2, 0), (1, 0), (1, 1), (2, 0x1200)], false)
  | .capabilities => (record [(1, 0x12), (1, 0x61), (2, 0)] ++ spdmFree s 0 16, false)
  | .algorithms =>
    (record [(1, 0x12), (1, 0x63), (2, 0), (2, 36), (1, 1), (1, 0), (4, 4), (4, 0x80), (4, 2), (12, 0), (4, 0)], false)
  | .digests =>
    (record [(1, 0x12), (1, 0x01), (1, 0), (1, spdmSlots s)] ++
      ((List.range 2).filter (bit (spdmSlots s))).flatMap fun i => sha384 (spdmChain s i), false)
  | .certificate slot offset length =>
    let rest := (spdmChain s slot).drop offset
    let part := rest.take length
    (record [(1, 0x12), (1, 0x02), (1, slot), (1, 0), (2, part.length), (2, rest.length - part.length)] ++ part, false)
  | .challenge slot =>
    (record [(1, 0x12), (1, 0x03), (1, slot), (1, spdmSlots s)] ++ sha384 (spdmChain s slot) ++ spdmFree s 0 32 ++
      record [(2, 0)], true)
  | .measurements index signed =>
    let blocks := if index = 0xFF then (List.range 9).map (· + 1) else if index = 0 then [] else [index]
    let bytes := blocks.flatMap (spdmBlock s)
    (record [(1, 0x12), (1, 0x60), (1, if index = 0 then 9 else 0), (1, 0), (1, blocks.length), (3, bytes.length)] ++ bytes ++
      spdmFree s 0 32 ++ record [(2, 0)], signed)

/-- The ERROR response (R161; PRESUMED after SPDM 1.2, log entry 8): an invalid request, or one out of sequence. -/
def spdmError (s : State) (msg : List Byte) : List Byte :=
  record [(1, 0x12), (1, 0x7F), (1, if (spdmReq s msg).isSome then 4 else 1), (1, 0)]

/-- An SPDM request over DOE (R159, R161). -/
def spdmAnswer (msg : List Byte) (s : State) : State :=
  if ¬ s.link.up ∨ (s.fns[(0 : Fn)]).mode = .fencing then s
  else match spdmReq s msg, spdmNext s msg with
    | some r, some c =>
      let (bytes, signed) := spdmResponse s r
      let (sig, s) := if signed then signBytes (msg ++ bytes) s else ([], (draw s).2)
      emit (.spdm (bytes ++ sig)) { s with meas := { s.meas with spdm := c } }
    | _, _ => post 0x9101 wide wide (emit (.spdm (spdmError s msg)) s)

/-- SPDM_REQUEST (R159). -/
def execSpdmRequest (dt : Nat) (msg : List Byte) (s : State) : Answer := .next (spdmAnswer msg (advance dt s))

/-- The compact report is signed (R160, R175). -/
def compactReady (s : State) : State :=
  match s.meas.compact with
  | .pending nonce =>
    let body := padTo 16 (nonce.take 16) ++ record [(4, s.start.number.toNat), (4, s.meas.count.toNat), (1, s.start.major),
      (1, s.start.minor), (1, s.start.runningSlot), (1, measIndex s)] ++ sha384 s.meas.slots.toList.flatten
    let (sig, s) := signBytes body s
    { s with meas := { s.meas with compact := .ready (body ++ sig) } }
  | _ => s

/-- COMPACT_REPORT_READY (R175). -/
def execCompactReportReady (dt : Nat) (s : State) : Answer := .next (compactReady (advance dt s))

end Sys2Proof.Machine
end

