-- ==== Sys2Proof/Machine/GuardOps.lean ====
section
/-! DEFINITION. The display guardian: expected state, latches, looks, painting, verdicts, input loss, the TSL's judgment
and chimes (R163 to R204). -/

namespace Sys2Proof.Machine

/-- Change the guardian, a path, the TSL. -/
def State.modGuard (s : State) (g : Guard → Guard) : State := { s with guard := g s.guard }
def State.modPath (s : State) (p : Fin 2) (f : GPath → GPath) : State :=
  s.modGuard fun g => { g with paths := vmod g.paths p f }
def State.modTsl (s : State) (f : Tsl → Tsl) : State := s.modGuard fun g => { g with tsl := f g.tsl }

/-- The record that ST05 is about to put in force: that of the copy it reads, or else of the other (R135, R140). -/
def comingRecord (s : State) : Option Outing :=
  let route := match stepRunning s 5 noInst with
    | some (r, _) => r
    | none => if usesAlternate s 5 noInst then 1 else 0
  decodeOuting s.mram.copies[copyOf s route] <|>
    (if routeFailed s 5 noInst (1 - route) then none else decodeOuting s.mram.copies[copyOf s (1 - route)])

/-- The guardian owner (R19, R21): until ST05 has ended, the one that the start's record names. -/
def guardOwner (s : State) : Fn :=
  if stepEnded s (5, noInst) then s.start.outing.guardianOwner else ((comingRecord s).map Outing.guardianOwner).getD 0

/-- The switch is open (R163). -/
def GPath.opened (p : GPath) : Bool := p.mode != .bypass && p.mode != .held

/-- The SoC's stream passes to the panel (R163). -/
def GPath.passes (p : GPath) : Bool := p.mode == .unchecked || p.mode == .checked || p.mode == .repair

/-! ### Expected state and latch -/

/-- The TSL as it stands. -/
def Guard.tslNow (g : Guard) : TslView := ⟨g.tsl.mode, g.tsl.validAlive, g.tsl.codes, g.tsl.reverse, g.settle⟩

/-- The TSL that a latch of this tick takes: a frame validated in the same clock applies from the next frame (R177). -/
def tslView (s : State) : TslView :=
  let t := s.guard.tsl
  if t.mode = .live ∧ t.lastAt = s.elapsed then t.before else s.guard.tslNow

/-- The expected state in use (R25, R176). -/
def expectedState (g : Guard) (v : TslView) : BitVec 128 :=
  match v.mode with
  | .none => g.powerOn
  | .live | .stale => v.codes
  | .lost => g.lossSet

/-- Reverse in use (R25, R176). -/
def TslView.reverseInUse (v : TslView) : Bool := v.mode != .none && v.reverse

/-- A tell-tale's code (R172). -/
def codeOfTell (codes : BitVec 128) (n : Nat) : Nat := codes.toNat / 4 ^ n % 4

/-- A latch (R177); a waiting configuration applies first (R207). -/
def takeLatch (s : State) : Latch × State :=
  let s := s.modGuard fun g => { g with cfg := g.nextCfg.getD g.cfg, nextCfg := none }
  let v := tslView s
  let settling := (allFin 64).foldl (fun (m : BitVec 64) n =>
    match v.settle[n] with
    | some d => if s.elapsed < d then m ||| BitVec.ofNat 64 (2 ^ n.val) else m
    | none => m) 0
  (⟨expectedState s.guard v, v.reverseInUse, if v.mode = .none then 0 else v.validAlive, v.mode == .stale,
    v.mode == .lost || v.mode == .none, settling, s.elapsed⟩, s)

/-- The latch of an input frame (R177): its own where the SoC's stream passes, and the newest of the output otherwise. -/
def inputLatch (p : Fin 2) (s : State) : Latch × State :=
  let x := s.guard.paths[p]
  match x.passes, x.latch with
  | false, some l => (l, s)
  | _, _ => takeLatch s

/-- A region is judged in a frame (R181, R182; the settle window is taken at the latch, log entry 24). -/
def judgedIn (l : Latch) (r : Region) : Bool := codeOfTell l.codes r.telltale != 3 && !l.settling.getLsbD r.telltale

/-- BLINK's window opens at the latch that first finds BLINK (R181). -/
def Check.latched (c : Check) (l : Latch) (regions : List Region) : Check :=
  { c with opened := regions.foldl (fun v r => match fin? 32 r.region with
      | some n => v.set n (if codeOfTell l.codes r.telltale = 2 then some (v[n].getD l.at_) else none)
      | none => v) c.opened }

/-- The BLINK condition on the past (R181): an ON look, or the opening of the window, within blink_max_ms of the start. -/
def blinkSeen (g : Guard) (c : Check) (l : Latch) (n : Nat) : Bool :=
  match fin? 32 n with
  | none => false
  | some n =>
    [c.opened[n], c.lastOn[n]].any fun t => match t with
      | some t => decide (l.at_ ≤ t + ticksMs g.cfg.blinkMax)
      | none => false

/-! ### Pixels and looks -/

/-- The R, G and B of a reference word (R180). -/
def rgbOf (v : Word) : List Nat := [v.toNat / 2 ^ 20 % 1024, v.toNat / 2 ^ 10 % 1024, v.toNat % 1024]

/-- An 8-bit pixel widened (R167): its components stand in the low 8 bits of each field. -/
def widenPixel (bpc : Nat) (v : Word) : Word :=
  if bpc = 8 then
    match (rgbOf v).map fun c => c % 256 * 4 + c % 256 / 64 with
    | [r, g, b] => packed [(20, r), (10, g), (0, b)]
    | _ => v
  else v

/-- A pixel mismatches a look (R180); a pixel that has not arrived mismatches. -/
def pixelDiffers (tolerance : Nat) (ref : Word) (px : Option Word) : Bool :=
  ref.getLsbD 30 && (match px with
    | none => true
    | some v => ((rgbOf ref).zip (rgbOf v)).any fun x => decide (tolerance < max x.1 x.2 - min x.1 x.2))

/-- A region matches a look (R180). -/
def matchesLook (r : Region) (l : Option Look) (px : Nat → Option Word) : Bool :=
  match l with
  | none => false
  | some l => decide ((l.words.mapIdx fun i v => b2n (pixelDiffers r.tolerance v (px i))).sum ≤ r.maxMismatch)

/-- A region's look (R180): 2 ON, 1 OFF, 0 NO_MATCH. -/
def lookOf (refs : Vector (Option Look) 128) (r : Region) (px : Nat → Option Word) : Nat :=
  if matchesLook r (refAt refs r.onRef) px then 2 else if matchesLook r (refAt refs r.offRef) px then 1 else 0

/-- A judged region passes (R181). -/
def lookPasses (code look : Nat) (blink : Bool) : Bool :=
  match code with
  | 0 => look == 1
  | 1 => look == 2
  | 2 => (look == 1 || look == 2) && blink
  | _ => true

/-- The reference that a code draws (R189). -/
def drawnRef (r : Region) (code : Nat) (blinkOn : Bool) : Option Nat :=
  match code with
  | 0 => some r.offRef
  | 1 => some r.onRef
  | 2 => some (if blinkOn then r.onRef else r.offRef)
  | _ => none

/-- Regions in ascending order of their numbers (R189). -/
def ascending (regions : List Region) : List Region := (List.range 32).filterMap fun n => regions.find? fun r => r.region = n

/-- The care pixel that the drawn regions put at a place: they are drawn in ascending order, a higher one over a lower (R189,
R195). -/
def drawnAt (refs : Vector (Option Look) 128) (l : Latch) (blinkOn : Bool) (regions : List Region) (x y : Nat) :
    Option Word :=
  (ascending regions).foldl (fun px r =>
    if r.x ≤ x ∧ x < r.x + r.w ∧ r.y ≤ y ∧ y < r.y + r.h then
      match (drawnRef r (codeOfTell l.codes r.telltale) blinkOn).bind (refAt refs) with
      | some k => (match k.words[(y - r.y) * k.w + (x - r.x)]? with
        | some v => if v.getLsbD 30 then some v else px
        | none => px)
      | none => px
    else px) none

/-- The layout in use: the record's, or the built-in one (R194). -/
def GPath.layoutIn (p : GPath) (n : Nat) : Option Layout :=
  match p.builtIn, p.layout with
  | false, some l => some l
  | _, _ => parseLayout n (Config.builtInLayout n)

/-- The regions that a path's early picture draws (R195). -/
def GPath.earlySet (p : GPath) (n : Nat) : List Region :=
  match p.layoutIn n with
  | some l => earlyRegions p.refs l
  | none => []

/-- The pixel that the camera window puts at a place of the early picture (R195 to R197). -/
def windowPixel (g : Guard) (l : Layout) (w : Window) (x y : Nat) : Option Word :=
  if l.camX ≤ x ∧ x < l.camX + l.camW ∧ l.camY ≤ y ∧ y < l.camY + l.camH then
    match w with
    | .waiting c => some c
    | .camera b => some (Config.rearColour ((g.rearBuffers[b]).getD ((y - l.camY) * l.camW + (x - l.camX)) 0))
    | .background | .none => none
  else none

/-- A pixel of the early picture: the background, the camera window, and the items over them (R195). -/
def earlyPixel (g : Guard) (p : GPath) (n : Nat) (f : GFrame) (x y : Nat) : Option Word :=
  match drawnAt p.refs f.latch f.blinkOn (p.earlySet n) x y with
  | some v => some v
  | none => (p.layoutIn n).map fun l => (windowPixel g l f.window x y).getD l.background

/-- The pixel that leaves for the panel at place `i` of a region (R163, R189, R191, R195): what of a frame its lost input does
not give comes from the early picture, and in UNCHECKED is black. -/
def sentPixel (g : Guard) (p : GPath) (n : Nat) (f : GFrame) (r : Region) (i : Nat) : Option Word :=
  let x := r.x + i % max 1 r.w
  let y := r.y + i / max 1 r.w
  let drawn := if f.mode = .unchecked then some 0 else earlyPixel g p n f x y
  if f.own then drawn
  else
    let input := match f.pixels.lookup r.region with
      | some px => px[i]?
      | none => if f.complete then none else drawn
    if f.mode = .repair then drawnAt p.refs f.latch f.blinkOn f.regions x y <|> input else input

/-! ### Transitions -/

/-- The path leaves REPAIR (R190). -/
def leaveRepair (p : Fin 2) (s : State) : State :=
  if (s.guard.paths[p]).mode = .repair then post 0x4003 wide p s else s

/-- The panel link fails on every route: HELD (R164, R168, R206). -/
def holdPath (p : Fin 2) (s : State) : State :=
  if (s.guard.paths[p]).opened then
    post 0x4120 wide p ((leaveRepair p s).modPath p fun x => { x with
      mode := .held, bypass := true, trained := false, retraining := false, showing := false, input := none, outs := []
      psr := false, boundary := false, stream := none, timing := none, hpdLow := none })
  else s

/-- ST08 or ST09 begins: the switch opens and the path enters EARLY (R164, R168, R169). -/
def openPath (p : Fin 2) (s : State) : State :=
  if (s.guard.paths[p]).mode = .bypass then
    emit (.hpd p 2000) (s.modPath p fun x => { x with
      mode := .early, bypass := false, hpdLow := some s.elapsed, startAt := s.elapsed })
  else s

/-- The panel link is up. -/
def panelTrained (p : Fin 2) (s : State) : State :=
  s.modPath p fun x => { x with trained := true, retraining := false, deferFrom := none, deferOver := false }

/-- The newest window buffer suits the window: its rear picture is accepted, not stale, at least as large as the window and at
most four times as large in each axis (R197). -/
def rearShown (s : State) (l : Layout) : Option Rear :=
  s.guard.rear.filter fun r => !s.guard.rearBad && !since s (some r.at_) (ticksMs s.guard.cfg.cameraStale) &&
    decide (l.camW ≤ r.w) && decide (l.camH ≤ r.h) && decide (r.w ≤ 4 * l.camW) && decide (r.h ≤ 4 * l.camH)

/-- What the camera window of a path's early picture shows in a frame that starts now (R196, R197). -/
def windowOf (s : State) (p : Fin 2) (l : Latch) : Window :=
  match (s.guard.paths[p]).layoutIn p with
  | none => .none
  | some k =>
    if k.camW = 0 then .none
    else if ¬ l.reverse then .background
    else match rearShown s k with
      | some r => .camera r.buffer
      | none => .waiting s.guard.waiting

/-- PSR ends at the panel (Edges of R165): the source sent no frames until now (R184). -/
def psrEnds (p : Fin 2) (s : State) : State :=
  if (s.guard.paths[p]).psr then
    emit (.panelPsr p false) (s.modPath p fun x => { x with psr := false, gapOwed := true })
  else s

/-- The frame being received leaves as far as it has come (R191): its remaining lines are the generator's. -/
def GPath.cutInput (x : GPath) (w : Window) : GPath :=
  { x with
    outs := match x.input with
      | some f => if x.passes ∧ x.trained then x.outs ++ [{ f with complete := false, window := w }] else x.outs
      | none => x.outs
    input := none, stream := none, mismatchLogged := false }

/-- The window that the rest of a cut frame shows. -/
def cutWindow (p : Fin 2) (s : State) : Window :=
  match (s.guard.paths[p]).input with
  | some f => windowOf s p f.latch
  | none => .none

/-- The path enters EARLY from a state that showed, or was about to show, the SoC's stream: the generator takes over (R164,
R191). -/
def enterEarly (p : Fin 2) (s : State) : State :=
  let w := cutWindow p s
  (psrEnds p (leaveRepair p s)).modPath p fun x => { x.cutInput w with
    mode := .early, good := 0, boundary := false, paintFrom := none, showing := true, outCheck := Check.reset }

/-- Input loss (R191, R206). -/
def inputLost (p : Fin 2) (s : State) : State :=
  let x := s.guard.paths[p]
  if x.mode = .trial ∨ x.mode = .checked ∨ x.mode = .repair then
    publish (0x65 + p) (hold s (now s)) 0 (post 0x4005 wide p (enterEarly p s))
  else (psrEnds p s).modPath p fun x => x.cutInput .none

/-- A SoC region set is in force whose references are all loaded (R164). -/
def GPath.checkable (p : GPath) : Bool :=
  !p.set.regions.isEmpty && p.set.regions.all fun r => (refAt p.refs r.onRef).isSome && (refAt p.refs r.offRef).isSome

/-- A frame boundary: loads apply, and the state changes that wait for it (R164, R199, R207). `soc` is a boundary of the
SoC's stream. -/
def frameBoundary (p : Fin 2) (soc : Bool) (s : State) : State :=
  let s := s.modPath p fun (x : GPath) =>
    let x : GPath := { x with
      refs := x.nextRefs.foldl (fun (v : Vector (Option Look) 128) l => match fin? 128 l.1 with
        | some i => v.set i (some l.2)
        | none => v) x.refs
      nextRefs := [] }
    match x.nextSet with
    | some n => { x with
        set := n, nextSet := none, inCheck := Check.reset
        outCheck := if x.passes then Check.reset else x.outCheck
        good := if x.mode = .repair ∨ x.mode = .trial then 0 else x.good
        boundary := x.boundary && x.mode != .repair && x.mode != .trial }
    | none => x
  let x := s.guard.paths[p]
  let toChecked (s : State) : State := s.modPath p fun x => { x with
    mode := .checked, good := 0, boundary := false, paintFrom := none, outCheck := Check.reset
    startAt := s.elapsed, gapOwed := x.gapOwed || !soc }
  if x.mode = .unchecked ∧ x.checkable then toChecked s
  else if soc ∧ x.boundary ∧ x.mode = .trial then post 0x4004 wide p ((toChecked s).modPath p fun x => { x with handed := true })
  else if soc ∧ x.boundary ∧ x.mode = .repair then
    post 0x4003 wide p (s.modPath p fun x => { x with mode := .checked, good := 0, boundary := false, paintFrom := none })
  else s

/-- BLINK draws on_ref in a frame that starts at a tick (R189). -/
def blinkPhase (g : Guard) (from_ at_ : Nat) : Bool := (at_ - from_) / max 1 (ticksMs g.cfg.blinkPeriod / 2) % 2 == 0

/-! ### Frames -/

/-- The attributes lie within R165. -/
def msaInSubset (m : Msa) : Bool :=
  decide (m.hActive ≤ 3840) && decide (m.vActive ≤ 1440) && (m.bpc == 8 || m.bpc == 10) && m.rgb && decide (m.hz ≤ 361000000) &&
    decide (m.hz ≤ 60 * (m.hTotal * m.vTotal))

/-- The active size and colour depth, whose change is an input loss (R191). -/
def msaSize (m : Msa) : Nat × Nat × Nat := (m.hActive, m.vActive, m.bpc)

/-- The frame period in ticks. -/
def msaTicks (m : Msa) : Nat := m.hTotal * m.vTotal * 200000000 / max 1 m.hz

/-- The output runs on a timing and sends its attributes (R165, R167, R199). -/
def takeTiming (p : Fin 2) (m : Msa) (s : State) : State :=
  if (s.guard.paths[p]).timing = some m then s
  else emit (.panelTiming p m) (s.modPath p fun x => { x with timing := some m })

/-- A SoC input frame starts (R164, R165, R177, R191, R199). -/
def inputStarts (p : Fin 2) (m : Msa) (s : State) : State :=
  if ¬ (s.guard.paths[p]).opened then s
  else if ¬ msaInSubset m then inputLost p (post 0x4112 wide p s)
  else
    let x := s.guard.paths[p]
    let s := psrEnds p (if x.stream.any fun o => msaSize o != msaSize m then inputLost p s else s)
    let s := s.modPath p fun x => { x with
      stream := some m, startAt := s.elapsed
      mode := if x.mode = .early ∧ x.showing then .trial else x.mode
      good := if x.mode = .early then 0 else x.good }
    let s := frameBoundary p true s
    let s := if (s.guard.paths[p]).passes ∧ (s.guard.paths[p]).trained then takeTiming p m s else s
    let (l, s) := inputLatch p s
    s.modPath p fun x =>
      let regions := x.set.regions
      let from_ := x.paintFrom.getD l.at_
      { x with
        input := some ⟨false, x.mode, l, regions, x.set.id, .none, none, [], 0, 0, blinkPhase s.guard from_ l.at_, m.vActive, true⟩
        inCheck := x.inCheck.latched l regions
        outCheck := if x.passes then x.outCheck.latched l regions else x.outCheck
        latch := if x.passes then some l else x.latch
        paintFrom := if x.mode = .repair then some from_ else x.paintFrom }

/-- A region's input result (R181, R183, R190). -/
def inputResult (p : Fin 2) (n : Fin 32) (pixels : List Word) (s : State) : State :=
  let x := s.guard.paths[p]
  match x.input with
  | none => s
  | some f =>
    match f.regions.find? fun r => r.region = n.val with
    | none => s
    | some r =>
      let bpc := (x.stream.map Msa.bpc).getD 10
      let px := (pixels.take (r.w * r.h)).map (widenPixel bpc)
      let look := lookOf x.refs r fun i => px[i]?
      let judged := f.mode != .unchecked && judgedIn f.latch r
      let fails := judged && !lookPasses (codeOfTell f.latch.codes r.telltale) look (blinkSeen s.guard x.inCheck f.latch n)
      let b := BitVec.ofNat 32 (2 ^ n.val)
      let s := s.modPath p fun x => { x with
        inCheck := if look = 2 then { x.inCheck with lastOn := x.inCheck.lastOn.set n (some s.elapsed) } else x.inCheck
        input := some { f with
          pixels := f.pixels ++ [(n.val, px)]
          judgedIn := if judged then f.judgedIn ||| b else f.judgedIn
          failedIn := if fails then f.failedIn ||| b else f.failedIn } }
      if fails ∧ x.mode = .checked then
        publish (0x60 + p) (hold s (now s)) 0 (post 0x4001 wide p (s.modPath p fun x => { x with
          mode := .repair, good := 0, boundary := false, paintFrom := none }))
      else s

/-- The size and depth that a good frame has (R198). -/
def GPath.wanted (p : GPath) (n : Nat) : Option (Nat × Nat × Nat) :=
  (p.layoutIn n).map fun l => msaSize l.msa

/-- A SoC input frame ends (R198, R206). -/
def inputEnds (p : Fin 2) (complete symbolErrors : Bool) (s : State) : State :=
  let x := s.guard.paths[p]
  match x.input with
  | none => s
  | some f =>
    let s := if symbolErrors then post 0x4111 wide p s else s
    let s := if complete then s else post 0x4114 wide p s
    let sized := x.wanted p == x.stream.map msaSize && x.stream.isSome
    let all := f.regions.all fun r =>
      !judgedIn f.latch r || (f.judgedIn.getLsbD r.region && !f.failedIn.getLsbD r.region)
    let good := complete && !symbolErrors && sized && all
    let s := if x.mode = .trial ∧ ¬ sized ∧ ¬ x.mismatchLogged then
        post 0x4113 wide p (s.modPath p fun x => { x with mismatchLogged := true })
      else s
    let count := if good then min 3 (x.good + 1) else 0
    s.modPath p fun x => { x with
      input := none
      outs := if x.trained ∧ (f.mode = .unchecked ∨ f.mode = .checked ∨ f.mode = .repair) then
          x.outs ++ [{ f with complete := complete }] else x.outs
      good := if x.mode = .trial ∨ x.mode = .repair then count else x.good
      boundary := (x.mode == .trial || x.mode == .repair) && count == 3 }

/-- The source sends frames on its own timing (R163, R167). -/
def GPath.sendsOwn (p : GPath) : Bool :=
  p.opened && p.trained && !p.retraining && !p.psr && (match p.mode with
    | .early | .trial => p.showing
    | .unchecked => p.stream.isNone
    | _ => false)

/-- An output frame starts (R164, R177, R195). Where the SoC's stream passes, the start is that of its output. -/
def outputStarts (p : Fin 2) (s : State) : State :=
  let x := s.guard.paths[p]
  if x.sendsOwn then
    let s := frameBoundary p false s
    if (s.guard.paths[p]).mode = .checked then s
    else
      let x := s.guard.paths[p]
      let s := match x.timing, x.layoutIn p with
        | none, some k => takeTiming p k.msa s
        | _, _ => s
      let (l, s) := takeLatch s
      let h := hold s (now s)
      s.modPath p fun x =>
        let early := x.mode != .unchecked
        let regions := if early then x.earlySet p else x.set.regions
        let from_ := x.paintFrom.getD l.at_
        let lines := (x.timing.map Msa.vActive).getD 0
        { x with
          outs := x.outs ++ [⟨true, x.mode, l, regions, x.set.id, if early then windowOf s p l else .none, some h, [], 0, 0,
            blinkPhase s.guard from_ l.at_, lines, true⟩]
          outCheck := x.outCheck.latched l regions
          latch := some l
          paintFrom := if early then some from_ else x.paintFrom }
  else
    s.modPath p fun x => { x with input := x.input.map fun f =>
      if x.passes ∧ f.sof = none then { f with sof := some (hold s (now s)) } else f }

/-! ### Verdicts -/

/-- A path writes verdicts (R202). -/
def GPath.writes (p : GPath) : Bool := p.sendsOwn || (p.passes && p.trained && !p.retraining && p.stream.isSome) || p.psr

/-- What a verdict says of a frame beyond its regions (R184). -/
structure VerdictKind where
  mode : PathMode
  early : Bool
  painted : Bool
  repeat_ : Bool
  deriving DecidableEq, Repr

/-- Two bits per region (R184). -/
def pairBits (default : Nat) (l : List (Nat × Nat)) : Nat :=
  ((List.range 32).map fun n => ((l.lookup n).getD default) * 4 ^ n).sum

/-- Bits of regions. -/
def regionBits (l : List Nat) : Nat := l.foldl (fun m n => m ||| 2 ^ n) 0

/-- h of a path, from its initial value (R185). -/
def chainOf (s : State) (p : Fin 2) : List Byte :=
  let c := (s.guard.paths[p]).chain
  if c.isEmpty then sha384 (record [(8, s.start.ident.serial.toNat), (4, s.start.number.toNat), (1, p), (3, 0)]) else c

/-- A record goes to the route, or is counted (R188). -/
def routeRecord (p : Fin 2) (digest : Bool) (place : Nat) (bytes : List Byte) (e : TqEntry) (s : State) : State :=
  match (s.guard.paths[p]).route with
  | some r =>
    let fn := guardOwner s
    let mill := if digest then r.digestMill else r.mill
    let addr := if digest then r.digestAddr + 256 * (place % r.digestSlots) else r.addr + 64 * (place % r.slots)
    if mill || (s.fns[fn]).busMaster then putEntry r.queue e (deliver fn mill addr bytes s)
    else if digest then putEntry r.queue e s
    else putEntry r.queue e (s.modPath p fun x => { x with undelivered := x.undelivered + 1 })
  | none => if digest then s else s.modPath p fun x => { x with undelivered := x.undelivered + 1 }

/-- The chime result that a verdict of a path carries (R202). -/
def dueChime (s : State) (p : Fin 2) (sof : Held) : Option ChimeResult :=
  match s.guard.chimes with
  | c :: _ =>
    if timeOf s c.at_ < timeOf s sof ∧ (p = 0 ∨ ¬ (s.guard.paths[(0 : Fin 2)]).writes) then some c else none
  | [] => none

/-- The carried result leaves the queue and keeps its carrier's sequence (R202, R207). -/
def carryChime (c : Option ChimeResult) (seq : Word) (s : State) : State :=
  match c with
  | none => s
  | some c => s.modGuard fun g => { g with
      chimes := g.chimes.tail, results := g.results.map fun r => if r = c then { r with seq := seq } else r }

/-- A verdict is written, chained, stored and routed (R184 to R188). `expected` and `looks` are by region number. -/
def writeVerdict (p : Fin 2) (k : VerdictKind) (l : Latch) (sof : Held) (id : Word) (lines : Nat)
    (judged outFail inFail : List Nat) (expected looks : List (Nat × Nat)) (s : State) : State :=
  let x := s.guard.paths[p]
  let chime := dueChime s p sof
  let t := (release s sof).1
  let flags := b2n (!outFail.isEmpty) + 2 * b2n (!inFail.isEmpty) + 4 * b2n k.painted + 8 * b2n k.repeat_ +
    16 * b2n l.stale + 32 * b2n l.lost + 64 * b2n x.gapOwed + 128 * b2n k.early
  let body := record [(1, 1), (1, p), (1, k.mode.code), (1, measIndex s), (4, x.nextSeq.toNat), (8, stampNs t),
    (1, stampFrac t), (1, flags), (1, l.alive), (1, (chime.map ChimeResult.template).getD 0xFF), (4, regionBits judged),
    (4, regionBits outFail), (4, regionBits inFail), (8, pairBits 3 expected), (8, pairBits 3 looks), (4, id.toNat),
    (2, lines), (1, (chime.map ChimeResult.result).getD 0), (1, (chime.map ChimeResult.distance).getD 0)]
  let h := chainOf s p
  let bytes := body ++ h.take 8
  let h1 := sha384 (h ++ body)
  let seq := x.nextSeq
  let s := carryChime chime seq s
  let s := s.modPath p fun x => { x with
    nextSeq := seq + 1, newestSeq := seq, newestFail := BitVec.ofNat 32 (regionBits outFail), gapOwed := false
    failFrames := if outFail.isEmpty then x.failFrames else x.failFrames + 1
    paintedFrames := if k.painted then x.paintedFrames + 1 else x.paintedFrames
    chain := h1, verdicts := (bytes :: x.verdicts).take 4096
    owedDigests := if seq.toNat % 64 = 63 then
        x.owedDigests ++ [⟨seq.toNat / 64, measIndex s, BitVec.ofNat 64 (stampNs t), h1⟩] else x.owedDigests }
  let status := if outFail.isEmpty && inFail.isEmpty then stOk else stPartnerFault
  let s := routeRecord p false seq.toNat bytes ⟨kVerdict, p, seq, status, 0, BitVec.ofNat 32 (regionBits outFail)⟩ s
  if outFail.isEmpty then s else publish (0x62 + p) (hold s (now s)) 0 s

/-- The picture that a frame shows (R163, R195). -/
def pictureOf (f : GFrame) : Picture :=
  if ¬ f.own then (if f.mode = .repair then .painted else .soc)
  else if f.mode = .unchecked then .black
  else .early f.window

/-- The errors of the guardian's reads of Millpond (R399): data that the code could not correct is used as read, so that what it
shows is free. -/
def guardReads (p : Fin 2) (ecc : MemErrors) (s : State) : Nat × State :=
  let s := correctedReads .millpond ecc.corrected s
  if ecc.uncorrectable.isSome then draw (post 0x6106 wide p (millUncorrectable s)) else (0, s)

/-- An output frame ends (R183, R184, R192). `seen` gives the pixels of regions that the output check saw other than as
the part composed them, and `ecc` the region whose reference the guardian read wrong, if any. -/
def outputEnds (p : Fin 2) (seen : List (Fin 32 × List Word)) (ecc : MemErrors) (s : State) : State :=
  let x := s.guard.paths[p]
  match x.outs with
  | [] => s
  | f :: rest =>
    let s := s.modPath p fun x => { x with outs := rest }
    let judging := f.mode != .unchecked
    let px (r : Region) (i : Nat) : Option Word :=
      match seen.find? fun e => e.1.val = r.region with
      | some e => e.2[i]?
      | none => sentPixel s.guard x p f r i
    let (v, s) := guardReads p ecc s
    let looks := f.regions.map fun r => (r.region, if ecc.uncorrectable = some r.region then v % 3 else lookOf x.refs r (px r))
    let judged := f.regions.filter fun r => judging && judgedIn f.latch r
    let fails := judged.filter fun r => !lookPasses (codeOfTell f.latch.codes r.telltale)
      ((looks.lookup r.region).getD 0) (blinkSeen s.guard x.outCheck f.latch r.region)
    let outFail := fails.map Region.region
    let inFail := if f.own then [] else (f.regions.map Region.region).filter fun n => f.failedIn.getLsbD n
    let expected := judged.map fun r => (r.region, codeOfTell f.latch.codes r.telltale)
    let painted := f.mode == .repair && f.regions.any fun r => codeOfTell f.latch.codes r.telltale != 3
    let passedIn := !f.own && inFail.isEmpty && judged.all fun r => f.judgedIn.getLsbD r.region
    let lastOn := looks.foldl (fun (v : Vector (Option Nat) 32) k => match fin? 32 k.1 with
      | some n => if k.2 = 2 then v.set n (some s.elapsed) else v
      | none => v) x.outCheck.lastOn
    let s := s.modPath p fun x => { x with lastLooks := looks, outCheck := { x.outCheck with lastOn := lastOn } }
    let s := if outFail.isEmpty || !(painted || passedIn) then s else post 0x4002 wide p s
    let (sof, s) := match f.sof with
      | some h => (h, s)
      | none =>
        let (v, s) := draw s
        (hold s (BitVec.ofNat 72 v), s)
    let s := emit (.panelFrame p (pictureOf f)) s
    writeVerdict p ⟨f.mode, f.own && judging, painted, false⟩ f.latch sof f.regionsId f.lines (judged.map Region.region)
      outFail inFail expected looks s

/-- A frame period passes in PSR (Edges of R165): a repeat's verdict, or the forced exit before one that would fail. -/
def psrRepeats (p : Fin 2) (s : State) : State :=
  let x := s.guard.paths[p]
  if ¬ (x.psr ∧ x.passes) then s
  else
    let (l, s) := takeLatch s
    let x := s.guard.paths[p]
    let regions := x.set.regions
    let check := x.outCheck.latched l regions
    let judged := regions.filter fun r => x.mode != .unchecked && judgedIn l r
    let fails := judged.filter fun r => !lookPasses (codeOfTell l.codes r.telltale)
      ((x.lastLooks.lookup r.region).getD 0) (blinkSeen s.guard check l r.region)
    if fails.isEmpty then
      let s := s.modPath p fun x => { x with outCheck := check, latch := some l }
      let expected := judged.map fun r => (r.region, codeOfTell l.codes r.telltale)
      let lines := (x.stream.map Msa.vActive).getD 0
      writeVerdict p ⟨x.mode, false, false, true⟩ l (hold s (now s)) x.set.id lines (judged.map Region.region) [] [] expected
        (regions.map fun r => (r.region, (x.lastLooks.lookup r.region).getD 0)) s
    else if x.mode = .unchecked then s
    else post 0x4013 wide p (enterEarly p s)

/-! ### Chimes -/

/-- A template's window ends with a result (R201). -/
def decideChime (t : Fin 16) (result distance : Nat) (s : State) : State :=
  let c : ChimeResult := ⟨t, result, distance, 0, hold s (now s)⟩
  s.modGuard fun g => { g with
    windows := g.windows.set t none, chimes := g.chimes ++ [c], results := (c :: g.results).take 8
    heard := if result = 1 then g.heard + 1 else g.heard, missed := if result = 2 then g.missed + 1 else g.missed }

/-- The sum of differences of a template against the newest hops, when each of the L hops has its record and its level
(R201). -/
def chimeSum (t : Template) (past : List (List AudRecord)) : Option Int :=
  let hops := (past.take t.hops).reverse.filterMap fun h => h.find? fun r => r.slot = t.slot
  if hops.length = t.hops ∧ hops.all fun r => decide (t.minRms ≤ r.rms) then
    some ((hops.zip t.values).map fun (r, v) =>
      ((List.range 40).map fun b => if t.mask.getLsbD b then |r.bands.getD b 0 - v.getD b 0| else 0).sum).sum
  else none

/-- A hop of an audio input reaches the open windows, the lower template first (R201). -/
def chimeHop (input : Fin 2) (s : State) : State :=
  (allFin 16).foldl (fun s t =>
    match s.guard.windows[t], s.guard.templates[t] with
    | some d, some k =>
      if k.input = input.val ∧ s.elapsed ≤ d then
        let n : Int := k.hops * ((List.range 40).filter k.mask.getLsbD).length
        match chimeSum k (s.audio[input]).past with
        | some sum =>
          if sum ≤ k.threshold * n then decideChime t 1 (min 255 (roundTie sum (16 * n)).toNat) s else s
        | none => s
      else s
    | _, _ => s) s

/-! ### The tell-tale state link -/

/-- The reply shifted out in a transaction (R174). -/
def tslReply (s : State) : List Byte :=
  let g := s.guard
  let rep : Option (List Byte) := match s.meas.compact with
    | .ready b => some b
    | _ => none
  let chunk := g.tsl.chunk.bind fun i => rep.map fun b => (i, padTo 16 (slice b (16 * i) 16))
  let a := g.paths[(0 : Fin 2)]
  let b := g.paths[(1 : Fin 2)]
  let report := match s.meas.compact with
    | .none => 0
    | .pending _ => 1
    | .ready _ => 2
  let body := record [(1, 0x5A), (1, if chunk.isSome then 0x83 else 0x81), (1, g.tsl.validAlive),
      (1, a.mode.code + 8 * b.mode.code + 64 * b2n g.tslNow.reverseInUse), (4, a.newestFail.toNat), (4, b.newestFail.toNat),
      (4, a.newestSeq.toNat), (4, b.newestSeq.toNat)] ++ ((chunk.map Prod.snd).getD (List.replicate 16 0)) ++
    record [(1, (chunk.map Prod.fst).getD 0), (1, report), (1, measIndex s)]
  body ++ leBytes 1 (crc8 body)

/-- A frame is discarded with an event (R173). -/
def tslDiscard (code : Nat) (s : State) : State :=
  post code wide wide (s.modTsl fun t => { t with bad := t.bad + 1 })

/-- A code is lit: ON or BLINK (R201, R324). -/
def litCode (c : Nat) : Bool := c == 1 || c == 2

/-- A valid frame (R171, R175, R176, R182, R201, R324). -/
def tslValid (bytes : List Byte) (s : State) : State :=
  let g := s.guard
  let stamp := hold s (now s)
  let fresh := g.tsl.mode == .none
  let old := if fresh then g.powerOn else g.tsl.codes
  let new := BitVec.ofNat 128 (fld bytes 4 16)
  let kind := fld bytes 1 1
  let reverse := bit (fld bytes 3 1) 0
  let was := !fresh && g.tsl.reverse
  let changed (n : Nat) : Bool := codeOfTell old n != codeOfTell new n
  let rises (n : Nat) : Bool := !litCode (codeOfTell old n) && litCode (codeOfTell new n)
  let s := s.modTsl fun t => { t with
    before := if t.mode = .live ∧ t.lastAt = s.elapsed then t.before else g.tslNow
    mode := .live, validAlive := fld bytes 2 1, codes := new, reverse := reverse, lastAt := s.elapsed
    valid := t.valid + 1, chunk := if kind = 3 then some (fld bytes 0x14 1) else none }
  let s := s.modGuard fun g => { g with
    settle := Vector.ofFn fun n => if changed n.val then some (s.elapsed + ticksMs g.cfg.settle) else g.settle[n]
    windows := Vector.ofFn fun t => match g.windows[t], g.templates[t] with
      | none, some k => if rises k.telltale then some (s.elapsed + ticksMs k.windowMs) else none
      | w, _ => w }
  let s := if kind = 2 then { s with meas := { s.meas with compact := .pending (slice bytes 0x14 16) } } else s
  let lit := (allFin 64).foldl (fun (m : BitVec 64) n => if rises n.val then m ||| BitVec.ofNat 64 (2 ^ n.val) else m) 0
  let s := publishTelltale lit stamp s
  if reverse ∧ ¬ was then publish 0x41 stamp 0 s else s

/-- A frame ends at TSL_CSN rising (R173, R174); the guardian's service time is free within 1 ms (R113). -/
def tslFrameEnds (bytes : List Byte) (s : State) : State :=
  if ¬ (s.guard.tsl.on ∧ mainRuns s) then s
  else
    let s := emit (.tsl (tslReply s)) s
    let alive := fld bytes 2 1
    let kind := fld bytes 1 1
    let auxBad := match kind with
      | 1 => !zeros bytes 0x14 16
      | 2 => false
      | _ => decide (10 < fld bytes 0x14 1) || !zeros bytes 0x15 15
    let busy := s.guard.tsl.busy.filter fun t => s.elapsed < t
    if bytes.length ≠ 40 ∨ fld bytes 0 1 ≠ 0xA5 then tslDiscard 0x4102 s
    else if crc8 (bytes.take 39) ≠ fld bytes 39 1 then tslDiscard 0x4101 s
    else if kind = 0 || decide (3 < kind) || fld bytes 3 1 / 2 != 0 || !zeros bytes 0x24 3 || auxBad then
      tslDiscard 0x4102 s
    else if 2 ≤ busy.length then tslDiscard 0x4103 s
    else
      let (v, s) := draw s
      let done := max s.elapsed (busy.getLastD 0) + 1 + v % 200000
      let s := s.modTsl fun t => { t with busy := busy ++ [done] }
      match s.guard.tsl.alive with
      | none => tslValid bytes (s.modTsl fun t => { t with alive := some alive })
      | some last =>
        let delta := (alive + 256 - last) % 256
        if delta = 0 then tslDiscard 0x4105 s
        else if 16 ≤ delta then tslDiscard 0x4106 (s.modTsl fun t => { t with alive := some alive })
        else
          let s := s.modTsl fun t => { t with alive := some alive }
          tslValid bytes (if 1 < delta then post 0x4104 wide wide s else s)

end Sys2Proof.Machine
end

