-- ==== Sys2Proof/Machine/GuardCmds.lean ====
section
/-! DEFINITION. Meanings of the display guardian (R163 to R207). -/

namespace Sys2Proof.Machine

/-! ### The tell-tale state link -/

/-- TSL_FRAME (R173). -/
def execTslFrame (dt : Nat) (bytes : List Byte) (s : State) : Answer := .next (tslFrameEnds bytes (advance dt s))

/-- tsl_timeout_ms has passed without a valid frame (R176, R206); before the first frame the state stays NONE. -/
def tslStale (s : State) : State :=
  let t := s.guard.tsl
  if ¬ (t.on ∧ mainRuns s ∧ since s (some t.lastAt) (ticksMs s.guard.cfg.tslTimeout)) then s
  else match t.mode with
    | .live => post 0x4107 wide wide (s.modTsl fun t => { t with mode := .stale })
    | .none => if t.silenceLogged then s else post 0x4107 wide wide (s.modTsl fun t => { t with silenceLogged := true })
    | _ => s

/-- TSL_STALE_TIMEOUT (R176). -/
def execTslStaleTimeout (dt : Nat) (s : State) : Answer := .next (tslStale (advance dt s))

/-- tsl_loss_ms has passed without a valid frame (R176, R182): the loss set comes into use. -/
def tslLoss (s : State) : State :=
  let t := s.guard.tsl
  if t.on ∧ mainRuns s ∧ since s (some t.lastAt) (ticksMs s.guard.cfg.tslLoss) then
    match t.mode with
    | .live | .stale => post 0x4108 wide wide (s.modTsl fun t => { t with mode := .lost })
    | _ => s
  else s

/-- TSL_LOSS_TIMEOUT (R176). -/
def execTslLossTimeout (dt : Nat) (s : State) : Answer := .next (tslLoss (advance dt s))

/-! ### Frames -/

/-- INPUT_FRAME_START (R177). -/
def execInputFrameStart (dt : Nat) (p : Fin 2) (m : Msa) (s : State) : Answer :=
  .next (inputStarts p m (advance dt s))

/-- INPUT_REGION_RESULT (R190). -/
def execInputRegionResult (dt : Nat) (p : Fin 2) (n : Fin 32) (pixels : List Word) (s : State) : Answer :=
  .next (inputResult p n pixels (advance dt s))

/-- INPUT_FRAME_END (R198). -/
def execInputFrameEnd (dt : Nat) (p : Fin 2) (complete symbolErrors : Bool) (s : State) : Answer :=
  .next (inputEnds p complete symbolErrors (advance dt s))

/-- OUTPUT_FRAME_START (R195). -/
def execOutputFrameStart (dt : Nat) (p : Fin 2) (s : State) : Answer := .next (outputStarts p (advance dt s))

/-- OUTPUT_FRAME_END (R184). -/
def execOutputFrameEnd (dt : Nat) (p : Fin 2) (seen : List (Fin 32 × List Word)) (ecc : MemErrors) (s : State) : Answer :=
  .next (outputEnds p seen ecc (advance dt s))

/-- Valtyn signs a path's oldest unsigned digest, stores and routes it (R186 to R188). -/
def digestSigns (p : Fin 2) (s : State) : State :=
  match (s.guard.paths[p]).owedDigests with
  | [] => s
  | d :: rest =>
    if s.start.core ≠ .valtyn ∨ s.start.doorClosed then s
    else
      let body := record [(2, 1), (1, p), (1, d.meas), (4, s.start.number.toNat), (4, 64 * d.k), (4, 64 * d.k + 63),
        (8, d.timeNs.toNat), (8, s.start.ident.serial.toNat)] ++ d.chain
      let (sig, s) := signBytes body s
      let bytes := body ++ sig
      let s := s.modPath p fun x => { x with
        owedDigests := rest, digests := ((d.k, bytes) :: x.digests).take 64, signed := x.signed + 1 }
      routeRecord p true d.k bytes ⟨kVerdict, p, BitVec.ofNat 32 (64 * d.k + 63), stOk, fLast, BitVec.ofNat 32 d.k⟩ s

/-- DIGEST_SIGNED (R186). -/
def execDigestSigned (dt : Nat) (p : Fin 2) (s : State) : Answer := .next (digestSigns p (advance dt s))

/-- The sink loses its input (R191, R206). -/
def sinkLoses (p : Fin 2) (cause : LossCause) (s : State) : State :=
  if ¬ (s.guard.paths[p]).opened then s
  else inputLost p (match cause with
    | .lock => post 0x4110 wide p s
    | .msa => post 0x4112 wide p s
    | .change => s)

/-- INPUT_LOSS (R191). -/
def execInputLoss (dt : Nat) (p : Fin 2) (cause : LossCause) (s : State) : Answer :=
  .next (sinkLoses p cause (advance dt s))

/-- The path counts on the SoC's frames (R191): it receives a stream, or shows one, or would. -/
def GPath.awaits (x : GPath) : Bool :=
  x.opened && !x.psr && (x.stream.isSome || x.mode == .trial || x.mode == .checked || x.mode == .repair)

/-- No vertical start for two frame periods (R191, R206); in PSR the SoC sends none (Edges of R165). Where the SoC's stream was
to pass, the source sent no frames meanwhile (R184). -/
def verticalTimeout (p : Fin 2) (s : State) : State :=
  let x := s.guard.paths[p]
  let period := ((x.stream <|> x.timing).map msaTicks).getD 0
  if x.awaits ∧ since s (some x.startAt) (2 * period) then
    let s := s.modPath p fun x => { x with gapOwed := x.gapOwed || x.passes }
    inputLost p (if x.input.isSome then post 0x4114 wide p s else s)
  else s

/-- INPUT_VERTICAL_TIMEOUT (R191). -/
def execInputVerticalTimeout (dt : Nat) (p : Fin 2) (s : State) : Answer := .next (verticalTimeout p (advance dt s))

/-! ### PSR -/

/-- The SoC enters PSR, and the LV648 repeats the entry towards the panel (Edges of R165). -/
def psrEnters (p : Fin 2) (s : State) : State :=
  let x := s.guard.paths[p]
  if x.passes ∧ x.stream.isSome ∧ x.trained ∧ ¬ x.psr then
    emit (.panelPsr p true) (s.modPath p fun x => { x with psr := true })
  else s

/-- PSR_ENTRY (R165). -/
def execPsrEntry (dt : Nat) (p : Fin 2) (s : State) : Answer := .next (psrEnters p (advance dt s))

/-- PSR_EXIT (R165). -/
def execPsrExit (dt : Nat) (p : Fin 2) (s : State) : Answer :=
  let s := advance dt s
  .next (psrEnds p (s.modPath p fun x => { x with startAt := s.elapsed }))

/-- PSR_REPEAT_PERIOD (R165). -/
def execPsrRepeatPeriod (dt : Nat) (p : Fin 2) (s : State) : Answer := .next (psrRepeats p (advance dt s))

/-! ### The panel -/

/-- The panel asks for a retrain (R206): no frames in between, and GAP on the next verdict. -/
def panelFails (p : Fin 2) (s : State) : State :=
  let x := s.guard.paths[p]
  if x.opened ∧ x.trained then
    post 0x4121 wide p (s.modPath p fun x => { x with
      trained := false, retraining := true, gapOwed := true, outs := [], psr := false, startAt := s.elapsed })
  else s

/-- PANEL_HPD_EVENT (R206): bad link status and HPD low have one answer. -/
def execPanelHpdEvent (dt : Nat) (p : Fin 2) (_ev : HpdEvent) (s : State) : Answer := .next (panelFails p (advance dt s))

/-- A retrain ends on one of its routes, or on none (R164, R206). -/
def panelRetrainEnds (p : Fin 2) (link : Option LinkSettings) (s : State) : State :=
  if ¬ (s.guard.paths[p]).retraining then s
  else match link with
    | some _ => panelTrained p s
    | none => holdPath p s

/-- PANEL_RETRAIN_DONE (R206). -/
def execPanelRetrainDone (dt : Nat) (p : Fin 2) (link : Option LinkSettings) (s : State) : Answer :=
  .next (panelRetrainEnds p link (advance dt s))

/-! ### AUX -/

/-- The sink answers a native address itself (R166). -/
def auxOwn (req : AuxReq) : Bool :=
  !req.i2c && (decide (req.addr < 0x300) || (decide (0x700 ≤ req.addr) && decide (req.addr < 0x800)))

/-- A byte of the sink's own fields (R165, R166): bit 0 of the MST, DSC and FEC capabilities and bit 6 of the one of Adaptive-Sync
are 0 (log entry 39); what the spec does not give is free. -/
def auxByte (x : GPath) (req : AuxReq) (i : Nat) (s : State) : Byte × State :=
  let a := req.addr + i
  let panel := req.panel.getD i 0
  if a = 0x001 then (0x1E, s)
  else if a = 0x021 ∨ a = 0x060 ∨ a = 0x090 then
    (let (v, s) := draw s
     (BitVec.ofNat 8 (2 * v), s))
  else if a = 0x007 then
    (let (v, s) := draw s
     (BitVec.ofNat 8 (v % 64 + 128 * (v / 64 % 2)), s))
  else if a = 0x070 then (if 1 < panel.toNat then 1 else panel, s)
  else if 0x700 ≤ a then (panel, s)
  else if 0x100 ≤ a ∧ a < 0x200 then (Memory.read x.dpcd a, s)
  else
    let (v, s) := draw s
    if a = 0x002 then (BitVec.ofNat 8 (4 + 32 * (v % 8)), s) else (BitVec.ofNat 8 v, s)

/-- The bytes of a read of the sink's own fields. -/
def auxRead (p : Fin 2) (req : AuxReq) (s : State) : List Byte × State :=
  (List.range req.data.length).foldl (fun (r : List Byte × State) i =>
    let (b, s) := auxByte (s.guard.paths[p]) req i r.2
    (r.1 ++ [b], s)) ([], s)

/-- The request selects PSR2 in the panel's PSR configuration (R165, R206). -/
def asksPsr2 (req : AuxReq) : Bool :=
  req.write && !req.i2c && decide (req.addr ≤ 0x170) && decide (0x170 < req.addr + req.data.length) &&
    ((req.data.getD (0x170 - req.addr) 0)).getLsbD 6

/-- An AUX request of the SoC (R166, R206). -/
def auxRequest (p : Fin 2) (req : AuxReq) (s : State) : State :=
  let x := s.guard.paths[p]
  if ¬ x.opened then s
  else if req.malformed then emit (.auxNack p) (post 0x4116 wide p s)
  else if asksPsr2 req then emit (.auxNack p) (post 0x4115 wide p s)
  else if auxOwn req then
    if req.write then
      let s := if 0x100 ≤ req.addr ∧ req.addr + req.data.length ≤ 0x200 then
          s.modPath p fun x => { x with dpcd := Memory.writeList x.dpcd req.addr req.data }
        else s
      emit (.auxReply p []) s
    else
      let (bytes, s) := auxRead p req s
      emit (.auxReply p bytes) s
  else if ¬ x.trained then
    if x.deferOver then emit (.auxNack p) s
    else emit (.auxDefer p) (s.modPath p fun x => { x with deferFrom := some (x.deferFrom.getD s.elapsed) })
  else
    let s := emit (.auxForward p req.write req.addr req.data) s
    if req.panel.isEmpty then s.modPath p fun x => { x with auxWait := some s.elapsed }
    else emit (.auxReply p req.panel) (s.modPath p fun x => { x with auxWait := none })

/-- SINK_AUX_REQUEST (R166). -/
def execSinkAuxRequest (dt : Nat) (p : Fin 2) (req : AuxReq) (s : State) : Answer :=
  .next (auxRequest p req (advance dt s))

/-- 50 ms of AUX_DEFER have passed (R166). -/
def deferEnds (p : Fin 2) (s : State) : State :=
  let x := s.guard.paths[p]
  if ¬ x.trained ∧ since s x.deferFrom (ticksMs 50) then s.modPath p fun x => { x with deferOver := true } else s

/-- AUX_DEFER_EXPIRY (R166). -/
def execAuxDeferExpiry (dt : Nat) (p : Fin 2) (s : State) : Answer := .next (deferEnds p (advance dt s))

/-- The panel has not replied for 400 µs (R206). -/
def panelSilent (p : Fin 2) (s : State) : State :=
  if since s (s.guard.paths[p]).auxWait (ticksUs 400) then
    emit (.auxNack p) (post 0x4122 wide p (s.modPath p fun x => { x with auxWait := none }))
  else s

/-- PANEL_AUX_TIMEOUT (R206). -/
def execPanelAuxTimeout (dt : Nat) (p : Fin 2) (s : State) : Answer := .next (panelSilent p (advance dt s))

/-- The sink's HPD rises (R169). -/
def hpdRises (p : Fin 2) (s : State) : State :=
  if since s (s.guard.paths[p]).hpdLow (ticksMs 2) then s.modPath p fun x => { x with hpdLow := none } else s

/-- SINK_HPD_PULSE_END (R169). -/
def execSinkHpdPulseEnd (dt : Nat) (p : Fin 2) (s : State) : Answer := .next (hpdRises p (advance dt s))

/-! ### Windows -/

/-- A settle window ends (R182). -/
def settleEnds (t : Fin 64) (s : State) : State :=
  if due s (s.guard.settle[t]) then s.modGuard fun g => { g with settle := g.settle.set t none } else s

/-- SETTLE_WINDOW_END (R182). -/
def execSettleWindowEnd (dt : Nat) (t : Fin 64) (s : State) : Answer := .next (settleEnds t (advance dt s))

/-- A chime window ends without a match (R201); the distance of MISSED is free. -/
def chimeMissed (t : Fin 16) (s : State) : State :=
  if (s.guard.windows[t]).isSome then
    let (v, s) := draw s
    publish 0x64 (hold s (now s)) 0 (post 0x4010 wide t (decideChime t 2 (v % 256) s))
  else s

/-- CHIME_WINDOW_END (R201). -/
def execChimeWindowEnd (dt : Nat) (t : Fin 16) (s : State) : Answer :=
  let s := advance dt s
  .next (if due s (s.guard.windows[t]) then chimeMissed t s else s)

/-! ### The rear camera -/

/-- The conversion of a rear frame's data type (R196): none where the tap does not accept it. -/
def rearDesc (dataType pattern w h : Nat) : Option PyrDesc :=
  if dataType = 0x1E then some ⟨1, true, 2, pattern, 2, dataType, w, h, 0, false⟩
  else if dataType = 0x24 then some ⟨1, true, 3, pattern, 2, dataType, w, h, 0, false⟩
  else if 0x2A ≤ dataType ∧ dataType ≤ 0x2E then some ⟨1, true, 1, pattern, 2, dataType, w, h, 0, false⟩
  else none

/-- A place of the window on an axis of the rear picture, the two aligned at their centres: the pixels around it and the distance
from the first, in parts of the whole (R196, log entry 55). -/
def rearPlace (window picture i : Nat) : Nat × Nat × Nat × Nat :=
  let u := (2 * i + 1) * picture - window
  let a := min (u / (2 * window)) (picture - 1)
  (a, min (a + 1) (picture - 1), u % (2 * window), 2 * window)

/-- The rear picture scaled bilinearly to the window, and mirrored, as a window buffer holds it (R196). -/
def scaleRear (l : Layout) (w h : Nat) (rows : List (List (List Nat))) : List (BitVec 16) :=
  let px (x y : Nat) : List Nat := (rows.getD y []).getD x []
  (List.range (l.camW * l.camH)).map fun i =>
    let x := rearPlace l.camW w (if l.mirror then l.camW - 1 - i % l.camW else i % l.camW)
    let y := rearPlace l.camH h (i / l.camW)
    Config.rearCode [px x.1 y.1, px x.2.1 y.1, px x.1 y.2.1, px x.2.1 y.2.1] x.2.2 y.2.2

/-- A rear frame completes in the tap (R196, R197, R206); after handover the tap is idle. -/
def rearFrame (dataType w h : Nat) (lines : List (List Byte)) (s : State) : State :=
  let x := s.guard.paths[(1 : Fin 2)]
  match s.start.outing.rearPort, x.layoutIn 1 with
  | some p, some l =>
    let P := s.ports[p]
    if P.mode ≠ .locked ∨ l.camW = 0 ∨ ¬ (x.mode = .early ∨ x.mode = .trial) then s
    else match rearDesc dataType l.pattern w h with
      | none =>
        let s := s.modGuard fun g => { g with rearBad := true }
        if s.guard.noTypeAt = some P.locks then s
        else post 0x4014 wide p (s.modGuard fun g => { g with noTypeAt := some P.locks })
      | some d =>
        let (rw, rh) := levelSize d 0
        let small := decide (rw < l.camW) || decide (rh < l.camH) || decide (4 * l.camW < rw) || decide (4 * l.camH < rh)
        let b := match s.guard.rear with
          | some r => 1 - r.buffer
          | none => 0
        let s := s.modGuard fun g => { g with
          rear := some ⟨s.elapsed, rw, rh, b, false⟩, rearBad := false
          rearBuffers := g.rearBuffers.set b (scaleRear l rw rh (level0 d lines)) }
        if small && x.latch.any Latch.reverse then post 0x4012 wide p s else s
  | _, _ => s

/-- REAR_TAP_FRAME (R196). -/
def execRearTapFrame (dt : Nat) (dataType w h : Nat) (lines : List (List Byte)) (s : State) : Answer :=
  .next (rearFrame dataType w h lines (advance dt s))

/-- The newest rear frame is older than camera_stale_ms (R197). -/
def rearStale (s : State) : State :=
  match s.guard.rear with
  | none => s
  | some r =>
    let x := s.guard.paths[(1 : Fin 2)]
    if ¬ r.stale ∧ since s (some r.at_) (ticksMs s.guard.cfg.cameraStale) ∧ x.latch.any Latch.reverse ∧
        (x.mode = .early ∨ x.mode = .trial) then
      post 0x4011 wide (s.start.outing.rearPort.elim wide Fin.val)
        (s.modGuard fun g => { g with rear := some { r with stale := true } })
    else s

/-- REAR_CAMERA_STALE (R197). -/
def execRearCameraStale (dt : Nat) (s : State) : Answer := .next (rearStale (advance dt s))

/-! ### Hampers (R207) -/

/-- GUARD_CONFIG: it applies at the next latch. -/
def guardConfigBody (s : State) (h : Hamper) : Verdict :=
  if h.fn ≠ guardOwner s then notOwner
  else match parseGuardCfg h.payload with
    | some c => if h.tail 16 then badArg else .ok (s.modGuard fun g => { g with nextCfg := some c }) []
    | none => badArg

/-- GUARD_CONFIG (R207). -/
def execGuardConfig (dt : Nat) (r : Req) (s : State) : Answer :=
  .next (serve r 0x0401 0 false guardConfigBody (advance dt s))

/-- A path's 24 bytes in GUARD_STATUS. -/
def pathStatus (x : GPath) : List Byte :=
  record [(1, x.mode.code), (1, x.good), (1, x.set.regions.length), (1, 0), (4, x.nextSeq.toNat), (4, x.failFrames.toNat),
    (4, x.paintedFrames.toNat), (4, x.set.id.toNat), (4, x.signed.toNat)]

/-- GUARD_STATUS (R204, R207). -/
def guardStatusBody (s : State) (h : Hamper) : Verdict :=
  if h.tail 0 then badArg
  else
    let g := s.guard
    let pending := match s.meas.compact with
      | .pending _ => true
      | _ => false
    .ok s (record [(1, g.tsl.mode.code), (1, g.tsl.alive.getD 0), (1, b2n g.tslNow.reverseInUse),
      (1, b2n s.weir.sFault + 2 * b2n pending), (4, g.tsl.valid.toNat), (4, g.tsl.bad.toNat), (4, 0)] ++
      pathStatus g.paths[(0 : Fin 2)] ++ pathStatus g.paths[(1 : Fin 2)])

/-- GUARD_STATUS (R207). -/
def execGuardStatus (dt : Nat) (r : Req) (s : State) : Answer :=
  .next (serve r 0x0402 0 false guardStatusBody (advance dt s))

/-- The references that a path will have once its loads have ended, the one in progress included. -/
def refsNext (s : State) (p : Fin 2) : Vector (Option Look) 128 :=
  let x := s.guard.paths[p]
  (x.nextRefs ++ if (findAccepted s 0x0404 p).isSome then x.loading else []).foldl (fun (v : Vector (Option Look) 128) l => match fin? 128 l.1 with
    | some i => v.set i (some l.2)
    | none => v) x.refs

/-- GUARD_REGIONS_SET: `table` is what the read of its buffer gave (R178, R179). -/
def guardRegionsBody (table : Fetched) (s : State) (h : Hamper) : Verdict :=
  let p := h.payload
  let count := fld p 1 1
  let b := bufferAt p 4
  if h.fn ≠ guardOwner s then notOwner
  else match fin? 2 (fld p 0 1) with
    | none => badArg
    | some k =>
      if h.tail 20 || decide (32 < count) || !zeros p 2 2 ||
          b.reserved || (count != 0 && (bufferBad s h.fn b || decide (b.length < 32 * count))) then badArg
      else
        match bufferRead s h.fn b table, count with
        | .failed, _ + 1 => .refuse stBusError []
        | t, _ =>
          let bytes := match t with
            | .data d => padTo (32 * count) (d.take (32 * count))
            | .failed => []
          match parseRegions bytes with
          | none => badArg
          | some rs =>
            if rs.all (refFits (refsNext s k)) then
              let (id, s) := draw s
              let id := BitVec.ofNat 32 id
              let s := extend 4 2 bytes (s.modPath k fun x => { x with nextSet := some ⟨id, rs⟩ })
              .ok s (record [(4, id.toNat), (1, measIndex s), (3, 0)])
            else badArg

/-- GUARD_REGIONS_SET (R207). -/
def execGuardRegionsSet (dt : Nat) (r : Req) (table : Fetched) (s : State) : Answer :=
  .next (serve r 0x0403 0 false (guardRegionsBody table) (advance dt s))

/-- Templates placed from an index. -/
def placeTemplates (first : Nat) (l : List Template) (v : Vector (Option Template) 16) : Vector (Option Template) 16 :=
  Vector.ofFn fun i => if first ≤ i.val then (match l[i.val - first]? with
    | some t => some t
    | none => v[i]) else v[i]

/-- The bytes of chime templates in the guardian area (R203). -/
def templateBytes (v : Vector (Option Template) 16) : Nat :=
  (v.toList.map fun t => match t with
    | some t => 32 + 80 * t.hops
    | none => 0).sum

/-- The guardian area has room (R203): references of both paths, rear buffers, verdict and digest stores, templates. -/
def areaFits (refs0 refs1 : Vector (Option Look) 128) (templates : Vector (Option Template) 16) (s : State) : Bool :=
  let camera := (((s.guard.paths[(1 : Fin 2)]).layoutIn 1).map Layout.rearBytes).getD 0
  areaHolds (refsBytes refs0) (refsBytes refs1) camera (templateBytes templates)

/-- The templates once their loads have ended, the one in progress included. -/
def templatesNext (s : State) : Vector (Option Template) 16 :=
  if (s.accepted.any fun a => a.op == 0x0410) then
    s.guard.loading.foldl (fun (v : Vector (Option Template) 16) t => match fin? 16 t.1 with
      | some i => v.set i (some t.2)
      | none => v) s.guard.templates
  else s.guard.templates

/-- GUARD_REFS_LOAD: one load at a time on a path, validated whole before it is ACCEPTED (R85, R179, R203, R207). -/
def guardRefsBody (blob : Fetched) (s : State) (h : Hamper) : Verdict :=
  let p := h.payload
  let first := fld p 2 2
  let count := fld p 4 2
  let b := bufferAt p 8
  if h.fn ≠ guardOwner s then notOwner
  else if (findAccepted s 0x0404 (fld p 0 1)).isSome then wrongState
  else match fin? 2 (fld p 0 1) with
    | none => badArg
    | some k =>
      if h.tail 24 || !zeros p 1 1 || decide (127 < first) || count == 0 || decide (128 < first + count) || !zeros p 6 2 ||
          bufferBad s h.fn b then badArg
      else match bufferRead s h.fn b blob with
        | .failed => .refuse stBusError []
        | .data d =>
          match parseLooks count d with
          | none => badArg
          | some (looks, _) =>
            let x := s.guard.paths[k]
            let refs := placeLooks first looks (refsNext s k)
            let other := refsNext s (1 - k)
            if ¬ (x.nextSet.getD x.set).regions.all (refFits refs) then badArg
            else if ¬ areaFits (if k = 0 then refs else other) (if k = 0 then other else refs) (templatesNext s) s then noResource
            else .accepted (accept h k (s.modPath k fun x => { x with
                loading := looks.mapIdx fun i l => (first + i, l) })) []

/-- GUARD_REFS_LOAD (R207). -/
def execGuardRefsLoad (dt : Nat) (r : Req) (blob : Fetched) (s : State) : Answer :=
  .next (serve r 0x0404 0 false (guardRefsBody blob) (advance dt s))

/-- A reference load of a path ends (R207), or a read of its buffer has failed. -/
def refsLoaded (path : Fin 2) (read : Bool) (s : State) : State :=
  match findAccepted s 0x0404 path with
  | none => s
  | some _ =>
    let blob := (s.guard.paths[path]).loading.flatMap fun l => lookBytes l.2
    if read then
      hamperDone 0x0404 path stOk (BitVec.ofNat 32 blob.length) (extend 4 2 blob (s.modPath path fun x => { x with
        nextRefs := x.nextRefs ++ x.loading, loading := [] }))
    else hamperDone 0x0404 path stBusError 0 s

/-- GUARD_REFS_LOAD_DONE (R207). -/
def execGuardRefsLoadDone (dt : Nat) (path : Fin 2) (read : Bool) (s : State) : Answer :=
  .next (refsLoaded path read (advance dt s))

/-- A slot count of a route: a power of two in a range. -/
def slotsBad (n lo hi : Nat) : Bool := !(n.isPowerOfTwo) || decide (n < lo) || decide (hi < n)

/-- VERDICT_ROUTE (R188, R207). -/
def verdictRouteBody (s : State) (h : Hamper) : Verdict :=
  let p := h.payload
  let vs := fld p 4 4
  let ds := fld p 0x18 4
  let v := bufferAt p 8
  let d := bufferAt p 0x20
  if h.fn ≠ guardOwner s then notOwner
  else match fin? 2 (fld p 0 1) with
    | none => badArg
    | some k =>
      let x := s.guard.paths[k]
      let answer := record [(4, x.undelivered.toNat), (4, x.nextSeq.toNat)]
      if h.tail 0x30 || !zeros p 2 2 || !zeros p 0x1C 4 || v.reserved || d.reserved then badArg
      else if fld p 1 1 = 0xFF then .ok (s.modPath k fun x => { x with route := none, undelivered := 0 }) answer
      else match fin? 32 (fld p 1 1) with
        | none => badArg
        | some q =>
          if s.plan.queues[q] ≠ h.fn || slotsBad vs 64 65536 || slotsBad ds 4 4096 || bufferBad s h.fn v ||
              bufferBad s h.fn d || decide (v.length < 64 * vs) || decide (d.length < 256 * ds) then badArg
          else .ok (s.modPath k fun x => { x with
              route := some ⟨q, vs, v.addr, v.millpond, ds, d.addr, d.millpond⟩, undelivered := 0 }) answer

/-- VERDICT_ROUTE (R207). -/
def execVerdictRoute (dt : Nat) (r : Req) (s : State) : Answer :=
  .next (serve r 0x0405 0 false verdictRouteBody (advance dt s))

/-- DIGEST_GET (R207). -/
def digestGetBody (s : State) (h : Hamper) : Verdict :=
  let p := h.payload
  let k := fld p 4 4
  match fin? 2 (fld p 0 1) with
  | none => badArg
  | some path =>
    let held := (s.guard.paths[path]).digests
    if h.tail 8 || !zeros p 1 3 then badArg
    else match (if k = 0xFFFFFFFF then held.head? else held.find? fun d => d.1 = k) with
      | some d => .ok s d.2
      | none => badArg

/-- DIGEST_GET (R207). -/
def execDigestGet (dt : Nat) (r : Req) (s : State) : Answer :=
  .next (serve r 0x0406 0 false digestGetBody (advance dt s))

/-- The held verdict record of a sequence (R187). -/
def GPath.heldVerdict (x : GPath) (seq : Nat) : Option (List Byte) :=
  if seq < x.nextSeq.toNat then x.verdicts[x.nextSeq.toNat - 1 - seq]? else none

/-- CHAIN_READ (R207). -/
def chainReadBody (s : State) (h : Hamper) : Verdict :=
  let p := h.payload
  let first := fld p 4 4
  let count := fld p 8 4
  let b := bufferAt p 12
  if h.fn ≠ guardOwner s then notOwner
  else match fin? 2 (fld p 0 1) with
    | none => badArg
    | some path =>
      let x := s.guard.paths[path]
      if h.tail 28 || !zeros p 1 3 || count == 0 || decide (4096 < count) || bufferBad s h.fn b ||
          decide (b.length < 64 * count) || (x.heldVerdict first).isNone || (x.heldVerdict (first + count - 1)).isNone then
        badArg
      else .accepted (accept h path s) []

/-- CHAIN_READ (R207). -/
def execChainRead (dt : Nat) (r : Req) (s : State) : Answer :=
  .next (serve r 0x0407 1 false chainReadBody (advance dt s))

/-- The oldest CHAIN_READ in progress ends (R207). -/
def chainCopied (written : Bool) (s : State) : State :=
  match s.accepted.find? fun a => a.op == 0x0407 with
  | none => s
  | some a =>
    if written then
      let x := s.guard.paths[if a.index = 0 then (0 : Fin 2) else 1]
      let records := (List.range (fld a.payload 8 4)).filterMap fun i => x.heldVerdict (fld a.payload 4 4 + i)
      hamperDone 0x0407 a.index stOk (BitVec.ofNat 32 records.length)
        (bufferWrite a.fn (bufferAt a.payload 12) 0 records.flatten s)
    else hamperDoneFree 0x0407 a.index stBusError s

/-- CHAIN_READ_DONE (R207). -/
def execChainReadDone (dt : Nat) (written : Bool) (s : State) : Answer := .next (chainCopied written (advance dt s))

/-- CHIME_TEMPLATES_LOAD, validated whole before it is ACCEPTED (R85, R203, R207). -/
def chimeLoadBody (blob : Fetched) (s : State) (h : Hamper) : Verdict :=
  let p := h.payload
  let first := fld p 0 1
  let count := fld p 1 1
  let b := bufferAt p 4
  if h.fn ≠ guardOwner s then notOwner
  else if h.tail 20 || decide (15 < first) || count == 0 || decide (16 < first + count) || !zeros p 2 2 ||
      bufferBad s h.fn b then badArg
  else match bufferRead s h.fn b blob with
    | .failed => .refuse stBusError []
    | .data d =>
      match parseTemplates count d with
      | none => badArg
      | some (l, _) =>
        if areaFits (refsNext s 0) (refsNext s 1) (placeTemplates first l (templatesNext s)) s then
          .accepted (accept h first (s.modGuard fun g => { g with
            loading := (if s.accepted.any (fun a => a.op == 0x0410) then g.loading else []) ++
              l.mapIdx fun i t => (first + i, t) })) []
        else noResource

/-- CHIME_TEMPLATES_LOAD (R207). -/
def execChimeTemplatesLoad (dt : Nat) (r : Req) (blob : Fetched) (s : State) : Answer :=
  .next (serve r 0x0410 2 false (chimeLoadBody blob) (advance dt s))

/-- The oldest template load in progress ends (R207), or a read of its buffer has failed; what its count says is not stated. -/
def templatesLoaded (read : Bool) (s : State) : State :=
  match s.accepted.find? fun a => a.op == 0x0410 with
  | none => s
  | some a =>
    let n := fld a.payload 1 1
    let l := s.guard.loading.take n
    let s := s.modGuard fun g => { g with loading := g.loading.drop n }
    if read then
      hamperDoneFree 0x0410 a.index stOk (extend 4 2 (l.flatMap fun t => templateRecord t.2) (s.modGuard fun g => { g with
        templates := l.foldl (fun (v : Vector (Option Template) 16) t => match fin? 16 t.1 with
          | some i => v.set i (some t.2)
          | none => v) g.templates }))
    else hamperDoneFree 0x0410 a.index stBusError s

/-- CHIME_TEMPLATES_LOAD_DONE (R207). -/
def execChimeTemplatesLoadDone (dt : Nat) (read : Bool) (s : State) : Answer :=
  .next (templatesLoaded read (advance dt s))

/-- A result's 16 bytes in CHIME_STATUS. -/
def chimeResultBytes (s : State) (c : ChimeResult) : List Byte :=
  record [(1, c.template), (1, c.result), (1, c.distance), (1, 0), (4, c.seq.toNat), (8, heldNs s c.at_)]

/-- A ring of `n` slots of `size` bytes that holds records by their numbers. -/
def ringBytes (n size : Nat) (records : List (Nat × List Byte)) : List Byte :=
  (List.range n).flatMap fun i => padTo size (((records.find? fun r => r.1 % n = i).map Prod.snd).getD [])

/-- The bytes of the guardian area, in the order of R203's table from Millpond offset 0 (log entry 55): references, window
buffers, verdict stores, digest stores, templates. -/
def guardArea (g : Guard) : List Byte :=
  let x := g.paths[(0 : Fin 2)]
  let y := g.paths[(1 : Fin 2)]
  let refs (p : GPath) : List Byte := p.refs.toList.flatMap fun l => (l.map lookBytes).getD []
  let verdicts (p : GPath) : List Byte := ringBytes 4096 64 (p.verdicts.mapIdx fun i v => (p.nextSeq.toNat - 1 - i, v))
  refs x ++ refs y ++ g.rearBuffers.toList.flatMap (fun b => b.flatMap fun v => leBytes 2 v.toNat) ++ verdicts x ++ verdicts y ++
    ringBytes 64 256 x.digests ++ ringBytes 64 256 y.digests ++
    g.templates.toList.flatMap fun t => (t.map templateRecord).getD []

/-- CHIME_STATUS (R202, R207). -/
def chimeStatusBody (s : State) (h : Hamper) : Verdict :=
  if h.tail 0 then badArg
  else
    let g := s.guard
    .ok s (padTo 144 (record [(4, g.heard.toNat), (4, g.missed.toNat),
      (1, (g.templates.toList.filter Option.isSome).length), (7, 0)] ++ (g.results.take 8).flatMap (chimeResultBytes s)))

/-- CHIME_STATUS (R207). -/
def execChimeStatus (dt : Nat) (r : Req) (s : State) : Answer :=
  .next (serve r 0x0411 2 false chimeStatusBody (advance dt s))

end Sys2Proof.Machine
end

