-- ==== Sys2Proof/Machine/WitCmds.lean ====
section
/-! DEFINITION. Meanings of the witness sampler (R438 to R463). -/

namespace Sys2Proof.Machine

/-! ### WITNESS_CONFIG -/

/-- One unit of a WITNESS_CONFIG request (R463). -/
def parseUnit (p : List Byte) : WitUnit :=
  ⟨fld p 0 1, fld p 1 1, bit (fld p 2 1) 0, bit (fld p 2 1) 1, fld p 4 2, fld p 6 2, fld p 8 4, fld p 12 4⟩

/-- A unit that Valtyn refuses (R447, R463). -/
def unitBad (ain : BitVec 16) (p : List Byte) : Bool :=
  let u := parseUnit p
  decide (5 < u.kind) || decide (31 < u.source) || decide (4095 < u.lo) || decide (4095 < u.hi) ||
    (u.kind != 0 && (
      (decide (16 ≤ u.source) && (u.kind == 3 || u.kind == 5 || u.lo != 0 || u.hi != 0)) ||
      (decide (u.source < 16) && (!ain.getLsbD u.source || decide (u.hi ≤ u.lo))) ||
      (u.kind == 4 && u.tMin == 0)))

/-- The configuration that a WITNESS_CONFIG request asks for. -/
def witCfgOf (p : List Byte) : WitCfg where
  ain := BitVec.ofNat 16 (fld p 0 2)
  dw := BitVec.ofNat 16 (fld p 2 2)
  div := fld p 4 2
  glitch := fld p 6 1
  pos := fld p 7 1
  reduce := fld p 8 4
  bytes := fld p 12 4
  edgeBytes := fld p 16 4
  units := (List.range 8).map fun k => parseUnit (slice p (32 + 16 * k) 16)

/-- A WITNESS_CONFIG request that Valtyn refuses with BAD_ARGUMENT (R441, R444, R447, R463). -/
def witConfigBad (p : List Byte) : Bool :=
  let c := witCfgOf p
  !zeros p 20 12 || (List.range 8).any (fun k => decide (3 < fld p (34 + 16 * k) 1) || !zeros p (35 + 16 * k) 1) ||
  (c.bytes != 0 && (
    c.div == 0 || decide (4096 < c.div) || (decide (3 < c.pos) && c.pos != 0xFF) || c.reduce == 0 ||
    decide (65536 < c.reduce) || c.bytes % 4096 != 0 || decide (c.bytes < 8192) || decide (0x800000 < c.bytes) ||
    c.edgeBytes % 4096 != 0 || decide (c.bytes ≤ c.edgeBytes) ||
    (decide (1 < c.reduce) && c.inputs 0 != c.inputs 1 && c.inputs 0 != 0 && c.inputs 1 != 0) ||
    (c.edgeBytes != 0 && c.dw == 0) || (c.ain != 0 && decide (c.bytes - c.edgeBytes < 4096)) ||
    (List.range 8).any fun k => unitBad c.ain (slice p (32 + 16 * k) 16)))

/-- The tracks of the units at a new configuration: a DW unit knows its line's filtered level. -/
def freshTracks (c : WitCfg) (level : BitVec 16) : Vector WitTrack 8 :=
  Vector.ofFn fun k =>
    match c.units[k.val]? with
    | some u => { WitTrack.reset with
        above := if 16 ≤ u.source then some (level.getLsbD (u.source - 16) != u.fall) else none }
    | none => WitTrack.reset

/-- Apply a configuration whose store is allocated (R439, R444). -/
def applyWitConfig (c : WitCfg) (w : Weir) (s : State) : State :=
  let old := s.wit
  { s with
    weir := w
    wit := { Wit.reset with
      mode := .configured, cfg := c, appliedAt := s.elapsed, raw := old.raw, level := old.level, tracks := freshTracks c old.level
      capture := old.capture, ignored := old.ignored, route := old.route, overflow := old.overflow, quiet := old.quiet } }

/-- The sampler is not capturing and delivers nothing (R463). -/
def Wit.idle (w : Wit) : Bool :=
  !w.delivering && w.disarm.isNone && (match w.mode with
    | .pending | .armed | .triggered => false
    | _ => true)

/-- WITNESS_CONFIG (R463). -/
def witnessConfigBody (s : State) (h : Hamper) : Verdict :=
  let p := h.payload
  let c := witCfgOf p
  if ¬ s.wit.idle then wrongState
  else if h.tail 160 || witConfigBad p then badArg
  else if c.bytes = 0 then
    .ok { s with
      weir := dynFree 7 0 s.weir
      wit := { Wit.reset with
        raw := s.wit.raw, level := s.wit.level, capture := s.wit.capture, ignored := s.wit.ignored, route := s.wit.route
        overflow := s.wit.overflow, quiet := s.wit.quiet } } (record [(4, 0), (4, 0)])
  else
    match dynAlloc 7 0 (c.bytes / 1024) (dynFree 7 0 s.weir) with
    | none => noResource
    | some w => .ok (applyWitConfig c w s) (record [(4, c.capacity), (4, dynAddr w 7 0)])

/-- WITNESS_CONFIG (R463). -/
def execWitnessConfig (dt : Nat) (r : Req) (s : State) : Answer :=
  .next (serve r 0x0901 0 true witnessConfigBody (advance dt s))

/-! ### WITNESS_ARM and WITNESS_DISARM -/

/-- The trigger codes that exist (R291, R324, R449). -/
def triggerCodes : List Nat :=
  List.range 16 ++ [0x10, 0x11, 0x12, 0x13, 0x14, 0x15] ++ (List.range 12).map (· + 0x20) ++ [0x30, 0x40, 0x41, 0x42] ++
    (List.range 8).map (· + 0x50) ++ [0x5F] ++ (List.range 7).map (· + 0x60)

/-- A mask names only these codes. -/
def onlyCodes (mask : BitVec 128) (codes : List Nat) : Bool :=
  (List.range 128).all fun c => !mask.getLsbD c || codes.contains c

/-- The arm that a WITNESS_ARM request asks for. -/
def witArmOf (p : List Byte) : WitArm :=
  ⟨fld p 0 4, fld p 4 4, BitVec.ofNat 8 (fld p 8 1), BitVec.ofNat 128 (fld p 16 16), BitVec.ofNat 64 (fld p 32 8)⟩

/-- WITNESS_ARM (R449, R452, R456, R463). -/
def witnessArmBody (s : State) (h : Hamper) : Verdict :=
  let p := h.payload
  let a := witArmOf p
  let c := s.wit.cfg
  if ¬ s.wit.idle ∨ s.wit.mode = .unconfigured then wrongState
  else if h.tail 40 || !zeros p 9 7 || a.pre == 0 || decide (c.capacity < a.pre + a.post) ||
      (c.reduced && (a.pre % c.span != 0 || a.post % c.span != 0)) ||
      !onlyCodes a.codes (triggerCodes.filter fun x => x != 0x42 && !(decide (0x50 ≤ x) && decide (x ≤ 0x57))) ||
      (a.codes == 0 && a.units == 0) then badArg
  else
    let s := (witDiscard s).modWit fun w => { w with
      mode := .pending, arm := a, capture := w.capture + 1, quiet := false, overflow := w.overflow, cause := 0
      aborted := false, glitches := 0, dense := 0, denseOwed := 0 }
    .ok s (leBytes 4 s.wit.capture.toNat)

/-- WITNESS_ARM (R463). -/
def execWitnessArm (dt : Nat) (r : Req) (s : State) : Answer :=
  .next (serve r 0x0902 0 true witnessArmBody (advance dt s))

/-- WITNESS_DISARM (R457, R458). -/
def witnessDisarmBody (s : State) (h : Hamper) : Verdict :=
  let p := h.payload
  let mode := fld p 0 1
  let w := s.wit
  if w.mode = .unconfigured ∨ w.disarm.isSome ∨ (mode = 2 ∧ w.mode ≠ .armed ∧ w.mode ≠ .triggered) then wrongState
  else if h.tail 4 || decide (2 < mode) || !zeros p 1 3 then badArg
  else if mode = 2 then
    .ok (if w.mode = .armed then
        publishMask (hopMask s 0x5F) true 0x5F (hold s (now s)) 0 s
      else s) []
  else if w.mode = .pending then
    .ok (witEntry stCancelled (fNeverStarted ||| fLast) 0 ((witDiscard s).modWit fun w => { w with
      disarm := some (mode, true) })) []
  else .ok (s.modWit fun w => { w with disarm := some (mode, false) }) []

/-- WITNESS_DISARM (R457). -/
def execWitnessDisarm (dt : Nat) (r : Req) (s : State) : Answer :=
  .next (serve r 0x0903 0 true witnessDisarmBody (advance dt s))

/-- A disarm's stop has taken effect (R457, R458). -/
def witQuiets (s : State) : State :=
  match s.wit.disarm with
  | none => s
  | some (mode, cancelled) =>
    let s := match s.wit.mode with
      | .armed | .triggered =>
        post 0x7003 wide wide (witEnd .captured stAborted fLast s)
      | _ => s
    let s := if mode = 1 then
        let s := if s.wit.delivering then
            let (v, s) := draw s
            let n := min s.wit.recordBytes (512 * (v % 16385))
            let s := match s.wit.route with
              | some r => deliver 0 r.mill (r.addr + s.wit.capture.toNat % r.slots * r.slotBytes)
                  ((witRecord s).take n) s
              | none => s
            witEntry stAborted fFull n s
          else s
        (if s.wit.mode = .unconfigured then s else witDiscard s)
      else s
    let s := s.modWit fun w => { w with disarm := none, quiet := true }
    notice 0 nQuiet (BitVec.ofNat 32 (256 * kWitness)) stOk (if cancelled then 1 else 0) s

/-- WITNESS_QUIET (R457). -/
def execWitnessQuiet (dt : Nat) (s : State) : Answer := .next (witQuiets (advance dt s))

/-! ### WITNESS_STATUS and WITNESS_ROUTE -/

/-- WITNESS_STATUS (R463). -/
def witnessStatusBody (s : State) (h : Hamper) : Verdict :=
  if h.tail 0 then badArg
  else
    let w := s.wit
    .ok s (record [(1, w.mode.code), (1, b2n w.delivering + 2 * b2n w.overflow + 4 * b2n w.preShort), (2, 0),
      (4, w.capture.toNat), (4, w.ticks.length * w.cfg.span), (4, w.edges.length), (4, w.ignored.toNat),
      (4, if w.mode = .unconfigured then 0 else dynAddr s.weir 7 0), (4, w.analogHead), (4, w.edgeHead),
      (8, (w.trig.map fun t => heldNs s t.stamp).getD 0), (1, (w.trig.map WitTrig.code).getD 0xFF), (1, w.cause), (2, 0),
      (4, if w.mode = .captured ∨ w.mode = .stopped then w.recordBytes else 0)])

/-- WITNESS_STATUS (R463). -/
def execWitnessStatus (dt : Nat) (r : Req) (s : State) : Answer :=
  .next (serve r 0x0904 0 false witnessStatusBody (advance dt s))

/-- A capture is held that no route has delivered. -/
def Wit.heldCapture (w : Wit) : Bool := (w.mode == .captured || w.mode == .stopped) && !w.delivered

/-- WITNESS_ROUTE (R455, R463). -/
def witnessRouteBody (s : State) (h : Hamper) : Verdict :=
  let p := h.payload
  let q := fld p 0 1
  let slots := fld p 4 4
  let slotBytes := fld p 8 4
  let b := bufferAt p 16
  let count := leBytes 4 (b2n s.wit.heldCapture)
  if s.wit.delivering then wrongState
  else if h.tail 40 || decide (1 < fld p 1 1) || !zeros p 2 2 || !zeros p 12 4 || !zeros p 32 8 || b.reserved then badArg
  else if q = 0xFF then .ok (s.modWit fun w => { w with route := none }) count
  else
    match fin? 32 q with
    | none => badArg
    | some k =>
      if s.plan.queues[k] ≠ 0 || !(slots.isPowerOfTwo) || decide (256 < slots) || slotBytes % 64 != 0 ||
          decide (slotBytes < 128 + s.wit.cfg.bytes) || bufferBad s h.fn b || decide (b.length < slots * slotBytes) then badArg
      else
        .ok (s.modWit fun w => { w with
          route := some ⟨k, slots, slotBytes, b.addr, b.millpond⟩
          delivering := bit (fld p 1 1) 0 && w.heldCapture }) count

/-- WITNESS_ROUTE (R463). -/
def execWitnessRoute (dt : Nat) (r : Req) (s : State) : Answer :=
  .next (serve r 0x0905 0 true witnessRouteBody (advance dt s))

/-! ### Samples, edges and time -/

/-- The tick is a capture tick that has not converted yet: every adc_div × 10 ticks from the one on which the configuration applied
(R439). -/
def captureTick (s : State) : Bool :=
  let w := s.wit
  w.mode != .unconfigured && (s.elapsed - w.appliedAt) % (10 * w.cfg.div) == 0 &&
    w.tickAt.all fun a => a.raw != (hold s (now s)).raw

/-- The bytes of the ADC capture FIFO (R113). -/
abbrev adcFifo : Nat := 2048

/-- The words of a tick meet the ADC capture FIFO (R113, R453): none where one finds it full. -/
def Wit.takeWords (w : Wit) (drained words : Nat) : Option Wit :=
  let k := w.fifo - drained + 2 * words
  if k ≤ adcFifo then some { w with fifo := k } else none

/-- Both ADCs convert on a capture tick (R439 to R441, R446, R453). -/
def adcConverts (code0 code1 : Option (BitVec 12)) (drained : Nat) (s : State) : State :=
  let w := s.wit
  if ¬ captureTick s then s
  else
    let h := hold s (now s)
    let sample (a next : Nat) (code : Option (BitVec 12)) : List (Nat × Nat) :=
      match (adcInputs w.cfg.ain a)[next]?, code with
      | some i, some c => [(i, c.toNat)]
      | _, _ => []
    let samples := sample 0 w.next0 code0 ++ sample 1 w.next1 code1
    let s := s.modWit fun w => { w with
      tick := w.tick + 1, tickAt := some h
      next0 := (w.next0 + 1) % max 1 (w.cfg.inputs 0), next1 := (w.next1 + 1) % max 1 (w.cfg.inputs 1)
      codes := samples.foldl (fun v x => match fin? 16 x.1 with
        | some i => v.set i (BitVec.ofNat 12 x.2)
        | none => v) w.codes }
    let s := if s.wit.mode = .pending ∧ s.wit.disarm = none then s.modWit fun w => { w with mode := .armed, fifo := 0 } else s
    let s := if s.wit.storing ∧ ¬ s.wit.complete then
        let s := if samples.any fun x => x.2 == 0 || x.2 == 4095 then post 0x7201 wide wide s else s
        (match s.wit.takeWords drained samples.length with
          | none => witOverflow 1 0x7101 s
          | some w1 => storeTick w.tick h samples (s.modWit fun _ => w1))
      else s
    samples.foldl (fun s x => feedAnalog x.1 x.2 h s) s

/-- ADC_CONVERSION (R439). -/
def execAdcConversion (dt : Nat) (code0 code1 : Option (BitVec 12)) (drained : Nat) (s : State) : Answer :=
  .next (adcConverts code0 code1 drained (advance dt s))

/-- A raw edge of a DW line and what the TDC made of it reach the capture (R126, R443, R453). -/
def dwRecord (line : Fin 16) (a : TdcAnswer) (level : Bool) (s : State) : State :=
  let mark := BitVec.ofNat 16 (2 ^ line.val)
  if ¬ (s.wit.cfg.dw.getLsbD line ∧ s.wit.storing) then s
  else match a with
    | .full => witOverflow 2 0x7102 s
    | .dense =>
      post 0x7203 wide wide (s.modWit fun w => { w with dense := w.dense + 1, denseOwed := w.denseOwed ||| mark })
    | .stamped h =>
      storeEdge ⟨h, line, s.wit.denseOwed.getLsbD line, level⟩
        (s.modWit fun w => { w with denseOwed := w.denseOwed &&& ~~~ mark })

/-- The filter of a DW line takes what its samples up to tick `t` have shown, and the units see a change (R442, R447). -/
def dwFilter (line : Fin 16) (t : Nat) (s : State) : State :=
  let r := s.wit.raw[line]
  let old := s.wit.level.getLsbD line
  if r.filter s.wit.cfg.glitch t old = old then s
  else
    let s := s.modWit fun w => { w with level := w.level ^^^ BitVec.ofNat 16 (2 ^ line.val) }
    if s.wit.mode = .unconfigured then s else feedDigital line (!old) (r.edgeTime s).1 s

/-- A pulse that ends before the filter has taken it (R443). -/
def dwGlitch (line : Fin 16) (level : Bool) (s : State) : State :=
  if s.wit.mode ≠ .unconfigured ∧ s.wit.level.getLsbD line = level then
    post 0x7202 wide wide (s.modWit fun w => { w with glitches := if w.storing then w.glitches + 1 else w.glitches })
  else s

/-- A DW ball is sampled (R123, R126, R442, R443, R453): its filter has first taken what held until now. -/
def dwMoves (line : Fin 16) (ball : Line) (s : State) : State :=
  if ¬ mainRuns s then s
  else
    let s := dwFilter line (s.elapsed - 1) s
    if ball.level = (s.wit.raw[line]).level then dwFilter line s.elapsed s
    else
      let (a, s) := tdcEdge (.dw line) ball.step s
      let s := s.modWit fun w => { w with raw := w.raw.set line ⟨ball.level, s.elapsed, a.held?⟩ }
      dwFilter line s.elapsed (dwGlitch line ball.level (dwRecord line a ball.level s))

/-- DW_EDGE (R442). -/
def execDwEdge (dt : Nat) (line : Fin 16) (ball : Line) (s : State) : Answer :=
  .next (dwMoves line ball (advance dt s))

/-- A TIMEOUT unit on a DW line has stayed above for t_min_ns (R447, R448). -/
def unitTimesOut (k : Fin 8) (s : State) : State :=
  match s.wit.cfg.units[k.val]? with
  | none => s
  | some u =>
    let t := s.wit.tracks[k]
    match t.rose with
    | none => s
    | some r =>
      let stamp : Held := ⟨r.raw + BitVec.ofNat 72 (u.tMin * 256), r.steps⟩
      if s.wit.mode ≠ .unconfigured ∧ u.kind = 4 ∧ 16 ≤ u.source ∧ t.above = some true ∧ ¬ t.timedOut ∧
          timeOf s stamp ≤ (now s).toNat then
        publish (0x50 + k) stamp 0 (setTrack k { t with timedOut := true } s)
      else s

/-- WITNESS_UNIT_TIMEOUT (R447). -/
def execWitnessUnitTimeout (dt : Nat) (k : Fin 8) (s : State) : Answer := .next (unitTimesOut k (advance dt s))

/-- The last post tick is stored (R451). -/
def captureEnds (s : State) : State :=
  if s.wit.mode = .triggered ∧ s.wit.disarm = none ∧ s.wit.complete then witEnd .captured stOk fLast s else s

/-- WITNESS_CAPTURE_END (R451). -/
def execWitnessCaptureEnd (dt : Nat) (s : State) : Answer := .next (captureEnds (advance dt s))

/-- A delivery ends (R455, R456): a failed one keeps the record held, and how much it moved is free. -/
def deliveryEnds (ok : Bool) (s : State) : State :=
  match s.wit.delivering, s.wit.route with
  | true, some r =>
    let rec_ := (witRecord s).take r.slotBytes
    let at_ := r.addr + s.wit.capture.toNat % r.slots * r.slotBytes
    if ok then
      let s := deliver 0 r.mill at_ rec_ s
      witEntry stOk fFull rec_.length (s.modWit fun w => { w with delivering := false, delivered := true })
    else
      let (v, s) := draw s
      let n := v % (rec_.length + 1)
      let s := deliver 0 r.mill at_ (rec_.take n) s
      post 0x7301 wide wide (witEntry stBusError fFull n (s.modWit fun w => { w with delivering := false }))
  | _, _ => s

/-- WITNESS_DELIVERY_END (R456). -/
def execWitnessDeliveryEnd (dt : Nat) (ok : Bool) (s : State) : Answer := .next (deliveryEnds ok (advance dt s))

/-! ### Registers -/

/-- WIT_STATE (R462). -/
def witStateWord (w : Wit) : Word :=
  packed [(9, b2n w.quiet), (8, b2n w.overflow), (4, b2n w.preShort), (3, b2n w.delivering), (0, w.mode.code)]

/-- The witness registers (R462): none at an unimplemented offset. -/
def witRegister (s : State) (off : Nat) : Option Word :=
  if off = 0x8800 then some (witStateWord s.wit)
  else if off = 0x8804 then some s.wit.capture
  else if off = 0x8808 then some s.wit.ignored
  else if off = 0x880C then some (s.wit.level.setWidth 32)
  else if 0x8840 ≤ off ∧ off < 0x8880 ∧ off % 4 = 0 then
    some (((s.wit.codes.toList.getD (off % 0x40 / 4) 0)).setWidth 32)
  else none

/-- A write of WIT_STATE: overflow is W1C (R462). -/
def writeWitState (v : Word) (s : State) : State :=
  if v.getLsbD 8 then s.modWit fun w => { w with overflow := false } else s

/-- WIT_IGNORED_READ (R462). -/
def execWitIgnoredRead (dt : Nat) (fn : Fn) (s : State) : Answer :=
  .next (readRegister fn 0x8808 (fun s => (s.wit.ignored, s.modWit fun w => { w with ignored := 0 })) (advance dt s))

end Sys2Proof.Machine
end

