-- ==== Sys2Proof/Machine/HopCmds.lean ====
section
/-! DEFINITION. Meanings of the hopper hampers, copies and registers (R319 to R343). -/

namespace Sys2Proof.Machine

/-- The KiB of a hopper's write stage (R329). -/
abbrev stageKib : Nat := 256

/-- The ring flow of a new binding (R319, R336). -/
def bindFlow (s : State) (i : Fin 16) (fn : Fn) (cls : Class) (rank slots slotBytes : Nat) (n : Fin 32) : Flow :=
  ⟨2, i, fn, cls, rank, .lpddr, kbps slotBytes (s.streams[n]).cfg.maxFps, units2M (slots * slotBytes), 0, true, none⟩

/-- The hopper is bound (R319). -/
def bindHopper (i : Fin 16) (n : Fin 32) (f : Flow) (slots slotBytes queue : Nat) (w : Weir) (s : State) : State :=
  let s := { s with weir := w }
  setFlow f (s.modHop i fun h => { h with
    mode := .bound, stream := some n, cls := f.cls, rank := f.rank, slots := slots, slotBytes := slotBytes, queue := queue
    units := f.units })

/-- The pool units that no flow and no commit holds (R383, R395). -/
def freeUnits (w : Weir) : Nat := poolUnits w - usedUnits (heldFlows w)

/-- HOPPER_BIND of a stream (R319, R320, R336, R343). -/
def hopperBindTo (s : State) (h : Hamper) (i : Fin 16) (n : Fin 32) : Verdict :=
  let p := h.payload
  let cls := fld p 2 1
  let rank := fld p 3 1
  let slots := fld p 4 2
  let bytes := fld p 8 4
  let owned := (fin? 32 (fld p 6 1)).any fun q => s.plan.queues[q] == h.fn
  if s.weir.store = .unavailable then .refuse stUnitOff []
  else if ¬ (s.streams[n]).isOpen then wrongState
  else if h.tail 24 || !(cls == 1 || cls == 2) || rank > 31 || (rank != 0 && cls != 1) || slots < 2 || slots > 2048 ||
      !owned || !zeros p 7 1 || bytes % 64 != 0 || bytes == 0 || bytes > 0x10000000 || !zeros p 12 12 then badArg
  else
    let f := bindFlow s i h.fn (if cls = 1 then .p else .b) rank slots bytes n
    match dynAlloc 2 i stageKib s.weir with
    | none => noResource
    | some w =>
      if freeUnits s.weir < f.units then noResource
      else match admission s.weir [f] with
        | some e => .refuse stRefusedAdmission e
        | none => .ok (bindHopper i n f slots bytes (fld p 6 1) w s)
          (record [(8, 0x200000 * f.units), (4, f.demand), (4, 0)])

/-- HOPPER_BIND (R319, R339, R343). -/
def hopperBindBody (s : State) (h : Hamper) : Verdict :=
  let p := h.payload
  match fin? 16 (fld p 0 1) with
  | none => badArg
  | some i =>
    if s.plan.hoppers[i] ≠ h.fn then notOwner
    else if fld p 1 1 = 0xFF then
      if (s.hoppers[i]).mode ≠ .bound then wrongState
      else if h.tail 24 || !zeros p 7 1 || !zeros p 12 12 then badArg
      else .ok (hopFree i s) (List.replicate 16 0)
    else match fin? 32 (fld p 1 1) with
      | none => if (s.hoppers[i]).mode ≠ .unbound then wrongState else badArg
      | some n =>
        if s.plan.streams[n] ≠ h.fn then notOwner
        else if (s.hoppers[i]).mode ≠ .unbound then wrongState
        else hopperBindTo s h i n

/-- An unbind that is refused reaches a PENDING hopper: it cancels the arm (R323). -/
def unbindRefused (s : State) (r : Req) : Option (Fin 16) :=
  match fetch s r with
  | some h =>
    if h.op = 0x0501 ∧ fld h.payload 1 1 = 0xFF then
      (match judge s h 0 false hopperBindBody with
        | .refuse st _ => if st = stWrongState then
            (fin? 16 (fld h.payload 0 1)).filter fun i => (s.hoppers[i]).mode == .pending
          else none
        | _ => none)
    else none
  | none => none

/-- HOPPER_BIND (R319). -/
def execHopperBind (dt : Nat) (r : Req) (s : State) : Answer :=
  let s := advance dt s
  let t := serve r 0x0501 0 false hopperBindBody s
  .next (match unbindRefused s r with
    | some i => cancelArm i t
    | none => t)

/-- HOPPER_ARM (R320, R322, R343). -/
def hopperArmBody (s : State) (h : Hamper) : Verdict :=
  let p := h.payload
  match fin? 16 (fld p 0 1) with
  | none => badArg
  | some i =>
    let x := s.hoppers[i]
    let auto := bit (fld p 1 1) 0
    let pre := fld p 2 2
    let post := fld p 4 2
    let mask := BitVec.ofNat 128 (fld p 8 16)
    let a := bufferAt p 0x28
    let b := bufferAt p 0x38
    let n := pre + post
    let legal : Bool := match x.mode with
      | .bound | .captured | .stopped => x.copy.isNone
      | _ => false
    let cfg := match x.stream with
      | some k => (s.streams[k]).cfg
      | none => StreamCfg.reset
    if s.plan.hoppers[i] ≠ h.fn then notOwner
    else if !legal then wrongState
    else if x.disarming.isSome then .refuse stUnitOff []
    else if h.tail 80 || fld p 1 1 > 3 || pre == 0 || pre > 1024 || post > 1024 || !zeros p 6 2 || x.slots < pre + 1 ||
        (!auto && x.slots < n) || !onlyCodes mask triggerCodes || !zeros p 0x21 7 || !zeros p 0x48 8 || a.reserved || b.reserved ||
        x.slotBytes < frameBytes cfg then badArg
    else if auto && (!((fin? 64 (fld p 0x20 1)).any fun c => chanFn s c == h.fn) || bufferBad s h.fn a ||
        bufferBad s h.fn b || a.length < n * x.slotBytes || b.length < 64 * (n + 1)) then badArg
    else .ok (s.modHop i fun x => { x with
      mode := .pending, autoCopy := auto, half := bit (fld p 1 1) 1, preDepth := pre, postCount := post, trigMask := mask
      tslMask := BitVec.ofNat 64 (fld p 0x18 8), channel := fld p 0x20 1, bufPayload := a.addr, bufPayloadMill := a.millpond
      bufTags := b.addr, bufTagsMill := b.millpond, entries := [], gone := 0, partialSeq := none, prevSeq := none
      guardOwed := false, event := 0, code := 0xFF, stamp := Held.zero, trigFlags := 0, preShort := false, aborted := false
      quiet := false, endAt := none, snap := none, copied := 0 }) []

/-- HOPPER_ARM (R322). -/
def execHopperArm (dt : Nat) (r : Req) (s : State) : Answer :=
  .next (serve r 0x0502 0 false hopperArmBody (advance dt s))

/-- HOPPER_DISARM (R338, R343). -/
def hopperDisarmBody (s : State) (h : Hamper) : Verdict :=
  let p := h.payload
  match fin? 16 (fld p 0 1) with
  | none => badArg
  | some i =>
    if s.plan.hoppers[i] ≠ h.fn then notOwner
    else if (s.hoppers[i]).mode = .unbound then wrongState
    else if h.tail 4 || fld p 1 1 > 1 || !zeros p 2 2 then badArg
    else .ok (hopDisarm i (fld p 1 1) s) []

/-- HOPPER_DISARM (R338). -/
def execHopperDisarm (dt : Nat) (r : Req) (s : State) : Answer :=
  .next (serve r 0x0503 0 false hopperDisarmBody (advance dt s))

/-- The disarm completes (R338): a stopped copy has moved a free number of the entries that were ready (log entry 15). -/
def disarmQuiet (i : Fin 16) (s : State) : State :=
  match (s.hoppers[i]).disarming with
  | none => s
  | some m => disarmNow i m (if m = 1 then copyProgress i s else s)

/-- HOPPER_DISARM_QUIET (R338). -/
def execHopperDisarmQuiet (dt : Nat) (i : Fin 16) (s : State) : Answer := .next (sweepWaits (disarmQuiet i (advance dt s)))

/-- HOPPER_TRIGGER (R324 to R326, R343): one event for every hopper of the mask that arms code 0x42. -/
def hopperTriggerBody (s : State) (h : Hamper) : Verdict :=
  let p := h.payload
  let mask := fld p 0 2
  if h.tail 4 || !zeros p 2 2 || mask == 0 || (allFin 16).any (fun i => bit mask i && s.plan.hoppers[i] != h.fn) then badArg
  else
    let (starts, t) := hopTriggerMask (fun i => bit mask i && hopMask s 0x42 i) 0x42 (holdNow s) 0 s
    let event := if starts.isEmpty then 0 else t.hopEvent
    .ok (slotBump 6 0x42 t) (record [(8, (nowNs s).toNat), (2, event), (2, bitsOf fun i => starts.contains i), (4, 0)])

/-- HOPPER_TRIGGER (R324). -/
def execHopperTrigger (dt : Nat) (r : Req) (s : State) : Answer :=
  .next (serve r 0x0504 0 false hopperTriggerBody (advance dt s))

/-- The code of a hopper's state (R318). -/
def HopMode.code : HopMode → Nat
  | .unbound => 0
  | .bound => 1
  | .pending => 2
  | .armed => 3
  | .triggered => 4
  | .captured => 5
  | .stopped => 6

/-- HOPPER_STATUS (R343). -/
def hopperStatusBody (s : State) (h : Hamper) : Verdict :=
  match fin? 16 (fld h.payload 0 1) with
  | none => badArg
  | some i =>
    let x := s.hoppers[i]
    let bound := x.mode != .unbound
    if s.plan.hoppers[i] ≠ h.fn then notOwner
    else if h.tail 4 || !zeros h.payload 1 3 then badArg
    else .ok s (record [(1, x.mode.code),
      (1, b2n x.copy.isSome + 2 * b2n x.overflow + 4 * b2n x.preShort + 8 * b2n x.autoCopy),
      (1, (x.stream.map Fin.val).getD 0xFF), (1, if bound then (if x.cls = .p then 1 else 2) else 0), (2, x.slots),
      (2, x.preDepth), (2, x.postCount), (2, x.entries.length), (2, preHeld s x), (2, postHeld s x), (2, x.copied), (2, 0),
      (2, x.event), (1, x.code), (1, 0), (8, if x.code = 0xFF then 0 else heldNs s x.stamp), (4, x.slotBytes),
      (4, x.ignored.toNat), (8, 0x200000 * x.units)])

/-- HOPPER_STATUS (R343). -/
def execHopperStatus (dt : Nat) (r : Req) (s : State) : Answer :=
  .next (serve r 0x0505 0 false hopperStatusBody (advance dt s))

/-- HOPPER_COPYOUT (R332, R333, R343). -/
def hopperCopyoutBody (s : State) (h : Hamper) : Verdict :=
  let p := h.payload
  match fin? 16 (fld p 0 1) with
  | none => badArg
  | some i =>
    let x := s.hoppers[i]
    let first := fld p 2 2
    let count := fld p 4 2
    let a := bufferAt p 16
    let b := bufferAt p 32
    let total := captureTotal s x
    let n := if count = 0 then total - first else count
    let legal : Bool := match x.mode with
      | .triggered | .captured | .stopped => x.copy.isNone
      | _ => false
    let chan := (fin? 64 (fld p 6 1)).filter fun c => chanFn s c == h.fn
    if s.plan.hoppers[i] ≠ h.fn then notOwner
    else if !legal || chan.any (fun c => !chanFree s h.fn c) then wrongState
    else if h.tail 48 || fld p 1 1 > 1 || !zeros p 7 9 || total < first + count || bufferBad s h.fn a ||
        bufferBad s h.fn b || a.length < n * x.slotBytes || b.length < 64 * (n + 1) then badArg
    else match chan with
      | none => badArg
      | some c => .ok (borrow c (s.modHop i fun x => { x with
          copied := 0
          copy := some ⟨first, count, c, a.addr, a.millpond, b.addr, b.millpond, bit (fld p 1 1) 0, 0, 0, false⟩ })) []

/-- HOPPER_COPYOUT (R332). -/
def execHopperCopyout (dt : Nat) (r : Req) (s : State) : Answer :=
  .next (serve r 0x0506 0 false hopperCopyoutBody (advance dt s))

/-- A copy fails (R341, R397, R433): the entries are kept and the channel halts. Which access failed is free: a read-back
(cause COMPLETER or TIMEOUT), or a read of the ring (ECC) (log entry 15). -/
def copyFails (i : Fin 16) (s : State) : State :=
  match (s.hoppers[i]).copy with
  | none => s
  | some _ =>
    let s := copyProgress i s
    match (s.hoppers[i]).copy with
    | none => s
    | some c =>
      let fn := s.plan.hoppers[i]
      let (v, s) := draw s
      let (at_, s) := draw s
      let s := deliver fn c.tagsMill c.tags (eventHeader s i s.hoppers[i] c) s
      let ecc := v % 3 == 2
      let s := if ecc then uncorrectable at_ 0x6102 i s else s
      let s := haltBorrow c.channel (1 + v % 3) false (if ecc then 2 else 0) at_ (s.modHop i fun h => { h with copy := none })
      post 0x6404 fn i (hopEntry i stBusError fFull c.bytes s)

/-- Sluice has let a copy move its bytes since it borrowed its channel (R426, R433). -/
def copyInShare (i : Fin 16) (s : State) : Bool :=
  match (s.hoppers[i]).copy with
  | some c => sluicePermits s.chans[c.channel] s.elapsed c.bytes c.bytes
  | none => true

/-- A copy ends (R332 to R335, R341), no sooner than its channel's share and LPDDR5X allow (R472). -/
def copyFinishes (i : Fin 16) (failed : Bool) (corrected : Nat) (s : State) : State :=
  if (s.hoppers[i]).copy.isNone then s
  else
    let was := s
    let s := correctedReads .lpddr corrected s
    if failed then copyFails i s
    else if copyCanEnd s.hoppers[i] then
      let s := copyEntries i (copyReady s.hoppers[i]) s
      if copyInShare i s ∧ (copyReady was.hoppers[i] = 0 ∨ was.weir.store = .available) then copyEnd i stOk s else was
    else s

/-- HOPPER_COPY_END (R334). -/
def execHopperCopyEnd (dt : Nat) (i : Fin 16) (failed : Bool) (corrected : Nat) (s : State) : Answer :=
  .next (copyFinishes i failed corrected (advance dt s))

/-- A full read of HOP_IGNORED (R342). -/
def readIgnored (i : Fin 16) (s : State) : Word × State :=
  ((s.hoppers[i]).ignored, s.modHop i fun h => { h with ignored := 0 })

/-- HOP_IGNORED_READ (R342). -/
def execHopIgnoredRead (dt : Nat) (fn : Fn) (i : Fin 16) (s : State) : Answer :=
  .next (readRegister fn (0x8408 + 0x20 * i) (readIgnored i) (advance dt s))

/-- The hopper window without a read effect (R342). -/
def hopRegister (s : State) (off : Nat) : Option Word :=
  if off < 0x8400 ∨ 0x8600 ≤ off then none
  else (entryAt 16 0x20 off).bind fun i =>
    let h := s.hoppers[i]
    match off % 0x20 with
    | 0x00 => some (packed [(16, h.lastEvent), (9, b2n h.quiet), (8, b2n h.overflow), (4, b2n h.preShort),
        (3, b2n h.copy.isSome), (0, h.mode.code)])
    | 0x04 => some (packed [(16, h.copied), (0, h.entries.length)])
    | 0x08 => some h.ignored
    | _ => none

end Sys2Proof.Machine
end

