-- ==== Sys2Proof/Machine/PrepCmds.lean ====
section
/-! DEFINITION. Meanings of the pyramid and decoder hampers, their engines' progress, and the preparation registers (R344
to R365, R374, R375, R468). -/

namespace Sys2Proof.Machine

/-! ### PYRAMID_SUBMIT (R355, R356, R375) -/

/-- The fields of a request that every kind shares. -/
def pyrDescOf (p : List Byte) : PyrDesc where
  levels := fld p 2 1
  write0 := bit (fld p 3 1) 0
  kind := fld p 8 1
  pattern := fld p 9 1
  output := fld p 10 1
  dataType := fld p 11 1
  w := fld p 0x10 2
  h := fld p 0x12 2
  srcPitch := fld p 0x14 4
  unpacked := bit (fld p 3 1) 2

/-- The shared fields that R350, R352 and the ranges of R375 refuse. -/
def pyrDescBad (d : PyrDesc) : Bool :=
  decide (3 < d.pattern) || decide (2 < d.output) || formatBad d || geometryBad d

/-- The bytes of an input line of a buffer job (R355). -/
def srcLine (d : PyrDesc) : Nat := if d.unpacked then 2 * d.w else (d.w * bitsPerPixel d.dataType + 7) / 8

/-- A BUFFER request that R355 and R375 refuse. -/
def pyrBufferBad (s : State) (h : Hamper) (d : PyrDesc) : Bool :=
  let p := h.payload
  let src := bufferAt p 0x18
  let dst := bufferAt p 0x28
  h.tail 64 || bit (fld p 3 1) 1 || decide (7 < fld p 3 1) || !zeros p 0x0F 1 || !zeros p 0x3A 2 || pyrDescBad d ||
    (d.unpacked && !unpackable d.dataType) || decide (d.srcPitch < srcLine d) || bufferBad s h.fn src ||
    bufferBad s h.fn dst || decide (src.length < (d.h - 1) * d.srcPitch + srcLine d) || decide (dst.length < pyrTotal d)

/-- PYRAMID_SUBMIT of kind BUFFER (R355, R360). -/
def pyrBufferBody (s : State) (h : Hamper) (q : Fin 32) : Verdict :=
  let p := h.payload
  let d := pyrDescOf p
  let src := bufferAt p 0x18
  let dst := bufferAt p 0x28
  if pyrBufferBad s h d then badArg
  else if 256 ≤ s.prep.jobs.length ∨ ¬ canSubmit s q then noResource
  else
    let j : PyrJob :=
      { job := BitVec.ofNat 32 (fld p 4 4), fn := h.fn, queue := q, stream := none, desc := d
        source := if src.millpond then some src.addr else none
        space := b2n dst.millpond, addr := dst.addr, running := false, stopping := false, pass := 1, fed := none
        partner := false, written := 0, ended := false }
    .ok (startBuffer (submitJob q kPyramid 0 j.job (s.modPrep fun e => { e with jobs := e.jobs ++ [j] })))
      (record [(4, fld p 4 4), (4, pyrTotal d), (4, 0), (4, 0), (8, 0)])

/-- A BIND request that R356, R359 and R375 refuse with BAD_ARGUMENT. -/
def pyrBindBad (s : State) (h : Hamper) (d : PyrDesc) : Bool :=
  let p := h.payload
  let lp := bit (fld p 3 1) 1
  let cls := fld p 0x0D 1
  let slots := fld p 0x38 2
  let bytes := fld p 0x3C 4
  let dst := bufferAt p 0x28
  h.tail 64 || decide (3 < fld p 3 1) || !zeros p 0x0F 1 || !zeros p 0x3A 2 || !zeros p 4 4 || fld p 0x0B 1 != 0 ||
    !(cls == 1 || cls == 2) || decide (31 < fld p 0x0E 1) || (fld p 0x0E 1 != 0 && cls != 1) ||
    !(([2, 4, 8, 16, 32, 64, 128, 256, 512, 1024] : List Nat).contains slots) || bytes % 64 != 0 || decide (bytes < pyrTotal d) ||
    pyrDescBad d || (bufferAt p 0x18).reserved || dst.reserved || (!lp && (bufferBad s h.fn dst || decide (dst.length < slots * bytes)))

/-- The sum of the bindings' demands (R359). -/
def bindingsLoad (s : State) : Nat :=
  (s.prep.bindings.map fun b => bindingLoad b.desc (s.streams[b.stream]).cfg.maxFps).sum

/-- PYRAMID_SUBMIT of kind BIND (R356, R359). -/
def pyrBindBody (s : State) (h : Hamper) (q : Fin 32) (n : Fin 32) : Verdict :=
  let p := h.payload
  let c := (s.streams[n]).cfg
  let lp := bit (fld p 3 1) 1
  let d := bindDesc (pyrDescOf p) c
  let slots := fld p 0x38 2
  let bytes := fld p 0x3C 4
  let dst := bufferAt p 0x28
  if s.plan.streams[n] ≠ h.fn then notOwner
  else if ¬ (s.streams[n]).isOpen ∨ s.prep.bindings.any (fun b => b.stream = n) then wrongState
  else if lp ∧ s.weir.store = .unavailable then .refuse stUnitOff []
  else if pyrBindBad s h d then badArg
  else
    let b : Binding :=
      { stream := n, fn := h.fn, queue := q, desc := d, cls := if fld p 0x0D 1 = 1 then .p else .b, rank := fld p 0x0E 1
        space := if lp then 2 else b2n dst.millpond, addr := dst.addr, slots := slots, slotBytes := bytes
        units := if lp then units2M (slots * bytes) else 0, owed := false }
    let f := bindingFlow b c.maxFps
    if pyramidCapacity < bindingsLoad s + bindingLoad d c.maxFps then noResource
    else match admission s.weir [f] with
      | some e => .refuse stRefusedAdmission e
      | none =>
        let s := setFlow f s
        let base := match s.weir.flows.find? fun g => g.kind = 3 ∧ g.index = n.val with
          | some g => 0x200000 * g.base
          | none => 0
        let b := if lp then { b with addr := base } else b
        .ok (s.modPrep fun e => { e with bindings := e.bindings ++ [b] })
          (record [(4, 0), (4, pyrTotal d), (4, (bindingLoad d c.maxFps + 99999) / 100000), (4, 0),
            (8, if lp then base else 0)])

/-- PYRAMID_SUBMIT (R355, R356, R375). -/
def pyramidSubmitBody (s : State) (h : Hamper) : Verdict :=
  let p := h.payload
  match fin? 32 (fld p 1 1) with
  | none => badArg
  | some q =>
    if s.plan.queues[q] ≠ h.fn then notOwner
    else if fld p 0 1 = 0 then pyrBufferBody s h q
    else if fld p 0 1 = 1 then
      (match fin? 32 (fld p 0x0C 1) with
      | none => badArg
      | some n => pyrBindBody s h q n)
    else badArg

/-- PYRAMID_SUBMIT (R356). -/
def execPyramidSubmit (dt : Nat) (r : Req) (s : State) : Answer :=
  .next (serve r 0x0601 0 false pyramidSubmitBody (advance dt s))

/-! ### PYRAMID_CANCEL (R346 to R348, R375) -/

/-- The reply of a cancel: 0 CANCELLED, 1 STOPPING, 2 NOT_FOUND. -/
def cancelReply (result : Nat) : List Byte := record [(1, result), (3, 0)]

/-- A single pyramid job is cancelled (R346, R347). -/
def cancelPyrJob (fn : Fn) (q : Fin 32) (job : Word) (s : State) : Nat × State :=
  match s.prep.jobs.findIdx? fun j => j.fn = fn ∧ j.queue = q ∧ j.job = job with
  | none => (2, s)
  | some i =>
    match s.prep.jobs[i]? with
    | some j =>
      if j.running then (1, modJob i (fun j => { j with stopping := true }) s)
      else (0, pyrEnd i stCancelled fNeverStarted 0 s)
    | none => (2, s)

/-- PYRAMID_CANCEL (R375). -/
def pyramidCancelBody (s : State) (h : Hamper) : Verdict :=
  let p := h.payload
  match fin? 32 (fld p 1 1) with
  | none => badArg
  | some q =>
    if s.plan.queues[q] ≠ h.fn then notOwner
    else if fld p 0 1 = 0 then
      (if h.tail 8 || !zeros p 2 2 then badArg
      else
        let r := cancelPyrJob h.fn q (BitVec.ofNat 32 (fld p 4 4)) s
        .ok r.2 (cancelReply r.1))
    else if fld p 0 1 = 1 then
      (match fin? 32 (fld p 2 1) with
      | none => badArg
      | some n =>
        if s.plan.streams[n] ≠ h.fn then notOwner
        else if h.tail 8 || !zeros p 3 1 then badArg
        else if s.prep.bindings.any (fun b => b.stream = n) then
          .ok (endBinding n s) (cancelReply (b2n (s.prep.jobs.any fun j => j.stream == some n)))
        else .ok s (cancelReply 2))
    else badArg

/-- PYRAMID_CANCEL (R375). -/
def execPyramidCancel (dt : Nat) (r : Req) (s : State) : Answer :=
  .next (serve r 0x0602 0 false pyramidCancelBody (advance dt s))

/-! ### The pyramid engine's passes (R354 to R357) -/

/-- The job whose pass ends next: a frame job whose frame has ended goes before the buffer job (R355). -/
def passJob (s : State) : Option Nat :=
  (s.prep.jobs.findIdx? fun j => j.running && j.stream.isSome && j.fed.isSome) <|>
    (s.prep.jobs.findIdx? fun j => j.running && j.stream.isNone)

/-- An engine read or write of a job fails (R66, R373, R379). -/
def pyrBusError (i : Nat) (s : State) : State :=
  match s.prep.jobs[i]? with
  | none => s
  | some j =>
    let s := post 0xB102 j.fn (match j.stream with
      | some n => n.val
      | none => wide) s
    pyrEnd i stBusError 0 j.written s

/-- The input lines of a pass 1 (R355, R357): the frame's lines, or the source's, from Millpond or as the host gave them. -/
def passInput (j : PyrJob) (input : Fetched) (s : State) : Option (List (List Byte)) :=
  match j.fed with
  | some lines => some lines
  | none =>
    let d := j.desc
    let cut (bytes : List Byte) : List (List Byte) :=
      (List.range d.h).map fun y => slice bytes (y * d.srcPitch) (srcLine d)
    match j.source, input with
    | some a, .data _ => some (cut (millRead s a ((d.h - 1) * d.srcPitch + srcLine d)))
    | none, .data bytes => if (s.fns[j.fn]).busMaster then some (cut bytes) else none
    | _, .failed => none

/-- The level that a later pass reads back (R354). -/
def passLevel (j : PyrJob) (input : Fetched) (s : State) : Option (List (List (List Nat))) :=
  let k := j.pass - 1
  let at_ := j.addr + levelOffset j.desc k
  let n := levelBytes j.desc k
  match input with
  | .failed => none
  | .data bytes =>
    if j.space = 2 then some (levelIn j.desc k (lpRead s at_ n))
    else if j.space = 1 then some (levelIn j.desc k (millRead s at_ n))
    else if (s.fns[j.fn]).busMaster then some (levelIn j.desc k bytes) else none

/-- A pass has ended: the job stops, goes on to its next pass, or is complete (R345, R347, R354). -/
def passDone (i : Nat) (written : Nat) (s : State) : State :=
  match s.prep.jobs[i]? with
  | none => s
  | some j =>
    let n := j.written + written
    if j.stopping then pyrEnd i stAborted 0 n s
    else if j.desc.levels ≤ j.pass + 1 then pyrEnd i (if j.partner then stPartnerFault else stOk) 0 n s
    else (modJob i (fun j => { j with pass := j.pass + 1, written := n }) s).modPrep fun p => { p with pyrAt := s.elapsed }

/-- The store that a pass reads, none for host memory and a stream's lines, and the address it reads from (R354, R355). -/
def passStore (j : PyrJob) : Option Store × Nat :=
  if j.pass = 1 then (match j.fed, j.source with
    | none, some a => (some .millpond, a)
    | _, _ => (none, 0))
  else (if j.space = 2 then some .lpddr else if j.space = 1 then some .millpond else none,
    j.addr + levelOffset j.desc (j.pass - 1))

/-- A pyramid pass ends (R354); an uncorrectable word of what it reads is a bus error (R397, R399). -/
def pyramidPass (input : Fetched) (ecc : MemErrors) (s : State) : State :=
  match passJob s with
  | none => s
  | some i =>
    match s.prep.jobs[i]? with
    | none => s
    | some j =>
      let s := readErrors (passStore j).1 (passStore j).2 wide ecc s
      if (passStore j).1.isSome ∧ ecc.uncorrectable.isSome then pyrBusError i s
      else if j.pass = 1 then
        match passInput j input s with
        | some lines =>
          let r := passOne j (level0 j.desc lines) (levelSize j.desc 0).2 s
          passDone i r.1 r.2
        | none => pyrBusError i s
      else
        match passLevel j input s with
        | some rows =>
          let z := levelSize j.desc (j.pass - 1)
          let out := levelOut j.desc j.pass (nextLevel z.1 z.2 rows)
          passDone i out.length (pyrWrite j (levelOffset j.desc j.pass) out s)
        | none => pyrBusError i s

/-- PYRAMID_PASS_END (R354). -/
def execPyramidPassEnd (dt : Nat) (input : Fetched) (ecc : MemErrors) (s : State) : Answer :=
  .next (pyramidPass input ecc (advance dt s))

/-- A full read of PYR_DROPPED (R374). -/
def readPyrDropped (fn : Fn) (s : State) : Word × State :=
  (s.prep.dropped[fn], s.modPrep fun p => { p with dropped := vmod p.dropped fn fun _ => 0 })

/-- PYR_DROPPED_READ (R374). -/
def execPyrDroppedRead (dt : Nat) (fn : Fn) (s : State) : Answer :=
  .next (readRegister fn 0x8604 (readPyrDropped fn) (advance dt s))

/-! ### The record decoder (R361 to R365) -/

/-- The next queued decode job starts (R364, R365). -/
def startDecode (s : State) : State :=
  if s.prep.decRun.isSome then s
  else match s.prep.decQueue with
    | j :: rest => s.modPrep fun p => { p with decRun := some j, decQueue := rest, decAt := s.elapsed }
    | [] => s

/-- DECODE_SUBMIT (R365, R375). -/
def decodeSubmitBody (s : State) (h : Hamper) : Verdict :=
  let p := h.payload
  let a := bufferAt p 8
  let b := bufferAt p 0x18
  match fin? 32 (fld p 0 1) with
  | none => badArg
  | some q =>
    if s.plan.queues[q] ≠ h.fn then notOwner
    else if h.tail 40 || !zeros p 1 3 || bufferBad s h.fn a || bufferBad s h.fn b || decide (0x1000000 < a.length) ||
        decide (b.length < 32) then badArg
    else if 64 ≤ s.prep.decQueue.length ∨ ¬ canSubmit s q then noResource
    else
      let j : DecJob := ⟨BitVec.ofNat 32 (fld p 4 4), h.fn, q, (a.addr, a.millpond, a.length),
        (b.addr, b.millpond, b.length), false⟩
      .ok (startDecode (submitJob q kDecoder 0 j.job (s.modPrep fun e => { e with decQueue := e.decQueue ++ [j] }))) []

/-- DECODE_SUBMIT (R365). -/
def execDecodeSubmit (dt : Nat) (r : Req) (s : State) : Answer :=
  .next (serve r 0x0610 0 false decodeSubmitBody (advance dt s))

/-- DECODE_CANCEL (R346, R347, R375). -/
def decodeCancelBody (s : State) (h : Hamper) : Verdict :=
  let p := h.payload
  let job : Word := BitVec.ofNat 32 (fld p 4 4)
  match fin? 32 (fld p 1 1) with
  | none => badArg
  | some q =>
    let mine (j : DecJob) : Bool := j.fn == h.fn && j.queue == q && j.job == job
    if s.plan.queues[q] ≠ h.fn then notOwner
    else if h.tail 8 || fld p 0 1 != 0 || !zeros p 2 2 then badArg
    else if s.prep.decRun.any mine then
      .ok (s.modPrep fun e => { e with decRun := e.decRun.map fun j => { j with stopping := true } }) (cancelReply 1)
    else match s.prep.decQueue.findIdx? mine with
      | some i => .ok (finishJob q ⟨kDecoder, 0, job, stCancelled, fNeverStarted, 0⟩
          (s.modPrep fun e => { e with decQueue := e.decQueue.eraseIdx i })) (cancelReply 0)
      | none => .ok s (cancelReply 2)

/-- DECODE_CANCEL (R375). -/
def execDecodeCancel (dt : Nat) (r : Req) (s : State) : Answer :=
  .next (serve r 0x0611 0 false decodeCancelBody (advance dt s))

/-- What a decode that a cancel stops after `k` top-level items has given (R347, R362). -/
def cborCut (r : CborResult) (k : Nat) : CborResult :=
  match (r.items.filter fun i => i.depth = 0)[k]? with
  | some i =>
    let kept := r.items.takeWhile fun x => x.off != i.off
    ⟨0x10, i.off, kept, (kept.map CborItem.depth).foldl max 0, k, i.off⟩
  | none => { r with error := 0x10, errorOff := r.consumed }

/-- The bytes a decode job reads (R355, R365): Millpond's, or what the host gave while Bus Master Enable is set. -/
def decInput (j : DecJob) (input : Fetched) (s : State) : Option (List Byte) :=
  match input with
  | .failed => none
  | .data bytes =>
    if j.input.2.1 then some (millRead s j.input.1 j.input.2.2)
    else if (s.fns[j.fn]).busMaster then some (padTo j.input.2.2 (bytes.take j.input.2.2)) else none

/-- The running decode job ends with an entry, and the next starts (R363, R364). -/
def decEnd (j : DecJob) (status count : Nat) (s : State) : State :=
  startDecode (finishJob j.queue ⟨kDecoder, 0, j.job, status, 0, BitVec.ofNat 32 count⟩
    (s.modPrep fun p => { p with decRun := none }))

/-- A read or write of the decoder fails at a free offset of the input (R345, R373). -/
def decBusError (j : DecJob) (s : State) : State :=
  let (v, s) := draw s
  decEnd j stBusError (v % (j.input.2.2 + 1)) (post 0xB202 j.fn wide s)

/-- The running decode job ends (R362, R363): a stopped one after a free number of its top-level items. -/
def decodeJobEnds (input : Fetched) (ecc : MemErrors) (s : State) : State :=
  match s.prep.decRun with
  | none => s
  | some j =>
    let st := if j.input.2.1 then some Store.millpond else none
    let s := readErrors st j.input.1 wide ecc s
    match decInput j (if st.isSome ∧ ecc.uncorrectable.isSome then .failed else input) s with
    | none => decBusError j s
    | some bytes =>
      let full := cborDecode ((j.output.2.2 - 32) / 16) bytes
      let (r, s) := if j.stopping then
          (let d := draw s
           (cborCut full (d.1 % (full.topItems + 1)), d.2))
        else (full, s)
      let s := deliver j.fn j.output.2.1 j.output.1 (cborOutput r) s
      if r.error = 0 then decEnd j stOk r.items.length s
      else decEnd j stAborted r.errorOff (post 0xB201 j.fn wide s)

/-- DECODE_JOB_END (R363). -/
def execDecodeJobEnd (dt : Nat) (input : Fetched) (ecc : MemErrors) (s : State) : Answer :=
  .next (decodeJobEnds input ecc (advance dt s))

/-! ### Quiet notices and engine resets (R348, R468) -/

/-- A job of an ended binding is still in flight. -/
def endedBusy (s : State) (e : EndedWork) : Bool :=
  e.kind == kPyramid && s.prep.jobs.any fun j => j.ended && j.stream.any fun n => n.val == e.index

/-- The last job of an ended binding or route has ended (R348). -/
def prepQuiet (fn : Fn) (s : State) : State :=
  match s.prep.ended.findIdx? fun e => e.fn == fn && !endedBusy s e with
  | none => s
  | some i =>
    match s.prep.ended[i]? with
    | none => s
    | some e => notice fn nQuiet (BitVec.ofNat 32 (256 * e.kind + e.index)) stOk (BitVec.ofNat 32 e.cancelled)
        (s.modPrep fun p => { p with ended := p.ended.eraseIdx i })

/-- PREP_QUIET (R348). -/
def execPrepQuiet (dt : Nat) (fn : Fn) (s : State) : Answer := .next (prepQuiet fn (advance dt s))

/-- Every pyramid job ends with UNIT_RESET; bindings are kept (R468). -/
def pyramidReset (s : State) : State :=
  let jobs := s.prep.jobs
  let s := s.modPrep fun p => { p with jobs := [] }
  let s := jobs.foldl (fun s j => finishJob j.queue ⟨kPyramid, 0, j.job, stUnitReset, 0, 0⟩ s) s
  resetWaits 7 s

/-- Every decode job ends with UNIT_RESET, and the hampers whose records the decoder was reading with it (R92, R468). -/
def decoderReset (s : State) : State :=
  let jobs := s.prep.decRun.toList ++ s.prep.decQueue
  let s := s.modPrep fun p => { p with decRun := none, decQueue := [] }
  let s := jobs.foldl (fun s j => finishJob j.queue ⟨kDecoder, 0, j.job, stUnitReset, 0, 0⟩ s) s
  let open_ := s.accepted.filter fun a => [0x0220, 0x0404, 0x0B04].contains a.op
  open_.foldl (fun s a => hamperDone a.op a.index stUnitReset 0 s) s

/-- The hop in progress of an input and its job end (R367, R468). -/
def dropHop (i : Fin 2) (status : Nat) (s : State) : State :=
  let a := s.audio[i]
  let hop : List Word := (match a.ready with
      | some r => if r.routed then [r.hop] else []
      | none => []) ++ (if a.submitted then [a.hops] else [])
  let s := { s with audio := vmod s.audio i fun a => { a with
    frames := [], before := [], hopStart := none, hopFs := none, submitted := false, ready := none } }
  match a.route with
  | some r => hop.foldl (fun s k => finishJob r.queue ⟨kAudio, i, k, status, 0, 0⟩ s) s
  | none => s

/-- The audio engine is reset: the hops it owed end with UNIT_RESET; routes are kept (R468). -/
def audioReset (s : State) : State := (allFin 2).foldl (fun s i => dropHop i stUnitReset s) s

/-- A started job of an engine made no progress for 100 ms (R468). -/
def engineStall (e : StallEngine) (s : State) : State :=
  let old (at_ : Nat) : Bool := since s (some at_) (ticksMs 100)
  match e with
  | .pyramid => if s.prep.jobs.any PyrJob.running && old s.prep.pyrAt then pyramidReset (post 0xB105 wide wide s) else s
  | .decoder =>
    if (s.prep.decRun.isSome || s.accepted.any fun a => [0x0220, 0x0404, 0x0B04].contains a.op) && old s.prep.decAt then
      decoderReset (post 0xB203 wide wide s)
    else s
  | .audio =>
    if (allFin 2).any (fun i => (s.audio[i]).mode == .running && (s.audio[i]).hopStart.isSome) && old s.prep.audAt then
      audioReset (post 0xB306 wide wide s)
    else s

/-- ENGINE_STALL_RESET (R468). -/
def execEngineStallReset (dt : Nat) (e : StallEngine) (s : State) : Answer := .next (engineStall e (advance dt s))

/-! ### Registers -/

/-- The code of an audio state (R367). -/
def AudMode.code : AudMode → Nat
  | .off => 0
  | .acquire => 1
  | .running => 2
  | .lost => 3

/-- The preparation registers, but for PYR_DROPPED (R374). -/
def prepRegister (s : State) (off : Nat) : Option Word :=
  let a0 := s.audio[(0 : Fin 2)]
  let a1 := s.audio[(1 : Fin 2)]
  match off with
  | 0x8600 => some (packed [(24, b2n s.prep.decRun.isSome), (16, s.prep.decQueue.length), (0, s.prep.jobs.length)])
  | 0x8608 => some (packed [(12, a1.mode.code), (8, a0.mode.code), (1, b2n a1.route.isSome), (0, b2n a0.route.isSome)])
  | 0x860C => some (if a0.hops = 0 then 0 else a0.hops - 1)
  | 0x8610 => some (if a1.hops = 0 then 0 else a1.hops - 1)
  | _ => none

end Sys2Proof.Machine
end

