-- ==== Sys2Proof/Machine/AudioCmds.lean ====
section
/-! DEFINITION. Meanings of the audio feature engine's commands (R366 to R373, R375). -/

namespace Sys2Proof.Machine

/-- Change one audio input. -/
def State.modAudio (s : State) (i : Fin 2) (g : Audio → Audio) : State := { s with audio := vmod s.audio i g }

/-! ### Hops and routes -/

/-- The jobs that an input's route still waits for: a computed hop's and the one in progress (R344). -/
def audioJobs (a : Audio) : List Word :=
  (match a.ready with
    | some r => if r.routed then [r.hop] else []
    | none => []) ++ (if a.submitted then [a.hops] else [])

/-- A route ends (R347, R348): its jobs end ABORTED at once, and a QUIET notice is owed; the hop itself goes on (R370). -/
def endAudioRoute (i : Fin 2) (s : State) : State :=
  let a := s.audio[i]
  match a.route with
  | none => s
  | some r =>
    let s := s.modAudio i fun a => { a with
      route := none, submitted := false, ready := a.ready.map fun x => { x with routed := false } }
    let s := s.modPrep fun p => { p with ended := p.ended ++ [⟨r.fn, kAudio, i, 0⟩] }
    (audioJobs a).foldl (fun s k => finishJob r.queue ⟨kAudio, i, k, stAborted, 0, 0⟩ s) s

/-- The hop in progress is discarded, and its job ends ABORTED (R347, R367). -/
def discardHop (i : Fin 2) (s : State) : State :=
  let a := s.audio[i]
  let s := s.modAudio i fun a => { a with
    frames := [], before := [], hopStart := none, hopFs := none, submitted := false, good := 0, bad := 0, fifo := 0 }
  match a.route with
  | some r => if a.submitted then finishJob r.queue ⟨kAudio, i, a.hops, stAborted, 0, 0⟩ s else s
  | none => s

/-- The open chime windows of an input end MISSED (R476, crossing X27). -/
def chimesMissed (i : Fin 2) (s : State) : State :=
  (allFin 16).foldl (fun s t =>
    match s.guard.templates[t] with
    | some k => if k.input = i.val then chimeMissed t s else s
    | none => s) s

/-- The input is LOST (R367). -/
def audioLost (i : Fin 2) (s : State) : State :=
  (discardHop i s).modAudio i fun a => { a with mode := .lost }

/-! ### AUDIO_CONFIG and AUDIO_ROUTE -/

/-- The settings of an AUDIO_CONFIG request (R375). -/
def audCfgOf (p : List Byte) : AudCfg :=
  ⟨fld p 2 1, fld p 3 1, fld p 4 1, fld p 5 1, fld p 6 1, BitVec.ofNat 8 (fld p 7 1)⟩

/-- Settings that R366 and R375 refuse. -/
def audCfgBad (c : AudCfg) : Bool :=
  decide (1 < c.format) || decide (c.slots < 2) || decide (8 < c.slots) || (c.format == 0 && c.slots != 2) ||
    !(c.slotBits == 16 || c.slotBits == 24 || c.slotBits == 32) || !(c.sampleBits == 16 || c.sampleBits == 24) ||
    decide (c.slotBits < c.sampleBits) || decide (7 < c.edges) || decide (2 ^ c.slots ≤ c.mask.toNat)

/-- AUDIO_CONFIG takes effect (R372). -/
def audioApply (i : Fin 2) (enable : Bool) (c : AudCfg) (s : State) : State :=
  let a := s.audio[i]
  if ¬ enable then
    if a.mode = .off then s.modAudio i fun a => { a with cfg := c, nextMask := c.mask }
    else
      let s := chimesMissed i (discardHop i s)
      (s.modAudio i fun a => { a with mode := .off, cfg := c, nextMask := c.mask }).modPrep fun p =>
        { p with ended := p.ended ++ [⟨0, kAudio, i, 0⟩] }
  else if a.mode ≠ .off ∧ c = { a.cfg with mask := c.mask } then s.modAudio i fun a => { a with nextMask := c.mask }
  else
    let s := if a.mode = .off then s else chimesMissed i (discardHop i s)
    let s := if c = { a.cfg with mask := c.mask } then s else endAudioRoute i s
    s.modAudio i fun a => { a with mode := .acquire, cfg := c, nextMask := c.mask, good := 0, bad := 0, lastFs := none }

/-- AUDIO_CONFIG (R372, R375). -/
def audioConfigBody (s : State) (h : Hamper) : Verdict :=
  let p := h.payload
  match fin? 2 (fld p 0 1) with
  | none => badArg
  | some i =>
    if h.tail 16 || decide (1 < fld p 1 1) || !zeros p 8 8 || audCfgBad (audCfgOf p) then badArg
    else .ok (audioApply i (fld p 1 1 == 1) (audCfgOf p) s) []

/-- AUDIO_CONFIG (R372). -/
def execAudioConfig (dt : Nat) (r : Req) (s : State) : Answer :=
  .next (serve r 0x0620 0 true audioConfigBody (advance dt s))

/-- The reply of AUDIO_ROUTE: the next hop that the route carries (R375). -/
def routeReply (a : Audio) : List Byte :=
  record [(4, (if a.frames.isEmpty then a.hops else a.hops + 1).toNat), (4, 0)]

/-- AUDIO_ROUTE (R371, R375). -/
def audioRouteBody (s : State) (h : Hamper) : Verdict :=
  let p := h.payload
  match fin? 2 (fld p 0 1) with
  | none => badArg
  | some i =>
    let a := s.audio[i]
    let mask : BitVec 8 := BitVec.ofNat 8 (fld p 2 1)
    let slots := fld p 4 4
    let b := bufferAt p 8
    let ours := a.route.all fun r => r.fn == h.fn
    if fld p 1 1 = 0xFF then
      if ¬ ours then wrongState
      else if h.tail 32 || !zeros p 3 1 || !zeros p 0x18 8 || b.reserved then badArg
      else .ok (endAudioRoute i s) (routeReply a)
    else match fin? 32 (fld p 1 1) with
      | none => if ¬ ours then wrongState else badArg
      | some q =>
        if s.plan.queues[q] ≠ h.fn then notOwner
        else if ¬ ours then wrongState
        else if h.tail 32 || !zeros p 3 1 || !zeros p 0x18 8 || mask == 0 || mask &&& ~~~ a.nextMask != 0 ||
            !([16, 32, 64, 128, 256, 512, 1024, 2048, 4096, 8192, 16384, 32768, 65536].contains slots) ||
            bufferBad s h.fn b || decide (b.length < 128 * slots) then badArg
        else .ok ((endAudioRoute i s).modAudio i fun a => { a with route := some ⟨h.fn, q, mask, slots, b.addr, b.millpond⟩ })
          (routeReply a)

/-- AUDIO_ROUTE (R371). -/
def execAudioRoute (dt : Nat) (r : Req) (s : State) : Answer :=
  .next (serve r 0x0621 1 false audioRouteBody (advance dt s))

/-! ### Features (R368, R369) -/

/-- The slots of a mask, ascending. -/
def maskSlots (m : BitVec 8) : List Nat := (List.range 8).filter fun k => m.getLsbD k

/-- The samples of one slot of frames, each normalised to 24 bits. -/
def slotSamples (c : AudCfg) (k : Nat) (frames : List (List Int)) : List Int :=
  frames.map fun f => f.getD k 0 * 2 ^ (24 - c.sampleBits)

/-- A sample is at the most positive or most negative code (R369). -/
def clipped (c : AudCfg) (v : Int) : Bool := v == 2 ^ (c.sampleBits - 1) - 1 || v == -(2 ^ (c.sampleBits - 1))

/-- The record of one slot for a complete hop (R368, R369): the levels of R368 with a free deviation within its tolerance
(log entry 23). -/
def slotRecord (s : State) (a : Audio) (k : Nat) : AudRecord :=
  let hop := slotSamples a.cfg k a.frames.reverse
  let early := slotSamples a.cfg k (a.before.take 32).reverse
  let window := List.replicate (32 - early.length) 0 ++ early ++ hop
  let quiet (xs : List Int) : Bool := xs.all (· == 0)
  let spec := spectrum window
  let span : Int := match a.hopStart, a.hopFs with
    | some x, some y => timeOf s y - timeOf s x
    | _, _ => 2560000000
  { slot := k
    clipped := a.frames.any fun f => clipped a.cfg (f.getD k 0)
    gap := a.gap
    rate := decide (span < 2547200000) || decide (2572800000 < span)
    hop := a.hops
    at_ := a.hopFs.getD Held.zero
    rms := written (quiet hop) (rmsLevel hop) (Config.audioRms hop)
    peak := peakHz spec (Config.audioPeak window)
    bands := (List.range 40).map fun b => written (quiet window) (bandLevel spec b) (Config.audioBand window b) }

/-- The 128 bytes of a record (R369). -/
def audioBytes (s : State) (input : Fin 2) (r : AudRecord) : List Byte :=
  let t := release s r.at_
  record [(1, input), (1, r.slot),
    (1, b2n r.clipped ||| 2 * b2n r.gap ||| 4 * b2n r.rate ||| 8 * b2n t.2), (1, 0), (4, r.hop.toNat), (8, stampNs t.1),
    (1, stampFrac t.1), (1, 0), (2, sval 2 r.rms), (2, r.peak), (10, 0)] ++
    r.bands.flatMap (fun v => leBytes 2 (sval 2 v)) ++ List.replicate 16 0

/-- A hop's records reach the guardian and the route, which gets its entry (R369 to R371). -/
def audioWrite (i : Fin 2) (s : State) : State :=
  let a := s.audio[i]
  match a.ready with
  | none => s
  | some r =>
    let s := (s.modAudio i fun a => { a with ready := none, past := (r.records :: a.past).take 64 }).modPrep fun p =>
      { p with audAt := s.elapsed }
    let s := match a.route, r.routed with
      | some t, true =>
        let ks := maskSlots t.mask
        let s := ks.zipIdx.foldl (fun (s : State) (kj : Nat × Nat) =>
          match r.records.find? fun x => x.slot = kj.1 with
          | some x => deliver t.fn t.mill (t.addr + 128 * ((r.hop.toNat * ks.length + kj.2) % t.slots)) (audioBytes s i x) s
          | none => s) s
        finishJob t.queue ⟨kAudio, i, r.hop, stOk, 0, BitVec.ofNat 32 ks.length⟩ s
      | _, _ => s
    chimeHop i s

/-- 480 frames complete a hop: its features are computed (R368). -/
def audioHopEnds (i : Fin 2) (s : State) : State :=
  if (s.audio[i]).mode = .running ∧ (s.audio[i]).frames.length = 480 then
    let s := audioWrite i s
    let a := s.audio[i]
    let records := (maskSlots a.cfg.mask).map (slotRecord s a)
    let s := if records.any AudRecord.rate then post 0xB303 wide i s else s
    (s.modAudio i fun a => { a with
      ready := some ⟨a.submitted, a.hops, records⟩, hops := a.hops + 1, frames := [], before := a.frames.take 32
      hopStart := none, hopFs := none, gap := false, submitted := false }).modPrep fun p => { p with audAt := s.elapsed }
  else s

/-! ### Frames (R367) -/

/-- A frame of a RUNNING input joins the hop in progress; the first one starts the hop and its job (R344, R372). -/
def audioTake (i : Fin 2) (at_ : Held) (fifoFull : Bool) (samples : List Int) (s : State) : State :=
  let s := audioHopEnds i s
  let a := s.audio[i]
  let s := if a.frames.isEmpty then
      let routed : Bool := match a.route with
        | some r => canSubmit s r.queue
        | none => false
      let s := s.modAudio i fun a => { a with
        hopStart := a.lastFs, submitted := routed, cfg := { a.cfg with mask := a.nextMask } }
      let s := s.modPrep fun p => { p with audAt := s.elapsed }
      (match a.route with
        | some r => if routed then submitJob r.queue kAudio i a.hops s else s
        | none => s)
    else s
  s.modAudio i fun a => { a with
    frames := samples :: a.frames, lastFs := some at_, hopFs := some at_, gap := a.gap || fifoFull }

/-- A sample code within the sample width. -/
def sampleCode (c : AudCfg) (v : Int) : Int := max (-(2 ^ (c.sampleBits - 1))) (min (2 ^ (c.sampleBits - 1) - 1) v)

/-- A frame of a RUNNING input (R367, R373). -/
def audioRunning (i : Fin 2) (at_ : Held) (lengthOk fifoFull : Bool) (samples : List Int) (s : State) : State :=
  let a := s.audio[i]
  if ¬ lengthOk then
    let s := (post 0xB302 wide i s).modAudio i fun a => { a with bad := a.bad + 1 }
    if 16 ≤ a.bad + 1 then audioLost i (s.modAudio i fun a => { a with lastFs := some at_ })
    else audioTake i at_ fifoFull [] s
  else
    let s := if fifoFull then post 0xB304 wide i s else s
    audioTake i at_ fifoFull (if fifoFull then [] else samples.map (sampleCode a.cfg)) (s.modAudio i fun a => { a with bad := 0 })

/-- A frame of an input that acquires (R367). -/
def audioAcquire (i : Fin 2) (at_ : Held) (ok : Bool) (s : State) : State :=
  let a := s.audio[i]
  if ¬ ok then s.modAudio i fun a => { a with good := 0, lastFs := some at_ }
  else if a.good + 1 < 16 then s.modAudio i fun a => { a with good := a.good + 1, lastFs := some at_ }
  else
    let lost := a.mode == .lost
    let s := if lost then post 0xB305 wide i s else s
    s.modAudio i fun a => { a with
      mode := .running, good := 0, bad := 0, lastFs := some at_, gap := a.gap || lost, frames := [], before := [] }

/-- The bytes of an audio input FIFO (R113). -/
abbrev audioFifo : Nat := 4096

/-- A frame meets the input FIFO, which the engine has drained of some bytes since the frame before (R113, R373): the FIFO after, and
whether the frame found it full. -/
def Audio.takeFrame (a : Audio) (drained : Nat) : Audio × Bool :=
  let k := a.fifo - drained
  if k + 4 * a.cfg.slots ≤ audioFifo then ({ a with fifo := k + 4 * a.cfg.slots }, false) else ({ a with fifo := k }, true)

/-- Two FS stamps are 48 kHz ± 0.5 % apart (R367). -/
def frameRateOk (s : State) (a : Audio) (at_ : Held) : Bool :=
  match a.lastFs with
  | some t =>
    let d := timeOf s at_ - timeOf s t
    decide (47760 * d ≤ 256000000000) && decide (256000000000 ≤ 48240 * d)
  | none => false

/-- An audio FS frame (R367): FS is stamped within the bound of R112. -/
def audioFrame (i : Fin 2) (skew : Int) (lengthOk : Bool) (drained : Nat) (samples : List Int) (s : State) : State :=
  let at_ := hold s (stampNear s skew)
  match (s.audio[i]).mode with
  | .off => s
  | .running =>
    let (a, full) := (s.audio[i]).takeFrame drained
    audioRunning i at_ lengthOk full samples (s.modAudio i fun _ => a)
  | .acquire | .lost => audioAcquire i at_ (lengthOk && frameRateOk s s.audio[i] at_) s

/-- AUDIO_FRAME (R367). -/
def execAudioFrame (dt : Nat) (i : Fin 2) (skew : Int) (lengthOk : Bool) (drained : Nat) (samples : List Int)
    (s : State) : Answer := .next (audioFrame i skew lengthOk drained samples (advance dt s))

/-- FS or BCLK has been absent for 100 µs (R367). -/
def audioLoss (i : Fin 2) (s : State) : State :=
  let a := s.audio[i]
  match a.mode, a.lastFs with
  | .running, some t =>
    if timeOf s t + 25600000 ≤ timeOf s (hold s (now s)) then audioLost i (post 0xB301 wide i (audioHopEnds i s)) else s
  | _, _ => s

/-- AUDIO_LOSS_TIMEOUT (R367). -/
def execAudioLossTimeout (dt : Nat) (i : Fin 2) (s : State) : Answer := .next (audioLoss i (advance dt s))

/-- AUDIO_HOP (R368). -/
def execAudioHop (dt : Nat) (i : Fin 2) (s : State) : Answer := .next (audioHopEnds i (advance dt s))

/-- AUDIO_RECORDS_WRITTEN (R369). -/
def execAudioRecordsWritten (dt : Nat) (i : Fin 2) (s : State) : Answer := .next (audioWrite i (advance dt s))

end Sys2Proof.Machine
end

