-- ==== Sys2Proof/Machine/ChanCmds.lean ====
section
/-! DEFINITION. Meanings of the chapter "Millrace DMA": programmes, doorbells, the instruction set and the hampers (R403
to R437). -/

namespace Sys2Proof.Machine

/-! ### Programme checks -/

/-- An address inside the windows of R404, for a constant of SET. -/
def constBad (s : State) (fn : Fn) (space addr : Nat) : Bool := space != 0 && !inWindow s fn space addr 1

/-- MOVE and MOVE2D, bytes 1 to 3: the reason of the first failure, 0 for none. -/
def moveHeadBad (b : List Byte) : Nat :=
  if fld b 1 1 / 16 != 0 || fld b 2 1 &&& 0x88 != 0 || fld b 3 1 &&& 0x88 != 0 then 2
  else if fld b 3 1 % 8 > 4 || fld b 3 1 / 16 % 8 > 4 then 3
  else 0

/-- The reason for which an instruction breaks R405, but for nesting and END: 0 none, 1 opcode, 2 reserved bit, 3 range,
6 space or window, 7 channel not owned (R408 to R416, R437). -/
def instrBad (s : State) (fn : Fn) (b : List Byte) : Nat :=
  let op := fld b 0 1
  let v1 := fld b 1 1
  let v2 := fld b 2 1
  if op = 1 then
    let m := moveHeadBad b
    if m = 2 || !zeros b 8 8 then 2 else if m = 3 || fld b 4 4 == 0 || fld b 4 4 > 1048576 then 3 else 0
  else if op = 2 then
    let m := moveHeadBad b
    if m = 2 || fld b 4 1 &&& 0xCC != 0 || !zeros b 5 11 then 2 else m
  else if op = 3 then (if !zeros b 1 3 || !zeros b 8 8 then 2 else 0)
  else if op = 4 || op = 0x0A || op = 0x0F then (if zeros b 1 15 then 0 else 2)
  else if op = 5 then
    if v1 / 2 != 0 || !zeros b 3 1 || !zeros b 6 2 || !zeros b 12 4 then 2
    else if v2 > 7 || fld b 4 2 == 0 || fld b 8 4 > 60000000 then 3 else 0
  else if op = 6 then
    if v2 = 0 then (if v1 / 4 != 0 || !zeros b 3 13 then 2 else 0)
    else if v2 = 1 then
      if v1 != 0 || !zeros b 5 1 || !zeros b 8 8 then 2
      else if fld b 3 1 > 63 || fld b 4 1 > 7 || fld b 6 2 == 0 then 3
      else match fin? 64 (fld b 3 1) with
        | some m => if chanFn s m = fn then 0 else 7
        | none => 3
    else 3
  else if op = 7 then
    if v2 ≤ 7 then
      if v1 > 1 then 3
      else if !zeros b 4 4 || (v1 == 1 && !zeros b 3 1) then 2
      else if v1 = 1 then 0
      else if fld b 3 1 > 2 then 3
      else if (fld b 3 1 == 1 && fn != 0) || constBad s fn (fld b 3 1) (fld b 8 8) then 6 else 0
    else if 0x10 ≤ v2 ∧ v2 ≤ 0x13 then
      if !zeros b 3 1 then 2
      else if v1 != 0 || fld b 4 4 == 0 || fld b 4 4 > 1048576 || fld b 8 4 == 0 || fld b 8 4 > 65536 then 3 else 0
    else if v2 = 0x20 then (if !zeros b 3 1 || !zeros b 8 8 then 2 else if v1 != 0 then 3 else 0)
    else 3
  else if op = 8 then
    if v1 != 0 || !zeros b 4 12 then 2 else if v2 > 2 || fld b 3 1 > 1 then 3 else 0
  else if op = 9 then (if v1 &&& 0xFD != 0 || v2 &&& 0x8F != 0 || !zeros b 3 13 then 2 else 0)
  else 1

/-- The check of a programme from an index and depth on (R405): the depths of its indices, or the first failing index and
its reason. -/
def checkFrom (s : State) (fn : Fn) : Nat → Nat → Nat → List Byte → List Nat ⊕ (Nat × Nat)
  | 0, _, _, _ => .inl []
  | n + 1, i, depth, bytes =>
    let b := bytes.take 16
    let op := fld b 0 1
    let bad := instrBad s fn b
    if bad ≠ 0 then .inr (i, bad)
    else if (op = 3 ∧ 4 ≤ depth) ∨ (op = 4 ∧ depth = 0) ∨ (op = 0x0F ∧ depth ≠ 0) then .inr (i, 4)
    else if n = 0 ∧ op ≠ 0x0F then .inr (i, 5)
    else
      let d := if op = 3 then depth + 1 else if op = 4 then depth - 1 else depth
      match checkFrom s fn n (i + 1) d (bytes.drop 16) with
      | .inl l => .inl (depth :: l)
      | .inr e => .inr e

/-- CHAN_LOAD (R405, R437). -/
def chanLoadBody (programme : Fetched) (s : State) (h : Hamper) : Verdict :=
  let p := h.payload
  match fin? 64 (fld p 0 1) with
  | none => badArg
  | some c =>
    let n := fld p 2 2
    let b := bufferAt p 8
    let x := s.chans[c]
    if chanFn s c ≠ h.fn then notOwner
    else if x.borrowed ∨ ¬ (x.mode = .idle ∨ x.mode = .loaded) then wrongState
    else if h.tail 24 || !zeros p 1 1 || !zeros p 4 4 || n > 4096 || b.reserved then badArg
    else if n = 0 then
      .ok (sweepWaits (s.modChan c fun x => { x with
        mode := .idle, programme := [], depths := [], slots := Chan.reset.slots, runs := 0 }))
        (record [(4, 0), (2, 0), (2, 0)])
    else if bufferBad s h.fn b || decide (b.length < 16 * n) then badArg
    else match bufferRead s h.fn b programme with
      | .failed => .refuse stBusError []
      | .data bytes =>
        let bytes := padTo (16 * n) (bytes.take (16 * n))
        match checkFrom s h.fn n 0 0 bytes with
        | .inr (i, r) => .refuse stBadArgument (record [(2, i), (1, r), (1, 0)])
        | .inl ds =>
          .ok (s.modChan c fun x => { x with
            mode := .loaded, programme := bytes, progAddr := b.addr, progMill := b.millpond, depths := ds
            ptrs := Chan.reset.ptrs, shapes := Chan.reset.shapes, slots := Chan.reset.slots, runs := 0, runId := 0
            crc := none, loops := [], pc := 0, bytes := 0 })
            (record [(4, crc32c bytes), (2, (ds.filter (· == 0)).length), (1, ds.foldl max 0), (1, 0)])

/-- CHAN_LOAD (R405). -/
def execChanLoad (dt : Nat) (r : Req) (programme : Fetched) (s : State) : Answer :=
  .next (serve r 0x0801 0 false (chanLoadBody programme) (advance dt s))

/-- Disable a channel (R429). -/
def disableChan (c : Fin 64) (s : State) : State :=
  if (s.chans[c]).enabled then
    let s := s.modChan c fun x => { x with enabled := false }
    let (n, s) := flushRuns c s
    sweepWaits ((stopChan c s).modChan c fun x => { x with quietOwed := some n })
  else s

/-- CHAN_CONFIG (R429, R437). -/
def chanConfigBody (s : State) (h : Hamper) : Verdict :=
  let p := h.payload
  match fin? 64 (fld p 0 1) with
  | none => badArg
  | some c =>
    let x := s.chans[c]
    let share := fld p 4 2
    let bad := h.tail 8 || fld p 1 1 > 1 || !zeros p 3 1 || share == 0 || share > 256 || !zeros p 6 2
    if chanFn s c ≠ h.fn then notOwner
    else match fin? 32 (fld p 2 1) with
      | none => if x.borrowed then wrongState else badArg
      | some q =>
        let mine := s.plan.queues[q] == h.fn
        if x.borrowed || (x.queue != q.val && (x.inUse || !x.queued.isEmpty)) || (mine && !queueOpen s q) then wrongState
        else if bad || !mine then badArg
        else
          let s := s.modChan c fun x => { x with
            queue := q, share := share, readBucket := bucketAfter x.share x.readBucket (s.elapsed - x.bucketAt)
            writeBucket := bucketAfter x.share x.writeBucket (s.elapsed - x.bucketAt), bucketAt := s.elapsed }
          if fld p 1 1 = 1 then .ok (s.modChan c fun x => { x with enabled := true, quiet := false, quietOwed := none }) []
          else .ok (disableChan c s) []

/-- CHAN_CONFIG (R429). -/
def execChanConfig (dt : Nat) (r : Req) (s : State) : Answer :=
  .next (serve r 0x0802 0 false chanConfigBody (advance dt s))

/-- A disabled channel is quiet once the final entries of its runs have been written (R429). -/
def chanQuiet (c : Fin 64) (s : State) : State :=
  let x := s.chans[c]
  match x.quietOwed with
  | some n =>
    let held := match fin? 32 x.queue with
      | some q => (s.queues[q]).jobs.any fun j => j.kind == kMillrace && j.index == c.val
      | none => false
    if x.inUse || held then s
    else notice (chanFn s c) nQuiet (BitVec.ofNat 32 (256 * kMillrace + c)) stOk (BitVec.ofNat 32 n)
      (s.modChan c fun x => { x with quiet := true, quietOwed := none })
  | none => s

/-- CHAN_QUIET (R429). -/
def execChanQuiet (dt : Nat) (c : Fin 64) (s : State) : Answer := .next (chanQuiet c (advance dt s))

/-- A map entry names a source of the table of R421, in range, and one that the function owns. -/
def mapBad (s : State) (fn : Fn) (kind index : Nat) : Bool :=
  match kind with
  | 0 | 1 => index != 0
  | 2 => (match fin? 64 index with
    | some m => chanFn s m != fn
    | none => true)
  | 3 | 7 => (match fin? 32 index with
    | some n => s.plan.streams[n] != fn || (kind == 7 && !(s.prep.bindings.any fun b => b.stream == n))
    | none => true)
  | 4 => (match fin? 16 index with
    | some n => s.plan.comparators[n] != fn
    | none => true)
  | 5 => (match fin? 16 index with
    | some n => s.plan.hoppers[n] != fn
    | none => true)
  | 6 => index > 0x7F
  | _ => true

/-- CHAN_SIGNAL_MAP (R421, R437). -/
def chanSignalMapBody (s : State) (h : Hamper) : Verdict :=
  let p := h.payload
  match fin? 64 (fld p 0 1) with
  | none => badArg
  | some c =>
    let x := s.chans[c]
    if chanFn s c ≠ h.fn then notOwner
    else if x.borrowed ∨ ¬ (x.mode = .idle ∨ x.mode = .loaded) then wrongState
    else if h.tail 36 || !zeros p 1 3 || (List.range 8).any fun k =>
        mapBad s h.fn (fld p (4 + 4 * k) 1) (fld p (5 + 4 * k) 1) || !zeros p (6 + 4 * k) 2 then badArg
    else .ok (s.modChan c fun x => { x with
      slots := Vector.ofFn fun k => ⟨fld p (4 + 4 * k.val) 1, fld p (5 + 4 * k.val) 1, 0⟩ }) []

/-- CHAN_SIGNAL_MAP (R421). -/
def execChanSignalMap (dt : Nat) (r : Req) (s : State) : Answer :=
  .next (serve r 0x0803 1 false chanSignalMapBody (advance dt s))

/-! ### Doorbells -/

/-- A write of CHAN_GO (R407); a SHUTDOWN has closed the channels' doors (R134). -/
def writeChanGo (c : Fin 64) (v : Word) (s : State) : State :=
  let x := s.chans[c]
  let entry := v.toNat % 4096
  let ok := !s.start.allDoorsClosed && x.enabled && !x.borrowed && decide (x.queued.length < 16) &&
    (match x.mode with
      | .loaded | .running | .waiting | .halted => true
      | _ => false) &&
    x.depths[entry]? == some 0 &&
    (match fin? 32 x.queue with
      | some q => canSubmit s q
      | none => false)
  if ok then
    let key := x.nextKey
    let s := s.modChan c fun x => { x with nextKey := x.nextKey + 1 }
    let s := match fin? 32 x.queue with
      | some q => submitJob q kMillrace c key s
      | none => s
    if x.mode = .loaded then startRun c entry key s
    else s.modChan c fun x => { x with queued := x.queued ++ [(entry, key)] }
  else post 0x510B (chanFn s c) c (s.modChan c fun x => { x with goRefused := true })

/-- CHAN_GO (R407). -/
def execChanGo (dt : Nat) (fn : Fn) (c : Fin 64) (v : Word) (s : State) : Answer :=
  .next (writeRegister fn (0x10000 + 0x100 * c) (writeChanGo c v) (advance dt s))

/-- An ignored doorbell (R423, R427). -/
def ctrlIgnored (c : Fin 64) (s : State) : State :=
  post 0x510C (chanFn s c) c (s.modChan c fun x => { x with ctrlIgnored := true })

/-- A write of CHAN_CTRL (R427). -/
def writeChanCtrl (c : Fin 64) (v : Word) (s : State) : State :=
  let n := v.toNat % 16
  let x := s.chans[c]
  if n = 0 then s
  else if x.borrowed ∨ (4 ≤ n ∧ n ≠ 4 ∧ n ≠ 8) then ctrlIgnored c s
  else if n = 4 ∨ n = 8 then
    if x.mode = .halted ∧ ¬ x.copyHalt then
      if n = 4 then s.modChan c fun x => { x.fill s.elapsed with mode := .running, arrival := none, wait := none }
      else chanNext c s
    else ctrlIgnored c s
  else
    let s := if bit n 1 then (flushRuns c s).2 else s
    if bit n 0 then stopChan c s else s

/-- The offset of a channel's register. -/
def chanOff (c : Fin 64) (r : Nat) : Nat := 0x10000 + 0x100 * c + r

/-- CHAN_STOP: a write of CHAN_CTRL with stop set (R427). -/
def execChanStop (dt : Nat) (fn : Fn) (c : Fin 64) (v : Word) (s : State) : Answer :=
  let s := advance dt s
  .next (if bit v.toNat 0 then writeRegister fn (chanOff c 4) (writeChanCtrl c v) s else s)

/-- CHAN_FLUSH: a write of CHAN_CTRL with flush set (R427). -/
def execChanFlush (dt : Nat) (fn : Fn) (c : Fin 64) (v : Word) (s : State) : Answer :=
  let s := advance dt s
  .next (if bit v.toNat 1 then writeRegister fn (chanOff c 4) (writeChanCtrl c v) s else s)

/-- CHAN_RETRY: a write of CHAN_CTRL with retry set (R427). -/
def execChanRetry (dt : Nat) (fn : Fn) (c : Fin 64) (v : Word) (s : State) : Answer :=
  let s := advance dt s
  .next (if bit v.toNat 2 then writeRegister fn (chanOff c 4) (writeChanCtrl c v) s else s)

/-- CHAN_SKIP: a write of CHAN_CTRL with skip set (R427). -/
def execChanSkip (dt : Nat) (fn : Fn) (c : Fin 64) (v : Word) (s : State) : Answer :=
  let s := advance dt s
  .next (if bit v.toNat 3 then writeRegister fn (chanOff c 4) (writeChanCtrl c v) s else s)

/-- A write of CHAN_KICK (R423, R436). -/
def writeChanKick (c : Fin 64) (v : Word) (s : State) : State :=
  let n := v.toNat / 65536
  let k : Fin 8 := ⟨v.toNat % 8, Nat.mod_lt _ (by decide)⟩
  if n = 0 then s
  else if ((s.chans[c]).slots[k]).kind = 1 then slotAdd c k n s
  else ctrlIgnored c s

/-- CHAN_KICK (R423). -/
def execChanKick (dt : Nat) (fn : Fn) (c : Fin 64) (v : Word) (s : State) : Answer :=
  .next (writeRegister fn (chanOff c 0x2C) (writeChanKick c v) (advance dt s))

/-- A full read of CHAN_BYTES_LO (R436). -/
def readChanBytes (c : Fin 64) (s : State) : Word × State :=
  let n := (s.chans[c]).bytes
  (BitVec.ofNat 32 n, s.modChan c fun x => { x with latchBytesHi := BitVec.ofNat 32 (n / 2 ^ 32) })

/-- CHAN_BYTES_LO_READ (R436). -/
def execChanBytesLoRead (dt : Nat) (fn : Fn) (c : Fin 64) (s : State) : Answer :=
  .next (readRegister fn (chanOff c 0x20) (readChanBytes c) (advance dt s))

/-- The registers of a channel without a side effect (R436). -/
def chanRegister (s : State) (c : Fin 64) (r : Nat) : Option Word :=
  let x := s.chans[c]
  let mode := match x.mode with
    | .idle => 0
    | .loaded => 1
    | .running => 2
    | .waiting => 3
    | .stopping => 4
    | .halted => 5
  if r = 0 ∨ r = 4 ∨ r = 0x2C then some 0
  else if r = 8 then some (packed [(19, b2n x.ctrlIgnored), (18, b2n x.slotDropped), (17, b2n x.waitFailed),
    (16, b2n x.goRefused), (8, x.queued.length), (5, b2n x.borrowed), (4, b2n x.quiet), (3, b2n x.enabled), (0, mode)])
  else if r = 0xC then some (packed [(16, x.loops.length), (0, x.pc % 4096)])
  else if r = 0x10 then some (packed [(16, x.haltStatus), (8, x.haltSpace), (4, b2n x.haltWrite), (0, x.haltCause)])
  else if r = 0x14 then some (BitVec.ofNat 32 x.haltAddr)
  else if r = 0x18 then some (BitVec.ofNat 32 (x.haltAddr / 2 ^ 32))
  else if r = 0x1C then some x.runId
  else if r = 0x20 then some (BitVec.ofNat 32 x.bytes)
  else if r = 0x24 then some x.latchBytesHi
  else if r = 0x28 then some x.lastCrc
  else if r = 0x30 then some x.runs
  else if 0x40 ≤ r ∧ r < 0x60 ∧ r % 4 = 0 then
    (fin? 8 ((r - 0x40) / 4)).map fun k =>
      let w := x.slots[k]
      packed [(31, b2n (slotOff s w)), (24, w.kind), (0, w.count)]
  else none

/-- A write of CHAN_STATE's W1C bits (R436). -/
def writeChanState (c : Fin 64) (v : Word) (s : State) : State :=
  s.modChan c fun x => { x with
    ctrlIgnored := x.ctrlIgnored && !v.getLsbD 19, slotDropped := x.slotDropped && !v.getLsbD 18
    waitFailed := x.waitFailed && !v.getLsbD 17, goRefused := x.goRefused && !v.getLsbD 16 }

/-! ### Instructions -/

/-- A channel runs the instruction at its present index, if its opcode (and kind) is the command's: the fetched
instruction is checked first (R405, R406). -/
def runInstr (c : Fin 64) (is : List Byte → Bool) (body : List Byte → State → State) (s : State) : State :=
  let x := s.chans[c]
  if (x.mode = .running ∨ x.mode = .stopping) ∧ x.arrival = none ∧ ¬ x.borrowed ∧ mainRuns s then
    let b := chanInstr s c
    let at_ := x.progAddr + 16 * x.pc
    let fn := chanFn s c
    if x.progMill ∧ ¬ inGrant s at_ 16 then haltChan c 6 stBusError false 1 at_ s
    else if x.depths.length ≤ x.pc ∨ instrBad s fn b ≠ 0 ∨ (fld b 0 1 = 4 ∧ x.loops = []) ∨
        (fld b 0 1 = 3 ∧ x.loops.length ≥ 4) then
      haltChan c 7 stAborted false (b2n x.progMill) at_ s
    else if is b then body b s else s
  else s

/-- An instruction has ended: the next follows, or the run ends for a stop (R427, R428). -/
def chanDone (c : Fin 64) (s : State) : State :=
  if (s.chans[c]).mode = .stopping ∨ (s.chans[c]).stopAfter then stopRun c s else chanNext c s

/-- The opcode of an instruction. -/
def isOp (n : Nat) (b : List Byte) : Bool := fld b 0 1 == n

/-- A byte stream swapped in units (R419). -/
def swapBytes (code : Nat) : List Byte → List Byte
  | a :: b :: rest =>
    if code = 1 then b :: a :: swapBytes code rest
    else if code = 2 ∨ code = 3 then
      match rest with
      | c :: d :: rest =>
        if code = 2 then c :: d :: a :: b :: swapBytes code rest else d :: c :: b :: a :: swapBytes code rest
      | rest => a :: b :: rest
    else a :: b :: rest
  | rest => rest

/-- The bytes of a swap unit. -/
def swapUnit (code : Nat) : Nat := if code = 0 then 1 else if code = 1 then 2 else 4

/-- One side of a data instruction: its space and its lines (address, length) in order. -/
structure Side where
  space : Nat
  lines : List (Nat × Nat)
  deriving DecidableEq, Repr

/-- The offset and address of the first burst of a side that lies outside the windows (R404, R418). -/
def windowFault (s : State) (fn : Fn) (d : Side) : Option (Nat × Nat) :=
  let rec go : Nat → List (Nat × Nat) → Option (Nat × Nat)
    | _, [] => none
    | off, (a, n) :: rest =>
      match (List.range ((n + 511) / 512)).find? fun i => !inWindow s fn d.space (a + 512 * i) (min 512 (n - 512 * i)) with
      | some i => some (off + 512 * i, a + 512 * i)
      | none => go (off + n) rest
  if d.space = 0 then none else go 0 d.lines

/-- The bytes that a side reads. -/
def readSide (s : State) (d : Side) (host : List Byte) : List Byte :=
  let total := (d.lines.map Prod.snd).sum
  if d.space = 0 then padTo total (host.take total)
  else d.lines.flatMap fun l => if d.space = 1 then millRead s l.1 l.2 else lpRead s l.1 l.2

/-- The write bursts of a host range (R418): at most `limit` bytes, and none across a 4 KiB boundary. -/
def bursts (limit : Nat) : Nat → Nat → Nat → List (Nat × Nat)
  | 0, _, _ => []
  | fuel + 1, a, n =>
    let k := min n (min limit (4096 - a % 4096))
    if k = 0 then [] else (a, k) :: bursts limit fuel (a + k) (n - k)

/-- The longest write burst of a function: 512 bytes, or its Max Payload Size (R418). -/
def writeBurst (s : State) (fn : Fn) : Nat := min 512 (128 * 2 ^ ((deviceControl s.fns[fn]).toNat / 32 % 8))

/-- Send a line's bytes to host memory in bursts. -/
def sendBursts (fn : Fn) (data : Bool) : List (Nat × Nat) → List Byte → State → State
  | [], _, s => s
  | (a, n) :: rest, bytes, s => sendBursts fn data rest (bytes.drop n) (hostSend fn a (bytes.take n) data s)

/-- Write bytes to a side's lines in order (R410, R418): the data of a MOVE may carry Relaxed Ordering, a stored CRC may
not (R36). -/
def writeSide (fn : Fn) (space : Nat) (data : Bool) : List (Nat × Nat) → List Byte → State → State
  | [], _, s => s
  | (a, n) :: rest, bytes, s =>
    let now := bytes.take n
    let s := if now.isEmpty then s
      else if space = 0 then sendBursts fn data (bursts (writeBurst s fn) now.length a now.length) now s
      else if space = 1 then millWrite a now s
      else lpWrite a now s
    writeSide fn space data rest (bytes.drop n) s

/-- The address of a byte offset of a side. -/
def sideAddr : List (Nat × Nat) → Nat → Nat
  | [], _ => 0
  | (a, n) :: rest, off => if off < n then a + off else sideAddr rest (off - n)

/-- Account for `n` bytes written to a side (R424, R425). -/
def accountWrite (c : Fin 64) (d : Side) (n : Nat) (s : State) : State :=
  s.modChan c fun x => { x with
    bytes := x.bytes + n, entryBytes := x.entryBytes + n
    lastHost := if d.space = 0 ∧ n ≠ 0 then some (sideAddr d.lines (n - 1) / 4 * 4) else x.lastHost }

/-- The register of a CRC kind after bytes, its initial value and its final XOR (R415). -/
def crcStep (kind c : Nat) (bs : List Byte) : Nat :=
  if kind = 0 then crc32cStep c bs else if kind = 1 then crc32Step c bs else crc16Step c bs
def crcInit (kind : Nat) : Nat := if kind = 2 then 0xFFFF else 0xFFFFFFFF
def crcFinal (kind c : Nat) : Nat := if kind = 2 then c else c ^^^ 0xFFFFFFFF

/-- The bytes of a side, and its lowest address and the end of its highest line. -/
def sideBytes (d : Side) : Nat := (d.lines.map Prod.snd).sum
def sideLow (d : Side) : Nat := ((d.lines.map Prod.fst).min?).getD 0
def sideHigh (d : Side) : Nat := (d.lines.map fun l => l.1 + l.2).foldl max 0

/-- Bytes that the spec leaves open. -/
def drawBytes (n : Nat) (s : State) : List Byte × State :=
  ((List.range n).map fun i => BitVec.ofNat 8 (Config.freeNat (s.drawn + i)), { s with drawn := s.drawn + n })

/-- What a source gives (R420): where the destination overlaps it and starts above it, which the host must not ask for, the bytes
from the overlap on are free (log entry 16). -/
def sourceBytes (src dst : Side) (host : List Byte) (s : State) : List Byte × State :=
  let bytes := readSide s src host
  if src.space = dst.space ∧ src.space ≠ 0 ∧ sideLow src < sideLow dst ∧ sideLow dst < sideHigh src then
    let kept := if src.lines.length = 1 ∧ dst.lines.length = 1 then sideLow dst - sideLow src else 0
    let (free, s) := drawBytes (bytes.length - kept) s
    (bytes.take kept ++ free, s)
  else (bytes, s)

/-- The store behind a space of R404. -/
def spaceStore (space : Nat) : Option Store := if space = 0 then none else if space = 1 then some .millpond else some .lpddr

/-- The first failing access of a data instruction: its offset, its cause, whether it is a write, and its address (R430). -/
def firstFault (s : State) (fn : Fn) (src dst : Side) (fault : Option BusFault) : Option (Nat × Nat × Bool × Nat) :=
  let r := (windowFault s fn src).map fun f => (f.1, 4, false, f.2)
  let w := (windowFault s fn dst).map fun f => (f.1, 4, true, f.2)
  let b := match fault with
    | some f => if (if src.space = 0 then f.cause = 1 ∨ f.cause = 2 else f.cause = 3) ∧ f.offset < sideBytes src then
        some (f.offset, f.cause, false, sideAddr src.lines f.offset) else none
    | none => none
  [b, r, w].foldl (fun best x => match best, x with
    | some p, some q => if q.1 < p.1 then some q else some p
    | none, x => x
    | p, none => p) none

/-- A side's bursts to LPDDR5X wait for the end of an outage (R472). -/
def lpWaits (s : State) (d : Side) : Bool :=
  d.space == 2 && (s.weir.store == .draining || s.weir.store == .retraining)

/-- A data instruction moves its bytes (R409, R410, R417 to R420, R430), no sooner than Sluice lets its bursts issue (R426). A read
that fails leaves the writes before it free within 4 096 bytes (R420, log entry 16). -/
def transfer (c : Fin 64) (src dst : Side) (swap : Nat) (host : List Byte) (fault : Option BusFault) (corrected : Nat)
    (finish : State → State) (s : State) : State :=
  let fn := chanFn s c
  let total := sideBytes src
  match firstFault s fn src dst fault with
  | none =>
    if ¬ sluicePermits s.chans[c] s.elapsed total total ∨ lpWaits s src ∨ lpWaits s dst then s
    else
      let (bytes, s) := sourceBytes src dst host s
      let out := swapBytes swap bytes
      let s := match spaceStore src.space with
        | some st => correctedReads st corrected s
        | none => s
      let s := accountWrite c dst out.length (writeSide fn dst.space true dst.lines out s)
      let s := s.modChan c fun x => { x.spend s.elapsed total total with
        crc := x.crc.map fun k => { k with value := crcStep k.kind k.value (if k.dst then out else bytes) } }
      chanDone c (finish s)
  | some (off, cause, write, addr) =>
    let (n, s) := if write then (off, s)
      else
        let (v, s) := draw s
        (off - v % (min off 4096 + 1), s)
    if ¬ sluicePermits s.chans[c] s.elapsed n n ∨ lpWaits s src ∨ lpWaits s dst then s
    else
      let (bytes, s) := sourceBytes src dst host s
      let s := accountWrite c dst n (writeSide fn dst.space true dst.lines ((swapBytes swap bytes).take n) s)
      let s := s.modChan c fun x => x.spend s.elapsed n n
      let (v, s) := draw s
      let s := if cause = 3 then readErrors (spaceStore src.space) addr c ⟨0, some (v % 512)⟩ s else s
      haltChan c cause stBusError write (if write then dst.space else src.space) addr s

/-- A data instruction is cut off at a burst boundary, by an FLR or by Bus Master Enable: a free number of its bytes have been
written (R431, R432, log entry 16). -/
def cutTransfer (c : Fin 64) (src dst : Side) (swap : Nat) (s : State) : State :=
  let fn := chanFn s c
  let bound := match firstFault s fn src dst none with
    | some f => f.1
    | none => sideBytes src
  let (v, s) := draw s
  let n := v % (bound + 1)
  let (host, s) := if src.space = 0 then drawBytes n s else ([], s)
  let (bytes, s) := sourceBytes src dst host s
  accountWrite c dst n (writeSide fn dst.space true dst.lines ((swapBytes swap bytes).take n) s)

/-- Halt with cause OPERAND at a pointer (R415, R417). -/
def haltOperand (c : Fin 64) (p : Ptr) (s : State) : State := haltChan c 8 stAborted false p.space p.addr.toNat s

/-- A pointer register by the low three bits of a field. -/
def ptrIx (v : Nat) : Fin 8 := ⟨v % 8, Nat.mod_lt _ (by decide)⟩

/-- Add to a pointer modulo 2^64. -/
def addPtr (c : Fin 64) (p : Fin 8) (n : Int) (s : State) : State :=
  s.modChan c fun x => { x with ptrs := vmod x.ptrs p fun q => { q with addr := q.addr + BitVec.ofInt 64 n } }

/-- What a data instruction moves: its sides, its swap, and what its inc flags add to the pointers; or the pointer for which it
halts with cause OPERAND (R409, R410, R417, R419). -/
structure DataMove where
  src : Side
  dst : Side
  swap : Nat
  srcStep : Int
  dstStep : Int
  deriving DecidableEq, Repr

/-- The sides of a MOVE (R409, R417, R419). -/
def moveSides (x : Chan) (b : List Byte) : Ptr ⊕ DataMove :=
  let src := x.ptrs[ptrIx (fld b 2 1)]
  let dst := x.ptrs[ptrIx (fld b 2 1 / 16)]
  let ws := 2 ^ (fld b 3 1 % 8)
  let wd := 2 ^ (fld b 3 1 / 16 % 8)
  let n := fld b 4 4
  let swap := fld b 1 1 / 4 % 4
  if src.addr.toNat % ws ≠ 0 ∨ n % ws ≠ 0 then .inl src
  else if dst.addr.toNat % wd ≠ 0 ∨ n % wd ≠ 0 then .inl dst
  else if n % swapUnit swap ≠ 0 then .inl src
  else .inr ⟨⟨src.space, [(src.addr.toNat, n)]⟩, ⟨dst.space, [(dst.addr.toNat, n)]⟩, swap, n, n⟩

/-- The lines of a shape from a pointer (R410), addresses modulo 2^64. -/
def shapeLines (p : Ptr) (k : Shape) : List (Nat × Nat) :=
  (List.range k.lines).map fun j => ((p.addr + BitVec.ofInt 64 (j * k.stride)).toNat, k.line)

/-- The sides of a MOVE2D (R410, R417, R419). -/
def move2dSides (x : Chan) (b : List Byte) : Ptr ⊕ DataMove :=
  let src := x.ptrs[ptrIx (fld b 2 1)]
  let dst := x.ptrs[ptrIx (fld b 2 1 / 16)]
  let ks : Shape := x.shapes[(⟨fld b 4 1 % 4, Nat.mod_lt _ (by decide)⟩ : Fin 4)]
  let kd : Shape := x.shapes[(⟨fld b 4 1 / 16 % 4, Nat.mod_lt _ (by decide)⟩ : Fin 4)]
  let ws := 2 ^ (fld b 3 1 % 8)
  let wd := 2 ^ (fld b 3 1 / 16 % 8)
  let swap := fld b 1 1 / 4 % 4
  let u := swapUnit swap
  if ks.line * ks.lines ≠ kd.line * kd.lines ∨ ks.line * ks.lines > 1048576 then .inl src
  else if src.addr.toNat % ws ≠ 0 ∨ ks.line % ws ≠ 0 ∨ ks.stride % (ws : Int) ≠ 0 then .inl src
  else if dst.addr.toNat % wd ≠ 0 ∨ kd.line % wd ≠ 0 ∨ kd.stride % (wd : Int) ≠ 0 then .inl dst
  else if ks.line % u ≠ 0 ∨ kd.line % u ≠ 0 then .inl src
  else .inr ⟨⟨src.space, shapeLines src ks⟩, ⟨dst.space, shapeLines dst kd⟩, swap, ks.lines * ks.stride, kd.lines * kd.stride⟩

/-- A data instruction runs (R409, R410). -/
def runData (c : Fin 64) (sides : Chan → List Byte → Ptr ⊕ DataMove) (host : List Byte) (fault : Option BusFault)
    (corrected : Nat) (b : List Byte) (s : State) : State :=
  match sides s.chans[c] b with
  | .inl p => haltOperand c p s
  | .inr m => transfer c m.src m.dst m.swap host fault corrected
      (fun s =>
        let s := if bit (fld b 1 1) 0 then addPtr c (ptrIx (fld b 2 1)) m.srcStep s else s
        if bit (fld b 1 1) 1 then addPtr c (ptrIx (fld b 2 1 / 16)) m.dstStep s else s) s

/-- MOVE (R409). -/
def execMove (dt : Nat) (c : Fin 64) (hostData : List Byte) (fault : Option BusFault) (corrected : Nat) (s : State) : Answer :=
  .next (runInstr c (isOp 1) (runData c moveSides hostData fault corrected) (advance dt s))

/-- MOVE2D (R410). -/
def execMove2d (dt : Nat) (c : Fin 64) (hostData : List Byte) (fault : Option BusFault) (corrected : Nat) (s : State) : Answer :=
  .next (runInstr c (isOp 2) (runData c move2dSides hostData fault corrected) (advance dt s))

/-- The data instruction in progress of a channel, if any, is cut off (R431, R432). -/
def cutData (c : Fin 64) (s : State) : State :=
  let x := s.chans[c]
  let b := chanInstr s c
  if (x.mode = .running ∨ x.mode = .stopping) ∧ x.arrival = none ∧ ¬ x.borrowed ∧ dataInstr s c ∧ instrBad s (chanFn s c) b = 0 then
    match (if isOp 1 b then moveSides x b else move2dSides x b) with
    | .inl _ => s
    | .inr m => cutTransfer c m.src m.dst m.swap s
  else s

/-- The data instructions in progress of a function's channels are cut off. -/
def cutChans (fn : Fn) (s : State) : State :=
  (allFin 64).foldl (fun (s : State) (c : Fin 64) => if chanFn s c = fn then cutData c s else s) s

/-- LOOP pushes its count (R411). -/
def runLoop (c : Fin 64) (b : List Byte) (s : State) : State :=
  let n := fld b 4 4
  chanDone c (s.modChan c fun x => { x with loops := ⟨x.pc, n, n == 0⟩ :: x.loops })

/-- LOOP (R411). -/
def execLoop (dt : Nat) (c : Fin 64) (s : State) : Answer := .next (runInstr c (isOp 3) (runLoop c) (advance dt s))

/-- ENDLOOP decrements the count and returns to the body until it reaches 0 (R411). -/
def runEndLoop (c : Fin 64) (s : State) : State :=
  match (s.chans[c]).loops with
  | [] => s
  | l :: rest =>
    if l.unbounded ∨ 1 < l.left then
      chanDone c (s.modChan c fun x => { x with pc := l.at_, loops := { l with left := l.left - 1 } :: rest })
    else chanDone c (s.modChan c fun x => { x with loops := rest })

/-- ENDLOOP (R411). -/
def execEndLoop (dt : Nat) (c : Fin 64) (s : State) : Answer :=
  .next (runInstr c (isOp 4) (fun _ => runEndLoop c) (advance dt s))

/-- WAIT: met at once, failed at once, or WAITING (R412, R422). -/
def runWait (c : Fin 64) (b : List Byte) (s : State) : State :=
  let k := ptrIx (fld b 2 1)
  let n := fld b 4 2
  let goOn := bit (fld b 1 1) 0
  let t := fld b 8 4
  let w := (s.chans[c]).slots[k]
  if n ≤ w.count then
    chanDone c (s.modChan c fun x => { x with slots := x.slots.set k { w with count := w.count - n } })
  else if slotOff s w then failWait c goOn stUnitOff s
  else s.modChan c fun x => { x with
    mode := .waiting, wait := some ⟨k, n, goOn, if t = 0 then none else some (s.elapsed + ticksUs t)⟩ }

/-- WAIT (R412). -/
def execWait (dt : Nat) (c : Fin 64) (s : State) : Answer := .next (runInstr c (isOp 5) (runWait c) (advance dt s))

/-- A WAITING channel's count is met (R422). -/
def waitMet (c : Fin 64) (s : State) : State :=
  let x := s.chans[c]
  match x.mode, x.wait with
  | .waiting, some w =>
    let k := ptrIx w.slot
    if w.count ≤ (x.slots[k]).count then
      chanNext c (s.modChan c fun x => { x with
        slots := vmod x.slots k fun y => { y with count := y.count - w.count } })
    else s
  | _, _ => s

/-- WAIT_SATISFIED (R422). -/
def execWaitSatisfied (dt : Nat) (c : Fin 64) (s : State) : Answer := .next (waitMet c (advance dt s))

/-- A WAIT's timeout_us has elapsed (R422). -/
def waitTimedOut (c : Fin 64) (s : State) : State :=
  let x := s.chans[c]
  match x.mode, x.wait with
  | .waiting, some w =>
    if due s w.deadline ∧ (x.slots[ptrIx w.slot]).count < w.count then failWait c w.goOn stTimeout s else s
  | _, _ => s

/-- WAIT_TIMEOUT (R422). -/
def execWaitTimeout (dt : Nat) (c : Fin 64) (s : State) : Answer := .next (waitTimedOut c (advance dt s))

/-- What an arrival point does once every write has arrived (R413, R416, R424, R425). -/
def arrived (c : Fin 64) (a : Arrival) (s : State) : State :=
  let s := s.modChan c fun x => { x with lastHost := none, arrival := none }
  let b := chanInstr s c
  match a with
  | .entry =>
    let n := satWord (s.chans[c]).entryBytes
    let s := chanEntry c stOk ((if bit (fld b 1 1) 0 then fHalf else 0) + (if bit (fld b 1 1) 1 then fFull else 0)) n s
    chanDone c (s.modChan c fun x => { x with entryBytes := 0 })
  | .slot =>
    (match fin? 64 (fld b 3 1) with
      | some m =>
        let k := ptrIx (fld b 4 1)
        let w := (s.chans[m]).slots[k]
        if w.kind = 2 ∧ w.index = c.val then chanDone c (slotAdd m k (fld b 6 2) s)
        else chanDone c (post 0x510D (chanFn s c) c (s.modChan c fun x => { x with slotDropped := true }))
      | none => chanDone c s)
  | .fence => chanDone c s
  | .endRun => endRunNow c (s.chans[c]).keptStatus s
  | .stop => endRunNow c stAborted s

/-- An arrival point: a host write since the last one is read back first (R424). -/
def arrivalPoint (c : Fin 64) (a : Arrival) (s : State) : State :=
  if (s.chans[c]).lastHost.isSome then s.modChan c fun x => { x with arrival := some a } else arrived c a s

/-- SIGNAL of kind ENTRY (R413). -/
def execSignalEntry (dt : Nat) (c : Fin 64) (s : State) : Answer :=
  .next (runInstr c (fun b => isOp 6 b && fld b 2 1 == 0) (fun _ => arrivalPoint c .entry) (advance dt s))

/-- SIGNAL of kind SLOT (R413, R423). -/
def execSignalSlot (dt : Nat) (c : Fin 64) (s : State) : Answer :=
  .next (runInstr c (fun b => isOp 6 b && fld b 2 1 == 1) (fun _ => arrivalPoint c .slot) (advance dt s))

/-- SET writes a run register (R414). -/
def runSet (c : Fin 64) (b : List Byte) (s : State) : State :=
  let t := fld b 2 1
  let v := fld b 8 8
  chanDone c (s.modChan c fun x =>
    if t ≤ 7 then
      if fld b 1 1 = 0 then { x with ptrs := x.ptrs.set (ptrIx t) ⟨fld b 3 1, BitVec.ofNat 64 v⟩ }
      else { x with ptrs := vmod x.ptrs (ptrIx t) fun p => { p with addr := p.addr + BitVec.ofNat 64 v } }
    else if t = 0x20 then { x with runId := BitVec.ofNat 32 (fld b 4 4) }
    else { x with shapes := x.shapes.set (⟨t % 4, Nat.mod_lt _ (by decide)⟩ : Fin 4) ⟨fld b 4 4, fld b 8 4, sfld b 12 4⟩ })

/-- SET (R414). -/
def execSetReg (dt : Nat) (c : Fin 64) (s : State) : Answer := .next (runInstr c (isOp 7) (runSet c) (advance dt s))

/-- CRCSTART resets and activates the accumulator (R415). -/
def runCrcStart (c : Fin 64) (b : List Byte) (s : State) : State :=
  chanDone c (s.modChan c fun x => { x with crc := some ⟨fld b 2 1, fld b 3 1 == 1, crcInit (fld b 2 1)⟩ })

/-- CRCSTART (R415). -/
def execCrcStart (dt : Nat) (c : Fin 64) (s : State) : Answer :=
  .next (runInstr c (isOp 8) (runCrcStart c) (advance dt s))

/-- CRCSTORE writes the value and latches CHAN_CRC (R415). -/
def runCrcStore (c : Fin 64) (b : List Byte) (s : State) : State :=
  let x := s.chans[c]
  let pi := ptrIx (fld b 2 1 / 16)
  let p := x.ptrs[pi]
  match x.crc with
  | none => haltOperand c p s
  | some k =>
    let n := if k.kind = 2 then 2 else 4
    let v := crcFinal k.kind k.value
    let d : Side := ⟨p.space, [(p.addr.toNat, n)]⟩
    if p.addr.toNat % n ≠ 0 then haltOperand c p s
    else if (windowFault s (chanFn s c) d).isSome then haltChan c 4 stBusError true p.space p.addr.toNat s
    else if ¬ sluicePermits x s.elapsed 0 n ∨ lpWaits s d then s
    else
      let s := accountWrite c d n (writeSide (chanFn s c) d.space false d.lines (leBytes n v) s)
      let s := if bit (fld b 1 1) 1 then addPtr c pi n s else s
      chanDone c (s.modChan c fun x => { x.spend s.elapsed 0 n with crc := none, lastCrc := BitVec.ofNat 32 v })

/-- CRCSTORE (R415). -/
def execCrcStore (dt : Nat) (c : Fin 64) (s : State) : Answer :=
  .next (runInstr c (isOp 9) (runCrcStore c) (advance dt s))

/-- FENCE (R416). -/
def execFence (dt : Nat) (c : Fin 64) (s : State) : Answer :=
  .next (runInstr c (isOp 0x0A) (fun _ => arrivalPoint c .fence) (advance dt s))

/-- END (R416). -/
def execEndRun (dt : Nat) (c : Fin 64) (s : State) : Answer :=
  .next (runInstr c (isOp 0x0F) (fun _ => arrivalPoint c .endRun) (advance dt s))

/-- ARRIVAL_READBACK_DONE (R424): what the arrival point holds is released. -/
def execArrivalReadbackDone (dt : Nat) (c : Fin 64) (s : State) : Answer :=
  let s := advance dt s
  .next (match (s.chans[c]).arrival with
    | some a => arrived c a s
    | none => s)

/-- A fetch of a host programme brings a block of 16 instructions as the buffer now holds them (R406). -/
def fetchBlock (c : Fin 64) (addr : Nat) (bytes : List Byte) (s : State) : State :=
  let x := s.chans[c]
  let off := addr - x.progAddr
  if x.inUse ∧ ¬ x.borrowed ∧ ¬ x.progMill ∧ x.progAddr ≤ addr ∧ off % 256 = 0 ∧ off < x.programme.length then
    let n := min 256 (x.programme.length - off)
    s.modChan c fun x => { x with
      programme := x.programme.take off ++ padTo n (bytes.take n) ++ x.programme.drop (off + n) }
  else s

/-- Bus Master Enable is cleared: the channels of a function that execute a run halt with cause BME (R431); `addrs` gives
the next address of each. -/
def haltBme (fn : Fn) (addrs : List (Fin 64 × Nat)) (s : State) : State :=
  (allFin 64).foldl (fun s c =>
    let x := s.chans[c]
    let addr := (addrs.lookup c).getD 0
    if chanFn s c ≠ fn ∨ x.mode = .halted then s
    else if x.borrowed then s
    else if x.inUse then haltChan c 5 stBusError false 0 addr s else s) s

end Sys2Proof.Machine
end

