-- ==== Sys2Proof/Machine/Power.lean ====
section
/-! DEFINITION. Meanings of wake, shutdown, supplies, watchdog and the full reset (R131 to R134, R488 to R496, R502 to
R505). -/

namespace Sys2Proof.Machine

/-- A rising edge of CAR_WAKE (R131). -/
def carWakeRises (s : State) : State :=
  if s.pwr.carWake then s
  else s.modPower fun p => { p with
    carWake := true, parkFrom := none, debounceFrom := if p.state = .off then none else some s.elapsed }

/-- CAR_WAKE_RISE (R131). -/
def execCarWakeRise (dt : Nat) (s : State) : Answer := .next (carWakeRises (advance dt s))

/-- CAR_WAKE has been high for 1 ms (R131, R133, R495). -/
def carWakeTaken (s : State) : State :=
  match s.pwr.debounceFrom with
  | none => s
  | some f =>
    if ¬ s.pwr.carWake ∨ s.elapsed < f + ticksMs 1 then s
    else
      let s := s.modPower fun p => { p with debounceFrom := none }
      match s.pwr.state with
      | .parked | .shutdown => wake .carWake f s
      | .starting | .running =>
        let s := s.modPower fun p => { p with recognised := true }
        if s.start.core = .valtyn then beginReady s else s
      | .off => s

/-- CAR_WAKE falls (R134, R161). -/
def carWakeFalls (s : State) : State :=
  if ¬ s.pwr.carWake then s
  else
    let short := s.pwr.debounceFrom.isSome
    let s := s.modPower fun p => { p with
      carWake := false, debounceFrom := none, parkFrom := if s.link.perstLow then some s.elapsed else none }
    if ¬ short then s
    else if mainRuns s then post 0x8101 wide wide s
    else s.modPower fun p => { p with deferred := p.deferred ++ [0x8101] }

/-- CAR_WAKE_FALL (R161). -/
def execCarWakeFall (dt : Nat) (s : State) : Answer := .next (carWakeFalls (advance dt s))

/-- A falling XTR0 edge held low for 1 µs (R132). -/
def xtr0Wakes (s : State) : State :=
  match s.pwr.state with
  | .parked | .shutdown => if s.pwr.wakeOnXtr0 then wake .xtr0 s.elapsed s else s
  | _ => s

/-- XTR0_WAKE_EDGE (R132). -/
def execXtr0WakeEdge (dt : Nat) (s : State) : Answer := .next (xtr0Wakes (advance dt s))

/-- The always-on supplies are first applied (R131), to a part whose board straps STRAP_SRIS (R508). -/
def aonApplied (sris : Bool) (s : State) : State :=
  if s.pwr.state = .off then
    wake .aonSupply s.elapsed (s.modPower fun p => { p with
      state := .parked, strapSris := sris, avsCode := p.avsFused, debounceFrom := if p.carWake then some s.elapsed else none })
  else s

/-- AON_POWER_APPLY (R131). -/
def execAonPowerApply (dt : Nat) (sris : Bool) (s : State) : Answer := .next (aonApplied sris (advance dt s))

/-- The always-on supplies are lost (R494). -/
def aonLost (s : State) : State :=
  let r := mainReset false s
  { r with pwr := { State.reset.pwr with
    carWake := s.pwr.carWake, resetNLow := s.pwr.resetNLow, avsFused := s.pwr.avsFused } }

/-- AON_POWER_LOSS (R494). -/
def execAonPowerLoss (dt : Nat) (s : State) : Answer := .next (aonLost (advance dt s))

/-- The policy's park_hold_s; 30 where no record is in force. -/
def parkHoldTicks (s : State) : Nat := ticksMs (1000 * s.start.outing.parkHoldS)

/-- The record that the next start will put in force (R132): of the active copy, or of the other first where the fold of the
present bank will give ST05 use_alternate. -/
def nextRecord (s : State) : Outing :=
  let learned := (foldBank 0x03 s.mram.clearAlternate s.mram.banks[bankOf s.start.number]).1
  let a := s.mram.identity.activeCopy
  let first := if (entryOf learned 5 noInst).useAlternate then 1 - a else a
  (decodeOuting s.mram.copies[first] <|> decodeOuting s.mram.copies[1 - first]).getD Outing.builtIn

/-- The shutdown condition has held for park_hold_s (R132, R134, R164): doors, journal, both displays' bypass, mirror. -/
def shutDown (s : State) : State :=
  let ready := s.pwr.state = .running ∨
    (s.pwr.state = .starting ∧ (stepEnded s (5, noInst) ∨ s.start.core = .recovery))
  if ready ∧ mainRuns s ∧ since s s.pwr.parkFrom (parkHoldTicks s) then
    let s := jot 0x11 0 noInst 0 0 0 0 (s.modStart fun a => { a with allDoorsClosed := true })
    let s := s.modPower fun p => { p with
      state := .shutdown, wakeOnXtr0 := (nextRecord s).wakeOnXtr0, parkFrom := none }
    let s := { s with guard := { s.guard with paths := s.guard.paths.map GPath.shut } }
    mirrorBegin 2 (drainAll 256 s)
  else s

/-- PARK_HOLD_EXPIRY (R134). -/
def execParkHoldExpiry (dt : Nat) (s : State) : Answer := .next (shutDown (advance dt s))

/-- All main supplies are below 0.3 V: PARKED, and a held wake starts the device (R134, R505). -/
def suppliesOff (s : State) : State :=
  if s.pwr.state = .shutdown ∧ ¬ s.pwr.pwrEn then
    let r := mainReset false s
    let r := { r with pwr := { s.pwr with state := .parked, suppliesGood := false, heldWake := none } }
    match s.pwr.heldWake with
    | some (w, from_) => wake w from_ r
    | none => r
  else s

/-- MAIN_SUPPLIES_OFF (R505). -/
def execMainSuppliesOff (dt : Nat) (s : State) : Answer := .next (suppliesOff (advance dt s))

/-- The supplies of a wake have come later than ST01's budget of 40 ms (R136, R161). -/
def wakeLate (s : State) : State :=
  if s.pwr.resetHeld.isEmpty ∧ s.clk.wakeAt + ticksMs 40 < s.elapsed then s.modPower fun p => { p with st01Late := true }
  else s

/-- Every main supply has been good for 500 µs (R504): internal reset is released. -/
def suppliesAreGood (s : State) : State :=
  if s.pwr.state = .starting ∧ s.pwr.pwrEn ∧ ¬ s.pwr.suppliesGood then
    let s := wakeLate s
    let s := s.modPower fun p => { p with suppliesGood := true }
    if s.pwr.resetHeld.isEmpty then releaseMain s.start.cause s else releaseReset s
  else s

/-- SUPPLIES_GOOD (R504). -/
def execSuppliesGood (dt : Nat) (s : State) : Answer := .next (suppliesAreGood (advance dt s))

/-- PERST# asserts (R492, R493): an edge after ST01, or while internal reset is held, is a full reset, and the shutdown condition is judged (R134). -/
def perstAsserts (s : State) : State :=
  if s.link.perstLow then s
  else
    let s := { s with link := { s.link with perstLow := true } }
    let s := s.modPower fun p => { p with parkFrom := if p.carWake then none else some s.elapsed }
    if (mainRuns s ∧ stepEnded s (1, noInst)) ∨ ¬ s.pwr.resetHeld.isEmpty then assertReset .perst s else s

/-- PERST_ASSERT (R492). -/
def execPerstAssert (dt : Nat) (s : State) : Answer := .next (perstAsserts (advance dt s))

/-- PERST# deasserts (R34, R131). -/
def perstDeasserts (s : State) : State :=
  if ¬ s.link.perstLow then s
  else
    let s := { s with link := { s.link with perstLow := false, rrsFrom := s.elapsed, speed := 1 } }
    let s := s.modPower fun p => { p with parkFrom := none }
    match s.pwr.state with
    | .parked | .shutdown => wake .perst s.elapsed s
    | _ => s

/-- PERST_DEASSERT (R34). -/
def execPerstDeassert (dt : Nat) (s : State) : Answer := .next (perstDeasserts (advance dt s))

/-- HOT_RESET_RECEIVED (R492). -/
def execHotResetReceived (dt : Nat) (s : State) : Answer :=
  let s := advance dt s
  .next (if s.link.up then assertReset .hotReset s else s)

/-- A clock monitor sees a loss or an unlock (R127): the event enters the log, then a full reset. -/
def clockLost (f : ClockFault) (s : State) : State :=
  match s.pwr.state with
  | .off | .parked => s
  | .starting | .running | .shutdown =>
    let c := s.clk
    let (code, c) : Nat × Clocks := match f with
      | .crystal => (0xA001, { c with xtalOk := false })
      | .timePll => (0xA003, { c with pllLock := c.pllLock &&& 0b1110 })
      | .fabricPll => (0xA003, { c with pllLock := c.pllLock &&& 0b1101 })
      | .corePll => (0xA003, { c with pllLock := c.pllLock &&& 0b1011 })
      | .ddrPll => (0xA003, { c with pllLock := c.pllLock &&& 0b0111 })
    assertReset .clock (recordAll 257 (post code wide wide { s with clk := c }))

/-- CLOCK_LOSS (R127). -/
def execClockLoss (dt : Nat) (f : ClockFault) (s : State) : Answer := .next (clockLost f (advance dt s))

/-- RESET_N is low for 1 µs (R492). -/
def execResetNAssert (dt : Nat) (s : State) : Answer :=
  let s := advance dt s
  .next (assertReset .resetN (s.modPower fun p => { p with resetNLow := true }))

/-- RESET_N rises; internal reset ends 100 µs later (R492). -/
def resetNRises (s : State) : State :=
  s.modPower fun p => { p with
    resetNLow := false
    releaseAt := if p.resetHeld.contains .resetN then some (max (s.elapsed + ticksUs 100) (p.releaseAt.getD 0))
      else p.releaseAt }

/-- RESET_N_RELEASE (R492). -/
def execResetNRelease (dt : Nat) (s : State) : Answer := .next (resetNRises (advance dt s))

/-- SUPPLY_FAULT (R504): after supplies good, and not in the fall that PWR_EN began (R505). -/
def execSupplyFault (dt : Nat) (s : State) : Answer :=
  let s := advance dt s
  .next (if s.pwr.suppliesGood ∧ s.pwr.pwrEn then assertReset .supply s else s)

/-- FULL_RESET_RELEASE (R492). -/
def execFullResetRelease (dt : Nat) (s : State) : Answer := .next (releaseReset (advance dt s))

/-- Valtyn, or the loader, services the watchdog (R489). -/
def serviceWatchdog (s : State) : State :=
  if ¬ s.pwr.wdtArmed ∨ ¬ mainRuns s then s
  else
    let late := s.pwr.wdtLast + ticksMs 150 < s.elapsed
    let s := s.modPower fun p => { p with
      wdtLast := s.elapsed, wdtPause := 0
      wdtLate := if late ∧ p.wdtLate ≠ 0xFFFF then p.wdtLate + 1 else p.wdtLate }
    if late then post 0x9011 wide wide s else s

/-- WATCHDOG_SERVICE (R489). -/
def execWatchdogService (dt : Nat) (s : State) : Answer := .next (serviceWatchdog (advance dt s))

/-- The watchdog expires, 250 ms ± 10 % after the last service, time in which the debug port halts the core apart (R489). -/
def execWatchdogExpiry (dt : Nat) (s : State) : Answer :=
  let s := advance dt s
  .next (if s.pwr.wdtArmed ∧ s.pwr.wdtHalt = none ∧ s.pwr.wdtLast + s.pwr.wdtPause + ticksMs 225 ≤ s.elapsed then assertReset .watchdog s else s)

/-- The lockstep pair disagrees (R490). -/
def lockstepFails (s : State) : State :=
  if mainRuns s then (assertReset .watchdog s).modPower fun p => { p with lockstep := true } else s

/-- LOCKSTEP_MISMATCH (R490). -/
def execLockstepMismatch (dt : Nat) (s : State) : Answer := .next (lockstepFails (advance dt s))

/-- The AVS target (R502). -/
def avsTarget (p : Power) : Nat := if p.avsRaised then min (p.avsFused + 2) 8 else p.avsFused

/-- The AVS code moves one step towards its target, at most once in each 1 ms (R502). -/
def avsMove (s : State) : State :=
  if mainRuns s ∧ (s.pwr.avsAt = none ∨ since s s.pwr.avsAt (ticksMs 1)) ∧ s.pwr.avsCode ≠ avsTarget s.pwr then
    s.modPower fun p => { p with
      avsCode := if p.avsCode < avsTarget p then p.avsCode + 1 else p.avsCode - 1, avsAt := some s.elapsed }
  else s

/-- AVS_STEP (R502). -/
def execAvsStep (dt : Nat) (s : State) : Answer := .next (avsMove (advance dt s))

/-- A mirror of the log completes (R134, R487, R492). -/
def mirrorDone (s : State) : State :=
  match s.log.mirroring with
  | none => s
  | some reason =>
    let s := mirrorEnd s
    if reason = 2 then s.modPower fun p => { p with pwrEn := false }
    else if reason = 3 then assertReset .deviceReset s
    else s

/-- LOG_MIRROR_DONE (R487). -/
def execLogMirrorDone (dt : Nat) (s : State) : Answer := .next (mirrorDone (advance dt s))

end Sys2Proof.Machine
end

