-- ==== Sys2Proof/Machine/Fence.lean ====
section
/-! DEFINITION. The FLR fence, SR-IOV, Bus Master Enable and link down (R56 to R66, R432, R465, R470). -/

namespace Sys2Proof.Machine

/-! ### What a fence stops -/

/-- The function's own registers at t = 0 (R12, R56): everything resets but the sticky AER bits of PCI Express. -/
def fenceRegisters (fn : Fn) (s : State) : State :=
  s.modFn fn fun f => { FnState.reset .fencing with
    flrAt := some s.elapsed, transPending := true, aer := f.aer, serialHi := f.serialHi }

/-- The tailrace queues of a function are reset without further writes (R56). -/
def fenceQueues (fn : Fn) (s : State) : State :=
  { s with queues := Vector.ofFn fun q => if s.plan.queues[q] = fn then Queue.reset else s.queues[q] }

/-- An ACCEPTED hamper whose sender is fenced (R470): what it staged is INVALID, and its notice is not written (R89). -/
def dropAcceptedWork (a : Accepted) (s : State) : State :=
  match a.op, fin? 2 a.index, fin? 4 a.index with
  | 0x0B02, some slot, _ => s.modMram fun m => { m with slots := m.slots.set slot ⟨.invalid, []⟩ }
  | 0x0B04, some copy, _ => s.modMram fun m => { m with copies := m.copies.set copy [] }
  | 0x0303, _, some ch => s.modPos ch fun p => { p with waiting := none }
  | _, _, _ => s

/-- The hampers of a fenced function (R83, R89, R470). -/
def fenceHampers (fn : Fn) (s : State) : State :=
  let mine := s.accepted.filter fun a => a.fn == fn
  let s := mine.foldl (fun s a => dropAcceptedWork a s) s
  { s with accepted := s.accepted.filter fun a => a.fn != fn, owed := s.owed.filter fun o => o.fn != fn }

/-- The streams of a fenced function stop at their line boundary, their partial frames undelivered (R59), and count as
switched in every epoch (R310, R313). -/
def fenceStreams (fn : Fn) (s : State) : State :=
  let s := s.modEpochs fn fun e => { e with items := [] }
  (allFin 32).foldl (fun (s : State) (n : Fin 32) =>
    if s.plan.streams[n] = fn ∧ (s.streams[n]).mode ≠ .closed then
      switchStream n (s.modStream n fun st => { st with
        mode := .closed, frame := none, staged := [], edges := [], gap := none, nextCfg := none })
    else s) s

/-- The hoppers of a fenced function take no trigger, stop their copies and drop what they hold (R340, R465). -/
def fenceHoppers (fn : Fn) (s : State) : State :=
  (allFin 16).foldl (fun (s : State) (i : Fin 16) =>
    if s.plan.hoppers[i] = fn ∧ (s.hoppers[i]).mode ≠ .unbound then
      let s := match (s.hoppers[i]).copy with
        | some c => unborrow c.channel s
        | none => s
      s.modHop i fun h => { h with
        mode := .bound, entries := [], partialSeq := none, copy := none, disarming := none, endAt := none, snap := none }
    else s) s

/-- The comparators of a fenced function are disarmed; pulses in progress complete (R60, R465). -/
def fenceCmps (fn : Fn) (s : State) : State :=
  (allFin 16).foldl (fun (s : State) (n : Fin 16) =>
    if s.plan.comparators[n] = fn then s.modCmp n fun c => { c with mode := .idle, reached := none } else s) s

/-- The channels of a fenced function stop, and return no reads (R432). -/
def fenceChans (fn : Fn) (s : State) : State :=
  { s with chans := Vector.ofFn fun c => if s.plan.channels[c] = fn then Chan.reset else s.chans[c] }

/-- The preparation engines discard the function's work and end its bindings (R349, R470). -/
def fencePrep (fn : Fn) (s : State) : State :=
  startDecode (startBuffer (s.modPrep fun p => { p with
    jobs := p.jobs.filter fun j => j.fn != fn
    bindings := p.bindings.filter fun b => b.fn != fn
    decRun := p.decRun.filter fun j => j.fn != fn
    decQueue := p.decQueue.filter fun j => j.fn != fn
    ended := p.ended.filter fun e => e.fn != fn }))

/-- The routes of a fenced function are lost (R64, R459, R470). -/
def fenceRoutes (fn : Fn) (s : State) : State :=
  let s := (allFin 2).foldl (fun (s : State) (i : Fin 2) =>
    match (s.audio[i]).route with
    | some r => if r.fn = fn then
        s.modAudio i fun a => { a with
          route := none, submitted := false, ready := a.ready.map fun x => { x with routed := false } }
      else s
    | none => s) s
  let s := (allFin 2).foldl (fun (s : State) (k : Fin 2) =>
    s.modPath k fun x => { x with route := x.route.filter fun r => s.plan.queues[r.queue] != fn }) s
  if fn = 0 then s.modWit fun w => { w with route := none, delivering := false } else s

/-- Points that comparators reached before t = 0 have fired (R465). -/
def settleCmpsOf (fn : Fn) (s : State) : State :=
  (allFin 16).foldl (fun (s : State) (n : Fin 16) =>
    if s.plan.comparators[n] = fn ∧ (s.cmps[n]).mode ≠ .idle then settleOne n s else s) s

/-- The fence of one function begins (R56 to R60): no effect on a function that is ABSENT, FENCING or WEDGED. -/
def beginFence (fn : Fn) (s : State) : State :=
  match (s.fns[fn]).mode with
  | .bare | .ready =>
    let s := fenceCmps fn (settleCmpsOf fn (cutChans fn s))
    let s := fenceHampers fn (fenceQueues fn (fenceRegisters fn s))
    let s := fenceHoppers fn (fenceStreams fn s)
    sweepWaits (fenceRoutes fn (fencePrep fn (fenceChans fn s)))
  | _ => s

/-- Every enabled VF is fenced, and VF Enable clears (R63). -/
def fenceVfs (s : State) : State :=
  (allFin 16).foldl (fun (s : State) (f : Fn) => if f = 0 then s else beginFence f s)
    { s with link := { s.link with vfEnable := false } }

/-- An Initiate Function Level Reset write is accepted (R56, R61, R63): PF0's clears VF Enable and PTM Enable too. -/
def flr (fn : Fn) (s : State) : State :=
  if fn ≠ 0 then beginFence fn s
  else match (s.fns[(0 : Fin 16)]).mode with
    | .bare | .ready =>
      let s := fenceVfs (beginFence 0 s)
      setPtmEnable false { s with link := { s.link with numVfs := 0 } }
    | _ => s

/-- A configuration write reaches a function: the link is up and its 60 ms of RRS have passed (R34, R56, R62). -/
def cfgReaches (s : State) (fn : Fn) : Bool :=
  s.link.up && since s (some s.link.rrsFrom) (ticksMs 60) &&
    (match (s.fns[fn]).mode with
      | .bare | .ready => true
      | _ => false)

/-- FLR_INITIATE (R56). -/
def execFlrInitiate (dt : Nat) (fn : Fn) (s : State) : Answer :=
  let s := advance dt s
  .next (if cfgReaches s fn then flr fn s else s)

/-! ### The end of a fence -/

/-- What a closing fence releases (R60, R340, R383, R432). -/
def releaseFenced (fn : Fn) (s : State) : State :=
  let s := (allFin 16).foldl (fun (s : State) (i : Fin 16) => if s.plan.hoppers[i] = fn then hopFree i s else s) s
  let s := (allFin 32).foldl (fun (s : State) (n : Fin 32) =>
    if s.plan.streams[n] = fn then endFlow 3 n (endFlow 1 n s) else s) s
  sweepWaits s

/-- The state a function takes when its fence closes: ABSENT for a VF that is no longer enabled (R39, R61, R63). -/
def afterFence (s : State) (fn : Fn) : FnMode :=
  if fn = 0 ∨ (s.link.vfEnable = true ∧ fn.val ≤ s.link.numVfs) then .bare else .absent

/-- The fence closes within 100 ms of t = 0 (R61). -/
def fenceCloses (fn : Fn) (s : State) : State :=
  let f := s.fns[fn]
  if f.mode = .fencing ∧ ¬ due s (f.flrAt.map fun t => t + ticksMs 100 + 1) then
    (releaseFenced fn s).modFn fn fun f => { f with mode := afterFence s fn, flrAt := none, transPending := false }
  else s

/-- FENCE_CLOSED (R61). -/
def execFenceClosed (dt : Nat) (fn : Fn) (s : State) : Answer := .next (fenceCloses fn (advance dt s))

/-- The fence is still open 100 ms after t = 0 (R62, R491): `holder` is the source kind of the engine that holds it. -/
def fenceWedges (fn : Fn) (holder : Nat) (s : State) : State :=
  let f := s.fns[fn]
  if f.mode = .fencing ∧ since s f.flrAt (ticksMs 100) then
    post 0x1108 fn holder (s.modFn fn fun f => { f with
      mode := .wedged, flrAt := none, transPending := false, aer := Aer.reset })
  else s

/-- FENCE_TIMEOUT_WEDGE (R62). -/
def execFenceTimeoutWedge (dt : Nat) (fn : Fn) (holder : Nat) (s : State) : Answer :=
  .next (fenceWedges fn holder (advance dt s))

/-! ### SR-IOV -/

/-- VF Enable is set (R39): the first NumVFs functions become BARE. -/
def enableVfs (s : State) : State :=
  let s := { s with link := { s.link with vfEnable := true } }
  { s with fns := Vector.ofFn fun f =>
      if f ≠ 0 ∧ f.val ≤ s.link.numVfs ∧ (s.fns[f]).mode = .absent then
        { FnState.reset .bare with serialHi := (s.fns[f]).serialHi }
      else s.fns[f] }

/-- VF_ENABLE_SET (R39). -/
def execVfEnableSet (dt : Nat) (s : State) : Answer :=
  let s := advance dt s
  .next (if cfgReaches s 0 ∧ ¬ s.link.vfEnable then enableVfs s else s)

/-- VF_ENABLE_CLEAR (R63). -/
def execVfEnableClear (dt : Nat) (s : State) : Answer :=
  let s := advance dt s
  .next (if cfgReaches s 0 ∧ s.link.vfEnable then fenceVfs s else s)

/-! ### Bus Master Enable -/

/-- What the function's channels and hopper copies have moved so far (R431, R432). -/
def settleMoves (fn : Fn) (s : State) : State :=
  (allFin 16).foldl (fun (s : State) (i : Fin 16) => if s.plan.hoppers[i] = fn then copyProgress i s else s) (cutChans fn s)

/-- A hopper copy of the function halts with cause BME, and its copy ends BUS_ERROR (R66, R341, R433). -/
def haltCopies (fn : Fn) (addrs : List (Fin 64 × Nat)) (s : State) : State :=
  (allFin 16).foldl (fun (s : State) (i : Fin 16) =>
    if s.plan.hoppers[i] ≠ fn ∨ (s.hoppers[i]).copy.isNone then s
    else
      match (s.hoppers[i]).copy with
      | none => s
      | some c =>
        let s := haltBorrow c.channel 5 false 0 ((addrs.lookup c.channel).getD 0) (s.modHop i fun h => { h with copy := none })
        post 0x6404 fn i (hopEntry i stBusError fFull c.bytes s)) s

/-- Bus Master Enable is cleared (R66, R431): the first entry of each of the function's queues after it is set again
carries OVERFLOW. -/
def clearBusMaster (fn : Fn) (addrs : List (Fin 64 × Nat)) (s : State) : State :=
  let s := (settleMoves fn s).modFn fn fun f => { f with busMaster := false }
  let s := haltCopies fn addrs (haltBme fn addrs s)
  { s with queues := Vector.ofFn fun q =>
      let Q : Queue := s.queues[q]
      if s.plan.queues[q] = fn ∧ Q.enabled then { Q with owed := true } else Q }

/-- BUS_MASTER_ENABLE_CLEAR (R66). -/
def execBusMasterEnableClear (dt : Nat) (fn : Fn) (addrs : List (Fin 64 × Nat)) (s : State) : Answer :=
  let s := advance dt s
  .next (if cfgReaches s fn && (s.fns[fn]).busMaster then clearBusMaster fn addrs s else s)

/-- BUS_MASTER_ENABLE_SET (R66): what the interval withheld shows in the GAP of the next tags (R308) and in the queues. -/
def execBusMasterEnableSet (dt : Nat) (fn : Fn) (s : State) : Answer :=
  let s := advance dt s
  .next (if cfgReaches s fn then s.modFn fn fun f => { f with busMaster := true } else s)

/-! ### Link down -/

/-- DL_Down not caused by hot reset or PERST# (R65): every function is fenced, every configuration space takes its reset
values, and the journal records it. -/
def linkDown (s : State) : State :=
  if ¬ s.link.up then s
  else
    let s := setPtmEnable false (fenceVfs (beginFence 0 s))
    let s := { s with fns := s.fns.map fun (f : FnState) => { f with aer := Aer.reset, cfg := [], malformedMasked := false } }
    jot 0x10 0 noInst 0 0 0 0 { s with link := { s.link with up := false, vfEnable := false, numVfs := 0, ptmEnable := false } }

/-- DL_DOWN (R65). -/
def execDlDown (dt : Nat) (s : State) : Answer := .next (linkDown (advance dt s))

/-- REFCLK is lost (R127): the link goes down, and Fantail enters HOLDOVER. -/
def refclkLost (s : State) : State :=
  if ¬ s.clk.refclkOk then s
  else
    let s := { s with clk := { s.clk with refclkOk := false } }
    if mainRuns s then (linkDown (post 0xA002 wide wide s)).modFantail Fantail.toHoldover else s

/-- REFCLK_LOSS (R127). -/
def execRefclkLoss (dt : Nat) (s : State) : Answer := .next (refclkLost (advance dt s))

/-- REFCLK_RESTORED (R127). -/
def execRefclkRestored (dt : Nat) (s : State) : Answer :=
  let s := advance dt s
  .next { s with clk := { s.clk with refclkOk := true } }

end Sys2Proof.Machine
end

