-- ==== Sys2Proof/Machine/Hampers.lean ====
section
/-! DEFINITION. Meanings of the chapter "Hampers and tailraces": porch, rings, tailrace queues and this chapter's hampers
(R77 to R108). -/

namespace Sys2Proof.Machine

/-! ### Porch and rings -/

/-- A write to PORCH_DOORBELL (R77, R78). -/
def ringPorch (fn : Fn) (s : State) : State :=
  if porchReady s fn && !(s.fns[fn]).porchBusy then
    s.modFn fn fun f => { f with
      porchBusy := true, porchDone := false, porchCopy := f.porchReq, doorbells := f.doorbells ++ [true] }
  else
    post 0x1107 fn wide (s.modFn fn fun f => { f with porchRefused := true })

/-- An index write that is ignored (R81, R106). -/
def indexError (fn : Fn) (s : State) : State :=
  post 0x1110 fn wide (s.modFn fn fun f => { f with indexErr := true })

/-- The rings of the function are set up. -/
def ringsUp (f : FnState) : Bool := f.mode == .ready

/-- A write of REQ_TAIL (R81). Once Valtyn has fetched a RINGS_CLEAR it answers what REQ_TAIL held then, and what is
submitted later is lost with the rings (R108, log entry 11). -/
def writeReqTail (fn : Fn) (v : Word) (s : State) : State :=
  let f := s.fns[fn]
  let t : BitVec 6 := v.setWidth 6
  if ringsUp f ∧ (t - f.reqTail).toNat ≤ (f.repHead + 32 - f.reqTail).toNat ∧ (t - f.repHead).toNat ≤ 32 then
    s.modFn fn fun f => { f with
      reqTail := t
      doorbells := if f.clearing then f.doorbells else f.doorbells ++ List.replicate (t - f.reqTail).toNat false }
  else indexError fn s

/-- A write of REP_HEAD (R81). -/
def writeRepHead (fn : Fn) (v : Word) (s : State) : State :=
  let f := s.fns[fn]
  let h : BitVec 6 := v.setWidth 6
  if ringsUp f ∧ (h - f.repHead).toNat ≤ (f.repTail - f.repHead).toNat then
    s.modFn fn fun f => { f with repHead := h }
  else indexError fn s

/-! ### Queues -/

/-- An index lies from the head to the tail, going forward with wrap (R98): 0 alone in a DISABLED queue. -/
def Queue.holds (Q : Queue) (h : Nat) : Bool :=
  h == Q.head || (decide (h < Q.entries) &&
    decide ((h + Q.entries - Q.head) % Q.entries ≤ (Q.tail + Q.entries - Q.head) % Q.entries))

/-- A write of TQ_HEAD (R98). -/
def writeTqHead (fn : Fn) (q : Fin 32) (v : Word) (s : State) : State :=
  let h := v.toNat % 0x10000
  if (s.queues[q]).holds h then
    s.modQueue q fun Q => { Q with head := h }
  else post 0x1116 fn q (s.modQueue q fun Q => { Q with headErr := true })

/-- A full read of TQ_DROPPED (R107). -/
def readTqDropped (q : Fin 32) (s : State) : Word × State :=
  ((s.queues[q]).dropped, s.modQueue q fun Q => { Q with dropped := 0 })

/-- A queue at its reset values (R107), with what it keeps of dropped entries (R100, R105). QUEUE_CLEAR takes it there at
once, where R107 speaks of the QUEUE_SET after it (log entry 53). -/
def Queue.off (Q : Queue) : Queue where
  enabled := false
  stopped := false
  millpond := false
  anyOrder := false
  vector := 0xFF
  entries := 0
  base := 0
  threshold := 0
  timeUs := 0
  head := 0
  tail := 0
  phase := true
  headErr := false
  overflow := false
  dropped := Q.dropped
  owed := Q.owed
  unsignalled := 0
  timerFrom := none
  jobs := []

/-- The thresholds that R102 refuses. -/
def thresholdBad (count timeUs entries : Nat) : Bool := count == 0 || (timeUs == 0 && count > entries - 1)

/-- A vector that RINGS_SET and QUEUE_SET refuse. -/
def vectorBad (v : Nat) : Bool := v > 31 && v != 0xFF

/-- A 64-bit entry count that is a power of two from 64 to 65 536 (R94). -/
def entriesBad (n : Nat) : Bool := !([64, 128, 256, 512, 1024, 2048, 4096, 8192, 16384, 32768, 65536].contains n)

/-- QUEUE_SET (R94, R102, R108). -/
def queueSetBody (s : State) (h : Hamper) : Verdict :=
  let p := h.payload
  match fin? 32 (fld p 0 1) with
  | none => badArg
  | some q =>
    let place := fld p 1 1
    let order := fld p 2 1
    let vec := fld p 3 1
    let n := fld p 4 4
    let base := fld p 8 8
    let count := fld p 16 2
    let timeUs := fld p 18 2
    if s.plan.queues[q] ≠ h.fn then notOwner
    else if (s.queues[q]).enabled then wrongState
    else if h.tail 24 || !zeros p 20 4 || place > 1 || order > 1 || entriesBad n || base % 4096 != 0 ||
        vectorBad vec || thresholdBad count timeUs n ||
        (if place = 1 then h.fn != 0 || !s.start.ident.bar2Enable || !inGrant s base (16 * n)
          else base + 16 * n > 2 ^ 64) then badArg
    else
      let s := if place = 1 then millWrite base (List.replicate (16 * n) 0) s else s
      .ok (s.modQueue q fun Q => { Q.off with
        enabled := true, millpond := place = 1, anyOrder := order = 1, vector := vec, entries := n, base := base,
        threshold := count, timeUs := timeUs }) []

/-- QUEUE_MODERATE (R101, R102, R108). -/
def queueModerateBody (s : State) (h : Hamper) : Verdict :=
  let p := h.payload
  match fin? 32 (fld p 0 1) with
  | none => badArg
  | some q =>
    let count := fld p 2 2
    let timeUs := fld p 4 2
    if s.plan.queues[q] ≠ h.fn then notOwner
    else if ¬ (s.queues[q]).enabled then wrongState
    else if h.tail 8 || !zeros p 1 1 || !zeros p 6 2 || thresholdBad count timeUs (s.queues[q]).entries then badArg
    else
      let s := s.modQueue q fun Q => { Q with threshold := count, timeUs := timeUs }
      let Q := s.queues[q]
      let met := Q.unsignalled ≠ 0 ∧ (Q.unsignalled ≥ count ∨ (timeUs ≠ 0 ∧ since s Q.timerFrom (ticksUs timeUs)))
      .ok (if met then signalQueue q s else s) []

/-- The first user that keeps a queue from being cleared, in the order of R105: (user_kind, user_index). The index of a
pending job is 0 (log entry 53). -/
def queueUser (s : State) (q : Fin 32) : Option (Nat × Nat) :=
  let first (n : Nat) (p : Fin n → Bool) : Option Nat := ((allFin n).find? p).map Fin.val
  (first 32 fun i => (s.streams[i]).usesQueue q).map (fun i => (1, i)) <|>
  (first 64 fun i => (s.chans[i]).usesQueue q).map (fun i => (2, i)) <|>
  (first 16 fun i => (s.hoppers[i]).usesQueue q).map (fun i => (3, i)) <|>
  (if (s.queues[q]).jobs.isEmpty then none else some (4, 0)) <|>
  (first 16 fun i => (s.cmps[i]).usesQueue q).map (fun i => (5, i)) <|>
  (first 16 fun i => (s.fns[i]).noticeQueue == some q).map (fun i => (6, i)) <|>
  (first 2 fun i => (s.guard.paths[i]).usesQueue q).map (fun i => (7, i)) <|>
  (if s.wit.usesQueue q then some (8, 0) else none) <|>
  (first 2 fun i => (s.audio[i]).usesQueue q).map (fun i => (9, i))

/-- QUEUE_CLEAR (R105, R108). A DISABLED queue has no user to name: WRONG_STATE has no error payload (log entry 53). -/
def queueClearBody (s : State) (h : Hamper) : Verdict :=
  let p := h.payload
  match fin? 32 (fld p 0 1) with
  | none => badArg
  | some q =>
    if s.plan.queues[q] ≠ h.fn then notOwner
    else if ¬ (s.queues[q]).enabled then wrongState
    else match (if (s.queues[q]).stopped then none else queueUser s q) with
      | some (k, i) => .refuse stWrongState (record [(1, k), (1, i), (2, 0)])
      | none =>
        if h.tail 4 || !zeros p 1 3 then badArg
        else .ok (s.modQueue q Queue.off) []

/-- RINGS_SET (R79, R108). A ring whose 8 KiB pass the end of host memory is refused as R76 refuses such a buffer (log entry
53). -/
def ringsSetBody (s : State) (h : Hamper) : Verdict :=
  let p := h.payload
  let a := fld p 0 8
  let b := fld p 8 8
  let vec := fld p 16 1
  if ¬ h.porch ∨ (s.fns[h.fn]).mode ≠ .bare then wrongState
  else if h.tail 24 || !zeros p 17 7 || a % 4096 != 0 || b % 4096 != 0 || a + 8192 > 2 ^ 64 || b + 8192 > 2 ^ 64 ||
      (decide (a < b + 8192) && decide (b < a + 8192)) || vectorBad vec then badArg
  else .ok (s.modFn h.fn fun f => { f with
    mode := .ready, reqBase := a, repBase := b, repVector := vec, reqTail := 0, reqHead := 0, repTail := 0,
    repHead := 0, clearing := false }) []

/-- RINGS_CLEAR (R108): the reply counts the requests up to REQ_TAIL that Valtyn still answers; the function is BARE
once the last of them has its reply (log entry 11). -/
def ringsClearBody (s : State) (h : Hamper) : Verdict :=
  if ¬ h.porch ∨ (s.fns[h.fn]).mode ≠ .ready then wrongState
  else if h.tail 0 then badArg
  else
    let n := ((s.fns[h.fn]).doorbells.filter (· == false)).length
    .ok (s.modFn h.fn fun f => if n = 0 then clearRings f else { f with clearing := true }) (leBytes 4 n)

/-- NOTICE_ROUTE (R88, R108). -/
def noticeRouteBody (s : State) (h : Hamper) : Verdict :=
  let p := h.payload
  let q := fld p 0 1
  let count := leBytes 4 (s.fns[h.fn]).noticesDiscarded.toNat
  if q = 0xFF then
    if h.tail 4 || !zeros p 1 3 then badArg
    else .ok (s.modFn h.fn fun f => { f with noticeQueue := none, noticesDiscarded := 0 }) count
  else match fin? 32 q with
    | none => badArg
    | some q =>
      if s.plan.queues[q] ≠ h.fn then notOwner
      else if h.tail 4 || !zeros p 1 3 then badArg
      else .ok (s.modFn h.fn fun f => { f with noticeQueue := some q, noticesDiscarded := 0 }) count

/-- The queues a function owns, as bits (DEVICE_INFO). -/
def queuesOwned (s : State) (fn : Fn) : Nat :=
  ((allFin 32).filter fun q => s.plan.queues[q] = fn).foldl (fun a q => a + 2 ^ q.val) 0

/-- DEVICE_INFO (R108). -/
def deviceInfoBody (s : State) (h : Hamper) : Verdict :=
  if h.tail 0 then badArg
  else .ok s (record [(1, s.start.major), (1, s.start.minor), (1, 0xB0), (1, h.fn), (2, 240), (1, 32),
    (1, measIndex s), (4, s.plan.planId.toNat), (4, s.deviceEpoch.toNat), (8, (nowNs s).toNat),
    (4, queuesOwned s h.fn), (4, 0)])

/-- ECHO (R108): the reply payload equals the request payload. -/
def echoBody (s : State) (h : Hamper) : Verdict := .ok s (h.payload.take h.length)

/-! ### The meanings -/

/-- PORCH_DOORBELL (R77). -/
def execPorchDoorbell (dt : Nat) (fn : Fn) (s : State) : Answer :=
  .next (writeRegister fn 0x1200 (ringPorch fn) (advance dt s))

/-- REQ_TAIL_WRITE (R81). -/
def execReqTailWrite (dt : Nat) (fn : Fn) (v : Word) (s : State) : Answer :=
  .next (writeRegister fn 0x2000 (writeReqTail fn v) (advance dt s))

/-- REP_HEAD_WRITE (R81). -/
def execRepHeadWrite (dt : Nat) (fn : Fn) (v : Word) (s : State) : Answer :=
  .next (writeRegister fn 0x200C (writeRepHead fn v) (advance dt s))

/-- DEVICE_INFO (R108). -/
def execDeviceInfo (dt : Nat) (r : Req) (s : State) : Answer :=
  .next (serve r 0x0001 0 false deviceInfoBody (advance dt s))

/-- RINGS_SET (R79). -/
def execRingsSet (dt : Nat) (r : Req) (s : State) : Answer :=
  .next (serve r 0x0002 0 false ringsSetBody (advance dt s))

/-- RINGS_CLEAR (R108). -/
def execRingsClear (dt : Nat) (r : Req) (s : State) : Answer :=
  .next (serve r 0x0003 0 false ringsClearBody (advance dt s))

/-- NOTICE_ROUTE (R88). -/
def execNoticeRoute (dt : Nat) (r : Req) (s : State) : Answer :=
  .next (serve r 0x0004 0 false noticeRouteBody (advance dt s))

/-- ECHO (R108). -/
def execEcho (dt : Nat) (r : Req) (s : State) : Answer :=
  .next (serve r 0x0005 0 false echoBody (advance dt s))

/-- QUEUE_SET (R108). -/
def execQueueSet (dt : Nat) (r : Req) (s : State) : Answer :=
  .next (serve r 0x0110 0 false queueSetBody (advance dt s))

/-- QUEUE_CLEAR (R105). -/
def execQueueClear (dt : Nat) (r : Req) (s : State) : Answer :=
  .next (serve r 0x0111 0 false queueClearBody (advance dt s))

/-- QUEUE_MODERATE (R108). -/
def execQueueModerate (dt : Nat) (r : Req) (s : State) : Answer :=
  .next (serve r 0x0112 0 false queueModerateBody (advance dt s))

/-- TQ_HEAD_WRITE (R98). -/
def execTqHeadWrite (dt : Nat) (fn : Fn) (q : Fin 32) (v : Word) (s : State) : Answer :=
  .next (writeRegister fn (0x3000 + 0x20 * q) (writeTqHead fn q v) (advance dt s))

/-- TQ_DROPPED_READ (R107). -/
def execTqDroppedRead (dt : Nat) (fn : Fn) (q : Fin 32) (s : State) : Answer :=
  .next (readRegister fn (0x300C + 0x20 * q) (readTqDropped q) (advance dt s))

/-- A queue's moderation timer reaches time_us (R101). -/
def moderationTimer (q : Fin 32) (s : State) : State :=
  let Q := s.queues[q]
  if Q.enabled ∧ Q.timeUs ≠ 0 ∧ Q.unsignalled ≠ 0 ∧ since s Q.timerFrom (ticksUs Q.timeUs) then signalQueue q s else s

/-- TQ_MODERATION_TIMER (R101). -/
def execTqModerationTimer (dt : Nat) (q : Fin 32) (s : State) : Answer := .next (moderationTimer q (advance dt s))

/-- A write of a queue entry fails (R100): the queue is STOPPED, and the entry is one of those dropped. -/
def queueStops (q : Fin 32) (s : State) : State :=
  if queueOpen s q then
    post 0x1114 s.plan.queues[q] q (s.modQueue q fun Q => { Q with stopped := true, owed := true })
  else s

/-- QUEUE_WRITE_FAILED (R100). -/
def execQueueWriteFailed (dt : Nat) (q : Fin 32) (s : State) : Answer := .next (queueStops q (advance dt s))

/-- A ring reply write fails (R106): the reply is lost; REP_TAIL has advanced with it. -/
def replyLost (fn : Fn) (s : State) : State :=
  if (s.fns[fn]).mode = .ready ∧ (s.fns[fn]).repTail ≠ (s.fns[fn]).repHead then
    post 0x1112 fn wide (s.modFn fn fun f => { f with replyErr := true })
  else s

/-- REPLY_WRITE_FAILED (R106). -/
def execReplyWriteFailed (dt : Nat) (fn : Fn) (s : State) : Answer := .next (replyLost fn (advance dt s))

end Sys2Proof.Machine
end

