-- ==== Sys2Proof/Machine/WeirCmds.lean ====
section
/-! DEFINITION. Meanings of the chapter "Weir memory admission": thermal state, retraining, ECC, registers and hampers
(R377, R386 to R402). -/

namespace Sys2Proof.Machine

/-- The 1 ms sample of Tj, in 1/16 °C (R377); it may also set the AVS target (R502). -/
def thermal (tj : Int) (s : State) : State :=
  let was := s.weir.hot
  let hot := if was then decide (90 * 16 ≤ tj) else decide (95 * 16 ≤ tj)
  let s := s.modWeir fun w => { w with tj := BitVec.ofInt 16 tj, hot := hot }
  let s := { s with pwr := { s.pwr with
    avsRaised := if 105 * 16 < tj then true else if tj < 100 * 16 then false else s.pwr.avsRaised } }
  if hot ∧ ¬ was then recompute (post 0x6001 wide wide s)
  else if was ∧ ¬ hot then recompute (post 0x6002 wide wide s)
  else s

/-- THERMAL_SAMPLE (R377). -/
def execThermalSample (dt : Nat) (tj : Int) (s : State) : Answer :=
  let s := advance dt s
  .next (if mainRuns s then thermal tj s else s)

/-- Sixteen uncorrectable errors within 1 s (R390). -/
def eccBurst (s : State) : Bool :=
  match s.weir.ueTimes.getLast? with
  | some t => decide (s.weir.ueTimes.length = 16) && decide (s.elapsed ≤ t + ticksMs 1000)
  | none => false

/-- Full retraining is requested (R390). -/
def requestRetrain (cause : RetrainCause) (s : State) : State :=
  if s.weir.store = .available ∧ (cause = .temperature ∨ eccBurst s) then
    recompute (post 0x6301 wide wide (s.modWeir fun w => { w with store := .draining, drainFrom := some s.elapsed }))
  else s

/-- FULL_RETRAIN_REQUEST (R390). -/
def execFullRetrainRequest (dt : Nat) (cause : RetrainCause) (s : State) : Answer :=
  .next (requestRetrain cause (advance dt s))

/-- The store enters RETRAINING (R390). -/
def enterRetraining (s : State) : State :=
  recompute (s.modWeir fun w => { w with store := .retraining, drainFrom := none, retrainFrom := some s.elapsed })

/-- WEIR_DRAIN_END (R390). -/
def execWeirDrainEnd (dt : Nat) (s : State) : Answer :=
  let s := advance dt s
  .next (if s.weir.store = .draining ∧ ¬ lpFrames s then enterRetraining s else s)

/-- The drain has lasted 100 ms: frames in progress on LPDDR5X are handled at their producers (R389, R390). -/
def drainTimeout (s : State) : State :=
  if s.weir.store = .draining ∧ since s s.weir.drainFrom (ticksMs 100) then enterRetraining (cutLpFrames s) else s

/-- WEIR_DRAIN_TIMEOUT (R390). -/
def execWeirDrainTimeout (dt : Nat) (s : State) : Answer := .next (drainTimeout (advance dt s))

/-- Full retraining ends (R390). -/
def retrainEnds (s : State) : State :=
  if s.weir.store = .retraining then
    recompute (post 0x6302 wide wide (s.modWeir fun w => { w with store := .available, retrainFrom := none, ueTimes := [] }))
  else s

/-- RETRAIN_DONE (R390). -/
def execRetrainDone (dt : Nat) (s : State) : Answer := .next (retrainEnds (advance dt s))

/-- A short retraining, at most every 1 s; it changes no serving mark (R390). -/
def shortRetraining (s : State) : State :=
  if s.weir.store = .available ∧ (s.weir.shortAt = none ∨ since s s.weir.shortAt (ticksMs 1000)) then
    s.modWeir fun w => { w with shortAt := some s.elapsed }
  else s

/-- SHORT_RETRAIN (R390). -/
def execShortRetrain (dt : Nat) (s : State) : Answer := .next (shortRetraining (advance dt s))

/-- A controller stall longer than 80 µs enters RETRAINING at once (R390). -/
def stall (s : State) : State :=
  if s.weir.store = .available ∨ s.weir.store = .draining then
    let log := s.weir.store = .available
    let s := enterRetraining (cutLpFrames s)
    if log then post 0x6301 wide wide s else s
  else s

/-- CONTROLLER_STALL (R390). -/
def execControllerStall (dt : Nat) (s : State) : Answer := .next (stall (advance dt s))

/-- A shedding flow that avail has covered for 100 ms serves again (R387). -/
def restoreFlow (kind index : Nat) (s : State) : State :=
  match s.weir.flows.find? fun f => f.kind = kind ∧ f.index = index with
  | some f =>
    if ¬ f.serving ∧ f.cls ≠ .s ∧ since s f.coverFrom (ticksMs 100) then
      post 0x6004 f.owner f.index (s.modWeir fun w => { w with
        flows := putFlow { f with serving := true, coverFrom := none } w.flows })
    else s
  | none => s

/-- SERVE_RESTORE_TIMER (R387). -/
def execServeRestoreTimer (dt : Nat) (kind index : Nat) (s : State) : Answer :=
  .next (restoreFlow kind index (advance dt s))

/-- Fault 0x6201 clears after 100 ms of cover (R391). -/
def clearSFault (s : State) : State :=
  if s.weir.sFault ∧ since s s.weir.sCoverFrom (ticksMs 100) then
    recompute (post 0x6202 wide wide (s.modWeir fun w => { w with sFault := false, sCoverFrom := none }))
  else s

/-- S_FAULT_CLEAR_TIMER (R391). -/
def execSFaultClearTimer (dt : Nat) (s : State) : Answer := .next (clearSFault (advance dt s))

/-- The bursts of the fitted LPDDR5X (R398). -/
def burstCount (w : Weir) : Nat := w.gib * 2 ^ 25

/-- A scrub pass ends when its last burst has been read (R398, R402). -/
def scrubAdvance (s : State) : State :=
  s.modWeir fun w =>
    if w.scrubPos + 1 ≥ burstCount w then
      { w with scrubPos := 0, scrubNow := false, passes := w.passes + 1, passEndNs := nowNs s }
    else { w with scrubPos := w.scrubPos + 1 }

/-- The scrubber has a burst to read (R398): within a pass while it is on or a pass was asked for, and between passes once period_h
has passed since the last began. -/
def scrubDue (s : State) : Bool :=
  let w := s.weir
  w.scrubNow || (w.scrubPeriodH != 0 &&
    (w.scrubPos != 0 || w.scrubFrom == none || since s w.scrubFrom (ticksMs (3600000 * w.scrubPeriodH))))

/-- The scrubber reads, corrects and writes back one burst (R397, R398). -/
def scrub (res : ScrubResult) (s : State) : State :=
  if s.weir.store ≠ .available ∨ s.weir.gib = 0 ∨ ¬ scrubDue s then s
  else
    let s := if s.weir.scrubPos = 0 then s.modWeir fun w => { w with scrubFrom := some s.elapsed } else s
    let addr := 32 * s.weir.scrubPos
    let s := match res with
      | .clean => s
      | .corrected => correctedRead .lpddr (s.modWeir fun w => { w with scrubCorrected := w.scrubCorrected + 1 })
      | .uncorrectable =>
        uncorrectable addr 0x6103 wide (s.modWeir fun w => { w with scrubUncorrectable := w.scrubUncorrectable + 1 })
    scrubAdvance s

/-- SCRUB_BURST (R398). -/
def execScrubBurst (dt : Nat) (res : ScrubResult) (s : State) : Answer := .next (scrub res (advance dt s))

/-- A full read of WEIR_SHED (R401). -/
def readWeirShed (fn : Fn) (s : State) : Word × State :=
  (s.weir.shed[fn], s.modWeir fun w => { w with shed := w.shed.set fn 0 })

/-- WEIR_SHED_READ (R401). -/
def execWeirShedRead (dt : Nat) (fn : Fn) (s : State) : Answer :=
  .next (readRegister fn 0x8710 (readWeirShed fn) (advance dt s))

/-- A full read of WEIR_ECC_ADDR_LO (R401). -/
def readEccAddr (s : State) : Word × State :=
  (s.weir.ueAddr.setWidth 32, s.modWeir fun w => { w with ueAddrHi := (w.ueAddr >>> (32 : Nat)).setWidth 32 })

/-- WEIR_ECC_ADDR_LO_READ (R401). -/
def execWeirEccAddrLoRead (dt : Nat) (fn : Fn) (s : State) : Answer :=
  .next (readRegister fn 0x871C readEccAddr (advance dt s))

/-- WEIR_STATE.store. -/
def LpState.code : LpState → Nat
  | .unavailable => 0
  | .available => 1
  | .draining => 2
  | .retraining => 3

/-- The frame flows that are shedding. -/
def shedding (w : Weir) : Nat := (w.flows.filter fun f => f.cls ≠ .s ∧ ¬ f.serving).length

/-- The Weir registers without a side effect (R401). -/
def weirRegister (s : State) (fn : Fn) (off : Nat) : Option Word :=
  let w := s.weir
  if off = 0x8700 then some (packed [(8, w.store.code), (2, b2n (shedding w != 0)), (1, b2n w.sFault), (0, b2n w.hot)])
  else if off = 0x8704 then some (BitVec.ofNat 32 (mbps (avail w .lpddr)))
  else if off = 0x8708 then some (BitVec.ofNat 32 (mbps (sDemand w .lpddr w.flows + pDemand w .lpddr w.flows)))
  else if off = 0x870C then some (BitVec.ofNat 32 (mbps (sDemand w .millpond w.flows + pDemand w .millpond w.flows)))
  else if off = 0x8710 then some w.shed[fn]
  else if off = 0x8714 then some w.ce
  else if off = 0x8718 then some w.ue
  else if off = 0x871C then some (w.ueAddr.setWidth 32)
  else if off = 0x8720 then some w.ueAddrHi
  else if off = 0x8724 then some (w.tj.setWidth 32)
  else none

/-- WEIR_STATUS (R402). -/
def weirStatusBody (s : State) (h : Hamper) : Verdict :=
  let w := s.weir
  if h.tail 0 then badArg
  else .ok s (record [(1, b2n w.hot + 2 * b2n w.sFault + 4 * w.store.code), (1, 0), (2, w.tj.toNat), (4, mbps (lpPeak w)),
    (4, mbps (avail w .lpddr)), (4, mbps (sDemand w .lpddr w.flows)), (4, mbps (pDemand w .lpddr w.flows)),
    (4, mbps (sDemand w .millpond w.flows)), (4, mbps (pDemand w .millpond w.flows)), (2, shedding w),
    (2, 256 * w.mpUncorrectable + w.mpCorrectable),
    (4, (if w.store = .unavailable then 0 else poolUnits w) - usedUnits w.flows), (4, dynFreeKib w), (4, w.grantKib),
    (4, 0)])

/-- The bands of a WEIR_SHED_ORDER payload, when each lies in its range (R402). -/
def shedOrderOf (p : List Byte) : Option (Vector Nat 16 × BitVec 16) :=
  if (List.range 16).all (fun f => fld p f 1 ≤ 15) ∧ zeros p 18 6 then
    some (Vector.ofFn fun f => fld p f 1, BitVec.ofNat 16 (fld p 16 2))
  else none

/-- WEIR_SHED_ORDER (R402). -/
def weirShedOrderBody (s : State) (h : Hamper) : Verdict :=
  match shedOrderOf h.payload with
  | none => badArg
  | some (b, a) => if h.tail 24 then badArg else .ok (recompute (s.modWeir fun w => { w with band := b, sAllow := a })) []

/-- WEIR_CHECK (R402): both rules of R382 with the demand added. -/
def weirCheckBody (s : State) (h : Hamper) : Verdict :=
  let p := h.payload
  let st := if fld p 0 1 = 0 then Store.lpddr else .millpond
  let d := fld p 4 4
  if h.tail 12 || fld p 0 1 > 1 || fld p 1 1 > 1 || fld p 2 1 > 1 || !zeros p 3 1 || !zeros p 8 4 then badArg
  else
    let w := s.weir
    let cls := if fld p 1 1 = 0 then Class.s else .p
    let f : Flow := ⟨0, 0, h.fn, cls, 0, st, d, 0, 0, true, none⟩
    let fs := heldFlows w ++ [f]
    let now := if bit (fld p 2 1) 0 then capacityHot w st else capacityNow w st
    let sd := sDemand w st fs
    let t := sd + pDemand w st fs
    let body := if sd > capacityHot w st then (0, refusal st 0 0 0 (mbps (capacityHot w st)) (mbps sd))
      else if t > now then (0, refusal st 1 0 0 (mbps now) (mbps t))
      else (1, record [(1, fld p 0 1), (1, 1), (1, 0), (1, 0), (4, mbps now), (4, mbps t), (4, 0)])
    .ok s (record [(1, body.1), (3, 0)] ++ body.2)

/-- WEIR_SCRUB (R402). -/
def weirScrubBody (s : State) (h : Hamper) : Verdict :=
  let p := h.payload
  if h.tail 8 || fld p 0 2 > 720 || fld p 2 1 > 1 || !zeros p 3 5 then badArg
  else
    let w := s.weir
    .ok (s.modWeir fun w => { w with
        scrubPeriodH := fld p 0 2, scrubNow := w.scrubNow || bit (fld p 2 1) 0
        scrubPos := if bit (fld p 2 1) 0 then 0 else w.scrubPos })
      (record [(4, w.passes.toNat), (8, w.passEndNs.toNat), (4, w.scrubCorrected.toNat),
        (4, w.scrubUncorrectable.toNat), (4, 0)])

/-- WEIR_STATUS (R402). -/
def execWeirStatus (dt : Nat) (r : Req) (s : State) : Answer :=
  .next (serve r 0x0701 0 false weirStatusBody (advance dt s))

/-- WEIR_SHED_ORDER (R402). -/
def execWeirShedOrder (dt : Nat) (r : Req) (s : State) : Answer :=
  .next (serve r 0x0702 0 true weirShedOrderBody (advance dt s))

/-- WEIR_CHECK (R402). -/
def execWeirCheck (dt : Nat) (r : Req) (s : State) : Answer :=
  .next (serve r 0x0703 1 false weirCheckBody (advance dt s))

/-- WEIR_SCRUB (R402). -/
def execWeirScrub (dt : Nat) (r : Req) (s : State) : Answer :=
  .next (serve r 0x0704 3 true weirScrubBody (advance dt s))

end Sys2Proof.Machine
end

