-- ==== Sys2Proof/Machine/Regs.lean ====
section
/-! DEFINITION. BAR0 as a whole: identity, porch, ring, tailrace and MSI-X registers, and which register lies at an offset
(R41, R42, R50 to R55, R68, R107). -/

namespace Sys2Proof.Machine

/-! ### Identity and status (R68) -/

/-- FW_VERSION (R68): zeros until Valtyn runs. -/
def fwVersion (s : State) : Word :=
  packed [(24, match runningSlot s with
    | some k => k.val
    | none => 0), (8, s.start.major), (0, s.start.minor)]

/-- FUNC_STATUS (R68). -/
def funcStatus (s : State) (fn : Fn) : Word :=
  let f := s.fns[fn]
  packed [(17, b2n s.start.startDone), (16, b2n s.start.doorClosed), (9, b2n (f.mode == .ready)), (8, b2n (porchReady s fn)),
    (0, f.mode.code)]

/-- The early picture of a path is on its panel (R195, R199). -/
def earlyShown (x : GPath) : Bool := x.showing && !x.handed && (x.mode == .early || x.mode == .trial)

/-- DEVICE_STATUS (R68). -/
def deviceStatus (s : State) : Word :=
  let a := s.guard.paths[(0 : Fin 2)]
  let b := s.guard.paths[(1 : Fin 2)]
  packed [(8, b2n (!s.log.faults.isEmpty)), (4, b2n s.start.safePath), (3, b2n b.handed), (2, b2n a.handed),
    (1, b2n (earlyShown b)), (0, b2n (earlyShown a))]

/-- LINK_STATUS (R33, R68). The link is one, and `changed` is one bit that every function reads and clears (log entry
53). -/
def linkStatus (s : State) : Word :=
  packed [(17, b2n s.link.changed), (16, b2n s.link.sris), (13, b2n s.link.reversed), (12, b2n s.link.flit),
    (8, s.link.width.toNat), (0, s.link.speed.toNat)]

/-- The registers of R68. -/
def identRegister (s : State) (fn : Fn) (off : Nat) : Option Word :=
  let f := s.fns[fn]
  match off with
  | 0x000 => some (packed [(16, 0x0648), (8, 0xB0), (0, fn.val)])
  | 0x004 => some (fwVersion s)
  | 0x008 => some (funcStatus s fn)
  | 0x00C => some (deviceStatus s)
  | 0x010 => some (linkStatus s)
  | 0x014 => some (packed [(3, b2n f.errLocked), (2, b2n f.errUnowned), (1, b2n f.errUnimpl), (0, b2n f.errPartial)])
  | 0x018 => some f.errAddr
  | 0x01C => some (s.start.ident.serial.setWidth 32)
  | 0x020 => some f.serialHi
  | 0x024 => some s.plan.planId
  | 0x028 => some (BitVec.ofNat 32 (measIndex s))
  | 0x030 => some f.scratch
  | _ => none

/-- A read of SERIAL_LO latches SERIAL_HI (R53, R68). -/
def readSerialLo (fn : Fn) (s : State) : Word × State :=
  (s.start.ident.serial.setWidth 32,
    s.modFn fn fun f => { f with serialHi := (s.start.ident.serial >>> (32 : Nat)).setWidth 32 })

/-! ### Porch, rings, queues and MSI-X (R42, R107) -/

/-- Four bytes of a list as a register reads them. -/
def wordAt (bytes : List Byte) (off : Nat) : Word := BitVec.ofNat 32 (fld bytes off 4)

/-- The registers of R107 and the MSI-X table and Pending Bit Array of R42. -/
def hostRegister (s : State) (fn : Fn) (off : Nat) : Option Word :=
  let f := s.fns[fn]
  if 0x1000 ≤ off ∧ off < 0x1100 then some (wordAt f.porchReq (off % 0x100))
  else if 0x1100 ≤ off ∧ off < 0x1200 then some (wordAt f.porchReply (off % 0x100))
  else if off = 0x1200 then some 0
  else if off = 0x1204 then some (packed [(2, b2n f.porchRefused), (1, b2n f.porchDone), (0, b2n f.porchBusy)])
  else if off = 0x2000 then some (f.reqTail.setWidth 32)
  else if off = 0x2004 then some (f.reqHead.setWidth 32)
  else if off = 0x2008 then some (f.repTail.setWidth 32)
  else if off = 0x200C then some (f.repHead.setWidth 32)
  else if off = 0x2010 then some (packed [(2, b2n f.replyErr), (1, b2n f.fetchErr), (0, b2n f.indexErr)])
  else if 0x3000 ≤ off ∧ off < 0x3400 then
    (entryAt 32 0x20 off).bind fun q =>
      let Q := s.queues[q]
      match off % 0x20 with
      | 0x00 => some (BitVec.ofNat 32 Q.head)
      | 0x04 => some (packed [(16, b2n Q.phase), (0, Q.tail)])
      | 0x08 => some (packed [(6, b2n Q.headErr), (5, b2n Q.stopped), (4, b2n Q.overflow), (3, b2n Q.full),
          (2, b2n Q.anyOrder), (1, b2n Q.millpond), (0, b2n Q.enabled)])
      | 0x0C => some Q.dropped
      | 0x10 => some (BitVec.ofNat 32 Q.held)
      | _ => none
  else if 0x6000 ≤ off ∧ off < 0x6200 then
    (entryAt 32 16 off).map fun v =>
      let e : MsixEntry := f.msix[v]
      if off % 16 = 0 then e.addr.setWidth 32
      else if off % 16 = 4 then BitVec.ofNat 32 (e.addr.toNat / 2 ^ 32)
      else if off % 16 = 8 then e.data
      else BitVec.ofNat 32 (b2n e.masked)
  else if off = 0x7000 then
    some (packed ((allFin 32).map fun v => (v.val, b2n (f.msix[v]).pending)))
  else if off = 0x7004 then some 0
  else none

/-! ### Reads (R50 to R55) -/

/-- What a BAR0 offset holds, without the side effect of a read; none where it is unimplemented. -/
def plainRead (s : State) (fn : Fn) (off : Nat) : Option Word :=
  if off < 0x1000 then identRegister s fn off
  else if off < 0x8000 then hostRegister s fn off
  else if off < 0x8400 then streamRegister s off
  else if off < 0x8600 then hopRegister s off
  else if off = 0x8604 then some s.prep.dropped[fn]
  else if off < 0x8700 then prepRegister s off
  else if off < 0x8800 then weirRegister s fn off
  else if off < 0x8900 then witRegister s off
  else if 0x10000 ≤ off ∧ off < 0x14000 then
    (entryAt 64 0x100 off).bind fun c => chanRegister s c (off % 0x100)
  else if 0x20000 ≤ off ∧ off < 0x21000 then timeRegister s fn off
  else if 0x21000 ≤ off ∧ off < 0x21200 then
    if off < 0x21100 ∧ off % 0x40 = 0 then (entryAt 4 0x40 off).map fun ch => (readPosPLo ch s).1
    else if off < 0x21100 ∧ off % 0x40 = 0x20 then (entryAt 4 0x40 off).map fun ch => (readPosIdxLo ch s).1
    else if off < 0x21100 ∧ off % 0x40 = 0x28 then (entryAt 4 0x40 off).map fun ch => (readSerialErrs ch s).1
    else posRegister s off
  else if 0x21200 ≤ off ∧ off < 0x21400 ∧ off % 0x20 = 8 then
    (entryAt 16 0x20 off).map fun n => (readCmpTargetLo n s).1
  else if 0x21200 ≤ off ∧ off < 0x21400 ∧ off % 0x20 = 0x10 then
    (entryAt 16 0x20 off).map fun n => (readCmpFireLo n s).1
  else if off = 0x21404 then some (readTrigMerged s).1
  else if off = 0x2140C then some (readXtrRunts s).1
  else if 0x21200 ≤ off ∧ off < 0x21500 then trigRegister s off
  else logRegister s off

/-- The registers whose full read clears or latches something (R10, R53). -/
def sideRead (s : State) (fn : Fn) (off : Nat) : Option (Word × State) :=
  if off = 0x1C then some (readSerialLo fn s)
  else if 0x3000 ≤ off ∧ off < 0x3400 ∧ off % 0x20 = 0x0C then (entryAt 32 0x20 off).map fun q => readTqDropped q s
  else if 0x8000 ≤ off ∧ off < 0x8400 ∧ off % 0x20 = 0x10 then (entryAt 32 0x20 off).map fun n => readDrops n s
  else if 0x8000 ≤ off ∧ off < 0x8400 ∧ off % 0x20 = 0x14 then (entryAt 32 0x20 off).map fun n => readErrs n s
  else if 0x8400 ≤ off ∧ off < 0x8600 ∧ off % 0x20 = 8 then (entryAt 16 0x20 off).map fun i => readIgnored i s
  else if off = 0x8604 then some (readPyrDropped fn s)
  else if off = 0x8710 then some (readWeirShed fn s)
  else if off = 0x871C then some (readEccAddr s)
  else if off = 0x8808 then some (s.wit.ignored, s.modWit fun w => { w with ignored := 0 })
  else if 0x10000 ≤ off ∧ off < 0x14000 ∧ off % 0x100 = 0x20 then
    (entryAt 64 0x100 off).map fun c => readChanBytes c s
  else if off = 0x20000 then some (readTimeLo fn s)
  else if off = 0x2001C then some (readTdcDrop s)
  else if 0x21000 ≤ off ∧ off < 0x21100 ∧ off % 0x40 = 0 then (entryAt 4 0x40 off).map fun ch => readPosPLo ch s
  else if 0x21000 ≤ off ∧ off < 0x21100 ∧ off % 0x40 = 0x20 then
    (entryAt 4 0x40 off).map fun ch => readPosIdxLo ch s
  else if 0x21000 ≤ off ∧ off < 0x21100 ∧ off % 0x40 = 0x28 then
    (entryAt 4 0x40 off).map fun ch => readSerialErrs ch s
  else if 0x21200 ≤ off ∧ off < 0x21400 ∧ off % 0x20 = 8 then
    (entryAt 16 0x20 off).map fun n => readCmpTargetLo n s
  else if 0x21200 ≤ off ∧ off < 0x21400 ∧ off % 0x20 = 0x10 then
    (entryAt 16 0x20 off).map fun n => readCmpFireLo n s
  else if off = 0x21404 then some (readTrigMerged s)
  else if off = 0x2140C then some (readXtrRunts s)
  else if off = 0x4000C then some (readLogLost s)
  else if off = 0x40010 then some (readLogFiltered s)
  else none

/-- One doubleword of a read: full, or by some of its lanes, which has no side effect (R50, R54). -/
def readDword (fn : Fn) (off : Nat) (full : Bool) (s : State) : Word × State :=
  match (if full then sideRead s fn off else none) with
  | some r => r
  | none =>
    match plainRead s fn off with
    | some w => (w, s)
    | none => (0, flagUnimplemented fn off s)

/-- The doublewords of a read of `bytes` bytes at `off` (R50, R52): offset and whether every lane is read. -/
def readLanes (off bytes : Nat) : List (Nat × Bool) :=
  (List.range ((off % 4 + bytes + 3) / 4)).map fun k =>
    let a := off / 4 * 4 + 4 * k
    (a, decide (off ≤ a) && decide (a + 4 ≤ off + bytes))

/-- A BAR0 read (R50 to R55, R67). -/
def bar0Read (fn : Fn) (off bytes : Nat) (s : State) : State :=
  match reaches s fn off with
  | none => s
  | some false => unsupported fn true s
  | some true =>
    if 128 < bytes then
      post 0x1102 fn wide (emit (.ca fn) (s.modFn fn fun f => { f with aer := { f.aer with ca := true } }))
    else if bytes = 0 then emit (.completion fn [0]) s
    else
      let r := (readLanes off bytes).foldl (fun (r : List Word × State) (a : Nat × Bool) =>
        let x := gated fn a.1 false (readDword fn a.1 a.2) r.2
        (r.1 ++ [x.1], x.2)) ([], s)
      emit (.completion fn r.1) r.2

/-! ### Writes (R51, R52) -/

/-- Vectors that are neither masked nor without a pending message are sent (R42). -/
def msixFlush (fn : Fn) (s : State) : State :=
  (allFin 32).foldl (fun (s : State) (v : Fin 32) =>
    let f := s.fns[fn]
    let e := f.msix[v]
    if e.pending && !e.masked && !f.msixMaskAll && f.msixEnable && f.busMaster then
      emit (.msix fn v e.addr.toNat e.data)
        (s.modFn fn fun f => { f with msix := vmod f.msix v fun e => { e with pending := false } })
    else s) s

/-- A vector of the table changes. -/
def msixSet (fn : Fn) (k : Fin 32) (g : MsixEntry → MsixEntry) (s : State) : State :=
  s.modFn fn fun f => { f with msix := vmod f.msix k g }

/-- A write of the MSI-X table (R42). -/
def writeMsix (fn : Fn) (off : Nat) (v : Word) (s : State) : State :=
  match entryAt 32 16 off with
  | none => s
  | some k =>
    if off % 16 = 0 then
      msixSet fn k (fun e => { e with addr := BitVec.ofNat 64 (e.addr.toNat / 2 ^ 32 * 2 ^ 32 + v.toNat) }) s
    else if off % 16 = 4 then
      msixSet fn k (fun e => { e with addr := BitVec.ofNat 64 (e.addr.toNat % 2 ^ 32 + v.toNat * 2 ^ 32) }) s
    else if off % 16 = 8 then msixSet fn k (fun e => { e with data := v }) s
    else msixFlush fn (msixSet fn k (fun e => { e with masked := v.getLsbD 0 }) s)

/-- Writes of the host-side registers (R68, R107). -/
def writeHostReg (fn : Fn) (off : Nat) (v : Word) (s : State) : Option State :=
  let set (g : FnState → FnState) : Option State := some (s.modFn fn g)
  if off = 0x10 then
    some { s with link := { s.link with changed := s.link.changed && !v.getLsbD 17 } }
  else if off = 0x14 then
    set fun f => { f with
      errLocked := f.errLocked && !v.getLsbD 3, errUnowned := f.errUnowned && !v.getLsbD 2
      errUnimpl := f.errUnimpl && !v.getLsbD 1, errPartial := f.errPartial && !v.getLsbD 0 }
  else if off = 0x30 then set fun f => { f with scratch := v }
  else if 0x1000 ≤ off ∧ off < 0x1100 then
    set fun f => { f with
      porchReq := f.porchReq.take (off % 0x100) ++ leBytes 4 v.toNat ++ f.porchReq.drop (off % 0x100 + 4) }
  else if off = 0x1200 then some (ringPorch fn s)
  else if off = 0x1204 then set fun f => { f with porchRefused := f.porchRefused && !v.getLsbD 2 }
  else if off = 0x2000 then some (writeReqTail fn v s)
  else if off = 0x200C then some (writeRepHead fn v s)
  else if off = 0x2010 then
    set fun f => { f with
      replyErr := f.replyErr && !v.getLsbD 2, fetchErr := f.fetchErr && !v.getLsbD 1, indexErr := f.indexErr && !v.getLsbD 0 }
  else if 0x3000 ≤ off ∧ off < 0x3400 ∧ off % 0x20 = 0 then
    (entryAt 32 0x20 off).map fun q => writeTqHead fn q v s
  else if 0x3000 ≤ off ∧ off < 0x3400 ∧ off % 0x20 = 8 then
    (entryAt 32 0x20 off).map fun q => s.modQueue q fun Q => { Q with
      headErr := Q.headErr && !v.getLsbD 6, overflow := Q.overflow && !v.getLsbD 4 }
  else if 0x6000 ≤ off ∧ off < 0x6200 then some (writeMsix fn off v s)
  else none

/-- Writes of the engines' registers (R237, R271, R296, R342, R436, R462, R498). -/
def writeEngineReg (fn : Fn) (off : Nat) (v : Word) (s : State) : Option State :=
  if 0x8000 ≤ off ∧ off < 0x8400 ∧ off % 0x20 = 8 then (entryAt 32 0x20 off).map fun n => writeStreamHead fn n v s
  else if 0x8400 ≤ off ∧ off < 0x8600 ∧ off % 0x20 = 0 then
    (entryAt 16 0x20 off).map fun i => s.modHop i fun h => { h with overflow := h.overflow && !v.getLsbD 8 }
  else if off = 0x8800 then some (writeWitState v s)
  else if 0x10000 ≤ off ∧ off < 0x14000 then
    (entryAt 64 0x100 off).bind fun c =>
      match off % 0x100 with
      | 0x00 => some (writeChanGo c v s)
      | 0x04 => some (writeChanCtrl c v s)
      | 0x08 => some (writeChanState c v s)
      | 0x2C => some (writeChanKick c v s)
      | _ => none
  else if off = 0x20018 then some { s with clk := { s.clk with dense := s.clk.dense && !v.getLsbD 1 } }
  else if 0x21000 ≤ off ∧ off < 0x21100 ∧ off % 0x40 = 0x18 then
    (entryAt 4 0x40 off).map fun ch => writePosFlags ch v s
  else if 0x21100 ≤ off ∧ off < 0x21120 ∧ off % 0x10 = 4 then
    (entryAt 2 0x10 off).map fun m => writeEmuFlags m v s
  else if 0x21200 ≤ off ∧ off < 0x21400 ∧ off % 0x20 = 0 then
    (entryAt 16 0x20 off).map fun n => writeCmpState n v s
  else if off = 0x21408 then some (writeXtrState v s)
  else if off = 0x40000 then some (s.modLog fun g => { g with lostSticky := g.lostSticky && !v.getLsbD 17 })
  else none

/-- One doubleword of a write by its access code: a read-only register ignores it, an unimplemented offset is flagged
(R9, R54). -/
def writeDword (fn : Fn) (off : Nat) (v : Word) (s : State) : State :=
  match writeHostReg fn off v s <|> writeEngineReg fn off v s with
  | some t => t
  | none => if (plainRead s fn off).isSome then s else flagUnimplemented fn off s

/-- A BAR0 write (R51, R52): dropped whole when a doubleword lacks a byte enable. -/
def bar0Write (fn : Fn) (off : Nat) (words : List (Word × BitVec 4)) (s : State) : State :=
  match reaches s fn off with
  | none => s
  | some false => unsupported fn false s
  | some true =>
    if words.any fun w => w.2 ≠ 0xF then
      post 0x1104 fn wide (flagAccess fn off (fun f => { f with errPartial := true }) s)
    else
      words.zipIdx.foldl (fun (s : State) (w : (Word × BitVec 4) × Nat) =>
        let a := off / 4 * 4 + 4 * w.2
        (gated fn a true (fun s => (0, writeDword fn a w.1.1 s)) s).2) s

/-- REGISTER_WRITE (R51). -/
def execRegisterWrite (dt : Nat) (fn : Fn) (off : Nat) (words : List (Word × BitVec 4)) (s : State) : Answer :=
  .next (bar0Write fn off words (advance dt s))

/-- BAR0_READ_REJECTED (R54). -/
def execBar0ReadRejected (dt : Nat) (fn : Fn) (off bytes : Nat) (s : State) : Answer :=
  .next (bar0Read fn off bytes (advance dt s))

/-- SERIAL_LO_READ (R68). -/
def execSerialLoRead (dt : Nat) (fn : Fn) (s : State) : Answer :=
  .next (readRegister fn 0x1C (readSerialLo fn) (advance dt s))

end Sys2Proof.Machine
end

