-- ==== Sys2Proof/Machine/LinkCmds.lean ====
section
/-! DEFINITION. Meanings of link training, configuration requests, BAR2, TLP errors, completions, the instance plan and
unknown opcodes (R14, R31 to R49, R67 to R70). -/

namespace Sys2Proof.Machine

/-! ### Training (R33) -/

/-- A speed code and a width that R31 supports. -/
def linkLegal (speed width : Nat) : Bool :=
  decide (1 ≤ speed) && decide (speed ≤ 6) && (width == 1 || width == 2 || width == 4)

/-- Speed or width takes a new value: a change after the first training sets `changed` (R33). -/
def linkChange (speed width : Nat) (s : State) : State :=
  let later := s.link.width != 0
  let differs := s.link.speed.toNat != speed || s.link.width.toNat != width
  let s := { s with link := { s.link with
    speed := BitVec.ofNat 4 speed, width := BitVec.ofNat 3 width, flit := decide (speed = 6)
    changed := s.link.changed || (later && differs) } }
  if later && differs then post 0x1109 wide wide s else s

/-- Training completes (R33, R127, R495). -/
def linkTrains (speed width : Nat) (reversed : Bool) (s : State) : State :=
  if linkLegal speed width && mainRuns s && s.clk.refclkOk && !s.link.perstLow && !s.link.up then
    let s := linkChange speed width s
    { s with link := { s.link with up := true, reversed := reversed } }
  else s

/-- LINK_TRAINED (R33). -/
def execLinkTrained (dt : Nat) (speed width : Nat) (reversed : Bool) (s : State) : Answer :=
  .next (linkTrains speed width reversed (advance dt s))

/-- LINK_RETRAIN_CHANGE (R33). -/
def execLinkRetrainChange (dt : Nat) (speed width : Nat) (s : State) : Answer :=
  let s := advance dt s
  .next (if linkLegal speed width && s.link.up then linkChange speed width s else s)

/-! ### Configuration space (R34, R37 to R40, R62) -/

/-- The capability list of R38: offset and PCI Express capability ID. -/
def capList (fn : Fn) : List (Nat × Nat) :=
  if fn = 0 then [(0x40, 0x01), (0x50, 0x11), (0x70, 0x10)] else [(0x50, 0x11), (0x70, 0x10)]

/-- The extended capability list of R38. -/
def extCapList (fn : Fn) : List (Nat × Nat) :=
  if fn = 0 then
    [(0x100, 0x01), (0x148, 0x0E), (0x150, 0x10), (0x190, 0x1E), (0x1A0, 0x1F), (0x1B0, 0x2E), (0x1D0, 0x25), (0x1E0, 0x19),
      (0x200, 0x26), (0x240, 0x2A), (0x280, 0x31), (0x2C0, 0x27), (0x2E0, 0x03)]
  else [(0x100, 0x01), (0x148, 0x0E)]

/-- The offset after one in a capability list; 0 at its end. -/
def nextCap (off : Nat) : List (Nat × Nat) → Nat
  | (a, _) :: (b, i) :: rest => if a = off then b else nextCap off ((b, i) :: rest)
  | _ => 0

/-- AER Uncorrectable Error Status, in the bits of PCI Express. -/
def aerWord (a : Aer) : Word :=
  packed [(20, b2n a.ur), (19, b2n a.ecrc), (18, b2n a.malformed), (16, b2n a.unexpected), (15, b2n a.ca),
    (14, b2n a.timeout), (12, b2n a.poisoned)]

/-- The fields of R31 in the capabilities of R38, as PCI Express codes them (log entry 9): the upper half of a capability's
first doubleword, or a capability register. D0 and D3hot alone; an Endpoint with flit mode; 512-byte payloads and FLR;
Link Capabilities of 64 GT/s, ×4 and ASPM L1; 10-bit tags as requester; ECRC generation and checking. -/
def cfgFixed (fn : Fn) (off : Nat) : Option (Word × Word) :=
  match off with
  | 0x040 => if fn = 0 then some (0x06000000, 0) else none
  | 0x070 => some (0x80F00000, 0x80000000)
  | 0x074 => some (0x10000007, 0x10000002)
  | 0x07C => some (0x00000FFF, 0x00000846)
  | 0x094 => some (0x000203C0, 0x00020000)
  | 0x118 => some (0x000000A0, 0x000000A0)
  | 0x03C => some (0x0000FF00, 0)
  | _ => none

/-- A doubleword with the fields of R31 in their places. -/
def withFixed (fn : Fn) (off : Nat) (w : Word) : Word :=
  match cfgFixed fn off with
  | some (mask, v) => (w &&& ~~~mask) ||| v
  | none => w

/-- The identity fields of R37 to R40 and the fields that this model acts on; none at the other offsets. -/
def cfgKnown (s : State) (fn : Fn) (off : Nat) : Option Word :=
  let f := s.fns[fn]
  let pf := fn == 0
  let stored : Word := (f.cfg.lookup off).getD 0
  let free := Config.cfgDword fn off
  match off with
  | 0x000 => some (if pf then 0x06481F86 else 0xFFFFFFFF)
  | 0x004 => some ((stored &&& 0xFFFB) ||| BitVec.ofNat 32 (4 * b2n f.busMaster) ||| 0x00100000)
  | 0x008 => some 0x048000B0
  | 0x010 => some (if pf then (stored &&& 0xFFF00000) ||| 4 else 0)
  | 0x014 => some (if pf then stored else 0)
  | 0x018 => some (if pf && s.start.ident.bar2Enable then (stored &&& 0xFE000000) ||| 0xC else 0)
  | 0x01C => some (if pf && s.start.ident.bar2Enable then stored else 0)
  | 0x020 | 0x024 => some 0
  | 0x02C => some (packed [(16, s.start.ident.subsysId.toNat), (0, s.start.ident.subsysVendor.toNat)])
  | 0x034 => some (if pf then 0x40 else 0x50)
  | 0x050 => some (packed [(31, b2n f.msixEnable), (30, b2n f.msixMaskAll), (16, 31), (8, 0x70), (0, 0x11)])
  | 0x054 => some 0x6000
  | 0x058 => some 0x7000
  | 0x078 => some ((deviceControl f &&& 0x7FFF) ||| BitVec.ofNat 32 (b2n f.transPending * 2 ^ 21))
  | 0x104 => some (aerWord f.aer)
  | 0x108 => some ((stored &&& 0xFFFBFFFF) ||| BitVec.ofNat 32 (b2n f.malformedMasked * 2 ^ 18))
  | 0x158 => if pf then some ((stored &&& 0xFFFFFFFE) ||| BitVec.ofNat 32 (b2n s.link.vfEnable)) else none
  | 0x15C => if pf then some 0x000F000F else none
  | 0x160 => if pf then some (BitVec.ofNat 32 s.link.numVfs) else none
  | 0x164 => if pf then some 0x00010001 else none
  | 0x168 => if pf then some 0x06490000 else none
  | 0x16C => if pf then some 0x7F else none
  | 0x174 => if pf then some ((stored &&& 0xFFFC0000) ||| 4) else none
  | 0x178 => if pf then some stored else none
  | 0x17C | 0x180 | 0x184 | 0x188 => if pf then some 0 else none
  | 0x1A8 => if pf then some ((stored &&& 0xFFFFFFFE) ||| BitVec.ofNat 32 (b2n s.link.ptmEnable)) else none
  | 0x2E4 => if pf then some (s.start.ident.serial.setWidth 32) else none
  | 0x2E8 => if pf then some ((s.start.ident.serial >>> (32 : Nat)).setWidth 32) else none
  | _ =>
    match (capList fn).lookup off, (extCapList fn).lookup off with
    | some i, _ => some ((free &&& 0xFFFF0000) ||| packed [(8, nextCap off (capList fn)), (0, i)])
    | none, some i => some ((free &&& 0x000F0000) ||| packed [(20, nextCap off (extCapList fn)), (0, i)])
    | none, none => none

/-- What a wedged function's configuration reads are taken from: its reset values (R62). -/
def cfgView (s : State) (fn : Fn) : State :=
  if (s.fns[fn]).mode = .wedged then
    { s.modFn fn fun _ => FnState.reset .wedged with
      link := { s.link with
        vfEnable := s.link.vfEnable && fn != 0, numVfs := if fn = 0 then 0 else s.link.numVfs
        ptmEnable := s.link.ptmEnable && fn != 0 } }
  else s

/-- A configuration read: what R31, R37 to R40 and this model give, else what the host wrote, else a free value (log entry
9). -/
def cfgRead (s : State) (fn : Fn) (off : Nat) : Word :=
  withFixed fn off (match cfgKnown (cfgView s fn) fn off with
    | some w => w
    | none => (((cfgView s fn).fns[fn]).cfg.lookup off).getD (Config.cfgDword fn off))

/-- What a written doubleword becomes: PF0 takes no power state but D0 and D3hot (R38). -/
def cfgTaken (s : State) (fn : Fn) (off : Nat) (v : Word) : Word :=
  if fn = 0 ∧ off = 0x44 ∧ (v.toNat % 4 = 1 ∨ v.toNat % 4 = 2) then
    (v &&& 0xFFFFFFFC) ||| (((s.fns[fn]).cfg.lookup off).getD 0 &&& 3)
  else v

/-- Keep a written doubleword. -/
def cfgStore (fn : Fn) (off : Nat) (v : Word) (s : State) : State :=
  s.modFn fn fun f => { f with cfg := (off, v) :: f.cfg.filter fun x => x.1 != off }

/-- The next addresses of the halted channels, which a configuration write does not carry: free values. -/
def drawAddrs (s : State) : List (Fin 64 × Nat) × State :=
  ((allFin 64).map fun c => (c, Config.freeNat (s.drawn + c)), { s with drawn := s.drawn + 64 })

/-- The fields of a configuration write that act at once. -/
def cfgActs (fn : Fn) (off : Nat) (v : Word) (s : State) : State :=
  match off with
  | 0x004 =>
    if v.getLsbD 2 then s.modFn fn fun f => { f with busMaster := true }
    else if (s.fns[fn]).busMaster then
      let d := drawAddrs s
      clearBusMaster fn d.1 d.2
    else s
  | 0x050 => msixFlush fn (s.modFn fn fun f => { f with msixEnable := v.getLsbD 31, msixMaskAll := v.getLsbD 30 })
  | 0x078 => if v.getLsbD 15 then flr fn s else s
  | 0x104 => s.modFn fn fun f =>
    let a := f.aer
    { f with aer := { a with
      ur := a.ur && !v.getLsbD 20, ecrc := a.ecrc && !v.getLsbD 19, malformed := a.malformed && !v.getLsbD 18
      unexpected := a.unexpected && !v.getLsbD 16, ca := a.ca && !v.getLsbD 15, timeout := a.timeout && !v.getLsbD 14
      poisoned := a.poisoned && !v.getLsbD 12 } }
  | 0x108 => s.modFn fn fun f => { f with malformedMasked := v.getLsbD 18 }
  | 0x158 =>
    if fn ≠ 0 then s
    else if v.getLsbD 0 ∧ ¬ s.link.vfEnable then enableVfs s
    else if ¬ v.getLsbD 0 ∧ s.link.vfEnable then fenceVfs s
    else s
  | 0x160 => if fn = 0 then { s with link := { s.link with numVfs := min 15 (v.toNat % 0x10000) } } else s
  | 0x1A8 => if fn = 0 ∧ v.getLsbD 0 ≠ s.link.ptmEnable then setPtmEnable (v.getLsbD 0) s else s
  | _ => s

/-- A configuration request (R34, R56, R62, R67). -/
def configAccess (fn : Fn) (req : ConfigReq) (s : State) : State :=
  if ¬ s.link.up then s
  else if ¬ since s (some s.link.rrsFrom) (ticksMs 60) then emit (.rrs fn) s
  else match (s.fns[fn]).mode with
    | .absent => unsupported fn true s
    | .fencing => emit (.rrs fn) s
    | m =>
      match req with
      | .read off => emit (.completion fn [cfgRead s fn (off / 4 * 4)]) s
      | .write off v =>
        let s := emit (.completion fn []) s
        if m = .wedged then s else cfgActs fn (off / 4 * 4) v (cfgStore fn (off / 4 * 4) (cfgTaken s fn (off / 4 * 4) v) s)

/-- CONFIG_REQUEST (R34). -/
def execConfigRequest (dt : Nat) (fn : Fn) (req : ConfigReq) (s : State) : Answer := .next (configAccess fn req (advance dt s))

/-! ### BAR2 (R44) -/

/-- A BAR2 write: the enabled bytes inside PF0's Millpond grant are stored. -/
def bar2Store : Nat → List (Option Byte) → State → State
  | _, [], s => s
  | off, none :: rest, s => bar2Store (off + 1) rest s
  | off, some b :: rest, s => bar2Store (off + 1) rest (if inGrant s off 1 then millWrite off [b] s else s)

/-- Some enabled byte of a BAR2 write lies outside PF0's Millpond grant. -/
def bar2Strays (s : State) : Nat → List (Option Byte) → Bool
  | _, [] => false
  | off, b :: rest => (b.isSome && !inGrant s off 1) || bar2Strays s (off + 1) rest

/-- BAR2 exists and holds the range (R40). -/
def bar2Holds (s : State) (off n : Nat) : Bool := s.start.ident.bar2Enable && decide (off + n ≤ millpondSize)

/-- The bytes of Millpond that a read through BAR2 returns: below the grant lies the guardian area (R203, R393). -/
def bar2Bytes (s : State) (off n : Nat) : List Byte :=
  let low := min n (grantBase - off)
  padTo low (slice (guardArea s.guard) off low) ++ millRead s (off + low) (n - low)

/-- The doublewords of a read through BAR2. -/
def bar2Words (s : State) (off n : Nat) : List Word :=
  let bytes := bar2Bytes s off n
  (List.range ((n + 3) / 4)).map fun k => BitVec.ofNat 32 (ofLeBytes (slice bytes (4 * k) 4))

/-- A request to BAR2, of any size and any byte enables (R40, R44, R67): what a write has outside the grant is dropped with
event 0x1106, and a read returns the stored data. -/
def bar2Access (req : Bar2Req) (s : State) : State :=
  match req, reaches s 0 0 with
  | _, none => s
  | .write off bytes, some ok =>
    if ¬ ok ∨ ¬ bar2Holds s off bytes.length then unsupported 0 false s
    else
      let t := bar2Store off bytes s
      if bar2Strays s off bytes then post 0x1106 0 wide t else t
  | .read off n, some ok =>
    if ¬ ok ∨ ¬ bar2Holds s off n then unsupported 0 true s else emit (.completion 0 (bar2Words s off n)) s

/-- BAR2_WRITE, and the reads through BAR2, which the table gives no row of their own (R44, log entry 9). -/
def execBar2Write (dt : Nat) (req : Bar2Req) (s : State) : Answer := .next (bar2Access req (advance dt s))

/-! ### Violations and completions (R32, R67) -/

/-- Change a function's AER status. -/
def setAer (fn : Fn) (g : Aer → Aer) (s : State) : State := s.modFn fn fun f => { f with aer := g f.aer }

/-- AER has ECRC checking enabled for the function (R31). -/
def ecrcChecked (s : State) (fn : Fn) : Bool := (((s.fns[fn]).cfg.lookup 0x118).getD 0).getLsbD 8

/-- A violation that the receiver or the decoder finds (R31, R32, R67). -/
def tlpError (fn : Fn) (e : TlpError) (s : State) : State :=
  if ¬ s.link.up then s
  else match e with
    | .malformed =>
      let s := setAer fn (fun a => { a with malformed := true }) s
      post 0x1101 fn wide (if (s.fns[fn]).malformedMasked then s else emit (.fatalMessage fn) s)
    | .unsupported posted =>
      let s := setAer fn (fun a => { a with ur := true }) s
      post 0x1102 fn wide (if posted then s else emit (.ur fn) s)
    | .poisonedWrite => post 0x110B fn wide (setAer fn (fun a => { a with poisoned := true }) s)
    | .ecrc =>
      if ecrcChecked s fn then post 0x110C fn wide (setAer fn (fun a => { a with ecrc := true }) s) else s
    | .unexpectedCompletion => post 0x110D fn wide (setAer fn (fun a => { a with unexpected := true }) s)

/-- INBOUND_TLP_ERROR (R67). -/
def execInboundTlpError (dt : Nat) (fn : Fn) (e : TlpError) (s : State) : Answer := .next (tlpError fn e (advance dt s))

/-- A fetch of a ring hamper fails (R106). -/
def ringFetchFails (fn : Fn) (s : State) : State :=
  if serves s && nextTurn s == some fn && (s.fns[fn]).doorbells.head? == some false then
    let s := post 0x1111 fn wide (s.modFn fn fun f => { f with fetchErr := true })
    reply ⟨fn, false, 0, 0, 0, 0, 0, 0, []⟩ stBusError 0 [] (taken fn false s)
  else s

/-- The function on whose behalf an engine reads. -/
def readerFn (s : State) : Reader → Option Fn
  | .ringFetch fn | .hamperBuffer fn => some fn
  | .channel c _ _ => some (chanFn s c)
  | .pyramid => (passJob s).bind fun i => (s.prep.jobs[i]?).map PyrJob.fn
  | .decoder => s.prep.decRun.map DecJob.fn
  | .hopperCopy h => if (s.hoppers[h]).copy.isSome then some s.plan.hoppers[h] else none

/-- A hopper copy halts with a cause of R430 (R341, R433). -/
def copyHalts (i : Fin 16) (cause : Nat) (s : State) : State :=
  let s := copyProgress i s
  match (s.hoppers[i]).copy with
  | none => s
  | some c =>
    let (at_, s) := draw s
    let s := haltBorrow c.channel cause false 0 at_ (s.modHop i fun h => { h with copy := none })
    post 0x6404 s.plan.hoppers[i] i (hopEntry i stBusError fFull c.bytes s)

/-- The engine whose read failed gets BUS_ERROR (R67, R106, R373, R430): `cause` is 1 for a completion and 2 for a
timeout. A hamper's own buffer read ends with the command that ends the hamper. -/
def readFails (r : Reader) (cause : Nat) (s : State) : State :=
  match r with
  | .ringFetch fn => ringFetchFails fn s
  | .channel c addr isFetch =>
    if (s.chans[c]).inUse && !(s.chans[c]).borrowed && (s.chans[c]).mode != .halted then
      haltChan c (if isFetch.isSome then 6 else cause) stBusError false 0 addr s
    else s
  | .pyramid => match passJob s with
    | some i => pyrBusError i s
    | none => s
  | .decoder => match s.prep.decRun with
    | some j => decBusError j s
    | none => s
  | .hopperCopy h => copyHalts h cause s
  | .hamperBuffer _ => s

/-- A completion for a read of the part (R57, R67): what returns for a fenced instance is dropped. -/
def completionFor (r : Reader) (st : CplStatus) (s : State) : State :=
  match readerFn s r with
  | none => s
  | some fn =>
    if ¬ s.link.up ∨ (s.fns[fn]).mode = .fencing then s
    else match st with
      | .success => (match r with
        | .channel c addr (some bytes) => fetchBlock c addr bytes s
        | _ => s)
      | .ur | .ca => readFails r 1 (post 0x110E fn wide s)
      | .poisoned => readFails r 1 (post 0x110B fn wide (setAer fn (fun a => { a with poisoned := true }) s))

/-- READ_COMPLETION (R67). -/
def execReadCompletion (dt : Nat) (r : Reader) (st : CplStatus) (s : State) : Answer := .next (completionFor r st (advance dt s))

/-- No completion comes in time (R67). -/
def completionLate (r : Reader) (s : State) : State :=
  match readerFn s r with
  | none => s
  | some fn =>
    if (s.fns[fn]).mode = .fencing then s
    else readFails r 2 (post 0x110A fn wide (setAer fn (fun a => { a with timeout := true }) s))

/-- COMPLETION_TIMEOUT (R67). -/
def execCompletionTimeout (dt : Nat) (r : Reader) (s : State) : Answer := .next (completionLate r (advance dt s))

/-! ### The instance plan (R45 to R49, R69, R70) -/

/-- The owners that a payload in the layout of R69 gives, with the plan identifier; a byte above 15 is taken modulo 16, and
refused elsewhere. -/
def planOf (p : List Byte) : Plan :=
  let owner (off : Nat) : Fn := Fin.ofNat 16 (fld p off 1)
  { planId := BitVec.ofNat 32 (fld p 0 4)
    streams := Vector.ofFn fun n => owner (0x08 + n.val)
    channels := Vector.ofFn fun n => owner (0x28 + n.val)
    queues := Vector.ofFn fun n => owner (0x68 + n.val)
    hoppers := Vector.ofFn fun n => owner (0x88 + n.val)
    comparators := Vector.ofFn fun n => owner (0x98 + n.val) }

/-- The payload of R69 for a plan, flags 0 (R70). -/
def planBytes (p : Plan) : List Byte :=
  record [(4, p.planId.toNat), (4, 0)] ++
    (p.streams.toList ++ p.channels.toList ++ p.queues.toList ++ p.hoppers.toList ++ p.comparators.toList).flatMap
      fun f => leBytes 1 f.val

/-- A function whose resources cannot be reassigned (R48). -/
def planLocked (s : State) (fn : Fn) : Bool := (s.fns[fn]).mode == .fencing || (s.fns[fn]).mode == .wedged

/-- A resource in use (R48): kind and index as R69 numbers them. A comparator that is HELD is armed still, and counts as in
use (log entry 53). -/
def resourceInUse (s : State) (kind index : Nat) : Bool :=
  match kind with
  | 1 => (fin? 32 index).any fun n => (s.streams[n]).mode != .closed || (allFin 16).any fun i => (s.hoppers[i]).stream == some n
  | 2 => (fin? 64 index).any fun c => (match (s.chans[c]).mode with
      | .idle | .loaded => false
      | _ => true)
  | 3 => (fin? 32 index).any fun q => (s.queues[q]).enabled
  | 4 => (fin? 16 index).any fun i => (s.hoppers[i]).mode != .unbound
  | 5 => (fin? 16 index).any fun n => (match (s.cmps[n]).mode with
      | .armed | .held => true
      | _ => false)
  | _ => false

/-- The owners of a plan in the order of R69: kind, index, owner. -/
def planList (p : Plan) : List (Nat × Nat × Fn) :=
  let tag (k : Nat) (l : List Fn) : List (Nat × Nat × Fn) := l.zipIdx.map fun x => (k, x.2, x.1)
  tag 1 p.streams.toList ++ tag 2 p.channels.toList ++ tag 3 p.queues.toList ++ tag 4 p.hoppers.toList ++
    tag 5 p.comparators.toList

/-- The first resource in conflict with a new plan (R48, R69). -/
def planConflict (s : State) (new : Plan) : Option (Nat × Nat) :=
  (((planList s.plan).zip (planList new)).find? fun (a, b) =>
    a.2.2 != b.2.2 && (resourceInUse s a.1 a.2.1 || planLocked s a.2.2)).map fun (a, _) => (a.1, a.2.1)

/-- The new plan is live (R49, R432): a channel that moves is IDLE, and a notice route to a queue that moves is lost. -/
def planApplies (new : Plan) (s : State) : State :=
  let s := { s with
    chans := Vector.ofFn fun c => if s.plan.channels[c] = new.channels[c] then s.chans[c] else Chan.reset
    plan := new
    fns := Vector.ofFn fun f =>
      let F : FnState := s.fns[f]
      { F with noticeQueue := F.noticeQueue.filter fun q => new.queues[q] == f } }
  sweepWaits s

/-- The 8-byte payload of R69. -/
def planReply (s : State) (id kind index : Nat) : List Byte :=
  record [(4, id), (1, kind), (1, index), (1, measIndex s), (1, 0)]

/-- INSTANCE_PLAN_SET (R48, R49, R69). -/
def planSetBody (s : State) (h : Hamper) : Verdict :=
  let p := h.payload
  let new := planOf p
  let id := fld p 0 4
  match planConflict s new with
  | some (k, i) => .refuse stWrongState (planReply s id k i)
  | none =>
    if h.tail 168 || fld p 4 2 > 1 || !zeros p 6 2 || (slice p 8 160).any (fun b => decide (15 < b.toNat)) then badArg
    else if bit (fld p 4 2) 0 then .ok s (planReply s id 0 0)
    else
      let s := extend 3 2 (slice p 0 168) (planApplies new s)
      .ok s (planReply s id 0 0)

/-- An accepted plan that is not a dry run is told to every READY function after the reply (R88). -/
def planAccepted (s : State) (r : Req) : Option Word :=
  match fetch s r with
  | some h =>
    if h.op = 0x0101 ∧ ¬ bit (fld h.payload 4 2) 0 then
      (match judge s h 0 true planSetBody with
        | .ok _ _ => some (BitVec.ofNat 32 (fld h.payload 0 4))
        | _ => none)
    else none
  | none => none

/-- INSTANCE_PLAN_SET (R69). -/
def execInstancePlanSet (dt : Nat) (r : Req) (s : State) : Answer :=
  let s := advance dt s
  let t := serve r 0x0101 0 true planSetBody s
  .next (match planAccepted s r with
    | some id => noticeAll nPlanChanged id stOk 0 t
    | none => t)

/-- INSTANCE_PLAN_GET (R70). -/
def planGetBody (s : State) (h : Hamper) : Verdict := if h.tail 0 then badArg else .ok s (planBytes s.plan)

/-- INSTANCE_PLAN_GET (R70). -/
def execInstancePlanGet (dt : Nat) (r : Req) (s : State) : Answer :=
  .next (serve r 0x0102 0 false planGetBody (advance dt s))

/-! ### Opcodes (R14) -/

/-- The opcodes and the Valtyn minor version that introduced each (R93, R108). -/
def opcodes : List (Nat × Nat) :=
  [(0x0001, 0), (0x0002, 0), (0x0003, 0), (0x0004, 0), (0x0005, 0), (0x0008, 0), (0x0009, 0), (0x0010, 0), (0x0011, 0),
    (0x0012, 1), (0x0101, 0), (0x0102, 0), (0x0103, 1), (0x0110, 0), (0x0111, 0), (0x0112, 0)] ++
  [(0x0201, 0), (0x0202, 0), (0x0203, 0), (0x0204, 0), (0x0205, 0), (0x0210, 0), (0x0211, 0), (0x0212, 0), (0x0213, 0),
    (0x0214, 0), (0x0220, 2), (0x0301, 0), (0x0302, 0), (0x0303, 0), (0x0304, 1), (0x0310, 0), (0x0311, 0), (0x0312, 0),
    (0x0320, 0), (0x0321, 0), (0x0322, 1)] ++
  [(0x0401, 0), (0x0402, 0), (0x0403, 0), (0x0404, 0), (0x0405, 0), (0x0406, 0), (0x0407, 1), (0x0410, 2), (0x0411, 2),
    (0x0501, 0), (0x0502, 0), (0x0503, 0), (0x0504, 0), (0x0505, 0), (0x0506, 0), (0x0601, 0), (0x0602, 0), (0x0610, 0),
    (0x0611, 0), (0x0620, 0), (0x0621, 1)] ++
  [(0x0701, 0), (0x0702, 0), (0x0703, 1), (0x0704, 3), (0x0801, 0), (0x0802, 0), (0x0803, 1), (0x0901, 0), (0x0902, 0),
    (0x0903, 0), (0x0904, 0), (0x0905, 0), (0x0A01, 0), (0x0A02, 0), (0x0A03, 0), (0x0A04, 1)] ++
  [(0x0B01, 0), (0x0B02, 0), (0x0B03, 0), (0x0B04, 0), (0x0B05, 0), (0x0B06, 0), (0x0B07, 1), (0x0C01, 0), (0x0C02, 0),
    (0x0C03, 0), (0x0C04, 0), (0x0C05, 4)]

/-- The running version knows an opcode (R14, R149). -/
def opcodeKnown (s : State) (op : Nat) : Bool :=
  if s.start.core = .recovery then recoveryOps.contains op
  else opcodes.any fun x => x.1 == op && decide (x.2 ≤ s.start.minor)

/-- A hamper whose opcode the running version does not know (R14, R87). -/
def unknownHamper (r : Req) (s : State) : State :=
  match fetch s r with
  | some h => if opcodeKnown s h.op then s else answer h (judge s h 256 false fun _ _ => .refuse stBadOpcode []) s
  | none => s

/-- UNKNOWN_OPCODE (R14). -/
def execUnknownOpcode (dt : Nat) (r : Req) (s : State) : Answer := .next (unknownHamper r (advance dt s))

end Sys2Proof.Machine
end

