-- ==== Sys2Proof/Machine/SensorScript.lean ====
section
/-! DEFINITION. Sensor scripts: what ST12 and ST15 send up a camera link (R213, R234 to R236). Which bytes carry a register and its value
on the I2C bus is log entry 25. -/

namespace Sys2Proof.Machine

/-- The script of a port in outing key 6, as its 8-byte entries: none where the port has none (R234). -/
def sensorScript (s : State) (p : Fin 8) : Option (List (List Byte)) :=
  ((cborTree s.start.outing.defaultsItem).bind fun t => ((t.key 2).bind fun m => m.key p).bind Cbor.bytes?).map fun b =>
    (List.range (b.length / 8)).map fun i => slice b (8 * i) 8

/-- One transaction of a script (R213, R236): the bytes read, or none for any answer but ACK. -/
def scriptI2c (p : Fin 8) (dev : Nat) (write : List Byte) (read : Nat) (a : I2cAnswer) (s : State) :
    Option (List Byte) × State :=
  let s := emit (.i2c p dev write read) s
  match a with
  | .answered 0 bytes => (some (bytes.take read), s)
  | .answered 3 _ => (none, s)
  | .answered _ _ | .silent => (none, post 0x210D wide p s)

/-- Write a register and, where asked, read it back (R235): whether it reads as written, none for a failed transaction. -/
def writeOnce (p : Fin 8) (verify : Bool) (dev : Nat) (reg value : List Byte) (l : List I2cAnswer) (s : State) :
    Option Bool × State :=
  let w := scriptI2c p dev (reg ++ value) 0 (l.headD .silent) s
  if w.1.isNone then (none, w.2)
  else if ¬ verify then (some true, w.2)
  else
    let r := scriptI2c p dev reg value.length ((l.drop 1).headD .silent) w.2
    (r.1.map (· == value), r.2)

/-- A write of a script (R235): a mismatch repeats it once. -/
def scriptWrite (p : Fin 8) (verify : Bool) (dev : Nat) (reg value : List Byte) (l : List I2cAnswer) (s : State) :
    Bool × State :=
  let w := writeOnce p verify dev reg value l s
  if w.1 = some false then
    let w := writeOnce p verify dev reg value (l.drop 2) w.2
    (w.1 == some true, w.2)
  else (w.1 == some true, w.2)

/-- WAIT_EQ (R235): the register is read until its masked value is the one waited for, which the polls of 10 ms must bring. -/
def scriptPoll (p : Fin 8) (dev : Nat) (reg : List Byte) (value mask : Nat) : List I2cAnswer → State → Bool × State
  | [], s => (false, s)
  | a :: rest, s =>
    let r := scriptI2c p dev reg 2 a s
    match r.1 with
    | none => (false, r.2)
    | some b =>
      if (256 * fld b 0 1 + fld b 1 1) &&& mask = value then (true, r.2) else scriptPoll p dev reg value mask rest r.2

/-- One entry of a script but END (R235). -/
def scriptEntry (p : Fin 8) (verify : Bool) (e : List Byte) (l : List I2cAnswer) (s : State) : Bool × State :=
  let dev := fld e 1 1
  let reg := (slice e 2 2).reverse
  let value := (slice e 4 2).reverse
  match fld e 0 1 with
  | 1 => scriptWrite p verify dev reg (value.drop 1) l s
  | 2 => scriptWrite p verify dev reg value l s
  | 3 => scriptPoll p dev reg (fld e 4 2) (fld e 6 2) l s
  | 4 => (true, s)
  | 5 =>
    let line := fld e 2 2
    let high := fld e 4 2 == 1
    let g := BitVec.ofNat 4 (2 ^ line)
    if line ≤ 3 ∧ fld e 4 2 ≤ 1 then
      (true, emit (.gpio p line high)
        (s.modPort p fun x => { x with gpio := if high then x.gpio ||| g else x.gpio &&& ~~~ g }))
    else (false, s)
  | _ => (false, s)

/-- The entries of a script run in order up to END; `answers` holds the camera's answers to each entry (R235). -/
def scriptRuns (p : Fin 8) (verify : Bool) : List (List Byte) → List (List I2cAnswer) → State → Bool × State
  | [], _, s => (false, s)
  | e :: rest, answers, s =>
    if fld e 0 1 = 0 then (true, s)
    else
      let r := scriptEntry p verify e (answers.headD []) s
      if r.1 then scriptRuns p verify rest (answers.drop 1) r.2 else r

/-- The sensor script of a port runs (R235): whether it reaches END. A port without a script has none to run. -/
def sensorRuns (p : Fin 8) (verify : Bool) (answers : List (List I2cAnswer)) (s : State) : Bool × State :=
  match sensorScript s p with
  | none => (true, s)
  | some es => if 512 < es.length then (false, s) else scriptRuns p verify es answers s

end Sys2Proof.Machine
end

