-- ==== Sys2Proof/Machine/StartSteps.lean ====
section
/-! DEFINITION. Meanings of the start steps ST02 to ST19, their timeouts and late retries (R131 to R149, R194, R217, R234,
R235, R269, R294, R372, R396, R460). A completion acts while its step runs and within its budget; otherwise the command has
no effect (log entry 3). -/

namespace Sys2Proof.Machine

/-! ### What the defaults of the record in force give -/

/-- An entry of outing key 6. -/
def defaultOf (s : State) (k : Nat) : Option Cbor := (cborTree s.start.outing.defaultsItem).bind fun t => t.key k

/-- The byte strings of an array. -/
def Cbor.strings : Cbor → List (List Byte)
  | .arr _ _ l => l.filterMap Cbor.bytes?
  | _ => []

/-- The byte strings of an array within a map of outing key 6. -/
def defaultList (s : State) (k sub : Nat) : List (List Byte) :=
  (((defaultOf s k).bind fun c => c.key sub).map Cbor.strings).getD []

/-- Valtyn applies a default as it would a request of its hamper: none where it would refuse. -/
def applyDefault (body : State → Hamper → Verdict) (op : Nat) (bytes : List Byte) (s : State) : Option State :=
  match body s ⟨0, true, op, 0, 0, bytes.length, 0, 0, padTo 240 bytes⟩ with
  | .ok t _ => some t
  | _ => none

/-- Apply defaults in order until one is refused; the Boolean is whether none was. -/
def applyAll (body : State → Hamper → Verdict) (op : Nat) : List (List Byte) → State → State × Bool
  | [], s => (s, true)
  | b :: rest, s =>
    match applyDefault body op b s with
    | some t => applyAll body op rest t
    | none => (s, false)

/-- The settings that ST11 or ST15 gives a port (R234): its PORT_CONFIG default, else the hamper's own defaults with G1
(log entry 17). -/
def portDefault (s : State) (p : Fin 8) : PortCfg :=
  let items := (((defaultOf s 1).map Cbor.strings).getD []).filter fun b => fld b 0 1 == p.val && zeros (padTo 240 b) 24 240
  match (items.filterMap fun b => portSettings (padTo 240 b)).getLast? with
  | some c => c
  | none => ⟨true, 1, 1, 0, 0, 0, 0, Vector.replicate 4 0xFF, 100, 16, 100⟩

/-- The learned gear and profile of a port's step on the fast path (R143, R216). -/
def learnedPort (s : State) (step : Nat) (p : Fin 8) : Option (Nat × Nat) :=
  if s.start.safePath then none
  else match s.start.learned.find? fun e => e.step = step ∧ e.inst = p.val with
    | some e =>
      let g := e.params.toNat % 256
      let f := e.params.toNat / 256 % 256
      if 1 ≤ g ∧ g ≤ 5 ∧ (f = 1 ∨ f = 2) then some (g, f) else none
    | none => none

/-- ST11 or ST15 begins on a port (R208, R216, R217, R234). -/
def startPort (step : Nat) (p : Fin 8) (route : Nat) (s : State) : State :=
  let c := portDefault s p
  let l := if route = 1 then none else learnedPort s step p
  let c := match l with
    | some (_, f) => { c with profile := f }
    | none => c
  let gear := match l with
    | some (g, _) => g
    | none => if route = 1 ∨ s.start.safePath then gearOne else c.gear
  if c.enable then acquire p c gear (s.modPort p fun x => x.withTask .start)
  else s.modPort p fun x => { x with cfg := c }

/-! ### A step begins -/

/-- What a step does as it begins. -/
def stepEffect (step inst route : Nat) (s : State) : State :=
  if step = 8 ∨ step = 9 then
    (match fin? 2 inst with
      | some p => openPath p s
      | none => s)
  else if step = 11 ∨ step = 15 then
    (match fin? 8 inst with
      | some p => startPort step p route s
      | none => s)
  else s

/-- Run `f`, and then what every step that began in it does. -/
def withEffects (f : State → State) (s : State) : State :=
  let t := f s
  t.start.steps.foldl (fun (u : State) (r : StepRec) =>
    match r.status with
    | .running route _ =>
      if stepRunning s r.step r.inst = stepRunning t r.step r.inst then u else stepEffect r.step r.inst route u
    | _ => u) t

/-- CAR_WAKE_DEBOUNCE_EXPIRY (R131, R133). -/
def execCarWakeDebounceExpiry (dt : Nat) (s : State) : Answer := .next (withEffects carWakeTaken (advance dt s))

/-! ### A step ends -/

/-- The step runs and is within its budget; the route. -/
def inBudget (s : State) (step inst : Nat) : Option Nat :=
  match stepRunning s step inst with
  | some (route, t) => if mainRuns s ∧ s.elapsed ≤ t + ticksMs (budget step route) then some route else none
  | none => none

/-- EARLY becomes UNCHECKED where no early picture comes (R164, R140). -/
def noPicture (p : Fin 2) (s : State) : State :=
  s.modPath p fun x => { x with mode := if x.mode = .early then .unchecked else x.mode }

/-- Both slots have failed: ROM recovery (R140, R149). -/
def enterRecovery (s : State) : State :=
  post 0x9009 wide wide (s.modStart fun a => { a with core := .recovery, major := 0, minor := 0 })

/-- Change the present start's bank header. -/
def modBank (g : Bank → Bank) (s : State) : State :=
  s.modMram fun m => { m with banks := vmod m.banks (bankOf s.start.number) fun b => b.map g }

/-! ### ST05 -/

/-- The defaults of trigger outputs and cross lines (R294). -/
def applyTriggerDefaults (s : State) : State :=
  let one (body : State → Hamper → Verdict) (op : Nat) (s : State) (b : List Byte) : State :=
    match applyDefault body op b s with
    | some t => t
    | none => post 0x3210 wide (fld b 0 1) s
  let s := (defaultList s 3 4).foldl (one trigConfigBody 0x0320) s
  (defaultList s 3 5).foldl (one xtrConfigBody 0x0321) s

/-- The Weir defaults (R396): an entry that Valtyn would refuse is logged, and its default stays. -/
def applyWeirDefaults (s : State) : State :=
  let c := defaultOf s 7
  let s := match (c.bind fun c => c.key 1).bind Cbor.nat? with
    | some n =>
      if n ≤ 8192 ∧ n % 4 = 0 then s.modWeir fun w => { w with grantKib := n } else post 0x6010 wide wide s
    | none => s
  let one (k : Nat) (body : State → Hamper → Verdict) (op : Nat) (s : State) : State :=
    match (c.bind fun c => c.key k).bind Cbor.bytes? with
    | some b => (match applyDefault body op b s with
      | some t => t
      | none => post 0x6010 wide wide s)
    | none => s
  one 3 weirScrubBody 0x0704 (one 2 weirShedOrderBody 0x0702 s)

/-- What another function than the guardian owner has loaded into the guardian does not stay (R19, R22). -/
def dropGuardLoads (s : State) : State :=
  s.modGuard fun g => { g with
    nextCfg := none, templates := Guard.reset.templates, loading := []
    paths := g.paths.map fun x => { x with nextSet := none, nextRefs := [], refs := GPath.reset.refs, loading := [] } }

/-- The guardian's part of the record (R193, R194, R203, R205, R207): what its owner has loaded by hamper in this start stays over
it. -/
def applyGuardDefaults (s : State) : State :=
  let o := s.start.outing
  let lay := cborTree o.layoutItem
  let refs := cborTree o.refsItem
  let set16 (k : Nat) : Option (BitVec 128) :=
    ((lay.bind fun c => c.key k).bind Cbor.bytes?).map fun b => BitVec.ofNat 128 (fld b 0 16)
  let powerOn := (set16 4).getD allOn
  let s := s.modGuard fun g => { g with
    cfg := ((((lay.bind fun c => c.key 6).bind Cbor.bytes?).bind fun b => parseGuardCfg (padTo 240 b))).getD GuardCfg.reset
    powerOn := powerOn
    lossSet := (set16 5).getD powerOn
    waiting := BitVec.ofNat 32 (((lay.bind fun c => c.key 3).bind Cbor.nat?).getD 0)
    templates := match ((cborTree o.chimeItem).bind Cbor.bytes?).bind parseTemplateBlob with
      | some l => Vector.ofFn fun i => g.templates[i] <|> l[i.val]?
      | none => g.templates }
  (allFin 2).foldl (fun (s : State) (p : Fin 2) =>
    match ((refs.bind fun c => c.key (1 + p.val)).bind Cbor.bytes?).bind parseRegions with
    | some rs =>
      let (id, s) := draw s
      s.modPath p fun x => { x with set := ⟨BitVec.ofNat 32 id, rs⟩ }
    | none => s) s

/-- The end of ST05: the record of a copy, or the built-in one, is in force (R69, R120, R132, R140, R155, R380, R381). -/
def applyOuting (copy : Option (Fin 2)) (o : Outing) (s : State) : State :=
  let container := match copy with
    | some c => (s.mram.copies[c]).take (16 + fld (s.mram.copies[c]) 8 4)
    | none => []
  let plan := (((cborTree o.planItem).bind Cbor.bytes?)).getD []
  let s := extend 4 2 (o.refsItem ++ o.chimeItem) (extend 3 2 plan (extend 2 2 container s))
  let s := if guardOwner s = o.guardianOwner then s else dropGuardLoads s
  let s := { s with plan := if copy.isSome then planOf plan else Plan.reset }
  let s := s.modStart fun a => { a with outing := { o with copy := copy } }
  let s := s.modWeir fun w => { w with
    fixedFlows := true, sAllow := BitVec.ofNat 16 (1 ||| 2 ^ o.guardianOwner.val) }
  let s := match ((cborTree o.fantailItem).bind Cbor.bytes?).bind fun b => fantailSettings (padTo 240 b) with
    | some c => s.modFantail (applyFantail c s.elapsed)
    | none => s
  let s := applyTriggerDefaults (applyWeirDefaults (applyGuardDefaults s))
  modBank (fun b => { b with outingCopy := (copy.map Fin.val).getD 0xFF })
    (s.modPower fun p => { p with wakeOnXtr0 := o.wakeOnXtr0 })

/-! ### Failures -/

/-- The learned state and the path of the start, and the header and learned block of its bank (R141, R142, R144, R145). -/
def foldApplies (learned : List Learned) (fast : Bool) (s : State) : State :=
  let s := if fast then s else post 0x8006 wide wide s
  let s := s.modStart fun a => { a with learned := learned, safePath := !fast }
  (modBank (fun b => { b with
    path := b2n !fast, fwSlot := s.start.runningSlot, major := s.start.major, minor := s.start.minor, learned := learned
    headerGood := true, learnedGood := true }) s).modMram fun m => { m with clearAlternate := [] }

/-- The result of a step's final failure (R140). -/
def finalFailure (step inst : Nat) (s : State) : State :=
  match step with
  | 2 => enterRecovery s
  | 4 => foldApplies [] false s
  | 5 => applyOuting none Outing.builtIn s
  | 6 => noPicture 1 (noPicture 0 s)
  | 8 | 9 => (match fin? 2 inst with
    | some p => holdPath p s
    | none => s)
  | 10 => (match fin? 2 inst with
    | some p => noPicture p s
    | none => s)
  | 14 => s.modWeir fun w => { w with store := .unavailable }
  | _ => s

/-- ST02 fails within ST03's alternate (R143): the other slot is not intact. -/
def checkFails (s : State) : State :=
  match stepRunning s 2 noInst with
  | some (route, _) => setStep 2 noInst .failed (routeFails 2 noInst route 0 s)
  | none => s

/-- ST03 fails on its route (R135 to R137, R140): after the primary the start goes back to ST02 on the other slot, and after
a learned alternate the primary runs on the first. Both failed, the control core enters ROM recovery. -/
def valtynFails (route cause : Nat) (s : State) : State :=
  let s := routeFails 3 noInst route cause (checkFails s)
  if route = 0 ∧ ¬ s.start.otherTried then startAgain s
  else if route = 1 ∧ ¬ routeFailed s 3 noInst 0 then
    runStep 3 noInst 0 (s.modStart fun a => { a with trySlot := 1 - a.trySlot })
  else enterRecovery (post 0x8003 wide 3 (setStep 3 noInst .failed s))

/-- The next late retry begins (R138): one at a time, in ascending order, once start_done is set. -/
def nextRetry (s : State) : State :=
  if s.start.startDone ∧ ¬ s.start.steps.any (fun r => match r.status with
      | .running _ _ => true
      | _ => false) then
    match s.start.retries with
    | (step, inst) :: rest => runStep step inst 2 (s.modStart fun a => { a with retries := rest })
    | [] => s
  else s

/-- The slot or the copy that a late retry of ST02 or ST05 checks (R138, R143). -/
def retryDetail (s : State) (step : Nat) : Nat :=
  if step = 2 then s.mram.identity.activeSlot else if step = 5 then s.mram.identity.activeCopy else 0

/-- A late retry ends (R138). -/
def retryEnds (step inst : Nat) (ok : Bool) (cause detail : Nat) (s : State) : State :=
  let s := jot (if ok then 2 else 3) step inst 2 (stepUs s step inst) cause (if ok then detail else retryDetail s step) s
  nextRetry (setStep step inst (if ok then .done else .failed) s)

/-- A running step fails on its route (R136, R137, R140). -/
def failStep (step inst cause : Nat) (s : State) : State :=
  match stepRunning s step inst with
  | none => s
  | some (route, _) =>
    if route = 2 then
      retryEnds step inst false cause 0 (if cause = 0x8002 then post 0x8002 wide step s else s)
    else if step = 3 then valtynFails route cause s
    else if step = 2 ∧ (stepRunning s 3 noInst).isSome then valtynFails 1 0 s
    else
      let s := stepFailed step inst cause (if (step = 8 ∨ step = 9) ∧ route = 0 then post 0x4120 wide inst s else s)
      if stepStatus s step inst ≠ some .failed then s
      else
        let s := finalFailure step inst s
        if s.start.core = .recovery then s else beginReady s

/-- A running step is DONE: its block's door is open (R135). -/
def doneStep (step inst detail : Nat) (s : State) : State :=
  (stepDone step inst detail s).modStart fun a => { a with closed := a.closed.filter (· != (step, inst)) }

/-- The result of a step: `good` applies a success. -/
def finish (step inst detail : Nat) (res : Option State) (s : State) : State :=
  match inBudget s step inst with
  | some 2 => (match res with
    | some t => retryEnds step inst true 0 detail (t.modStart fun a => { a with closed := a.closed.filter (· != (step, inst)) })
    | none => withEffects (failStep step inst 0) s)
  | some _ => withEffects (fun s => match res with
    | some t => doneStep step inst detail t
    | none => failStep step inst 0 s) s
  | none => s

/-! ### ST02 to ST05 -/

/-- ST02 (R135, R148, R155); within ST03's alternate the Valtyn section is measured next. -/
def slotCheckEnds (s : State) : State :=
  match inBudget s 2 noInst with
  | none | some 2 => s
  | some _ =>
    let slot := s.start.trySlot
    let image := (s.mram.slots[slot]).image
    if intact image then
      let t := withEffects (doneStep 2 noInst slot) (extend 0 0 (loaderBytes image) s)
      if (stepRunning s 3 noInst).isSome then measureValtyn t else t
    else withEffects (failStep 2 noInst 0) s

/-- SLOT_CHECK (R135, R148). -/
def execSlotCheck (dt : Nat) (s : State) : Answer := .next (slotCheckEnds (advance dt s))

/-- ST03: Valtyn runs, its porches are ready, the watchdog is armed and the log is kept or restored (R135, R488, R489). -/
def valtynRuns (s : State) : State :=
  let slot := s.start.trySlot
  let image := (s.mram.slots[slot]).image
  let s := s.modStart fun a => { a with
    core := .valtyn, runningSlot := slot, major := fld image 6 1, minor := fld image 7 1 }
  restoreLog s.log.kept (s.modPower fun p => { p with wdtArmed := true, wdtLast := s.elapsed, wdtPause := 0 })

/-- VALTYN_RUN (R135). -/
def execValtynRun (dt : Nat) (res : StepResult) (s : State) : Answer :=
  let s := advance dt s
  .next (match inBudget s 3 noInst with
    | none => s
    | some _ =>
      if ¬ stepEnded s (2, noInst) then s
      else if res.ok then withEffects (doneStep 3 noInst s.start.trySlot) (valtynRuns s)
      else withEffects (failStep 3 noInst 0) s)

/-- The records that R146 makes of the newest bank's STARTED records without an outcome: INTERRUPTED ones stand in the present
bank, since no start writes another, and those that count as FAILED are logged (log entry 54). -/
def closeRecords (b : Bank) (failed : List Record) (s : State) : State :=
  let s := (interrupted s.start.cause b).foldl (fun s r => jot 5 r.step r.inst r.route 0 0 0 s) s
  failed.foldl (fun s r => post 0x8005 wide r.step s) s

/-- ST04: the fold and the path of the start (R141, R142, R144 to R146); its alternate is the safe path (R135). -/
def journalFolds (s : State) : State :=
  match inBudget s 4 noInst with
  | none => s
  | some route =>
    let (learned, ok, torn, failed) := foldBank s.start.cause s.mram.clearAlternate (newestBank s)
    let s := if torn then post 0x800A wide wide s else s
    let s := match newestBank s with
      | some b => closeRecords b failed s
      | none => s
    withEffects (doneStep 4 noInst 0) (if route = 1 then foldApplies [] false s else foldApplies learned ok s)

/-- JOURNAL_FOLD (R144). -/
def execJournalFold (dt : Nat) (s : State) : Answer := .next (journalFolds (advance dt s))

/-- ST05 (R135, R150, R161, R364). -/
def recordRead (s : State) : State :=
  match inBudget s 5 noInst with
  | none | some 2 => s
  | some route =>
    let copy := copyOf s route
    match decodeOuting s.mram.copies[copy] with
    | some o => withEffects (doneStep 5 noInst copy) (applyOuting (some copy) o s)
    | none => withEffects (failStep 5 noInst 0x9003) (post 0x9003 wide copy s)

/-- OUTING_RECORD (R135). -/
def execOutingRecord (dt : Nat) (s : State) : Answer := .next (recordRead (advance dt s))

/-! ### ST06 to ST10 -/

/-- The surfaces of a path (R135, R194, R195): the record's layout, or the built-in one. A reference that a hamper has loaded
in this start stays (R205). -/
def buildSurfaces (alternate : Bool) (s : State) : State :=
  let lay := cborTree s.start.outing.layoutItem
  let refs := cborTree s.start.outing.refsItem
  (allFin 2).foldl (fun (s : State) (p : Fin 2) =>
    let l := ((lay.bind fun c => c.key (1 + p.val)).bind Cbor.bytes?).bind (parseLayout p)
    s.modPath p fun x => { x with
      refs := Vector.ofFn fun i => x.refs[i] <|> (outingRefs refs p)[i]
      layout := if alternate then none else l
      builtIn := alternate || l.isNone }) s

/-- GUARDIAN_SURFACES (R135). -/
def execGuardianSurfaces (dt : Nat) (res : StepResult) (s : State) : Answer :=
  let s := advance dt s
  let route := ((stepRunning s 6 noInst).map Prod.fst).getD 0
  .next (if route = 2 then s else finish 6 noInst 0 (if res.ok then some (buildSurfaces (route == 1) s) else none) s)

/-- TSL_RECEIVE (R135). -/
def execTslReceive (dt : Nat) (s : State) : Answer :=
  let s := advance dt s
  .next (finish 7 noInst 0 (some (s.modTsl fun t => { t with on := true, lastAt := s.elapsed })) s)

/-- ST08 or ST09 ends (R135, R143): with no picture to come the path is UNCHECKED (R164). -/
def panelLink (p : Fin 2) (s : State) : State :=
  let s := panelTrained p s
  if (plannedSteps s).contains (10, p.val) then s else noPicture p s

/-- The detail word of a trained panel link (R143). -/
def linkDetail (l : LinkSettings) : Nat :=
  l.rate % 256 + l.lanes % 256 * 2 ^ 8 + l.swing % 256 * 2 ^ 16 + l.pre % 256 * 2 ^ 24

/-- PANEL_LINK_TRAINED (R135). -/
def execPanelLinkTrained (dt : Nat) (p : Fin 2) (link : Option LinkSettings) (s : State) : Answer :=
  let s := advance dt s
  .next (match link with
    | some l => finish (8 + p) p (linkDetail l) (some (panelLink p s)) s
    | none => finish (8 + p) p 0 none s)

/-- EARLY_PICTURE (R135). -/
def execEarlyPicture (dt : Nat) (p : Fin 2) (res : StepResult) (s : State) : Answer :=
  let s := advance dt s
  .next (finish 10 p 0
    (if res.ok then some (s.modPath p fun x => { x with showing := x.mode == .early }) else none) s)

/-! ### ST11 to ST15 -/

/-- The detail word of a locked port (R143). -/
def portDetail (gear profile : Nat) : Nat := gear + 256 * profile

/-- A port has locked for its start step at a gear (R216). -/
def portLockedAt (p : Fin 8) (gear : Nat) (s : State) : State :=
  if (s.ports[p]).mode = .locked then s.modPort p fun x => { x with task := .none }
  else post 0x2001 wide p (s.modPort p fun x => { x with
    mode := .locked, locks := x.locks + 1, attempts := 0, lockNs := nowNs s, raising := none, degraded := false
    gear := gear, task := .none })

/-- A step that locks a port can end DONE: the port is on, at its configured gear or a learned one above it, and in its profile
(R217). -/
def portFits (s : State) (p : Fin 8) (gear profile : Nat) : Bool :=
  let c := (s.ports[p]).cfg
  (s.ports[p]).mode != .off && decide (c.gear ≤ gear) && decide (gear ≤ 5) && profile == c.profile

/-- ST11 on its port (R135, R216, R217). -/
def rearLink (p : Fin 8) (res : StepResult) (gear profile : Nat) (s : State) : State :=
  if ¬ res.ok then finish 11 p 0 none s
  else if ¬ portFits s p gear profile then s
  else finish 11 p (portDetail gear profile) (some (portLockedAt p gear s)) s

/-- REAR_CAMERA_LINK (R217). -/
def execRearCameraLink (dt : Nat) (res : StepResult) (gear profile : Nat) (s : State) : Answer :=
  let s := advance dt s
  .next (match s.start.outing.rearPort with
    | some p => rearLink p res gear profile s
    | none => s)

/-- GEAR_RAISE_TIMEOUT: the step that raised the gear ends FAILED (R217). -/
def execGearRaiseTimeout (dt : Nat) (p : Fin 8) (s : State) : Answer :=
  let s := advance dt s
  let t := raiseFails p s
  .next (if (t.ports[p]).degraded ∧ ¬ (s.ports[p]).degraded then
      (if (stepRunning t 11 p).isSome then withEffects (failStep 11 p 0) t
      else if (stepRunning t 15 p).isSome then withEffects (failStep 15 p 0) t
      else t)
    else t)

/-- A port's sensor script runs within its step (R235): a script that fails fails the step; one that has reached END ends it DONE once a
complete frame has arrived on virtual channel value 0. -/
def sensorStep (step : Nat) (p : Fin 8) (detail : Nat) (answers : List (List I2cAnswer)) (frame : Bool) (s : State) : State :=
  match inBudget s step p with
  | none => s
  | some route =>
    let r := sensorRuns p (step == 12 && route == 1) answers s
    if ¬ r.1 then finish step p detail none r.2 else if frame then finish step p detail (some r.2) r.2 else r.2

/-- REAR_SENSOR (R235). -/
def execRearSensor (dt : Nat) (answers : List (List I2cAnswer)) (frame : Bool) (s : State) : Answer :=
  let s := advance dt s
  .next (match s.start.outing.rearPort with
    | some p => sensorStep 12 p 0 answers frame s
    | none => s)

/-- REAR_INSERTION (R135). -/
def execRearInsertion (dt : Nat) (res : StepResult) (s : State) : Answer :=
  let s := advance dt s
  .next (finish 13 1 0 (if res.ok then some s else none) s)

/-- LPDDR5X_TRAINING (R135, R376, R377): the trained rate in MT/s and the size in GiB that the training found, one of R18. -/
def execLpddr5xTraining (dt : Nat) (res : StepResult) (mts gib : Nat) (s : State) : Answer :=
  let s := advance dt s
  .next (if res.ok ∧ ¬ (2 ≤ gib ∧ gib ≤ 16) then s else finish 14 noInst 0
    (if res.ok then some (s.modWeir fun w => { w with store := .available, mts := mts, gib := gib }) else none) s)

/-- ST15 on a port (R135, R217, R234, R235): it locks as ST11 does, then its script runs. -/
def cameraStep (p : Fin 8) (res : StepResult) (gear profile : Nat) (answers : List (List I2cAnswer)) (frame : Bool) (s : State) :
    State :=
  if ¬ res.ok then finish 15 p 0 none s
  else if (inBudget s 15 p).isNone ∨ ¬ portFits s p gear profile then s
  else sensorStep 15 p (portDetail gear profile) answers frame (portLockedAt p gear s)

/-- CAMERA_PORT_START (R135, R234, R235). -/
def execCameraPortStart (dt : Nat) (port : Fin 8) (res : StepResult) (gear profile : Nat) (answers : List (List I2cAnswer))
    (frame : Bool) (s : State) : Answer := .next (cameraStep port res gear profile answers frame (advance dt s))

/-! ### ST16 to ST19 -/

/-- A step whose entries are applied in order: a refused one fails it, and those before it stay in force (R269, R460). -/
def finishDefaults (step : Nat) (apply : State → State × Bool) (s : State) : State :=
  match inBudget s step noInst with
  | none => s
  | some _ =>
    let (t, ok) := apply s
    finish step noInst 0 (if ok then some t else none) t

/-- ST16: POS_CONFIG, EMU_CONFIG and POS_PRESET in this order; Valtyn 1.0 ignores EMU_CONFIG (R269). -/
def applyPositions (s : State) : State × Bool :=
  let emus := if s.start.minor = 0 then [] else defaultList s 3 2
  match applyAll posConfigBody 0x0301 (defaultList s 3 1) s with
  | (s, false) => (s, false)
  | (s, true) =>
    match applyAll emuConfigBody 0x0304 emus s with
    | (s, false) => (s, false)
    | (s, true) =>
      let presets := defaultList s 3 3
      if presets.all fun b => fld b 1 1 == 0 then applyAll posPresetBody 0x0303 presets s
      else applyAll posPresetBody 0x0303 (presets.takeWhile fun b => fld b 1 1 == 0) s |>.map id fun _ => false

/-- POSITION_CHANNELS (R269). -/
def execPositionChannels (dt : Nat) (s : State) : Answer := .next (finishDefaults 16 applyPositions (advance dt s))

/-- ST17 (R372). -/
def applyAudio (s : State) : State × Bool :=
  applyAll audioConfigBody 0x0620 (((defaultOf s 6).map Cbor.strings).getD []) s

/-- AUDIO_INPUTS (R372). -/
def execAudioInputs (dt : Nat) (s : State) : Answer := .next (finishDefaults 17 applyAudio (advance dt s))

/-- ST18 (R460). -/
def applyWitness (s : State) : State × Bool :=
  let item (k : Nat) : List (List Byte) := (((defaultOf s 4).bind fun c => c.key k).bind Cbor.bytes?).toList
  match applyAll witnessConfigBody 0x0901 (item 1) s with
  | (s, false) => (s, false)
  | (s, true) => applyAll witnessArmBody 0x0902 (item 2) s

/-- WITNESS_ARM_STEP (R460). -/
def execWitnessArmStep (dt : Nat) (s : State) : Answer := .next (finishDefaults 18 applyWitness (advance dt s))

/-- ST19 (R88, R135, R138): the start is closed, start_done set, START_DONE sent; an unplanned cause and a lockstep mismatch
are logged. -/
def startCloses (s : State) : State :=
  match inBudget s 19 noInst with
  | none => s
  | some _ =>
    let s := stepDone 19 noInst 0 s
    let s := s.modStart fun a => { a with
      startDone := true
      retries := a.retries.mergeSort fun x y => decide (x.1 < y.1) || (x.1 == y.1 && decide (x.2 ≤ y.2)) }
    let s := s.modPower fun p => { p with state := .running }
    let s := noticeAll 0x0008 s.start.number stOk (BitVec.ofNat 32 ((s.elapsed - s.clk.wakeAt) / 200000)) s
    let c := s.start.cause
    let s := if c = 0x14 ∨ c = 0x15 ∨ c = 0x16 then post 0x8008 wide c s else s
    nextRetry (if s.pwr.lockstep then post 0x9015 wide 0 s else s)

/-- START_DONE (R135). -/
def execStartDone (dt : Nat) (s : State) : Answer := .next (withEffects startCloses (advance dt s))

/-- A step has not ended within its budget: FAILED with TIMEOUT, its block's door closes (R136, R161). -/
def stepTimesOut (step inst : Nat) (s : State) : State :=
  match stepRunning s step inst with
  | none => s
  | some (route, t) =>
    if ¬ mainRuns s ∨ s.elapsed < t + ticksMs (budget step (if route = 2 then 0 else route)) then s
    else
      let cause := if route ≠ 1 then failCause step else 0
      withEffects (failStep step inst cause) (s.modStart fun a => { a with
        closed := a.closed.filter (· != (step, inst)) ++ [(step, inst)] })

/-- ST01 is over its budget while the supplies are not good (R136, R161): the start goes on when they are, and ST01 ends FAILED
then. -/
def wakeTimesOut (s : State) : State :=
  if s.pwr.state = .starting ∧ ¬ s.pwr.suppliesGood ∧ s.pwr.resetHeld.isEmpty ∧ s.clk.wakeAt + ticksMs 40 ≤ s.elapsed then
    s.modPower fun p => { p with st01Late := true }
  else s

/-- START_STEP_TIMEOUT (R136). -/
def execStartStepTimeout (dt : Nat) (step inst : Nat) (s : State) : Answer :=
  .next (if step = 1 then wakeTimesOut (advance dt s) else stepTimesOut step inst (advance dt s))

/-- A late retry of a step that only checks: the active slot, the active copy, or surfaces in spare Millpond (R138). -/
def retryChecks (s : State) (step : Nat) (res : StepResult) : Bool :=
  match step with
  | 2 => intact (s.mram.slots[s.mram.identity.activeSlot]).image
  | 5 => (decodeOuting s.mram.copies[s.mram.identity.activeCopy]).isSome
  | _ => res.ok

/-- LATE_RETRY (R138): the retry in progress ends. -/
def lateRetryEnds (step inst : Nat) (res : StepResult) (detail : Nat) (answers : List (List I2cAnswer)) (frame : Bool)
    (s : State) : State :=
  match inBudget s step inst with
  | some 2 =>
    (match step with
      | 2 => finish 2 inst s.mram.identity.activeSlot (if retryChecks s 2 res then some s else none) s
      | 5 => finish 5 inst s.mram.identity.activeCopy (if retryChecks s 5 res then some s else none) s
      | 15 => (match fin? 8 inst with
        | some p => cameraStep p res (detail % 256) (detail / 256) answers frame s
        | none => s)
      | 16 => finishDefaults 16 applyPositions s
      | 17 => finishDefaults 17 applyAudio s
      | 18 => finishDefaults 18 applyWitness s
      | _ => finish step inst 0 (if res.ok then some s else none) s)
  | _ => s

/-- LATE_RETRY (R138). -/
def execLateRetry (dt : Nat) (step inst : Nat) (res : StepResult) (detail : Nat) (answers : List (List I2cAnswer)) (frame : Bool)
    (s : State) : Answer := .next (withEffects (lateRetryEnds step inst res detail answers frame) (advance dt s))

end Sys2Proof.Machine
end

