-- ==== Sys2Proof/Machine/Modes.lean ====
section
/-! DEFINITION. Meanings of INSTANCE_QUIESCE (R466, R475). -/

namespace Sys2Proof.Machine

/-- How a QUIET notice names a block (R88). -/
def blockName (kind index : Nat) : Nat := 256 * kind + index

/-- A block joins the quiesce of a function. -/
def awaitBlock (fn : Fn) (kind index : Nat) (s : State) : State :=
  s.modFn fn fun f => { f with quiesce := f.quiesce.map fun (q : Quiesce) => ⟨q.blocks ++ [blockName kind index], q.total⟩ }

/-- Items that a quiesce cancels at once. -/
def countCancelled (fn : Fn) (n : Nat) (s : State) : State :=
  s.modFn fn fun f => { f with quiesce := f.quiesce.map fun (q : Quiesce) => ⟨q.blocks, q.total + n⟩ }

/-- Bit 0: the sender's streams close. -/
def quiesceStreams (fn : Fn) (s : State) : State :=
  (allFin 32).foldl (fun (s : State) (n : Fin 32) =>
    if s.plan.streams[n] ≠ fn ∨ (s.streams[n]).mode = .closed then s
    else
      let s := awaitBlock fn kStream n s
      if (s.streams[n]).isOpen then beginClose n s else s) s

/-- Bit 1: the sender's channels are disabled. -/
def quiesceChannels (fn : Fn) (s : State) : State :=
  (allFin 64).foldl (fun (s : State) (c : Fin 64) =>
    let x := s.chans[c]
    if s.plan.channels[c] ≠ fn ∨ x.borrowed ∨ ¬ (x.enabled ∨ x.quietOwed.isSome) then s
    else disableChan c (awaitBlock fn kMillrace c s)) s

/-- Bit 2: the sender's hoppers are disarmed with STOP. -/
def quiesceHoppers (fn : Fn) (s : State) : State :=
  (allFin 16).foldl (fun (s : State) (i : Fin 16) =>
    if s.plan.hoppers[i] ≠ fn ∨ (s.hoppers[i]).mode = .unbound then s
    else hopDisarm i 0 (awaitBlock fn kHopper i s)) s

/-- Bit 3: the sender's comparators are disarmed. -/
def quiesceComparators (fn : Fn) (s : State) : State :=
  sweepWaits ((allFin 16).foldl (fun (s : State) (n : Fin 16) =>
    if s.plan.comparators[n] ≠ fn then s
    else (settleOne n s).modCmp n fun c => { c with mode := .idle, reached := none }) s)

/-- A function's buffer jobs that have not started are cancelled, the others stop (R346, R347); `n` bounds the jobs. -/
def cancelBufferJobs (fn : Fn) : Nat → State → State
  | 0, s => s
  | n + 1, s =>
    match s.prep.jobs.findIdx? fun j => j.fn = fn ∧ j.stream.isNone ∧ ¬ j.running with
    | some i => cancelBufferJobs fn n (countCancelled fn 1 (pyrEnd i stCancelled fNeverStarted 0 s))
    | none => s.modPrep fun p => { p with
        jobs := p.jobs.map fun j => if j.fn = fn ∧ j.stream.isNone then { j with stopping := true } else j }

/-- A function's decode jobs that have not started are cancelled, one in progress stops (R346, R365). -/
def cancelDecodeJobs (fn : Fn) (s : State) : State :=
  let gone := s.prep.decQueue.filter fun j => j.fn = fn
  let s := s.modPrep fun p => { p with
    decQueue := p.decQueue.filter fun j => j.fn ≠ fn
    decRun := p.decRun.map fun j => if j.fn = fn then { j with stopping := true } else j }
  countCancelled fn gone.length
    (gone.foldl (fun (s : State) (j : DecJob) => finishJob j.queue ⟨kDecoder, 0, j.job, stCancelled, fNeverStarted, 0⟩ s) s)

/-- The ended work of a function whose QUIET notice a quiesce waits for. -/
def awaitEnded (fn : Fn) (kind : Nat) (s : State) : State :=
  s.prep.ended.foldl (fun (s : State) (e : EndedWork) =>
    if e.fn = fn ∧ e.kind = kind then awaitBlock fn kind e.index s else s) s

/-- Bit 4: the sender's pyramid and decoder jobs are cancelled, and its bindings end. -/
def quiesceJobs (fn : Fn) (s : State) : State :=
  let s := cancelDecodeJobs fn (cancelBufferJobs fn (s.prep.jobs.length) s)
  let s := (s.prep.bindings.filter fun b => b.fn = fn).foldl (fun (s : State) (b : Binding) => endBinding b.stream s) s
  awaitEnded fn kPyramid s

/-- Bit 5: the sender's audio routes end. -/
def quiesceAudio (fn : Fn) (s : State) : State :=
  awaitEnded fn kAudio ((allFin 2).foldl (fun (s : State) (i : Fin 2) =>
    if (s.audio[i]).route.any fun r => r.fn = fn then endAudioRoute i s else s) s)

/-- Bit 6: the sender's verdict routes end. -/
def quiesceVerdicts (fn : Fn) (s : State) : State :=
  (allFin 2).foldl (fun (s : State) (p : Fin 2) =>
    s.modPath p fun x => { x with route := x.route.filter fun r => s.plan.queues[r.queue] != fn }) s

/-- Bit 7: PF0's witness sampler is disarmed with STOP. -/
def quiesceWitness (fn : Fn) (s : State) : State :=
  if fn ≠ 0 ∨ s.wit.mode = .unconfigured then s
  else
    let s := awaitBlock fn kWitness 0 s
    match applyDefault witnessDisarmBody 0x0903 (List.replicate 4 0) s with
    | some t => t
    | none => s

/-- What one bit of the scope stops (R475). -/
def quiescePart (fn : Fn) (s : State) : Nat → State
  | 0 => quiesceStreams fn s
  | 1 => quiesceChannels fn s
  | 2 => quiesceHoppers fn s
  | 3 => quiesceComparators fn s
  | 4 => quiesceJobs fn s
  | 5 => quiesceAudio fn s
  | 6 => quiesceVerdicts fn s
  | 7 => quiesceWitness fn s
  | _ => s

/-- INSTANCE_QUIESCE (R475). -/
def quiesceBody (s : State) (h : Hamper) : Verdict :=
  let scope := fld h.payload 0 2
  let fn := h.fn
  if (s.fns[fn]).mode ≠ .ready ∨ (s.fns[fn]).quiesce.isSome then wrongState
  else if h.tail 2 || decide (255 < scope) then badArg
  else
    let s := accept h fn (s.modFn fn fun f => { f with quiesce := some ⟨[], 0⟩ })
    .accepted ((List.range 8).foldl (fun (s : State) (k : Nat) => if bit scope k then quiescePart fn s k else s) s) []

/-- INSTANCE_QUIESCE (R475). -/
def execInstanceQuiesce (dt : Nat) (r : Req) (s : State) : Answer :=
  .next (serve r 0x0103 1 false quiesceBody (advance dt s))

/-- A job that a quiesce stopped has not ended yet. -/
def stopsPending (fn : Fn) (s : State) : Bool :=
  (s.prep.jobs.any fun j => j.fn == fn && j.stopping) || s.prep.decRun.any fun j => j.fn == fn && j.stopping

/-- The last block is quiet (R475). -/
def quiesceEnds (fn : Fn) (s : State) : State :=
  match (s.fns[fn]).quiesce with
  | some q =>
    if q.blocks.isEmpty ∧ ¬ stopsPending fn s then
      hamperDone 0x0103 fn stOk (BitVec.ofNat 32 q.total) (s.modFn fn fun f => { f with quiesce := none })
    else s
  | none => s

/-- INSTANCE_QUIESCE_DONE (R475). -/
def execInstanceQuiesceDone (dt : Nat) (fn : Fn) (s : State) : Answer := .next (quiesceEnds fn (advance dt s))

end Sys2Proof.Machine
end

