-- ==== Sys2Proof/Machine/Dispatch.lean ====
section
/-! DEFINITION. One arm for each command of the block. -/

namespace Sys2Proof.Machine

-- The effect of a command on everything but the queue.
def exec (i : Instr) (s : State) : Host.Outcome State Fault Refusal :=
  match i with
  | .perstDeassert dt => Sys2Proof.Machine.execPerstDeassert dt s
  | .linkTrained dt speed width reversed => Sys2Proof.Machine.execLinkTrained dt speed width reversed s
  | .linkRetrainChange dt speed width => Sys2Proof.Machine.execLinkRetrainChange dt speed width s
  | .configRequest dt fn req => Sys2Proof.Machine.execConfigRequest dt fn req s
  | .flrInitiate dt fn => Sys2Proof.Machine.execFlrInitiate dt fn s
  | .fenceClosed dt fn => Sys2Proof.Machine.execFenceClosed dt fn s
  | .fenceTimeoutWedge dt fn holder => Sys2Proof.Machine.execFenceTimeoutWedge dt fn holder s
  | .vfEnableSet dt => Sys2Proof.Machine.execVfEnableSet dt s
  | .vfEnableClear dt => Sys2Proof.Machine.execVfEnableClear dt s
  | .busMasterEnableClear dt fn addrs => Sys2Proof.Machine.execBusMasterEnableClear dt fn addrs s
  | .busMasterEnableSet dt fn => Sys2Proof.Machine.execBusMasterEnableSet dt fn s
  | .dlDown dt => Sys2Proof.Machine.execDlDown dt s
  | .hotResetReceived dt => Sys2Proof.Machine.execHotResetReceived dt s
  | .perstAssert dt => Sys2Proof.Machine.execPerstAssert dt s
  | .registerWrite dt fn offset words => Sys2Proof.Machine.execRegisterWrite dt fn offset words s
  | .bar0ReadRejected dt fn offset bytes => Sys2Proof.Machine.execBar0ReadRejected dt fn offset bytes s
  | .bar2Write dt req => Sys2Proof.Machine.execBar2Write dt req s
  | .inboundTlpError dt fn err => Sys2Proof.Machine.execInboundTlpError dt fn err s
  | .readCompletion dt reader status => Sys2Proof.Machine.execReadCompletion dt reader status s
  | .completionTimeout dt reader => Sys2Proof.Machine.execCompletionTimeout dt reader s
  | .serialLoRead dt fn => Sys2Proof.Machine.execSerialLoRead dt fn s
  | .instancePlanSet dt r => Sys2Proof.Machine.execInstancePlanSet dt r s
  | .instancePlanGet dt r => Sys2Proof.Machine.execInstancePlanGet dt r s
  | .porchDoorbell dt fn => Sys2Proof.Machine.execPorchDoorbell dt fn s
  | .reqTailWrite dt fn value => Sys2Proof.Machine.execReqTailWrite dt fn value s
  | .repHeadWrite dt fn value => Sys2Proof.Machine.execRepHeadWrite dt fn value s
  | .deviceInfo dt r => Sys2Proof.Machine.execDeviceInfo dt r s
  | .ringsSet dt r => Sys2Proof.Machine.execRingsSet dt r s
  | .ringsClear dt r => Sys2Proof.Machine.execRingsClear dt r s
  | .noticeRoute dt r => Sys2Proof.Machine.execNoticeRoute dt r s
  | .echo dt r => Sys2Proof.Machine.execEcho dt r s
  | .queueSet dt r => Sys2Proof.Machine.execQueueSet dt r s
  | .queueClear dt r => Sys2Proof.Machine.execQueueClear dt r s
  | .queueModerate dt r => Sys2Proof.Machine.execQueueModerate dt r s
  | .tqHeadWrite dt fn q value => Sys2Proof.Machine.execTqHeadWrite dt fn q value s
  | .tqDroppedRead dt fn q => Sys2Proof.Machine.execTqDroppedRead dt fn q s
  | .tqModerationTimer dt q => Sys2Proof.Machine.execTqModerationTimer dt q s
  | .queueWriteFailed dt q => Sys2Proof.Machine.execQueueWriteFailed dt q s
  | .replyWriteFailed dt fn => Sys2Proof.Machine.execReplyWriteFailed dt fn s
  | .timeNsLoRead dt fn => Sys2Proof.Machine.execTimeNsLoRead dt fn s
  | .tdcDropRead dt fn => Sys2Proof.Machine.execTdcDropRead dt fn s
  | .ptmDialogueStart dt step => Sys2Proof.Machine.execPtmDialogueStart dt step s
  | .ptmDialogueResponse dt step masterNs turnaroundNs => Sys2Proof.Machine.execPtmDialogueResponse dt step masterNs turnaroundNs s
  | .ptmDialogueTimeout dt => Sys2Proof.Machine.execPtmDialogueTimeout dt s
  | .fantailHoldoverTimeout dt => Sys2Proof.Machine.execFantailHoldoverTimeout dt s
  | .ptmEnableChange dt enable => Sys2Proof.Machine.execPtmEnableChange dt enable s
  | .tdcCalibration dt good => Sys2Proof.Machine.execTdcCalibration dt good s
  | .clockLoss dt fault => Sys2Proof.Machine.execClockLoss dt fault s
  | .refclkLoss dt => Sys2Proof.Machine.execRefclkLoss dt s
  | .timeStatus dt r => Sys2Proof.Machine.execTimeStatus dt r s
  | .timeStep dt r => Sys2Proof.Machine.execTimeStep dt r s
  | .fantailConfig dt r => Sys2Proof.Machine.execFantailConfig dt r s
  | .timeCorrelate dt r => Sys2Proof.Machine.execTimeCorrelate dt r s
  | .carWakeRise dt => Sys2Proof.Machine.execCarWakeRise dt s
  | .carWakeDebounceExpiry dt => Sys2Proof.Machine.execCarWakeDebounceExpiry dt s
  | .xtr0WakeEdge dt => Sys2Proof.Machine.execXtr0WakeEdge dt s
  | .aonPowerApply dt sris => Sys2Proof.Machine.execAonPowerApply dt sris s
  | .aonPowerLoss dt => Sys2Proof.Machine.execAonPowerLoss dt s
  | .parkHoldExpiry dt => Sys2Proof.Machine.execParkHoldExpiry dt s
  | .mainSuppliesOff dt => Sys2Proof.Machine.execMainSuppliesOff dt s
  | .suppliesGood dt => Sys2Proof.Machine.execSuppliesGood dt s
  | .slotCheck dt => Sys2Proof.Machine.execSlotCheck dt s
  | .valtynRun dt res => Sys2Proof.Machine.execValtynRun dt res s
  | .journalFold dt => Sys2Proof.Machine.execJournalFold dt s
  | .outingRecord dt => Sys2Proof.Machine.execOutingRecord dt s
  | .guardianSurfaces dt res => Sys2Proof.Machine.execGuardianSurfaces dt res s
  | .tslReceive dt => Sys2Proof.Machine.execTslReceive dt s
  | .panelLinkTrained dt path link => Sys2Proof.Machine.execPanelLinkTrained dt path link s
  | .earlyPicture dt path res => Sys2Proof.Machine.execEarlyPicture dt path res s
  | .rearCameraLink dt res gear profile => Sys2Proof.Machine.execRearCameraLink dt res gear profile s
  | .rearSensor dt answers frame => Sys2Proof.Machine.execRearSensor dt answers frame s
  | .rearInsertion dt res => Sys2Proof.Machine.execRearInsertion dt res s
  | .lpddr5xTraining dt res mts gib => Sys2Proof.Machine.execLpddr5xTraining dt res mts gib s
  | .cameraPortStart dt port res gear profile answers frame => Sys2Proof.Machine.execCameraPortStart dt port res gear profile answers frame s
  | .positionChannels dt => Sys2Proof.Machine.execPositionChannels dt s
  | .audioInputs dt => Sys2Proof.Machine.execAudioInputs dt s
  | .witnessArmStep dt => Sys2Proof.Machine.execWitnessArmStep dt s
  | .startDone dt => Sys2Proof.Machine.execStartDone dt s
  | .startStepTimeout dt step inst => Sys2Proof.Machine.execStartStepTimeout dt step inst s
  | .lateRetry dt step inst res detail answers frame => Sys2Proof.Machine.execLateRetry dt step inst res detail answers frame s
  | .provision dt r => Sys2Proof.Machine.execProvision dt r s
  | .provisionDone dt cert => Sys2Proof.Machine.execProvisionDone dt cert s
  | .measReport dt r => Sys2Proof.Machine.execMeasReport dt r s
  | .measReportDone dt written => Sys2Proof.Machine.execMeasReportDone dt written s
  | .fwStage dt r header => Sys2Proof.Machine.execFwStage dt r header s
  | .fwStageDone dt image => Sys2Proof.Machine.execFwStageDone dt image s
  | .fwActivate dt r => Sys2Proof.Machine.execFwActivate dt r s
  | .outingWrite dt r => Sys2Proof.Machine.execOutingWrite dt r s
  | .outingWriteDone dt record => Sys2Proof.Machine.execOutingWriteDone dt record s
  | .journalRead dt r => Sys2Proof.Machine.execJournalRead dt r s
  | .journalClear dt r => Sys2Proof.Machine.execJournalClear dt r s
  | .slotSelect dt r => Sys2Proof.Machine.execSlotSelect dt r s
  | .liveQuietPoint dt => Sys2Proof.Machine.execLiveQuietPoint dt s
  | .liveArmTimeout dt => Sys2Proof.Machine.execLiveArmTimeout dt s
  | .liveSwitchOpen dt => Sys2Proof.Machine.execLiveSwitchOpen dt s
  | .liveSwitchRevert dt => Sys2Proof.Machine.execLiveSwitchRevert dt s
  | .debugPortOpen dt halts => Sys2Proof.Machine.execDebugPortOpen dt halts s
  | .debugPortClose dt => Sys2Proof.Machine.execDebugPortClose dt s
  | .spdmRequest dt msg => Sys2Proof.Machine.execSpdmRequest dt msg s
  | .compactReportReady dt => Sys2Proof.Machine.execCompactReportReady dt s
  | .tslFrame dt bytes => Sys2Proof.Machine.execTslFrame dt bytes s
  | .tslStaleTimeout dt => Sys2Proof.Machine.execTslStaleTimeout dt s
  | .tslLossTimeout dt => Sys2Proof.Machine.execTslLossTimeout dt s
  | .inputFrameStart dt path msa => Sys2Proof.Machine.execInputFrameStart dt path msa s
  | .inputRegionResult dt path region pixels => Sys2Proof.Machine.execInputRegionResult dt path region pixels s
  | .inputFrameEnd dt path complete symbolErrors => Sys2Proof.Machine.execInputFrameEnd dt path complete symbolErrors s
  | .outputFrameStart dt path => Sys2Proof.Machine.execOutputFrameStart dt path s
  | .outputFrameEnd dt path seen ecc => Sys2Proof.Machine.execOutputFrameEnd dt path seen ecc s
  | .digestSigned dt path => Sys2Proof.Machine.execDigestSigned dt path s
  | .inputLoss dt path cause => Sys2Proof.Machine.execInputLoss dt path cause s
  | .inputVerticalTimeout dt path => Sys2Proof.Machine.execInputVerticalTimeout dt path s
  | .psrEntry dt path => Sys2Proof.Machine.execPsrEntry dt path s
  | .psrExit dt path => Sys2Proof.Machine.execPsrExit dt path s
  | .psrRepeatPeriod dt path => Sys2Proof.Machine.execPsrRepeatPeriod dt path s
  | .panelHpdEvent dt path ev => Sys2Proof.Machine.execPanelHpdEvent dt path ev s
  | .panelRetrainDone dt path link => Sys2Proof.Machine.execPanelRetrainDone dt path link s
  | .sinkAuxRequest dt path req => Sys2Proof.Machine.execSinkAuxRequest dt path req s
  | .auxDeferExpiry dt path => Sys2Proof.Machine.execAuxDeferExpiry dt path s
  | .panelAuxTimeout dt path => Sys2Proof.Machine.execPanelAuxTimeout dt path s
  | .sinkHpdPulseEnd dt path => Sys2Proof.Machine.execSinkHpdPulseEnd dt path s
  | .settleWindowEnd dt telltale => Sys2Proof.Machine.execSettleWindowEnd dt telltale s
  | .chimeWindowEnd dt template => Sys2Proof.Machine.execChimeWindowEnd dt template s
  | .rearTapFrame dt dataType width height lines => Sys2Proof.Machine.execRearTapFrame dt dataType width height lines s
  | .rearCameraStale dt => Sys2Proof.Machine.execRearCameraStale dt s
  | .guardConfig dt r => Sys2Proof.Machine.execGuardConfig dt r s
  | .guardStatus dt r => Sys2Proof.Machine.execGuardStatus dt r s
  | .guardRegionsSet dt r table => Sys2Proof.Machine.execGuardRegionsSet dt r table s
  | .guardRefsLoad dt r blob => Sys2Proof.Machine.execGuardRefsLoad dt r blob s
  | .guardRefsLoadDone dt path read => Sys2Proof.Machine.execGuardRefsLoadDone dt path read s
  | .verdictRoute dt r => Sys2Proof.Machine.execVerdictRoute dt r s
  | .digestGet dt r => Sys2Proof.Machine.execDigestGet dt r s
  | .chainRead dt r => Sys2Proof.Machine.execChainRead dt r s
  | .chainReadDone dt written => Sys2Proof.Machine.execChainReadDone dt written s
  | .chimeTemplatesLoad dt r blob => Sys2Proof.Machine.execChimeTemplatesLoad dt r blob s
  | .chimeTemplatesLoadDone dt read => Sys2Proof.Machine.execChimeTemplatesLoadDone dt read s
  | .chimeStatus dt r => Sys2Proof.Machine.execChimeStatus dt r s
  | .portLock dt port => Sys2Proof.Machine.execPortLock dt port s
  | .portLoss dt port => Sys2Proof.Machine.execPortLoss dt port s
  | .relockAttempt dt port => Sys2Proof.Machine.execRelockAttempt dt port s
  | .gearRaiseTimeout dt port => Sys2Proof.Machine.execGearRaiseTimeout dt port s
  | .csi2FrameStart dt port vc skew => Sys2Proof.Machine.execCsi2FrameStart dt port vc skew s
  | .csi2LongPacket dt port vc dataType payload fate => Sys2Proof.Machine.execCsi2LongPacket dt port vc dataType payload fate s
  | .csi2FrameEnd dt port vc skew => Sys2Proof.Machine.execCsi2FrameEnd dt port vc skew s
  | .triggerEdgeAgeExpiry dt stream => Sys2Proof.Machine.execTriggerEdgeAgeExpiry dt stream s
  | .portDrainEnd dt port => Sys2Proof.Machine.execPortDrainEnd dt port s
  | .drainFrameTimeout dt port => Sys2Proof.Machine.execDrainFrameTimeout dt port s
  | .stagedFrameCopyDone dt stream read => Sys2Proof.Machine.execStagedFrameCopyDone dt stream read s
  | .streamHeadWrite dt fn stream value => Sys2Proof.Machine.execStreamHeadWrite dt fn stream value s
  | .streamDropsRead dt fn stream => Sys2Proof.Machine.execStreamDropsRead dt fn stream s
  | .streamErrsRead dt fn stream => Sys2Proof.Machine.execStreamErrsRead dt fn stream s
  | .portConfig dt r => Sys2Proof.Machine.execPortConfig dt r s
  | .portStatus dt r => Sys2Proof.Machine.execPortStatus dt r s
  | .portRestart dt r => Sys2Proof.Machine.execPortRestart dt r s
  | .portRestartDone dt port => Sys2Proof.Machine.execPortRestartDone dt port s
  | .tunnelI2c dt r => Sys2Proof.Machine.execTunnelI2c dt r s
  | .tunnelGpio dt r level => Sys2Proof.Machine.execTunnelGpio dt r level s
  | .streamOpen dt r => Sys2Proof.Machine.execStreamOpen dt r s
  | .streamClose dt r => Sys2Proof.Machine.execStreamClose dt r s
  | .streamCloseQuiet dt stream => Sys2Proof.Machine.execStreamCloseQuiet dt stream s
  | .streamStage dt r => Sys2Proof.Machine.execStreamStage dt r s
  | .streamStatus dt r => Sys2Proof.Machine.execStreamStatus dt r s
  | .streamBuffers dt r => Sys2Proof.Machine.execStreamBuffers dt r s
  | .embeddedMapSet dt r => Sys2Proof.Machine.execEmbeddedMapSet dt r s
  | .embeddedMapSetDone dt stream table => Sys2Proof.Machine.execEmbeddedMapSetDone dt stream table s
  | .quadStep dt ch balls => Sys2Proof.Machine.execQuadStep dt ch balls s
  | .stepDirStep dt ch balls => Sys2Proof.Machine.execStepDirStep dt ch balls s
  | .upDownCount dt ch balls => Sys2Proof.Machine.execUpDownCount dt ch balls s
  | .hallChange dt ch balls => Sys2Proof.Machine.execHallChange dt ch balls s
  | .indexEdge dt ch balls => Sys2Proof.Machine.execIndexEdge dt ch balls s
  | .standstillTimeout dt ch => Sys2Proof.Machine.execStandstillTimeout dt ch s
  | .serialCycleStart dt ch => Sys2Proof.Machine.execSerialCycleStart dt ch s
  | .serialCycleEnd dt ch outcome => Sys2Proof.Machine.execSerialCycleEnd dt ch outcome s
  | .bissRegisterReadDone dt ch outcome => Sys2Proof.Machine.execBissRegisterReadDone dt ch outcome s
  | .emuOutputStep dt emu => Sys2Proof.Machine.execEmuOutputStep dt emu s
  | .posPLoRead dt fn ch => Sys2Proof.Machine.execPosPLoRead dt fn ch s
  | .posIdxLoRead dt fn ch => Sys2Proof.Machine.execPosIdxLoRead dt fn ch s
  | .posSerialErrsRead dt fn ch => Sys2Proof.Machine.execPosSerialErrsRead dt fn ch s
  | .posConfig dt r => Sys2Proof.Machine.execPosConfig dt r s
  | .posConfigApply dt ch => Sys2Proof.Machine.execPosConfigApply dt ch s
  | .posStatus dt r => Sys2Proof.Machine.execPosStatus dt r s
  | .posPreset dt r => Sys2Proof.Machine.execPosPreset dt r s
  | .emuConfig dt r => Sys2Proof.Machine.execEmuConfig dt r s
  | .comparatorFire dt cmp => Sys2Proof.Machine.execComparatorFire dt cmp s
  | .trigDelayEnd dt trig => Sys2Proof.Machine.execTrigDelayEnd dt trig s
  | .trigPulseEnd dt trig step => Sys2Proof.Machine.execTrigPulseEnd dt trig step s
  | .trigHoldoffEnd dt trig => Sys2Proof.Machine.execTrigHoldoffEnd dt trig s
  | .trigPeriodTick dt trig => Sys2Proof.Machine.execTrigPeriodTick dt trig s
  | .xtrFallingEdge dt line step => Sys2Proof.Machine.execXtrFallingEdge dt line step s
  | .xtrAssertionTaken dt line => Sys2Proof.Machine.execXtrAssertionTaken dt line s
  | .xtrDriveEnd dt line step stillLow => Sys2Proof.Machine.execXtrDriveEnd dt line step stillLow s
  | .xtrGuardEnd dt line => Sys2Proof.Machine.execXtrGuardEnd dt line s
  | .xtrReleaseCheck dt line => Sys2Proof.Machine.execXtrReleaseCheck dt line s
  | .xtrStuckTimeout dt line => Sys2Proof.Machine.execXtrStuckTimeout dt line s
  | .xtrStuckClear dt line => Sys2Proof.Machine.execXtrStuckClear dt line s
  | .extEdge dt ext pin => Sys2Proof.Machine.execExtEdge dt ext pin s
  | .cmpTargetLoRead dt fn cmp => Sys2Proof.Machine.execCmpTargetLoRead dt fn cmp s
  | .cmpFireLoRead dt fn cmp => Sys2Proof.Machine.execCmpFireLoRead dt fn cmp s
  | .trigMergedRead dt fn => Sys2Proof.Machine.execTrigMergedRead dt fn s
  | .xtrRuntsRead dt fn => Sys2Proof.Machine.execXtrRuntsRead dt fn s
  | .cmpArm dt r => Sys2Proof.Machine.execCmpArm dt r s
  | .cmpDisarm dt r => Sys2Proof.Machine.execCmpDisarm dt r s
  | .cmpStatus dt r => Sys2Proof.Machine.execCmpStatus dt r s
  | .trigConfig dt r => Sys2Proof.Machine.execTrigConfig dt r s
  | .xtrConfig dt r => Sys2Proof.Machine.execXtrConfig dt r s
  | .outputConfigApply dt sel => Sys2Proof.Machine.execOutputConfigApply dt sel s
  | .trigFire dt r => Sys2Proof.Machine.execTrigFire dt r s
  | .configCommit dt r => Sys2Proof.Machine.execConfigCommit dt r s
  | .epochSwitchTimer dt stream => Sys2Proof.Machine.execEpochSwitchTimer dt stream s
  | .configDiscard dt r => Sys2Proof.Machine.execConfigDiscard dt r s
  | .configStatus dt r => Sys2Proof.Machine.execConfigStatus dt r s
  | .hopperBind dt r => Sys2Proof.Machine.execHopperBind dt r s
  | .hopperArm dt r => Sys2Proof.Machine.execHopperArm dt r s
  | .hopperDisarm dt r => Sys2Proof.Machine.execHopperDisarm dt r s
  | .hopperDisarmQuiet dt h => Sys2Proof.Machine.execHopperDisarmQuiet dt h s
  | .hopperTrigger dt r => Sys2Proof.Machine.execHopperTrigger dt r s
  | .hopperStatus dt r => Sys2Proof.Machine.execHopperStatus dt r s
  | .hopperCopyout dt r => Sys2Proof.Machine.execHopperCopyout dt r s
  | .hopperCopyEnd dt h failed corrected => Sys2Proof.Machine.execHopperCopyEnd dt h failed corrected s
  | .hopIgnoredRead dt fn h => Sys2Proof.Machine.execHopIgnoredRead dt fn h s
  | .pyramidSubmit dt r => Sys2Proof.Machine.execPyramidSubmit dt r s
  | .pyramidCancel dt r => Sys2Proof.Machine.execPyramidCancel dt r s
  | .pyramidPassEnd dt input ecc => Sys2Proof.Machine.execPyramidPassEnd dt input ecc s
  | .pyrDroppedRead dt fn => Sys2Proof.Machine.execPyrDroppedRead dt fn s
  | .decodeSubmit dt r => Sys2Proof.Machine.execDecodeSubmit dt r s
  | .decodeCancel dt r => Sys2Proof.Machine.execDecodeCancel dt r s
  | .decodeJobEnd dt input ecc => Sys2Proof.Machine.execDecodeJobEnd dt input ecc s
  | .prepQuiet dt fn => Sys2Proof.Machine.execPrepQuiet dt fn s
  | .engineStallReset dt engine => Sys2Proof.Machine.execEngineStallReset dt engine s
  | .audioConfig dt r => Sys2Proof.Machine.execAudioConfig dt r s
  | .audioRoute dt r => Sys2Proof.Machine.execAudioRoute dt r s
  | .audioFrame dt input skew lengthOk drained samples => Sys2Proof.Machine.execAudioFrame dt input skew lengthOk drained samples s
  | .audioLossTimeout dt input => Sys2Proof.Machine.execAudioLossTimeout dt input s
  | .audioHop dt input => Sys2Proof.Machine.execAudioHop dt input s
  | .audioRecordsWritten dt input => Sys2Proof.Machine.execAudioRecordsWritten dt input s
  | .thermalSample dt tj => Sys2Proof.Machine.execThermalSample dt tj s
  | .fullRetrainRequest dt cause => Sys2Proof.Machine.execFullRetrainRequest dt cause s
  | .weirDrainEnd dt => Sys2Proof.Machine.execWeirDrainEnd dt s
  | .weirDrainTimeout dt => Sys2Proof.Machine.execWeirDrainTimeout dt s
  | .retrainDone dt => Sys2Proof.Machine.execRetrainDone dt s
  | .shortRetrain dt => Sys2Proof.Machine.execShortRetrain dt s
  | .controllerStall dt => Sys2Proof.Machine.execControllerStall dt s
  | .serveRestoreTimer dt kind index => Sys2Proof.Machine.execServeRestoreTimer dt kind index s
  | .sFaultClearTimer dt => Sys2Proof.Machine.execSFaultClearTimer dt s
  | .scrubBurst dt result => Sys2Proof.Machine.execScrubBurst dt result s
  | .weirShedRead dt fn => Sys2Proof.Machine.execWeirShedRead dt fn s
  | .weirEccAddrLoRead dt fn => Sys2Proof.Machine.execWeirEccAddrLoRead dt fn s
  | .weirStatus dt r => Sys2Proof.Machine.execWeirStatus dt r s
  | .weirShedOrder dt r => Sys2Proof.Machine.execWeirShedOrder dt r s
  | .weirCheck dt r => Sys2Proof.Machine.execWeirCheck dt r s
  | .weirScrub dt r => Sys2Proof.Machine.execWeirScrub dt r s
  | .chanLoad dt r programme => Sys2Proof.Machine.execChanLoad dt r programme s
  | .chanConfig dt r => Sys2Proof.Machine.execChanConfig dt r s
  | .chanQuiet dt c => Sys2Proof.Machine.execChanQuiet dt c s
  | .chanSignalMap dt r => Sys2Proof.Machine.execChanSignalMap dt r s
  | .chanGo dt fn c value => Sys2Proof.Machine.execChanGo dt fn c value s
  | .chanStop dt fn c value => Sys2Proof.Machine.execChanStop dt fn c value s
  | .chanFlush dt fn c value => Sys2Proof.Machine.execChanFlush dt fn c value s
  | .chanRetry dt fn c value => Sys2Proof.Machine.execChanRetry dt fn c value s
  | .chanSkip dt fn c value => Sys2Proof.Machine.execChanSkip dt fn c value s
  | .chanKick dt fn c value => Sys2Proof.Machine.execChanKick dt fn c value s
  | .chanBytesLoRead dt fn c => Sys2Proof.Machine.execChanBytesLoRead dt fn c s
  | .move dt c hostData fault corrected => Sys2Proof.Machine.execMove dt c hostData fault corrected s
  | .move2d dt c hostData fault corrected => Sys2Proof.Machine.execMove2d dt c hostData fault corrected s
  | .loop dt c => Sys2Proof.Machine.execLoop dt c s
  | .endLoop dt c => Sys2Proof.Machine.execEndLoop dt c s
  | .wait dt c => Sys2Proof.Machine.execWait dt c s
  | .waitSatisfied dt c => Sys2Proof.Machine.execWaitSatisfied dt c s
  | .waitTimeout dt c => Sys2Proof.Machine.execWaitTimeout dt c s
  | .signalEntry dt c => Sys2Proof.Machine.execSignalEntry dt c s
  | .signalSlot dt c => Sys2Proof.Machine.execSignalSlot dt c s
  | .setReg dt c => Sys2Proof.Machine.execSetReg dt c s
  | .crcStart dt c => Sys2Proof.Machine.execCrcStart dt c s
  | .crcStore dt c => Sys2Proof.Machine.execCrcStore dt c s
  | .fence dt c => Sys2Proof.Machine.execFence dt c s
  | .endRun dt c => Sys2Proof.Machine.execEndRun dt c s
  | .arrivalReadbackDone dt c => Sys2Proof.Machine.execArrivalReadbackDone dt c s
  | .witnessConfig dt r => Sys2Proof.Machine.execWitnessConfig dt r s
  | .witnessArm dt r => Sys2Proof.Machine.execWitnessArm dt r s
  | .witnessDisarm dt r => Sys2Proof.Machine.execWitnessDisarm dt r s
  | .witnessQuiet dt => Sys2Proof.Machine.execWitnessQuiet dt s
  | .witnessStatus dt r => Sys2Proof.Machine.execWitnessStatus dt r s
  | .witnessRoute dt r => Sys2Proof.Machine.execWitnessRoute dt r s
  | .adcConversion dt code0 code1 drained => Sys2Proof.Machine.execAdcConversion dt code0 code1 drained s
  | .dwEdge dt line ball => Sys2Proof.Machine.execDwEdge dt line ball s
  | .witnessUnitTimeout dt unit => Sys2Proof.Machine.execWitnessUnitTimeout dt unit s
  | .witnessCaptureEnd dt => Sys2Proof.Machine.execWitnessCaptureEnd dt s
  | .witnessDeliveryEnd dt ok => Sys2Proof.Machine.execWitnessDeliveryEnd dt ok s
  | .witIgnoredRead dt fn => Sys2Proof.Machine.execWitIgnoredRead dt fn s
  | .instanceQuiesce dt r => Sys2Proof.Machine.execInstanceQuiesce dt r s
  | .instanceQuiesceDone dt fn => Sys2Proof.Machine.execInstanceQuiesceDone dt fn s
  | .eventLogged dt => Sys2Proof.Machine.execEventLogged dt s
  | .mirrorTimer dt => Sys2Proof.Machine.execMirrorTimer dt s
  | .logRead dt r => Sys2Proof.Machine.execLogRead dt r s
  | .logClear dt r => Sys2Proof.Machine.execLogClear dt r s
  | .faultAck dt r => Sys2Proof.Machine.execFaultAck dt r s
  | .faultStatus dt r => Sys2Proof.Machine.execFaultStatus dt r s
  | .logFilter dt r => Sys2Proof.Machine.execLogFilter dt r s
  | .deviceReset dt r => Sys2Proof.Machine.execDeviceReset dt r s
  | .logLostRead dt fn => Sys2Proof.Machine.execLogLostRead dt fn s
  | .logFilteredRead dt fn => Sys2Proof.Machine.execLogFilteredRead dt fn s
  | .watchdogService dt => Sys2Proof.Machine.execWatchdogService dt s
  | .watchdogExpiry dt => Sys2Proof.Machine.execWatchdogExpiry dt s
  | .lockstepMismatch dt => Sys2Proof.Machine.execLockstepMismatch dt s
  | .resetNAssert dt => Sys2Proof.Machine.execResetNAssert dt s
  | .resetNRelease dt => Sys2Proof.Machine.execResetNRelease dt s
  | .supplyFault dt => Sys2Proof.Machine.execSupplyFault dt s
  | .fullResetRelease dt => Sys2Proof.Machine.execFullResetRelease dt s
  | .avsStep dt => Sys2Proof.Machine.execAvsStep dt s
  | .carWakeFall dt => Sys2Proof.Machine.execCarWakeFall dt s
  | .runtPulseEnd dt line step => Sys2Proof.Machine.execRuntPulseEnd dt line step s
  | .tunnelI2cAnswer dt port answer => Sys2Proof.Machine.execTunnelI2cAnswer dt port answer s
  | .refclkRestored dt => Sys2Proof.Machine.execRefclkRestored dt s
  | .logMirrorDone dt => Sys2Proof.Machine.execLogMirrorDone dt s
  | .unknownOpcode dt r => Sys2Proof.Machine.execUnknownOpcode dt r s

end Sys2Proof.Machine
end

