-- ==== Sys2Proof/Machine/Step.lean ====
section
/-! DEFINITION. One step of the block: the command at the front of the queue, or an idle step. -/

namespace Sys2Proof.Machine

/-- Put a command at the front of the queue. -/
def State.push (s : State) (c : Instr) : State := { s with pending := c :: s.pending }

/-- The state that a word's command is waiting in front of (none of the table's rows has bits). -/
def State.withFetchWord (s : State) (nbits w : Nat) : State :=
  match decodeTableWord nbits w with
  | some c => s.push c
  | none => s

/-- Take the command at the front of the queue and run it with the queue's rest; with an empty queue the block idles
(DESIGN CHOICE, log entry 1). -/
def step (s : State) : Host.Outcome State Fault Refusal :=
  match s.pending with
  | c :: rest => exec c { s with pending := rest }
  | [] => .next s

end Sys2Proof.Machine
end

