-- ==== Sys2Proof/Safety.lean ====
section
/-! DEFINITION. What every command of the block keeps, and the invariant of its memories. No command stops the machine, so
every run is safe in the sense of a fault; what remains is stated here. -/

namespace Sys2Proof.Machine

/-- What no command undoes: the queue is the sender's alone, time and the count of free values do not run backwards, what
has left the part stays sent, the memories stay canonical, the serial number never changes, and a locked identity stays
locked (R162). -/
structure Kept (s t : State) : Prop where
  pending : t.pending = s.pending
  elapsed : s.elapsed ≤ t.elapsed
  drawn : s.drawn ≤ t.drawn
  out : s.out <:+ t.out
  millpond : Memory.wf s.millpond → Memory.wf t.millpond
  lpddr : Memory.wf s.lpddr → Memory.wf t.lpddr
  serial : t.mram.identity.serial = s.mram.identity.serial
  lock : s.mram.identity.lock = true → t.mram.identity.lock = true

/-- Both memories are in their canonical form. -/
def State.Canonical (s : State) : Prop := Memory.wf s.millpond ∧ Memory.wf s.lpddr

/-! ### What a command may change -/

/-- The parts of the state, one bit each, in the order of `State`. -/
abbrev Area.link : Nat := 0x1
abbrev Area.fns : Nat := 0x2
abbrev Area.lastServed : Nat := 0x4
abbrev Area.plan : Nat := 0x8
abbrev Area.queues : Nat := 0x10
abbrev Area.accepted : Nat := 0x20
abbrev Area.owed : Nat := 0x40
abbrev Area.log : Nat := 0x80
abbrev Area.mirror : Nat := 0x100
abbrev Area.mirrorNumber : Nat := 0x200
abbrev Area.clk : Nat := 0x400
abbrev Area.pwr : Nat := 0x800
abbrev Area.start : Nat := 0x1000
abbrev Area.mram : Nat := 0x2000
abbrev Area.meas : Nat := 0x4000
abbrev Area.guard : Nat := 0x8000
abbrev Area.ports : Nat := 0x10000
abbrev Area.streams : Nat := 0x20000
abbrev Area.deviceEpoch : Nat := 0x40000
abbrev Area.epochs : Nat := 0x80000
abbrev Area.pos : Nat := 0x100000
abbrev Area.emu : Nat := 0x200000
abbrev Area.cmps : Nat := 0x400000
abbrev Area.trigs : Nat := 0x800000
abbrev Area.hoppers : Nat := 0x1000000
abbrev Area.hopEvent : Nat := 0x2000000
abbrev Area.prep : Nat := 0x4000000
abbrev Area.audio : Nat := 0x8000000
abbrev Area.weir : Nat := 0x10000000
abbrev Area.chans : Nat := 0x20000000
abbrev Area.wit : Nat := 0x40000000
abbrev Area.millpond : Nat := 0x80000000
abbrev Area.lpddr : Nat := 0x100000000
abbrev Area.out : Nat := 0x200000000
abbrev Area.drawn : Nat := 0x400000000

/-- No time passes from `s` to `t`, and only the parts in the mask `m` may differ. -/
structure Within (m : Nat) (s t : State) : Prop where
  elapsed : t.elapsed = s.elapsed
  link : m &&& Area.link = 0 → t.link = s.link
  fns : m &&& Area.fns = 0 → t.fns = s.fns
  lastServed : m &&& Area.lastServed = 0 → t.lastServed = s.lastServed
  plan : m &&& Area.plan = 0 → t.plan = s.plan
  queues : m &&& Area.queues = 0 → t.queues = s.queues
  accepted : m &&& Area.accepted = 0 → t.accepted = s.accepted
  owed : m &&& Area.owed = 0 → t.owed = s.owed
  log : m &&& Area.log = 0 → t.log = s.log
  mirror : m &&& Area.mirror = 0 → t.mirror = s.mirror
  mirrorNumber : m &&& Area.mirrorNumber = 0 → t.mirrorNumber = s.mirrorNumber
  clk : m &&& Area.clk = 0 → t.clk = s.clk
  pwr : m &&& Area.pwr = 0 → t.pwr = s.pwr
  start : m &&& Area.start = 0 → t.start = s.start
  mram : m &&& Area.mram = 0 → t.mram = s.mram
  meas : m &&& Area.meas = 0 → t.meas = s.meas
  guard : m &&& Area.guard = 0 → t.guard = s.guard
  ports : m &&& Area.ports = 0 → t.ports = s.ports
  streams : m &&& Area.streams = 0 → t.streams = s.streams
  deviceEpoch : m &&& Area.deviceEpoch = 0 → t.deviceEpoch = s.deviceEpoch
  epochs : m &&& Area.epochs = 0 → t.epochs = s.epochs
  pos : m &&& Area.pos = 0 → t.pos = s.pos
  emu : m &&& Area.emu = 0 → t.emu = s.emu
  cmps : m &&& Area.cmps = 0 → t.cmps = s.cmps
  trigs : m &&& Area.trigs = 0 → t.trigs = s.trigs
  hoppers : m &&& Area.hoppers = 0 → t.hoppers = s.hoppers
  hopEvent : m &&& Area.hopEvent = 0 → t.hopEvent = s.hopEvent
  prep : m &&& Area.prep = 0 → t.prep = s.prep
  audio : m &&& Area.audio = 0 → t.audio = s.audio
  weir : m &&& Area.weir = 0 → t.weir = s.weir
  chans : m &&& Area.chans = 0 → t.chans = s.chans
  wit : m &&& Area.wit = 0 → t.wit = s.wit
  millpond : m &&& Area.millpond = 0 → t.millpond = s.millpond
  lpddr : m &&& Area.lpddr = 0 → t.lpddr = s.lpddr
  out : m &&& Area.out = 0 → t.out = s.out
  drawn : m &&& Area.drawn = 0 → t.drawn = s.drawn

/-! ### The forms of a claim about a command -/

/-- From every state and after every time for which `pre` holds once that time has passed, the command answers the next
state that `post` gives. -/
def Acts (c : Nat → Instr) (pre : State → Prop) (post : State → State) : Prop :=
  ∀ (s : State) (dt : Nat), pre (advance dt s) → exec (c dt) s = .next (post (advance dt s))

/-- From every state and after every time for which `pre` holds once that time has passed, the command answers a next
state that stands in `rel` to the state before it. -/
def ActsSo (c : Nat → Instr) (pre : State → Prop) (rel : State → State → Prop) : Prop :=
  ∀ (s : State) (dt : Nat), pre (advance dt s) → ∃ t, exec (c dt) s = .next t ∧ rel (advance dt s) t

/-- A request comes to its own section (R14, R83 to R87, R93): Valtyn fetches it as `h`, its header is good, its function
is not WEDGED, no door is closed to it, the running version knows it, and its sender may send it. -/
abbrev Asked (a : State) (r : Req) (h : Hamper) (op minor : Nat) (pf0 : Bool) : Prop :=
  fetch a r = some h ∧ h.op = op ∧ h.headerBad = false ∧ (a.fns[h.fn]).mode ≠ .wedged ∧ a.start.core = .valtyn ∧
    minor ≤ a.start.minor ∧ (pf0 = true → h.fn = 0) ∧ a.start.doorClosed = false ∧ doorShut a h = false

/-- A request that comes to its own section and meets `pre` there is answered with `status` and a payload, in the state
that `post` gives once it is fetched (R83 to R86). -/
def Serves (c : Nat → Req → Instr) (op minor : Nat) (pf0 : Bool) (pre : State → Hamper → Prop) (status : Nat)
    (payload : State → Hamper → List Byte) (post : State → Hamper → State) : Prop :=
  ∀ (s : State) (dt : Nat) (r : Req) (h : Hamper), Asked (advance dt s) r h op minor pf0 → pre (advance dt s) h →
    exec (c dt r) s =
      .next (reply h status 0 (payload (advance dt s) h) (taken h.fn h.porch (post (advance dt s) h)))

/-- A request that comes to its own section and meets `pre` there is fetched, and its reply is owed (R83). -/
def Defers (c : Nat → Req → Instr) (op minor : Nat) (pf0 : Bool) (pre : State → Hamper → Prop)
    (index : State → Hamper → Nat) (post : State → Hamper → State) : Prop :=
  ∀ (s : State) (dt : Nat) (r : Req) (h : Hamper), Asked (advance dt s) r h op minor pf0 → pre (advance dt s) h →
    exec (c dt r) s = .next (
      let t := taken h.fn h.porch (post (advance dt s) h)
      { t with owed := t.owed ++ [⟨op, index (advance dt s) h, h.fn, h.porch, h.sequence, h.payload, t.elapsed⟩] })

/-- Every engine and every table of the main domain is as after reset, and MRAM stays (R494). -/
def MainIsReset (a t : State) : Prop :=
  t.fns = State.reset.fns ∧ t.plan = State.reset.plan ∧ t.queues = State.reset.queues ∧ t.accepted = [] ∧ t.owed = [] ∧
  t.guard = State.reset.guard ∧ t.ports = State.reset.ports ∧ t.streams = State.reset.streams ∧
  t.deviceEpoch = State.reset.deviceEpoch ∧ t.epochs = State.reset.epochs ∧ t.pos = State.reset.pos ∧
  t.emu = State.reset.emu ∧ t.cmps = State.reset.cmps ∧ t.trigs = State.reset.trigs ∧ t.hoppers = State.reset.hoppers ∧
  t.prep = State.reset.prep ∧ t.audio = State.reset.audio ∧ t.weir = State.reset.weir ∧ t.chans = State.reset.chans ∧
  t.wit = State.reset.wit ∧ t.millpond = [] ∧ t.lpddr = [] ∧ t.clk.dev = State.reset.clk.dev ∧ t.log.collector = [] ∧
  t.mram = a.mram

/-- A BAR0 access passes to the registers of a function (R34, R50, R56): the link is up, the 60 ms after reset are over,
and the function is BARE or READY. -/
abbrev Reached (a : State) (fn : Fn) : Prop :=
  a.link.up = true ∧ a.link.rrsFrom + ticksMs 60 ≤ a.elapsed ∧ ((a.fns[fn]).mode = .bare ∨ (a.fns[fn]).mode = .ready)

end Sys2Proof.Machine
end

