-- ==== Sys2Proof/Touches.lean ====
section
/-! DEFINITION. Which parts of the state each command may change, and the time each carries: the frame of every command. -/

set_option Elab.async false

namespace Sys2Proof.Machine

/-- What a full reset of the main domain takes back (R494). -/
abbrev Area.reset : Nat :=
  Area.link ||| Area.fns ||| Area.lastServed ||| Area.plan ||| Area.queues |||
  Area.accepted ||| Area.owed ||| Area.log ||| Area.clk ||| Area.start ||| Area.meas ||| Area.guard |||
  Area.ports ||| Area.streams ||| Area.deviceEpoch ||| Area.epochs ||| Area.pos ||| Area.emu ||| Area.cmps |||
  Area.trigs ||| Area.hoppers ||| Area.hopEvent ||| Area.prep ||| Area.audio ||| Area.weir ||| Area.chans |||
  Area.wit ||| Area.millpond ||| Area.lpddr

/-- What the end of a start step may set: the defaults of its block, the journal, the measurement, and the steps after
it (R135 to R157). -/
abbrev Area.steps : Nat :=
  Area.fns ||| Area.plan ||| Area.queues ||| Area.accepted ||| Area.log ||| Area.clk |||
  Area.pwr ||| Area.start ||| Area.mram ||| Area.meas ||| Area.guard ||| Area.ports ||| Area.streams |||
  Area.epochs ||| Area.trigs ||| Area.prep ||| Area.weir ||| Area.millpond ||| Area.out ||| Area.drawn

/-- Where a trigger edge goes: camera uplinks, channels, hoppers, the witness sampler (R284 to R290, R325, R448). -/
abbrev Area.trigger : Nat :=
  Area.streams ||| Area.trigs ||| Area.hoppers ||| Area.hopEvent ||| Area.chans |||
  Area.wit

/-- Where an event that hoppers take goes (R325, R448). -/
abbrev Area.spread : Nat :=
  Area.hoppers ||| Area.hopEvent ||| Area.chans ||| Area.wit

/-- What the end of a frame may bring with it: the switch of its stream, its jobs, its flows (R311 to R317, R346). -/
abbrev Area.frames : Nat :=
  Area.accepted ||| Area.streams ||| Area.epochs ||| Area.prep ||| Area.weir

/-- A reply to a request (R83 to R87, R106). -/
abbrev Area.reply : Nat :=
  Area.fns ||| Area.lastServed ||| Area.owed ||| Area.log ||| Area.out

/-- A tailrace entry or a notice (R88, R96 to R101). -/
abbrev Area.entry : Nat :=
  Area.fns ||| Area.queues ||| Area.log ||| Area.millpond ||| Area.out

/-- A register access: its completion, and ACCESS_ERR or AER where it fails (R54, R67). -/
abbrev Area.access : Nat :=
  Area.fns ||| Area.log ||| Area.out

/-- The parts that a command may change beside time. -/
def touches : Instr → Nat
  | .perstDeassert .. | .hotResetReceived .. | .perstAssert .. | .xtr0WakeEdge .. | .aonPowerApply .. |
  .aonPowerLoss .. | .mainSuppliesOff .. | .watchdogExpiry .. | .lockstepMismatch .. | .resetNAssert .. |
  .supplyFault .. =>
      Area.reset ||| Area.pwr
  | .linkTrained .. | .linkRetrainChange .. =>
      Area.link ||| Area.log
  | .configRequest .. | .flrInitiate .. | .vfEnableClear .. | .dlDown .. | .refclkLoss .. =>
      Area.trigger ||| Area.frames ||| Area.entry ||| Area.link ||| Area.owed ||| Area.clk ||| Area.mram |||
      Area.guard ||| Area.pos ||| Area.cmps ||| Area.audio ||| Area.lpddr ||| Area.drawn
  | .fenceClosed .. =>
      Area.entry ||| Area.hoppers ||| Area.weir ||| Area.chans
  | .fenceTimeoutWedge .. | .replyWriteFailed .. =>
      Area.fns ||| Area.log
  | .vfEnableSet .. =>
      Area.link ||| Area.fns
  | .busMasterEnableClear .. =>
      Area.entry ||| Area.hoppers ||| Area.chans ||| Area.lpddr ||| Area.drawn
  | .busMasterEnableSet .. =>
      Area.fns
  | .registerWrite .. =>
      Area.entry ||| Area.link ||| Area.clk ||| Area.streams ||| Area.pos ||| Area.emu ||| Area.cmps |||
      Area.trigs ||| Area.hoppers ||| Area.chans ||| Area.wit
  | .bar0ReadRejected .. =>
      Area.access ||| Area.queues ||| Area.clk ||| Area.streams ||| Area.pos ||| Area.cmps ||| Area.trigs |||
      Area.hoppers ||| Area.prep ||| Area.weir ||| Area.chans ||| Area.wit
  | .bar2Write .. =>
      Area.access ||| Area.millpond
  | .inboundTlpError .. | .serialLoRead .. | .porchDoorbell .. | .reqTailWrite .. | .repHeadWrite .. |
  .timeNsLoRead .. | .logLostRead .. | .logFilteredRead .. =>
      Area.access
  | .readCompletion .. | .completionTimeout .. =>
      Area.entry ||| Area.lastServed ||| Area.hoppers ||| Area.prep ||| Area.chans ||| Area.drawn
  | .instancePlanSet .. =>
      Area.reply ||| Area.entry ||| Area.plan ||| Area.meas ||| Area.chans
  | .instancePlanGet .. | .deviceInfo .. | .ringsSet .. | .ringsClear .. | .noticeRoute .. | .echo .. |
  .timeStatus .. | .timeCorrelate .. | .guardStatus .. | .digestGet .. | .chimeStatus .. | .tunnelI2c .. |
  .streamStatus .. | .cmpStatus .. | .configStatus .. | .hopperStatus .. | .weirStatus .. | .weirCheck .. |
  .witnessStatus .. | .faultAck .. | .faultStatus .. | .logFilter .. | .unknownOpcode .. =>
      Area.reply
  | .queueSet .. =>
      Area.reply ||| Area.entry
  | .queueClear .. | .queueModerate .. =>
      Area.reply ||| Area.queues
  | .tqHeadWrite .. | .tqDroppedRead .. =>
      Area.access ||| Area.queues
  | .tqModerationTimer .. =>
      Area.fns ||| Area.queues ||| Area.out
  | .queueWriteFailed .. =>
      Area.queues ||| Area.log
  | .tdcDropRead .. =>
      Area.access ||| Area.clk
  | .ptmDialogueStart .. =>
      Area.log ||| Area.clk ||| Area.out
  | .ptmDialogueResponse .. | .ptmDialogueTimeout .. | .fantailHoldoverTimeout .. | .tdcCalibration .. =>
      Area.log ||| Area.clk
  | .ptmEnableChange .. =>
      Area.link ||| Area.clk
  | .clockLoss .. =>
      Area.reset ||| Area.pwr ||| Area.out ||| Area.drawn
  | .timeStep .. =>
      Area.reply ||| Area.entry ||| Area.clk ||| Area.streams ||| Area.cmps
  | .fantailConfig .. =>
      Area.reply ||| Area.clk
  | .carWakeRise .. | .resetNRelease .. | .avsStep .. =>
      Area.pwr
  | .carWakeDebounceExpiry .. =>
      Area.reset ||| Area.pwr ||| Area.mram ||| Area.out
  | .parkHoldExpiry .. =>
      Area.entry ||| Area.mirror ||| Area.mirrorNumber ||| Area.pwr ||| Area.start ||| Area.mram ||| Area.guard |||
      Area.drawn
  | .suppliesGood .. | .fullResetRelease .. =>
      Area.link ||| Area.fns ||| Area.log ||| Area.clk ||| Area.pwr ||| Area.start ||| Area.mram ||| Area.meas
  | .slotCheck .. | .valtynRun .. | .outingRecord .. | .guardianSurfaces .. | .tslReceive .. | .panelLinkTrained .. |
  .earlyPicture .. | .rearCameraLink .. | .rearSensor .. | .rearInsertion .. | .lpddr5xTraining .. |
  .cameraPortStart .. | .startStepTimeout .. | .gearRaiseTimeout .. =>
      Area.steps
  | .journalFold .. =>
      Area.log ||| Area.start ||| Area.mram ||| Area.meas ||| Area.guard ||| Area.ports ||| Area.out
  | .positionChannels .. =>
      Area.steps ||| Area.trigger ||| Area.pos ||| Area.emu ||| Area.cmps
  | .audioInputs .. =>
      Area.steps ||| Area.trigger ||| Area.audio
  | .witnessArmStep .. =>
      Area.steps ||| Area.wit
  | .startDone .. =>
      Area.entry ||| Area.pwr ||| Area.start ||| Area.mram ||| Area.meas ||| Area.guard ||| Area.ports
  | .lateRetry .. =>
      Area.steps ||| Area.trigger ||| Area.pos ||| Area.emu ||| Area.cmps ||| Area.audio
  | .provision .. | .measReport .. | .outingWrite .. | .chainRead .. | .embeddedMapSet .. =>
      Area.reply ||| Area.accepted
  | .provisionDone .. =>
      Area.entry ||| Area.accepted ||| Area.mram
  | .measReportDone .. | .chainReadDone .. =>
      Area.entry ||| Area.accepted ||| Area.drawn
  | .fwStage .. =>
      Area.reply ||| Area.accepted ||| Area.mram
  | .fwStageDone .. | .outingWriteDone .. =>
      Area.entry ||| Area.accepted ||| Area.mram ||| Area.drawn
  | .fwActivate .. =>
      Area.reply ||| Area.start ||| Area.mram
  | .journalRead .. | .logRead .. =>
      Area.reply ||| Area.millpond
  | .journalClear .. | .slotSelect .. =>
      Area.reply ||| Area.mram
  | .liveQuietPoint .. =>
      Area.log ||| Area.start ||| Area.meas
  | .liveArmTimeout .. =>
      Area.entry ||| Area.start
  | .liveSwitchOpen .. =>
      Area.entry ||| Area.start ||| Area.mram
  | .liveSwitchRevert .. =>
      Area.entry ||| Area.start ||| Area.mram ||| Area.meas
  | .debugPortOpen .. | .debugPortClose .. =>
      Area.log ||| Area.pwr ||| Area.meas
  | .spdmRequest .. =>
      Area.log ||| Area.meas ||| Area.out ||| Area.drawn
  | .compactReportReady .. =>
      Area.meas ||| Area.drawn
  | .tslFrame .. =>
      Area.spread ||| Area.entry ||| Area.meas ||| Area.guard ||| Area.drawn
  | .tslStaleTimeout .. | .tslLossTimeout .. | .panelHpdEvent .. | .rearTapFrame .. | .rearCameraStale .. =>
      Area.log ||| Area.guard
  | .inputFrameStart .. | .inputRegionResult .. | .inputLoss .. | .inputVerticalTimeout .. | .psrRepeatPeriod .. =>
      Area.spread ||| Area.frames ||| Area.entry ||| Area.guard
  | .inputFrameEnd .. | .outputFrameStart .. | .panelRetrainDone .. =>
      Area.frames ||| Area.entry ||| Area.guard
  | .outputFrameEnd .. =>
      Area.spread ||| Area.entry ||| Area.guard ||| Area.weir ||| Area.drawn
  | .digestSigned .. =>
      Area.entry ||| Area.guard ||| Area.drawn
  | .psrEntry .. | .psrExit .. =>
      Area.guard ||| Area.out
  | .sinkAuxRequest .. =>
      Area.log ||| Area.guard ||| Area.out ||| Area.drawn
  | .auxDeferExpiry .. | .sinkHpdPulseEnd .. | .settleWindowEnd .. =>
      Area.guard
  | .panelAuxTimeout .. =>
      Area.log ||| Area.guard ||| Area.out
  | .chimeWindowEnd .. =>
      Area.spread ||| Area.entry ||| Area.guard ||| Area.drawn
  | .guardConfig .. | .verdictRoute .. =>
      Area.reply ||| Area.guard
  | .guardRegionsSet .. =>
      Area.reply ||| Area.meas ||| Area.guard ||| Area.drawn
  | .guardRefsLoad .. | .chimeTemplatesLoad .. =>
      Area.reply ||| Area.accepted ||| Area.guard
  | .guardRefsLoadDone .. =>
      Area.entry ||| Area.accepted ||| Area.meas ||| Area.guard
  | .chimeTemplatesLoadDone .. =>
      Area.entry ||| Area.accepted ||| Area.meas ||| Area.guard ||| Area.drawn
  | .portLock .. =>
      Area.log ||| Area.ports ||| Area.out
  | .portLoss .. | .csi2LongPacket .. | .csi2FrameEnd .. =>
      Area.frames ||| Area.entry ||| Area.ports ||| Area.hoppers ||| Area.chans ||| Area.lpddr
  | .relockAttempt .. =>
      Area.ports
  | .csi2FrameStart .. =>
      Area.frames ||| Area.entry ||| Area.ports ||| Area.hoppers ||| Area.chans ||| Area.lpddr ||| Area.drawn
  | .triggerEdgeAgeExpiry .. =>
      Area.log ||| Area.streams
  | .portDrainEnd .. =>
      Area.frames ||| Area.entry ||| Area.ports ||| Area.chans
  | .drainFrameTimeout .. | .streamCloseQuiet .. =>
      Area.frames ||| Area.entry ||| Area.hoppers ||| Area.chans ||| Area.lpddr
  | .stagedFrameCopyDone .. =>
      Area.entry ||| Area.streams ||| Area.weir
  | .streamHeadWrite .. | .streamDropsRead .. | .streamErrsRead .. =>
      Area.access ||| Area.streams
  | .portConfig .. =>
      Area.reply ||| Area.ports ||| Area.epochs
  | .portStatus .. | .tunnelGpio .. =>
      Area.reply ||| Area.ports
  | .portRestart .. =>
      Area.frames ||| Area.reply ||| Area.entry ||| Area.ports ||| Area.chans
  | .portRestartDone .. =>
      Area.entry ||| Area.accepted ||| Area.ports
  | .streamOpen .. =>
      Area.reply ||| Area.ports ||| Area.streams ||| Area.weir
  | .streamClose .. =>
      Area.frames ||| Area.reply ||| Area.entry ||| Area.hoppers ||| Area.chans ||| Area.drawn
  | .streamStage .. | .configDiscard .. =>
      Area.reply ||| Area.epochs
  | .streamBuffers .. =>
      Area.frames ||| Area.reply ||| Area.entry
  | .embeddedMapSetDone .. | .epochSwitchTimer .. =>
      Area.frames ||| Area.entry
  | .quadStep .. | .indexEdge .. =>
      Area.spread ||| Area.entry ||| Area.accepted ||| Area.clk ||| Area.pos ||| Area.emu ||| Area.cmps |||
      Area.trigs ||| Area.drawn
  | .stepDirStep .. | .upDownCount .. | .hallChange .. | .serialCycleEnd .. =>
      Area.spread ||| Area.entry ||| Area.clk ||| Area.pos ||| Area.emu ||| Area.cmps ||| Area.trigs ||| Area.drawn
  | .standstillTimeout .. =>
      Area.pos
  | .serialCycleStart .. =>
      Area.pos ||| Area.out
  | .bissRegisterReadDone .. =>
      Area.entry ||| Area.accepted ||| Area.pos
  | .emuOutputStep .. =>
      Area.log ||| Area.emu ||| Area.out
  | .posPLoRead .. | .posIdxLoRead .. | .posSerialErrsRead .. =>
      Area.access ||| Area.pos
  | .posConfig .. =>
      Area.spread ||| Area.reply ||| Area.entry ||| Area.accepted ||| Area.clk ||| Area.pos ||| Area.cmps |||
      Area.trigs ||| Area.drawn
  | .posConfigApply .. =>
      Area.spread ||| Area.entry ||| Area.owed ||| Area.clk ||| Area.pos ||| Area.cmps ||| Area.trigs ||| Area.drawn
  | .posStatus .. =>
      Area.reply ||| Area.accepted ||| Area.pos
  | .posPreset .. =>
      Area.spread ||| Area.reply ||| Area.entry ||| Area.accepted ||| Area.clk ||| Area.pos ||| Area.emu |||
      Area.cmps ||| Area.trigs ||| Area.drawn
  | .emuConfig .. =>
      Area.reply ||| Area.emu
  | .comparatorFire .. =>
      Area.spread ||| Area.entry ||| Area.clk ||| Area.cmps ||| Area.trigs ||| Area.drawn
  | .trigDelayEnd .. | .trigPulseEnd .. =>
      Area.trigger ||| Area.entry ||| Area.clk
  | .trigHoldoffEnd .. =>
      Area.trigs
  | .trigPeriodTick .. =>
      Area.log ||| Area.trigs ||| Area.drawn
  | .xtrFallingEdge .. | .xtrDriveEnd .. | .xtrGuardEnd .. =>
      Area.log ||| Area.clk ||| Area.trigs
  | .xtrAssertionTaken .. | .xtrReleaseCheck .. =>
      Area.spread ||| Area.entry ||| Area.trigs ||| Area.drawn
  | .xtrStuckTimeout .. | .xtrStuckClear .. =>
      Area.log ||| Area.trigs
  | .extEdge .. | .runtPulseEnd .. =>
      Area.spread ||| Area.entry ||| Area.clk ||| Area.trigs ||| Area.drawn
  | .cmpTargetLoRead .. | .cmpFireLoRead .. =>
      Area.access ||| Area.cmps
  | .trigMergedRead .. | .xtrRuntsRead .. =>
      Area.access ||| Area.trigs
  | .cmpArm .. | .cmpDisarm .. =>
      Area.spread ||| Area.reply ||| Area.entry ||| Area.clk ||| Area.cmps ||| Area.trigs ||| Area.drawn
  | .trigConfig .. | .xtrConfig .. =>
      Area.reply ||| Area.trigs
  | .outputConfigApply .. =>
      Area.fns ||| Area.owed ||| Area.trigs ||| Area.out
  | .trigFire .. =>
      Area.spread ||| Area.reply ||| Area.entry ||| Area.clk ||| Area.trigs ||| Area.drawn
  | .configCommit .. =>
      Area.frames ||| Area.reply ||| Area.entry ||| Area.ports ||| Area.deviceEpoch ||| Area.chans
  | .hopperBind .. =>
      Area.reply ||| Area.entry ||| Area.hoppers ||| Area.weir ||| Area.chans
  | .hopperArm .. | .hopperCopyout .. =>
      Area.reply ||| Area.hoppers ||| Area.chans
  | .hopperDisarm .. =>
      Area.reply ||| Area.hoppers
  | .hopperDisarmQuiet .. =>
      Area.entry ||| Area.hoppers ||| Area.chans ||| Area.drawn
  | .hopperTrigger .. =>
      Area.reply ||| Area.entry ||| Area.hoppers ||| Area.hopEvent ||| Area.chans
  | .hopperCopyEnd .. =>
      Area.entry ||| Area.hoppers ||| Area.weir ||| Area.chans ||| Area.drawn
  | .hopIgnoredRead .. =>
      Area.access ||| Area.hoppers
  | .pyramidSubmit .. =>
      Area.reply ||| Area.queues ||| Area.prep ||| Area.weir
  | .pyramidCancel .. =>
      Area.reply ||| Area.entry ||| Area.prep ||| Area.weir ||| Area.chans
  | .pyramidPassEnd .. =>
      Area.entry ||| Area.prep ||| Area.weir ||| Area.chans ||| Area.lpddr
  | .pyrDroppedRead .. =>
      Area.access ||| Area.prep
  | .decodeSubmit .. =>
      Area.reply ||| Area.queues ||| Area.prep
  | .decodeCancel .. =>
      Area.reply ||| Area.entry ||| Area.prep
  | .decodeJobEnd .. =>
      Area.entry ||| Area.prep ||| Area.weir ||| Area.drawn
  | .prepQuiet .. =>
      Area.entry ||| Area.prep
  | .engineStallReset .. =>
      Area.entry ||| Area.accepted ||| Area.hoppers ||| Area.prep ||| Area.audio ||| Area.weir ||| Area.chans |||
      Area.drawn
  | .audioConfig .. =>
      Area.spread ||| Area.reply ||| Area.entry ||| Area.guard ||| Area.ports ||| Area.prep ||| Area.audio |||
      Area.weir ||| Area.drawn
  | .audioRoute .. =>
      Area.reply ||| Area.entry ||| Area.prep ||| Area.audio
  | .audioFrame .. =>
      Area.entry ||| Area.guard ||| Area.ports ||| Area.hoppers ||| Area.prep ||| Area.audio ||| Area.weir |||
      Area.chans ||| Area.drawn
  | .audioLossTimeout .. | .audioHop .. =>
      Area.entry ||| Area.guard ||| Area.hoppers ||| Area.prep ||| Area.audio ||| Area.weir ||| Area.chans |||
      Area.drawn
  | .audioRecordsWritten .. =>
      Area.entry ||| Area.guard ||| Area.prep ||| Area.audio
  | .thermalSample .. =>
      Area.log ||| Area.pwr ||| Area.weir
  | .fullRetrainRequest .. | .weirDrainEnd .. | .retrainDone .. | .serveRestoreTimer .. | .sFaultClearTimer .. |
  .scrubBurst .. =>
      Area.log ||| Area.weir
  | .weirDrainTimeout .. | .controllerStall .. =>
      Area.entry ||| Area.streams ||| Area.hoppers ||| Area.weir
  | .shortRetrain .. =>
      Area.weir
  | .weirShedRead .. | .weirEccAddrLoRead .. =>
      Area.access ||| Area.weir
  | .weirShedOrder .. | .weirScrub .. =>
      Area.reply ||| Area.weir
  | .chanLoad .. | .chanConfig .. =>
      Area.reply ||| Area.entry ||| Area.chans
  | .chanQuiet .. | .chanStop .. | .chanFlush .. | .chanRetry .. | .chanSkip .. | .loop .. | .endLoop .. | .wait .. |
  .waitTimeout .. | .signalEntry .. | .signalSlot .. | .setReg .. | .crcStart .. | .fence .. | .endRun .. |
  .arrivalReadbackDone .. =>
      Area.entry ||| Area.chans
  | .chanSignalMap .. =>
      Area.reply ||| Area.chans
  | .chanGo .. =>
      Area.access ||| Area.queues ||| Area.chans
  | .chanKick .. | .chanBytesLoRead .. =>
      Area.access ||| Area.chans
  | .move .. | .move2d .. =>
      Area.entry ||| Area.weir ||| Area.chans ||| Area.lpddr ||| Area.drawn
  | .waitSatisfied .. =>
      Area.chans
  | .crcStore .. =>
      Area.entry ||| Area.chans ||| Area.lpddr
  | .witnessConfig .. =>
      Area.reply ||| Area.weir ||| Area.wit
  | .witnessArm .. | .witnessRoute .. =>
      Area.reply ||| Area.wit
  | .witnessDisarm .. =>
      Area.spread ||| Area.reply ||| Area.entry
  | .witnessQuiet .. | .witnessDeliveryEnd .. =>
      Area.entry ||| Area.wit ||| Area.drawn
  | .adcConversion .. | .witnessUnitTimeout .. =>
      Area.spread ||| Area.entry
  | .dwEdge .. =>
      Area.spread ||| Area.entry ||| Area.clk ||| Area.drawn
  | .witnessCaptureEnd .. =>
      Area.entry ||| Area.wit
  | .witIgnoredRead .. =>
      Area.access ||| Area.wit
  | .instanceQuiesce .. =>
      Area.trigger ||| Area.frames ||| Area.reply ||| Area.entry ||| Area.clk ||| Area.guard ||| Area.cmps |||
      Area.audio ||| Area.drawn
  | .instanceQuiesceDone .. =>
      Area.entry ||| Area.accepted
  | .eventLogged .. =>
      Area.entry ||| Area.drawn
  | .mirrorTimer .. =>
      Area.log ||| Area.mirror ||| Area.mirrorNumber ||| Area.pwr
  | .logClear .. =>
      Area.reply ||| Area.entry ||| Area.mirror ||| Area.mirrorNumber ||| Area.pwr ||| Area.drawn
  | .deviceReset .. =>
      Area.reset ||| Area.mirror ||| Area.mirrorNumber ||| Area.pwr ||| Area.out ||| Area.drawn
  | .watchdogService .. | .carWakeFall .. =>
      Area.log ||| Area.pwr
  | .tunnelI2cAnswer .. =>
      Area.access ||| Area.owed
  | .refclkRestored .. =>
      Area.clk
  | .logMirrorDone .. =>
      Area.reset ||| Area.mirror ||| Area.pwr

/-- The ticks that pass before a command. -/
def ticksOf : Instr → Nat
  | .perstDeassert dt | .linkTrained dt _ _ _ | .linkRetrainChange dt _ _ | .configRequest dt _ _ |
  .flrInitiate dt _ | .fenceClosed dt _ | .fenceTimeoutWedge dt _ _ | .vfEnableSet dt | .vfEnableClear dt |
  .busMasterEnableClear dt _ _ | .busMasterEnableSet dt _ | .dlDown dt | .hotResetReceived dt | .perstAssert dt |
  .registerWrite dt _ _ _ | .bar0ReadRejected dt _ _ _ | .bar2Write dt _ | .inboundTlpError dt _ _ |
  .readCompletion dt _ _ | .completionTimeout dt _ | .serialLoRead dt _ | .instancePlanSet dt _ |
  .instancePlanGet dt _ | .porchDoorbell dt _ | .reqTailWrite dt _ _ | .repHeadWrite dt _ _ | .deviceInfo dt _ |
  .ringsSet dt _ | .ringsClear dt _ | .noticeRoute dt _ | .echo dt _ | .queueSet dt _ | .queueClear dt _ |
  .queueModerate dt _ | .tqHeadWrite dt _ _ _ | .tqDroppedRead dt _ _ | .tqModerationTimer dt _ |
  .queueWriteFailed dt _ | .replyWriteFailed dt _ | .timeNsLoRead dt _ | .tdcDropRead dt _ | .ptmDialogueStart dt _ |
  .ptmDialogueResponse dt _ _ _ | .ptmDialogueTimeout dt | .fantailHoldoverTimeout dt | .ptmEnableChange dt _ |
  .tdcCalibration dt _ | .clockLoss dt _ | .refclkLoss dt | .timeStatus dt _ | .timeStep dt _ | .fantailConfig dt _ |
  .timeCorrelate dt _ | .carWakeRise dt | .carWakeDebounceExpiry dt | .xtr0WakeEdge dt | .aonPowerApply dt _ |
  .aonPowerLoss dt | .parkHoldExpiry dt | .mainSuppliesOff dt | .suppliesGood dt | .slotCheck dt | .valtynRun dt _ |
  .journalFold dt | .outingRecord dt | .guardianSurfaces dt _ | .tslReceive dt | .panelLinkTrained dt _ _ |
  .earlyPicture dt _ _ | .rearCameraLink dt _ _ _ | .rearSensor dt _ _ | .rearInsertion dt _ |
  .lpddr5xTraining dt _ _ _ | .cameraPortStart dt _ _ _ _ _ _ | .positionChannels dt | .audioInputs dt |
  .witnessArmStep dt | .startDone dt | .startStepTimeout dt _ _ | .lateRetry dt _ _ _ _ _ _ | .provision dt _ |
  .provisionDone dt _ | .measReport dt _ | .measReportDone dt _ | .fwStage dt _ _ | .fwStageDone dt _ |
  .fwActivate dt _ | .outingWrite dt _ | .outingWriteDone dt _ | .journalRead dt _ | .journalClear dt _ |
  .slotSelect dt _ | .liveQuietPoint dt | .liveArmTimeout dt | .liveSwitchOpen dt | .liveSwitchRevert dt |
  .debugPortOpen dt _ | .debugPortClose dt | .spdmRequest dt _ | .compactReportReady dt | .tslFrame dt _ |
  .tslStaleTimeout dt | .tslLossTimeout dt | .inputFrameStart dt _ _ | .inputRegionResult dt _ _ _ |
  .inputFrameEnd dt _ _ _ | .outputFrameStart dt _ | .outputFrameEnd dt _ _ _ | .digestSigned dt _ |
  .inputLoss dt _ _ | .inputVerticalTimeout dt _ | .psrEntry dt _ | .psrExit dt _ | .psrRepeatPeriod dt _ |
  .panelHpdEvent dt _ _ | .panelRetrainDone dt _ _ | .sinkAuxRequest dt _ _ | .auxDeferExpiry dt _ |
  .panelAuxTimeout dt _ | .sinkHpdPulseEnd dt _ | .settleWindowEnd dt _ | .chimeWindowEnd dt _ |
  .rearTapFrame dt _ _ _ _ | .rearCameraStale dt | .guardConfig dt _ | .guardStatus dt _ | .guardRegionsSet dt _ _ |
  .guardRefsLoad dt _ _ | .guardRefsLoadDone dt _ _ | .verdictRoute dt _ | .digestGet dt _ | .chainRead dt _ |
  .chainReadDone dt _ | .chimeTemplatesLoad dt _ _ | .chimeTemplatesLoadDone dt _ | .chimeStatus dt _ |
  .portLock dt _ | .portLoss dt _ | .relockAttempt dt _ | .gearRaiseTimeout dt _ | .csi2FrameStart dt _ _ _ |
  .csi2LongPacket dt _ _ _ _ _ | .csi2FrameEnd dt _ _ _ | .triggerEdgeAgeExpiry dt _ | .portDrainEnd dt _ |
  .drainFrameTimeout dt _ | .stagedFrameCopyDone dt _ _ | .streamHeadWrite dt _ _ _ | .streamDropsRead dt _ _ |
  .streamErrsRead dt _ _ | .portConfig dt _ | .portStatus dt _ | .portRestart dt _ | .portRestartDone dt _ |
  .tunnelI2c dt _ | .tunnelGpio dt _ _ | .streamOpen dt _ | .streamClose dt _ | .streamCloseQuiet dt _ |
  .streamStage dt _ | .streamStatus dt _ | .streamBuffers dt _ | .embeddedMapSet dt _ | .embeddedMapSetDone dt _ _ |
  .quadStep dt _ _ | .stepDirStep dt _ _ | .upDownCount dt _ _ | .hallChange dt _ _ | .indexEdge dt _ _ |
  .standstillTimeout dt _ | .serialCycleStart dt _ | .serialCycleEnd dt _ _ | .bissRegisterReadDone dt _ _ |
  .emuOutputStep dt _ | .posPLoRead dt _ _ | .posIdxLoRead dt _ _ | .posSerialErrsRead dt _ _ | .posConfig dt _ |
  .posConfigApply dt _ | .posStatus dt _ | .posPreset dt _ | .emuConfig dt _ | .comparatorFire dt _ |
  .trigDelayEnd dt _ | .trigPulseEnd dt _ _ | .trigHoldoffEnd dt _ | .trigPeriodTick dt _ | .xtrFallingEdge dt _ _ |
  .xtrAssertionTaken dt _ | .xtrDriveEnd dt _ _ _ | .xtrGuardEnd dt _ | .xtrReleaseCheck dt _ |
  .xtrStuckTimeout dt _ | .xtrStuckClear dt _ | .extEdge dt _ _ | .cmpTargetLoRead dt _ _ | .cmpFireLoRead dt _ _ |
  .trigMergedRead dt _ | .xtrRuntsRead dt _ | .cmpArm dt _ | .cmpDisarm dt _ | .cmpStatus dt _ | .trigConfig dt _ |
  .xtrConfig dt _ | .outputConfigApply dt _ | .trigFire dt _ | .configCommit dt _ | .epochSwitchTimer dt _ |
  .configDiscard dt _ | .configStatus dt _ | .hopperBind dt _ | .hopperArm dt _ | .hopperDisarm dt _ |
  .hopperDisarmQuiet dt _ | .hopperTrigger dt _ | .hopperStatus dt _ | .hopperCopyout dt _ |
  .hopperCopyEnd dt _ _ _ | .hopIgnoredRead dt _ _ | .pyramidSubmit dt _ | .pyramidCancel dt _ |
  .pyramidPassEnd dt _ _ | .pyrDroppedRead dt _ | .decodeSubmit dt _ | .decodeCancel dt _ | .decodeJobEnd dt _ _ |
  .prepQuiet dt _ | .engineStallReset dt _ | .audioConfig dt _ | .audioRoute dt _ | .audioFrame dt _ _ _ _ _ |
  .audioLossTimeout dt _ | .audioHop dt _ | .audioRecordsWritten dt _ | .thermalSample dt _ |
  .fullRetrainRequest dt _ | .weirDrainEnd dt | .weirDrainTimeout dt | .retrainDone dt | .shortRetrain dt |
  .controllerStall dt | .serveRestoreTimer dt _ _ | .sFaultClearTimer dt | .scrubBurst dt _ | .weirShedRead dt _ |
  .weirEccAddrLoRead dt _ | .weirStatus dt _ | .weirShedOrder dt _ | .weirCheck dt _ | .weirScrub dt _ |
  .chanLoad dt _ _ | .chanConfig dt _ | .chanQuiet dt _ | .chanSignalMap dt _ | .chanGo dt _ _ _ |
  .chanStop dt _ _ _ | .chanFlush dt _ _ _ | .chanRetry dt _ _ _ | .chanSkip dt _ _ _ | .chanKick dt _ _ _ |
  .chanBytesLoRead dt _ _ | .move dt _ _ _ _ | .move2d dt _ _ _ _ | .loop dt _ | .endLoop dt _ | .wait dt _ |
  .waitSatisfied dt _ | .waitTimeout dt _ | .signalEntry dt _ | .signalSlot dt _ | .setReg dt _ | .crcStart dt _ |
  .crcStore dt _ | .fence dt _ | .endRun dt _ | .arrivalReadbackDone dt _ | .witnessConfig dt _ | .witnessArm dt _ |
  .witnessDisarm dt _ | .witnessQuiet dt | .witnessStatus dt _ | .witnessRoute dt _ | .adcConversion dt _ _ _ |
  .dwEdge dt _ _ | .witnessUnitTimeout dt _ | .witnessCaptureEnd dt | .witnessDeliveryEnd dt _ |
  .witIgnoredRead dt _ | .instanceQuiesce dt _ | .instanceQuiesceDone dt _ | .eventLogged dt | .mirrorTimer dt |
  .logRead dt _ | .logClear dt _ | .faultAck dt _ | .faultStatus dt _ | .logFilter dt _ | .deviceReset dt _ |
  .logLostRead dt _ | .logFilteredRead dt _ | .watchdogService dt | .watchdogExpiry dt | .lockstepMismatch dt |
  .resetNAssert dt | .resetNRelease dt | .supplyFault dt | .fullResetRelease dt | .avsStep dt | .carWakeFall dt |
  .runtPulseEnd dt _ _ | .tunnelI2cAnswer dt _ _ | .refclkRestored dt | .logMirrorDone dt | .unknownOpcode dt _ => dt

end Sys2Proof.Machine
end

