-- ==== Sys2Proof/Certificates/Slice0/Obligations.lean ====
section
/-! DEFINITION. The statements about the block, for the provers. A statement about a family of commands is a conjunction of
claims, one for each command, in the forms of `Sys2Proof/Safety.lean`. -/

set_option Elab.async false

namespace Sys2Proof.Machine

/-! ### Commands of every kind -/

/-- What every hamper's own command answers, once it is fetched, before its own section is asked (R14, R87, R93):
INSTANCE_RESET for a WEDGED sender, then BUSY_UPDATING while Valtyn's door is closed, then BAD_ARGUMENT with event 0x1115
for a bad header, then BAD_OPCODE before the version that introduced it, then NOT_OWNER where only PF0 sends it, then
UNIT_OFF where the door of its block is closed. -/
def Claims.Refuses (c : Nat → Req → Instr) (op minor : Nat) (pf0 : Bool) : Prop :=
  ∀ (s : State) (dt : Nat) (r : Req) (h : Hamper),
  fetch (advance dt s) r = some h → h.op = op → (advance dt s).start.core = .valtyn →
  let a := advance dt s
  let alive := (a.fns[h.fn]).mode ≠ .wedged
  let opened := alive ∧ a.start.doorClosed = false
  let good := opened ∧ h.headerBad = false
  let known := good ∧ minor ≤ a.start.minor
  let sender := known ∧ (pf0 = true → h.fn = 0)
  let refused (status retry : Nat) (a : State) : State := reply h status retry [] (taken h.fn h.porch a)
  ((a.fns[h.fn]).mode = .wedged → exec (c dt r) s = .next (refused stInstanceReset 0 a)) ∧
  (alive → a.start.doorClosed = true → exec (c dt r) s = .next (refused stBusyUpdating (retryAfter a) a)) ∧
  (opened → h.headerBad = true → exec (c dt r) s = .next (refused stBadArgument 0 (post 0x1115 h.fn wide a))) ∧
  (good → a.start.minor < minor → exec (c dt r) s = .next (refused stBadOpcode 0 a)) ∧
  (known → pf0 = true → h.fn ≠ 0 → exec (c dt r) s = .next (refused stNotOwner 0 a)) ∧
  (sender → doorShut a h = true → exec (c dt r) s = .next (refused stUnitOff 0 a))

/-- A command of a register in a window that its function does not own: reads give 0, writes are ignored, ACCESS_ERR.unowned
is set with the offset, and event 0x1106 names the resource (R43, R54). -/
def Claims.Unowned (fn : Fn) (off index : Nat) (owner : State → Fn) (c : Nat → Instr) (read : Bool) : Prop :=
  ActsSo c (fun a => Reached a fn ∧ owner a ≠ fn) (fun a t =>
    t = (if read then emit (.completion fn [0]) else id) (post 0x1106 fn index (a.modFn fn fun f => { f with
      errUnowned := true, errAddr := BitVec.ofNat 32 off })))

/-! ### Host link -/

/-- PERST# rises: in a start or in RUNNING the 60 ms of RRS begin (R34); in PARKED it is a wake source, which starts the part
with cause 2, and in SHUTDOWN a wake source that waits (R131). -/
def Claims.perstDeassert : Prop :=
  Acts (fun dt => .perstDeassert dt) (fun a => a.link.perstLow = true ∧ (a.pwr.state = .starting ∨ a.pwr.state = .running))
    (fun a => { a with
      link := { a.link with perstLow := false, rrsFrom := a.elapsed, speed := 1 }
      pwr := { a.pwr with parkFrom := none } }) ∧
  ActsSo (fun dt => .perstDeassert dt) (fun a => a.link.perstLow = true ∧ a.pwr.state = .parked)
    (fun a t => t.pwr.state = .starting ∧ t.pwr.pwrEn = true ∧ t.start.cause = 2 ∧ t.clk.wakeAt = a.elapsed ∧
      MainIsReset a t) ∧
  Acts (fun dt => .perstDeassert dt)
    (fun a => a.link.perstLow = true ∧ a.pwr.state = .shutdown ∧ a.pwr.heldWake = none)
    (fun a => { a with
      link := { a.link with perstLow := false, rrsFrom := a.elapsed, speed := 1 }
      pwr := { a.pwr with parkFrom := none, heldWake := some (.perst, a.elapsed) } })

/-- Training completes at a speed and width of R31: LINK_STATUS takes them; at a training after the first, another speed or
width also sets `changed` and raises event 0x1109 (R33). -/
def Claims.linkTrained : Prop :=
  ∀ (speed width : Nat) (reversed : Bool),
  let legal (a : State) : Prop := 1 ≤ speed ∧ speed ≤ 6 ∧ (width = 1 ∨ width = 2 ∨ width = 4) ∧ mainRuns a = true ∧
    a.clk.refclkOk = true ∧ a.link.perstLow = false ∧ a.link.up = false
  let trained (a : State) : Link := { a.link with
    up := true, speed := BitVec.ofNat 4 speed, width := BitVec.ofNat 3 width, flit := decide (speed = 6)
    reversed := reversed }
  Acts (fun dt => .linkTrained dt speed width reversed)
    (fun a => legal a ∧ (a.link.width = 0 ∨ (a.link.speed.toNat = speed ∧ a.link.width.toNat = width)))
    (fun a => { a with link := trained a }) ∧
  Acts (fun dt => .linkTrained dt speed width reversed)
    (fun a => legal a ∧ a.link.width ≠ 0 ∧ (a.link.speed.toNat ≠ speed ∨ a.link.width.toNat ≠ width))
    (fun a => post 0x1109 wide wide { a with link := { trained a with changed := true } })

/-- A speed or width change on a link that is up sets LINK_STATUS.changed and raises event 0x1109 (R33). -/
def Claims.linkRetrainChange : Prop :=
  ∀ (speed width : Nat),
  Acts (fun dt => .linkRetrainChange dt speed width)
    (fun a => 1 ≤ speed ∧ speed ≤ 6 ∧ (width = 1 ∨ width = 2 ∨ width = 4) ∧ a.link.up = true ∧ a.link.width ≠ 0 ∧
      (a.link.speed.toNat ≠ speed ∨ a.link.width.toNat ≠ width))
    (fun a => post 0x1109 wide wide { a with link := { a.link with
      speed := BitVec.ofNat 4 speed, width := BitVec.ofNat 3 width, flit := decide (speed = 6), changed := true } })

/-- A configuration request: RRS before 60 ms have passed (R34); then a read completes, with the Vendor and Device ID of
R37 at offset 0, and a write of the Command register sets Bus Master Enable. -/
def Claims.configRequest : Prop :=
  (∀ (fn : Fn) (req : ConfigReq),
    Acts (fun dt => .configRequest dt fn req) (fun a => a.link.up = true ∧ a.elapsed < a.link.rrsFrom + ticksMs 60)
      (fun a => emit (.rrs fn) a)) ∧
  Acts (fun dt => .configRequest dt 0 (.read 0)) (fun a => Reached a 0) (fun a => emit (.completion 0 [0x06481F86]) a) ∧
  (∀ (fn : Fn) (v : Word),
    Acts (fun dt => .configRequest dt fn (.write 4 v)) (fun a => Reached a fn ∧ v.getLsbD 2 = true)
      (fun a => (emit (.completion fn []) a).modFn fn fun f => { f with
        busMaster := true, cfg := (4, v) :: f.cfg.filter fun x => x.1 != 4 }))

/-- An FLR of a BARE or READY virtual function begins its fence, step by step (R56 to R60): the registers are as after reset
but for `flrAt`, Transactions Pending, the sticky AER bits and SERIAL_HI, and the function's queues and channels as after
reset. -/
def Claims.flrInitiate : Prop :=
  ∀ (fn : Fn),
  Acts (fun dt => .flrInitiate dt fn) (fun a => fn ≠ 0 ∧ Reached a fn)
    (fun a => sweepWaits (fenceRoutes fn (fencePrep fn (fenceChans fn (fenceHoppers fn (fenceStreams fn (fenceHampers fn
      (fenceQueues fn (fenceRegisters fn (fenceCmps fn (settleCmpsOf fn (cutChans fn a)))))))))))) ∧
  (∀ a : State, (fenceRegisters fn a).fns[fn] = { FnState.reset .fencing with
    flrAt := some a.elapsed, transPending := true, aer := (a.fns[fn]).aer, serialHi := (a.fns[fn]).serialHi }) ∧
  (∀ (a : State) (q : Fin 32), a.plan.queues[q] = fn → (fenceQueues fn a).queues[q] = Queue.reset) ∧
  (∀ (a : State) (c : Fin 64), a.plan.channels[c] = fn → (fenceChans fn a).chans[c] = Chan.reset)

/-- The fence closes within 100 ms: the function is BARE again, a VF that is no longer enabled ABSENT, and Transactions
Pending is 0 (R39, R61). -/
def Claims.fenceClosed : Prop :=
  ∀ (fn : Fn) (t0 : Nat),
  ActsSo (fun dt => .fenceClosed dt fn)
    (fun a => (a.fns[fn]).mode = .fencing ∧ (a.fns[fn]).flrAt = some t0 ∧ a.elapsed ≤ t0 + ticksMs 100)
    (fun a t => (t.fns[fn]).mode = (if fn = 0 ∨ (a.link.vfEnable = true ∧ fn.val ≤ a.link.numVfs) then .bare else .absent) ∧
      (t.fns[fn]).transPending = false ∧ (t.fns[fn]).flrAt = none)

/-- A fence still open 100 ms after it began wedges the function (R62). -/
def Claims.fenceTimeoutWedge : Prop :=
  ∀ (fn : Fn) (holder t0 : Nat),
  Acts (fun dt => .fenceTimeoutWedge dt fn holder)
    (fun a => (a.fns[fn]).mode = .fencing ∧ (a.fns[fn]).flrAt = some t0 ∧ t0 + ticksMs 100 ≤ a.elapsed)
    (fun a => post 0x1108 fn holder (a.modFn fn fun f => { f with
      mode := .wedged, flrAt := none, transPending := false, aer := Aer.reset }))

/-- VF Enable makes the first NumVFs virtual functions BARE (R39). -/
def Claims.vfEnableSet : Prop :=
  ActsSo (fun dt => .vfEnableSet dt) (fun a => Reached a 0 ∧ a.link.vfEnable = false)
    (fun a t => t.link = { a.link with vfEnable := true } ∧
      ∀ f : Fn, (t.fns[f]).mode =
        (if f ≠ 0 ∧ f.val ≤ a.link.numVfs ∧ (a.fns[f]).mode = .absent then .bare else (a.fns[f]).mode))

/-- Clearing VF Enable begins the fence of every virtual function (R63). -/
def Claims.vfEnableClear : Prop :=
  Acts (fun dt => .vfEnableClear dt) (fun a => Reached a 0 ∧ a.link.vfEnable = true)
    (fun a => (allFin 16).foldl (fun s f => if f = 0 then s else beginFence f s)
      { a with link := { a.link with vfEnable := false } })

/-- Clearing Bus Master Enable: what the function's channels and hopper copies moved is settled, then they halt (R66, R341,
R431), and every enabled queue of the function owes an OVERFLOW mark. -/
def Claims.busMasterEnableClear : Prop :=
  ∀ (fn : Fn) (addrs : List (Fin 64 × Nat)),
  ActsSo (fun dt => .busMasterEnableClear dt fn addrs) (fun a => Reached a fn ∧ (a.fns[fn]).busMaster = true)
    (fun a t => t = { haltCopies fn addrs (haltBme fn addrs ((settleMoves fn a).modFn fn fun f =>
          { f with busMaster := false })) with queues := t.queues } ∧
      ∀ q : Fin 32, t.plan.queues[q] = fn → (t.queues[q]).enabled = true → (t.queues[q]).owed = true)

/-- Bus Master Enable is set (R66). -/
def Claims.busMasterEnableSet : Prop :=
  ∀ (fn : Fn),
  Acts (fun dt => .busMasterEnableSet dt fn) (fun a => Reached a fn)
    (fun a => a.modFn fn fun f => { f with busMaster := true })

/-- DL_Down on a link that is up: every BARE or READY function begins its fence, the link is down, VF Enable, NumVFs and PTM
Enable are clear, and every function's AER bits and configuration doublewords are at their reset values (R63, R65). -/
def Claims.dlDown : Prop :=
  ActsSo (fun dt => .dlDown dt) (fun a => a.link.up = true)
    (fun a t => t.link.up = false ∧ t.link.vfEnable = false ∧ t.link.ptmEnable = false ∧ t.link.numVfs = 0 ∧
      (∀ f : Fn, (t.fns[f]).cfg = [] ∧ (t.fns[f]).aer = Aer.reset) ∧
      ∀ f : Fn, ((a.fns[f]).mode = .bare ∨ (a.fns[f]).mode = .ready) →
        (t.fns[f]).mode = .fencing ∧ (t.fns[f]).flrAt = some a.elapsed)

/-- A hot reset is a full reset (R492, R494): the main domain is as after reset, MRAM stays, and the start's cause is 0x11. -/
def Claims.hotResetReceived : Prop :=
  ActsSo (fun dt => .hotResetReceived dt)
    (fun a => a.link.up = true ∧ (a.pwr.state = .starting ∨ a.pwr.state = .running ∨ a.pwr.state = .shutdown) ∧
      a.pwr.resetHeld = [])
    (fun a t => t.pwr.state = .starting ∧ t.pwr.resetHeld = [.hotReset] ∧ t.pwr.cause = 0x11 ∧ MainIsReset a t)

/-- PERST# falls after ST01: a full reset with cause 0x10 (R492, R494). -/
def Claims.perstAssert : Prop :=
  ActsSo (fun dt => .perstAssert dt)
    (fun a => a.link.perstLow = false ∧ mainRuns a = true ∧ stepEnded a (1, noInst) = true)
    (fun a t => t.pwr.state = .starting ∧ t.pwr.resetHeld = [.perst] ∧ t.pwr.cause = 0x10 ∧ t.link.perstLow = true ∧
      MainIsReset a t)

/-- A full write of SCRATCH stores it, and one that lacks a byte enable changes nothing but ACCESS_ERR and raises event
0x1104 (R51, R52, R68). -/
def Claims.registerWrite : Prop :=
  ∀ (fn : Fn) (v : Word),
  Acts (fun dt => .registerWrite dt fn 0x30 [(v, 0xF)]) (fun a => Reached a fn)
    (fun a => a.modFn fn fun f => { f with scratch := v }) ∧
  ∀ (off : Nat) (be : BitVec 4), off < 0x40000 → be ≠ 0xF →
  Acts (fun dt => .registerWrite dt fn off [(v, be)]) (fun a => Reached a fn)
    (fun a => post 0x1104 fn wide (a.modFn fn fun f => { f with errPartial := true, errAddr := BitVec.ofNat 32 off }))

/-- A read of more than 128 bytes is aborted (R52, R54), and a read at an unimplemented offset returns 0, sets ACCESS_ERR and
raises event 0x1103 (R54). -/
def Claims.bar0ReadRejected : Prop :=
  ∀ (fn : Fn),
  (∀ (off bytes : Nat), off < 0x40000 → 128 < bytes →
    Acts (fun dt => .bar0ReadRejected dt fn off bytes) (fun a => Reached a fn)
      (fun a => post 0x1102 fn wide (emit (.ca fn) (a.modFn fn fun f => { f with aer := { f.aer with ca := true } })))) ∧
  Acts (fun dt => .bar0ReadRejected dt fn 0x34 4) (fun a => Reached a fn)
    (fun a => emit (.completion fn [0])
      (post 0x1103 fn wide (a.modFn fn fun f => { f with errUnimpl := true, errAddr := 0x34 })))

/-- A request to BAR2 (R40, R44): a write stores each enabled byte of it inside PF0's Millpond grant and drops the others,
with event 0x1106 where it has such; a read of the grant returns the stored data. -/
def Claims.bar2Write : Prop :=
  (∀ (off : Nat) (bytes : List (Option Byte)),
    let holds (a : State) : Prop := Reached a 0 ∧ a.start.ident.bar2Enable = true ∧ off + bytes.length ≤ millpondSize
    let inside (a : State) : Prop := grantBase ≤ off ∧ off + bytes.length ≤ grantBase + a.weir.grantKib * 1024
    ActsSo (fun dt => .bar2Write dt (.write off bytes)) (fun a => holds a ∧ inside a ∧ Memory.wf a.millpond)
      (fun a t => t = { a with millpond := t.millpond } ∧ ∀ x : Nat, Memory.read t.millpond x =
        if off ≤ x then ((bytes[x - off]?).join).getD (Memory.read a.millpond x) else Memory.read a.millpond x) ∧
    Acts (fun dt => .bar2Write dt (.write off bytes))
      (fun a => holds a ∧ off + bytes.length ≤ grantBase ∧ bytes.any Option.isSome = true)
      (fun a => post 0x1106 0 wide a)) ∧
  ∀ (off n : Nat),
    Acts (fun dt => .bar2Write dt (.read off (4 * n)))
      (fun a => Reached a 0 ∧ a.start.ident.bar2Enable = true ∧ off + 4 * n ≤ millpondSize ∧ grantBase ≤ off)
      (fun a => emit (.completion 0 ((List.range n).map fun k =>
        BitVec.ofNat 32 (ofLeBytes (millRead a (off + 4 * k) 4)))) a)

/-- The violations that the receiver judges, with their AER bits and events (R67); a bad ECRC is judged where ECRC checking
is enabled (R32). -/
def Claims.inboundTlpError : Prop :=
  ∀ (fn : Fn),
  Acts (fun dt => .inboundTlpError dt fn .malformed) (fun a => a.link.up = true ∧ (a.fns[fn]).malformedMasked = false)
    (fun a => post 0x1101 fn wide (emit (.fatalMessage fn) (setAer fn (fun x => { x with malformed := true }) a))) ∧
  Acts (fun dt => .inboundTlpError dt fn (.unsupported false)) (fun a => a.link.up = true)
    (fun a => post 0x1102 fn wide (emit (.ur fn) (setAer fn (fun x => { x with ur := true }) a))) ∧
  Acts (fun dt => .inboundTlpError dt fn (.unsupported true)) (fun a => a.link.up = true)
    (fun a => post 0x1102 fn wide (setAer fn (fun x => { x with ur := true }) a)) ∧
  Acts (fun dt => .inboundTlpError dt fn .poisonedWrite) (fun a => a.link.up = true)
    (fun a => post 0x110B fn wide (setAer fn (fun x => { x with poisoned := true }) a)) ∧
  Acts (fun dt => .inboundTlpError dt fn .ecrc) (fun a => a.link.up = true ∧ ecrcChecked a fn = true)
    (fun a => post 0x110C fn wide (setAer fn (fun x => { x with ecrc := true }) a)) ∧
  Acts (fun dt => .inboundTlpError dt fn .unexpectedCompletion) (fun a => a.link.up = true)
    (fun a => post 0x110D fn wide (setAer fn (fun x => { x with unexpected := true }) a))

/-- A successful completion of a ring fetch changes nothing by itself, and one with UR or CA status raises event 0x110E and
then 0x1111: RING_ERR.fetch is set and the hamper is answered BUS_ERROR (R67, R106). -/
def Claims.readCompletion : Prop :=
  (∀ (fn : Fn), Acts (fun dt => .readCompletion dt (.ringFetch fn) .success)
    (fun a => a.link.up = true ∧ (a.fns[fn]).mode ≠ .fencing) id) ∧
  (∀ (fn : Fn) (st : CplStatus), st = .ur ∨ st = .ca →
    Acts (fun dt => .readCompletion dt (.ringFetch fn) st)
      (fun a => a.link.up = true ∧ (a.fns[fn]).mode = .ready ∧ serves a = true ∧ nextTurn a = some fn ∧
        (a.fns[fn]).doorbells.head? = some false)
      (fun a => reply ⟨fn, false, 0, 0, 0, 0, 0, 0, []⟩ stBusError 0 []
        (taken fn false (post 0x1111 fn wide ((post 0x110E fn wide a).modFn fn fun f => { f with fetchErr := true })))))

/-- A completion timeout of a hamper's buffer read sets the AER bit and raises event 0x110A (R67). -/
def Claims.completionTimeout : Prop :=
  ∀ (fn : Fn),
  Acts (fun dt => .completionTimeout dt (.hamperBuffer fn)) (fun a => (a.fns[fn]).mode ≠ .fencing)
    (fun a => post 0x110A fn wide (setAer fn (fun x => { x with timeout := true }) a))

/-- A read of SERIAL_LO returns the low word and latches the high one (R53, R68). -/
def Claims.serialLoRead : Prop :=
  ∀ (fn : Fn),
  Acts (fun dt => .serialLoRead dt fn) (fun a => Reached a fn)
    (fun a => emit (.completion fn [a.start.ident.serial.setWidth 32])
      (a.modFn fn fun f => { f with serialHi := (a.start.ident.serial >>> (32 : Nat)).setWidth 32 }))

/-- INSTANCE_PLAN_SET (R69): a dry run changes nothing and echoes the plan identifier; without it the plan is live, the
measurement register M3 is extended with the payload, and every READY function gets the notice PLAN_CHANGED (R49, R155). -/
def Claims.instancePlanSet : Prop :=
  let good (a : State) (h : Hamper) : Prop := planConflict a (planOf h.payload) = none ∧ h.tail 168 = false ∧
    zeros h.payload 6 2 = true ∧ ∀ b ∈ slice h.payload 8 160, b.toNat ≤ 15
  Serves .instancePlanSet 0x0101 0 true (fun a h => good a h ∧ fld h.payload 4 2 = 1)
    stOk (fun a h => record [(4, fld h.payload 0 4), (1, 0), (1, 0), (1, measIndex a), (1, 0)]) (fun a _ => a) ∧
  ∀ (s : State) (dt : Nat) (r : Req) (h : Hamper), Asked (advance dt s) r h 0x0101 0 true →
    good (advance dt s) h → fld h.payload 4 2 = 0 →
    let u := extend 3 2 (slice h.payload 0 168) (planApplies (planOf h.payload) (advance dt s))
    exec (.instancePlanSet dt r) s = .next (noticeAll nPlanChanged (BitVec.ofNat 32 (fld h.payload 0 4)) stOk 0
      (reply h stOk 0 (planReply u (fld h.payload 0 4) 0 0) (taken h.fn h.porch u)))

/-- INSTANCE_PLAN_GET answers the live plan in the layout of R69 (R70). -/
def Claims.instancePlanGet : Prop :=
  Serves .instancePlanGet 0x0102 0 false (fun _ h => h.tail 0 = false) stOk (fun a _ => planBytes a.plan) (fun a _ => a)

/-! ### Hampers and tailraces -/

/-- The porch doorbell captures PORCH_REQ and submits it; while the porch is busy it is refused with event 0x1107 (R77,
R78). -/
def Claims.porchDoorbell : Prop :=
  ∀ (fn : Fn),
  Acts (fun dt => .porchDoorbell dt fn)
    (fun a => Reached a fn ∧ a.start.core = .valtyn ∧ (a.fns[fn]).porchBusy = false)
    (fun a => a.modFn fn fun f => { f with
      porchBusy := true, porchDone := false, porchCopy := f.porchReq, doorbells := f.doorbells ++ [true] }) ∧
  Acts (fun dt => .porchDoorbell dt fn) (fun a => Reached a fn ∧ (a.fns[fn]).porchBusy = true)
    (fun a => post 0x1107 fn wide (a.modFn fn fun f => { f with porchRefused := true }))

/-- REQ_TAIL moves forward within the free slots, each step one submitted hamper; any other write is ignored, sets
RING_ERR.index and raises event 0x1110 (R81). -/
def Claims.reqTailWrite : Prop :=
  ∀ (fn : Fn) (v : Word),
  let free (a : State) : Prop := (a.fns[fn]).mode = .ready ∧
    (v.setWidth 6 - (a.fns[fn]).reqTail).toNat ≤ ((a.fns[fn]).repHead + 32 - (a.fns[fn]).reqTail).toNat ∧
    (v.setWidth 6 - (a.fns[fn]).repHead).toNat ≤ 32
  Acts (fun dt => .reqTailWrite dt fn v) (fun a => Reached a fn ∧ free a ∧ (a.fns[fn]).clearing = false)
    (fun a => a.modFn fn fun f => { f with
      reqTail := v.setWidth 6
      doorbells := f.doorbells ++ List.replicate (v.setWidth 6 - f.reqTail).toNat false }) ∧
  Acts (fun dt => .reqTailWrite dt fn v) (fun a => Reached a fn ∧ ¬ free a)
    (fun a => post 0x1110 fn wide (a.modFn fn fun f => { f with indexErr := true }))

/-- REP_HEAD moves forward within the unread replies; any other write is ignored, sets RING_ERR.index and raises event 0x1110
(R81). -/
def Claims.repHeadWrite : Prop :=
  ∀ (fn : Fn) (v : Word),
  let unread (a : State) : Prop := (a.fns[fn]).mode = .ready ∧
    (v.setWidth 6 - (a.fns[fn]).repHead).toNat ≤ ((a.fns[fn]).repTail - (a.fns[fn]).repHead).toNat
  Acts (fun dt => .repHeadWrite dt fn v) (fun a => Reached a fn ∧ unread a)
    (fun a => a.modFn fn fun f => { f with repHead := v.setWidth 6 }) ∧
  Acts (fun dt => .repHeadWrite dt fn v) (fun a => Reached a fn ∧ ¬ unread a)
    (fun a => post 0x1110 fn wide (a.modFn fn fun f => { f with indexErr := true }))

/-- DEVICE_INFO (R108). -/
def Claims.deviceInfo : Prop :=
  Serves .deviceInfo 0x0001 0 false (fun _ h => h.tail 0 = false) stOk
    (fun a h => record [(1, a.start.major), (1, a.start.minor), (1, 0xB0), (1, h.fn), (2, 240), (1, 32),
      (1, measIndex a), (4, a.plan.planId.toNat), (4, a.deviceEpoch.toNat), (8, (nowNs a).toNat),
      (4, queuesOwned a h.fn), (4, 0)]) (fun a _ => a)

/-- RINGS_SET of a BARE function through its porch makes it READY with empty rings (R79, R108). -/
def Claims.ringsSet : Prop :=
  Serves .ringsSet 0x0002 0 false
    (fun a h => h.porch = true ∧ (a.fns[h.fn]).mode = .bare ∧ h.tail 24 = false ∧ zeros h.payload 17 7 = true ∧
      fld h.payload 0 8 % 4096 = 0 ∧ fld h.payload 8 8 % 4096 = 0 ∧ fld h.payload 0 8 + 8192 ≤ 2 ^ 64 ∧
      fld h.payload 8 8 + 8192 ≤ 2 ^ 64 ∧
      (fld h.payload 0 8 + 8192 ≤ fld h.payload 8 8 ∨ fld h.payload 8 8 + 8192 ≤ fld h.payload 0 8) ∧
      (fld h.payload 16 1 ≤ 31 ∨ fld h.payload 16 1 = 0xFF))
    stOk (fun _ _ => [])
    (fun a h => a.modFn h.fn fun f => { f with
      mode := .ready, reqBase := fld h.payload 0 8, repBase := fld h.payload 8 8, repVector := fld h.payload 16 1
      reqTail := 0, reqHead := 0, repTail := 0, repHead := 0, clearing := false })

/-- RINGS_CLEAR of a READY function answers the number of ring requests not yet answered; with none the function is BARE at
once (R108). -/
def Claims.ringsClear : Prop :=
  Serves .ringsClear 0x0003 0 false
    (fun a h => h.porch = true ∧ (a.fns[h.fn]).mode = .ready ∧ h.tail 0 = false ∧
      ((a.fns[h.fn]).doorbells.filter (· == false)).length = 0)
    stOk (fun _ _ => leBytes 4 0) (fun a h => a.modFn h.fn clearRings) ∧
  Serves .ringsClear 0x0003 0 false
    (fun a h => h.porch = true ∧ (a.fns[h.fn]).mode = .ready ∧ h.tail 0 = false ∧
      ((a.fns[h.fn]).doorbells.filter (· == false)).length ≠ 0)
    stOk (fun a h => leBytes 4 ((a.fns[h.fn]).doorbells.filter (· == false)).length)
    (fun a h => a.modFn h.fn fun f => { f with clearing := true })

/-- NOTICE_ROUTE to an owned queue, or to none, answers and clears the count of discarded notices (R88, R108). -/
def Claims.noticeRoute : Prop :=
  (∀ (q : Fin 32), Serves .noticeRoute 0x0004 0 false
    (fun a h => fld h.payload 0 1 = q.val ∧ a.plan.queues[q] = h.fn ∧ h.tail 4 = false ∧ zeros h.payload 1 3 = true)
    stOk (fun a h => leBytes 4 (a.fns[h.fn]).noticesDiscarded.toNat)
    (fun a h => a.modFn h.fn fun f => { f with noticeQueue := some q, noticesDiscarded := 0 })) ∧
  Serves .noticeRoute 0x0004 0 false
    (fun _ h => fld h.payload 0 1 = 0xFF ∧ h.tail 4 = false ∧ zeros h.payload 1 3 = true)
    stOk (fun a h => leBytes 4 (a.fns[h.fn]).noticesDiscarded.toNat)
    (fun a h => a.modFn h.fn fun f => { f with noticeQueue := none, noticesDiscarded := 0 })

/-- ECHO answers the request payload (R108). -/
def Claims.echo : Prop :=
  Serves .echo 0x0005 0 false (fun _ _ => True) stOk (fun _ h => h.payload.take h.length) (fun a _ => a)

/-- QUEUE_SET enables an owned queue that is off (R94, R102, R108): in host memory, or with its entries cleared in PF0's
Millpond grant. -/
def Claims.queueSet : Prop :=
  ∀ (q : Fin 32),
  Serves .queueSet 0x0110 0 false
    (fun a h => fld h.payload 0 1 = q.val ∧ a.plan.queues[q] = h.fn ∧ (a.queues[q]).enabled = false ∧ h.tail 24 = false ∧
      zeros h.payload 20 4 = true ∧ fld h.payload 1 1 = 0 ∧ fld h.payload 2 1 ≤ 1 ∧ entriesBad (fld h.payload 4 4) = false ∧
      fld h.payload 8 8 % 4096 = 0 ∧ (fld h.payload 3 1 ≤ 31 ∨ fld h.payload 3 1 = 0xFF) ∧
      thresholdBad (fld h.payload 16 2) (fld h.payload 18 2) (fld h.payload 4 4) = false ∧
      fld h.payload 8 8 + 16 * fld h.payload 4 4 ≤ 2 ^ 64)
    stOk (fun _ _ => [])
    (fun a h => a.modQueue q fun Q => { Q.off with
      enabled := true, millpond := false, anyOrder := decide (fld h.payload 2 1 = 1), vector := fld h.payload 3 1
      entries := fld h.payload 4 4, base := fld h.payload 8 8, threshold := fld h.payload 16 2
      timeUs := fld h.payload 18 2 }) ∧
  Serves .queueSet 0x0110 0 false
    (fun a h => fld h.payload 0 1 = q.val ∧ a.plan.queues[q] = h.fn ∧ (a.queues[q]).enabled = false ∧ h.tail 24 = false ∧
      zeros h.payload 20 4 = true ∧ fld h.payload 1 1 = 1 ∧ h.fn = 0 ∧ a.start.ident.bar2Enable = true ∧
      inGrant a (fld h.payload 8 8) (16 * fld h.payload 4 4) = true ∧ fld h.payload 2 1 ≤ 1 ∧
      entriesBad (fld h.payload 4 4) = false ∧ fld h.payload 8 8 % 4096 = 0 ∧
      (fld h.payload 3 1 ≤ 31 ∨ fld h.payload 3 1 = 0xFF) ∧
      thresholdBad (fld h.payload 16 2) (fld h.payload 18 2) (fld h.payload 4 4) = false)
    stOk (fun _ _ => [])
    (fun a h => (millWrite (fld h.payload 8 8) (List.replicate (16 * fld h.payload 4 4) 0) a).modQueue q fun Q => { Q.off with
      enabled := true, millpond := true, anyOrder := decide (fld h.payload 2 1 = 1), vector := fld h.payload 3 1
      entries := fld h.payload 4 4, base := fld h.payload 8 8, threshold := fld h.payload 16 2
      timeUs := fld h.payload 18 2 })

/-- QUEUE_CLEAR returns an enabled queue that nothing uses, or a STOPPED one, to its reset values (R105). -/
def Claims.queueClear : Prop :=
  ∀ (q : Fin 32),
  Serves .queueClear 0x0111 0 false
    (fun a h => fld h.payload 0 1 = q.val ∧ a.plan.queues[q] = h.fn ∧ (a.queues[q]).enabled = true ∧
      ((a.queues[q]).stopped = true ∨ queueUser a q = none) ∧ h.tail 4 = false ∧ zeros h.payload 1 3 = true)
    stOk (fun _ _ => []) (fun a _ => a.modQueue q Queue.off)

/-- QUEUE_MODERATE sets the threshold and the timer; entries that already meet either are signalled at once (R101, R102,
R108). -/
def Claims.queueModerate : Prop :=
  ∀ (q : Fin 32),
  let good (a : State) (h : Hamper) : Prop := fld h.payload 0 1 = q.val ∧ a.plan.queues[q] = h.fn ∧
    (a.queues[q]).enabled = true ∧ h.tail 8 = false ∧ zeros h.payload 1 1 = true ∧ zeros h.payload 6 2 = true ∧
    thresholdBad (fld h.payload 2 2) (fld h.payload 4 2) (a.queues[q]).entries = false
  let met (a : State) (h : Hamper) : Prop := (a.queues[q]).unsignalled ≠ 0 ∧
    (fld h.payload 2 2 ≤ (a.queues[q]).unsignalled ∨
      (fld h.payload 4 2 ≠ 0 ∧ ∃ t0, (a.queues[q]).timerFrom = some t0 ∧ t0 + 200 * fld h.payload 4 2 ≤ a.elapsed))
  Serves .queueModerate 0x0112 0 false (fun a h => good a h ∧ ¬ met a h) stOk (fun _ _ => [])
    (fun a h => a.modQueue q fun Q => { Q with threshold := fld h.payload 2 2, timeUs := fld h.payload 4 2 }) ∧
  Serves .queueModerate 0x0112 0 false (fun a h => good a h ∧ met a h) stOk (fun _ _ => [])
    (fun a h => signalQueue q
      (a.modQueue q fun Q => { Q with threshold := fld h.payload 2 2, timeUs := fld h.payload 4 2 }))

/-- A full read of TQ_DROPPED returns the count and clears it (R107). -/
def Claims.tqDroppedRead : Prop :=
  ∀ (fn : Fn) (q : Fin 32),
  Acts (fun dt => .tqDroppedRead dt fn q) (fun a => Reached a fn ∧ a.plan.queues[q] = fn)
    (fun a => emit (.completion fn [(a.queues[q]).dropped]) (a.modQueue q fun Q => { Q with dropped := 0 }))

/-- The moderation timer signals the queue's vector time_us after the first unsignalled entry (R101). -/
def Claims.tqModerationTimer : Prop :=
  ∀ (q : Fin 32) (t0 : Nat),
  Acts (fun dt => .tqModerationTimer dt q)
    (fun a => (a.queues[q]).enabled = true ∧ (a.queues[q]).timeUs ≠ 0 ∧ (a.queues[q]).unsignalled ≠ 0 ∧
      (a.queues[q]).timerFrom = some t0 ∧ t0 + 200 * (a.queues[q]).timeUs ≤ a.elapsed)
    (fun a => signal a.plan.queues[q] (a.queues[q]).vector
      (a.modQueue q fun Q => { Q with unsignalled := 0, timerFrom := none }))

/-- A failed write of an entry stops the queue, with event 0x1114 (R100). -/
def Claims.queueWriteFailed : Prop :=
  ∀ (q : Fin 32),
  Acts (fun dt => .queueWriteFailed dt q) (fun a => (a.queues[q]).enabled = true ∧ (a.queues[q]).stopped = false)
    (fun a => post 0x1114 a.plan.queues[q] q (a.modQueue q fun Q => { Q with stopped := true, owed := true }))

/-- A failed write of a ring reply sets REPLY_ERR with event 0x1112 (R106). -/
def Claims.replyWriteFailed : Prop :=
  ∀ (fn : Fn),
  Acts (fun dt => .replyWriteFailed dt fn)
    (fun a => (a.fns[fn]).mode = .ready ∧ (a.fns[fn]).repTail ≠ (a.fns[fn]).repHead)
    (fun a => post 0x1112 fn wide (a.modFn fn fun f => { f with replyErr := true }))

/-- A hamper whose opcode the running version does not know is answered BAD_OPCODE (R14, R87). -/
def Claims.unknownOpcode : Prop :=
  ∀ (s : State) (dt : Nat) (r : Req) (h : Hamper), Asked (advance dt s) r h h.op 0 false →
    opcodeKnown (advance dt s) h.op = false →
    exec (.unknownOpcode dt r) s = .next (reply h stBadOpcode 0 [] (taken h.fn h.porch (advance dt s)))

/-! ### Clocks and device time -/

/-- A full read of TIME_NS_LO returns the low word of the device time and latches TIME_NS_HI and TIME_FRAC for its function
(R129). -/
def Claims.timeNsLoRead : Prop :=
  ∀ (fn : Fn),
  Acts (fun dt => .timeNsLoRead dt fn) (fun a => Reached a fn)
    (fun a => emit (.completion fn [(nowNs a).setWidth 32]) (a.modFn fn fun f => { f with
      timeHi := ((nowNs a) >>> (32 : Nat)).setWidth 32
      timeFrac := packed [(16, a.clk.stepCount.toNat), (0, stampFrac (now a))] }))

/-- A full read of TDC_DROP returns the count and clears it (R129). -/
def Claims.tdcDropRead : Prop :=
  ∀ (fn : Fn),
  Acts (fun dt => .tdcDropRead dt fn) (fun a => Reached a fn)
    (fun a => emit (.completion fn [a.clk.tdcDrop]) { a with clk := { a.clk with tdcDrop := 0 } })

/-- The interval_ms timer starts a dialogue: the marker of the request is stamped and the request sent (R117, R123); with PTM
Enable clear Fantail goes to HOLDOVER instead, with event 0xA101 (R119, R128). -/
def Claims.ptmDialogueStart : Prop :=
  ∀ (step : Nat),
  let ready (a : State) : Prop := mainRuns a = true ∧ (a.clk.fantail.startedAt = none ∨
    ∃ t0, a.clk.fantail.startedAt = some t0 ∧ t0 + ticksMs a.clk.fantail.intervalMs ≤ a.elapsed)
  Acts (fun dt => .ptmDialogueStart dt step)
    (fun a => ready a ∧ a.link.ptmEnable = true ∧ a.link.up = true ∧ ∀ x ∈ a.clk.tdc, x.line ≠ .ptm)
    (fun a => emit .ptmRequest ((tdcNote .ptm step (a.modFantail fun f => { f with startedAt := some a.elapsed })).modFantail
      fun f => { f with waiting := some (a.elapsed, hold a (now a + BitVec.ofNat 72 (8 * step))) })) ∧
  Acts (fun dt => .ptmDialogueStart dt step)
    (fun a => ready a ∧ a.link.ptmEnable = false ∧ a.clk.fantail.mode ≠ .free)
    (fun a => post 0xA101 wide wide (a.modFantail fun f => { f with
      startedAt := some a.elapsed, waiting := none, state := .holdover, prevOffset := none, within := 0, outside := 0 }))

/-- A PTM response within 1 ms (R118, R119): the round trip is the time between the stamps of the two markers less the time
that the root held the request, and the offset is the device time half a round trip after the request less the root's time. One
whose round trip is too long is discarded with event 0xA103. The first after a change to ACQUIRE only records the offset. One
whose offset moved by more than jump_ns freezes Fantail in HOLDOVER with event 0xA104. In mode RATE any other moves freq by
(e - freq) / n and clamps the rate. -/
def Claims.ptmDialogueResponse : Prop :=
  ∀ (step masterNs turnaroundNs t0 : Nat) (sent d : Held) (p : Rat),
  let heard (a : State) : Prop := a.clk.fantail.waiting = some (t0, sent) ∧ a.elapsed ≤ t0 + ticksMs 1 ∧
    ∀ x ∈ a.clk.tdc, x.line ≠ .ptm
  let noted (a : State) : State := tdcNote .ptm step (a.modFantail fun f => { f with silent := 0 })
  let t1 (a : State) : Int := (release a sent).1.toNat
  let rt (a : State) : Nat := (((now a + BitVec.ofNat 72 (8 * step)).toNat : Int) - t1 a - 256 * turnaroundNs).toNat
  let device (a : State) : Stamp := BitVec.ofInt 72 (t1 a + rt a / 2)
  let o (a : State) : Rat := ((device a).toNat : Rat) / 256 - masterNs
  let valid (a : State) : Prop := heard a ∧ roundTripBad a.clk.fantail.roundTrips (rt a) = false
  Acts (fun dt => .ptmDialogueResponse dt step masterNs turnaroundNs)
    (fun a => heard a ∧ roundTripBad a.clk.fantail.roundTrips (rt a) = true)
    (fun a => post 0xA103 wide wide ((noted a).modFantail fun f => { f with waiting := none })) ∧
  ActsSo (fun dt => .ptmDialogueResponse dt step masterNs turnaroundNs)
    (fun a => valid a ∧ a.clk.fantail.mode ≠ .free ∧ a.clk.fantail.state = .acquire ∧ a.clk.fantail.prevOffset = none)
    (fun a t =>
      t.clk.fantail.prevOffset = some (o a) ∧ t.clk.fantail.dialogues = a.clk.fantail.dialogues + 1 ∧
      t.clk.fantail.rate = a.clk.fantail.rate ∧ t.clk.fantail.waiting = none ∧ t.clk.fantail.validAt = a.elapsed ∧
      t.clk.fantail.state =
        (if |o a| ≤ (a.clk.fantail.lockNs : Rat) ∧ 7 ≤ a.clk.fantail.within then .locked else .acquire)) ∧
  Acts (fun dt => .ptmDialogueResponse dt step masterNs turnaroundNs)
    (fun a => valid a ∧ a.clk.fantail.mode ≠ .free ∧
      (a.clk.fantail.state = .acquire ∨ a.clk.fantail.state = .locked) ∧ a.clk.fantail.prevOffset = some p ∧
      (a.clk.fantail.jumpNs : Rat) < |o a - p|)
    (fun a => post 0xA104 wide wide ((noted a).modFantail fun f => { f with
      jump := true, state := .holdover, waiting := none })) ∧
  ActsSo (fun dt => .ptmDialogueResponse dt step masterNs turnaroundNs)
    (fun a => valid a ∧ a.clk.fantail.mode = .rate ∧ (a.clk.fantail.state = .acquire ∨ a.clk.fantail.state = .locked) ∧
      a.clk.fantail.prevOffset = some p ∧ a.clk.fantail.lastDevice = some d ∧
      |o a - p| ≤ (a.clk.fantail.jumpNs : Rat))
    (fun a t =>
      let between : Rat := (((device a).toNat : Int) - ((release a d).1.toNat : Int) : Rat) / 256
      let e : Rat := (o a - p) / between * 1000000 - a.clk.fantail.r
      let freq : Rat := a.clk.fantail.freq + (e - a.clk.fantail.freq) / (a.clk.fantail.loopDialogues : Rat)
      let m : Rat := a.clk.fantail.maxSlewPpm
      t.clk.fantail.freq = freq ∧ t.clk.fantail.r = max (-m) (min m (-freq)) ∧
      t.clk.fantail.rate = BitVec.ofInt 32 (ratRound (max (-m) (min m (-freq)) * 65536)))

/-- A response missing after 1 ms ends the dialogue with event 0xA102 (R119); the fourth in a row shows that there is no
responder: HOLDOVER with event 0xA101 (R128; four is the model's choice, log entry 54). -/
def Claims.ptmDialogueTimeout : Prop :=
  ∀ (t0 : Nat) (sent : Held),
  let missing (a : State) : Prop := a.clk.fantail.waiting = some (t0, sent) ∧ t0 + ticksMs 1 ≤ a.elapsed
  let ended (a : State) : State := post 0xA102 wide wide (a.modFantail fun f => { f with
    waiting := none, silent := f.silent + 1 })
  Acts (fun dt => .ptmDialogueTimeout dt) (fun a => missing a ∧ a.clk.fantail.silent ≠ 3) ended ∧
  Acts (fun dt => .ptmDialogueTimeout dt) (fun a => missing a ∧ a.clk.fantail.silent = 3)
    (fun a => post 0xA101 wide wide ((ended a).modFantail Fantail.toHoldover))

/-- Four intervals without a valid dialogue: HOLDOVER with event 0xA105 (R119). -/
def Claims.fantailHoldoverTimeout : Prop :=
  Acts (fun dt => .fantailHoldoverTimeout dt)
    (fun a => a.clk.fantail.mode ≠ .free ∧ (a.clk.fantail.state = .acquire ∨ a.clk.fantail.state = .locked) ∧
      a.clk.fantail.validAt + 4 * ticksMs a.clk.fantail.intervalMs ≤ a.elapsed)
    (fun a => post 0xA105 wide wide (a.modFantail fun f => { f with
      state := .holdover, prevOffset := none, within := 0, outside := 0 }))

/-- PTM Enable set stores it; cleared, Fantail goes to HOLDOVER (R119). -/
def Claims.ptmEnableChange : Prop :=
  Acts (fun dt => .ptmEnableChange dt true) (fun _ => True)
    (fun a => { a with
      link := { a.link with ptmEnable := true }
      clk := { a.clk with fantail := { a.clk.fantail with silent := 0 } } }) ∧
  Acts (fun dt => .ptmEnableChange dt false) (fun a => a.clk.fantail.mode ≠ .free)
    (fun a => { a with
      link := { a.link with ptmEnable := false }
      clk := { a.clk with fantail := { a.clk.fantail with
        state := .holdover, prevOffset := none, within := 0, outside := 0, waiting := none } } })

/-- The 1 ms calibration sets TDC_STATUS.cal_ok; a bad one clears it with event 0xA004 (R125). -/
def Claims.tdcCalibration : Prop :=
  Acts (fun dt => .tdcCalibration dt true) (fun _ => True) (fun a => { a with clk := { a.clk with calOk := true } }) ∧
  Acts (fun dt => .tdcCalibration dt false) (fun _ => True)
    (fun a => post 0xA004 wide wide { a with clk := { a.clk with calOk := false } })

/-- A lost crystal or an unlocked PLL is a full reset with cause 0x15, held for 1 100 µs (R127, R492, R494). -/
def Claims.clockLoss : Prop :=
  ∀ (f : ClockFault),
  ActsSo (fun dt => .clockLoss dt f) (fun a => mainRuns a = true ∧ a.pwr.resetHeld = [])
    (fun a t => t.pwr.state = .starting ∧ t.pwr.resetHeld = [.clock] ∧ t.pwr.cause = 0x15 ∧ MainIsReset a t ∧
      t.pwr.releaseAt = some (max (a.elapsed + ticksUs 1100) (a.pwr.releaseAt.getD 0)))

/-- A lost REFCLK takes the link down as DL_Down does, with event 0xA002, and Fantail to HOLDOVER (R127). -/
def Claims.refclkLoss : Prop :=
  Acts (fun dt => .refclkLoss dt) (fun a => mainRuns a = true ∧ a.clk.refclkOk = true)
    (fun a => (linkDown (post 0xA002 wide wide { a with clk := { a.clk with refclkOk := false } })).modFantail
      Fantail.toHoldover)

/-- REFCLK is back (R127). -/
def Claims.refclkRestored : Prop :=
  Acts (fun dt => .refclkRestored dt) (fun _ => True) (fun a => { a with clk := { a.clk with refclkOk := true } })

/-- TIME_STATUS (R130). -/
def Claims.timeStatus : Prop :=
  Serves .timeStatus 0x0A01 0 false (fun _ h => h.tail 0 = false) stOk
    (fun a _ => record [(8, (nowNs a).toNat), (1, stampFrac (now a)), (1, a.clk.fantail.state.code),
      (1, a.clk.fantail.mode.code),
      (1, b2n a.clk.fantail.needsStep + 2 * b2n a.clk.fantail.jump + 4 * b2n (ptmEnabled a)),
      (2, a.clk.stepCount.toNat), (2, 0), (4, a.clk.fantail.offset.toNat), (4, a.clk.fantail.rate.toNat),
      (8, (a.clk.fantail.lastDevice.map (heldNs a)).getD 0), (4, a.clk.wakeOffsetUs.toNat),
      (4, a.clk.fantail.dialogues.toNat)])
    (fun a _ => a)

/-- TIME_STEP by an amount steps device time and answers the amount, the new count of steps and the old time (R121, R122,
R130). -/
def Claims.timeStep : Prop :=
  ∀ (d : Int), d ≠ 0 → d.natAbs ≤ 2 ^ 70 →
  Serves .timeStep 0x0A02 0 true
    (fun a h => sfld h.payload 0 8 * 256 + (fld h.payload 8 1 : Int) = d ∧
      (sfld h.payload 0 8 ≠ 0 ∨ fld h.payload 8 1 ≠ 0) ∧ fld h.payload 9 1 = 0 ∧ h.tail 16 = false ∧
      zeros h.payload 10 6 = true ∧ 0 ≤ ((now a).toNat : Int) + d)
    stOk
    (fun a _ => record [(8, codeOf 64 (d / 256)), (1, (d % 256).toNat), (1, 0), (2, (a.clk.stepCount + 1).toNat), (4, 0),
      (8, (nowNs a).toNat)])
    (fun a _ => stepTime d a) ∧
  ∀ a : State, (stepTime d a).clk.dev = a.clk.dev + BitVec.ofInt 104 (d * 2 ^ 32) ∧
    (stepTime d a).clk.stepCount = a.clk.stepCount + 1 ∧
    (∀ i : Fin 32, (a.streams[i]).isOpen = true → ((stepTime d a).streams[i]).steppedOwed = true)

/-- FANTAIL_CONFIG takes its settings and goes to ACQUIRE, or to FREE with a rate of 0 in mode FREE; a mode that follows FREE
begins with frequency 0 (R118, R120). -/
def Claims.fantailConfig : Prop :=
  ∀ (m : FantailMode) (i n slew lock jump : Nat), m ≠ .free →
  Serves .fantailConfig 0x0A03 0 true
    (fun _ h => fantailSettings h.payload = some (m, i, n, slew, lock, jump) ∧ h.tail 20 = false)
    stOk (fun _ _ => [])
    (fun a _ => a.modFantail fun f => { f with
      mode := m, intervalMs := i, loopDialogues := n, maxSlewPpm := slew, lockNs := lock, jumpNs := jump
      freq := if f.mode = .free then 0 else f.freq, r := if f.mode = .free then 0 else f.r
      needsStep := false, state := .acquire, prevOffset := none, within := 0, outside := 0, jump := false
      validAt := a.elapsed }) ∧
  Serves .fantailConfig 0x0A03 0 true
    (fun _ h => fantailSettings h.payload = some (.free, i, n, slew, lock, jump) ∧ h.tail 20 = false)
    stOk (fun _ _ => []) (fun a _ => a.modFantail (applyFantail (.free, i, n, slew, lock, jump) a.elapsed)) ∧
  ∀ (f : Fantail) (at_ : Nat), (applyFantail (.free, i, n, slew, lock, jump) at_ f).state = .free ∧
    (applyFantail (.free, i, n, slew, lock, jump) at_ f).rate = 0

/-- TIME_CORRELATE answers the last valid dialogue, where no step has come since, on the present time scale (R130). -/
def Claims.timeCorrelate : Prop :=
  ∀ (d : Held),
  Serves .timeCorrelate 0x0A04 1 false
    (fun a h => a.clk.fantail.lastDevice = some d ∧ a.clk.fantail.correlated = true ∧ h.tail 0 = false) stOk
    (fun a _ => record [(8, stampNs (release a d).1), (1, stampFrac (release a d).1), (1, a.clk.fantail.state.code),
      (2, a.clk.fantail.lastSteps.toNat), (4, a.clk.fantail.rate.toNat), (8, a.clk.fantail.lastHostNs.toNat),
      (4, min 0xFFFFFFFF (((nowNs a).toNat - stampNs (release a d).1) / 1000)), (4, 0)])
    (fun a _ => a)

/-! ### Wake, shutdown and supplies -/

/-- A rising CAR_WAKE begins its debounce (R131). -/
def Claims.carWakeRise : Prop :=
  Acts (fun dt => .carWakeRise dt) (fun a => a.pwr.carWake = false ∧ a.pwr.state ≠ .off)
    (fun a => a.modPower fun p => { p with carWake := true, parkFrom := none, debounceFrom := some a.elapsed })

/-- CAR_WAKE high for 1 ms is recognised: it wakes a parked device with cause 0x01 (R131, R132), and in a start it frees the
steps that wait for it (R133). -/
def Claims.carWakeDebounceExpiry : Prop :=
  ∀ (t0 : Nat),
  let high (a : State) : Prop := a.pwr.carWake = true ∧ a.pwr.debounceFrom = some t0 ∧ t0 + ticksMs 1 ≤ a.elapsed
  ActsSo (fun dt => .carWakeDebounceExpiry dt) (fun a => high a ∧ a.pwr.state = .parked)
    (fun a t => t.pwr.state = .starting ∧ t.pwr.pwrEn = true ∧ t.pwr.recognised = true ∧ t.start.cause = 0x01 ∧
      t.clk.wakeAt = t0 ∧ t.pwr.debounceFrom = none ∧ MainIsReset a t) ∧
  Acts (fun dt => .carWakeDebounceExpiry dt)
    (fun a => high a ∧ a.pwr.state = .starting ∧ a.start.core = .valtyn)
    (withEffects fun a => beginReady (a.modPower fun p => { p with debounceFrom := none, recognised := true }))

/-- A falling CAR_WAKE (R134): the hold of park_hold_s begins when PERST# is low too; a pulse shorter than 1 ms raises event
0x8101, after the next release of internal reset where the main domain does not run (R161). -/
def Claims.carWakeFall : Prop :=
  let fallen (a : State) : State := a.modPower fun p => { p with
    carWake := false, debounceFrom := none, parkFrom := if a.link.perstLow then some a.elapsed else none }
  Acts (fun dt => .carWakeFall dt) (fun a => a.pwr.carWake = true ∧ a.pwr.debounceFrom = none) fallen ∧
  ∀ (t0 : Nat),
  Acts (fun dt => .carWakeFall dt)
    (fun a => a.pwr.carWake = true ∧ a.pwr.debounceFrom = some t0 ∧ mainRuns a = true)
    (fun a => post 0x8101 wide wide (fallen a)) ∧
  Acts (fun dt => .carWakeFall dt)
    (fun a => a.pwr.carWake = true ∧ a.pwr.debounceFrom = some t0 ∧ mainRuns a = false)
    (fun a => (fallen a).modPower fun p => { p with deferred := p.deferred ++ [0x8101] })

/-- A falling XTR0 wakes a parked device whose record enables it, with cause 0x03 (R132). -/
def Claims.xtr0WakeEdge : Prop :=
  ActsSo (fun dt => .xtr0WakeEdge dt) (fun a => a.pwr.state = .parked ∧ a.pwr.wakeOnXtr0 = true)
    (fun a t => t.pwr.state = .starting ∧ t.pwr.pwrEn = true ∧ t.pwr.recognised = false ∧ t.start.cause = 0x03 ∧
      t.clk.wakeAt = a.elapsed ∧ MainIsReset a t)

/-- The first application of the always-on supplies is a wake with cause 0x04, and samples STRAP_SRIS (R131, R508). -/
def Claims.aonPowerApply : Prop :=
  ∀ (sris : Bool),
  ActsSo (fun dt => .aonPowerApply dt sris) (fun a => a.pwr.state = .off)
    (fun a t => t.pwr.state = .starting ∧ t.pwr.pwrEn = true ∧ t.pwr.cause = 0x04 ∧ t.start.cause = 0x04 ∧
      t.pwr.strapSris = sris ∧ t.clk.wakeAt = a.elapsed ∧ MainIsReset a t)

/-- The loss of the always-on supplies keeps MRAM: the main domain is as after reset and the log is empty (R494). -/
def Claims.aonPowerLoss : Prop :=
  ActsSo (fun dt => .aonPowerLoss dt) (fun _ => True)
    (fun a t => t.pwr.state = .off ∧ t.pwr.warmCount = 0 ∧ t.log.entries = [] ∧ MainIsReset a t)

/-- The shutdown condition has held for park_hold_s: SHUTDOWN with its journal record, every door closed and both displays in
BYPASS (R134, R164). -/
def Claims.parkHoldExpiry : Prop :=
  ∀ (t0 : Nat),
  ActsSo (fun dt => .parkHoldExpiry dt)
    (fun a => a.pwr.state = .running ∧ mainRuns a = true ∧ a.pwr.parkFrom = some t0 ∧
      t0 + ticksMs (1000 * a.start.outing.parkHoldS) ≤ a.elapsed)
    (fun a t => t.pwr.state = .shutdown ∧ t.pwr.parkFrom = none ∧ t.start.allDoorsClosed = true ∧
      t.guard.paths = a.guard.paths.map GPath.shut ∧ (∀ p : Fin 2, (t.guard.paths[p]).mode = .bypass) ∧
      t.mram = (jot 0x11 0 noInst 0 0 0 0 a).mram)

/-- The main supplies are off: PARKED, or a start for the wake that came in SHUTDOWN (R134, R505). -/
def Claims.mainSuppliesOff : Prop :=
  ActsSo (fun dt => .mainSuppliesOff dt)
    (fun a => a.pwr.state = .shutdown ∧ a.pwr.pwrEn = false ∧ a.pwr.heldWake = none)
    (fun a t => t.pwr.state = .parked ∧ t.pwr.suppliesGood = false ∧ t.log.entries = [] ∧ MainIsReset a t) ∧
  ∀ (t0 : Nat),
  ActsSo (fun dt => .mainSuppliesOff dt)
    (fun a => a.pwr.state = .shutdown ∧ a.pwr.pwrEn = false ∧ a.pwr.heldWake = some (.carWake, t0))
    (fun a t => t.pwr.state = .starting ∧ t.pwr.pwrEn = true ∧ t.start.cause = 0x01 ∧ t.clk.wakeAt = t0 ∧ MainIsReset a t)

/-- The supplies are good within ST01's 40 ms: internal reset is released and the start begins, with device time 0, the next
start number and its bank (R114, R141, R504). -/
def Claims.suppliesGood : Prop :=
  let good (a : State) : Prop := a.pwr.state = .starting ∧ a.pwr.pwrEn = true ∧ a.pwr.suppliesGood = false ∧
    a.pwr.resetHeld = [] ∧ a.elapsed ≤ a.clk.wakeAt + ticksMs 40
  Acts (fun dt => .suppliesGood dt) good
    (fun a => releaseMain a.start.cause (a.modPower fun p => { p with suppliesGood := true })) ∧
  ActsSo (fun dt => .suppliesGood dt) good
    (fun a t => t.pwr.suppliesGood = true ∧ t.clk.dev = 0 ∧ t.start.number = a.mram.lastStart + 1 ∧
      t.mram.lastStart = a.mram.lastStart + 1 ∧ t.start.cause = a.start.cause ∧ t.link.rrsFrom = a.elapsed)

/-! ### The start steps -/

/-- ST02 of an intact slot is DONE, with its loader bytes in M0; of a slot that is not intact it fails (R135, R148, R155).
Within ST03's alternate an intact slot's Valtyn section is measured next. -/
def Claims.slotCheck : Prop :=
  let done (a : State) : State := withEffects (doneStep 2 noInst a.start.trySlot)
    (extend 0 0 (loaderBytes (a.mram.slots[a.start.trySlot]).image) a)
  let runs (a : State) : Prop := inBudget a 2 noInst = some 0 ∨ inBudget a 2 noInst = some 1
  Acts (fun dt => .slotCheck dt)
    (fun a => runs a ∧ intact (a.mram.slots[a.start.trySlot]).image = true ∧ stepRunning a 3 noInst = none) done ∧
  Acts (fun dt => .slotCheck dt)
    (fun a => runs a ∧ intact (a.mram.slots[a.start.trySlot]).image = true ∧ stepRunning a 3 noInst ≠ none)
    (fun a => measureValtyn (done a)) ∧
  Acts (fun dt => .slotCheck dt)
    (fun a => runs a ∧ intact (a.mram.slots[a.start.trySlot]).image = false) (withEffects (failStep 2 noInst 0))

/-- ST03: Valtyn of the slot's version runs, the watchdog is armed, and the log is kept or restored; or it fails (R135, R488,
R489). -/
def Claims.valtynRun : Prop :=
  ∀ (res : StepResult) (route : Nat),
  Acts (fun dt => .valtynRun dt res)
    (fun a => inBudget a 3 noInst = some route ∧ stepEnded a (2, noInst) = true ∧ res.ok = true)
    (fun a => withEffects (doneStep 3 noInst a.start.trySlot) (restoreLog a.log.kept { a with
      start := { a.start with
        core := .valtyn, runningSlot := a.start.trySlot
        major := fld (a.mram.slots[a.start.trySlot]).image 6 1, minor := fld (a.mram.slots[a.start.trySlot]).image 7 1 }
      pwr := { a.pwr with wdtArmed := true, wdtLast := a.elapsed, wdtPause := 0 } })) ∧
  Acts (fun dt => .valtynRun dt res)
    (fun a => inBudget a 3 noInst = some route ∧ stepEnded a (2, noInst) = true ∧ res.ok = false)
    (withEffects (failStep 3 noInst 0))

/-- ST04 (R141, R144 to R146): the learned state that the newest bank folds to is in force and in the header of the start's
bank; where the fold is good the start takes the fast path, else the safe path with event 0x8006. -/
def Claims.journalFold : Prop :=
  ∀ (b : Bank) (l : List Learned) (ok : Bool) (failed : List Record),
  Acts (fun dt => .journalFold dt)
    (fun a => inBudget a 4 noInst = some 0 ∧ newestBank a = some b ∧
      foldBank a.start.cause a.mram.clearAlternate (some b) = (l, ok, false, failed))
    (fun a => withEffects (doneStep 4 noInst 0) (foldApplies l ok (closeRecords b failed a))) ∧
  ∀ (a : State), foldApplies l true a = (modBank (fun b => { b with
      path := 0, fwSlot := a.start.runningSlot, major := a.start.major, minor := a.start.minor, learned := l
      headerGood := true, learnedGood := true })
    (a.modStart fun x => { x with learned := l, safePath := false })).modMram (fun m => { m with clearAlternate := [] }) ∧
  foldApplies l false a = (modBank (fun b => { b with
      path := 1, fwSlot := a.start.runningSlot, major := a.start.major, minor := a.start.minor, learned := l
      headerGood := true, learnedGood := true })
    ((post 0x8006 wide wide a).modStart fun x => { x with learned := l, safePath := true })).modMram
      (fun m => { m with clearAlternate := [] })

/-- ST05 reads the copy that was active when the start began: a good record is put in force (R135); a bad copy raises event
0x9003 and fails the route. -/
def Claims.outingRecord : Prop :=
  ∀ (o : Outing),
  Acts (fun dt => .outingRecord dt)
    (fun a => inBudget a 5 noInst = some 0 ∧ decodeOuting a.mram.copies[a.start.ident.activeCopy] = some o)
    (fun a => withEffects (doneStep 5 noInst a.start.ident.activeCopy)
      (applyOuting (some a.start.ident.activeCopy) o a)) ∧
  Acts (fun dt => .outingRecord dt)
    (fun a => inBudget a 5 noInst = some 0 ∧ decodeOuting a.mram.copies[a.start.ident.activeCopy] = none)
    (fun a => withEffects (failStep 5 noInst 0x9003) (post 0x9003 wide a.start.ident.activeCopy a))

/-- ST06 builds the surfaces of the record, or fails (R135, R195). -/
def Claims.guardianSurfaces : Prop :=
  ∀ (res : StepResult),
  Acts (fun dt => .guardianSurfaces dt res) (fun a => inBudget a 6 noInst = some 0 ∧ res.ok = true)
    (fun a => withEffects (fun a => doneStep 6 noInst 0 (buildSurfaces false a)) a) ∧
  Acts (fun dt => .guardianSurfaces dt res) (fun a => inBudget a 6 noInst = some 0 ∧ res.ok = false)
    (withEffects (failStep 6 noInst 0))

/-- ST07: the TSL line is listened to (R135). -/
def Claims.tslReceive : Prop :=
  Acts (fun dt => .tslReceive dt) (fun a => inBudget a 7 noInst = some 0)
    (fun a => withEffects (fun a => doneStep 7 noInst 0 (a.modTsl fun t => { t with on := true, lastAt := a.elapsed })) a)

/-- ST08 and ST09: a trained panel link is DONE with its settings as the detail word; a link that did not train fails
(R135, R143). -/
def Claims.panelLinkTrained : Prop :=
  ∀ (p : Fin 2) (l : LinkSettings),
  Acts (fun dt => .panelLinkTrained dt p (some l)) (fun a => inBudget a (8 + p) p = some 0)
    (fun a => withEffects (fun a => doneStep (8 + p) p (linkDetail l) (panelLink p a)) a) ∧
  Acts (fun dt => .panelLinkTrained dt p none) (fun a => inBudget a (8 + p) p = some 0)
    (withEffects (failStep (8 + p) p 0))

/-- ST10 shows the early picture of a path in EARLY, or fails (R135). -/
def Claims.earlyPicture : Prop :=
  ∀ (p : Fin 2) (res : StepResult),
  Acts (fun dt => .earlyPicture dt p res) (fun a => inBudget a 10 p = some 0 ∧ res.ok = true)
    (fun a => withEffects (fun a => doneStep 10 p 0 (a.modPath p fun x => { x with showing := x.mode == .early })) a) ∧
  Acts (fun dt => .earlyPicture dt p res) (fun a => inBudget a 10 p = some 0 ∧ res.ok = false)
    (withEffects (failStep 10 p 0))

/-- ST11 is DONE when the rear port has locked at its gear and profile, which are the detail word; or it fails (R143, R216,
R217). -/
def Claims.rearCameraLink : Prop :=
  ∀ (p : Fin 8) (res : StepResult) (gear profile : Nat),
  Acts (fun dt => .rearCameraLink dt res gear profile)
    (fun a => a.start.outing.rearPort = some p ∧ inBudget a 11 p = some 0 ∧ res.ok = true ∧ (a.ports[p]).mode ≠ .off ∧
      (a.ports[p]).cfg.gear ≤ gear ∧ gear ≤ 5 ∧ profile = (a.ports[p]).cfg.profile)
    (fun a => withEffects (fun a => doneStep 11 p (gear + 256 * profile) (portLockedAt p gear a)) a) ∧
  Acts (fun dt => .rearCameraLink dt res gear profile)
    (fun a => a.start.outing.rearPort = some p ∧ inBudget a 11 p = some 0 ∧ res.ok = false)
    (withEffects (failStep 11 p 0))

/-- ST12 runs the rear sensor's script, read back on its alternate: DONE once it has reached END and a frame has arrived, and
failed where the script fails (R135, R235). -/
def Claims.rearSensor : Prop :=
  ∀ (p : Fin 8) (answers : List (List I2cAnswer)) (frame : Bool) (route : Nat), route = 0 ∨ route = 1 →
  let script (a : State) : Bool × State := sensorRuns p (route == 1) answers a
  Acts (fun dt => .rearSensor dt answers true)
    (fun a => a.start.outing.rearPort = some p ∧ inBudget a 12 p = some route ∧ (script a).1 = true)
    (fun a => withEffects (doneStep 12 p 0) (script a).2) ∧
  Acts (fun dt => .rearSensor dt answers false)
    (fun a => a.start.outing.rearPort = some p ∧ inBudget a 12 p = some route ∧ (script a).1 = true)
    (fun a => (script a).2) ∧
  Acts (fun dt => .rearSensor dt answers frame)
    (fun a => a.start.outing.rearPort = some p ∧ inBudget a 12 p = some route ∧ (script a).1 = false)
    (fun a => withEffects (failStep 12 p 0) (script a).2)

/-- ST13 ends DONE or FAILED with the insertion of the rear picture (R135). -/
def Claims.rearInsertion : Prop :=
  ∀ (res : StepResult),
  Acts (fun dt => .rearInsertion dt res) (fun a => inBudget a 13 1 = some 0)
    (withEffects (if res.ok then doneStep 13 1 0 else failStep 13 1 0))

/-- ST14 makes the store AVAILABLE at the rate and size that the training found, of 2 to 16 GiB; or it fails (R18, R135, R376,
R377). -/
def Claims.lpddr5xTraining : Prop :=
  ∀ (res : StepResult) (mts gib : Nat),
  Acts (fun dt => .lpddr5xTraining dt res mts gib)
    (fun a => inBudget a 14 noInst = some 0 ∧ res.ok = true ∧ 2 ≤ gib ∧ gib ≤ 16)
    (fun a => withEffects (fun a => doneStep 14 noInst 0 (a.modWeir fun w => { w with
      store := .available, mts := mts, gib := gib })) a) ∧
  Acts (fun dt => .lpddr5xTraining dt res mts gib) (fun a => inBudget a 14 noInst = some 0 ∧ res.ok = false)
    (withEffects (failStep 14 noInst 0))

/-- ST15 of a port is DONE when the port has locked at its gear and profile, its script has reached END and a frame has
arrived (R135, R217, R234, R235); it fails where the port does not lock. -/
def Claims.cameraPortStart : Prop :=
  ∀ (p : Fin 8) (res : StepResult) (gear profile : Nat) (answers : List (List I2cAnswer)) (frame : Bool),
  Acts (fun dt => .cameraPortStart dt p res gear profile answers true)
    (fun a => inBudget a 15 p = some 0 ∧ res.ok = true ∧ (a.ports[p]).mode ≠ .off ∧
      (a.ports[p]).cfg.gear ≤ gear ∧ gear ≤ 5 ∧ profile = (a.ports[p]).cfg.profile ∧
      (sensorRuns p false answers (portLockedAt p gear a)).1 = true)
    (fun a => withEffects (doneStep 15 p (gear + 256 * profile)) (sensorRuns p false answers (portLockedAt p gear a)).2) ∧
  Acts (fun dt => .cameraPortStart dt p res gear profile answers frame)
    (fun a => inBudget a 15 p = some 0 ∧ res.ok = false) (withEffects (failStep 15 p 0))

/-- ST16 applies the record's position defaults in order; a refused one fails the step (R269). -/
def Claims.positionChannels : Prop :=
  Acts (fun dt => .positionChannels dt) (fun a => inBudget a 16 noInst = some 0 ∧ (applyPositions a).2 = true)
    (fun a => withEffects (doneStep 16 noInst 0) (applyPositions a).1) ∧
  Acts (fun dt => .positionChannels dt) (fun a => inBudget a 16 noInst = some 0 ∧ (applyPositions a).2 = false)
    (fun a => withEffects (failStep 16 noInst 0) (applyPositions a).1)

/-- ST17 applies the record's audio defaults in order; a refused one fails the step (R372). -/
def Claims.audioInputs : Prop :=
  Acts (fun dt => .audioInputs dt) (fun a => inBudget a 17 noInst = some 0 ∧ (applyAudio a).2 = true)
    (fun a => withEffects (doneStep 17 noInst 0) (applyAudio a).1) ∧
  Acts (fun dt => .audioInputs dt) (fun a => inBudget a 17 noInst = some 0 ∧ (applyAudio a).2 = false)
    (fun a => withEffects (failStep 17 noInst 0) (applyAudio a).1)

/-- ST18 configures and arms the witness as the record says; a refused setting fails the step (R460). -/
def Claims.witnessArmStep : Prop :=
  Acts (fun dt => .witnessArmStep dt) (fun a => inBudget a 18 noInst = some 0 ∧ (applyWitness a).2 = true)
    (fun a => withEffects (doneStep 18 noInst 0) (applyWitness a).1) ∧
  Acts (fun dt => .witnessArmStep dt) (fun a => inBudget a 18 noInst = some 0 ∧ (applyWitness a).2 = false)
    (fun a => withEffects (failStep 18 noInst 0) (applyWitness a).1)

/-- ST19 closes the start: start_done is set and the part is RUNNING (R135). -/
def Claims.startDone : Prop :=
  Acts (fun dt => .startDone dt) (fun a => inBudget a 19 noInst = some 0) (withEffects startCloses) ∧
  ∀ (a : State), inBudget a 19 noInst = some 0 → (startCloses a).start.startDone = true ∧ (startCloses a).pwr.state = .running

/-- A step past its budget is FAILED and its block's door closes, with cause 0x8002 for a panel or camera step (R136, R161);
for ST01, which cannot fail before Valtyn can record it, the lateness is held. -/
def Claims.startStepTimeout : Prop :=
  ∀ (step inst t0 : Nat),
  (step ≠ 1 → Acts (fun dt => .startStepTimeout dt step inst)
    (fun a => mainRuns a = true ∧ stepRunning a step inst = some (0, t0) ∧ t0 + ticksMs (budget step 0) ≤ a.elapsed)
    (fun a => withEffects (failStep step inst (failCause step)) (a.modStart fun x => { x with
      closed := x.closed.filter (· != (step, inst)) ++ [(step, inst)] }))) ∧
  Acts (fun dt => .startStepTimeout dt 1 inst)
    (fun a => a.pwr.state = .starting ∧ a.pwr.suppliesGood = false ∧ a.pwr.resetHeld = [] ∧
      a.clk.wakeAt + ticksMs 40 ≤ a.elapsed)
    (fun a => a.modPower fun p => { p with st01Late := true })

/-- A late retry of a step that only reports success ends DONE, and the next retry begins (R138). -/
def Claims.lateRetry : Prop :=
  ∀ (step inst detail : Nat) (res : StepResult) (answers : List (List I2cAnswer)) (frame : Bool),
  step ∉ [2, 5, 15, 16, 17, 18] → res.ok = true →
  Acts (fun dt => .lateRetry dt step inst res detail answers frame) (fun a => inBudget a step inst = some 2)
    (withEffects fun a => retryEnds step inst true 0 0 (a.modStart fun x => { x with
      closed := x.closed.filter (· != (step, inst)) }))

/-- The AVS code moves one step towards its target, at most once in each 1 ms (R502). -/
def Claims.avsStep : Prop :=
  let ready (a : State) : Prop := mainRuns a = true ∧
    (a.pwr.avsAt = none ∨ ∃ t0, a.pwr.avsAt = some t0 ∧ t0 + ticksMs 1 ≤ a.elapsed)
  Acts (fun dt => .avsStep dt) (fun a => ready a ∧ a.pwr.avsCode < avsTarget a.pwr)
    (fun a => a.modPower fun p => { p with avsCode := p.avsCode + 1, avsAt := some a.elapsed }) ∧
  Acts (fun dt => .avsStep dt) (fun a => ready a ∧ avsTarget a.pwr < a.pwr.avsCode)
    (fun a => a.modPower fun p => { p with avsCode := p.avsCode - 1, avsAt := some a.elapsed })

/-! ### Provisioning, firmware, outing record and measurement -/

/-- PROVISION of an unlocked identity is ACCEPTED, with or without a certificate chain; of a locked one it is WRONG_STATE
(R162). -/
def Claims.provision : Prop :=
  Serves .provision 0x0009 0 true
    (fun a h => a.mram.identity.lock = false ∧ h.tail 24 = false ∧ fld h.payload 4 1 ≤ 7 ∧ zeros h.payload 5 3 = true ∧
      (bufferAt h.payload 8).reserved = false ∧
      (bit (fld h.payload 4 1) 2 = true → bufferBad a h.fn (bufferAt h.payload 8) = false))
    stAccepted (fun _ _ => []) (fun a h => accept h 0 a) ∧
  Serves .provision 0x0009 0 true (fun a _ => a.mram.identity.lock = true) stWrongState (fun _ _ => []) (fun a _ => a)

/-- Provisioning writes the subsystem IDs, the BAR2 enable, the lock, and the certificate chain where one is given (R162); a
buffer that cannot be read ends it BUS_ERROR and writes nothing. The count of bytes is the model's reading (log entry 54). -/
def Claims.provisionDone : Prop :=
  ∀ (cert : Fetched) (x : Accepted) (c : List Byte),
  let written (a : State) (n : Nat) (chain : List Byte) : State :=
    hamperDone 0x0009 0 stOk (BitVec.ofNat 32 (5 + n)) (a.modMram fun m => { m with identity := { m.identity with
      subsysVendor := BitVec.ofNat 16 (fld x.payload 0 2), subsysId := BitVec.ofNat 16 (fld x.payload 2 2)
      bar2Enable := bit (fld x.payload 4 1) 0, lock := m.identity.lock || bit (fld x.payload 4 1) 1, cert := chain } })
  Acts (fun dt => .provisionDone dt cert)
    (fun a => findAccepted a 0x0009 0 = some x ∧ bit (fld x.payload 4 1) 2 = false)
    (fun a => written a 0 a.mram.identity.cert) ∧
  Acts (fun dt => .provisionDone dt cert)
    (fun a => findAccepted a 0x0009 0 = some x ∧ bit (fld x.payload 4 1) 2 = true ∧
      bufferRead a x.fn (bufferAt x.payload 8) cert = .data c)
    (fun a => written a c.length c) ∧
  Acts (fun dt => .provisionDone dt cert)
    (fun a => findAccepted a 0x0009 0 = some x ∧ bit (fld x.payload 4 1) 2 = true ∧
      bufferRead a x.fn (bufferAt x.payload 8) cert = .failed)
    (hamperDone 0x0009 0 stBusError 0)

/-- MEAS_REPORT with a buffer of at least 944 bytes, or 17,328 with the log, is ACCEPTED (R158, R162). -/
def Claims.measReport : Prop :=
  Serves .measReport 0x0B01 0 false
    (fun a h => h.tail 52 = false ∧ fld h.payload 0x20 1 ≤ 1 ∧ zeros h.payload 0x21 3 = true ∧
      bufferBad a h.fn (bufferAt h.payload 0x24) = false ∧
      (if bit (fld h.payload 0x20 1) 0 then 17328 else 944) ≤ (bufferAt h.payload 0x24).length)
    stAccepted (fun _ _ => []) (fun a h => accept h h.fn a)

/-- The first report in progress is written, its body followed by a signature of the SHA-384 of the body; one that could not
be written ends BUS_ERROR (R158). -/
def Claims.measReportDone : Prop :=
  ∀ (x : Accepted),
  Acts (fun dt => .measReportDone dt true)
    (fun a => (a.accepted.find? fun y => y.op == 0x0B01) = some x)
    (fun a =>
      let body := reportBody a (slice x.payload 0 32) (bit (fld x.payload 0x20 1) 0)
      let bytes := body ++ (signBytes body a).1
      hamperDone 0x0B01 x.index stOk (BitVec.ofNat 32 bytes.length)
        (bufferWrite x.fn (bufferAt x.payload 0x24) 0 bytes (draw a).2)) ∧
  Acts (fun dt => .measReportDone dt false)
    (fun a => (a.accepted.find? fun y => y.op == 0x0B01) = some x) (hamperDoneFree 0x0B01 x.index stBusError)

/-- FW_STAGE of a slot that does not run, with a good header, empties the slot and is ACCEPTED; of the running slot it is
WRONG_STATE (R162). -/
def Claims.fwStage : Prop :=
  ∀ (slot : Fin 2) (f : Fetched) (d : List Byte),
  Serves (fun dt r => .fwStage dt r f) 0x0B02 0 true
    (fun a h => fld h.payload 0 1 = slot.val ∧ a.start.runningSlot ≠ slot ∧ h.tail 24 = false ∧
      zeros h.payload 1 7 = true ∧ bufferBad a h.fn (bufferAt h.payload 8) = false ∧
      0x100 ≤ (bufferAt h.payload 8).length ∧ (bufferAt h.payload 8).length ≤ 0x200000 ∧
      bufferRead a h.fn (bufferAt h.payload 8) f = .data d ∧ headerGood d = true ∧
      0x100 ≤ d.length ∧ fld d 0x1C 4 ≤ (bufferAt h.payload 8).length)
    stAccepted (fun _ _ => [])
    (fun a h => (accept h slot a).modMram fun m => { m with slots := m.slots.set slot ⟨.staging, []⟩ }) ∧
  Serves (fun dt r => .fwStage dt r f) 0x0B02 0 true
    (fun a h => fld h.payload 0 1 = slot.val ∧ a.start.runningSlot = slot)
    stWrongState (fun _ _ => []) (fun a _ => a)

/-- Staging ends: an intact image makes the slot VALID, any other INVALID with event 0x9008 (R148, R161, R162). -/
def Claims.fwStageDone : Prop :=
  ∀ (x : Accepted) (slot : Fin 2) (f : Fetched) (d : List Byte),
  let staged (a : State) : Prop := (a.accepted.find? fun y => y.op == 0x0B02) = some x ∧ x.index = slot.val ∧
    bufferRead a x.fn (bufferAt x.payload 8) f = .data d
  Acts (fun dt => .fwStageDone dt f) (fun a => staged a ∧ intact d = true)
    (fun a => hamperDoneFree 0x0B02 slot stOk (a.modMram fun m => { m with slots := m.slots.set slot ⟨.valid, d⟩ })) ∧
  Acts (fun dt => .fwStageDone dt f) (fun a => staged a ∧ intact d = false)
    (fun a => hamperDoneFree 0x0B02 slot stAborted (post 0x9008 wide slot (a.modMram fun m => { m with
      slots := m.slots.set slot ⟨.invalid, d⟩ })))

/-- FW_ACTIVATE of a VALID slot makes it active for the next start, or arms a live switch to it (R144, R151). -/
def Claims.fwActivate : Prop :=
  ∀ (slot : Fin 2),
  Serves .fwActivate 0x0B03 0 true
    (fun a h => fld h.payload 0 1 = slot.val ∧ fld h.payload 1 1 = 0 ∧ (a.mram.slots[slot]).state = .valid ∧
      h.tail 4 = false ∧ zeros h.payload 2 2 = true)
    stOk (fun _ _ => [])
    (fun a _ => a.modMram fun m => { m with
      identity := { m.identity with activeSlot := slot }
      clearAlternate := if m.identity.activeSlot = slot then m.clearAlternate else m.clearAlternate ++ [2, 3] }) ∧
  Serves .fwActivate 0x0B03 0 true
    (fun a h => fld h.payload 0 1 = slot.val ∧ fld h.payload 1 1 = 1 ∧ (a.mram.slots[slot]).state = .valid ∧
      h.tail 4 = false ∧ zeros h.payload 2 2 = true ∧ a.start.runningSlot ≠ slot ∧
      fld (a.mram.slots[slot]).image 6 1 = a.start.major ∧ a.start.live = .idle)
    stOk (fun _ _ => []) (fun a _ => a.modStart fun x => { x with live := .armed slot a.elapsed })

/-- OUTING_WRITE of the copy that is not active is ACCEPTED; of the active one WRONG_STATE (R148, R162). -/
def Claims.outingWrite : Prop :=
  ∀ (copy : Fin 2),
  Serves .outingWrite 0x0B04 0 true
    (fun a h => fld h.payload 0 1 = copy.val ∧ a.mram.identity.activeCopy ≠ copy ∧ h.tail 24 = false ∧
      fld h.payload 1 1 ≤ 1 ∧ zeros h.payload 2 6 = true ∧ bufferBad a h.fn (bufferAt h.payload 8) = false ∧
      (bufferAt h.payload 8).length ≤ 0x100000)
    stAccepted (fun _ _ => []) (fun a h => accept h copy a) ∧
  Serves .outingWrite 0x0B04 0 true (fun a h => fld h.payload 0 1 = copy.val ∧ a.mram.identity.activeCopy = copy)
    stWrongState (fun _ _ => []) (fun a _ => a)

/-- Once ST05 has ended, the copy is written: a record that decodes ends OK and, if asked, makes its copy active; one that does
not ends ABORTED with the byte of its first failure and event 0x9003 (R161, R162). -/
def Claims.outingWriteDone : Prop :=
  ∀ (x : Accepted) (copy : Fin 2) (f : Fetched) (d : List Byte) (off : Nat),
  let read (a : State) : Prop := (a.accepted.find? fun y => y.op == 0x0B04) = some x ∧ x.index = copy.val ∧
    stepEnded a (5, noInst) = true ∧ bufferRead a x.fn (bufferAt x.payload 8) f = .data d
  let held (a : State) : State := a.modMram fun m => { m with copies := m.copies.set copy d }
  Acts (fun dt => .outingWriteDone dt f) (fun a => read a ∧ outingError d = none)
    (fun a => hamperDone 0x0B04 copy stOk 0 (if bit (fld x.payload 1 1) 0 then activateCopy copy (held a) else held a)) ∧
  Acts (fun dt => .outingWriteDone dt f) (fun a => read a ∧ outingError d = some off)
    (fun a => hamperDone 0x0B04 copy stAborted (BitVec.ofNat 32 off) (post 0x9003 wide copy (held a)))

/-- JOURNAL_READ writes a good bank of the last 16 starts into the buffer (R162). -/
def Claims.journalRead : Prop :=
  ∀ (k : Bank),
  Serves .journalRead 0x0B05 0 false
    (fun a h => h.tail 24 = false ∧ fld h.payload 0 1 ≤ 15 ∧ zeros h.payload 1 7 = true ∧
      bufferBad a h.fn (bufferAt h.payload 8) = false ∧ 16384 ≤ (bufferAt h.payload 8).length ∧ k.headerGood = true ∧
      k.startNumber = a.start.number - BitVec.ofNat 32 (fld h.payload 0 1) ∧
      a.mram.banks[bankOf k.startNumber] = some k)
    stOk (fun _ _ => record [(4, k.startNumber.toNat), (4, 16384)])
    (fun a h => bufferWrite h.fn (bufferAt h.payload 8) 0 (bankBytes k) a)

/-- JOURNAL_CLEAR appends its record, which the next fold takes as the end of everything learned (R144, R162). -/
def Claims.journalClear : Prop :=
  Serves .journalClear 0x0B06 0 true (fun _ h => h.tail 0 = false) stOk (fun _ _ => [])
    (fun a _ => jot 0x12 0 noInst 0 0 0 0 a) ∧
  ∀ (l : List Learned) (r : Record), r.kind = 0x12 → foldRecord l r = []

/-- SLOT_SELECT makes a VALID slot and a copy that decodes active, or either alone; a slot that is not VALID is WRONG_STATE
(R162). -/
def Claims.slotSelect : Prop :=
  ∀ (f c : Fin 2),
  let slotGood (a : State) (h : Hamper) : Prop := fld h.payload 0 1 = f.val ∧ (a.mram.slots[f]).state = .valid
  let copyGood (a : State) (h : Hamper) : Prop := fld h.payload 1 1 = c.val ∧ outingError a.mram.copies[c] = none
  let clean (h : Hamper) : Prop := h.tail 4 = false ∧ zeros h.payload 2 2 = true
  Serves .slotSelect 0x0B07 1 true (fun a h => slotGood a h ∧ copyGood a h ∧ clean h)
    stOk (fun _ _ => []) (fun a _ => activateCopy c (activateSlot f a)) ∧
  Serves .slotSelect 0x0B07 1 true (fun a h => slotGood a h ∧ fld h.payload 1 1 = 0xFF ∧ clean h)
    stOk (fun _ _ => []) (fun a _ => activateSlot f a) ∧
  Serves .slotSelect 0x0B07 1 true (fun a h => fld h.payload 0 1 = 0xFF ∧ copyGood a h ∧ clean h)
    stOk (fun _ _ => []) (fun a _ => activateCopy c a) ∧
  Serves .slotSelect 0x0B07 1 true
    (fun a h => fld h.payload 0 1 = f.val ∧ fld h.payload 1 1 = 0xFF ∧ (a.mram.slots[f]).state ≠ .valid)
    stWrongState (fun _ _ => []) (fun a _ => a)

/-- At the quiet point of an armed switch, with every fetched hamper answered and no commit in progress, the door closes and
M1 and M5 are extended (R91, R151, R152, R155). -/
def Claims.liveQuietPoint : Prop :=
  ∀ (slot : Fin 2) (t0 : Nat),
  Acts (fun dt => .liveQuietPoint dt)
    (fun a => a.start.live = .armed slot t0 ∧ a.accepted = [] ∧ a.owed = [] ∧ commitBusy a = false)
    (fun a => extend 5 1 (updateEntry (a.start.major, a.start.minor) (imageVersion (a.mram.slots[slot]).image) slot false)
      (extend 1 1 (valtynBytes (a.mram.slots[slot]).image)
        (a.modStart fun x => { x with live := .switching slot a.elapsed, doorClosed := true })))

/-- No quiet point within 2 s: UPDATE_DONE with TIMEOUT (R151). -/
def Claims.liveArmTimeout : Prop :=
  ∀ (slot : Fin 2) (t0 : Nat),
  Acts (fun dt => .liveArmTimeout dt) (fun a => a.start.live = .armed slot t0 ∧ t0 + ticksMs 2000 ≤ a.elapsed)
    (fun a => noticeAll nUpdateDone (versionWord (imageVersion (a.mram.slots[slot]).image)) stTimeout 0
      (a.modStart fun x => { x with live := .idle }))

/-- The new image opens the door within 20 ms: it runs, is active and journalled, and UPDATE_DONE is sent (R152). -/
def Claims.liveSwitchOpen : Prop :=
  ∀ (slot : Fin 2) (t0 : Nat) (v : Nat × Nat),
  Acts (fun dt => .liveSwitchOpen dt)
    (fun a => a.start.live = .switching slot t0 ∧ a.elapsed < t0 + ticksMs 20 ∧
      imageVersion (a.mram.slots[slot]).image = v)
    (fun a => noticeAll nUpdateDone (versionWord v) stOk 0 (jot 0x13 0 noInst 0 0 0 (256 * v.1 + v.2)
      (activateSlot slot (a.modStart fun x => { x with
        live := .idle, doorClosed := false, runningSlot := slot, major := v.1, minor := v.2 }))))

/-- No door by 20 ms: the old image runs on behind an open door, its section and the revert are measured, and event 0x9005 is
raised (R153, R155). -/
def Claims.liveSwitchRevert : Prop :=
  ∀ (slot : Fin 2) (t0 : Nat),
  Acts (fun dt => .liveSwitchRevert dt)
    (fun a => a.start.live = .switching slot t0 ∧ t0 + ticksMs 20 ≤ a.elapsed)
    (fun a =>
      let v := imageVersion (a.mram.slots[slot]).image
      post 0x9005 wide slot (noticeAll nUpdateDone (versionWord v) stTimeout 0
        (jot 0x13 0 noInst 0 0 0 (65536 + 256 * v.1 + v.2)
          ((extend 5 1 (updateEntry (a.start.major, a.start.minor) v slot true)
            (extend 1 1 (valtynBytes (a.mram.slots[a.start.runningSlot]).image) a)).modStart fun x =>
              { x with live := .idle, doorClosed := false }))))

/-- The debug port opens: the debug state extends M6 (R155); where it holds the core halted the watchdog pauses (R489). -/
def Claims.debugPortOpen : Prop :=
  let opened (a : State) : State := extend 6 3 (record [(1, 1), (7, 0), (8, (nowNs a).toNat)]) { a with
    meas := { a.meas with debugOpen := true } }
  Acts (fun dt => .debugPortOpen dt false) (fun a => a.meas.debugOpen = false ∧ mainRuns a = true) opened ∧
  Acts (fun dt => .debugPortOpen dt true)
    (fun a => a.meas.debugOpen = false ∧ mainRuns a = true ∧ a.pwr.wdtHalt = none)
    (fun a => (opened a).modPower fun p => { p with wdtHalt := some a.elapsed })

/-- The debug port closes: the debug state extends M6 (R155); a watchdog that it paused runs on, its pause not counted
(R489). -/
def Claims.debugPortClose : Prop :=
  let closed (a : State) : State := extend 6 3 (record [(1, 0), (7, 0), (8, (nowNs a).toNat)]) { a with
    meas := { a.meas with debugOpen := false } }
  Acts (fun dt => .debugPortClose dt)
    (fun a => a.meas.debugOpen = true ∧ mainRuns a = true ∧ a.pwr.wdtHalt = none) closed ∧
  ∀ (t0 : Nat),
  Acts (fun dt => .debugPortClose dt)
    (fun a => a.meas.debugOpen = true ∧ mainRuns a = true ∧ a.pwr.wdtHalt = some t0)
    (fun a => (closed a).modPower fun p => { p with
      wdtHalt := none, wdtPause := p.wdtPause + (a.elapsed - max t0 p.wdtLast) })

/-- An SPDM request in sequence is answered, with a signature where it asks one, and moves the connection; a malformed one or
one out of sequence is answered with an error, and raises event 0x9101 (R159, R161). The encodings of requests and responses
are the model's (log entry 8). -/
def Claims.spdmRequest : Prop :=
  ∀ (msg : List Byte) (q : SpdmReq) (c : Spdm),
  let heard (a : State) : Prop := a.link.up = true ∧ (a.fns[(0 : Fn)]).mode ≠ .fencing
  ActsSo (fun dt => .spdmRequest dt msg)
    (fun a => heard a ∧ spdmReq a msg = some q ∧ spdmSequence q a.meas.spdm = some c)
    (fun a t => ∃ sig : List Byte, (sig = [] ∨ sig.length = 96) ∧
      t = emit (.spdm ((spdmResponse a q).1 ++ sig)) { (draw a).2 with meas := { a.meas with spdm := c } }) ∧
  Acts (fun dt => .spdmRequest dt msg) (fun a => heard a ∧ spdmNext a msg = none)
    (fun a => post 0x9101 wide wide (emit (.spdm (spdmError a msg)) a))

/-- The compact report is signed: its nonce, the start number, the extension count, the version, the running slot, the
measurement index, and the digest of the measurement slots (R160, R175). -/
def Claims.compactReportReady : Prop :=
  ∀ (nonce : List Byte),
  ActsSo (fun dt => .compactReportReady dt) (fun a => a.meas.compact = .pending nonce)
    (fun a t => ∃ sig : List Byte, sig.length = 96 ∧
      t.meas = { a.meas with compact := .ready (padTo 16 (nonce.take 16) ++ record [(4, a.start.number.toNat),
        (4, a.meas.count.toNat), (1, a.start.major), (1, a.start.minor), (1, a.start.runningSlot),
        (1, a.meas.count.toNat % 256)] ++ sha384 a.meas.slots.toList.flatten ++ sig) })

/-! ### The display guardian -/

/-- A TSL frame is answered with the reply of R174. A bad CRC is discarded with event 0x4101, a repeated alive with 0x4105
(R173). The first good STATE frame makes the codes and the reverse bit the state in use (R171, R176). -/
def Claims.tslFrame : Prop :=
  ∀ (bytes : List Byte), bytes.length = 40 → fld bytes 0 1 = 0xA5 →
  (crc8 (bytes.take 39) ≠ fld bytes 39 1 →
    Acts (fun dt => .tslFrame dt bytes) (fun a => a.guard.tsl.on = true ∧ mainRuns a = true)
      (fun a => tslDiscard 0x4101 (emit (.tsl (tslReply a)) a))) ∧
  (crc8 (bytes.take 39) = fld bytes 39 1 → fld bytes 1 1 = 1 → fld bytes 3 1 ≤ 1 → zeros bytes 0x14 16 = true →
    zeros bytes 0x24 3 = true →
    ActsSo (fun dt => .tslFrame dt bytes)
      (fun a => a.guard.tsl.on = true ∧ mainRuns a = true ∧ a.guard.tsl.busy = [] ∧ a.guard.tsl.alive = none)
      (fun a t => t.guard.tsl.mode = .live ∧ t.guard.tsl.codes = BitVec.ofNat 128 (fld bytes 4 16) ∧
        t.guard.tsl.reverse = bit (fld bytes 3 1) 0 ∧ t.guard.tsl.alive = some (fld bytes 2 1) ∧
        t.guard.tsl.validAlive = fld bytes 2 1 ∧ t.guard.tsl.valid = a.guard.tsl.valid + 1 ∧
        t.guard.tsl.lastAt = a.elapsed) ∧
    ActsSo (fun dt => .tslFrame dt bytes)
      (fun a => a.guard.tsl.on = true ∧ mainRuns a = true ∧ a.guard.tsl.busy = [] ∧
        a.guard.tsl.alive = some (fld bytes 2 1))
      (fun a t => t.guard.tsl.mode = a.guard.tsl.mode ∧ t.guard.tsl.codes = a.guard.tsl.codes ∧
        t.guard.tsl.bad = a.guard.tsl.bad + 1 ∧ t.guard.tsl.valid = a.guard.tsl.valid))

/-- No valid frame for tsl_timeout_ms: STALE with event 0x4107 (R176, R206). -/
def Claims.tslStaleTimeout : Prop :=
  Acts (fun dt => .tslStaleTimeout dt)
    (fun a => a.guard.tsl.on = true ∧ mainRuns a = true ∧ a.guard.tsl.mode = .live ∧
      a.guard.tsl.lastAt + ticksMs a.guard.cfg.tslTimeout ≤ a.elapsed)
    (fun a => post 0x4107 wide wide (a.modTsl fun t => { t with mode := .stale }))

/-- No valid frame for tsl_loss_ms: LOST with event 0x4108, and the loss set is in use (R176, R182). -/
def Claims.tslLossTimeout : Prop :=
  Acts (fun dt => .tslLossTimeout dt)
    (fun a => a.guard.tsl.on = true ∧ mainRuns a = true ∧ (a.guard.tsl.mode = .live ∨ a.guard.tsl.mode = .stale) ∧
      a.guard.tsl.lastAt + ticksMs a.guard.cfg.tslLoss ≤ a.elapsed)
    (fun a => post 0x4108 wide wide (a.modTsl fun t => { t with mode := .lost })) ∧
  ∀ g : Guard, g.tsl.mode = .lost → expectedState g g.tslNow = g.lossSet

/-- The first frame of a SoC stream takes a path that shows its early picture to TRIAL (R164); one outside the subset of R165
is lost with event 0x4112 (R191). -/
def Claims.inputFrameStart : Prop :=
  ∀ (p : Fin 2) (m : Msa),
  (msaInSubset m = true →
    ActsSo (fun dt => .inputFrameStart dt p m)
      (fun a => (a.guard.paths[p]).mode = .early ∧ (a.guard.paths[p]).showing = true ∧
        (a.guard.paths[p]).stream = none ∧ (a.guard.paths[p]).boundary = false)
      (fun _ t => (t.guard.paths[p]).mode = .trial ∧ (t.guard.paths[p]).good = 0 ∧
        (t.guard.paths[p]).stream = some m ∧ (t.guard.paths[p]).input.isSome = true)) ∧
  (msaInSubset m = false →
    Acts (fun dt => .inputFrameStart dt p m) (fun a => (a.guard.paths[p]).opened = true)
      (fun a => inputLost p (post 0x4112 wide p a)))

/-- A judged region of a CHECKED path whose look does not match its code takes the path to REPAIR with event 0x4001; one whose
look matches leaves it CHECKED (R181, R190). -/
def Claims.inputRegionResult : Prop :=
  ∀ (p : Fin 2) (n : Fin 32) (pixels : List Word) (f : GFrame) (r : Region) (m : Msa),
  let look (x : GPath) : Nat := lookOf x.refs r fun i => ((pixels.take (r.w * r.h)).map (widenPixel m.bpc))[i]?
  let judged (a : State) : Prop := (a.guard.paths[p]).input = some f ∧ (a.guard.paths[p]).mode = .checked ∧
    (a.guard.paths[p]).stream = some m ∧ f.mode ≠ .unchecked ∧
    (f.regions.find? fun r => r.region = n.val) = some r ∧ judgedIn f.latch r = true ∧
    codeOfTell f.latch.codes r.telltale = 1
  ActsSo (fun dt => .inputRegionResult dt p n pixels) (fun a => judged a ∧ look (a.guard.paths[p]) ≠ 2)
    (fun a t => (t.guard.paths[p]).mode = .repair ∧ (t.guard.paths[p]).good = 0 ∧
      (∃ b : State, b.elapsed = a.elapsed ∧ t = publish (0x60 + p) (hold b (now b)) 0 (post 0x4001 wide p b)) ∧
      ∃ g, (t.guard.paths[p]).input = some g ∧ g.failedIn = f.failedIn ||| BitVec.ofNat 32 (2 ^ n.val) ∧
        g.judgedIn = f.judgedIn ||| BitVec.ofNat 32 (2 ^ n.val)) ∧
  ActsSo (fun dt => .inputRegionResult dt p n pixels) (fun a => judged a ∧ look (a.guard.paths[p]) = 2)
    (fun _ t => (t.guard.paths[p]).mode = .checked ∧
      ∃ g, (t.guard.paths[p]).input = some g ∧ g.failedIn = f.failedIn ∧
        g.judgedIn = f.judgedIn ||| BitVec.ofNat 32 (2 ^ n.val))

/-- A good frame in TRIAL, complete, of the layout's size and with every judged region passed, counts, and the third puts the
path one boundary from CHECKED; an incomplete one sets the count to 0 (R164, R198). -/
def Claims.inputFrameEnd : Prop :=
  ∀ (p : Fin 2) (f : GFrame),
  ActsSo (fun dt => .inputFrameEnd dt p true false)
    (fun a => (a.guard.paths[p]).input = some f ∧ (a.guard.paths[p]).mode = .trial ∧
      (a.guard.paths[p]).stream.isSome = true ∧
      (a.guard.paths[p]).wanted p = (a.guard.paths[p]).stream.map msaSize ∧
      ∀ r ∈ f.regions, judgedIn f.latch r = true →
        f.judgedIn.getLsbD r.region = true ∧ f.failedIn.getLsbD r.region = false)
    (fun a t => (t.guard.paths[p]).good = min 3 ((a.guard.paths[p]).good + 1) ∧
      (t.guard.paths[p]).boundary = decide (2 ≤ (a.guard.paths[p]).good) ∧ (t.guard.paths[p]).input = none) ∧
  ActsSo (fun dt => .inputFrameEnd dt p false false)
    (fun a => (a.guard.paths[p]).input = some f ∧ (a.guard.paths[p]).mode = .trial)
    (fun _ t => (t.guard.paths[p]).good = 0 ∧ (t.guard.paths[p]).boundary = false ∧ (t.guard.paths[p]).input = none)

/-- An output frame of the early picture starts with the latch of the state in use (R177, R195); of the SoC's stream it
takes its stamp. -/
def Claims.outputFrameStart : Prop :=
  ∀ (p : Fin 2) (f : GFrame),
  ActsSo (fun dt => .outputFrameStart dt p)
    (fun a => (a.guard.paths[p]).sendsOwn = true ∧ (a.guard.paths[p]).mode = .early)
    (fun a t => ∃ g, (t.guard.paths[p]).outs = (a.guard.paths[p]).outs ++ [g] ∧ g.own = true ∧ g.mode = .early ∧
      g.latch.codes = expectedState a.guard (tslView a) ∧ g.latch.at_ = a.elapsed ∧
      (t.guard.paths[p]).latch = some g.latch) ∧
  Acts (fun dt => .outputFrameStart dt p)
    (fun a => (a.guard.paths[p]).sendsOwn = false ∧ (a.guard.paths[p]).passes = true ∧
      (a.guard.paths[p]).input = some f ∧ f.sof = none)
    (fun a => a.modPath p fun x => { x with input := some { f with sof := some (hold a (now a)) } })

/-- The oldest output frame ends with one verdict: 56 bytes and 8 of the chain's last value, chained by SHA-384, the next
sequence number (R184 to R187). -/
def Claims.outputFrameEnd : Prop :=
  ∀ (p : Fin 2) (seen : List (Fin 32 × List Word)) (ecc : MemErrors) (f : GFrame) (rest : List GFrame),
  ActsSo (fun dt => .outputFrameEnd dt p seen ecc) (fun a => (a.guard.paths[p]).outs = f :: rest)
    (fun a t => (t.guard.paths[p]).outs = rest ∧ (t.guard.paths[p]).nextSeq = (a.guard.paths[p]).nextSeq + 1 ∧
      (t.guard.paths[p]).newestSeq = (a.guard.paths[p]).nextSeq ∧ (t.guard.paths[p]).gapOwed = false ∧
      ∃ body : List Byte, body.length = 56 ∧ (t.guard.paths[p]).chain = sha384 (chainOf a p ++ body) ∧
        (t.guard.paths[p]).verdicts = ((body ++ (chainOf a p).take 8) :: (a.guard.paths[p]).verdicts).take 4096)

/-- The oldest digest owed is signed: 32 bytes of header, h, and 96 bytes of signature (R186, R187). -/
def Claims.digestSigned : Prop :=
  ∀ (p : Fin 2) (d : OwedDigest) (rest : List OwedDigest),
  ActsSo (fun dt => .digestSigned dt p)
    (fun a => (a.guard.paths[p]).owedDigests = d :: rest ∧ a.start.core = .valtyn ∧ a.start.doorClosed = false)
    (fun a t => (t.guard.paths[p]).owedDigests = rest ∧ (t.guard.paths[p]).signed = (a.guard.paths[p]).signed + 1 ∧
      ∃ sig : List Byte, sig.length = 96 ∧
        (t.guard.paths[p]).digests = ((d.k, record [(2, 1), (1, p), (1, d.meas), (4, a.start.number.toNat), (4, 64 * d.k),
          (4, 64 * d.k + 63), (8, d.timeNs.toNat), (8, a.start.ident.serial.toNat)] ++ d.chain ++ sig) ::
          (a.guard.paths[p]).digests).take 64)

/-- The loss of the input takes a TRIAL, CHECKED or REPAIR path to EARLY (R164, R191). -/
def Claims.inputLoss : Prop :=
  ∀ (p : Fin 2) (cause : LossCause),
  ActsSo (fun dt => .inputLoss dt p cause)
    (fun a => (a.guard.paths[p]).mode = .trial ∨ (a.guard.paths[p]).mode = .checked ∨ (a.guard.paths[p]).mode = .repair)
    (fun _ t => (t.guard.paths[p]).mode = .early ∧ (t.guard.paths[p]).stream = none ∧ (t.guard.paths[p]).good = 0 ∧
      (t.guard.paths[p]).input = none)

/-- No vertical start for two frame periods of the SoC's timing is a loss of the input (R191). -/
def Claims.inputVerticalTimeout : Prop :=
  ∀ (p : Fin 2) (m : Msa),
  ActsSo (fun dt => .inputVerticalTimeout dt p)
    (fun a => (a.guard.paths[p]).mode = .checked ∧ (a.guard.paths[p]).stream = some m ∧
      (a.guard.paths[p]).psr = false ∧ (a.guard.paths[p]).startAt + 2 * msaTicks m ≤ a.elapsed)
    (fun _ t => (t.guard.paths[p]).mode = .early ∧ (t.guard.paths[p]).stream = none)

/-- The SoC enters PSR on a path that passes its stream, and the entry is repeated towards the panel (R165). -/
def Claims.psrEntry : Prop :=
  ∀ (p : Fin 2),
  Acts (fun dt => .psrEntry dt p)
    (fun a => (a.guard.paths[p]).passes = true ∧ (a.guard.paths[p]).stream.isSome = true ∧
      (a.guard.paths[p]).trained = true ∧ (a.guard.paths[p]).psr = false)
    (fun a => emit (.panelPsr p true) (a.modPath p fun x => { x with psr := true }))

/-- The SoC leaves PSR, and the exit is repeated towards the panel (R165). The next verdict then carries GAP: the source sent
no frames meanwhile (the model's reading of R184, log entry 38). -/
def Claims.psrExit : Prop :=
  ∀ (p : Fin 2),
  Acts (fun dt => .psrExit dt p) (fun a => (a.guard.paths[p]).psr = true)
    (fun a => emit (.panelPsr p false) (a.modPath p fun x => { x with
      startAt := a.elapsed, psr := false, gapOwed := true })) ∧
  Acts (fun dt => .psrExit dt p) (fun a => (a.guard.paths[p]).psr = false)
    (fun a => a.modPath p fun x => { x with startAt := a.elapsed })

/-- A frame period in PSR writes a repeat's verdict, or, before one that would fail, takes a CHECKED path to EARLY
(R165). -/
def Claims.psrRepeatPeriod : Prop :=
  ∀ (p : Fin 2),
  ActsSo (fun dt => .psrRepeatPeriod dt p)
    (fun a => (a.guard.paths[p]).psr = true ∧ (a.guard.paths[p]).mode = .unchecked)
    (fun a t => (t.guard.paths[p]).nextSeq = (a.guard.paths[p]).nextSeq + 1 ∧ (t.guard.paths[p]).newestFail = 0 ∧
      (t.guard.paths[p]).psr = true) ∧
  ActsSo (fun dt => .psrRepeatPeriod dt p)
    (fun a => (a.guard.paths[p]).psr = true ∧ (a.guard.paths[p]).mode = .checked ∧
      ∃ r ∈ (a.guard.paths[p]).set.regions, judgedIn (takeLatch a).1 r = true ∧
        codeOfTell (takeLatch a).1.codes r.telltale = 1 ∧ ((a.guard.paths[p]).lastLooks.lookup r.region).getD 0 ≠ 2)
    (fun a t => (t.guard.paths[p]).mode = .early ∧ (t.guard.paths[p]).psr = false ∧
      (t.guard.paths[p]).nextSeq = (a.guard.paths[p]).nextSeq)

/-- The panel asks for a retrain: no frames, event 0x4121, and GAP on the next verdict (R206). -/
def Claims.panelHpdEvent : Prop :=
  ∀ (p : Fin 2) (ev : HpdEvent),
  Acts (fun dt => .panelHpdEvent dt p ev)
    (fun a => (a.guard.paths[p]).opened = true ∧ (a.guard.paths[p]).trained = true)
    (fun a => post 0x4121 wide p (a.modPath p fun x => { x with
      trained := false, retraining := true, gapOwed := true, outs := [], psr := false, startAt := a.elapsed }))

/-- A retrain ends: the link is up, or the path is HELD with its bypass switch closed (R164, R168, R206). -/
def Claims.panelRetrainDone : Prop :=
  ∀ (p : Fin 2) (l : LinkSettings),
  Acts (fun dt => .panelRetrainDone dt p (some l)) (fun a => (a.guard.paths[p]).retraining = true)
    (fun a => a.modPath p fun x => { x with
      trained := true, retraining := false, deferFrom := none, deferOver := false }) ∧
  ActsSo (fun dt => .panelRetrainDone dt p none)
    (fun a => (a.guard.paths[p]).retraining = true ∧ (a.guard.paths[p]).opened = true)
    (fun _ t => (t.guard.paths[p]).mode = .held ∧ (t.guard.paths[p]).bypass = true ∧
      (t.guard.paths[p]).trained = false ∧ (t.guard.paths[p]).stream = none)

/-- AUX requests of the SoC (R165, R166, R206): a malformed one and one for PSR2 are NACKed with their events, the link
configuration is written, DPCD 0x001 reads the sink's rate, a panel that is not trained defers, and a trained one gets the
request. -/
def Claims.sinkAuxRequest : Prop :=
  ∀ (p : Fin 2) (req : AuxReq),
  (req.malformed = true →
    Acts (fun dt => .sinkAuxRequest dt p req) (fun a => (a.guard.paths[p]).opened = true)
      (fun a => emit (.auxNack p) (post 0x4116 wide p a))) ∧
  (req.malformed = false → asksPsr2 req = true →
    Acts (fun dt => .sinkAuxRequest dt p req) (fun a => (a.guard.paths[p]).opened = true)
      (fun a => emit (.auxNack p) (post 0x4115 wide p a))) ∧
  (req.malformed = false → asksPsr2 req = false → req.i2c = false → req.write = true → 0x100 ≤ req.addr →
    req.addr + req.data.length ≤ 0x200 →
    Acts (fun dt => .sinkAuxRequest dt p req) (fun a => (a.guard.paths[p]).opened = true)
      (fun a => emit (.auxReply p [])
        (a.modPath p fun x => { x with dpcd := Memory.writeList x.dpcd req.addr req.data }))) ∧
  (req.malformed = false → req.i2c = false → req.write = false → req.addr = 1 → req.data.length = 1 →
    Acts (fun dt => .sinkAuxRequest dt p req) (fun a => (a.guard.paths[p]).opened = true)
      (emit (.auxReply p [0x1E]))) ∧
  (req.malformed = false → asksPsr2 req = false → auxOwn req = false →
    Acts (fun dt => .sinkAuxRequest dt p req)
      (fun a => (a.guard.paths[p]).opened = true ∧ (a.guard.paths[p]).trained = false ∧
        (a.guard.paths[p]).deferOver = false ∧ (a.guard.paths[p]).deferFrom = none)
      (fun a => emit (.auxDefer p) (a.modPath p fun x => { x with deferFrom := some a.elapsed }))) ∧
  (req.malformed = false → asksPsr2 req = false → auxOwn req = false → req.panel ≠ [] →
    Acts (fun dt => .sinkAuxRequest dt p req)
      (fun a => (a.guard.paths[p]).opened = true ∧ (a.guard.paths[p]).trained = true)
      (fun a => emit (.auxReply p req.panel)
        ((emit (.auxForward p req.write req.addr req.data) a).modPath p fun x => { x with auxWait := none })))

/-- 50 ms of AUX_DEFER have passed: the sink NACKs from then on (R166). -/
def Claims.auxDeferExpiry : Prop :=
  ∀ (p : Fin 2) (t0 : Nat),
  Acts (fun dt => .auxDeferExpiry dt p)
    (fun a => (a.guard.paths[p]).trained = false ∧ (a.guard.paths[p]).deferFrom = some t0 ∧ t0 + ticksMs 50 ≤ a.elapsed)
    (fun a => a.modPath p fun x => { x with deferOver := true })

/-- The panel does not answer for 400 µs: NACK with event 0x4122 (R206). -/
def Claims.panelAuxTimeout : Prop :=
  ∀ (p : Fin 2) (t0 : Nat),
  Acts (fun dt => .panelAuxTimeout dt p)
    (fun a => (a.guard.paths[p]).auxWait = some t0 ∧ t0 + ticksUs 400 ≤ a.elapsed)
    (fun a => emit (.auxNack p) (post 0x4122 wide p (a.modPath p fun x => { x with auxWait := none })))

/-- HPD rises 2 ms after the switch opened (R169). -/
def Claims.sinkHpdPulseEnd : Prop :=
  ∀ (p : Fin 2) (t0 : Nat),
  Acts (fun dt => .sinkHpdPulseEnd dt p)
    (fun a => (a.guard.paths[p]).hpdLow = some t0 ∧ t0 + ticksMs 2 ≤ a.elapsed)
    (fun a => a.modPath p fun x => { x with hpdLow := none })

/-- A settle window ends (R182). -/
def Claims.settleWindowEnd : Prop :=
  ∀ (n : Fin 64) (t0 : Nat),
  Acts (fun dt => .settleWindowEnd dt n) (fun a => a.guard.settle[n] = some t0 ∧ t0 ≤ a.elapsed)
    (fun a => a.modGuard fun g => { g with settle := g.settle.set n none })

/-- A chime window ends without a match: the result MISSED, of a free distance, waits for a verdict, event 0x4010 is raised and
trigger code 0x64 published (R201). -/
def Claims.chimeWindowEnd : Prop :=
  ∀ (n : Fin 16) (t0 : Nat),
  ActsSo (fun dt => .chimeWindowEnd dt n) (fun a => a.guard.windows[n] = some t0 ∧ t0 ≤ a.elapsed)
    (fun a t => ∃ d < 256,
      t = publish 0x64 (hold a (now a)) 0 (post 0x4010 wide n (decideChime n 2 d (draw a).2))) ∧
  ∀ (a : State) (d : Nat), let c : ChimeResult := ⟨n, 2, d, 0, hold a (now a)⟩
    (decideChime n 2 d a).guard.windows[n] = none ∧ (decideChime n 2 d a).guard.missed = a.guard.missed + 1 ∧
    (decideChime n 2 d a).guard.heard = a.guard.heard ∧ (decideChime n 2 d a).guard.chimes = a.guard.chimes ++ [c]

/-- A rear frame of an accepted type is scaled into the window buffer that is not shown and is the newest one; another raises
event 0x4014 once in a lock (R196, R197). -/
def Claims.rearTapFrame : Prop :=
  ∀ (dataType w h : Nat) (lines : List (List Byte)) (q : Fin 8) (l : Layout),
  let taps (a : State) : Prop := a.start.outing.rearPort = some q ∧
    (a.guard.paths[(1 : Fin 2)]).layoutIn 1 = some l ∧ (a.ports[q]).mode = .locked ∧ l.camW ≠ 0 ∧
    ((a.guard.paths[(1 : Fin 2)]).mode = .early ∨ (a.guard.paths[(1 : Fin 2)]).mode = .trial)
  (∀ (d : PyrDesc) (b : Fin 2), rearDesc dataType l.pattern w h = some d →
    ActsSo (fun dt => .rearTapFrame dt dataType w h lines)
      (fun a => taps a ∧ b = (match a.guard.rear with
        | some r => 1 - r.buffer
        | none => 0))
      (fun a t => t.guard.rear = some ⟨a.elapsed, (levelSize d 0).1, (levelSize d 0).2, b, false⟩ ∧
        t.guard.rearBad = false ∧ t.guard.rearBuffers =
          a.guard.rearBuffers.set b (scaleRear l (levelSize d 0).1 (levelSize d 0).2 (level0 d lines)))) ∧
  (rearDesc dataType l.pattern w h = none →
    Acts (fun dt => .rearTapFrame dt dataType w h lines) (fun a => taps a ∧ a.guard.noTypeAt ≠ some (a.ports[q]).locks)
      (fun a => post 0x4014 wide q (a.modGuard fun g => { g with
        rearBad := true, noTypeAt := some (a.ports[q]).locks })) ∧
    Acts (fun dt => .rearTapFrame dt dataType w h lines) (fun a => taps a ∧ a.guard.noTypeAt = some (a.ports[q]).locks)
      (fun a => a.modGuard fun g => { g with rearBad := true }))

/-- The newest rear frame is older than camera_stale_ms with reverse in use: event 0x4011, once (R197). -/
def Claims.rearCameraStale : Prop :=
  ∀ (r : Rear) (l : Latch) (q : Fin 8),
  Acts (fun dt => .rearCameraStale dt)
    (fun a => a.guard.rear = some r ∧ r.stale = false ∧ r.at_ + ticksMs a.guard.cfg.cameraStale ≤ a.elapsed ∧
      (a.guard.paths[(1 : Fin 2)]).latch = some l ∧ l.reverse = true ∧
      ((a.guard.paths[(1 : Fin 2)]).mode = .early ∨ (a.guard.paths[(1 : Fin 2)]).mode = .trial) ∧
      a.start.outing.rearPort = some q)
    (fun a => post 0x4011 wide q (a.modGuard fun g => { g with rear := some { r with stale := true } }))

/-- GUARD_CONFIG of the guardian owner waits for the next latch, which applies it (R207). -/
def Claims.guardConfig : Prop :=
  ∀ (c : GuardCfg),
  Serves .guardConfig 0x0401 0 false
    (fun a h => h.fn = guardOwner a ∧ parseGuardCfg h.payload = some c ∧ h.tail 16 = false)
    stOk (fun _ _ => []) (fun a _ => a.modGuard fun g => { g with nextCfg := some c }) ∧
  ∀ a : State, a.guard.nextCfg = some c →
    ((takeLatch a).2).guard.cfg = c ∧ ((takeLatch a).2).guard.nextCfg = none

/-- GUARD_STATUS (R204, R207). -/
def Claims.guardStatus : Prop :=
  Serves .guardStatus 0x0402 0 false (fun _ h => h.tail 0 = false) stOk
    (fun a _ => record [(1, a.guard.tsl.mode.code), (1, a.guard.tsl.alive.getD 0), (1, b2n a.guard.tslNow.reverseInUse),
      (1, b2n a.weir.sFault + match a.meas.compact with
        | .pending _ => 2
        | _ => 0),
      (4, a.guard.tsl.valid.toNat), (4, a.guard.tsl.bad.toNat), (4, 0)] ++
      pathStatus a.guard.paths[(0 : Fin 2)] ++ pathStatus a.guard.paths[(1 : Fin 2)])
    (fun a _ => a)

/-- GUARD_REGIONS_SET: a table whose regions fit their references waits for the path's next frame boundary and extends M4;
the set's id is free (R155, R178, R207). -/
def Claims.guardRegionsSet : Prop :=
  ∀ (k : Fin 2) (f : Fetched) (d : List Byte) (rs : List Region),
  let after (a : State) (h : Hamper) : State :=
    extend 4 2 (padTo (32 * fld h.payload 1 1) (d.take (32 * fld h.payload 1 1)))
      ((draw a).2.modPath k fun x => { x with nextSet := some ⟨BitVec.ofNat 32 (draw a).1, rs⟩ })
  Serves (fun dt r => .guardRegionsSet dt r f) 0x0403 0 false
    (fun a h => h.fn = guardOwner a ∧ fld h.payload 0 1 = k.val ∧ h.tail 20 = false ∧ fld h.payload 1 1 ≤ 32 ∧
      fld h.payload 1 1 ≠ 0 ∧ zeros h.payload 2 2 = true ∧ bufferBad a h.fn (bufferAt h.payload 4) = false ∧
      32 * fld h.payload 1 1 ≤ (bufferAt h.payload 4).length ∧ bufferRead a h.fn (bufferAt h.payload 4) f = .data d ∧
      parseRegions (padTo (32 * fld h.payload 1 1) (d.take (32 * fld h.payload 1 1))) = some rs ∧
      rs.all (refFits (refsNext a k)) = true)
    stOk
    (fun a h => record [(4, (BitVec.ofNat 32 (draw a).1).toNat), (1, measIndex (after a h)), (3, 0)]) after

/-- GUARD_REFS_LOAD: references that parse, serve the regions in force and fit the guardian area are ACCEPTED, one load at a
time on a path; a second is WRONG_STATE (R85, R179, R203, R207). -/
def Claims.guardRefsLoad : Prop :=
  ∀ (k : Fin 2) (f : Fetched) (d : List Byte) (looks : List Look) (used : Nat),
  Serves (fun dt r => .guardRefsLoad dt r f) 0x0404 0 false
    (fun a h =>
      let refs := placeLooks (fld h.payload 2 2) looks (refsNext a k)
      h.fn = guardOwner a ∧ fld h.payload 0 1 = k.val ∧ findAccepted a 0x0404 k = none ∧ h.tail 24 = false ∧
      zeros h.payload 1 1 = true ∧ fld h.payload 2 2 ≤ 127 ∧ fld h.payload 4 2 ≠ 0 ∧
      fld h.payload 2 2 + fld h.payload 4 2 ≤ 128 ∧ zeros h.payload 6 2 = true ∧
      bufferBad a h.fn (bufferAt h.payload 8) = false ∧ bufferRead a h.fn (bufferAt h.payload 8) f = .data d ∧
      parseLooks (fld h.payload 4 2) d = some (looks, used) ∧
      (((a.guard.paths[k]).nextSet).getD (a.guard.paths[k]).set).regions.all (refFits refs) = true ∧
      (if k = 0 then areaFits refs (refsNext a (1 - k)) (templatesNext a) a
        else areaFits (refsNext a (1 - k)) refs (templatesNext a) a) = true)
    stAccepted (fun _ _ => [])
    (fun a h => accept h k (a.modPath k fun x => { x with
      loading := looks.mapIdx fun i l => (fld h.payload 2 2 + i, l) })) ∧
  Serves (fun dt r => .guardRefsLoad dt r f) 0x0404 0 false
    (fun a h => h.fn = guardOwner a ∧ fld h.payload 0 1 = k.val ∧ (findAccepted a 0x0404 k).isSome = true)
    stWrongState (fun _ _ => []) (fun a _ => a)

/-- The references loaded wait for the path's frame boundary, extend M4 and are counted in bytes (R155, R205, R207); a failed
read ends the load BUS_ERROR. -/
def Claims.guardRefsLoadDone : Prop :=
  ∀ (k : Fin 2) (x : Accepted),
  let blob (a : State) : List Byte := (a.guard.paths[k]).loading.flatMap fun l => lookBytes l.2
  Acts (fun dt => .guardRefsLoadDone dt k true) (fun a => findAccepted a 0x0404 k = some x)
    (fun a => hamperDone 0x0404 k stOk (BitVec.ofNat 32 (blob a).length) (extend 4 2 (blob a) (a.modPath k fun y => { y with
      nextRefs := y.nextRefs ++ y.loading, loading := [] }))) ∧
  Acts (fun dt => .guardRefsLoadDone dt k false) (fun a => findAccepted a 0x0404 k = some x)
    (hamperDone 0x0404 k stBusError 0)

/-- VERDICT_ROUTE to an owned queue, or to none, clears the count of undelivered verdicts and answers it with the next
sequence number (R188, R207). -/
def Claims.verdictRoute : Prop :=
  ∀ (k : Fin 2),
  Serves .verdictRoute 0x0405 0 false
    (fun a h => h.fn = guardOwner a ∧ fld h.payload 0 1 = k.val ∧ fld h.payload 1 1 = 0xFF ∧ h.tail 0x30 = false ∧
      zeros h.payload 2 2 = true ∧ zeros h.payload 0x1C 4 = true ∧ (bufferAt h.payload 8).reserved = false ∧
      (bufferAt h.payload 0x20).reserved = false)
    stOk (fun a _ => record [(4, (a.guard.paths[k]).undelivered.toNat), (4, (a.guard.paths[k]).nextSeq.toNat)])
    (fun a _ => a.modPath k fun x => { x with route := none, undelivered := 0 }) ∧
  ∀ (q : Fin 32),
  Serves .verdictRoute 0x0405 0 false
    (fun a h => h.fn = guardOwner a ∧ fld h.payload 0 1 = k.val ∧ fld h.payload 1 1 = q.val ∧ h.tail 0x30 = false ∧
      zeros h.payload 2 2 = true ∧ zeros h.payload 0x1C 4 = true ∧ a.plan.queues[q] = h.fn ∧
      slotsBad (fld h.payload 4 4) 64 65536 = false ∧ slotsBad (fld h.payload 0x18 4) 4 4096 = false ∧
      bufferBad a h.fn (bufferAt h.payload 8) = false ∧ bufferBad a h.fn (bufferAt h.payload 0x20) = false ∧
      64 * fld h.payload 4 4 ≤ (bufferAt h.payload 8).length ∧
      256 * fld h.payload 0x18 4 ≤ (bufferAt h.payload 0x20).length)
    stOk (fun a _ => record [(4, (a.guard.paths[k]).undelivered.toNat), (4, (a.guard.paths[k]).nextSeq.toNat)])
    (fun a h => a.modPath k fun x => { x with
      route := some ⟨q, fld h.payload 4 4, (bufferAt h.payload 8).addr, (bufferAt h.payload 8).millpond,
        fld h.payload 0x18 4, (bufferAt h.payload 0x20).addr, (bufferAt h.payload 0x20).millpond⟩
      undelivered := 0 })

/-- DIGEST_GET of the newest digest, and of one by its number, answers its 176 bytes as stored (R187, R207). -/
def Claims.digestGet : Prop :=
  ∀ (k : Fin 2) (d : Nat × List Byte) (rest : List (Nat × List Byte)),
  Serves .digestGet 0x0406 0 false
    (fun a h => fld h.payload 0 1 = k.val ∧ fld h.payload 4 4 = 0xFFFFFFFF ∧ h.tail 8 = false ∧
      zeros h.payload 1 3 = true ∧ (a.guard.paths[k]).digests = d :: rest)
    stOk (fun _ _ => d.2) (fun a _ => a) ∧
  Serves .digestGet 0x0406 0 false
    (fun a h => fld h.payload 0 1 = k.val ∧ fld h.payload 4 4 ≠ 0xFFFFFFFF ∧ h.tail 8 = false ∧
      zeros h.payload 1 3 = true ∧ ((a.guard.paths[k]).digests.find? fun d => d.1 = fld h.payload 4 4) = some d)
    stOk (fun _ _ => d.2) (fun a _ => a)

/-- CHAIN_READ of verdicts that the path still holds is ACCEPTED (R207). -/
def Claims.chainRead : Prop :=
  ∀ (k : Fin 2),
  Serves .chainRead 0x0407 1 false
    (fun a h => h.fn = guardOwner a ∧ fld h.payload 0 1 = k.val ∧ h.tail 28 = false ∧ zeros h.payload 1 3 = true ∧
      fld h.payload 8 4 ≠ 0 ∧ fld h.payload 8 4 ≤ 4096 ∧ bufferBad a h.fn (bufferAt h.payload 12) = false ∧
      64 * fld h.payload 8 4 ≤ (bufferAt h.payload 12).length ∧
      ((a.guard.paths[k]).heldVerdict (fld h.payload 4 4)).isSome = true ∧
      ((a.guard.paths[k]).heldVerdict (fld h.payload 4 4 + fld h.payload 8 4 - 1)).isSome = true)
    stAccepted (fun _ _ => []) (fun a h => accept h k a)

/-- The oldest CHAIN_READ writes the records it still holds and ends OK with their number; one that could not be written ends
BUS_ERROR (R207). -/
def Claims.chainReadDone : Prop :=
  ∀ (k : Fin 2) (x : Accepted),
  let records (a : State) : List (List Byte) :=
    (List.range (fld x.payload 8 4)).filterMap fun i => (a.guard.paths[k]).heldVerdict (fld x.payload 4 4 + i)
  Acts (fun dt => .chainReadDone dt true)
    (fun a => (a.accepted.find? fun y => y.op == 0x0407) = some x ∧ x.index = k.val)
    (fun a => hamperDone 0x0407 k stOk (BitVec.ofNat 32 (records a).length)
      (bufferWrite x.fn (bufferAt x.payload 12) 0 (records a).flatten a)) ∧
  Acts (fun dt => .chainReadDone dt false)
    (fun a => (a.accepted.find? fun y => y.op == 0x0407) = some x) (hamperDoneFree 0x0407 x.index stBusError)

/-- CHIME_TEMPLATES_LOAD: templates that parse and fit the guardian area are ACCEPTED (R85, R203, R207). -/
def Claims.chimeTemplatesLoad : Prop :=
  ∀ (f : Fetched) (d : List Byte) (l : List Template) (used : Nat),
  Serves (fun dt r => .chimeTemplatesLoad dt r f) 0x0410 2 false
    (fun a h => h.fn = guardOwner a ∧ h.tail 20 = false ∧ fld h.payload 0 1 ≤ 15 ∧ fld h.payload 1 1 ≠ 0 ∧
      fld h.payload 0 1 + fld h.payload 1 1 ≤ 16 ∧ zeros h.payload 2 2 = true ∧
      bufferBad a h.fn (bufferAt h.payload 4) = false ∧ bufferRead a h.fn (bufferAt h.payload 4) f = .data d ∧
      parseTemplates (fld h.payload 1 1) d = some (l, used) ∧
      areaFits (refsNext a 0) (refsNext a 1) (placeTemplates (fld h.payload 0 1) l (templatesNext a)) a = true)
    stAccepted (fun _ _ => [])
    (fun a h => accept h (fld h.payload 0 1) (a.modGuard fun g => { g with
      loading := (if a.accepted.any (fun y => y.op == 0x0410) then g.loading else []) ++
        l.mapIdx fun i t => (fld h.payload 0 1 + i, t) }))

/-- The templates of the oldest load take their places and extend M4 (R155, R207); a failed read ends the load BUS_ERROR. -/
def Claims.chimeTemplatesLoadDone : Prop :=
  ∀ (x : Accepted),
  let loaded (a : State) : List (Nat × Template) := a.guard.loading.take (fld x.payload 1 1)
  let rest (a : State) : State := a.modGuard fun g => { g with loading := g.loading.drop (fld x.payload 1 1) }
  Acts (fun dt => .chimeTemplatesLoadDone dt true) (fun a => (a.accepted.find? fun y => y.op == 0x0410) = some x)
    (fun a => hamperDoneFree 0x0410 x.index stOk (extend 4 2 ((loaded a).flatMap fun t => templateRecord t.2)
      ((rest a).modGuard fun g => { g with
        templates := (loaded a).foldl (fun (v : Vector (Option Template) 16) t => match fin? 16 t.1 with
          | some i => v.set i (some t.2)
          | none => v) g.templates }))) ∧
  Acts (fun dt => .chimeTemplatesLoadDone dt false) (fun a => (a.accepted.find? fun y => y.op == 0x0410) = some x)
    (fun a => hamperDoneFree 0x0410 x.index stBusError (rest a))

/-- CHIME_STATUS (R202, R207). -/
def Claims.chimeStatus : Prop :=
  Serves .chimeStatus 0x0411 2 false (fun _ h => h.tail 0 = false) stOk
    (fun a _ => padTo 144 (record [(4, a.guard.heard.toNat), (4, a.guard.missed.toNat),
      (1, (a.guard.templates.toList.filter Option.isSome).length), (7, 0)] ++
      (a.guard.results.take 8).flatMap (chimeResultBytes a)))
    (fun a _ => a)

/-! ### Camera ports and streams -/

/-- A lock in ACQUIRE, or in LOST within 100 ms of the relock attempt, makes the port LOCKED with event 0x2001 where it is at its
configured gear or degraded, and a restart's port has event 0x2004 as well (R216, R220, R232). Below the configured gear the port
asks the camera for the gear and acquires at it (R217). -/
def Claims.portLock : Prop :=
  ∀ (p : Fin 8),
  let meets (a : State) : Prop := (a.ports[p]).mode = .acquire ∨
    ((a.ports[p]).mode = .lost ∧ (a.ports[p]).attempts ≠ 0 ∧ a.elapsed ≤ (a.ports[p]).attemptAt + ticksMs 100)
  let locked (a : State) : State := post 0x2001 wide p (a.modPort p fun x => { x with
    mode := .locked, locks := x.locks + 1, attempts := 0, lockNs := nowNs a, raising := none
    degraded := x.degraded && decide (x.gear < x.cfg.gear) })
  Acts (fun dt => .portLock dt p)
    (fun a => meets a ∧ ((a.ports[p]).cfg.gear ≤ (a.ports[p]).gear ∨ (a.ports[p]).degraded = true))
    (fun a => match (a.ports[p]).task with
      | .restart => post 0x2004 wide p (locked a)
      | .staged => post 0x2004 wide p ((locked a).modPort p fun x => { x with task := .none })
      | _ => (locked a).modPort p fun x => { x with task := .none }) ∧
  ActsSo (fun dt => .portLock dt p)
    (fun a => meets a ∧ (a.ports[p]).gear < (a.ports[p]).cfg.gear ∧ (a.ports[p]).degraded = false)
    (fun a t => (t.ports[p]).mode = .acquire ∧ (t.ports[p]).gear = (a.ports[p]).cfg.gear ∧
      (t.ports[p]).raising = some a.elapsed ∧ (t.ports[p]).locks = (a.ports[p]).locks + 1 ∧
      t.out = .gearCommand p (a.ports[p]).cfg.gear :: a.out)

/-- A LOCKED port that is lost counts the loss, empties its FIFO, and opens an interval in each of its open contexts; one in
DRAIN counts the loss and takes its new settings at once (R219, R221). -/
def Claims.portLoss : Prop :=
  ∀ (p : Fin 8),
  ActsSo (fun dt => .portLoss dt p) (fun a => (a.ports[p]).mode = .locked)
    (fun a t => (t.ports[p]).mode = .lost ∧ (t.ports[p]).losses = (a.ports[p]).losses + 1 ∧ (t.ports[p]).fifo = 0 ∧
      (t.ports[p]).attempts = 0 ∧ (t.ports[p]).since = a.elapsed ∧
      ∀ k : Fin 4, (a.streams[streamOf p k]).isOpen = true → (t.streams[streamOf p k]).gap.isSome = true) ∧
  ActsSo (fun dt => .portLoss dt p) (fun a => (a.ports[p]).mode = .drain)
    (fun a t => (t.ports[p]).losses = (a.ports[p]).losses + 1 ∧ (t.ports[p]).fifo = 0 ∧
      (t.ports[p]).cfg = (a.ports[p]).next.getD (a.ports[p]).cfg ∧
      (t.ports[p]).mode = if (t.ports[p]).cfg.enable then .acquire else .off)

/-- The relock timer starts an attempt: odd ones at the configured gear, even ones at G1 (R220). -/
def Claims.relockAttempt : Prop :=
  ∀ (p : Fin 8),
  Acts (fun dt => .relockAttempt dt p)
    (fun a => (a.ports[p]).mode = .lost ∧
      (a.ports[p]).since + ((a.ports[p]).attempts.toNat + 1) * ticksMs (a.ports[p]).cfg.relockMs ≤ a.elapsed)
    (fun a => a.modPort p fun x => { x with
      attempts := x.attempts + 1, attemptAt := a.elapsed
      gear := if (x.attempts.toNat + 1) % 2 = 1 then x.cfg.gear else 1 })

/-- A gear raise that has not locked in 100 ms ends degraded, at G1, with event 0x2002; with no start step at work on the port
nothing else follows (R217). -/
def Claims.gearRaiseTimeout : Prop :=
  ∀ (p : Fin 8) (t0 : Nat),
  Acts (fun dt => .gearRaiseTimeout dt p)
    (fun a => (a.ports[p]).mode = .acquire ∧ (a.ports[p]).raising = some t0 ∧ t0 + ticksMs 100 ≤ a.elapsed ∧
      stepRunning a 11 p = none ∧ stepRunning a 15 p = none)
    (fun a => post 0x2002 wide p (a.modPort p fun x => { x with raising := none, gear := 1, degraded := true }))

/-- With no interval, frame or unbound edge before it, a frame start of an open context takes the next sequence number. It begins
a frame where it comes 0.95 of the nominal period or more after the frame start before it; an earlier one is discarded (R212, R230,
R303). On an unmapped channel it is a stray packet (R236). -/
def Claims.csi2FrameStart : Prop :=
  ∀ (p : Fin 8) (vc : Nat) (skew : Int) (k : Fin 4),
  let sof (a : State) : Held := hold a (stampNear a skew)
  let ready (a : State) : Prop := (a.ports[p]).mode = .locked ∧ slotOfVc a p vc = some k ∧
    (a.streams[streamOf p k]).mode = .opened ∧ (a.streams[streamOf p k]).frame = none ∧
    (a.streams[streamOf p k]).gap = none ∧ (a.streams[streamOf p k]).edges = []
  let early (a : State) (h : Held) : Prop :=
    ((sof a).raw - h.raw).toInt * (a.streams[streamOf p k]).cfg.maxFps < 95 * unitsPerSecond
  ActsSo (fun dt => .csi2FrameStart dt p vc skew)
    (fun a => ready a ∧ ∀ h, (a.streams[streamOf p k]).prevSof = some h → ¬ early a h)
    (fun a t => (t.streams[streamOf p k]).nextSeq = (a.streams[streamOf p k]).nextSeq + 1 ∧
      ∃ f, (t.streams[streamOf p k]).frame = some f ∧ f.seq = (a.streams[streamOf p k]).nextSeq ∧
        f.cfg = (a.streams[streamOf p k]).cfg ∧ f.sof = sof a ∧ f.lines = [] ∧ f.discard = false) ∧
  ActsSo (fun dt => .csi2FrameStart dt p vc skew)
    (fun a => ready a ∧ ∃ h, (a.streams[streamOf p k]).prevSof = some h ∧ early a h)
    (fun a t => (t.streams[streamOf p k]).nextSeq = (a.streams[streamOf p k]).nextSeq + 1 ∧
      ∃ f, (t.streams[streamOf p k]).frame = some f ∧ f.discard = true) ∧
  Acts (fun dt => .csi2FrameStart dt p vc skew)
    (fun a => (a.ports[p]).mode = .locked ∧ slotOfVc a p vc = none)
    (fun a => post 0x2109 wide p (a.modPort p fun x => { x with stray := x.stray + 1 }))

/-- A whole pixel line that arrives undamaged, with room for it in the FIFO, is the next line of the frame in progress (R212,
R222). More than per_limit unrecoverable packets within 1 ms lose the port (R219). -/
def Claims.csi2LongPacket : Prop :=
  ∀ (p : Fin 8) (vc dataType : Nat) (payload : List Byte) (fate : PacketFate),
  let recent (a : State) : Nat := ((a.ports[p]).bad.filter fun t => decide (a.elapsed ≤ t + ticksMs 1)).length
  (∀ (k : Fin 4) (f : Frame), fate.unrecoverable = false → fate.headerEcc = false → fate.crcBad = false →
    dataType = f.cfg.dataType → (dataType = 0x12 → f.cfg.embedded ≤ f.embedded.length) →
    payload.length = lineBytes f.cfg → f.lines.length < f.cfg.height → f.discard = false → f.stopped = false →
    ActsSo (fun dt => .csi2LongPacket dt p vc dataType payload fate)
      (fun a => (a.ports[p]).mode = .locked ∧ slotOfVc a p vc = some k ∧ (a.streams[streamOf p k]).mode = .opened ∧
        (a.streams[streamOf p k]).frame = some f ∧
        (a.ports[p]).fifo - fate.drained + payload.length ≤ inputFifo ∧ recent a ≤ (a.ports[p]).cfg.perLimit)
      (fun a t => (∃ g, (t.streams[streamOf p k]).frame = some g ∧ g.lines = payload :: f.lines ∧
          g.corrupt = f.corrupt ∧ g.seq = f.seq) ∧
        (t.ports[p]).retransmissions = (a.ports[p]).retransmissions + BitVec.ofNat 32 fate.retransmissions ∧
        (t.ports[p]).fifo = (a.ports[p]).fifo - fate.drained + payload.length)) ∧
  (fate.unrecoverable = true →
    ActsSo (fun dt => .csi2LongPacket dt p vc dataType payload fate)
      (fun a => (a.ports[p]).mode = .locked ∧ (a.ports[p]).cfg.perLimit ≤ recent a)
      (fun a t => (t.ports[p]).mode = .lost ∧ (t.ports[p]).losses = (a.ports[p]).losses + 1 ∧
        (t.ports[p]).unrecoverable = (a.ports[p]).unrecoverable + 1))

/-- The frame end of a frame that has a slot and no frame of its stream before it in the staging store is written: STREAM_SEQ
takes its number, and it counts as delivered (R226, R227, R306). -/
def Claims.csi2FrameEnd : Prop :=
  ∀ (p : Fin 8) (vc : Nat) (skew : Int) (k : Fin 4) (f : Frame) (r : Ring),
  f.discard = false → f.shed = false → f.ring = some r → f.lp = false →
  ActsSo (fun dt => .csi2FrameEnd dt p vc skew)
    (fun a => (a.ports[p]).mode = .locked ∧ slotOfVc a p vc = some k ∧ (a.streams[streamOf p k]).mode = .opened ∧
      (a.streams[streamOf p k]).frame = some f ∧ (a.streams[streamOf p k]).staged = [] ∧
      (a.fns[(a.streams[streamOf p k]).fn]).busMaster = true)
    (fun a t => (t.streams[streamOf p k]).frame = none ∧ (t.streams[streamOf p k]).lastSeq = f.seq ∧
      (t.streams[streamOf p k]).written = true ∧
      (t.streams[streamOf p k]).delivered = (a.streams[streamOf p k]).delivered + 1)

/-- The oldest unbound edge is older than max_trigger_age_us: it is missed, and its number is taken (R215). -/
def Claims.triggerEdgeAgeExpiry : Prop :=
  ∀ (n : Fin 32) (e : Edge) (rest : List Edge),
  Acts (fun dt => .triggerEdgeAgeExpiry dt n)
    (fun a => (a.streams[n]).edges = e :: rest ∧ (a.streams[n]).mode = .opened ∧
      timeOf a e.at_ + ((a.streams[n]).cfg.maxAge : Int) * 256000 < (now a).toNat)
    (fun a => post 0x210A (a.streams[n]).fn n (a.modStream n fun st => { st with
      edges := rest, nextSeq := st.nextSeq + 1, missed := st.missed + 1 }))

/-- The drain ends when no frame is in progress: the port acquires with its new settings (R232), or is OFF where they disable
it (R208). -/
def Claims.portDrainEnd : Prop :=
  ∀ (p : Fin 8),
  let drained (a : State) : Prop := (a.ports[p]).mode = .drain ∧ portBusy a p = false
  let settings (a : State) : PortCfg := (a.ports[p]).next.getD (a.ports[p]).cfg
  ActsSo (fun dt => .portDrainEnd dt p) (fun a => drained a ∧ (settings a).enable = true)
    (fun a t => (t.ports[p]).mode = .acquire ∧ (t.ports[p]).cfg = settings a ∧ (t.ports[p]).gear = (settings a).gear ∧
      (t.ports[p]).next = none ∧ (t.ports[p]).since = a.elapsed) ∧
  ActsSo (fun dt => .portDrainEnd dt p) (fun a => drained a ∧ (settings a).enable = false)
    (fun a t => (t.ports[p]).mode = .off ∧ (t.ports[p]).cfg = settings a ∧ (t.ports[p]).next = none)

/-- A frame still in progress after the longest frame period is cut (R232). -/
def Claims.drainFrameTimeout : Prop :=
  ∀ (p : Fin 8),
  Acts (fun dt => .drainFrameTimeout dt p)
    (fun a => (a.ports[p]).mode = .drain ∧ (a.ports[p]).since + longestPeriod a p ≤ a.elapsed)
    (cutFrames p false)

/-- A staged frame goes to its slot, and the tags that wait behind it follow (R226, R307). One with lines that could not be read
has zeros in their place where it is of class S, and is shed where it is not (R397). -/
def Claims.stagedFrameCopyDone : Prop :=
  ∀ (n : Fin 32) (read : StagedRead) (x : Staged) (rest : List Staged),
  let bad : List Nat := (List.range x.lines.length).filter read.badLines.contains
  let at_ (a : State) : State :=
    let s := correctedReads .lpddr read.corrected a
    (if bad.isEmpty then s else uncorrectable read.address 0x6102 n s).modStream n fun st => { st with staged := rest }
  let lines : List (List Byte) := (List.range x.lines.length).map fun i =>
    if bad.contains i then List.replicate x.cfg.pitch 0 else x.lines.getD i []
  (bad = [] →
    Acts (fun dt => .stagedFrameCopyDone dt n read) (fun a => (a.streams[n]).staged = x :: rest)
      (fun a => putWaiting n (putTag n { x with copying := false } (at_ a)))) ∧
  (bad ≠ [] → x.cfg.cls = .s →
    Acts (fun dt => .stagedFrameCopyDone dt n read) (fun a => (a.streams[n]).staged = x :: rest)
      (fun a => putWaiting n (putTag n { x with
        kind := .frame true, copying := false, lines := lines, corrupt := x.corrupt + bad.length
        tag := { x.tag with flags := x.tag.flags ||| tCorrupt, crc := crc32c lines.flatten } } (at_ a)))) ∧
  (bad ≠ [] → x.cfg.cls ≠ .s →
    Acts (fun dt => .stagedFrameCopyDone dt n read) (fun a => (a.streams[n]).staged = x :: rest)
      (fun a => putWaiting n (putTag n
        { x with kind := .shed, copying := false, tag := x.tag.asShed, lines := [], corrupt := 0 }
        (countShed x.tag.fn (at_ a)))))

/-- STREAM_HEAD releases slots within the unread ones; a write with no ring, past its slots, or past the unread ones is refused
with event 0x2120 (R98, R226, R308). -/
def Claims.streamHeadWrite : Prop :=
  ∀ (fn : Fn) (n : Fin 32) (v : Word) (r : Ring),
  let step (a : State) : Nat := (v.toNat % 1024 + r.slots - (a.streams[n]).head) % r.slots
  let held (a : State) : Nat := ((a.streams[n]).tail + r.slots - (a.streams[n]).head) % r.slots
  let within (a : State) : Prop := v.toNat % 1024 < r.slots ∧
    (step a ≤ held a ∨ (held a = 0 ∧ (a.streams[n]).unreleased ≠ []))
  Acts (fun dt => .streamHeadWrite dt fn n v)
    (fun a => Reached a fn ∧ a.plan.streams[n] = fn ∧ (a.streams[n]).ring = some r ∧ within a)
    (fun a => a.modStream n fun st =>
      let point := st.release + BitVec.ofNat 32 (step a)
      { st with
        head := v.toNat % 1024, release := point
        unreleased := st.unreleased.filter fun q => 0 ≤ (q - point).toInt }) ∧
  Acts (fun dt => .streamHeadWrite dt fn n v)
    (fun a => Reached a fn ∧ a.plan.streams[n] = fn ∧ (a.streams[n]).ring = some r ∧ ¬ within a)
    (post 0x2120 fn n) ∧
  Acts (fun dt => .streamHeadWrite dt fn n v)
    (fun a => Reached a fn ∧ a.plan.streams[n] = fn ∧ (a.streams[n]).ring = none)
    (post 0x2120 fn n)

/-- A full read of STREAM_DROPS returns the count and clears it (R237). -/
def Claims.streamDropsRead : Prop :=
  ∀ (fn : Fn) (n : Fin 32),
  Acts (fun dt => .streamDropsRead dt fn n) (fun a => Reached a fn ∧ a.plan.streams[n] = fn)
    (fun a => emit (.completion fn [(a.streams[n]).drops]) (a.modStream n fun st => { st with drops := 0 }))

/-- A full read of STREAM_ERRS returns the count and clears it (R237). -/
def Claims.streamErrsRead : Prop :=
  ∀ (fn : Fn) (n : Fin 32),
  Acts (fun dt => .streamErrsRead dt fn n) (fun a => Reached a fn ∧ a.plan.streams[n] = fn)
    (fun a => emit (.completion fn [(a.streams[n]).errs]) (a.modStream n fun st => { st with errs := 0 }))

/-- PORT_CONFIG: an OFF port is enabled into ACQUIRE, or takes its settings; one that is on stages them (R208, R231, R238, R310).
Disabling a port with a context that is not CLOSED, or changing what R218 keeps for the rear port, is WRONG_STATE. -/
def Claims.portConfig : Prop :=
  ∀ (p : Fin 8) (c : PortCfg),
  let asked (h : Hamper) : Prop := fld h.payload 0 1 = p.val ∧ portSettings h.payload = some c ∧ h.tail 24 = false
  Serves .portConfig 0x0201 0 true
    (fun a h => asked h ∧ c.enable = true ∧ (a.ports[p]).mode = .off ∧ rearRefuses a p c = false)
    stOk (fun _ _ => []) (fun a _ => acquire p c c.gear (a.modPort p fun x => x.withTask .start)) ∧
  Serves .portConfig 0x0201 0 true
    (fun a h => asked h ∧ c.enable = false ∧ (a.ports[p]).mode = .off ∧ rearRefuses a p c = false)
    stOk (fun _ _ => []) (fun a _ => a.modPort p fun x => { x with cfg := c }) ∧
  Serves .portConfig 0x0201 0 true
    (fun a h => asked h ∧ (c.enable = true ∨ portHasOpen a p = false) ∧ (a.ports[p]).mode ≠ .off ∧
      rearRefuses a p c = false)
    stOk (fun _ _ => []) (fun a h => stageItem h.fn (.port p c) a) ∧
  Serves .portConfig 0x0201 0 true
    (fun a h => asked h ∧
      ((c.enable = false ∧ portHasOpen a p = true ∧ (a.ports[p]).mode ≠ .off) ∨ rearRefuses a p c = true))
    stWrongState (fun _ _ => []) (fun a _ => a)

/-- PORT_STATUS; what counts since the last one begins again (R222, R238). -/
def Claims.portStatus : Prop :=
  ∀ (p : Fin 8),
  Serves .portStatus 0x0202 0 false
    (fun _ h => fld h.payload 0 1 = p.val ∧ h.tail 4 = false ∧ zeros h.payload 1 3 = true) stOk
    (fun a _ => record [(1, (a.ports[p]).mode.code), (1, (a.ports[p]).gear), (1, (a.ports[p]).cfg.profile),
      (1, b2n (a.ports[p]).degraded), (4, (a.ports[p]).locks.toNat), (4, (a.ports[p]).losses.toNat),
      (4, (a.ports[p]).attempts.toNat), (4, (a.ports[p]).retransmissions.toNat), (4, (a.ports[p]).unrecoverable.toNat),
      (4, (a.ports[p]).fifoHigh), (4, (a.ports[p]).stray.toNat), (4, (a.ports[p]).closed.toNat),
      (8, (a.ports[p]).lockNs.toNat), (4, 0)])
    (fun a _ => a.modPort p fun x => { x with retransmissions := 0, unrecoverable := 0, fifoHigh := x.fifo })

/-- PORT_RESTART of a LOCKED or LOST port is ACCEPTED; in any other mode, or while R218 holds the rear port, it is
WRONG_STATE (R218, R232). -/
def Claims.portRestart : Prop :=
  ∀ (p : Fin 8),
  Serves .portRestart 0x0203 0 true
    (fun a h => fld h.payload 0 1 = p.val ∧ ((a.ports[p]).mode = .locked ∨ (a.ports[p]).mode = .lost) ∧
      rearHeld a p = false ∧ h.tail 4 = false ∧ zeros h.payload 1 3 = true)
    stAccepted (fun _ _ => [])
    (fun a h => startRestart p (a.ports[p]).cfg .restart (accept h p (restartLocked p a))) ∧
  Serves .portRestart 0x0203 0 true
    (fun a h => fld h.payload 0 1 = p.val ∧
      (((a.ports[p]).mode ≠ .locked ∧ (a.ports[p]).mode ≠ .lost) ∨ rearHeld a p = true))
    stWrongState (fun _ _ => []) (fun a _ => a)

/-- A restart ends once the port has locked, or with TIMEOUT after 300 ms without a lock (R232). -/
def Claims.portRestartDone : Prop :=
  ∀ (p : Fin 8),
  Acts (fun dt => .portRestartDone dt p)
    (fun a => ((a.ports[p]).mode = .locked ∨ (a.ports[p]).mode = .lost) ∧ (a.ports[p]).task = .restart)
    (fun a => hamperDone 0x0203 p stOk 0 (a.modPort p fun x => { x with task := .none })) ∧
  Acts (fun dt => .portRestartDone dt p)
    (fun a => (a.ports[p]).mode = .acquire ∧ (a.ports[p]).task = .restart ∧ (a.ports[p]).since + ticksMs 300 ≤ a.elapsed)
    (fun a => hamperDone 0x0203 p stTimeout 0 (a.modPort p fun x => { x with
      mode := .lost, since := a.elapsed, attempts := 0, raising := none, task := .none }))

/-- TUNNEL_I2C of a LOCKED port sends the transfer, a read of n bytes or a write of n, and owes its reply (R213). A 16-bit
register address goes out high byte first, which is this model's choice (log entry 25). -/
def Claims.tunnelI2c : Prop :=
  ∀ (k : Fin 8),
  let asked (a : State) (h : Hamper) : Prop := fld h.payload 0 1 = k.val ∧ (a.ports[k]).mode = .locked ∧
    h.tail 72 = false ∧ fld h.payload 1 1 ≤ 127 ∧ fld h.payload 2 1 ≤ 3 ∧ 1 ≤ fld h.payload 3 1 ∧
    fld h.payload 3 1 ≤ 64 ∧ zeros h.payload 6 2 = true
  let register (h : Hamper) : List Byte :=
    if bit (fld h.payload 2 1) 1 then (leBytes 2 (fld h.payload 4 2)).reverse else leBytes 1 (fld h.payload 4 2)
  Defers .tunnelI2c 0x0204 0 true (fun a h => asked a h ∧ bit (fld h.payload 2 1) 0 = true)
    (fun _ _ => k) (fun a h => emit (.i2c k (fld h.payload 1 1) (register h) (fld h.payload 3 1)) a) ∧
  Defers .tunnelI2c 0x0204 0 true (fun a h => asked a h ∧ bit (fld h.payload 2 1) 0 = false)
    (fun _ _ => k)
    (fun a h => emit (.i2c k (fld h.payload 1 1) (register h ++ slice h.payload 8 (fld h.payload 3 1)) 0) a)

/-- The camera's answer is the reply, with event 0x210D where the camera did not acknowledge; 10 ms without an answer is TIMEOUT
with event 0x210D (R213, R236). -/
def Claims.tunnelI2cAnswer : Prop :=
  ∀ (p : Fin 8) (bytes : List Byte) (o : Owed),
  let read : List Byte := if bit (fld o.payload 2 1) 0 then bytes.take (fld o.payload 3 1) else []
  (∀ result : Nat, result ≤ 3 →
    Acts (fun dt => .tunnelI2cAnswer dt p (.answered result bytes))
      (fun a => findOwed a 0x0204 p = some o ∧ a.elapsed < o.at_ + ticksMs 10)
      (fun a => replyOwed o stOk (record [(1, result), (1, read.length), (2, 0)] ++ padTo 64 read)
        (if result = 1 ∨ result = 2 then post 0x210D wide p a else a))) ∧
  Acts (fun dt => .tunnelI2cAnswer dt p .silent)
    (fun a => findOwed a 0x0204 p = some o ∧ o.at_ + ticksMs 10 ≤ a.elapsed)
    (fun a => replyOwed o stTimeout [] (post 0x210D wide p a))

/-- TUNNEL_GPIO drives a line low or high, but not the line of the uplink trigger, or reads the level at a line (R214). -/
def Claims.tunnelGpio : Prop :=
  ∀ (k : Fin 8) (level : Bool),
  let asked (a : State) (h : Hamper) : Prop := fld h.payload 0 1 = k.val ∧ (a.ports[k]).mode = .locked ∧
    h.tail 4 = false ∧ fld h.payload 1 1 ≤ 3 ∧ zeros h.payload 3 1 = true
  let mask (h : Hamper) : BitVec 4 := BitVec.ofNat 4 (2 ^ fld h.payload 1 1)
  let free (a : State) (h : Hamper) : Prop := ¬ ((a.ports[k]).cfg.syncMode = 2 ∧ (a.ports[k]).cfg.syncGpio = fld h.payload 1 1)
  Serves (fun dt r => .tunnelGpio dt r level) 0x0205 0 true
    (fun a h => asked a h ∧ fld h.payload 2 1 = 0 ∧ free a h)
    stOk (fun _ _ => record [(1, 0), (3, 0)])
    (fun a h => (emit (.gpio k (fld h.payload 1 1) false) a).modPort k fun x => { x with gpio := x.gpio &&& ~~~ mask h }) ∧
  Serves (fun dt r => .tunnelGpio dt r level) 0x0205 0 true
    (fun a h => asked a h ∧ fld h.payload 2 1 = 1 ∧ free a h)
    stOk (fun _ _ => record [(1, 1), (3, 0)])
    (fun a h => (emit (.gpio k (fld h.payload 1 1) true) a).modPort k fun x => { x with gpio := x.gpio ||| mask h }) ∧
  Serves (fun dt r => .tunnelGpio dt r level) 0x0205 0 true
    (fun a h => asked a h ∧ fld h.payload 2 1 = 2)
    stOk (fun _ _ => record [(1, b2n level), (3, 0)])
    (fun a h => a.modPort k fun x => { x with gpio := if level then x.gpio ||| mask h else x.gpio &&& ~~~ mask h })

/-- STREAM_OPEN of a CLOSED context whose flow Weir admits opens it, its numbers and counters at 0 (R209, R238, R303,
R383). -/
def Claims.streamOpen : Prop :=
  ∀ (n : Fin 32) (c : StreamCfg),
  Serves .streamOpen 0x0210 0 false
    (fun a h => fld h.payload 0 1 = n.val ∧ a.plan.streams[n] = h.fn ∧ classRefused a h = false ∧
      (a.streams[n]).mode = .closed ∧ (a.ports[portOf n]).mode ≠ .off ∧ streamSettings a h.fn h.payload = some c ∧
      h.tail 32 = false ∧ admission a.weir (streamFlow n h.fn c).toList = none)
    stOk (fun _ _ => []) (fun a h => openStream n h.fn c a) ∧
  ∀ (a : State) (fn : Fn), ((openStream n fn c a).streams[n]).mode = .opened ∧
    ((openStream n fn c a).streams[n]).cfg = c ∧ ((openStream n fn c a).streams[n]).fn = fn ∧
    ((openStream n fn c a).streams[n]).nextSeq = 0 ∧ ((openStream n fn c a).streams[n]).lastSeq = 0 ∧
    ((openStream n fn c a).streams[n]).drops = 0 ∧ ((openStream n fn c a).streams[n]).delivered = 0

/-- STREAM_CLOSE of an open context: CLOSING, with no unbound edges and no interval (R233). -/
def Claims.streamClose : Prop :=
  ∀ (n : Fin 32),
  Serves .streamClose 0x0211 0 false
    (fun a h => fld h.payload 0 1 = n.val ∧ a.plan.streams[n] = h.fn ∧ (a.streams[n]).mode = .opened ∧
      h.tail 4 = false ∧ zeros h.payload 1 3 = true)
    stOk (fun _ _ => []) (fun a _ => beginClose n a) ∧
  ∀ a : State, ((beginClose n a).streams[n]).mode = .closing ∧ ((beginClose n a).streams[n]).edges = [] ∧
    ((beginClose n a).streams[n]).gap = none

/-- The close completes: a frame in progress ends ABORTED, the quiet bit is set, and QUIET counts the staged frames cancelled
(R233). -/
def Claims.streamCloseQuiet : Prop :=
  ∀ (n : Fin 32),
  let ended (a : State) : State := endFrame n (holdNow a) true a
  Acts (fun dt => .streamCloseQuiet dt n) (fun a => (a.streams[n]).mode = .closing)
    (fun a => closeStream n (notice ((ended a).streams[n]).fn nQuiet (BitVec.ofNat 32 (256 * kStream + n)) stOk
      (BitVec.ofNat 32 ((ended a).streams[n]).cancelled)
      ((ended a).modStream n fun st => { st with quiet := true })))

/-- STREAM_STAGE puts the settings into the function's staged set, in place of those staged for the same stream (R231,
R310). -/
def Claims.streamStage : Prop :=
  ∀ (n : Fin 32) (c : StreamCfg),
  Serves .streamStage 0x0212 0 false
    (fun a h => fld h.payload 0 1 = n.val ∧ a.plan.streams[n] = h.fn ∧ classRefused a h = false ∧
      (a.streams[n]).mode = .opened ∧ streamSettings a h.fn h.payload = some c ∧ h.tail 32 = false)
    stOk (fun _ _ => []) (fun a h => stageItem h.fn (.stream n c) a)

/-- STREAM_STATUS (R238). -/
def Claims.streamStatus : Prop :=
  ∀ (n : Fin 32),
  Serves .streamStatus 0x0213 0 false
    (fun a h => fld h.payload 0 1 = n.val ∧ a.plan.streams[n] = h.fn ∧ h.tail 4 = false ∧ zeros h.payload 1 3 = true)
    stOk
    (fun a _ => record [(1, streamCode a n), (3, 0), (4, (a.streams[n]).lastSeq.toNat),
      (4, (a.streams[n]).delivered.toNat), (4, (a.streams[n]).gapTags.toNat), (4, (a.streams[n]).corruptFrames.toNat),
      (4, (a.streams[n]).sensorSkips.toNat), (4, (a.streams[n]).missed.toNat), (4, (a.streams[n]).allDrops.toNat)])
    (fun a _ => a)

/-- STREAM_BUFFERS gives an open stream its ring at the next frame boundary (R224). -/
def Claims.streamBuffers : Prop :=
  ∀ (n : Fin 32),
  let ring (h : Hamper) : Ring := ⟨fld h.payload 2 2, fld h.payload 4 4, (bufferAt h.payload 8).addr,
    (bufferAt h.payload 8).millpond, (bufferAt h.payload 24).addr, (bufferAt h.payload 24).millpond⟩
  Serves .streamBuffers 0x0214 0 false
    (fun a h => fld h.payload 0 1 = n.val ∧ a.plan.streams[n] = h.fn ∧ (a.streams[n]).mode = .opened ∧
      h.tail 48 = false ∧ zeros h.payload 1 1 = true ∧ zeros h.payload 40 8 = true ∧ 2 ≤ fld h.payload 2 2 ∧
      fld h.payload 2 2 ≤ 1024 ∧ (fld h.payload 2 2).isPowerOfTwo ∧ frameBytes (a.streams[n]).cfg ≤ fld h.payload 4 4 ∧
      bufferBad a h.fn (bufferAt h.payload 8) = false ∧ bufferBad a h.fn (bufferAt h.payload 24) = false ∧
      fld h.payload 2 2 * fld h.payload 4 4 ≤ (bufferAt h.payload 8).length ∧
      64 * fld h.payload 2 2 ≤ (bufferAt h.payload 24).length)
    stOk (fun _ _ => [])
    (fun a h => boundary n (a.modStream n fun st => { st with nextRing := some (ring h) }))

/-- EMBEDDED_MAP_SET of an open stream is ACCEPTED (R229). -/
def Claims.embeddedMapSet : Prop :=
  ∀ (n : Fin 32),
  Serves .embeddedMapSet 0x0220 2 false
    (fun a h => fld h.payload 0 1 = n.val ∧ a.plan.streams[n] = h.fn ∧ (a.streams[n]).mode = .opened ∧
      h.tail 20 = false ∧ zeros h.payload 1 3 = true ∧ bufferBad a h.fn (bufferAt h.payload 4) = false)
    stAccepted (fun _ _ => []) (fun a h => accept h n a)

/-- A table that decodes applies at the next frame boundary; one that does not ends ABORTED with the offset of its first
failure, and one that cannot be read ends with BUS_ERROR (R229, R238). -/
def Claims.embeddedMapSetDone : Prop :=
  ∀ (n : Fin 32) (x : Accepted) (table : Fetched) (d : List Byte) (m : List EmbField) (off : Nat),
  let owes (a : State) : Prop := findAccepted a 0x0220 n = some x
  let read (a : State) : Fetched := bufferRead a x.fn (bufferAt x.payload 4) table
  Acts (fun dt => .embeddedMapSetDone dt n table) (fun a => owes a ∧ read a = .data d ∧ embTable d = .ok m)
    (fun a => hamperDone 0x0220 n stOk 0 (boundary n (a.modStream n fun st => { st with nextMap := some m }))) ∧
  Acts (fun dt => .embeddedMapSetDone dt n table) (fun a => owes a ∧ read a = .data d ∧ embTable d = .error off)
    (hamperDone 0x0220 n stAborted (BitVec.ofNat 32 off)) ∧
  Acts (fun dt => .embeddedMapSetDone dt n table) (fun a => owes a ∧ read a = .failed)
    (hamperDone 0x0220 n stBusError 0)

/-! ### Epochs -/

/-- CONFIG_COMMIT (R311, R312, R317): a dry run only answers; a commit that no check refuses takes the next number of the
device epoch, empties the staged set, answers ACCEPTED, and then begins to switch. -/
def Claims.configCommit : Prop :=
  let passes (a : State) (h : Hamper) : Prop := (a.epochs[h.fn]).items ≠ [] ∧ h.tail 8 = false ∧
    zeros h.payload 1 7 = true ∧ commitIllegal a (a.epochs[h.fn]).items = false ∧
    commitRefused a h.fn (a.epochs[h.fn]).items = none
  Serves .configCommit 0x0010 0 false (fun a h => passes a h ∧ fld h.payload 0 1 = 1) stOk
    (fun a h => record [(4, 0), (2, (epochStreams a (a.epochs[h.fn]).items).length),
      (1, (portsRestarting a (a.epochs[h.fn]).items).length), (1, 0)])
    (fun a _ => a) ∧
  ∀ (s : State) (dt : Nat) (r : Req) (h : Hamper), Asked (advance dt s) r h 0x0010 0 false → passes (advance dt s) h →
    fld h.payload 0 1 = 0 → ((advance dt s).epochs[h.fn]).commit = none →
    let a := advance dt s
    let items := (a.epochs[h.fn]).items
    ∃ u : State, u.deviceEpoch = a.deviceEpoch + 1 ∧ (u.epochs[h.fn]).items = [] ∧
      (u.epochs[h.fn]).commit = some ⟨a.deviceEpoch + 1, epochStreams a items, epochStreams a items, 0,
        portsRestarting a items, a.elapsed, none⟩ ∧
      exec (.configCommit dt r) s = .next (startCommit h.fn items (reply h stAccepted 0
        (record [(4, (a.deviceEpoch + 1).toNat), (2, (epochStreams a items).length), (1, (portsRestarting a items).length),
          (1, 0)]) (taken h.fn h.porch u)))

/-- A stream of an epoch whose nominal period has passed since validation switches with its frame in progress (R313). -/
def Claims.epochSwitchTimer : Prop :=
  ∀ (n : Fin 32) (f : Fn) (c : Commit),
  Acts (fun dt => .epochSwitchTimer dt n)
    (fun a => (a.epochs[f]).commit = some c ∧ n ∈ c.unswitched ∧ portOf n ∉ c.ports ∧
      c.at_ + periodTicks (a.streams[n]).cfg ≤ a.elapsed)
    (switchStream n)

/-- CONFIG_DISCARD empties the function's staged set and answers its size (R317). -/
def Claims.configDiscard : Prop :=
  Serves .configDiscard 0x0011 0 false (fun _ h => h.tail 0 = false) stOk
    (fun a h => record [(2, (a.epochs[h.fn]).items.length), (2, 0)])
    (fun a h => a.modEpochs h.fn fun e => { e with items := [] })

/-- CONFIG_STATUS answers what is staged, the commit in progress, the last one, and the device epoch (R317). -/
def Claims.configStatus : Prop :=
  Serves .configStatus 0x0012 1 false (fun _ h => h.tail 0 = false) stOk
    (fun a h =>
      let e := a.epochs[h.fn]
      record [(4, bitsOf fun n => (stagedStream e.items n).isSome), (1, bitsOf fun p => (stagedPort e.items p).isSome),
        (1, if e.commit.isSome then 2 else if e.items.isEmpty then 0 else 1), (2, 0),
        (4, (e.commit.map fun c => c.epoch.toNat).getD 0), (4, e.lastEpoch.toNat), (2, e.lastStatus), (2, 0),
        (4, a.deviceEpoch.toNat)])
    (fun a _ => a)

/-! ### Position channels and emulators -/

/-- The steps from the quadrature state of a channel to that of other filtered levels (R248). -/
def Claims.quadSteps (p : Pos) (l : BitVec 4) : Nat :=
  let q := { p with lines := l }
  (quadPlace (q.level 0) (q.level 1) + 4 - quadPlace (p.level 0) (p.level 1)) % 4

/-- Samples of the balls bring the filtered levels of a channel to `l` (R241): its inputs have shown `l` for more than glitch_len
samples, or there is no filter and they show it now. -/
abbrev Claims.Becomes (s : State) (ch : Fin 4) (balls : Vector Line 4) (l : BitVec 4) : Prop :=
  (∀ i : Fin 4, balls[i].level = l.getLsbD i) ∧
  ((∀ i : Fin 4, ((s.pos[ch]).raw[i]).level = l.getLsbD i ∧ ((s.pos[ch]).raw[i]).since + (s.pos[ch]).cfg.glitch < s.elapsed) ∨
    ((s.pos[ch]).cfg.glitch = 0 ∧ ∀ i : Fin 4, ((s.pos[ch]).raw[i]).level = (s.pos[ch]).lines.getLsbD i))

/-- A quadrature step forward or back, once the filter shows it, moves the count by one. An illegal step counts as skipped; under
policy 1 it leaves the count, and under policy 2, after an event since the start, it moves it by two in the direction of the last
event (R241, R248, R251, R252). -/
def Claims.quadStep : Prop :=
  ∀ (ch : Fin 4) (balls : Vector Line 4) (l : BitVec 4) (fwd : Bool) (rest : List Bool),
  let steps (s : State) (k : Nat) : Prop := (s.pos[ch]).counts .quad = true ∧ Claims.Becomes s ch balls l ∧
    l.getLsbD 2 = (s.pos[ch]).lines.getLsbD 2 ∧ Claims.quadSteps s.pos[ch] l = k
  ActsSo (fun dt => .quadStep dt ch balls) (fun s => steps s 1)
    (fun s t => (t.pos[ch]).count = wrapS 48 ((s.pos[ch]).count + 1) ∧ (t.pos[ch]).eventAt = some s.elapsed ∧
      (t.pos[ch]).skips = (s.pos[ch]).skips ∧ (t.pos[ch]).lines = l) ∧
  ActsSo (fun dt => .quadStep dt ch balls) (fun s => steps s 3)
    (fun s t => (t.pos[ch]).count = wrapS 48 ((s.pos[ch]).count - 1) ∧ (t.pos[ch]).eventAt = some s.elapsed ∧
      (t.pos[ch]).skips = (s.pos[ch]).skips ∧ (t.pos[ch]).lines = l) ∧
  ActsSo (fun dt => .quadStep dt ch balls) (fun s => steps s 2 ∧ (s.pos[ch]).cfg.policy = 1)
    (fun s t => (t.pos[ch]).count = (s.pos[ch]).count ∧ (t.pos[ch]).skips = (s.pos[ch]).skips + 1 ∧
      (t.pos[ch]).flags = (s.pos[ch]).flags ||| 1) ∧
  ActsSo (fun dt => .quadStep dt ch balls)
    (fun s => steps s 2 ∧ (s.pos[ch]).cfg.policy = 2 ∧ (s.pos[ch]).fresh = false ∧ (s.pos[ch]).dirs = fwd :: rest)
    (fun s t => (t.pos[ch]).count = wrapS 48 ((s.pos[ch]).count + sign fwd * 2) ∧
      (t.pos[ch]).skips = (s.pos[ch]).skips + 1)

/-- An edge of STEP that step_edge counts (0 rising, 1 falling, 2 both) moves the count by one in the direction that DIR had before
it; another leaves it (R249). -/
def Claims.stepDirStep : Prop :=
  ∀ (ch : Fin 4) (balls : Vector Line 4) (l : BitVec 4),
  let now_ (s : State) : Bool := ({ s.pos[ch] with lines := l } : Pos).level 0
  let edge (s : State) : Prop := (s.pos[ch]).counts .stepDir = true ∧ Claims.Becomes s ch balls l ∧
    now_ s ≠ (s.pos[ch]).level 0
  let counted (s : State) : Prop := ((s.pos[ch]).cfg.stepEdge = 0 → now_ s = true) ∧
    ((s.pos[ch]).cfg.stepEdge = 1 → now_ s = false)
  ActsSo (fun dt => .stepDirStep dt ch balls) (fun s => edge s ∧ counted s)
    (fun s t => (t.pos[ch]).count = wrapS 48 ((s.pos[ch]).count + sign ((s.pos[ch]).level 1)) ∧
      (t.pos[ch]).eventAt = some s.elapsed) ∧
  ActsSo (fun dt => .stepDirStep dt ch balls) (fun s => edge s ∧ ¬ counted s)
    (fun s t => (t.pos[ch]).count = (s.pos[ch]).count ∧ (t.pos[ch]).eventAt = (s.pos[ch]).eventAt)

/-- A rising edge of UP alone counts up, of DOWN alone down; of both at once, or of neither, nothing (R250). -/
def Claims.upDownCount : Prop :=
  ∀ (ch : Fin 4) (balls : Vector Line 4) (l : BitVec 4),
  let rises (s : State) (i : Nat) : Bool := ({ s.pos[ch] with lines := l } : Pos).level i && !(s.pos[ch]).level i
  ActsSo (fun dt => .upDownCount dt ch balls)
    (fun s => (s.pos[ch]).counts .upDown = true ∧ Claims.Becomes s ch balls l ∧ rises s 0 ≠ rises s 1)
    (fun s t => (t.pos[ch]).count = wrapS 48 ((s.pos[ch]).count + sign (rises s 0)) ∧
      (t.pos[ch]).eventAt = some s.elapsed) ∧
  ActsSo (fun dt => .upDownCount dt ch balls)
    (fun s => (s.pos[ch]).counts .upDown = true ∧ Claims.Becomes s ch balls l ∧ rises s 0 = rises s 1)
    (fun s t => (t.pos[ch]).count = (s.pos[ch]).count ∧ (t.pos[ch]).lines = l)

/-- A Hall change to the next position counts up, to the one before down; a step to the opposite position counts as skipped, and an
invalid state as such (R251, R253, R254). -/
def Claims.hallChange : Prop :=
  ∀ (ch : Fin 4) (balls : Vector Line 4) (l : BitVec 4) (j : Nat),
  let state (s : State) : Nat := ({ s.pos[ch] with lines := l } : Pos).hall
  let changes (s : State) : Prop := (s.pos[ch]).counts .hall = true ∧ Claims.Becomes s ch balls l ∧
    state s ≠ (s.pos[ch]).hall
  let steps (s : State) (k : Nat) : Prop := changes s ∧ hallPlace (state s) = some j ∧ (s.pos[ch]).hallRef ≤ 5 ∧
    (j + 6 - (s.pos[ch]).hallRef) % 6 = k
  ActsSo (fun dt => .hallChange dt ch balls) (fun s => steps s 1)
    (fun s t => (t.pos[ch]).count = wrapS 48 ((s.pos[ch]).count + 1) ∧ (t.pos[ch]).hallRef = j) ∧
  ActsSo (fun dt => .hallChange dt ch balls) (fun s => steps s 5)
    (fun s t => (t.pos[ch]).count = wrapS 48 ((s.pos[ch]).count - 1) ∧ (t.pos[ch]).hallRef = j) ∧
  ActsSo (fun dt => .hallChange dt ch balls) (fun s => steps s 3)
    (fun s t => (t.pos[ch]).count = (s.pos[ch]).count ∧ (t.pos[ch]).skips = (s.pos[ch]).skips + 1 ∧
      (t.pos[ch]).flags = (s.pos[ch]).flags ||| 1 ∧ (t.pos[ch]).hallRef = j) ∧
  ActsSo (fun dt => .hallChange dt ch balls) (fun s => changes s ∧ hallPlace (state s) = none)
    (fun s t => (t.pos[ch]).count = (s.pos[ch]).count ∧ (t.pos[ch]).hallInvalid = (s.pos[ch]).hallInvalid + 1 ∧
      (t.pos[ch]).flags = (s.pos[ch]).flags ||| 2 ∧ (t.pos[ch]).hallRef = (s.pos[ch]).hallRef)

/-- A rising Z edge with A and B unchanged counts as an index. In mode 1 it latches P at its stamp and leaves P; in mode 3 it resets
the count (R255). -/
def Claims.indexEdge : Prop :=
  ∀ (ch : Fin 4) (balls : Vector Line 4) (l : BitVec 4),
  let rises (s : State) : Prop := (s.pos[ch]).counts .quad = true ∧ (s.pos[ch]).waiting = none ∧
    Claims.Becomes s ch balls l ∧ (∀ i : Fin 4, i ≠ 2 → l.getLsbD i = (s.pos[ch]).lines.getLsbD i) ∧
    (s.pos[ch]).level 2 = false ∧ ({ s.pos[ch] with lines := l } : Pos).level 2 = true
  ActsSo (fun dt => .indexEdge dt ch balls) (fun s => rises s ∧ (s.pos[ch]).cfg.index = 1)
    (fun s t => (t.pos[ch]).idxCount = (s.pos[ch]).idxCount + 1 ∧ (t.pos[ch]).count = (s.pos[ch]).count ∧
      (((s.pos[ch]).raw[(2 : Fin 4)]).level = l.getLsbD 2 →
        (t.pos[ch]).idx = posP s s.pos[ch] (timeOf s (edgeTime ch 2 s).1))) ∧
  ActsSo (fun dt => .indexEdge dt ch balls) (fun s => rises s ∧ (s.pos[ch]).cfg.index = 3)
    (fun s t => (t.pos[ch]).idxCount = (s.pos[ch]).idxCount + 1 ∧ (t.pos[ch]).count = 0)

/-- stop_timeout_ms without an event is standstill (R257). -/
def Claims.standstillTimeout : Prop :=
  ∀ (ch : Fin 4),
  Acts (fun dt => .standstillTimeout dt ch)
    (fun s => (s.pos[ch]).kind.incremental = true ∧ (s.pos[ch]).mode = .running ∧
      (s.pos[ch]).still s (now s).toNat = true)
    (fun s => s.modPos ch fun p => { p with standstill := true })

/-- A serial cycle starts period_us after the one before it, at a tick whose device time is its stamp (R259, R260). -/
def Claims.serialCycleStart : Prop :=
  ∀ (ch : Fin 4),
  Acts (fun dt => .serialCycleStart dt ch)
    (fun s => (s.pos[ch]).kind.serial = true ∧ (s.pos[ch]).mode ≠ .off ∧ (s.pos[ch]).cycle = none ∧
      (s.pos[ch]).cycleAt ≤ s.elapsed)
    (fun s =>
      let c := (s.pos[ch]).cfg
      emit (.sensorClock ch c.clkKhz (if (s.pos[ch]).kind = .ssi then some c.ssiPulses else none) c.clkInverted)
        (s.modPos ch fun p => { p with
          cycle := some (hold s (now s)), cycleFrom := s.elapsed, cycleAt := s.elapsed + ticksUs p.cfg.periodUs }))

/-- An SSI frame that begins high spells its value in its first data_bits bits (R259). The first good sample of a serial channel
makes it RUNNING at 4096 times its value, Gray decoded where so configured (R261). A cycle whose frame cannot be read counts as an
error with its flag, and the eighth in a row is SERIAL_LOST (R262). A frame ends once its clocks have run (R259, R260). -/
def Claims.serialCycleEnd : Prop :=
  (∀ (c : PosCfg) (bits : List Bool), bit c.serialFlags 1 = false → c.dataBits ≤ bits.length →
    readFrame .ssi c (.ssi true bits) = .sample (bitsNat (bits.take c.dataBits)) false) ∧
  ∀ (ch : Fin 4) (h : Held) (outcome : SerialOutcome) (raw flag code : Nat) (warn : Bool),
  let ends (s : State) (r : CycleResult) : Prop := (s.pos[ch]).cycle = some h ∧
    200000 * frameClocks outcome ≤ (s.elapsed - (s.pos[ch]).cycleFrom) * (s.pos[ch]).cfg.clkKhz ∧
    readFrame (s.pos[ch]).kind (s.pos[ch]).cfg outcome = r
  let value (s : State) : Nat :=
    if bit (s.pos[ch]).cfg.serialFlags 0 then grayDecode (s.pos[ch]).cfg.dataBits raw else raw
  ActsSo (fun dt => .serialCycleEnd dt ch outcome) (fun s => ends s (.sample raw warn) ∧ (s.pos[ch]).rPrev = none)
    (fun s t => (t.pos[ch]).mode = .running ∧ (t.pos[ch]).fails = 0 ∧ (t.pos[ch]).cycle = none ∧
      (t.pos[ch]).rPrev = some (value s) ∧
      ((t.pos[ch]).samples.head?).map PosSample.p = some (4096 * (value s : Int))) ∧
  ActsSo (fun dt => .serialCycleEnd dt ch outcome) (fun s => ends s (.failed flag code) ∧ (s.pos[ch]).fails < 7)
    (fun s t => (t.pos[ch]).mode = (s.pos[ch]).mode ∧ (t.pos[ch]).fails = (s.pos[ch]).fails + 1 ∧
      (t.pos[ch]).serialErrs = (s.pos[ch]).serialErrs + 1 ∧ (t.pos[ch]).cycle = none ∧
      (t.pos[ch]).flags = (s.pos[ch]).flags ||| BitVec.ofNat 13 (2 ^ flag)) ∧
  ActsSo (fun dt => .serialCycleEnd dt ch outcome)
    (fun s => ends s (.failed flag code) ∧ (s.pos[ch]).fails = 7 ∧ (s.pos[ch]).mode = .running)
    (fun s t => (t.pos[ch]).mode = .serialLost ∧ (t.pos[ch]).serialErrs = (s.pos[ch]).serialErrs + 1)

/-- A BiSS register read ends with its value, with TIMEOUT after 64 cycles, or with PARTNER_FAULT at the second frame whose CRC is
wrong (R263). After the first such frame the read is repeated, which is this model's choice (log entry 56). -/
def Claims.bissRegisterReadDone : Prop :=
  ∀ (ch : Fin 4) (b : BissRead) (v : Byte),
  let ends (s : State) : State := s.modPos ch fun p => { p with biss := none }
  Acts (fun dt => .bissRegisterReadDone dt ch (.value v)) (fun s => (s.pos[ch]).biss = some b)
    (fun s => hamperDone 0x0302 ch stOk (v.setWidth 32) (ends s)) ∧
  Acts (fun dt => .bissRegisterReadDone dt ch .timeout) (fun s => (s.pos[ch]).biss = some b ∧ 64 ≤ b.cycles)
    (fun s => hamperDone 0x0302 ch stTimeout 0 (ends s)) ∧
  Acts (fun dt => .bissRegisterReadDone dt ch .crcFailed) (fun s => (s.pos[ch]).biss = some b ∧ b.failed = false)
    (fun s => s.modPos ch fun p => { p with biss := some { b with cycles := 0, failed := true } }) ∧
  Acts (fun dt => .bissRegisterReadDone dt ch .crcFailed) (fun s => (s.pos[ch]).biss = some b ∧ b.failed = true)
    (fun s => hamperDone 0x0302 ch stPartnerFault 0 (ends s))

/-- An emulator behind its target steps one output edge, 40 ns after the last at the earliest, and its balls show it (R265,
R266). -/
def Claims.emuOutputStep : Prop :=
  ∀ (m : Fin 2),
  let may (s : State) : Prop := (s.emu[m]).running = true ∧ sinceNs s (s.emu[m]).stepAt 40 = true
  let shown (t : State) : Prop :=
    t.out.head? = some (.emulator m (t.emu[m]).levels.1 (t.emu[m]).levels.2 (t.emu[m]).zLevel)
  ActsSo (fun dt => .emuOutputStep dt m) (fun s => may s ∧ (s.emu[m]).out < emuTarget s m)
    (fun s t => (t.emu[m]).out = (s.emu[m]).out + 1 ∧ (t.emu[m]).stepAt = s.elapsed ∧ shown t) ∧
  ActsSo (fun dt => .emuOutputStep dt m) (fun s => may s ∧ emuTarget s m < (s.emu[m]).out)
    (fun s t => (t.emu[m]).out = (s.emu[m]).out - 1 ∧ (t.emu[m]).stepAt = s.elapsed ∧ shown t)

/-- A full read of POS_P_LO returns the low word of P and latches the rest of P, the velocity and the time (R271). -/
def Claims.posPLoRead : Prop :=
  ∀ (fn : Fn) (ch : Fin 4),
  Acts (fun dt => .posPLoRead dt fn ch) (fun s => Reached s fn)
    (fun s => emit (.completion fn [loWord (pNow s ch)]) (s.modPos ch fun p => { p with
      latchHi := hiWord (pNow s ch), latchVel := BitVec.ofInt 32 (velCode (posV s p (now s).toNat))
      latchNsLo := (nowNs s).setWidth 32, latchNsHi := BitVec.ofNat 32 ((nowNs s).toNat / 2 ^ 32) }))

/-- A full read of POS_IDX_LO latches the rest of the index position (R271). -/
def Claims.posIdxLoRead : Prop :=
  ∀ (fn : Fn) (ch : Fin 4),
  Acts (fun dt => .posIdxLoRead dt fn ch) (fun s => Reached s fn)
    (fun s => emit (.completion fn [loWord (s.pos[ch]).idx]) (s.modPos ch fun p => { p with latchIdxHi := hiWord p.idx }))

/-- A full read of POS_SERIAL_ERRS returns the count and clears it (R271). -/
def Claims.posSerialErrsRead : Prop :=
  ∀ (fn : Fn) (ch : Fin 4),
  Acts (fun dt => .posSerialErrsRead dt fn ch) (fun s => Reached s fn)
    (fun s => emit (.completion fn [(s.pos[ch]).serialErrs]) (s.modPos ch fun p => { p with serialErrs := 0 }))

/-- POS_CONFIG applies at once, or, where it resets P in the middle of a serial cycle, after that cycle. One that would reset P of
a channel in use is WRONG_STATE (R268, R272). A reset starts an incremental kind at 0; without one the count stays. -/
def Claims.posConfig : Prop :=
  ∀ (ch : Fin 4) (k : PosKind),
  let asked (a : State) (h : Hamper) : Prop := fld h.payload 0 1 = ch.val ∧ posKindOf (fld h.payload 1 1) = some k ∧
    h.tail 32 = false ∧ posCfgBad k h.payload = false ∧ (a.pos[ch]).waiting = none
  let resets (a : State) (h : Hamper) : Bool := posResets a.pos[ch] k (posCfgOf h.payload)
  Serves .posConfig 0x0301 0 true
    (fun a h => asked a h ∧ (resets a h = true → posInUse a ch = false ∧ (a.pos[ch]).cycle = none))
    stOk (fun _ _ => []) (fun a h => applyPosCfg ch k (posCfgOf h.payload) a) ∧
  Defers .posConfig 0x0301 0 true
    (fun a h => asked a h ∧ resets a h = true ∧ posInUse a ch = false ∧ (a.pos[ch]).cycle.isSome = true)
    (fun _ _ => ch) (fun a _ => a) ∧
  Serves .posConfig 0x0301 0 true
    (fun a h => fld h.payload 0 1 = ch.val ∧ posKindOf (fld h.payload 1 1) = some k ∧ resets a h = true ∧
      posInUse a ch = true)
    stWrongState (fun _ _ => []) (fun a _ => a) ∧
  ∀ (a : State) (c : PosCfg),
    (posResets a.pos[ch] k c = true → k.incremental = true →
      ((applyPosCfg ch k c a).pos[ch]).kind = k ∧ ((applyPosCfg ch k c a).pos[ch]).mode = .running ∧
      ((applyPosCfg ch k c a).pos[ch]).count = 0 ∧ ((applyPosCfg ch k c a).pos[ch]).cfg = c) ∧
    (posResets a.pos[ch] k c = false →
      ((applyPosCfg ch k c a).pos[ch]).count = (a.pos[ch]).count ∧ ((applyPosCfg ch k c a).pos[ch]).cfg = c)

/-- A POS_CONFIG that waited for a serial cycle applies, and its reply is written (R268). -/
def Claims.posConfigApply : Prop :=
  ∀ (ch : Fin 4) (o : Owed) (k : PosKind),
  Acts (fun dt => .posConfigApply dt ch)
    (fun a => findOwed a 0x0301 ch = some o ∧ (a.pos[ch]).cycle = none ∧ posKindOf (fld o.payload 1 1) = some k)
    (fun a => replyOwed o stOk [] (applyPosCfg ch k (posCfgOf o.payload) a))

/-- POS_STATUS answers the channel, or begins a BiSS register read (R263, R272). -/
def Claims.posStatus : Prop :=
  ∀ (ch : Fin 4),
  Serves .posStatus 0x0302 0 false
    (fun _ h => fld h.payload 0 1 = ch.val ∧ fld h.payload 1 1 = 0 ∧ h.tail 8 = false ∧ zeros h.payload 3 5 = true)
    stOk (fun a _ => posStatusBytes a ch) (fun a _ => a) ∧
  Serves .posStatus 0x0302 0 false
    (fun a h => fld h.payload 0 1 = ch.val ∧ fld h.payload 1 1 = 1 ∧ fld h.payload 2 1 ≤ 127 ∧ h.tail 8 = false ∧
      zeros h.payload 3 5 = true ∧ (a.pos[ch]).kind = .bissC ∧ bit (a.pos[ch]).cfg.serialFlags 2 = true ∧
      (a.pos[ch]).biss = none)
    stAccepted (fun _ _ => [])
    (fun a h => accept h ch (a.modPos ch fun x => { x with biss := some ⟨fld h.payload 2 1, 0, false⟩ }))

/-- POS_PRESET at once sets the count and answers the change and the time; one at the index waits (R264, R272). -/
def Claims.posPreset : Prop :=
  ∀ (ch : Fin 4),
  Serves .posPreset 0x0303 0 true
    (fun a h => fld h.payload 0 1 = ch.val ∧ fld h.payload 1 1 = 0 ∧ (a.pos[ch]).kind ≠ .off ∧ h.tail 16 = false ∧
      zeros h.payload 2 6 = true ∧ -(2 ^ 47) ≤ sfld h.payload 8 8 ∧ sfld h.payload 8 8 < 2 ^ 47 ∧
      (a.pos[ch]).waiting = none)
    stOk
    (fun a h => record [(8, sval 8 (presetNow ch (sfld h.payload 8 8) (hold a (now a)) a).1),
      (8, (nowNs (presetNow ch (sfld h.payload 8 8) (hold a (now a)) a).2).toNat)])
    (fun a h => (presetNow ch (sfld h.payload 8 8) (hold a (now a)) a).2) ∧
  Serves .posPreset 0x0303 0 true
    (fun a h => fld h.payload 0 1 = ch.val ∧ fld h.payload 1 1 = 1 ∧ (a.pos[ch]).kind = .quad ∧ h.tail 16 = false ∧
      zeros h.payload 2 6 = true ∧ -(2 ^ 47) ≤ sfld h.payload 8 8 ∧ sfld h.payload 8 8 < 2 ^ 47 ∧
      (a.pos[ch]).waiting = none)
    stAccepted (fun _ _ => [])
    (fun a h => accept h ch (a.modPos ch fun x => { x with waiting := some (sfld h.payload 8 8) })) ∧
  ∀ (a : State) (v : Int) (h : Held), ((presetNow ch v h a).2.pos[ch]).count = v ∧
    ((presetNow ch v h a).2.pos[ch]).presets = (a.pos[ch]).presets + 1

/-- EMU_CONFIG starts an emulator on the present P of its source, with its balls at the levels of the count 0, or stops it (R265,
R267, R272). -/
def Claims.emuConfig : Prop :=
  ∀ (m : Fin 2) (c : Fin 4),
  let asked (h : Hamper) : Prop := fld h.payload 0 1 = m.val ∧ h.tail 20 = false ∧ fld h.payload 2 1 ≤ 15 ∧
    zeros h.payload 3 1 = true ∧ 1 ≤ fld h.payload 4 4 ∧ fld h.payload 4 4 ≤ 65536 ∧ 1 ≤ fld h.payload 8 4 ∧
    fld h.payload 8 4 ≤ 65536 ∧ zeros h.payload 16 4 = true
  Serves .emuConfig 0x0304 1 true (fun _ h => asked h ∧ fld h.payload 1 1 = c.val)
    stOk (fun _ _ => [])
    (fun a h => emuOut m (a.modEmu m fun e =>
      { running := true, source := c, flags := fld h.payload 2 1, n := fld h.payload 4 4, d := fld h.payload 8 4
        zPeriod := fld h.payload 12 4, p0 := pNow a c, out := 0, lagged := e.lagged, exceeds := false, held := 0
        stepAt := e.stepAt })) ∧
  Serves .emuConfig 0x0304 1 true (fun _ h => asked h ∧ fld h.payload 1 1 = 0xFF)
    stOk (fun _ _ => []) (fun a _ => a.modEmu m fun e => { e with running := false })

/-! ### Comparators, trigger outputs and cross lines -/

/-- A comparator whose source has reached its target fires; with no target marked, TIME is judged by the clock and an interpolated
source by P now (R276, R293). A fire is one more event, and leaves the comparator DONE at the end of its list, else ARMED for the
next target (R273, R277). -/
def Claims.comparatorFire : Prop :=
  ∀ (n : Fin 16) (r : Reach),
  let waits (a : State) : Prop := mainRuns a = true ∧ (a.cmps[n]).live = true
  Acts (fun dt => .comparatorFire dt n)
    (fun a => waits a ∧ (a.cmps[n]).reached = some r ∧ (a.cmps[n]).source ≠ 4) (cmpFires n r) ∧
  Acts (fun dt => .comparatorFire dt n)
    (fun a => waits a ∧ (a.cmps[n]).source = 4 ∧
      ((a.cmps[n]).reached = some r ∨ ((a.cmps[n]).reached = none ∧ timeReach a a.cmps[n] = some r)))
    (fun a => cmpFires n r (a.modCmp n fun c => { c with
      nextTick := if c.grid then some (r.tick + c.pitch / 5) else none })) ∧
  Acts (fun dt => .comparatorFire dt n)
    (fun a => waits a ∧ (a.cmps[n]).source ≠ 4 ∧ (a.cmps[n]).reached = none)
    (fun a => (interpStep n (now a).toNat a).2) ∧
  ∀ a : State, ((cmpFires n r a).cmps[n]).events = (a.cmps[n]).events + 1 ∧
    ((cmpFires n r a).cmps[n]).mode = (if (a.cmps[n]).ends then .done else .armed) ∧
    ((cmpFires n r a).cmps[n]).reached = none ∧ ((cmpFires n r a).cmps[n]).lastPos = r.pos

/-- CMP_ARM of an owned comparator takes its settings, writes its target, and answers the time, the value, and what came of it
(R279, R281, R293, R297). A single TIME target in the future is ARMED; one in the past fires at once, LATE, under policy 1. -/
def Claims.cmpArm : Prop :=
  ∀ (n : Fin 16),
  let settled (a : State) : State := match fin? 4 (a.cmps[n]).source with
    | some ch => settleCmps ch (now a).toNat a
    | none => a
  let asked (a : State) (h : Hamper) : State := (settled a).modCmp n fun c => cmpOf c h.payload
  let armed (a : State) (h : Hamper) : Armed := (writeTarget n (asked a h)).1
  let after (a : State) (h : Hamper) : State :=
    let s := (writeTarget n (asked a h)).2
    s.modCmp n fun c => { c with
      nextTick := if ¬ (c.source = 4 ∧ c.grid) then c.nextTick
        else if (armed a h).result = 1 then some (s.elapsed + c.pitch / 5)
        else if (armed a h).result = 2 ∨ (armed a h).result = 3 then some (s.elapsed + ticksUntil s c.target)
        else c.nextTick }
  Serves .cmpArm 0x0310 0 false
    (fun a h => fld h.payload 0 1 = n.val ∧ a.plan.comparators[n] = h.fn ∧ fld h.payload 1 1 ≤ 4 ∧
      (∀ ch, fin? 4 (fld h.payload 1 1) = some ch → (a.pos[ch]).mode ≠ .off) ∧ cmpArmBad a h = false)
    stOk
    (fun a h => record [(8, (nowNs (after a h)).toNat), (8, sval 8 (cmpValue (asked a h) (asked a h).cmps[n])),
      (1, (armed a h).result), (1, ((after a h).cmps[n]).mode.code), (2, min 65535 (armed a h).points), (4, 0)])
    after ∧
  ∀ a : State, (a.cmps[n]).source = 4 → (a.cmps[n]).grid = false → (a.cmps[n]).qual = 0 →
    (((nowNs a).toNat : Int) < (a.cmps[n]).target →
      (writeTarget n a).1 = ⟨0, 0⟩ ∧ ((writeTarget n a).2.cmps[n]).mode = .armed) ∧
    ((a.cmps[n]).target < ((nowNs a).toNat : Int) → (a.cmps[n]).policy = 1 →
      (writeTarget n a).1 = ⟨2, 1⟩ ∧ ((writeTarget n a).2.cmps[n]).mode = .done)

/-- CMP_DISARM: what the source has brought about before is carried out; then IDLE, and the reply counts the events (R273,
R297). -/
def Claims.cmpDisarm : Prop :=
  ∀ (n : Fin 16),
  Serves .cmpDisarm 0x0311 0 false
    (fun a h => fld h.payload 0 1 = n.val ∧ a.plan.comparators[n] = h.fn ∧ h.tail 4 = false ∧
      zeros h.payload 1 3 = true)
    stOk (fun a _ => leBytes 4 ((settleOne n a).cmps[n]).events.toNat)
    (fun a _ => sweepWaits ((settleOne n a).modCmp n fun c => { c with mode := .idle, reached := none }))

/-- CMP_STATUS (R297). -/
def Claims.cmpStatus : Prop :=
  ∀ (n : Fin 16),
  Serves .cmpStatus 0x0312 0 false
    (fun a h => fld h.payload 0 1 = n.val ∧ a.plan.comparators[n] = h.fn ∧ h.tail 4 = false ∧
      zeros h.payload 1 3 = true)
    stOk
    (fun a _ => record [(1, (a.cmps[n]).mode.code), (1, (a.cmps[n]).source), (1, (a.cmps[n]).qual),
      (1, (a.cmps[n]).policy), (1, (a.cmps[n]).sticky.toNat), (3, 0), (4, (a.cmps[n]).events.toNat),
      (4, (a.cmps[n]).skipped.toNat), (8, sval 8 (a.cmps[n]).nextTarget), (8, sval 8 (a.cmps[n]).lastPos),
      (8, heldNs a (a.cmps[n]).lastTime)])
    (fun a _ => a)

/-- delay_ns has passed: the pulse begins, and the ball shows its leading edge, as it does for a pulse that began with its fire
(R286). -/
def Claims.trigDelayEnd : Prop :=
  ∀ (k : Fin 12),
  Acts (fun dt => .trigDelayEnd dt k)
    (fun a => (a.trigs.outs[k]).mode = .delay ∧ (a.trigs.outs[k]).since * 5 + (a.trigs.outs[k]).cfg.delay ≤ a.elapsed * 5)
    (fun a => ballEdge k (a.modTrig k fun t => { t with mode := .pulse, since := t.since + t.cfg.delay / 5 })) ∧
  Acts (fun dt => .trigDelayEnd dt k) (fun a => (a.trigs.outs[k]).mode = .pulse ∧ (a.trigs.outs[k]).due = true)
    (ballEdge k) ∧
  ∀ a : State, ((ballEdge k a).trigs.outs[k]).due = false ∧
    ((ballEdge k a).trigs.outs[k]).mode = (a.trigs.outs[k]).mode ∧
    ((ballEdge k a).trigs.outs[k]).since = (a.trigs.outs[k]).since

/-- width_ns has passed: HOLDOFF, or IDLE where holdoff_ns is 0; the TDC takes the trailing edge (R123, R286). -/
def Claims.trigPulseEnd : Prop :=
  ∀ (k : Fin 12) (step : Nat),
  Acts (fun dt => .trigPulseEnd dt k step)
    (fun a => (a.trigs.outs[k]).mode = .pulse ∧ (a.trigs.outs[k]).since * 5 + (a.trigs.outs[k]).cfg.width ≤ a.elapsed * 5)
    (fun a => (tdcNote (.trig k) step (if (a.trigs.outs[k]).due then ballEdge k a else a)).modTrig k fun t => { t with
      mode := if (a.trigs.outs[k]).cfg.holdoff = 0 then .idle else .holdoff
      since := t.since + (a.trigs.outs[k]).cfg.width / 5 })

/-- holdoff_ns has passed: IDLE (R286). -/
def Claims.trigHoldoffEnd : Prop :=
  ∀ (k : Fin 12),
  Acts (fun dt => .trigHoldoffEnd dt k)
    (fun a => (a.trigs.outs[k]).mode = .holdoff ∧
      (a.trigs.outs[k]).since * 5 + (a.trigs.outs[k]).cfg.holdoff ≤ a.elapsed * 5)
    (fun a => a.modTrig k fun t => { t with mode := .idle, since := t.since + t.cfg.holdoff / 5 })

/-- The period generator fires its output, one period after the configuration applied and each period after it. A fire starts an
IDLE output, and is merged into a busy one (R285, R286). -/
def Claims.trigPeriodTick : Prop :=
  ∀ (k : Fin 12),
  Acts (fun dt => .trigPeriodTick dt k)
    (fun a => (a.trigs.outs[k]).cfg.on = true ∧ (a.trigs.outs[k]).cfg.period ≠ 0 ∧
      (a.trigs.outs[k]).periodFrom + ((a.trigs.outs[k]).periods + 1) * ((a.trigs.outs[k]).cfg.period / 5) ≤ a.elapsed)
    (fun a => (fireTrig k false false (leadNow a) (a.modTrig k fun t => { t with periods := t.periods + 1 })).2) ∧
  ∀ (a : State) (late inferred : Bool) (lead : Lead), (a.trigs.outs[k]).cfg.on = true →
    ((a.trigs.outs[k]).mode = .idle →
      (fireTrig k late inferred lead a).1 = false ∧
      ((fireTrig k late inferred lead a).2.trigs.outs[k]).mode =
        (if (a.trigs.outs[k]).cfg.delay = 0 then .pulse else .delay) ∧
      ((fireTrig k late inferred lead a).2.trigs.outs[k]).since = a.elapsed) ∧
    ((a.trigs.outs[k]).mode ≠ .idle → (a.trigs.outs[k]).firedAt ≠ a.elapsed →
      (a.trigs.outs[k]).mergedAt ≠ some a.elapsed →
      (fireTrig k late inferred lead a).1 = true ∧
      (fireTrig k late inferred lead a).2.trigs.merged = a.trigs.merged + 1)

/-- A cross line falls: its min_ns filter begins at the stamp that the TDC took, and a drive request that waits is joined to it
(R288, R289). A STUCK line starts no filter (R290). -/
def Claims.xtrFallingEdge : Prop :=
  ∀ (l : Fin 4) (step : Nat),
  ActsSo (fun dt => .xtrFallingEdge dt l step)
    (fun a => mainRuns a = true ∧ (a.trigs.xtr[l]).low = false ∧ (a.trigs.xtr[l]).stuck = false)
    (fun a t => (t.trigs.xtr[l]).low = true ∧ (t.trigs.xtr[l]).since = a.elapsed ∧
      (t.trigs.xtr[l]).released = none ∧ (t.trigs.xtr[l]).edge.isSome = true ∧
      (∀ h b, tdcEdge (.xtr l) step a = (.stamped h, b) → (t.trigs.xtr[l]).edge = some h) ∧
      (t.trigs.xtr[l]).waiting = false ∧
      (t.trigs.xtr[l]).joined = ((a.trigs.xtr[l]).joined || (a.trigs.xtr[l]).waiting)) ∧
  ActsSo (fun dt => .xtrFallingEdge dt l step)
    (fun a => mainRuns a = true ∧ (a.trigs.xtr[l]).low = false ∧ (a.trigs.xtr[l]).stuck = true)
    (fun a t => (t.trigs.xtr[l]).low = true ∧ (t.trigs.xtr[l]).since = a.elapsed ∧ (t.trigs.xtr[l]).edge = none)

/-- A line low for min_ns is an assertion at the stamp of its edge (R285, R288); one that fell within guard_ns of an assertion's end
is merged into that, with event 0x3306 (R295). -/
def Claims.xtrAssertionTaken : Prop :=
  ∀ (l : Fin 4) (h : Held),
  let lasted (a : State) : Prop := (a.trigs.xtr[l]).low = true ∧ (a.trigs.xtr[l]).edge = some h ∧
    (a.trigs.xtr[l]).since * 5 + (a.trigs.xtr[l]).cfg.minNs ≤ a.elapsed * 5
  let taken_ (a : State) : State := a.modXtr l fun x => { x with edge := none }
  Acts (fun dt => .xtrAssertionTaken dt l) (fun a => lasted a ∧ (a.trigs.xtr[l]).close = false)
    (fun a => assertion l h ⟨timeOf a h, (a.trigs.xtr[l]).cfg.minNs, 40⟩ (taken_ a)) ∧
  Acts (fun dt => .xtrAssertionTaken dt l) (fun a => lasted a ∧ (a.trigs.xtr[l]).close = true)
    (fun a => post 0x3306 wide l (taken_ a))

/-- drive_ns has passed: the line is released, and rises unless another instrument holds it low (R289, R290). -/
def Claims.xtrDriveEnd : Prop :=
  ∀ (l : Fin 4) (step : Nat),
  let ran (a : State) : Prop := (a.trigs.xtr[l]).driving = true ∧
    (a.trigs.xtr[l]).since * 5 + (a.trigs.xtr[l]).cfg.driveNs ≤ a.elapsed * 5
  Acts (fun dt => .xtrDriveEnd dt l step false) ran
    (fun a => (tdcNote (.xtr l) step a).modXtr l fun x => { x with
      driving := false, low := false, since := a.elapsed, ended := some a.elapsed
      released := some (hold a (now a), a.elapsed) }) ∧
  Acts (fun dt => .xtrDriveEnd dt l step true) ran
    (fun a => a.modXtr l fun x => { x with
      driving := false, low := true, ended := some a.elapsed, released := some (hold a (now a), a.elapsed) })

/-- A waiting drive request drives the line once guard_ns has passed; on a line that has gone low it is joined, with event 0x3205
(R289, R295). -/
def Claims.xtrGuardEnd : Prop :=
  ∀ (l : Fin 4),
  let waits (a : State) : Prop := (a.trigs.xtr[l]).waiting = true ∧ (a.trigs.xtr[l]).stuck = false
  Acts (fun dt => .xtrGuardEnd dt l)
    (fun a => waits a ∧ (a.trigs.xtr[l]).low = false ∧
      (a.trigs.xtr[l]).since * 5 + (a.trigs.xtr[l]).cfg.guardNs ≤ a.elapsed * 5)
    (fun a => tdcNote (.xtr l) 0 (a.modXtr l fun x => { x with
      driving := true, waiting := false, low := true, since := a.elapsed, edge := none, released := none })) ∧
  Acts (fun dt => .xtrGuardEnd dt l) (fun a => waits a ∧ (a.trigs.xtr[l]).low = true)
    (fun a => post 0x3205 wide l (a.modXtr l fun x => { x with joined := true, waiting := false }))

/-- 200 ns after a release, a line still low has been joined by another instrument, with event 0x3304, unless it is STUCK (R289,
R290, R295). -/
def Claims.xtrReleaseCheck : Prop :=
  ∀ (l : Fin 4) (h : Held) (t : Nat),
  let due_ (a : State) : Prop := (a.trigs.xtr[l]).released = some (h, t) ∧ t * 5 + 200 ≤ a.elapsed * 5
  let held (a : State) : Prop := (a.trigs.xtr[l]).low = true ∧ (a.trigs.xtr[l]).stuck = false
  Acts (fun dt => .xtrReleaseCheck dt l) (fun a => due_ a ∧ held a)
    (fun a => assertion l h (leadNow a) (post 0x3304 wide l (a.modXtr l fun x => { x with
      joined := true, released := none, edge := none }))) ∧
  Acts (fun dt => .xtrReleaseCheck dt l) (fun a => due_ a ∧ ¬ held a)
    (fun a => a.modXtr l fun x => { x with released := none })

/-- A line low for stuck_ms is STUCK, with event 0x3302 (R290). -/
def Claims.xtrStuckTimeout : Prop :=
  ∀ (l : Fin 4),
  Acts (fun dt => .xtrStuckTimeout dt l)
    (fun a => (a.trigs.xtr[l]).cfg.stuckMs ≠ 0 ∧ (a.trigs.xtr[l]).low = true ∧ (a.trigs.xtr[l]).stuck = false ∧
      (a.trigs.xtr[l]).since * 5 + (a.trigs.xtr[l]).cfg.stuckMs * 1000000 ≤ a.elapsed * 5)
    (fun a => post 0x3302 wide l (a.modXtr l fun x => { x with
      stuck := true, driving := false, waiting := false, edge := none }))

/-- A STUCK line high for 1 ms is clear, with event 0x3303 (R290). -/
def Claims.xtrStuckClear : Prop :=
  ∀ (l : Fin 4),
  Acts (fun dt => .xtrStuckClear dt l)
    (fun a => (a.trigs.xtr[l]).stuck = true ∧ (a.trigs.xtr[l]).low = false ∧
      (a.trigs.xtr[l]).since * 5 + 1000000 ≤ a.elapsed * 5)
    (fun a => post 0x3303 wide l (a.modXtr l fun x => { x with stuck := false }))

/-- The level of an external input changes: an edge to the active level starts the min_ns filter, and a change while the filter runs
is a runt with event 0x3305 (R288, R295). An active level that has lasted min_ns fires what names the input (R285, R288, R289). -/
def Claims.extEdge : Prop :=
  ∀ (e : Fin 2) (pin : Line) (h : Held),
  let lasted (a : State) : Prop := (a.trigs.ext[e]).since * 5 + (a.trigs.ext[e]).minNs ≤ a.elapsed * 5
  ActsSo (fun dt => .extEdge dt e pin)
    (fun a => mainRuns a = true ∧ pin.level ≠ (a.trigs.ext[e]).level ∧ (a.trigs.ext[e]).edge = none)
    (fun a t => (t.trigs.ext[e]).level = pin.level ∧ (t.trigs.ext[e]).since = a.elapsed ∧
      (t.trigs.ext[e]).edge.isSome = (pin.level == (a.trigs.ext[e]).rising) ∧ t.trigs.runts = a.trigs.runts) ∧
  ActsSo (fun dt => .extEdge dt e pin)
    (fun a => mainRuns a = true ∧ pin.level ≠ (a.trigs.ext[e]).level ∧ (a.trigs.ext[e]).edge = some h ∧ ¬ lasted a)
    (fun a t => (t.trigs.ext[e]).level = pin.level ∧ (t.trigs.ext[e]).since = a.elapsed ∧
      t.trigs.runts = a.trigs.runts + 1) ∧
  Acts (fun dt => .extEdge dt e pin)
    (fun a => mainRuns a = true ∧ pin.level = (a.trigs.ext[e]).level ∧ (a.trigs.ext[e]).edge = some h ∧ lasted a)
    (extFires e h)

/-- A line returns to its inactive level. Within min_ns the pulse was a runt: counted, with event 0x3301 for a cross line and 0x3305
for an external input; later a cross line's assertion is taken, if it has not been, and ends (R288, R295). -/
def Claims.runtPulseEnd : Prop :=
  ∀ (step : Nat) (h : Held),
  (∀ (l : Fin 4),
    let returns (a : State) : Prop := mainRuns a = true ∧ (a.trigs.xtr[l]).low = true ∧ (a.trigs.xtr[l]).driving = false
    let short (a : State) : Prop := (a.trigs.xtr[l]).edge = some h ∧
      a.elapsed * 5 < (a.trigs.xtr[l]).since * 5 + (a.trigs.xtr[l]).cfg.minNs
    Acts (fun dt => .runtPulseEnd dt (.xtr l) step) (fun a => returns a ∧ short a)
      (fun a => (post 0x3301 wide l ((tdcNote (.xtr l) step a).modTrigs fun t => { t with runts := t.runts + 1 })).modXtr l
        fun x => { x with low := false, edge := none, close := false, since := a.elapsed, released := none }) ∧
    Acts (fun dt => .runtPulseEnd dt (.xtr l) step)
      (fun a => returns a ∧ ((a.trigs.xtr[l]).edge = none ∨
        (a.trigs.xtr[l]).since * 5 + (a.trigs.xtr[l]).cfg.minNs ≤ a.elapsed * 5))
      (fun a => (takeAssertion l (tdcNote (.xtr l) step a)).modXtr l fun x => { x with
        low := false, edge := none, close := false, since := a.elapsed, released := none, ended := some a.elapsed })) ∧
  ∀ (e : Fin 2),
    ActsSo (fun dt => .runtPulseEnd dt (.ext e) step)
      (fun a => mainRuns a = true ∧ (a.trigs.ext[e]).level = (a.trigs.ext[e]).rising ∧
        (a.trigs.ext[e]).edge = some h ∧ a.elapsed * 5 < (a.trigs.ext[e]).since * 5 + (a.trigs.ext[e]).minNs)
      (fun a t => t.trigs.runts = a.trigs.runts + 1 ∧ (t.trigs.ext[e]).level = !(a.trigs.ext[e]).rising ∧
        (t.trigs.ext[e]).edge = none)

/-- A full read of CMP_TARGET_LO latches the rest of the target (R296). -/
def Claims.cmpTargetLoRead : Prop :=
  ∀ (fn : Fn) (n : Fin 16),
  Acts (fun dt => .cmpTargetLoRead dt fn n) (fun a => Reached a fn ∧ a.plan.comparators[n] = fn)
    (fun a => emit (.completion fn [loWord (a.cmps[n]).nextTarget])
      (a.modCmp n fun c => { c with latchTargetHi := hiWord c.nextTarget }))

/-- A full read of CMP_FIRE_LO latches the rest of the last fire's position and its time (R296). -/
def Claims.cmpFireLoRead : Prop :=
  ∀ (fn : Fn) (n : Fin 16),
  Acts (fun dt => .cmpFireLoRead dt fn n) (fun a => Reached a fn ∧ a.plan.comparators[n] = fn)
    (fun a => emit (.completion fn [loWord (a.cmps[n]).lastPos]) (a.modCmp n fun c => { c with
      latchPosHi := hiWord c.lastPos, latchNsLo := BitVec.ofNat 32 (heldNs a c.lastTime)
      latchNsHi := BitVec.ofNat 32 (heldNs a c.lastTime / 2 ^ 32) }))

/-- A full read of TRIG_MERGED returns the count and clears it (R296). -/
def Claims.trigMergedRead : Prop :=
  ∀ (fn : Fn),
  Acts (fun dt => .trigMergedRead dt fn) (fun a => Reached a fn)
    (fun a => emit (.completion fn [a.trigs.merged]) (a.modTrigs fun t => { t with merged := 0 }))

/-- A full read of XTR_RUNTS returns the count and clears it (R296). -/
def Claims.xtrRuntsRead : Prop :=
  ∀ (fn : Fn),
  Acts (fun dt => .xtrRuntsRead dt fn) (fun a => Reached a fn)
    (fun a => emit (.completion fn [a.trigs.runts]) (a.modTrigs fun t => { t with runts := 0 }))

/-- TRIG_CONFIG of an IDLE output applies at once; of a busy one it waits, and so does its reply (R285, R297). -/
def Claims.trigConfig : Prop :=
  ∀ (k : Fin 12),
  Serves .trigConfig 0x0320 0 true
    (fun a h => fld h.payload 0 1 = k.val ∧ h.tail 32 = false ∧ trigCfgBad h.payload = false ∧
      (a.trigs.outs[k]).mode = .idle)
    stOk (fun _ _ => [])
    (fun a h => a.modTrig k fun t => { t with cfg := trigCfgOf h.payload, periodFrom := a.elapsed, periods := 0 }) ∧
  Defers .trigConfig 0x0320 0 true
    (fun a h => fld h.payload 0 1 = k.val ∧ h.tail 32 = false ∧ trigCfgBad h.payload = false ∧
      (a.trigs.outs[k]).mode ≠ .idle)
    (fun _ _ => k) (fun a _ => a)

/-- XTR_CONFIG of a line that is neither driven nor waiting to be applies at once; of one that is, it waits, and so does its reply
(R297). -/
def Claims.xtrConfig : Prop :=
  (∀ (l : Fin 4),
    let asked (h : Hamper) : Prop := fld h.payload 0 1 = l.val ∧ h.tail 32 = false ∧ xtrCfgBad h.payload = false
    Serves .xtrConfig 0x0321 0 true
      (fun a h => asked h ∧ (a.trigs.xtr[l]).driving = false ∧ (a.trigs.xtr[l]).waiting = false)
      stOk (fun _ _ => []) (fun a h => a.modXtr l fun x => { x with cfg := xtrCfgOf h.payload }) ∧
    Defers .xtrConfig 0x0321 0 true
      (fun a h => asked h ∧ ((a.trigs.xtr[l]).driving = true ∨ (a.trigs.xtr[l]).waiting = true))
      (fun _ _ => l) (fun a _ => a)) ∧
  ∀ (e : Fin 2),
    Serves .xtrConfig 0x0321 0 true
      (fun _ h => fld h.payload 0 1 = 4 + e.val ∧ h.tail 32 = false ∧ xtrCfgBad h.payload = false)
      stOk (fun _ _ => [])
      (fun a h => a.modExt e fun x => { x with
        rising := fld h.payload 2 1 = 1, minNs := (xtrCfgOf h.payload).minNs, edge := none })

/-- A configuration that waited for its output or line applies, and its reply is written (R297). -/
def Claims.outputConfigApply : Prop :=
  ∀ (o : Owed),
  (∀ (k : Fin 12),
    Acts (fun dt => .outputConfigApply dt (.trig k))
      (fun a => findOwed a 0x0320 k = some o ∧ (a.trigs.outs[k]).mode = .idle)
      (fun a => replyOwed o stOk [] (applyTrigCfg k (trigCfgOf o.payload) a))) ∧
  (∀ (l : Fin 4),
    Acts (fun dt => .outputConfigApply dt (.xtr l))
      (fun a => findOwed a 0x0321 l = some o ∧ (a.trigs.xtr[l]).driving = false ∧ (a.trigs.xtr[l]).waiting = false)
      (fun a => replyOwed o stOk [] (a.modXtr l fun x => { x with cfg := xtrCfgOf o.payload }))) ∧
  ∀ (e : Fin 2),
    Acts (fun dt => .outputConfigApply dt (.ext e)) (fun a => findOwed a 0x0321 (4 + e) = some o)
      (fun a => replyOwed o stOk [] (applyXtrCfg (4 + e) o.payload a))

/-- TRIG_FIRE starts every IDLE output that it names and that is on, and drives every cross line that it names, may drive, and finds
high for guard_ns (R285, R286, R289, R297). -/
def Claims.trigFire : Prop :=
  ∀ (s : State) (dt : Nat) (r : Req) (h : Hamper), Asked (advance dt s) r h 0x0322 1 true →
    h.tail 8 = false → fld h.payload 0 2 ≤ 0x0FFF → fld h.payload 2 1 ≤ 15 → zeros h.payload 3 5 = true →
    (fld h.payload 0 2 ≠ 0 ∨ fld h.payload 2 1 ≠ 0) →
    let a := advance dt s
    ∃ (t : State) (bytes : List Byte),
      exec (.trigFire dt r) s = .next (reply h stOk 0 bytes (taken h.fn h.porch t)) ∧
      (∀ k : Fin 12, bit (fld h.payload 0 2) k = true → (a.trigs.outs[k]).cfg.on = true →
        (a.trigs.outs[k]).mode = .idle →
        (t.trigs.outs[k]).mode = (if (a.trigs.outs[k]).cfg.delay = 0 then .pulse else .delay) ∧
        (t.trigs.outs[k]).since = a.elapsed) ∧
      ∀ l : Fin 4, bit (fld h.payload 2 1) l = true → (a.trigs.xtr[l]).cfg.drive = true →
        (a.trigs.xtr[l]).stuck = false → (a.trigs.xtr[l]).driving = false → (a.trigs.xtr[l]).waiting = false →
        (a.trigs.xtr[l]).low = false →
        (a.trigs.xtr[l]).since * 5 + (a.trigs.xtr[l]).cfg.guardNs ≤ a.elapsed * 5 →
        (t.trigs.xtr[l]).driving = true ∧ (t.trigs.xtr[l]).low = true

/-! ### Hoppers -/

/-- HOPPER_BIND of an UNBOUND hopper to an open stream takes a ring of the pool and a write stage (R319, R336, R343). An unbind of a
BOUND one frees them (R339, R340); of a PENDING one it is WRONG_STATE, and cancels the arm (R323). -/
def Claims.hopperBind : Prop :=
  ∀ (i : Fin 16),
  (∀ (n : Fin 32) (w : Weir),
    let flow (a : State) (h : Hamper) : Flow := bindFlow a i h.fn (if fld h.payload 2 1 = 1 then .p else .b)
      (fld h.payload 3 1) (fld h.payload 4 2) (fld h.payload 8 4) n
    Serves .hopperBind 0x0501 0 false
      (fun a h => fld h.payload 0 1 = i.val ∧ fld h.payload 1 1 = n.val ∧ a.plan.hoppers[i] = h.fn ∧
        a.plan.streams[n] = h.fn ∧ a.weir.store ≠ .unavailable ∧ (a.hoppers[i]).mode = .unbound ∧
        (a.streams[n]).mode = .opened ∧ h.tail 24 = false ∧ (fld h.payload 2 1 = 1 ∨ fld h.payload 2 1 = 2) ∧
        fld h.payload 3 1 ≤ 31 ∧ (fld h.payload 3 1 = 0 ∨ fld h.payload 2 1 = 1) ∧ 2 ≤ fld h.payload 4 2 ∧
        fld h.payload 4 2 ≤ 2048 ∧ ((fin? 32 (fld h.payload 6 1)).any fun q => a.plan.queues[q] == h.fn) = true ∧
        zeros h.payload 7 1 = true ∧ fld h.payload 8 4 % 64 = 0 ∧ fld h.payload 8 4 ≠ 0 ∧
        fld h.payload 8 4 ≤ 0x10000000 ∧ zeros h.payload 12 12 = true ∧ dynAlloc 2 i stageKib a.weir = some w ∧
        (flow a h).units ≤ freeUnits a.weir ∧ admission a.weir [flow a h] = none)
      stOk (fun a h => record [(8, 0x200000 * (flow a h).units), (4, (flow a h).demand), (4, 0)])
      (fun a h => bindHopper i n (flow a h) (fld h.payload 4 2) (fld h.payload 8 4) (fld h.payload 6 1) w a)) ∧
  Serves .hopperBind 0x0501 0 false
    (fun a h => fld h.payload 0 1 = i.val ∧ fld h.payload 1 1 = 0xFF ∧ a.plan.hoppers[i] = h.fn ∧
      (a.hoppers[i]).mode = .bound ∧ h.tail 24 = false ∧ zeros h.payload 7 1 = true ∧ zeros h.payload 12 12 = true)
    stOk (fun _ _ => List.replicate 16 0) (fun a _ => hopFree i a) ∧
  ∀ (s : State) (dt : Nat) (r : Req) (h : Hamper), Asked (advance dt s) r h 0x0501 0 false →
    fld h.payload 0 1 = i.val → fld h.payload 1 1 = 0xFF → (advance dt s).plan.hoppers[i] = h.fn →
    ((advance dt s).hoppers[i]).mode = .pending →
    exec (.hopperBind dt r) s =
      .next (cancelArm i (reply h stWrongState 0 [] (taken h.fn h.porch (advance dt s))))

/-- HOPPER_ARM of a BOUND hopper, or of one whose capture has ended, is PENDING with an empty ring (R320, R322, R343). With an
automatic copy its channel is the sender's, and its buffers hold the copy (R332). -/
def Claims.hopperArm : Prop :=
  ∀ (i : Fin 16) (n : Fin 32),
  let entries (h : Hamper) : Nat := fld h.payload 2 2 + fld h.payload 4 2
  Serves .hopperArm 0x0502 0 false
    (fun a h => fld h.payload 0 1 = i.val ∧ a.plan.hoppers[i] = h.fn ∧
      ((a.hoppers[i]).mode = .bound ∨ (a.hoppers[i]).mode = .captured ∨ (a.hoppers[i]).mode = .stopped) ∧
      (a.hoppers[i]).copy = none ∧ (a.hoppers[i]).disarming = none ∧ (a.hoppers[i]).stream = some n ∧
      h.tail 80 = false ∧ fld h.payload 1 1 ≤ 3 ∧ 1 ≤ fld h.payload 2 2 ∧ fld h.payload 2 2 ≤ 1024 ∧
      fld h.payload 4 2 ≤ 1024 ∧ zeros h.payload 6 2 = true ∧ fld h.payload 2 2 + 1 ≤ (a.hoppers[i]).slots ∧
      (bit (fld h.payload 1 1) 0 = false → entries h ≤ (a.hoppers[i]).slots) ∧
      onlyCodes (BitVec.ofNat 128 (fld h.payload 8 16)) triggerCodes = true ∧ zeros h.payload 0x21 7 = true ∧
      zeros h.payload 0x48 8 = true ∧ (bufferAt h.payload 0x28).reserved = false ∧
      (bufferAt h.payload 0x38).reserved = false ∧ frameBytes (a.streams[n]).cfg ≤ (a.hoppers[i]).slotBytes ∧
      (bit (fld h.payload 1 1) 0 = true →
        ((fin? 64 (fld h.payload 0x20 1)).any fun c => chanFn a c == h.fn) = true ∧
        bufferBad a h.fn (bufferAt h.payload 0x28) = false ∧ bufferBad a h.fn (bufferAt h.payload 0x38) = false ∧
        entries h * (a.hoppers[i]).slotBytes ≤ (bufferAt h.payload 0x28).length ∧
        64 * (entries h + 1) ≤ (bufferAt h.payload 0x38).length))
    stOk (fun _ _ => [])
    (fun a h => a.modHop i fun x => { x with
      mode := .pending, autoCopy := bit (fld h.payload 1 1) 0, half := bit (fld h.payload 1 1) 1
      preDepth := fld h.payload 2 2, postCount := fld h.payload 4 2, trigMask := BitVec.ofNat 128 (fld h.payload 8 16)
      tslMask := BitVec.ofNat 64 (fld h.payload 0x18 8), channel := fld h.payload 0x20 1
      bufPayload := (bufferAt h.payload 0x28).addr, bufPayloadMill := (bufferAt h.payload 0x28).millpond
      bufTags := (bufferAt h.payload 0x38).addr, bufTagsMill := (bufferAt h.payload 0x38).millpond, entries := []
      gone := 0, partialSeq := none, prevSeq := none, guardOwed := false, event := 0, code := 0xFF, stamp := Held.zero
      trigFlags := 0, preShort := false, aborted := false, quiet := false, endAt := none, snap := none, copied := 0 })

/-- HOPPER_DISARM of a bound hopper refuses new triggers and discards its partial entry; the rest waits for its boundary
(R338, R343). -/
def Claims.hopperDisarm : Prop :=
  ∀ (i : Fin 16),
  Serves .hopperDisarm 0x0503 0 false
    (fun a h => fld h.payload 0 1 = i.val ∧ a.plan.hoppers[i] = h.fn ∧ (a.hoppers[i]).mode ≠ .unbound ∧
      h.tail 4 = false ∧ fld h.payload 1 1 ≤ 1 ∧ zeros h.payload 2 2 = true)
    stOk (fun _ _ => [])
    (fun a h => a.modHop i fun x => { x with
      disarming := some (max (fld h.payload 1 1) (x.disarming.getD 0)), partialSeq := none })

/-- The disarm completes: an ARMED hopper is BOUND again with an empty ring and the quiet bit (R338). -/
def Claims.hopperDisarmQuiet : Prop :=
  ∀ (i : Fin 16) (m : Nat),
  Acts (fun dt => .hopperDisarmQuiet dt i) (fun a => (a.hoppers[i]).disarming = some m)
    (fun a => sweepWaits (disarmNow i m (if m = 1 then copyProgress i a else a))) ∧
  ∀ a : State, (a.hoppers[i]).mode = .armed →
    ((disarmNow i 0 a).hoppers[i]).mode = .bound ∧ ((disarmNow i 0 a).hoppers[i]).entries = [] ∧
    ((disarmNow i 0 a).hoppers[i]).disarming = none ∧ ((disarmNow i 0 a).hoppers[i]).quiet = true

/-- HOPPER_TRIGGER starts the armed hoppers of its mask that arm code 0x42, under one event number (R324 to R326, R343). -/
def Claims.hopperTrigger : Prop :=
  let hit (a : State) (h : Hamper) : List (Fin 16) × State :=
    hopTriggerMask (fun i => bit (fld h.payload 0 2) i && hopMask a 0x42 i) 0x42 (holdNow a) 0 a
  Serves .hopperTrigger 0x0504 0 false
    (fun a h => h.tail 4 = false ∧ zeros h.payload 2 2 = true ∧ fld h.payload 0 2 ≠ 0 ∧
      ∀ i : Fin 16, bit (fld h.payload 0 2) i = true → a.plan.hoppers[i] = h.fn)
    stOk
    (fun a h => record [(8, (nowNs a).toNat), (2, if (hit a h).1.isEmpty then 0 else (hit a h).2.hopEvent),
      (2, bitsOf fun i => (hit a h).1.contains i), (4, 0)])
    (fun a h => slotBump 6 0x42 (hit a h).2) ∧
  ∀ (a : State) (i : Fin 16) (code : Nat) (stamp : Held) (flags event : Nat),
    ((hopStart i code stamp flags event a).hoppers[i]).code = code ∧
    ((hopStart i code stamp flags event a).hoppers[i]).stamp = stamp ∧
    ((hopStart i code stamp flags event a).hoppers[i]).event = event ∧
    ((hopStart i code stamp flags event a).hoppers[i]).trigAt = a.elapsed

/-- HOPPER_STATUS of an owned hopper (R343). -/
def Claims.hopperStatus : Prop :=
  ∀ (i : Fin 16),
  Serves .hopperStatus 0x0505 0 false
    (fun a h => fld h.payload 0 1 = i.val ∧ a.plan.hoppers[i] = h.fn ∧ h.tail 4 = false ∧ zeros h.payload 1 3 = true)
    stOk
    (fun a _ =>
      let x := a.hoppers[i]
      record [(1, x.mode.code),
        (1, b2n x.copy.isSome + 2 * b2n x.overflow + 4 * b2n x.preShort + 8 * b2n x.autoCopy),
        (1, (x.stream.map Fin.val).getD 0xFF), (1, if x.mode = .unbound then 0 else if x.cls = .p then 1 else 2),
        (2, x.slots), (2, x.preDepth), (2, x.postCount), (2, x.entries.length), (2, preHeld a x), (2, postHeld a x),
        (2, x.copied), (2, 0), (2, x.event), (1, x.code), (1, 0), (8, if x.code = 0xFF then 0 else heldNs a x.stamp),
        (4, x.slotBytes), (4, x.ignored.toNat), (8, 0x200000 * x.units)])
    (fun a _ => a)

/-- HOPPER_COPYOUT of a capture that has begun borrows a free owned channel for the copy; a count of 0 means every entry from the
first (R332, R333, R343). -/
def Claims.hopperCopyout : Prop :=
  ∀ (i : Fin 16) (c : Fin 64),
  let entries (a : State) (h : Hamper) : Nat :=
    if fld h.payload 4 2 = 0 then captureTotal a a.hoppers[i] - fld h.payload 2 2 else fld h.payload 4 2
  Serves .hopperCopyout 0x0506 0 false
    (fun a h => fld h.payload 0 1 = i.val ∧ a.plan.hoppers[i] = h.fn ∧ fld h.payload 6 1 = c.val ∧ chanFn a c = h.fn ∧
      chanFree a h.fn c = true ∧
      ((a.hoppers[i]).mode = .triggered ∨ (a.hoppers[i]).mode = .captured ∨ (a.hoppers[i]).mode = .stopped) ∧
      (a.hoppers[i]).copy = none ∧ h.tail 48 = false ∧ fld h.payload 1 1 ≤ 1 ∧ zeros h.payload 7 9 = true ∧
      fld h.payload 2 2 + fld h.payload 4 2 ≤ captureTotal a a.hoppers[i] ∧
      bufferBad a h.fn (bufferAt h.payload 16) = false ∧ bufferBad a h.fn (bufferAt h.payload 32) = false ∧
      entries a h * (a.hoppers[i]).slotBytes ≤ (bufferAt h.payload 16).length ∧
      64 * (entries a h + 1) ≤ (bufferAt h.payload 32).length)
    stOk (fun _ _ => [])
    (fun a h => borrow c (a.modHop i fun x => { x with
      copied := 0
      copy := some ⟨fld h.payload 2 2, fld h.payload 4 2, c, (bufferAt h.payload 16).addr,
        (bufferAt h.payload 16).millpond, (bufferAt h.payload 32).addr, (bufferAt h.payload 32).millpond,
        bit (fld h.payload 1 1) 0, 0, 0, false⟩ }))

/-- A copy whose entries are all there ends with its header and entry (R332 to R335), once its channel's share and LPDDR5X have let
it move them (R433, R472); one that failed keeps the entries of the hopper (R341). -/
def Claims.hopperCopyEnd : Prop :=
  ∀ (i : Fin 16) (corrected : Nat),
  let moved (a : State) : State :=
    copyEntries i (copyReady ((correctedReads .lpddr corrected a).hoppers[i])) (correctedReads .lpddr corrected a)
  Acts (fun dt => .hopperCopyEnd dt i false corrected)
    (fun a => (a.hoppers[i]).copy.isSome = true ∧ copyCanEnd ((correctedReads .lpddr corrected a).hoppers[i]) = true ∧
      copyInShare i (moved a) = true ∧ (copyReady a.hoppers[i] = 0 ∨ a.weir.store = .available))
    (fun a => copyEnd i stOk (moved a)) ∧
  ActsSo (fun dt => .hopperCopyEnd dt i true corrected) (fun a => (a.hoppers[i]).copy.isSome = true)
    (fun a t => (t.hoppers[i]).copy = none ∧ (t.hoppers[i]).entries = (a.hoppers[i]).entries ∧
      (t.hoppers[i]).mode = (a.hoppers[i]).mode)

/-- A full read of HOP_IGNORED returns the count and clears it (R342). -/
def Claims.hopIgnoredRead : Prop :=
  ∀ (fn : Fn) (i : Fin 16),
  Acts (fun dt => .hopIgnoredRead dt fn i) (fun a => Reached a fn ∧ a.plan.hoppers[i] = fn)
    (fun a => emit (.completion fn [(a.hoppers[i]).ignored]) (a.modHop i fun h => { h with ignored := 0 }))

/-! ### Preparation engines -/

/-- PYRAMID_SUBMIT (R355, R356, R359, R375): a buffer job joins the engine's queue, and a BIND binds an open stream whose load and
flow fit, into host memory, Millpond or a ring of the LPDDR5X pool. -/
def Claims.pyramidSubmit : Prop :=
  ∀ (q : Fin 32),
  (let job (h : Hamper) : PyrJob :=
    { job := BitVec.ofNat 32 (fld h.payload 4 4), fn := h.fn, queue := q, stream := none, desc := pyrDescOf h.payload
      source := if (bufferAt h.payload 0x18).millpond then some (bufferAt h.payload 0x18).addr else none
      space := b2n (bufferAt h.payload 0x28).millpond, addr := (bufferAt h.payload 0x28).addr, running := false
      stopping := false, pass := 1, fed := none, partner := false, written := 0, ended := false }
  Serves .pyramidSubmit 0x0601 0 false
    (fun a h => fld h.payload 0 1 = 0 ∧ fld h.payload 1 1 = q.val ∧ a.plan.queues[q] = h.fn ∧
      pyrBufferBad a h (pyrDescOf h.payload) = false ∧ a.prep.jobs.length < 256 ∧ canSubmit a q = true)
    stOk (fun _ h => record [(4, fld h.payload 4 4), (4, pyrTotal (pyrDescOf h.payload)), (4, 0), (4, 0), (8, 0)])
    (fun a h => startBuffer (submitJob q kPyramid 0 (job h).job (a.modPrep fun e => { e with jobs := e.jobs ++ [job h] })))) ∧
  ∀ (n : Fin 32),
  let pool (h : Hamper) : Bool := bit (fld h.payload 3 1) 1
  let desc (a : State) (h : Hamper) : PyrDesc := bindDesc (pyrDescOf h.payload) (a.streams[n]).cfg
  let asked (a : State) (h : Hamper) : Binding :=
    { stream := n, fn := h.fn, queue := q, desc := desc a h, cls := if fld h.payload 0x0D 1 = 1 then .p else .b
      rank := fld h.payload 0x0E 1, space := if pool h then 2 else b2n (bufferAt h.payload 0x28).millpond
      addr := (bufferAt h.payload 0x28).addr, slots := fld h.payload 0x38 2, slotBytes := fld h.payload 0x3C 4
      units := if pool h then units2M (fld h.payload 0x38 2 * fld h.payload 0x3C 4) else 0, owed := false }
  let flow (a : State) (h : Hamper) : Flow := bindingFlow (asked a h) (a.streams[n]).cfg.maxFps
  let base (a : State) (h : Hamper) : Nat :=
    match (setFlow (flow a h) a).weir.flows.find? fun g => g.kind = 3 ∧ g.index = n.val with
    | some g => 0x200000 * g.base
    | none => 0
  Serves .pyramidSubmit 0x0601 0 false
    (fun a h => fld h.payload 0 1 = 1 ∧ fld h.payload 1 1 = q.val ∧ a.plan.queues[q] = h.fn ∧
      fld h.payload 0x0C 1 = n.val ∧ a.plan.streams[n] = h.fn ∧ (a.streams[n]).mode = .opened ∧
      (∀ b ∈ a.prep.bindings, b.stream ≠ n) ∧ (pool h = true → a.weir.store ≠ .unavailable) ∧
      pyrBindBad a h (desc a h) = false ∧
      bindingsLoad a + bindingLoad (desc a h) (a.streams[n]).cfg.maxFps ≤ pyramidCapacity ∧
      admission a.weir [flow a h] = none)
    stOk
    (fun a h => record [(4, 0), (4, pyrTotal (desc a h)),
      (4, (bindingLoad (desc a h) (a.streams[n]).cfg.maxFps + 99999) / 100000), (4, 0),
      (8, if pool h then base a h else 0)])
    (fun a h => (setFlow (flow a h) a).modPrep fun e => { e with
      bindings := e.bindings ++ [if pool h then { asked a h with addr := base a h } else asked a h] })

/-- PYRAMID_CANCEL of a job that runs answers STOPPING, of one that does not exist NOT_FOUND, and of a binding ends it
(R346, R347, R375). -/
def Claims.pyramidCancel : Prop :=
  ∀ (q : Fin 32),
  Serves .pyramidCancel 0x0602 0 false
    (fun a h => fld h.payload 0 1 = 0 ∧ fld h.payload 1 1 = q.val ∧ a.plan.queues[q] = h.fn ∧ h.tail 8 = false ∧
      zeros h.payload 2 2 = true)
    stOk (fun a h => cancelReply (cancelPyrJob h.fn q (BitVec.ofNat 32 (fld h.payload 4 4)) a).1)
    (fun a h => (cancelPyrJob h.fn q (BitVec.ofNat 32 (fld h.payload 4 4)) a).2) ∧
  (∀ (n : Fin 32),
    Serves .pyramidCancel 0x0602 0 false
      (fun a h => fld h.payload 0 1 = 1 ∧ fld h.payload 1 1 = q.val ∧ a.plan.queues[q] = h.fn ∧
        fld h.payload 2 1 = n.val ∧ a.plan.streams[n] = h.fn ∧ h.tail 8 = false ∧ zeros h.payload 3 1 = true ∧
        ∃ b ∈ a.prep.bindings, b.stream = n)
      stOk (fun a _ => cancelReply (b2n (a.prep.jobs.any fun j => j.stream == some n))) (fun a _ => endBinding n a)) ∧
  ∀ (a : State) (fn : Fn) (job : Word), (∀ j ∈ a.prep.jobs, ¬ (j.fn = fn ∧ j.queue = q ∧ j.job = job)) →
    cancelPyrJob fn q job a = (2, a)

/-- A pass ends: the first writes levels 0 and 1 of its lines, a later one the next level of what it read back, and the job
goes on or is complete; a pass that could not read, or met an uncorrectable error, is a bus error (R345, R354, R357, R373, R397,
R399). -/
def Claims.pyramidPassEnd : Prop :=
  ∀ (input : Fetched) (ecc : MemErrors) (i : Nat) (j : PyrJob),
  let runs (a : State) : Prop := passJob a = some i ∧ a.prep.jobs[i]? = some j
  let broken : Bool := (passStore j).1.isSome && ecc.uncorrectable.isSome
  let read (a : State) : State := readErrors (passStore j).1 (passStore j).2 wide ecc a
  (∀ lines, j.pass = 1 → broken = false →
    Acts (fun dt => .pyramidPassEnd dt input ecc) (fun a => runs a ∧ passInput j input (read a) = some lines)
      (fun a =>
        let r := passOne j (level0 j.desc lines) (levelSize j.desc 0).2 (read a)
        passDone i r.1 r.2)) ∧
  (∀ rows, j.pass ≠ 1 → broken = false →
    Acts (fun dt => .pyramidPassEnd dt input ecc) (fun a => runs a ∧ passLevel j input (read a) = some rows)
      (fun a =>
        let z := levelSize j.desc (j.pass - 1)
        let out := levelOut j.desc j.pass (nextLevel z.1 z.2 rows)
        passDone i out.length (pyrWrite j (levelOffset j.desc j.pass) out (read a)))) ∧
  Acts (fun dt => .pyramidPassEnd dt input ecc)
    (fun a => runs a ∧ (broken = true ∨ (j.pass = 1 ∧ passInput j input (read a) = none) ∨
      (j.pass ≠ 1 ∧ passLevel j input (read a) = none)))
    (fun a => pyrBusError i (read a))

/-- A full read of PYR_DROPPED returns the function's count and clears it (R374). -/
def Claims.pyrDroppedRead : Prop :=
  ∀ (fn : Fn),
  Acts (fun dt => .pyrDroppedRead dt fn) (fun a => Reached a fn)
    (fun a => emit (.completion fn [a.prep.dropped[fn]])
      (a.modPrep fun p => { p with dropped := vmod p.dropped fn fun _ => 0 }))

/-- DECODE_SUBMIT puts a job into the decoder's queue (R365, R375). -/
def Claims.decodeSubmit : Prop :=
  ∀ (q : Fin 32),
  let job (h : Hamper) : DecJob := ⟨BitVec.ofNat 32 (fld h.payload 4 4), h.fn, q,
    ((bufferAt h.payload 8).addr, (bufferAt h.payload 8).millpond, (bufferAt h.payload 8).length),
    ((bufferAt h.payload 0x18).addr, (bufferAt h.payload 0x18).millpond, (bufferAt h.payload 0x18).length), false⟩
  Serves .decodeSubmit 0x0610 0 false
    (fun a h => fld h.payload 0 1 = q.val ∧ a.plan.queues[q] = h.fn ∧ h.tail 40 = false ∧ zeros h.payload 1 3 = true ∧
      bufferBad a h.fn (bufferAt h.payload 8) = false ∧ bufferBad a h.fn (bufferAt h.payload 0x18) = false ∧
      (bufferAt h.payload 8).length ≤ 0x1000000 ∧ 32 ≤ (bufferAt h.payload 0x18).length ∧
      a.prep.decQueue.length < 64 ∧ canSubmit a q = true)
    stOk (fun _ _ => [])
    (fun a h => startDecode (submitJob q kDecoder 0 (job h).job
      (a.modPrep fun e => { e with decQueue := e.decQueue ++ [job h] })))

/-- DECODE_CANCEL of the running job answers STOPPING; of a queued one CANCELLED, with its entry (R346, R347, R375). -/
def Claims.decodeCancel : Prop :=
  ∀ (q : Fin 32) (j : DecJob) (i : Nat),
  let mine (h : Hamper) (j : DecJob) : Bool :=
    j.fn == h.fn && j.queue == q && j.job == BitVec.ofNat 32 (fld h.payload 4 4)
  Serves .decodeCancel 0x0611 0 false
    (fun a h => fld h.payload 0 1 = 0 ∧ fld h.payload 1 1 = q.val ∧ a.plan.queues[q] = h.fn ∧ h.tail 8 = false ∧
      zeros h.payload 2 2 = true ∧ a.prep.decRun = some j ∧ mine h j = true)
    stOk (fun _ _ => cancelReply 1) (fun a _ => a.modPrep fun e => { e with decRun := some { j with stopping := true } }) ∧
  Serves .decodeCancel 0x0611 0 false
    (fun a h => fld h.payload 0 1 = 0 ∧ fld h.payload 1 1 = q.val ∧ a.plan.queues[q] = h.fn ∧ h.tail 8 = false ∧
      zeros h.payload 2 2 = true ∧ a.prep.decRun.any (mine h) = false ∧ a.prep.decQueue.findIdx? (mine h) = some i)
    stOk (fun _ _ => cancelReply 0)
    (fun a h => finishJob q ⟨kDecoder, 0, BitVec.ofNat 32 (fld h.payload 4 4), stCancelled, fNeverStarted, 0⟩
      (a.modPrep fun e => { e with decQueue := e.decQueue.eraseIdx i }))

/-- The running decode job ends with the items of its record, or ABORTED with the offset of the first failure and event
0xB201; one whose input could not be read is a bus error (R362 to R364, R373, R399). -/
def Claims.decodeJobEnd : Prop :=
  ∀ (input : Fetched) (ecc : MemErrors) (j : DecJob) (bytes : List Byte),
  let broken : Bool := j.input.2.1 && ecc.uncorrectable.isSome
  let read (a : State) : State := readErrors (if j.input.2.1 then some .millpond else none) j.input.1 wide ecc a
  let given (a : State) : Option (List Byte) := decInput j (if broken then .failed else input) (read a)
  let r := cborDecode ((j.output.2.2 - 32) / 16) bytes
  (j.stopping = false → r.error = 0 →
    Acts (fun dt => .decodeJobEnd dt input ecc) (fun a => a.prep.decRun = some j ∧ given a = some bytes)
      (fun a => decEnd j stOk r.items.length (deliver j.fn j.output.2.1 j.output.1 (cborOutput r) (read a)))) ∧
  (j.stopping = false → r.error ≠ 0 →
    Acts (fun dt => .decodeJobEnd dt input ecc) (fun a => a.prep.decRun = some j ∧ given a = some bytes)
      (fun a => decEnd j stAborted r.errorOff
        (post 0xB201 j.fn wide (deliver j.fn j.output.2.1 j.output.1 (cborOutput r) (read a))))) ∧
  Acts (fun dt => .decodeJobEnd dt input ecc) (fun a => a.prep.decRun = some j ∧ given a = none)
    (fun a => decBusError j (read a))

/-- QUIET follows the last job of an ended binding or route (R348). -/
def Claims.prepQuiet : Prop :=
  ∀ (fn : Fn) (i : Nat) (e : EndedWork),
  Acts (fun dt => .prepQuiet dt fn)
    (fun a => (a.prep.ended.findIdx? fun e => e.fn == fn && !endedBusy a e) = some i ∧ a.prep.ended[i]? = some e)
    (fun a => notice fn nQuiet (BitVec.ofNat 32 (256 * e.kind + e.index)) stOk (BitVec.ofNat 32 e.cancelled)
      (a.modPrep fun p => { p with ended := p.ended.eraseIdx i }))

/-- An engine without progress for 100 ms is reset: its jobs end, its bindings and routes stay (R468). -/
def Claims.engineStallReset : Prop :=
  ActsSo (fun dt => .engineStallReset dt .pyramid)
    (fun a => (∃ j ∈ a.prep.jobs, j.running = true) ∧ a.prep.pyrAt + ticksMs 100 ≤ a.elapsed)
    (fun a t => t.prep.jobs = [] ∧ t.prep.bindings = a.prep.bindings) ∧
  ActsSo (fun dt => .engineStallReset dt .decoder)
    (fun a => a.prep.decRun.isSome = true ∧ a.prep.decAt + ticksMs 100 ≤ a.elapsed)
    (fun _ t => t.prep.decRun = none ∧ t.prep.decQueue = []) ∧
  ActsSo (fun dt => .engineStallReset dt .audio)
    (fun a => (∃ i : Fin 2, (a.audio[i]).mode = .running ∧ (a.audio[i]).hopStart.isSome = true) ∧
      a.prep.audAt + ticksMs 100 ≤ a.elapsed)
    (fun a t => ∀ i : Fin 2, (t.audio[i]).frames = [] ∧ (t.audio[i]).ready = none ∧ (t.audio[i]).mode = (a.audio[i]).mode ∧
      (t.audio[i]).route = (a.audio[i]).route)

/-! ### Audio -/

/-- AUDIO_CONFIG takes effect; an input that was OFF and is enabled acquires with its settings (R372, R375). -/
def Claims.audioConfig : Prop :=
  ∀ (i : Fin 2),
  Serves .audioConfig 0x0620 0 true
    (fun _ h => fld h.payload 0 1 = i.val ∧ h.tail 16 = false ∧ fld h.payload 1 1 ≤ 1 ∧ zeros h.payload 8 8 = true ∧
      audCfgBad (audCfgOf h.payload) = false)
    stOk (fun _ _ => []) (fun a h => audioApply i (fld h.payload 1 1 == 1) (audCfgOf h.payload) a) ∧
  ∀ (a : State) (c : AudCfg), (a.audio[i]).mode = .off →
    ((audioApply i true c a).audio[i]).mode = .acquire ∧ ((audioApply i true c a).audio[i]).cfg = c ∧
    ((audioApply i false c a).audio[i]).mode = .off ∧ ((audioApply i false c a).audio[i]).cfg = c

/-- AUDIO_ROUTE takes the route in place of the function's own, or ends it, and answers the next hop (R371, R375). -/
def Claims.audioRoute : Prop :=
  ∀ (i : Fin 2),
  Serves .audioRoute 0x0621 1 false
    (fun a h => fld h.payload 0 1 = i.val ∧ fld h.payload 1 1 = 0xFF ∧
      ((a.audio[i]).route.all fun r => r.fn == h.fn) = true ∧ h.tail 32 = false ∧ zeros h.payload 3 1 = true ∧
      zeros h.payload 0x18 8 = true ∧ (bufferAt h.payload 8).reserved = false)
    stOk (fun a _ => routeReply a.audio[i]) (fun a _ => endAudioRoute i a) ∧
  ∀ (q : Fin 32),
  Serves .audioRoute 0x0621 1 false
    (fun a h => fld h.payload 0 1 = i.val ∧ fld h.payload 1 1 = q.val ∧ a.plan.queues[q] = h.fn ∧
      ((a.audio[i]).route.all fun r => r.fn == h.fn) = true ∧ h.tail 32 = false ∧ zeros h.payload 3 1 = true ∧
      zeros h.payload 0x18 8 = true ∧ BitVec.ofNat 8 (fld h.payload 2 1) ≠ 0 ∧
      BitVec.ofNat 8 (fld h.payload 2 1) &&& ~~~ (a.audio[i]).nextMask = 0 ∧
      fld h.payload 4 4 ∈ [16, 32, 64, 128, 256, 512, 1024, 2048, 4096, 8192, 16384, 32768, 65536] ∧
      bufferBad a h.fn (bufferAt h.payload 8) = false ∧ 128 * fld h.payload 4 4 ≤ (bufferAt h.payload 8).length)
    stOk (fun a _ => routeReply a.audio[i])
    (fun a h => (endAudioRoute i a).modAudio i fun x => { x with
      route := some ⟨h.fn, q, BitVec.ofNat 8 (fld h.payload 2 1), fld h.payload 4 4, (bufferAt h.payload 8).addr,
        (bufferAt h.payload 8).millpond⟩ })

/-- A whole frame of a RUNNING input that its FIFO has room for joins the hop in progress (R113, R367). While an input acquires, a
good frame in time counts, a bad one begins the count again, and the sixteenth good one in a row is RUNNING, with event 0xB305
where the input was LOST (R367). -/
def Claims.audioFrame : Prop :=
  ∀ (i : Fin 2) (skew : Int) (drained : Nat) (samples : List Int),
  let fs (a : State) : Held := hold a (stampNear a skew)
  ActsSo (fun dt => .audioFrame dt i skew true drained samples)
    (fun a => (a.audio[i]).mode = .running ∧ (a.audio[i]).frames ≠ [] ∧ (a.audio[i]).frames.length < 480 ∧
      (a.audio[i]).fifo - drained + 4 * (a.audio[i]).cfg.slots ≤ 4096)
    (fun a t => (t.audio[i]).frames = samples.map (sampleCode (a.audio[i]).cfg) :: (a.audio[i]).frames ∧
      (t.audio[i]).lastFs = some (fs a) ∧ (t.audio[i]).bad = 0 ∧ (t.audio[i]).mode = .running) ∧
  Acts (fun dt => .audioFrame dt i skew true drained samples)
    (fun a => ((a.audio[i]).mode = .acquire ∨ (a.audio[i]).mode = .lost) ∧ frameRateOk a a.audio[i] (fs a) = true ∧
      (a.audio[i]).good < 15)
    (fun a => a.modAudio i fun x => { x with good := x.good + 1, lastFs := some (fs a) }) ∧
  Acts (fun dt => .audioFrame dt i skew true drained samples)
    (fun a => ((a.audio[i]).mode = .acquire ∨ (a.audio[i]).mode = .lost) ∧ frameRateOk a a.audio[i] (fs a) = false)
    (fun a => a.modAudio i fun x => { x with good := 0, lastFs := some (fs a) }) ∧
  Acts (fun dt => .audioFrame dt i skew true drained samples)
    (fun a => (a.audio[i]).mode = .acquire ∧ frameRateOk a a.audio[i] (fs a) = true ∧ (a.audio[i]).good = 15)
    (fun a => a.modAudio i fun x => { x with
      mode := .running, good := 0, bad := 0, lastFs := some (fs a), frames := [], before := [] }) ∧
  Acts (fun dt => .audioFrame dt i skew true drained samples)
    (fun a => (a.audio[i]).mode = .lost ∧ frameRateOk a a.audio[i] (fs a) = true ∧ (a.audio[i]).good = 15)
    (fun a => (post 0xB305 wide i a).modAudio i fun x => { x with
      mode := .running, good := 0, bad := 0, lastFs := some (fs a), gap := true, frames := [], before := [] })

/-- FS absent for 100 µs from a RUNNING input, with no hop complete: LOST, and the hop in progress is discarded (R367). -/
def Claims.audioLossTimeout : Prop :=
  ∀ (i : Fin 2) (h : Held),
  ActsSo (fun dt => .audioLossTimeout dt i)
    (fun a => (a.audio[i]).mode = .running ∧ (a.audio[i]).lastFs = some h ∧ (a.audio[i]).frames.length ≠ 480 ∧
      timeOf a h + 25600000 ≤ timeOf a (hold a (now a)))
    (fun a t => (t.audio[i]).mode = .lost ∧ (t.audio[i]).frames = [] ∧ (t.audio[i]).hops = (a.audio[i]).hops)

/-- 480 frames complete a hop: its records are computed, one for each slot of the mask (R368). -/
def Claims.audioHop : Prop :=
  ∀ (i : Fin 2),
  ActsSo (fun dt => .audioHop dt i)
    (fun a => (a.audio[i]).mode = .running ∧ (a.audio[i]).frames.length = 480 ∧ (a.audio[i]).ready = none)
    (fun a t => (t.audio[i]).hops = (a.audio[i]).hops + 1 ∧ (t.audio[i]).frames = [] ∧
      (t.audio[i]).before = (a.audio[i]).frames.take 32 ∧
      (t.audio[i]).ready = some ⟨(a.audio[i]).submitted, (a.audio[i]).hops,
        (maskSlots (a.audio[i]).cfg.mask).map (slotRecord a a.audio[i])⟩)

/-- The records of a hop are written: to the route, with their entry, and to the guardian (R369 to R371). -/
def Claims.audioRecordsWritten : Prop :=
  ∀ (i : Fin 2) (r : AudReady),
  ActsSo (fun dt => .audioRecordsWritten dt i) (fun a => (a.audio[i]).ready = some r)
    (fun a t => (t.audio[i]).ready = none ∧ (t.audio[i]).past = (r.records :: (a.audio[i]).past).take 64 ∧
      t.prep.audAt = a.elapsed)

/-! ### Weir -/

/-- A 1 ms sample of Tj: hot from 95 °C until it is below 90 °C, with the events 0x6001 and 0x6002 (R377). -/
def Claims.thermalSample : Prop :=
  ∀ (tj : Int),
  ActsSo (fun dt => .thermalSample dt tj) (fun a => mainRuns a = true)
    (fun a t => t.weir.tj = BitVec.ofInt 16 tj ∧
      (95 * 16 ≤ tj → t.weir.hot = true) ∧ (tj < 90 * 16 → t.weir.hot = false) ∧
      (90 * 16 ≤ tj → tj < 95 * 16 → t.weir.hot = a.weir.hot)) ∧
  Acts (fun dt => .thermalSample dt tj)
    (fun a => mainRuns a = true ∧ a.weir.hot = false ∧ 95 * 16 ≤ tj ∧ tj ≤ 105 * 16 ∧ 100 * 16 ≤ tj)
    (fun a => recompute (post 0x6001 wide wide (a.modWeir fun w => { w with tj := BitVec.ofInt 16 tj, hot := true })))

/-- Full retraining begins with a drain and event 0x6301: on the training's own temperature limit, or after sixteen
uncorrectable errors within 1 s (R390). -/
def Claims.fullRetrainRequest : Prop :=
  ∀ (cause : RetrainCause),
  Acts (fun dt => .fullRetrainRequest dt cause)
    (fun a => a.weir.store = .available ∧ (cause = .temperature ∨ eccBurst a = true))
    (fun a => recompute (post 0x6301 wide wide (a.modWeir fun w => { w with
      store := .draining, drainFrom := some a.elapsed })))

/-- Nothing is in flight any more: the store is RETRAINING (R390). -/
def Claims.weirDrainEnd : Prop :=
  Acts (fun dt => .weirDrainEnd dt) (fun a => a.weir.store = .draining ∧ lpFrames a = false)
    (fun a => recompute (a.modWeir fun w => { w with
      store := .retraining, drainFrom := none, retrainFrom := some a.elapsed }))

/-- A drain of 100 ms ends with the frames in progress cut at their producers (R389, R390). -/
def Claims.weirDrainTimeout : Prop :=
  ∀ (f : Nat),
  Acts (fun dt => .weirDrainTimeout dt)
    (fun a => a.weir.store = .draining ∧ a.weir.drainFrom = some f ∧ f + ticksMs 100 ≤ a.elapsed)
    (fun a => enterRetraining (cutLpFrames a))

/-- Retraining ends: the store is AVAILABLE again, with event 0x6302 (R390). -/
def Claims.retrainDone : Prop :=
  Acts (fun dt => .retrainDone dt) (fun a => a.weir.store = .retraining)
    (fun a => recompute (post 0x6302 wide wide (a.modWeir fun w => { w with
      store := .available, retrainFrom := none, ueTimes := [] })))

/-- A short retraining, at most every 1 s, changes no serving mark, no store state, and logs nothing (R390). -/
def Claims.shortRetrain : Prop :=
  Acts (fun dt => .shortRetrain dt)
    (fun a => a.weir.store = .available ∧ (a.weir.shortAt = none ∨ since a a.weir.shortAt (ticksMs 1000) = true))
    (fun a => a.modWeir fun w => { w with shortAt := some a.elapsed })

/-- A controller stall enters RETRAINING at once; from AVAILABLE with event 0x6301 (R390). -/
def Claims.controllerStall : Prop :=
  Acts (fun dt => .controllerStall dt) (fun a => a.weir.store = .available)
    (fun a => post 0x6301 wide wide (enterRetraining (cutLpFrames a))) ∧
  Acts (fun dt => .controllerStall dt) (fun a => a.weir.store = .draining) (fun a => enterRetraining (cutLpFrames a))

/-- A flow that has been covered for 100 ms serves again, with event 0x6004 (R387). -/
def Claims.serveRestoreTimer : Prop :=
  ∀ (kind index c : Nat) (f : Flow),
  Acts (fun dt => .serveRestoreTimer dt kind index)
    (fun a => a.weir.flows.find? (fun g => g.kind = kind ∧ g.index = index) = some f ∧ f.serving = false ∧ f.cls ≠ .s ∧
      f.coverFrom = some c ∧ c + ticksMs 100 ≤ a.elapsed)
    (fun a => post 0x6004 f.owner f.index (a.modWeir fun w => { w with
      flows := putFlow { f with serving := true, coverFrom := none } w.flows }))

/-- Fault 0x6201 clears after 100 ms of cover, with event 0x6202 (R391). -/
def Claims.sFaultClearTimer : Prop :=
  ∀ (c : Nat),
  Acts (fun dt => .sFaultClearTimer dt)
    (fun a => a.weir.sFault = true ∧ a.weir.sCoverFrom = some c ∧ c + ticksMs 100 ≤ a.elapsed)
    (fun a => recompute (post 0x6202 wide wide (a.modWeir fun w => { w with sFault := false, sCoverFrom := none })))

/-- The scrubber advances one burst of 32 bytes: within a pass, or at its first burst when a pass was asked for or
period_h has passed since the last began; a corrected burst counts, an uncorrectable one latches its address
(R397, R398). Not due, it reads nothing. -/
def Claims.scrubBurst : Prop :=
  let scrubs (a : State) : Prop := a.weir.store = .available ∧ a.weir.gib ≠ 0 ∧ scrubDue a = true ∧
    a.weir.scrubPos + 1 < burstCount a.weir
  Acts (fun dt => .scrubBurst dt .clean) (fun a => scrubs a ∧ a.weir.scrubPos ≠ 0)
    (fun a => a.modWeir fun w => { w with scrubPos := w.scrubPos + 1 }) ∧
  Acts (fun dt => .scrubBurst dt .clean) (fun a => scrubs a ∧ a.weir.scrubPos = 0)
    (fun a => a.modWeir fun w => { w with scrubPos := 1, scrubFrom := some a.elapsed }) ∧
  Acts (fun dt => .scrubBurst dt .clean)
    (fun a => a.weir.store = .available ∧ a.weir.gib ≠ 0 ∧ scrubDue a = true ∧
      a.weir.scrubPos + 1 = burstCount a.weir)
    (fun a => a.modWeir fun w => { w with
      scrubPos := 0, scrubNow := false, passes := w.passes + 1, passEndNs := nowNs a }) ∧
  ActsSo (fun dt => .scrubBurst dt .corrected) (fun a => scrubs a ∧ a.weir.ce ≠ 0xFFFFFFFF)
    (fun a t => t.weir.ce = a.weir.ce + 1 ∧ t.weir.ue = a.weir.ue ∧ t.weir.scrubPos = a.weir.scrubPos + 1 ∧
      t.weir.scrubCorrected = a.weir.scrubCorrected + 1) ∧
  ActsSo (fun dt => .scrubBurst dt .uncorrectable) (fun a => scrubs a ∧ a.weir.ue ≠ 0xFFFFFFFF)
    (fun a t => t.weir.ue = a.weir.ue + 1 ∧ t.weir.ce = a.weir.ce ∧ t.weir.scrubPos = a.weir.scrubPos + 1 ∧
      t.weir.ueAddr = BitVec.ofNat 64 (32 * a.weir.scrubPos) ∧
      t.weir.scrubUncorrectable = a.weir.scrubUncorrectable + 1) ∧
  ∀ r : ScrubResult, Acts (fun dt => .scrubBurst dt r) (fun a => scrubDue a = false) (fun a => a)

/-- A full read of WEIR_SHED returns the function's count of shed frames and clears it (R401). -/
def Claims.weirShedRead : Prop :=
  ∀ (fn : Fn),
  Acts (fun dt => .weirShedRead dt fn) (fun a => Reached a fn)
    (fun a => emit (.completion fn [a.weir.shed[fn]]) (a.modWeir fun w => { w with shed := w.shed.set fn 0 }))

/-- A full read of WEIR_ECC_ADDR_LO returns the low word and latches the high one (R401). -/
def Claims.weirEccAddrLoRead : Prop :=
  ∀ (fn : Fn),
  Acts (fun dt => .weirEccAddrLoRead dt fn) (fun a => Reached a fn)
    (fun a => emit (.completion fn [a.weir.ueAddr.setWidth 32]) (a.modWeir fun w => { w with
      ueAddrHi := (w.ueAddr >>> (32 : Nat)).setWidth 32 }))

/-- WEIR_STATUS (R402): the marks, Tj, the capacities and demands in MB/s, and what is free. -/
def Claims.weirStatus : Prop :=
  Serves .weirStatus 0x0701 0 false (fun _ h => h.tail 0 = false) stOk
    (fun a _ =>
      let w := a.weir
      record [(1, b2n w.hot + 2 * b2n w.sFault + 4 * w.store.code), (1, 0), (2, w.tj.toNat), (4, mbps (lpPeak w)),
        (4, mbps (avail w .lpddr)), (4, mbps (sDemand w .lpddr w.flows)), (4, mbps (pDemand w .lpddr w.flows)),
        (4, mbps (sDemand w .millpond w.flows)), (4, mbps (pDemand w .millpond w.flows)), (2, shedding w),
        (2, 256 * w.mpUncorrectable + w.mpCorrectable),
        (4, (if w.store = .unavailable then 0 else poolUnits w) - usedUnits w.flows), (4, dynFreeKib w),
        (4, w.grantKib), (4, 0)])
    (fun a _ => a)

/-- WEIR_SHED_ORDER sets the band of every function and the functions that may open S streams (R385, R402). -/
def Claims.weirShedOrder : Prop :=
  ∀ (band : Fn → Fin 16),
  Serves .weirShedOrder 0x0702 0 true
    (fun _ h => h.tail 24 = false ∧ (∀ f : Fn, fld h.payload f 1 = band f) ∧ zeros h.payload 18 6 = true)
    stOk (fun _ _ => [])
    (fun a h => recompute (a.modWeir fun w => { w with
      band := Vector.ofFn fun f => (band f).val, sAllow := BitVec.ofNat 16 (fld h.payload 16 2) }))

/-- WEIR_CHECK of a class P demand in the present thermal state answers whether rule 2 of R382 holds beside the flows in
force and what commits in progress hold, and changes nothing (R312, R382, R402). -/
def Claims.weirCheck : Prop :=
  let total (a : State) (h : Hamper) : Nat :=
    sDemand a.weir .millpond (heldFlows a.weir) + pDemand a.weir .millpond (heldFlows a.weir) + fld h.payload 4 4
  let ordinary (a : State) (h : Hamper) : Prop :=
    h.tail 12 = false ∧ fld h.payload 0 1 = 1 ∧ fld h.payload 1 1 = 1 ∧ fld h.payload 2 1 = 0 ∧
      zeros h.payload 3 1 = true ∧ zeros h.payload 8 4 = true ∧
      sDemand a.weir .millpond (heldFlows a.weir) ≤ 245760000
  Serves .weirCheck 0x0703 1 false (fun a h => ordinary a h ∧ total a h ≤ 245760000) stOk
    (fun a h => record [(1, 1), (3, 0), (1, 1), (1, 1), (1, 0), (1, 0), (4, 245760), (4, mbps (total a h)), (4, 0)])
    (fun a _ => a) ∧
  Serves .weirCheck 0x0703 1 false (fun a h => ordinary a h ∧ 245760000 < total a h) stOk
    (fun a h => record [(1, 0), (3, 0), (1, 1), (1, 1), (1, 0), (1, 0), (4, 245760), (4, mbps (total a h)),
      (4, mbps (total a h) - 245760)])
    (fun a _ => a)

/-- WEIR_SCRUB sets the period, may begin a pass at once, and answers the scrub counters (R398, R402). -/
def Claims.weirScrub : Prop :=
  Serves .weirScrub 0x0704 3 true
    (fun _ h => h.tail 8 = false ∧ fld h.payload 0 2 ≤ 720 ∧ fld h.payload 2 1 ≤ 1 ∧ zeros h.payload 3 5 = true)
    stOk
    (fun a _ => record [(4, a.weir.passes.toNat), (8, a.weir.passEndNs.toNat), (4, a.weir.scrubCorrected.toNat),
      (4, a.weir.scrubUncorrectable.toNat), (4, 0)])
    (fun a h => a.modWeir fun w => if fld h.payload 2 1 = 1
      then { w with scrubPeriodH := fld h.payload 0 2, scrubNow := true, scrubPos := 0 }
      else { w with scrubPeriodH := fld h.payload 0 2 })

/-! ### The log, faults, the watchdog and the full reset -/

/-- The oldest event of the collector enters the log (R480 to R482): it merges into the newest entry that it fits, or
takes a new one with the next sequence number. -/
def Claims.eventLogged : Prop :=
  ∀ (e : Event) (rest : List Event),
  let drained (a : State) : State := a.modLog fun g => { g with collector := rest }
  (∀ (i : Nat),
    Acts (fun dt => .eventLogged dt)
      (fun a => serves a = true ∧ a.start.doorClosed = false ∧ a.log.collector = e :: rest ∧
        mergePlace (drained a) e = some i)
      (fun a => (drained a).modLog fun g => { g with
        entries := modPlace (mergeInto e) i g.entries, newSinceMirror := true
        faults := g.faults.map fun f =>
          if (a.log.entries[i]?).map LogEntry.sequence = some f.sequence then { f with count := f.count + 1 } else f })) ∧
  ActsSo (fun dt => .eventLogged dt)
    (fun a => serves a = true ∧ a.start.doorClosed = false ∧ a.log.collector = e :: rest ∧
      mergePlace (drained a) e = none ∧ severity e.code ≠ 2 ∧ a.log.lostBefore = false)
    (fun a t => t.log.collector = rest ∧ t.log.sequence = a.log.sequence + 1 ∧ t.log.faults = a.log.faults ∧
      t.log.entries = (⟨e.code, severity e.code, false, false, false, false, a.log.sequence + 1, e.time, e.time, e.count,
        e.fn, e.unit, startLow a⟩ :: a.log.entries).take 1024)

/-- A FAULT that 60 s part from the last mirror begins a mirror with reason 1 into the next bank (R486, R487). -/
def Claims.mirrorTimer : Prop :=
  ActsSo (fun dt => .mirrorTimer dt)
    (fun a => a.start.core = .valtyn ∧ mainRuns a = true ∧ a.log.mirroring = none ∧ a.log.newSinceMirror = true ∧
      a.log.faultSinceMirror = true ∧ a.log.lastMirror = none)
    (fun a t => t.log.mirroring = some 1 ∧ t.log.newSinceMirror = false ∧ t.log.faultSinceMirror = false ∧
      t.log.lastMirror = some a.elapsed ∧ t.mirrorNumber = a.mirrorNumber + 1 ∧ t.log.entries = a.log.entries ∧
      t.mirror[mirrorBank (a.mirrorNumber + 1)] = some ⟨a.mirrorNumber + 1, a.start.number, 1, a.log.sequence,
        a.log.lost, nowNs a, a.log.entries.take 256, false⟩)

/-- A mirror completes: its bank is good; one of a shutdown is followed by PWR_EN low, one of DEVICE_RESET by the reset
(R487, R492, R505). -/
def Claims.logMirrorDone : Prop :=
  (∀ (r : Nat), r ≠ 2 → r ≠ 3 →
    ActsSo (fun dt => .logMirrorDone dt) (fun a => a.log.mirroring = some r)
      (fun a t => t.log.mirroring = none ∧ t.pwr.mirrored = true ∧ t.pwr.pwrEn = a.pwr.pwrEn ∧
        t.mirror[mirrorBank a.mirrorNumber] =
          (a.mirror[mirrorBank a.mirrorNumber]).map fun k => { k with good := true })) ∧
  ActsSo (fun dt => .logMirrorDone dt) (fun a => a.log.mirroring = some 2)
    (fun _ t => t.log.mirroring = none ∧ t.pwr.pwrEn = false) ∧
  ActsSo (fun dt => .logMirrorDone dt) (fun a => a.log.mirroring = some 3 ∧ a.pwr.state = .running)
    (fun _ t => .deviceReset ∈ t.pwr.resetHeld)

/-- The entries that LOG_READ answers, oldest first: from a sequence number on, or from the first with 0xFFFFFFFF (R499). -/
def Claims.logFound (a : State) (h : Hamper) : List LogEntry :=
  ((if fld h.payload 0 4 = 0xFFFFFFFF then logSource a (fld h.payload 6 1)
    else (logSource a (fld h.payload 6 1)).filter fun e => decide (fld h.payload 0 4 ≤ e.sequence.toNat)).take
      (fld h.payload 4 2))

/-- LOG_READ writes entries to the buffer, oldest first, from a sequence number on (R499); where none is found it answers
a count of 0 and writes nothing. -/
def Claims.logRead : Prop :=
  let ordinary (a : State) (h : Hamper) : Prop :=
    h.tail 24 = false ∧ fld h.payload 4 2 ≠ 0 ∧ fld h.payload 4 2 ≤ 1024 ∧ fld h.payload 6 1 ≤ 1 ∧
      zeros h.payload 7 1 = true ∧ bufferBad a h.fn (bufferAt h.payload 8) = false ∧
      32 * fld h.payload 4 2 ≤ (bufferAt h.payload 8).length
  Serves .logRead 0x0C01 0 true (fun a h => ordinary a h ∧ Claims.logFound a h ≠ [])
    stOk
    (fun a h => record [(2, (Claims.logFound a h).length), (2, 0),
      (4, ((Claims.logFound a h).head?.map fun e => e.sequence.toNat).getD 0)])
    (fun a h => bufferWrite h.fn (bufferAt h.payload 8) 0 ((Claims.logFound a h).flatMap logEntryBytes) a) ∧
  Serves .logRead 0x0C01 0 true (fun a h => ordinary a h ∧ Claims.logFound a h = [])
    stOk (fun _ _ => record [(2, 0), (2, 0), (4, 0)]) (fun a _ => a)

/-- LOG_CLEAR without the mirror empties the log; its own entry 0x9014 has sequence number 1 (R499). -/
def Claims.logClear : Prop :=
  Serves .logClear 0x0C02 0 true
    (fun _ h => h.tail 4 = false ∧ fld h.payload 0 1 = 0 ∧ zeros h.payload 1 3 = true)
    stOk (fun a _ => leBytes 4 a.log.entries.length)
    (fun a _ => newEntry ⟨0x9014, wide, wide, nowNs a, 1⟩ (a.modLog fun g => { g with
      entries := [], headSlot := 0, sequence := 0 })) ∧
  ∀ a : State, a.log.lostBefore = false →
    let t := newEntry ⟨0x9014, wide, wide, nowNs a, 1⟩ (a.modLog fun g => { g with
      entries := [], headSlot := 0, sequence := 0 })
    t.log.sequence = 1 ∧ t.log.entries.map LogEntry.code = [0x9014]

/-- FAULT_ACK ends one pending fault, or all with 0xFFFFFFFF, and answers how many remain (R485, R499). -/
def Claims.faultAck : Prop :=
  Serves .faultAck 0x0C03 0 true
    (fun _ h => h.tail 8 = false ∧ zeros h.payload 4 4 = true ∧ fld h.payload 0 4 = 0xFFFFFFFF)
    stOk (fun _ _ => List.replicate 4 0)
    (fun a _ => acknowledge (fun _ => true) a) ∧
  (∀ q : Nat, q ≠ 0xFFFFFFFF →
    Serves .faultAck 0x0C03 0 true
      (fun a h => h.tail 8 = false ∧ zeros h.payload 4 4 = true ∧ fld h.payload 0 4 = q ∧
        ∃ f ∈ a.log.faults, f.sequence.toNat = q)
      stOk
      (fun a _ => record [(2, (a.log.faults.filter fun f => f.sequence.toNat != q).length), (2, 0)])
      (fun a _ => acknowledge (fun f => f.sequence.toNat == q) a)) ∧
  ∀ a : State, (acknowledge (fun _ => true) a).log.faults = [] ∧
    (acknowledge (fun _ => true) a).log.faultOverflow = false

/-- FAULT_STATUS answers the pending faults, the WEDGED functions, the start number and the reset cause (R499). -/
def Claims.faultStatus : Prop :=
  Serves .faultStatus 0x0C04 0 false (fun _ h => h.tail 0 = false) stOk
    (fun a _ =>
      record [(2, a.log.faults.length), (2, wedgedMask a), (4, a.start.number.toNat), (1, a.pwr.cause),
        (1, b2n a.log.faultOverflow + 2 * b2n a.log.restored + 4 * b2n a.pwr.lockstep), (2, 0),
        (4, a.log.lostTotal.toNat)] ++
      padTo 128 ((a.log.faults.take 8).flatMap fun f => record [(2, f.code), (1, f.fn), (1, f.unit),
        (4, f.sequence.toNat), (4, f.count.toNat), (4, 0)]))
    (fun a _ => a)

/-- LOG_FILTER sets the classes whose INFO events are not logged, and answers the mask before (R483, R499). -/
def Claims.logFilter : Prop :=
  Serves .logFilter 0x0C05 4 true
    (fun _ h => h.tail 4 = false ∧ fld h.payload 0 2 &&& 0xF001 = 0 ∧ zeros h.payload 2 2 = true)
    stOk (fun a _ => record [(2, a.log.filterMask.toNat), (2, 0)])
    (fun a h => a.modLog fun g => { g with filterMask := BitVec.ofNat 16 (fld h.payload 0 2) })

/-- DEVICE_RESET replies, and an armed switch is discarded; with the mirror skipped the full reset then asserts, with it
the bypass switches close and the log is mirrored with reason 3 first (R492, R496, R499). -/
def Claims.deviceReset : Prop :=
  ∀ (s : State) (dt : Nat) (r : Req) (h : Hamper),
  Asked (advance dt s) r h 0x0008 0 true → h.tail 8 = false → fld h.payload 0 4 = 0x4C565253 →
  zeros h.payload 5 3 = true →
  let a := advance dt s
  let replied := reply h stOk 0 []
    (taken h.fn h.porch ((post 0x9016 wide wide a).modStart fun x => { x with live := .idle }))
  (fld h.payload 4 1 = 1 → exec (.deviceReset dt r) s = .next (assertReset .deviceReset replied)) ∧
  (fld h.payload 4 1 = 0 → exec (.deviceReset dt r) s = .next (mirrorBegin 3 (drainAll 256
    { replied with guard := { replied.guard with paths := replied.guard.paths.map GPath.shut } }))) ∧
  ∀ p : Fin 2, (((a.guard.paths).map GPath.shut)[p]).bypass = true

/-- A full read of LOG_LOST returns the count and clears it (R498). -/
def Claims.logLostRead : Prop :=
  Acts (fun dt => .logLostRead dt 0) (fun a => Reached a 0)
    (fun a => emit (.completion 0 [a.log.lost]) (a.modLog fun g => { g with lost := 0 }))

/-- A full read of LOG_FILTERED returns the count and clears it (R498). -/
def Claims.logFilteredRead : Prop :=
  Acts (fun dt => .logFilteredRead dt 0) (fun a => Reached a 0)
    (fun a => emit (.completion 0 [a.log.filtered]) (a.modLog fun g => { g with filtered := 0 }))

/-- A service within 150 ms moves the watchdog's time; a later one also counts and logs 0x9011 (R489). -/
def Claims.watchdogService : Prop :=
  Acts (fun dt => .watchdogService dt)
    (fun a => a.pwr.wdtArmed = true ∧ mainRuns a = true ∧ a.elapsed ≤ a.pwr.wdtLast + ticksMs 150)
    (fun a => a.modPower fun p => { p with wdtLast := a.elapsed, wdtPause := 0 }) ∧
  Acts (fun dt => .watchdogService dt)
    (fun a => a.pwr.wdtArmed = true ∧ mainRuns a = true ∧ a.pwr.wdtLast + ticksMs 150 < a.elapsed ∧
      a.pwr.wdtLate ≠ 0xFFFF)
    (fun a => post 0x9011 wide wide (a.modPower fun p => { p with
      wdtLast := a.elapsed, wdtPause := 0, wdtLate := p.wdtLate + 1 }))

/-- What a full reset of a running part leaves (R492 to R496): internal reset is held, its cause recorded, both bypass
switches closed, and the watchdog is not armed. -/
abbrev Claims.fullReset (a t : State) (src : ResetSource) : Prop :=
  t.pwr.state = .starting ∧ src ∈ t.pwr.resetHeld ∧ t.pwr.cause = causeOf t.pwr.resetHeld ∧ t.pwr.wdtArmed = false ∧
  (∀ p : Fin 2, (t.guard.paths[p]).bypass = true) ∧
  t.pwr.releaseAt = some (max (a.elapsed + src.holdTicks) (a.pwr.releaseAt.getD 0)) ∧
  t.mram = a.mram ∧ t.mirror = a.mirror

/-- The watchdog expires no sooner than 225 ms after its last service, the time in which the debug port halts the core
apart; while it is halted, never (R489). -/
def Claims.watchdogExpiry : Prop :=
  ActsSo (fun dt => .watchdogExpiry dt)
    (fun a => a.pwr.wdtArmed = true ∧ a.pwr.wdtHalt = none ∧
      a.pwr.wdtLast + a.pwr.wdtPause + ticksMs 225 ≤ a.elapsed ∧ a.pwr.state = .running)
    (fun a t => Claims.fullReset a t .watchdog) ∧
  Acts (fun dt => .watchdogExpiry dt) (fun a => a.pwr.wdtHalt.isSome = true) (fun a => a)

/-- A lockstep mismatch acts as the watchdog does, and sets the lockstep bit (R490). -/
def Claims.lockstepMismatch : Prop :=
  ActsSo (fun dt => .lockstepMismatch dt) (fun a => mainRuns a = true ∧ a.pwr.state = .running)
    (fun a t => Claims.fullReset a t .watchdog ∧ t.pwr.lockstep = true)

/-- RESET_N low for 1 µs is a full reset (R492). -/
def Claims.resetNAssert : Prop :=
  ActsSo (fun dt => .resetNAssert dt) (fun a => a.pwr.state = .running)
    (fun a t => Claims.fullReset a t .resetN ∧ t.pwr.resetNLow = true)

/-- RESET_N rises: internal reset ends no sooner than 100 µs later (R492). -/
def Claims.resetNRelease : Prop :=
  Acts (fun dt => .resetNRelease dt) (fun a => .resetN ∈ a.pwr.resetHeld)
    (fun a => a.modPower fun p => { p with
      resetNLow := false, releaseAt := some (max (a.elapsed + ticksUs 100) (p.releaseAt.getD 0)) })

/-- A supply fault after supplies good, while PWR_EN is high, is a full reset, and the supplies are no longer good; in
the fall that PWR_EN began it is none (R504, R505). -/
def Claims.supplyFault : Prop :=
  ActsSo (fun dt => .supplyFault dt)
    (fun a => a.pwr.suppliesGood = true ∧ a.pwr.pwrEn = true ∧ a.pwr.state = .running)
    (fun a t => Claims.fullReset a t .supply ∧ t.pwr.suppliesGood = false) ∧
  Acts (fun dt => .supplyFault dt) (fun a => a.pwr.pwrEn = false) (fun a => a)

/-- The hold of internal reset ends: a new start begins with the cause of the sources that held it (R492, R493). -/
abbrev Claims.fullResetRelease : Prop :=
  ActsSo (fun dt => .fullResetRelease dt)
    (fun a => a.pwr.resetHeld ≠ [] ∧ a.pwr.resetNLow = false ∧ a.pwr.suppliesGood = true ∧
      due a a.pwr.releaseAt = true)
    (fun a t => t.pwr.resetHeld = [] ∧ t.pwr.releaseAt = none ∧ t.start.cause = causeOf a.pwr.resetHeld)

/-! ### Quiescing an instance -/

/-- INSTANCE_QUIESCE is accepted: the blocks of its scope stop, in the order of its bits (R475). -/
def Claims.instanceQuiesce : Prop :=
  Serves .instanceQuiesce 0x0103 1 false
    (fun a h => (a.fns[h.fn]).mode = .ready ∧ (a.fns[h.fn]).quiesce = none ∧ h.tail 2 = false ∧ fld h.payload 0 2 ≤ 255)
    stAccepted (fun _ _ => [])
    (fun a h => (List.range 8).foldl
      (fun (t : State) (k : Nat) => if bit (fld h.payload 0 2) k then quiescePart h.fn t k else t)
      (accept h h.fn (a.modFn h.fn fun f => { f with quiesce := some ⟨[], 0⟩ })))

/-- The last block is quiet and no job is still stopping: HAMPER_DONE carries the count of what was cancelled (R475). -/
def Claims.instanceQuiesceDone : Prop :=
  ∀ (fn : Fn) (n : Nat),
  Acts (fun dt => .instanceQuiesceDone dt fn)
    (fun a => (a.fns[fn]).quiesce = some ⟨[], n⟩ ∧ stopsPending fn a = false)
    (fun a => hamperDone 0x0103 fn stOk (BitVec.ofNat 32 n) (a.modFn fn fun f => { f with quiesce := none }))

/-! ### The witness sampler -/

/-- WITNESS_CONFIG of an idle sampler takes its store from the dynamic pool and is CONFIGURED, its capture ticks counted
from now; with bytes 0 it gives the store back (R439, R444, R463). -/
def Claims.witnessConfig : Prop :=
  ∀ (w : Weir),
  Serves .witnessConfig 0x0901 0 true
    (fun a h => a.wit.idle = true ∧ h.tail 160 = false ∧ witConfigBad h.payload = false ∧ fld h.payload 12 4 ≠ 0 ∧
      dynAlloc 7 0 (fld h.payload 12 4 / 1024) (dynFree 7 0 a.weir) = some w)
    stOk (fun _ h => record [(4, (witCfgOf h.payload).capacity), (4, dynAddr w 7 0)])
    (fun a h => { a with
      weir := w
      wit := { Wit.reset with
        mode := .configured, cfg := witCfgOf h.payload, appliedAt := a.elapsed, raw := a.wit.raw, level := a.wit.level
        tracks := freshTracks (witCfgOf h.payload) a.wit.level, capture := a.wit.capture, ignored := a.wit.ignored
        route := a.wit.route, overflow := a.wit.overflow, quiet := a.wit.quiet } }) ∧
  Serves .witnessConfig 0x0901 0 true
    (fun a h => a.wit.idle = true ∧ h.tail 160 = false ∧ witConfigBad h.payload = false ∧ fld h.payload 12 4 = 0)
    stOk (fun _ _ => List.replicate 8 0)
    (fun a _ => { a with
      weir := dynFree 7 0 a.weir
      wit := { Wit.reset with
        raw := a.wit.raw, level := a.wit.level, capture := a.wit.capture, ignored := a.wit.ignored, route := a.wit.route
        overflow := a.wit.overflow, quiet := a.wit.quiet } })

/-- WITNESS_ARM of an idle, configured sampler begins the next capture, PENDING (R449, R463). -/
def Claims.witnessArm : Prop :=
  Serves .witnessArm 0x0902 0 true
    (fun a h => a.wit.idle = true ∧ a.wit.mode ≠ .unconfigured ∧ h.tail 40 = false ∧ zeros h.payload 9 7 = true ∧
      a.wit.cfg.reduced = false ∧ fld h.payload 0 4 ≠ 0 ∧
      fld h.payload 0 4 + fld h.payload 4 4 ≤ a.wit.cfg.capacity ∧ (witArmOf h.payload).units ≠ 0 ∧
      (witArmOf h.payload).codes = 0)
    stOk (fun a _ => leBytes 4 (a.wit.capture + 1).toNat)
    (fun a h => (witDiscard a).modWit fun w => { w with
      mode := .pending, arm := witArmOf h.payload, capture := a.wit.capture + 1, quiet := false, cause := 0
      aborted := false, glitches := 0, dense := 0, denseOwed := 0 })

/-- WITNESS_DISARM with STOP or ABORT stops a capture; of a PENDING one it cancels the job; mode 2 publishes the trigger
code 0x5F of an armed capture, and does nothing to a triggered one (R450, R457, R463). -/
def Claims.witnessDisarm : Prop :=
  Serves .witnessDisarm 0x0903 0 true
    (fun a h => a.wit.mode ≠ .unconfigured ∧ a.wit.mode ≠ .pending ∧ a.wit.disarm = none ∧ h.tail 4 = false ∧
      fld h.payload 0 1 ≤ 1 ∧ zeros h.payload 1 3 = true)
    stOk (fun _ _ => []) (fun a h => a.modWit fun w => { w with disarm := some (fld h.payload 0 1, false) }) ∧
  Serves .witnessDisarm 0x0903 0 true
    (fun a h => a.wit.mode = .pending ∧ a.wit.disarm = none ∧ h.tail 4 = false ∧ fld h.payload 0 1 ≤ 1 ∧
      zeros h.payload 1 3 = true)
    stOk (fun _ _ => [])
    (fun a h => witEntry stCancelled (fNeverStarted ||| fLast) 0 ((witDiscard a).modWit fun w => { w with
      disarm := some (fld h.payload 0 1, true) })) ∧
  Serves .witnessDisarm 0x0903 0 true
    (fun a h => a.wit.mode = .armed ∧ a.wit.disarm = none ∧ h.tail 4 = false ∧ fld h.payload 0 1 = 2 ∧
      zeros h.payload 1 3 = true)
    stOk (fun _ _ => []) (fun a _ => publishMask (hopMask a 0x5F) true 0x5F (hold a (now a)) 0 a) ∧
  Serves .witnessDisarm 0x0903 0 true
    (fun a h => a.wit.mode = .triggered ∧ a.wit.disarm = none ∧ h.tail 4 = false ∧ fld h.payload 0 1 = 2 ∧
      zeros h.payload 1 3 = true)
    stOk (fun _ _ => []) (fun a _ => a)

/-- The disarm takes effect: an armed capture ends ABORTED and is held, or discarded where the mode says so; QUIET
follows (R457). -/
def Claims.witnessQuiet : Prop :=
  ActsSo (fun dt => .witnessQuiet dt)
    (fun a => a.wit.disarm = some (0, false) ∧ (a.wit.mode = .armed ∨ a.wit.mode = .triggered))
    (fun _ t => t.wit.disarm = none ∧ t.wit.quiet = true ∧ t.wit.mode = .captured ∧ t.wit.aborted = true) ∧
  ActsSo (fun dt => .witnessQuiet dt)
    (fun a => a.wit.disarm = some (1, false) ∧ (a.wit.mode = .armed ∨ a.wit.mode = .triggered))
    (fun _ t => t.wit.disarm = none ∧ t.wit.quiet = true ∧ t.wit.mode = .configured ∧ t.wit.ticks = [] ∧
      t.wit.delivering = false) ∧
  ∀ (m : Nat),
  Acts (fun dt => .witnessQuiet dt)
    (fun a => a.wit.disarm = some (m, true) ∧ a.wit.mode = .configured ∧ m = 0)
    (fun a => notice 0 nQuiet (BitVec.ofNat 32 (256 * kWitness)) stOk 1
      (a.modWit fun w => { w with disarm := none, quiet := true }))

/-- WITNESS_STATUS (R463). -/
def Claims.witnessStatus : Prop :=
  Serves .witnessStatus 0x0904 0 false (fun _ h => h.tail 0 = false) stOk
    (fun a _ =>
      let w := a.wit
      record [(1, w.mode.code), (1, b2n w.delivering + 2 * b2n w.overflow + 4 * b2n w.preShort), (2, 0),
        (4, w.capture.toNat), (4, w.ticks.length * w.cfg.span), (4, w.edges.length), (4, w.ignored.toNat),
        (4, if w.mode = .unconfigured then 0 else dynAddr a.weir 7 0), (4, w.analogHead), (4, w.edgeHead),
        (8, (w.trig.map fun t => heldNs a t.stamp).getD 0), (1, (w.trig.map WitTrig.code).getD 0xFF), (1, w.cause),
        (2, 0), (4, if w.mode = .captured ∨ w.mode = .stopped then w.recordBytes else 0)])
    (fun a _ => a)

/-- WITNESS_ROUTE ends the route with queue 0xFF, or takes a queue of PF0 and a buffer of slots; it answers whether a
capture is held (R455, R463). -/
def Claims.witnessRoute : Prop :=
  let asks (a : State) (h : Hamper) : Prop :=
    a.wit.delivering = false ∧ h.tail 40 = false ∧ fld h.payload 1 1 ≤ 1 ∧ zeros h.payload 2 2 = true ∧
      zeros h.payload 12 4 = true ∧ zeros h.payload 32 8 = true ∧ (bufferAt h.payload 16).reserved = false
  Serves .witnessRoute 0x0905 0 true (fun a h => asks a h ∧ fld h.payload 0 1 = 0xFF)
    stOk (fun a _ => leBytes 4 (b2n a.wit.heldCapture)) (fun a _ => a.modWit fun w => { w with route := none }) ∧
  ∀ (q : Fin 32),
  Serves .witnessRoute 0x0905 0 true
    (fun a h => asks a h ∧ fld h.payload 0 1 = q.val ∧ a.plan.queues[q] = 0 ∧
      fld h.payload 4 4 ∈ [1, 2, 4, 8, 16, 32, 64, 128, 256] ∧ fld h.payload 8 4 % 64 = 0 ∧
      128 + a.wit.cfg.bytes ≤ fld h.payload 8 4 ∧ bufferBad a h.fn (bufferAt h.payload 16) = false ∧
      fld h.payload 4 4 * fld h.payload 8 4 ≤ (bufferAt h.payload 16).length)
    stOk (fun a _ => leBytes 4 (b2n a.wit.heldCapture))
    (fun a h => a.modWit fun w => { w with
      route := some ⟨q, fld h.payload 4 4, fld h.payload 8 4, (bufferAt h.payload 16).addr,
        (bufferAt h.payload 16).millpond⟩
      delivering := bit (fld h.payload 1 1) 0 && a.wit.heldCapture })

/-- A conversion on a capture tick of an armed capture without reduction stores one place, over the oldest of a full ring
(R439, R446); the first tick after the arm begins the capture; a full capture FIFO stops it with OVERFLOW (R113, R453);
off a capture tick nothing converts. -/
def Claims.adcConversion : Prop :=
  ∀ (c0 c1 : BitVec 12) (i j drained : Nat),
  let place (a : State) : WitTick :=
    ⟨a.wit.tick, hold a (now a), a.wit.rawLevel, [analogWord i c0.toNat, analogWord j c1.toNat]⟩
  let fills (a : State) : Nat := (if a.wit.mode = .pending then 0 else a.wit.fifo) - drained + 4
  let stores (a : State) : Prop := captureTick a = true ∧ (a.wit.mode = .armed ∨ a.wit.mode = .pending) ∧
    a.wit.disarm = none ∧ a.wit.trig = none ∧ a.wit.cfg.reduced = false ∧ (∀ u ∈ a.wit.cfg.units, u.kind = 0) ∧
    (adcInputs a.wit.cfg.ain 0)[a.wit.next0]? = some i ∧ (adcInputs a.wit.cfg.ain 1)[a.wit.next1]? = some j
  ActsSo (fun dt => .adcConversion dt (some c0) (some c1) drained) (fun a => stores a ∧ fills a ≤ 2048)
    (fun a t => t.wit.mode = .armed ∧ t.wit.tick = a.wit.tick + 1 ∧ t.wit.tickAt = some (hold a (now a)) ∧
      t.wit.ticks = (a.wit.ticks ++ [place a]).drop (a.wit.ticks.length + 1 - a.wit.cfg.places) ∧
      t.wit.edges = a.wit.edges ∧ t.wit.fifo = fills a) ∧
  ActsSo (fun dt => .adcConversion dt (some c0) (some c1) drained) (fun a => stores a ∧ 2048 < fills a)
    (fun _ t => t.wit.mode = .stopped ∧ t.wit.overflow = true ∧ t.wit.cause = 1) ∧
  ∀ (x y : Option (BitVec 12)),
    Acts (fun dt => .adcConversion dt x y drained) (fun a => captureTick a = false) (fun a => a)

/-- A raw edge on a recorded DW line of a running capture enters the edge ring at the stamp that the TDC gives it; an edge
that the line's TDC drops for another of its tick marks the next record, and a full TDC FIFO stops the capture (R123, R126,
R442, R443, R453). The filtered level follows once the line has shown a level for more than dw_glitch_len samples. -/
def Claims.dwEdge : Prop :=
  ∀ (l : Fin 16) (ball : Line) (h : Held),
  let settled (a : State) : Prop := mainRuns a = true ∧ (a.wit.raw[l]).level = a.wit.level.getLsbD l ∧
    ball.level ≠ (a.wit.raw[l]).level
  let edge (a : State) : Prop := settled a ∧ a.wit.cfg.glitch ≠ 0 ∧ a.wit.storing = true ∧
    a.wit.cfg.dw.getLsbD l = true
  let mark : BitVec 16 := BitVec.ofNat 16 (2 ^ l.val)
  ActsSo (fun dt => .dwEdge dt l ball)
    (fun a => edge a ∧ a.wit.edges.length < a.wit.cfg.edgePlaces ∧ (tdcEdge (.dw l) ball.step a).1 = .stamped h)
    (fun a t => t.wit.raw = a.wit.raw.set l ⟨ball.level, a.elapsed, some h⟩ ∧ t.wit.level = a.wit.level ∧
      t.wit.mode = a.wit.mode ∧
      t.wit.edges = a.wit.edges ++ [⟨h, l, a.wit.denseOwed.getLsbD l, ball.level⟩]) ∧
  ActsSo (fun dt => .dwEdge dt l ball)
    (fun a => edge a ∧ (tdcEdge (.dw l) ball.step a).1 = .dense)
    (fun a t => t.wit.raw = a.wit.raw.set l ⟨ball.level, a.elapsed, none⟩ ∧ t.wit.mode = a.wit.mode ∧
      t.wit.edges = a.wit.edges ∧ t.wit.dense = a.wit.dense + 1 ∧ t.wit.denseOwed = a.wit.denseOwed ||| mark) ∧
  ActsSo (fun dt => .dwEdge dt l ball)
    (fun a => edge a ∧ (tdcEdge (.dw l) ball.step a).1 = .full)
    (fun _ t => t.wit.mode = .stopped ∧ t.wit.overflow = true ∧ t.wit.cause = 2) ∧
  ActsSo (fun dt => .dwEdge dt l ball)
    (fun a => settled a ∧ a.wit.cfg.glitch = 0 ∧ a.wit.mode = .unconfigured)
    (fun a t => (t.wit.raw[l]).level = ball.level ∧ t.wit.level = a.wit.level ^^^ mark ∧ t.wit.edges = a.wit.edges) ∧
  Acts (fun dt => .dwEdge dt l ball)
    (fun a => mainRuns a = true ∧ a.wit.mode = .unconfigured ∧ ball.level = (a.wit.raw[l]).level ∧
      (a.wit.raw[l]).level ≠ a.wit.level.getLsbD l ∧ (a.wit.raw[l]).since + a.wit.cfg.glitch ≤ a.elapsed)
    (fun a => a.modWit fun w => { w with level := w.level ^^^ mark })

/-- A TIMEOUT unit on a DW line fires once its line has been above for t_min_ns (R447, R448). -/
def Claims.witnessUnitTimeout : Prop :=
  ∀ (k : Fin 8) (u : WitUnit) (r : Held),
  let stamp : Held := ⟨r.raw + BitVec.ofNat 72 (u.tMin * 256), r.steps⟩
  Acts (fun dt => .witnessUnitTimeout dt k)
    (fun a => a.wit.cfg.units[k.val]? = some u ∧ u.kind = 4 ∧ 16 ≤ u.source ∧ a.wit.mode ≠ .unconfigured ∧
      (a.wit.tracks[k]).above = some true ∧ (a.wit.tracks[k]).timedOut = false ∧ (a.wit.tracks[k]).rose = some r ∧
      timeOf a stamp ≤ (now a).toNat)
    (fun a => publish (0x50 + k) stamp 0 (a.modWit fun w => { w with
      tracks := w.tracks.set k { a.wit.tracks[k] with timedOut := true } }))

/-- The last post tick is stored: the capture is held, its entry carries the record's length, and a route begins its
delivery (R451, R456). -/
def Claims.witnessCaptureEnd : Prop :=
  Acts (fun dt => .witnessCaptureEnd dt)
    (fun a => a.wit.mode = .triggered ∧ a.wit.disarm = none ∧ a.wit.complete = true) (witEnd .captured stOk fLast) ∧
  ∀ a : State,
    let t := witEnd .captured stOk fLast a
    t.wit.mode = .captured ∧ t.wit.aborted = false ∧ t.wit.delivered = false ∧
    t.wit.delivering = a.wit.route.isSome ∧ t.wit.capture = a.wit.capture ∧ t.wit.endAt = some (hold a (now a))

/-- A delivery ends with the record in its slot and its entry; a failed one keeps the record held (R455, R456). -/
def Claims.witnessDeliveryEnd : Prop :=
  ∀ (r : WitRoute),
  Acts (fun dt => .witnessDeliveryEnd dt true)
    (fun a => a.wit.delivering = true ∧ a.wit.route = some r)
    (fun a => witEntry stOk fFull ((witRecord a).take r.slotBytes).length
      ((deliver 0 r.mill (r.addr + a.wit.capture.toNat % r.slots * r.slotBytes) ((witRecord a).take r.slotBytes) a).modWit
        fun w => { w with delivering := false, delivered := true })) ∧
  ActsSo (fun dt => .witnessDeliveryEnd dt false)
    (fun a => a.wit.delivering = true ∧ a.wit.route = some r)
    (fun a t => t.wit.delivering = false ∧ t.wit.delivered = a.wit.delivered ∧ t.wit.mode = a.wit.mode ∧
      t.wit.ticks = a.wit.ticks ∧ t.wit.edges = a.wit.edges)

/-- A full read of WIT_IGNORED returns the count and clears it (R462). -/
def Claims.witIgnoredRead : Prop :=
  ∀ (fn : Fn),
  Acts (fun dt => .witIgnoredRead dt fn) (fun a => Reached a fn)
    (fun a => emit (.completion fn [a.wit.ignored]) (a.modWit fun w => { w with ignored := 0 }))

/-! ### Millrace -/

/-- CHAN_LOAD reads a programme that meets R405, and the channel is LOADED with its run registers and wait slots cleared;
count 0 unloads it; a programme that breaks R405 is refused with its first failing index, and one that cannot be read with
BUS_ERROR (R405, R437). -/
def Claims.chanLoad : Prop :=
  ∀ (c : Fin 64) (got : Fetched) (bytes : List Byte),
  let n (h : Hamper) : Nat := fld h.payload 2 2
  let code (h : Hamper) : List Byte := padTo (16 * n h) (bytes.take (16 * n h))
  let asks (a : State) (h : Hamper) : Prop :=
    fld h.payload 0 1 = c.val ∧ chanFn a c = h.fn ∧ (a.chans[c]).borrowed = false ∧
      ((a.chans[c]).mode = .idle ∨ (a.chans[c]).mode = .loaded) ∧ h.tail 24 = false ∧ zeros h.payload 1 1 = true ∧
      zeros h.payload 4 4 = true ∧ n h ≤ 4096 ∧ (bufferAt h.payload 8).reserved = false
  let sized (a : State) (h : Hamper) : Prop :=
    asks a h ∧ n h ≠ 0 ∧ bufferBad a h.fn (bufferAt h.payload 8) = false ∧ 16 * n h ≤ (bufferAt h.payload 8).length
  let reads (a : State) (h : Hamper) : Prop :=
    sized a h ∧ bufferRead a h.fn (bufferAt h.payload 8) got = .data bytes
  (∀ ds, Serves (fun dt r => .chanLoad dt r got) 0x0801 0 false
    (fun a h => reads a h ∧ checkFrom a h.fn (n h) 0 0 (code h) = .inl ds)
    stOk
    (fun _ h => record [(4, crc32c (code h)), (2, (ds.filter (· == 0)).length), (1, ds.foldl max 0), (1, 0)])
    (fun a h => a.modChan c fun x => { x with
      mode := .loaded, programme := code h, progAddr := (bufferAt h.payload 8).addr
      progMill := (bufferAt h.payload 8).millpond, depths := ds, ptrs := Chan.reset.ptrs, shapes := Chan.reset.shapes
      slots := Chan.reset.slots, runs := 0, runId := 0, crc := none, loops := [], pc := 0, bytes := 0 })) ∧
  (∀ i why, Serves (fun dt r => .chanLoad dt r got) 0x0801 0 false
    (fun a h => reads a h ∧ checkFrom a h.fn (n h) 0 0 (code h) = .inr (i, why))
    stBadArgument (fun _ _ => record [(2, i), (1, why), (1, 0)]) (fun a _ => a)) ∧
  Serves (fun dt r => .chanLoad dt r got) 0x0801 0 false
    (fun a h => sized a h ∧ bufferRead a h.fn (bufferAt h.payload 8) got = .failed)
    stBusError (fun _ _ => []) (fun a _ => a) ∧
  Serves (fun dt r => .chanLoad dt r got) 0x0801 0 false (fun a h => asks a h ∧ n h = 0)
    stOk (fun _ _ => List.replicate 8 0)
    (fun a _ => sweepWaits (a.modChan c fun x => { x with
      mode := .idle, programme := [], depths := [], slots := Chan.reset.slots, runs := 0 }))

/-- CHAN_CONFIG with enable 1 opens the channel's door with its queue and share, its Sluice buckets filled at the share
before (log entry 58); with enable 0 it closes it (R426, R429, R437). -/
def Claims.chanConfig : Prop :=
  ∀ (c : Fin 64) (q : Fin 32),
  let asks (a : State) (h : Hamper) : Prop :=
    fld h.payload 0 1 = c.val ∧ chanFn a c = h.fn ∧ (a.chans[c]).borrowed = false ∧ h.tail 8 = false ∧
      fld h.payload 2 1 = q.val ∧ a.plan.queues[q] = h.fn ∧ queueOpen a q = true ∧ zeros h.payload 3 1 = true ∧
      1 ≤ fld h.payload 4 2 ∧ fld h.payload 4 2 ≤ 256 ∧ zeros h.payload 6 2 = true ∧
      ((a.chans[c]).queue = q.val ∨ ((a.chans[c]).inUse = false ∧ (a.chans[c]).queued = []))
  let settled (a : State) (h : Hamper) (x : Chan) : Chan :=
    let ticks := a.elapsed - x.bucketAt
    { x with
      queue := q, share := fld h.payload 4 2, bucketAt := a.elapsed
      readBucket := x.readBucket + 5 * x.share * ticks, writeBucket := x.writeBucket + 5 * x.share * ticks }
  Serves .chanConfig 0x0802 0 false (fun a h => asks a h ∧ fld h.payload 1 1 = 1) stOk (fun _ _ => [])
    (fun a h => a.modChan c fun x => { settled a h x with enabled := true, quiet := false, quietOwed := none }) ∧
  Serves .chanConfig 0x0802 0 false
    (fun a h => asks a h ∧ fld h.payload 1 1 = 0 ∧ (a.chans[c]).enabled = true ∧ (a.chans[c]).mode = .loaded ∧
      (a.chans[c]).queued = [])
    stOk (fun _ _ => [])
    (fun a h => sweepWaits (a.modChan c fun x => { settled a h x with
      enabled := false, queued := [], quietOwed := some 0 }))

/-- A disabled channel that executes no run, and whose final entries its queue has written, is quiet: QUIET counts the
cancelled runs (R429). -/
def Claims.chanQuiet : Prop :=
  ∀ (c : Fin 64) (n : Nat) (q : Fin 32),
  Acts (fun dt => .chanQuiet dt c)
    (fun a => (a.chans[c]).quietOwed = some n ∧ (a.chans[c]).inUse = false ∧ (a.chans[c]).queue = q.val ∧
      ∀ j ∈ (a.queues[q]).jobs, ¬ (j.kind = kMillrace ∧ j.index = c.val))
    (fun a => notice (chanFn a c) nQuiet (BitVec.ofNat 32 (256 * kMillrace + c)) stOk (BitVec.ofNat 32 n)
      (a.modChan c fun x => { x with quiet := true, quietOwed := none }))

/-- CHAN_SIGNAL_MAP sets the source of every wait slot, with count 0 (R421, R437). -/
def Claims.chanSignalMap : Prop :=
  ∀ (c : Fin 64),
  Serves .chanSignalMap 0x0803 1 false
    (fun a h => fld h.payload 0 1 = c.val ∧ chanFn a c = h.fn ∧ (a.chans[c]).borrowed = false ∧
      ((a.chans[c]).mode = .idle ∨ (a.chans[c]).mode = .loaded) ∧ h.tail 36 = false ∧ zeros h.payload 1 3 = true ∧
      ∀ k : Fin 8, mapBad a h.fn (fld h.payload (4 + 4 * k) 1) (fld h.payload (5 + 4 * k) 1) = false ∧
        zeros h.payload (6 + 4 * k) 2 = true)
    stOk (fun _ _ => [])
    (fun a h => a.modChan c fun x => { x with
      slots := Vector.ofFn fun k => ⟨fld h.payload (4 + 4 * k.val) 1, fld h.payload (5 + 4 * k.val) 1, 0⟩ })

/-- A register access of a function reaches its own channel (R43, R56, R436). -/
abbrev Claims.ChanOpen (a : State) (fn : Fn) (c : Fin 64) : Prop := Reached a fn ∧ chanFn a c = fn

/-- CHAN_GO of an entry point at depth 0 submits a run: a LOADED channel starts it, another queues it; a write to a
channel that is not enabled, or in SHUTDOWN, is refused with go_refused and 0x510B (R134, R407). -/
def Claims.chanGo : Prop :=
  ∀ (fn : Fn) (c : Fin 64) (v : Word) (q : Fin 32),
  let fits (a : State) : Prop := Claims.ChanOpen a fn c ∧ (a.chans[c]).enabled = true ∧
    a.start.allDoorsClosed = false ∧ (a.chans[c]).borrowed = false ∧ (a.chans[c]).queued.length < 16 ∧
    (a.chans[c]).depths[v.toNat % 4096]? = some 0 ∧ (a.chans[c]).queue = q.val ∧ canSubmit a q = true
  let submitted (a : State) : State :=
    submitJob q kMillrace c (a.chans[c]).nextKey (a.modChan c fun x => { x with nextKey := x.nextKey + 1 })
  Acts (fun dt => .chanGo dt fn c v) (fun a => fits a ∧ (a.chans[c]).mode = .loaded)
    (fun a => startRun c (v.toNat % 4096) (a.chans[c]).nextKey (submitted a)) ∧
  Acts (fun dt => .chanGo dt fn c v)
    (fun a => fits a ∧ ((a.chans[c]).mode = .running ∨ (a.chans[c]).mode = .waiting ∨ (a.chans[c]).mode = .halted))
    (fun a => (submitted a).modChan c fun x => { x with
      queued := (a.chans[c]).queued ++ [(v.toNat % 4096, (a.chans[c]).nextKey)] }) ∧
  Acts (fun dt => .chanGo dt fn c v)
    (fun a => Claims.ChanOpen a fn c ∧ ((a.chans[c]).enabled = false ∨ a.start.allDoorsClosed = true))
    (fun a => post 0x510B fn c (a.modChan c fun x => { x with goRefused := true })) ∧
  ∀ (a : State) (entry : Nat) (key : Word),
    let x := (startRun c entry key a).chans[c]
    x.mode = .running ∧ x.pc = entry ∧ x.bytes = 0 ∧ x.loops = [] ∧ x.crc = none ∧ x.runId = 0 ∧
    x.ptrs = (a.chans[c]).ptrs

/-- A stop of a channel that moves data waits for the instruction; one of a WAITING channel without a write outstanding
ends the run ABORTED (R403, R427). -/
def Claims.chanStop : Prop :=
  ∀ (fn : Fn) (c : Fin 64),
  Acts (fun dt => .chanStop dt fn c 1)
    (fun a => Claims.ChanOpen a fn c ∧ (a.chans[c]).borrowed = false ∧ (a.chans[c]).mode = .running ∧
      (a.chans[c]).arrival = none ∧ dataInstr a c = true)
    (fun a => a.modChan c fun x => { x with mode := .stopping }) ∧
  Acts (fun dt => .chanStop dt fn c 1)
    (fun a => Claims.ChanOpen a fn c ∧ (a.chans[c]).borrowed = false ∧ (a.chans[c]).mode = .waiting ∧
      (a.chans[c]).lastHost = none)
    (endRunNow c stAborted)

/-- A flush cancels every queued run; the executing run goes on (R427). -/
def Claims.chanFlush : Prop :=
  ∀ (fn : Fn) (c : Fin 64),
  ActsSo (fun dt => .chanFlush dt fn c 2)
    (fun a => Claims.ChanOpen a fn c ∧ (a.chans[c]).borrowed = false)
    (fun a t => (t.chans[c]).queued = [] ∧ (t.chans[c]).mode = (a.chans[c]).mode ∧ (t.chans[c]).pc = (a.chans[c]).pc ∧
      (t.chans[c]).runs = (a.chans[c]).runs + BitVec.ofNat 32 (a.chans[c]).queued.length)

/-- Retry runs the halted instruction again (R427). -/
def Claims.chanRetry : Prop :=
  ∀ (fn : Fn) (c : Fin 64),
  ActsSo (fun dt => .chanRetry dt fn c 4)
    (fun a => Claims.ChanOpen a fn c ∧ (a.chans[c]).borrowed = false ∧ (a.chans[c]).mode = .halted ∧
      (a.chans[c]).copyHalt = false)
    (fun a t => (t.chans[c]).mode = .running ∧ (t.chans[c]).pc = (a.chans[c]).pc ∧
      (t.chans[c]).arrival = none ∧ (t.chans[c]).wait = none ∧ (t.chans[c]).ptrs = (a.chans[c]).ptrs ∧
      ∀ d, d ≠ c → t.chans[d] = a.chans[d])

/-- Skip goes on with the instruction after the halted one (R427). -/
def Claims.chanSkip : Prop :=
  ∀ (fn : Fn) (c : Fin 64),
  ActsSo (fun dt => .chanSkip dt fn c 8)
    (fun a => Claims.ChanOpen a fn c ∧ (a.chans[c]).borrowed = false ∧ (a.chans[c]).mode = .halted ∧
      (a.chans[c]).copyHalt = false)
    (fun a t => (t.chans[c]).mode = .running ∧ (t.chans[c]).pc = (a.chans[c]).pc + 1 ∧
      (t.chans[c]).arrival = none ∧ (t.chans[c]).wait = none ∧ (t.chans[c]).ptrs = (a.chans[c]).ptrs ∧
      ∀ d, d ≠ c → t.chans[d] = a.chans[d])

/-- CHAN_KICK adds to a slot of source HOST; a kick of another slot is ignored, with ctrl_ignored and 0x510C (R423). -/
def Claims.chanKick : Prop :=
  ∀ (fn : Fn) (c : Fin 64) (v : Word),
  Acts (fun dt => .chanKick dt fn c v)
    (fun a => Claims.ChanOpen a fn c ∧ v.toNat / 65536 ≠ 0 ∧ ((a.chans[c]).slots[ptrIx v.toNat]).kind = 1 ∧
      ((a.chans[c]).slots[ptrIx v.toNat]).count + v.toNat / 65536 ≤ 65535)
    (fun a => a.modChan c fun x => { x with
      slots := vmod x.slots (ptrIx v.toNat) fun w => { w with count := w.count + v.toNat / 65536 } }) ∧
  Acts (fun dt => .chanKick dt fn c v)
    (fun a => Claims.ChanOpen a fn c ∧ v.toNat / 65536 ≠ 0 ∧ ((a.chans[c]).slots[ptrIx v.toNat]).kind ≠ 1)
    (fun a => post 0x510C fn c (a.modChan c fun x => { x with ctrlIgnored := true }))

/-- A full read of CHAN_BYTES_LO latches the high word (R436). -/
def Claims.chanBytesLoRead : Prop :=
  ∀ (fn : Fn) (c : Fin 64),
  Acts (fun dt => .chanBytesLoRead dt fn c) (fun a => Claims.ChanOpen a fn c)
    (fun a => emit (.completion fn [BitVec.ofNat 32 (a.chans[c]).bytes]) (a.modChan c fun x => { x with
      latchBytesHi := BitVec.ofNat 32 (x.bytes / 2 ^ 32) }))

/-- A channel runs a valid instruction `b` of an opcode of its programme, with no stop requested (R403, R405, R406). -/
abbrev Claims.Runs (a : State) (c : Fin 64) (b : List Byte) (op : Nat) : Prop :=
  (a.chans[c]).mode = .running ∧ (a.chans[c]).arrival = none ∧ (a.chans[c]).borrowed = false ∧ mainRuns a = true ∧
  ((a.chans[c]).progMill = true → inGrant a ((a.chans[c]).progAddr + 16 * (a.chans[c]).pc) 16 = true) ∧
  (a.chans[c]).pc < (a.chans[c]).depths.length ∧ (a.chans[c]).stopAfter = false ∧
  chanInstr a c = b ∧ instrBad a (chanFn a c) b = 0 ∧ fld b 0 1 = op

/-- What the channel `c` has after an instruction that ended without changing its path: the next index, RUNNING (R406). -/
abbrev Claims.WentOn (a t : State) (c : Fin 64) : Prop :=
  (t.chans[c]).mode = .running ∧ (t.chans[c]).pc = (a.chans[c]).pc + 1

/-- Data may move between two sides now (R404, R418, R420, R426, R472): each lies in the windows, Sluice lets the last
burst issue, no outage holds LPDDR5X, and the destination does not begin inside the source. -/
abbrev Claims.Flows (a : State) (c : Fin 64) (src dst : Side) (n : Nat) : Prop :=
  windowFault a (chanFn a c) src = none ∧ windowFault a (chanFn a c) dst = none ∧
  sluicePermits (a.chans[c]) a.elapsed n n = true ∧ lpWaits a src = false ∧ lpWaits a dst = false ∧
  (src.space = dst.space → src.space = 0 ∨ sideLow dst ≤ sideLow src ∨ sideHigh src ≤ sideLow dst)

/-- MOVE writes its source's bytes, swapped in units, at its destination (R409, R418, R419): into Millpond, into LPDDR5X,
or to the host in the writes of its bursts; the pointers with an inc flag move on, and the run's byte count grows. A read
that fails halts the channel with its cause and the failing address, and the instruction does not count as done (R430). -/
def Claims.move : Prop :=
  ∀ (c : Fin 64) (host b : List Byte) (src dst : Ptr) (k : Nat),
  let n := fld b 4 4
  let from_ : Side := ⟨src.space, [(src.addr.toNat, n)]⟩
  let to_ : Side := ⟨dst.space, [(dst.addr.toNat, n)]⟩
  let fits (a : State) : Prop :=
    Claims.Runs a c b 1 ∧ (a.chans[c]).ptrs[ptrIx (fld b 2 1)] = src ∧
      (a.chans[c]).ptrs[ptrIx (fld b 2 1 / 16)] = dst ∧
      src.addr.toNat % 2 ^ (fld b 3 1 % 8) = 0 ∧ n % 2 ^ (fld b 3 1 % 8) = 0 ∧
      dst.addr.toNat % 2 ^ (fld b 3 1 / 16 % 8) = 0 ∧ n % 2 ^ (fld b 3 1 / 16 % 8) = 0 ∧
      n % swapUnit (fld b 1 1 / 4 % 4) = 0
  let moved (a : State) : List Byte := swapBytes (fld b 1 1 / 4 % 4) (readSide a from_ host)
  ActsSo (fun dt => .move dt c host none k) (fun a => fits a ∧ Claims.Flows a c from_ to_ n)
    (fun a t => Claims.WentOn a t c ∧ (t.chans[c]).bytes = (a.chans[c]).bytes + (moved a).length ∧
      (dst.space = 1 → t.millpond = (millWrite dst.addr.toNat (moved a) a).millpond ∧ t.lpddr = a.lpddr ∧
        t.out = a.out) ∧
      (dst.space = 2 → t.lpddr = Memory.writeList a.lpddr dst.addr.toNat (moved a) ∧ t.millpond = a.millpond ∧
        t.out = a.out) ∧
      (dst.space = 0 → t.out = (writeSide (chanFn a c) 0 true to_.lines (moved a) a).out ∧ t.millpond = a.millpond ∧
        t.lpddr = a.lpddr) ∧
      (fld b 1 1 % 4 = 0 → (t.chans[c]).ptrs = (a.chans[c]).ptrs) ∧
      (fld b 1 1 % 4 = 1 → ((t.chans[c]).ptrs[ptrIx (fld b 2 1)]).addr = src.addr + BitVec.ofNat 64 n)) ∧
  ∀ (f : BusFault), (src.space = 0 → f.cause = 1 ∨ f.cause = 2) → (src.space ≠ 0 → f.cause = 3) → f.offset < n →
  ActsSo (fun dt => .move dt c host (some f) k)
    (fun a => fits a ∧ windowFault a (chanFn a c) from_ = none ∧ windowFault a (chanFn a c) to_ = none ∧
      (a.chans[c]).share = 256 ∧ lpWaits a from_ = false ∧ lpWaits a to_ = false)
    (fun a t => (t.chans[c]).mode = .halted ∧ (t.chans[c]).haltCause = f.cause ∧ (t.chans[c]).haltWrite = false ∧
      (t.chans[c]).haltSpace = src.space ∧ (t.chans[c]).haltAddr = src.addr.toNat + f.offset ∧
      (t.chans[c]).pc = (a.chans[c]).pc ∧ (t.chans[c]).ptrs = (a.chans[c]).ptrs)

/-- MOVE2D reads its source's lines in order and writes them, swapped, into its destination's lines (R410, R417, R419). -/
def Claims.move2d : Prop :=
  ∀ (c : Fin 64) (host b : List Byte) (src dst : Ptr) (ks kd : Shape) (k : Nat),
  let swap := fld b 1 1 / 4 % 4
  let from_ : Side := ⟨src.space, shapeLines src ks⟩
  let to_ : Side := ⟨dst.space, shapeLines dst kd⟩
  let moved (a : State) : List Byte := swapBytes swap (readSide a from_ host)
  let written (a : State) : State := writeSide (chanFn a c) dst.space true to_.lines (moved a) a
  ActsSo (fun dt => .move2d dt c host none k)
    (fun a => Claims.Runs a c b 2 ∧ (a.chans[c]).ptrs[ptrIx (fld b 2 1)] = src ∧
      (a.chans[c]).ptrs[ptrIx (fld b 2 1 / 16)] = dst ∧
      (a.chans[c]).shapes[(⟨fld b 4 1 % 4, Nat.mod_lt _ (by decide)⟩ : Fin 4)] = ks ∧
      (a.chans[c]).shapes[(⟨fld b 4 1 / 16 % 4, Nat.mod_lt _ (by decide)⟩ : Fin 4)] = kd ∧
      ks.line * ks.lines = kd.line * kd.lines ∧ ks.line * ks.lines ≤ 1048576 ∧
      src.addr.toNat % 2 ^ (fld b 3 1 % 8) = 0 ∧ ks.line % 2 ^ (fld b 3 1 % 8) = 0 ∧
      ks.stride % ((2 ^ (fld b 3 1 % 8) : Nat) : Int) = 0 ∧
      dst.addr.toNat % 2 ^ (fld b 3 1 / 16 % 8) = 0 ∧ kd.line % 2 ^ (fld b 3 1 / 16 % 8) = 0 ∧
      kd.stride % ((2 ^ (fld b 3 1 / 16 % 8) : Nat) : Int) = 0 ∧ ks.line % swapUnit swap = 0 ∧
      kd.line % swapUnit swap = 0 ∧ Claims.Flows a c from_ to_ (sideBytes from_))
    (fun a t => Claims.WentOn a t c ∧ (t.chans[c]).bytes = (a.chans[c]).bytes + (moved a).length ∧
      t.millpond = (written a).millpond ∧ t.lpddr = (written a).lpddr ∧ t.out = (written a).out ∧
      (fld b 1 1 % 4 = 0 → (t.chans[c]).ptrs = (a.chans[c]).ptrs) ∧
      (fld b 1 1 % 4 = 2 → ((t.chans[c]).ptrs[ptrIx (fld b 2 1 / 16)]).addr =
        dst.addr + BitVec.ofInt 64 (kd.lines * kd.stride)))

/-- LOOP opens a loop with its count; 0 is unbounded (R411). -/
def Claims.loop : Prop :=
  ∀ (c : Fin 64) (b : List Byte),
  ActsSo (fun dt => .loop dt c) (fun a => Claims.Runs a c b 3 ∧ (a.chans[c]).loops.length < 4)
    (fun a t => Claims.WentOn a t c ∧
      (t.chans[c]).loops = ⟨(a.chans[c]).pc, fld b 4 4, fld b 4 4 == 0⟩ :: (a.chans[c]).loops)

/-- ENDLOOP goes back to the first instruction of the body while passes are left, else the loop is closed (R411). -/
def Claims.endLoop : Prop :=
  ∀ (c : Fin 64) (b : List Byte) (l : OpenLoop) (rest : List OpenLoop),
  ActsSo (fun dt => .endLoop dt c)
    (fun a => Claims.Runs a c b 4 ∧ (a.chans[c]).loops = l :: rest ∧ (l.unbounded = true ∨ 1 < l.left))
    (fun _ t => (t.chans[c]).mode = .running ∧ (t.chans[c]).pc = l.at_ + 1 ∧
      (t.chans[c]).loops = { l with left := l.left - 1 } :: rest) ∧
  ActsSo (fun dt => .endLoop dt c)
    (fun a => Claims.Runs a c b 4 ∧ (a.chans[c]).loops = l :: rest ∧ l.unbounded = false ∧ l.left ≤ 1)
    (fun a t => Claims.WentOn a t c ∧ (t.chans[c]).loops = rest)

/-- WAIT takes its count from the slot at once where it is there; else the channel is WAITING, or the WAIT fails at once
where the source is off (R412, R422). -/
def Claims.wait : Prop :=
  ∀ (c : Fin 64) (b : List Byte),
  let k := ptrIx (fld b 2 1)
  ActsSo (fun dt => .wait dt c)
    (fun a => Claims.Runs a c b 5 ∧ fld b 4 2 ≤ ((a.chans[c]).slots[k]).count)
    (fun a t => Claims.WentOn a t c ∧ ((t.chans[c]).slots[k]).count = ((a.chans[c]).slots[k]).count - fld b 4 2) ∧
  Acts (fun dt => .wait dt c)
    (fun a => Claims.Runs a c b 5 ∧ ((a.chans[c]).slots[k]).count < fld b 4 2 ∧
      slotOff a (a.chans[c]).slots[k] = false ∧ fld b 8 4 = 0)
    (fun a => a.modChan c fun x => { x with
      mode := .waiting, wait := some ⟨k, fld b 4 2, bit (fld b 1 1) 0, none⟩ }) ∧
  ActsSo (fun dt => .wait dt c)
    (fun a => Claims.Runs a c b 5 ∧ ((a.chans[c]).slots[k]).count < fld b 4 2 ∧
      slotOff a (a.chans[c]).slots[k] = true ∧ fld b 1 1 = 0)
    (fun _ t => (t.chans[c]).mode = .halted ∧ (t.chans[c]).haltCause = 9 ∧ (t.chans[c]).haltStatus = stUnitOff)

/-- A WAITING channel whose count is there takes it and goes on (R422). -/
def Claims.waitSatisfied : Prop :=
  ∀ (c : Fin 64) (w : Waiting),
  ActsSo (fun dt => .waitSatisfied dt c)
    (fun a => (a.chans[c]).mode = .waiting ∧ (a.chans[c]).wait = some w ∧
      w.count ≤ ((a.chans[c]).slots[ptrIx w.slot]).count)
    (fun a t => Claims.WentOn a t c ∧ (t.chans[c]).wait = none ∧
      ((t.chans[c]).slots[ptrIx w.slot]).count = ((a.chans[c]).slots[ptrIx w.slot]).count - w.count)

/-- A WAIT past its timeout fails: it halts with cause WAIT and TIMEOUT, or goes on with wait_failed and the status kept
(R422). The count stays. -/
def Claims.waitTimeout : Prop :=
  ∀ (c : Fin 64) (w : Waiting) (d : Nat), w.deadline = some d →
  let late (a : State) : Prop := (a.chans[c]).mode = .waiting ∧ (a.chans[c]).wait = some w ∧ d ≤ a.elapsed ∧
    ((a.chans[c]).slots[ptrIx w.slot]).count < w.count
  ActsSo (fun dt => .waitTimeout dt c) (fun a => late a ∧ w.goOn = false)
    (fun a t => (t.chans[c]).mode = .halted ∧ (t.chans[c]).haltCause = 9 ∧ (t.chans[c]).haltStatus = stTimeout ∧
      (t.chans[c]).slots = (a.chans[c]).slots) ∧
  ActsSo (fun dt => .waitTimeout dt c) (fun a => late a ∧ w.goOn = true ∧ (a.chans[c]).keptStatus = stOk)
    (fun a t => Claims.WentOn a t c ∧ (t.chans[c]).waitFailed = true ∧ (t.chans[c]).keptStatus = stTimeout ∧
      (t.chans[c]).slots = (a.chans[c]).slots)

/-- SIGNAL of an entry writes it once every write has arrived, with the bytes since the last one; a host write
outstanding is read back first (R413, R424, R425). -/
def Claims.signalEntry : Prop :=
  ∀ (c : Fin 64) (b : List Byte),
  ActsSo (fun dt => .signalEntry dt c)
    (fun a => Claims.Runs a c b 6 ∧ fld b 2 1 = 0 ∧ (a.chans[c]).lastHost = none)
    (fun a t => Claims.WentOn a t c ∧ (t.chans[c]).entryBytes = 0 ∧
      t.queues = (chanEntry c stOk ((if bit (fld b 1 1) 0 then fHalf else 0) + (if bit (fld b 1 1) 1 then fFull else 0))
        (satWord (a.chans[c]).entryBytes) a).queues) ∧
  Acts (fun dt => .signalEntry dt c)
    (fun a => Claims.Runs a c b 6 ∧ fld b 2 1 = 0 ∧ (a.chans[c]).lastHost ≠ none)
    (fun a => a.modChan c fun x => { x with arrival := some .entry })

/-- SIGNAL of a slot adds to a slot of another channel that is mapped to this one; another slot drops the increment, with
slot_dropped and 0x510D (R413, R423). -/
def Claims.signalSlot : Prop :=
  ∀ (c m : Fin 64) (b : List Byte), m ≠ c →
  let k := ptrIx (fld b 4 1)
  let fits (a : State) : Prop := Claims.Runs a c b 6 ∧ fld b 2 1 = 1 ∧ (a.chans[c]).lastHost = none ∧ fld b 3 1 = m.val
  ActsSo (fun dt => .signalSlot dt c)
    (fun a => fits a ∧ ((a.chans[m]).slots[k]).kind = 2 ∧ ((a.chans[m]).slots[k]).index = c.val ∧
      ((a.chans[m]).slots[k]).count + fld b 6 2 ≤ 65535)
    (fun a t => Claims.WentOn a t c ∧ ((t.chans[m]).slots[k]).count = ((a.chans[m]).slots[k]).count + fld b 6 2) ∧
  ActsSo (fun dt => .signalSlot dt c) (fun a => fits a ∧ ((a.chans[m]).slots[k]).kind ≠ 2)
    (fun a t => Claims.WentOn a t c ∧ (t.chans[m]).slots = (a.chans[m]).slots ∧ (t.chans[c]).slotDropped = true)

/-- SET loads or adds to a pointer, sets the run id, or a shape (R414). -/
def Claims.setReg : Prop :=
  ∀ (c : Fin 64) (b : List Byte),
  ActsSo (fun dt => .setReg dt c) (fun a => Claims.Runs a c b 7)
    (fun a t => Claims.WentOn a t c ∧
      (fld b 2 1 ≤ 7 → fld b 1 1 = 0 →
        (t.chans[c]).ptrs = (a.chans[c]).ptrs.set (ptrIx (fld b 2 1)) ⟨fld b 3 1, BitVec.ofNat 64 (fld b 8 8)⟩) ∧
      (fld b 2 1 ≤ 7 → fld b 1 1 = 1 →
        ((t.chans[c]).ptrs[ptrIx (fld b 2 1)]).addr =
          ((a.chans[c]).ptrs[ptrIx (fld b 2 1)]).addr + BitVec.ofNat 64 (fld b 8 8) ∧
        ((t.chans[c]).ptrs[ptrIx (fld b 2 1)]).space = ((a.chans[c]).ptrs[ptrIx (fld b 2 1)]).space) ∧
      (fld b 2 1 = 0x20 → (t.chans[c]).runId = BitVec.ofNat 32 (fld b 4 4) ∧ (t.chans[c]).ptrs = (a.chans[c]).ptrs) ∧
      ∀ k : Fin 4, fld b 2 1 = 0x10 + k.val →
        (t.chans[c]).shapes = (a.chans[c]).shapes.set k ⟨fld b 4 4, fld b 8 4, sfld b 12 4⟩ ∧
        (t.chans[c]).ptrs = (a.chans[c]).ptrs)

/-- CRCSTART activates the accumulator with the initial value of its kind (R415). -/
def Claims.crcStart : Prop :=
  ∀ (c : Fin 64) (b : List Byte),
  ActsSo (fun dt => .crcStart dt c) (fun a => Claims.Runs a c b 8)
    (fun a t => Claims.WentOn a t c ∧ (t.chans[c]).crc =
      some ⟨fld b 2 1, fld b 3 1 == 1, if fld b 2 1 = 2 then 0xFFFF else 0xFFFFFFFF⟩)

/-- CRCSTORE into Millpond writes the value, latches CHAN_CRC and ends the accumulator; without one it halts with cause
OPERAND (R415). -/
def Claims.crcStore : Prop :=
  ∀ (c : Fin 64) (b : List Byte) (p : Ptr),
  let runs (a : State) : Prop := Claims.Runs a c b 9 ∧ (a.chans[c]).ptrs[ptrIx (fld b 2 1 / 16)] = p
  (∀ (k : Crc), k.kind < 2 →
    ActsSo (fun dt => .crcStore dt c)
      (fun a => runs a ∧ (a.chans[c]).crc = some k ∧ p.space = 1 ∧ p.addr.toNat % 4 = 0 ∧
        windowFault a (chanFn a c) ⟨1, [(p.addr.toNat, 4)]⟩ = none ∧
        sluicePermits (a.chans[c]) a.elapsed 0 4 = true)
      (fun a t => Claims.WentOn a t c ∧ (t.chans[c]).crc = none ∧
        (t.chans[c]).lastCrc = BitVec.ofNat 32 (k.value ^^^ 0xFFFFFFFF) ∧
        (t.chans[c]).bytes = (a.chans[c]).bytes + 4 ∧
        t.millpond = (millWrite p.addr.toNat (leBytes 4 (k.value ^^^ 0xFFFFFFFF)) a).millpond)) ∧
  ActsSo (fun dt => .crcStore dt c) (fun a => runs a ∧ (a.chans[c]).crc = none)
    (fun _ t => (t.chans[c]).mode = .halted ∧ (t.chans[c]).haltCause = 8 ∧ (t.chans[c]).haltStatus = stAborted)

/-- FENCE ends at once where every write has arrived, else it reads back the last host write (R416, R424). -/
def Claims.fence : Prop :=
  ∀ (c : Fin 64) (b : List Byte),
  ActsSo (fun dt => .fence dt c) (fun a => Claims.Runs a c b 0x0A ∧ (a.chans[c]).lastHost = none)
    (fun a t => Claims.WentOn a t c ∧ (t.chans[c]).lastHost = none) ∧
  Acts (fun dt => .fence dt c) (fun a => Claims.Runs a c b 0x0A ∧ (a.chans[c]).lastHost ≠ none)
    (fun a => a.modChan c fun x => { x with arrival := some .fence })

/-- END ends the run: the channel is LOADED with one more run, or starts the next queued one (R407, R416, R425). -/
def Claims.endRun : Prop :=
  ∀ (c : Fin 64) (b : List Byte),
  ActsSo (fun dt => .endRun dt c)
    (fun a => Claims.Runs a c b 0x0F ∧ (a.chans[c]).lastHost = none ∧ (a.chans[c]).queued = [])
    (fun a t => (t.chans[c]).mode = .loaded ∧ (t.chans[c]).runs = (a.chans[c]).runs + 1) ∧
  (∀ (e : Nat) (k : Word) (rest : List (Nat × Word)),
    ActsSo (fun dt => .endRun dt c)
      (fun a => Claims.Runs a c b 0x0F ∧ (a.chans[c]).lastHost = none ∧ (a.chans[c]).queued = (e, k) :: rest)
      (fun a t => (t.chans[c]).mode = .running ∧ (t.chans[c]).pc = e ∧ (t.chans[c]).queued = rest ∧
        (t.chans[c]).runs = (a.chans[c]).runs + 1)) ∧
  Acts (fun dt => .endRun dt c) (fun a => Claims.Runs a c b 0x0F ∧ (a.chans[c]).lastHost ≠ none)
    (fun a => a.modChan c fun x => { x with arrival := some .endRun })

/-- The read-back returns: a FENCE goes on, an END ends its run (R424). -/
def Claims.arrivalReadbackDone : Prop :=
  ∀ (c : Fin 64),
  ActsSo (fun dt => .arrivalReadbackDone dt c)
    (fun a => (a.chans[c]).arrival = some .fence ∧ (a.chans[c]).mode = .running ∧ (a.chans[c]).stopAfter = false)
    (fun a t => Claims.WentOn a t c ∧ (t.chans[c]).lastHost = none ∧ (t.chans[c]).arrival = none) ∧
  ActsSo (fun dt => .arrivalReadbackDone dt c)
    (fun a => (a.chans[c]).arrival = some .endRun ∧ (a.chans[c]).mode = .running ∧ (a.chans[c]).queued = [])
    (fun a t => (t.chans[c]).mode = .loaded ∧ (t.chans[c]).runs = (a.chans[c]).runs + 1 ∧
      (t.chans[c]).arrival = none)

end Sys2Proof.Machine

/-! ### Steps, time, and what every command keeps -/

/-- A step with a command at the front of the queue is that command on the state with the queue's rest. -/
def Obligations.StepRunsFrontCommand : Prop :=
  ∀ (c : Sys2Proof.Instr) (s : Sys2Proof.Machine.State),
    Sys2Proof.Machine.step { s with pending := c :: s.pending } = Sys2Proof.Machine.exec c s

/-- A step on an empty queue leaves the state as it is. The model's choice, log entry 1. -/
def Obligations.StepIdlesOnEmptyQueue : Prop :=
  ∀ (s : Sys2Proof.Machine.State), s.pending = [] → Sys2Proof.Machine.step s = .next s

open Sys2Proof Sys2Proof.Machine in
/-- Time between commands moves `elapsed` and, while the main domain runs, device time by the increment of each tick
(R7, R115); it moves nothing else. Time as an operand is the model's choice, log entry 2. -/
def Obligations.TimeMovesOnlyTheClock : Prop :=
  ∀ (dt : Nat) (s : State),
    advance dt s = { s with elapsed := s.elapsed + dt, clk := { s.clk with dev := (advance dt s).clk.dev } } ∧
    (mainRuns s = true →
      (advance dt s).clk.dev = s.clk.dev + BitVec.ofInt 104 (tickIncrement s.clk.fantail.rate * dt)) ∧
    (mainRuns s = false → (advance dt s).clk = s.clk)

open Sys2Proof Sys2Proof.Machine in
/-- The state after reset holds what the rules give: no command waits, both memories are canonical, every resource is
PF0's, and every block is in the state in which its chapter starts it. -/
def Obligations.ResetState : Prop :=
  State.reset.Canonical ∧ State.reset.pending = [] ∧ State.reset.deviceEpoch = 0 ∧
  (∀ q : Fin 32, State.reset.plan.queues[q] = 0 ∧ (State.reset.queues[q]).enabled = false) ∧
  (∀ n : Fin 32, State.reset.plan.streams[n] = 0 ∧ (State.reset.streams[n]).mode = .closed) ∧
  (∀ p : Fin 8, (State.reset.ports[p]).mode = .off) ∧ (∀ c : Fin 4, (State.reset.pos[c]).mode = .off) ∧
  (∀ n : Fin 16, State.reset.plan.comparators[n] = 0 ∧ (State.reset.cmps[n]).mode = .idle) ∧
  (∀ k : Fin 12, (State.reset.trigs.outs[k]).mode = .idle) ∧
  (∀ i : Fin 16, State.reset.plan.hoppers[i] = 0 ∧ (State.reset.hoppers[i]).mode = .unbound) ∧
  (∀ c : Fin 64, State.reset.plan.channels[c] = 0 ∧ (State.reset.chans[c]).mode = .idle) ∧
  (∀ i : Fin 2, (State.reset.audio[i]).mode = .off) ∧ State.reset.wit.mode = .unconfigured ∧
  State.reset.log.collector = [] ∧ State.reset.log.entries = []

open Sys2Proof Sys2Proof.Machine in
/-- No command stops the block, and every command keeps what `Kept` names: the queue is the sender's alone, time and the
count of free values do not run backwards, what has left the part stays sent, both memories stay canonical, the serial
number never changes and a locked identity stays locked (R162). -/
def Obligations.EveryCommandAnswersAndKeeps : Prop :=
  ∀ (i : Instr) (s : State), ∃ t, exec i s = .next t ∧ Kept s t

open Sys2Proof Sys2Proof.Machine in
/-- Every step keeps both memories in canonical form. -/
def Obligations.StepKeepsMemoriesCanonical : Prop :=
  ∀ s t : State, s.Canonical → step s = .next t → t.Canonical

open Sys2Proof Sys2Proof.Machine in
/-- The frame of every command: beside time, only the parts of the state in its mask `touches` may change. -/
def Obligations.CommandsStayWithinTheirParts : Prop :=
  ∀ (i : Instr) (s t : State), exec i s = .next t →
    Within (touches i) (advance (ticksOf i) s) t ∧ t.pending = s.pending

/-! ### Shared operations of commands -/

open Sys2Proof Sys2Proof.Machine in
/-- Every hamper's command makes the checks that come before its own section, in their order. -/
def Obligations.HampersAreCheckedInOrder : Prop :=
  ∀ (buffer : Fetched) (level : Bool),
  Claims.Refuses .deviceInfo 0x0001 0 false ∧ Claims.Refuses .ringsSet 0x0002 0 false ∧
  Claims.Refuses .ringsClear 0x0003 0 false ∧ Claims.Refuses .noticeRoute 0x0004 0 false ∧
  Claims.Refuses .echo 0x0005 0 false ∧ Claims.Refuses .deviceReset 0x0008 0 true ∧
  Claims.Refuses .provision 0x0009 0 true ∧ Claims.Refuses .configCommit 0x0010 0 false ∧
  Claims.Refuses .configDiscard 0x0011 0 false ∧ Claims.Refuses .configStatus 0x0012 1 false ∧
  Claims.Refuses .instancePlanSet 0x0101 0 true ∧ Claims.Refuses .instancePlanGet 0x0102 0 false ∧
  Claims.Refuses .instanceQuiesce 0x0103 1 false ∧ Claims.Refuses .queueSet 0x0110 0 false ∧
  Claims.Refuses .queueClear 0x0111 0 false ∧ Claims.Refuses .queueModerate 0x0112 0 false ∧
  Claims.Refuses .portConfig 0x0201 0 true ∧ Claims.Refuses .portStatus 0x0202 0 false ∧
  Claims.Refuses .portRestart 0x0203 0 true ∧ Claims.Refuses .tunnelI2c 0x0204 0 true ∧
  Claims.Refuses (fun dt r => .tunnelGpio dt r level) 0x0205 0 true ∧ Claims.Refuses .streamOpen 0x0210 0 false ∧
  Claims.Refuses .streamClose 0x0211 0 false ∧ Claims.Refuses .streamStage 0x0212 0 false ∧
  Claims.Refuses .streamStatus 0x0213 0 false ∧ Claims.Refuses .streamBuffers 0x0214 0 false ∧
  Claims.Refuses .embeddedMapSet 0x0220 2 false ∧ Claims.Refuses .posConfig 0x0301 0 true ∧
  Claims.Refuses .posStatus 0x0302 0 false ∧ Claims.Refuses .posPreset 0x0303 0 true ∧
  Claims.Refuses .emuConfig 0x0304 1 true ∧ Claims.Refuses .cmpArm 0x0310 0 false ∧
  Claims.Refuses .cmpDisarm 0x0311 0 false ∧ Claims.Refuses .cmpStatus 0x0312 0 false ∧
  Claims.Refuses .trigConfig 0x0320 0 true ∧ Claims.Refuses .xtrConfig 0x0321 0 true ∧
  Claims.Refuses .trigFire 0x0322 1 true ∧ Claims.Refuses .guardConfig 0x0401 0 false ∧
  Claims.Refuses .guardStatus 0x0402 0 false ∧
  Claims.Refuses (fun dt r => .guardRegionsSet dt r buffer) 0x0403 0 false ∧
  Claims.Refuses (fun dt r => .guardRefsLoad dt r buffer) 0x0404 0 false ∧ Claims.Refuses .verdictRoute 0x0405 0 false ∧
  Claims.Refuses .digestGet 0x0406 0 false ∧ Claims.Refuses .chainRead 0x0407 1 false ∧
  Claims.Refuses (fun dt r => .chimeTemplatesLoad dt r buffer) 0x0410 2 false ∧ Claims.Refuses .chimeStatus 0x0411 2 false ∧
  Claims.Refuses .hopperBind 0x0501 0 false ∧ Claims.Refuses .hopperArm 0x0502 0 false ∧
  Claims.Refuses .hopperDisarm 0x0503 0 false ∧ Claims.Refuses .hopperTrigger 0x0504 0 false ∧
  Claims.Refuses .hopperStatus 0x0505 0 false ∧ Claims.Refuses .hopperCopyout 0x0506 0 false ∧
  Claims.Refuses .pyramidSubmit 0x0601 0 false ∧ Claims.Refuses .pyramidCancel 0x0602 0 false ∧
  Claims.Refuses .decodeSubmit 0x0610 0 false ∧ Claims.Refuses .decodeCancel 0x0611 0 false ∧
  Claims.Refuses .audioConfig 0x0620 0 true ∧ Claims.Refuses .audioRoute 0x0621 1 false ∧
  Claims.Refuses .weirStatus 0x0701 0 false ∧ Claims.Refuses .weirShedOrder 0x0702 0 true ∧
  Claims.Refuses .weirCheck 0x0703 1 false ∧ Claims.Refuses .weirScrub 0x0704 3 true ∧
  Claims.Refuses (fun dt r => .chanLoad dt r buffer) 0x0801 0 false ∧ Claims.Refuses .chanConfig 0x0802 0 false ∧
  Claims.Refuses .chanSignalMap 0x0803 1 false ∧ Claims.Refuses .witnessConfig 0x0901 0 true ∧
  Claims.Refuses .witnessArm 0x0902 0 true ∧ Claims.Refuses .witnessDisarm 0x0903 0 true ∧
  Claims.Refuses .witnessStatus 0x0904 0 false ∧ Claims.Refuses .witnessRoute 0x0905 0 true ∧
  Claims.Refuses .timeStatus 0x0A01 0 false ∧ Claims.Refuses .timeStep 0x0A02 0 true ∧
  Claims.Refuses .fantailConfig 0x0A03 0 true ∧ Claims.Refuses .timeCorrelate 0x0A04 1 false ∧
  Claims.Refuses .measReport 0x0B01 0 false ∧ Claims.Refuses (fun dt r => .fwStage dt r buffer) 0x0B02 0 true ∧
  Claims.Refuses .fwActivate 0x0B03 0 true ∧ Claims.Refuses .outingWrite 0x0B04 0 true ∧
  Claims.Refuses .journalRead 0x0B05 0 false ∧ Claims.Refuses .journalClear 0x0B06 0 true ∧
  Claims.Refuses .slotSelect 0x0B07 1 true ∧ Claims.Refuses .logRead 0x0C01 0 true ∧
  Claims.Refuses .logClear 0x0C02 0 true ∧ Claims.Refuses .faultAck 0x0C03 0 true ∧
  Claims.Refuses .faultStatus 0x0C04 0 false ∧ Claims.Refuses .logFilter 0x0C05 4 true

open Sys2Proof Sys2Proof.Machine in
/-- A fetched request has had its function's turn, and a ring's REQ_HEAD moves (R80, R84). Its reply stands in the porch in
PORCH_REPLY with `done` set and `busy` clear (R77); in a ring it is written into the slot of REP_TAIL, which moves by one,
before the vector is signalled (R80, R82); while Bus Master Enable is 0 nothing leaves the part (R66). Its bytes are the
header of R71 and 240 bytes of payload, those beyond its length 0 (R73). -/
def Obligations.RepliesAreWritten : Prop :=
  ∀ (h : Hamper) (status retry : Nat) (payload : List Byte) (a : State),
  let bytes := record [(2, h.op), (2, if h.porch then 3 else 1), (4, h.sequence), (2, payload.length), (2, status),
    (4, retry)] ++ padTo 240 payload
  let b := taken h.fn h.porch a
  b.lastServed = h.fn ∧ (b.fns[h.fn]).doorbells = (a.fns[h.fn]).doorbells.tail ∧
  (b.fns[h.fn]).reqHead = (if h.porch then (a.fns[h.fn]).reqHead else (a.fns[h.fn]).reqHead + 1) ∧
  (h.porch = true → reply h status retry payload a =
    a.modFn h.fn fun f => { f with porchReply := bytes, porchBusy := false, porchDone := true }) ∧
  (h.porch = false → (a.fns[h.fn]).clearing = false →
    let f := a.fns[h.fn]
    let t := reply h status retry payload a
    (t.fns[h.fn]).repTail = f.repTail + 1 ∧ (t.fns[h.fn]).reqHead = f.reqHead ∧
    (t.fns[h.fn]).doorbells = f.doorbells ∧ t.millpond = a.millpond ∧ t.lpddr = a.lpddr ∧
    (f.busMaster = true →
      ∃ l, t.out = l ++ .hostWrite h.fn (f.repBase + 256 * (f.repTail.toNat % 32)) bytes false false :: a.out) ∧
    (f.busMaster = false → t.out = a.out))

open Sys2Proof Sys2Proof.Machine in
/-- A tailrace entry is written at the tail with the queue's phase, which inverts on each wrap (R95 to R97), and carries
OVERFLOW after dropped ones; a full, stopped or disabled queue, or one whose owner has Bus Master Enable 0, drops and
counts it, a full one with event 0x1113 (R66, R99, R100; of a Millpond queue log entry 27). -/
def Obligations.TailraceEntriesAreWrittenOrCounted : Prop :=
  ∀ (q : Fin 32) (e : TqEntry) (a : State),
  let Q := a.queues[q]
  let fn := a.plan.queues[q]
  (Q.enabled = true → Q.stopped = false → (a.fns[fn]).busMaster = true → Q.full = false →
    let t := putEntry q e a
    (t.queues[q]).tail = (Q.tail + 1) % Q.entries ∧
    (t.queues[q]).phase = (if Q.tail + 1 = Q.entries then !Q.phase else Q.phase) ∧ (t.queues[q]).owed = false ∧
    (t.queues[q]).dropped = Q.dropped ∧ (t.queues[q]).head = Q.head ∧ t.lpddr = a.lpddr ∧
    (Q.millpond = true →
      t.millpond = Memory.writeList a.millpond (Q.base + 16 * Q.tail) (entryBytes e Q.owed Q.phase)) ∧
    (Q.millpond = false → t.millpond = a.millpond ∧
      ∃ l, t.out = l ++ .hostWrite fn (Q.base + 16 * Q.tail) (entryBytes e Q.owed Q.phase) false false :: a.out)) ∧
  (Q.enabled = true → Q.stopped = false → (a.fns[fn]).busMaster = true → Q.full = true →
    putEntry q e a = post 0x1113 fn q (a.modQueue q fun Q => { Q with
      dropped := Q.dropped + 1, overflow := true, owed := true })) ∧
  (Q.enabled = false ∨ Q.stopped = true ∨ (a.fns[fn]).busMaster = false →
    putEntry q e a = a.modQueue q fun Q => { Q with dropped := Q.dropped + 1, overflow := true, owed := true })

open Sys2Proof Sys2Proof.Machine in
/-- An event enters the collector with its time, behind those that wait there; LOG_FILTER's INFO events are only counted,
and where 256 wait it is lost, with the sticky bit (R480, R483, R499). -/
def Obligations.EventsEnterTheCollector : Prop :=
  ∀ (code fn unit : Nat) (a : State),
  let filtered := severity code = 0 ∧ a.log.filterMask.getLsbD (code / 0x1000) = true
  (filtered → post code fn unit a = a.modLog fun g => { g with filtered := g.filtered + 1 }) ∧
  (¬ filtered → a.log.collector.length < 256 → post code fn unit a = a.modLog fun g => { g with
    collector := g.collector ++ [⟨code, fn, unit, nowNs a, 1⟩] }) ∧
  (¬ filtered → 256 ≤ a.log.collector.length →
    (post code fn unit a).log.collector = a.log.collector ∧ (post code fn unit a).log.entries = a.log.entries ∧
    (post code fn unit a).log.lost = a.log.lost + 1 ∧ (post code fn unit a).log.lostSticky = true)

open Sys2Proof Sys2Proof.Machine in
/-- In a per-resource window of a function that does not own the resource, reads return 0, writes are ignored, and
ACCESS_ERR.unowned and event 0x1106 tell it (R43). -/
def Obligations.UnownedWindowsReadZero : Prop :=
  (∀ (fn : Fn) (n : Fin 64) (v : Word), let owner (a : State) := a.plan.channels[n]
    Claims.Unowned fn (0x10000 + 0x100 * n) n owner (fun dt => .chanGo dt fn n v) false ∧
    Claims.Unowned fn (0x10000 + 0x100 * n + 0x2C) n owner (fun dt => .chanKick dt fn n v) false ∧
    Claims.Unowned fn (0x10000 + 0x100 * n + 0x20) n owner (fun dt => .chanBytesLoRead dt fn n) true ∧
    (v.getLsbD 0 = true →
      Claims.Unowned fn (0x10000 + 0x100 * n + 4) n owner (fun dt => .chanStop dt fn n v) false) ∧
    ∀ k : Nat, 4 * k < 0x100 →
      Claims.Unowned fn (0x10000 + 0x100 * n + 4 * k) n owner
        (fun dt => .registerWrite dt fn (0x10000 + 0x100 * n + 4 * k) [(v, 0xF)]) false ∧
      Claims.Unowned fn (0x10000 + 0x100 * n + 4 * k) n owner
        (fun dt => .bar0ReadRejected dt fn (0x10000 + 0x100 * n + 4 * k) 4) true) ∧
  (∀ (fn : Fn) (n : Fin 32) (v : Word), let owner (a : State) := a.plan.streams[n]
    Claims.Unowned fn (0x8000 + 0x20 * n + 8) n owner (fun dt => .streamHeadWrite dt fn n v) false ∧
    Claims.Unowned fn (0x8000 + 0x20 * n + 0x10) n owner (fun dt => .streamDropsRead dt fn n) true ∧
    Claims.Unowned fn (0x8000 + 0x20 * n + 0x14) n owner (fun dt => .streamErrsRead dt fn n) true ∧
    ∀ k : Nat, 4 * k < 0x20 →
      Claims.Unowned fn (0x8000 + 0x20 * n + 4 * k) n owner
        (fun dt => .registerWrite dt fn (0x8000 + 0x20 * n + 4 * k) [(v, 0xF)]) false ∧
      Claims.Unowned fn (0x8000 + 0x20 * n + 4 * k) n owner
        (fun dt => .bar0ReadRejected dt fn (0x8000 + 0x20 * n + 4 * k) 4) true) ∧
  (∀ (fn : Fn) (q : Fin 32) (v : Word), let owner (a : State) := a.plan.queues[q]
    Claims.Unowned fn (0x3000 + 0x20 * q) q owner (fun dt => .tqHeadWrite dt fn q v) false ∧
    Claims.Unowned fn (0x3000 + 0x20 * q + 12) q owner (fun dt => .tqDroppedRead dt fn q) true ∧
    ∀ k : Nat, 4 * k < 0x20 →
      Claims.Unowned fn (0x3000 + 0x20 * q + 4 * k) q owner
        (fun dt => .registerWrite dt fn (0x3000 + 0x20 * q + 4 * k) [(v, 0xF)]) false ∧
      Claims.Unowned fn (0x3000 + 0x20 * q + 4 * k) q owner
        (fun dt => .bar0ReadRejected dt fn (0x3000 + 0x20 * q + 4 * k) 4) true) ∧
  (∀ (fn : Fn) (i : Fin 16) (v : Word), let owner (a : State) := a.plan.hoppers[i]
    Claims.Unowned fn (0x8400 + 0x20 * i + 8) i owner (fun dt => .hopIgnoredRead dt fn i) true ∧
    ∀ k : Nat, 4 * k < 0x20 →
      Claims.Unowned fn (0x8400 + 0x20 * i + 4 * k) i owner
        (fun dt => .registerWrite dt fn (0x8400 + 0x20 * i + 4 * k) [(v, 0xF)]) false ∧
      Claims.Unowned fn (0x8400 + 0x20 * i + 4 * k) i owner
        (fun dt => .bar0ReadRejected dt fn (0x8400 + 0x20 * i + 4 * k) 4) true) ∧
  ∀ (fn : Fn) (n : Fin 16) (v : Word), let owner (a : State) := a.plan.comparators[n]
    Claims.Unowned fn (0x21200 + 0x20 * n + 8) n owner (fun dt => .cmpTargetLoRead dt fn n) true ∧
    Claims.Unowned fn (0x21200 + 0x20 * n + 16) n owner (fun dt => .cmpFireLoRead dt fn n) true ∧
    ∀ k : Nat, 4 * k < 0x20 →
      Claims.Unowned fn (0x21200 + 0x20 * n + 4 * k) n owner
        (fun dt => .registerWrite dt fn (0x21200 + 0x20 * n + 4 * k) [(v, 0xF)]) false ∧
      Claims.Unowned fn (0x21200 + 0x20 * n + 4 * k) n owner
        (fun dt => .bar0ReadRejected dt fn (0x21200 + 0x20 * n + 4 * k) 4) true

open Sys2Proof Sys2Proof.Machine in
/-- TQ_HEAD takes an index from the present head to the present tail, going forward with wrap; any other write is ignored,
sets TQ_STATUS.head_err and logs event 0x1116 (R98). -/
def Obligations.QueueHeadMovesWithinUnreadEntries : Prop :=
  ∀ (fn : Fn) (q : Fin 32) (v : Word),
  let h := v.toNat % 0x10000
  let within (a : State) : Prop := h = (a.queues[q]).head ∨ (h < (a.queues[q]).entries ∧
    (h + (a.queues[q]).entries - (a.queues[q]).head) % (a.queues[q]).entries ≤
      ((a.queues[q]).tail + (a.queues[q]).entries - (a.queues[q]).head) % (a.queues[q]).entries)
  Acts (fun dt => .tqHeadWrite dt fn q v) (fun a => Reached a fn ∧ a.plan.queues[q] = fn ∧ within a)
    (fun a => a.modQueue q fun Q => { Q with head := h }) ∧
  Acts (fun dt => .tqHeadWrite dt fn q v) (fun a => Reached a fn ∧ a.plan.queues[q] = fn ∧ ¬ within a)
    (fun a => post 0x1116 fn q (a.modQueue q fun Q => { Q with headErr := true }))

open Sys2Proof Sys2Proof.Machine in
/-- A new log entry stands before the newest, in the slot after it; of 1 024 the oldest is overwritten, and no pending fault
ends with it (R483). -/
def Obligations.NewLogEntriesTakeTheNextSlot : Prop :=
  ∀ (e : Event) (rest : List Event),
  ActsSo (fun dt => .eventLogged dt)
    (fun a => serves a = true ∧ a.start.doorClosed = false ∧ a.log.collector = e :: rest ∧
      mergePlace (a.modLog fun g => { g with collector := rest }) e = none)
    (fun a t => (∃ l : LogEntry, l.code = e.code ∧ l.fn = e.fn ∧ l.unit = e.unit ∧ l.sequence = a.log.sequence + 1 ∧
        t.log.entries = (l :: a.log.entries).take 1024) ∧
      (a.log.entries ≠ [] → t.log.headSlot = (a.log.headSlot + 1) % 1024) ∧
      ∀ f ∈ a.log.faults, f ∈ t.log.faults)

open Sys2Proof Sys2Proof.Machine in
/-- LOOP pushes its count, 0 for unbounded; ENDLOOP returns to the instruction after the LOOP until the passes are used up,
and then closes the loop; a programme with another byte of either set is refused (R411). -/
def Obligations.LoopsRunTheirBodies : Prop :=
  Claims.loop ∧ Claims.endLoop ∧
  (∀ (a : State) (fn : Fn) (b : List Byte), fld b 0 1 = 3 → instrBad a fn b = 0 →
    zeros b 1 3 = true ∧ zeros b 8 8 = true) ∧
  ∀ (a : State) (fn : Fn) (b : List Byte), fld b 0 1 = 4 → instrBad a fn b = 0 → zeros b 1 15 = true

/-! ### Families of commands -/

open Sys2Proof.Machine in
/-- The PCIe link trains, retrains and resets: one claim for each of the commands that it names. -/
def Obligations.LinkTrainsAndResets : Prop :=
  Claims.perstDeassert ∧ Claims.linkTrained ∧ Claims.linkRetrainChange ∧ Claims.hotResetReceived ∧
  Claims.perstAssert ∧ Claims.dlDown

open Sys2Proof.Machine in
/-- Configuration requests, FLR and its fence, and what VF Enable and Bus Master Enable do: one claim for each of the
commands that it names. -/
def Obligations.FunctionsAreConfiguredAndFenced : Prop :=
  Claims.configRequest ∧ Claims.flrInitiate ∧ Claims.fenceClosed ∧ Claims.fenceTimeoutWedge ∧ Claims.vfEnableSet ∧
  Claims.vfEnableClear ∧ Claims.busMasterEnableClear ∧ Claims.busMasterEnableSet

open Sys2Proof.Machine in
/-- Register writes, refused reads, BAR2, the partner's bus errors, and the serial number: one claim for each of the
commands that it names. -/
def Obligations.RegistersAndBusErrors : Prop :=
  Claims.registerWrite ∧ Claims.bar0ReadRejected ∧ Claims.bar2Write ∧ Claims.inboundTlpError ∧
  Claims.readCompletion ∧ Claims.completionTimeout ∧ Claims.serialLoRead

open Sys2Proof.Machine in
/-- The instance plan, the quiesce of an instance, device information, ECHO and unknown opcodes: one claim for each
of the commands that it names. -/
def Obligations.InstancePlanAndQuiesce : Prop :=
  Claims.instancePlanSet ∧ Claims.instancePlanGet ∧ Claims.instanceQuiesce ∧ Claims.instanceQuiesceDone ∧
  Claims.deviceInfo ∧ Claims.echo ∧ Claims.unknownOpcode

open Sys2Proof.Machine in
/-- The porch, the rings and their indices, the notice route and a reply that cannot be written: one claim for each
of the commands that it names. -/
def Obligations.PorchAndRings : Prop :=
  Claims.porchDoorbell ∧ Claims.reqTailWrite ∧ Claims.repHeadWrite ∧ Claims.ringsSet ∧ Claims.ringsClear ∧
  Claims.noticeRoute ∧ Claims.replyWriteFailed

open Sys2Proof.Machine in
/-- Tailrace queues are set, cleared and moderated, and count what they drop: one claim for each of the commands that
it names. -/
def Obligations.TailraceQueues : Prop :=
  Claims.queueSet ∧ Claims.queueClear ∧ Claims.queueModerate ∧ Claims.tqDroppedRead ∧ Claims.tqModerationTimer ∧
  Claims.queueWriteFailed

open Sys2Proof.Machine in
/-- Device time is read, correlated, stepped and steered: one claim for each of the commands that it names. -/
def Obligations.DeviceTimeIsReadAndStepped : Prop :=
  Claims.timeNsLoRead ∧ Claims.tdcDropRead ∧ Claims.tdcCalibration ∧ Claims.timeStatus ∧ Claims.timeStep ∧
  Claims.fantailConfig ∧ Claims.timeCorrelate

open Sys2Proof.Machine in
/-- PTM dialogues, holdover, and the loss and return of clocks: one claim for each of the commands that it names. -/
def Obligations.PtmAndReferences : Prop :=
  Claims.ptmDialogueStart ∧ Claims.ptmDialogueResponse ∧ Claims.ptmDialogueTimeout ∧ Claims.fantailHoldoverTimeout ∧
  Claims.ptmEnableChange ∧ Claims.clockLoss ∧ Claims.refclkLoss ∧ Claims.refclkRestored

open Sys2Proof.Machine in
/-- Wake sources, always-on power, parking and the main supplies: one claim for each of the commands that it names. -/
def Obligations.PowerAndWake : Prop :=
  Claims.carWakeRise ∧ Claims.carWakeDebounceExpiry ∧ Claims.carWakeFall ∧ Claims.xtr0WakeEdge ∧
  Claims.aonPowerApply ∧ Claims.aonPowerLoss ∧ Claims.parkHoldExpiry ∧ Claims.mainSuppliesOff ∧ Claims.suppliesGood ∧
  Claims.avsStep

open Sys2Proof.Machine in
/-- The start steps up to the early picture: one claim for each of the commands that it names. -/
def Obligations.EarlyStartSteps : Prop :=
  Claims.slotCheck ∧ Claims.valtynRun ∧ Claims.journalFold ∧ Claims.outingRecord ∧ Claims.guardianSurfaces ∧
  Claims.tslReceive ∧ Claims.panelLinkTrained ∧ Claims.earlyPicture

open Sys2Proof.Machine in
/-- The start steps from the rear camera to the end of the start, missed budgets and late retries: one claim for each
of the commands that it names. -/
def Obligations.LateStartSteps : Prop :=
  Claims.rearCameraLink ∧ Claims.rearSensor ∧ Claims.rearInsertion ∧ Claims.lpddr5xTraining ∧
  Claims.cameraPortStart ∧ Claims.positionChannels ∧ Claims.audioInputs ∧ Claims.witnessArmStep ∧ Claims.startDone ∧
  Claims.startStepTimeout ∧ Claims.lateRetry

open Sys2Proof.Machine in
/-- Provisioning, measurement reports, SPDM, the journal and the debug port: one claim for each of the commands that
it names. -/
def Obligations.ProvisioningAndMeasurement : Prop :=
  Claims.provision ∧ Claims.provisionDone ∧ Claims.measReport ∧ Claims.measReportDone ∧ Claims.spdmRequest ∧
  Claims.compactReportReady ∧ Claims.journalRead ∧ Claims.journalClear ∧ Claims.debugPortOpen ∧ Claims.debugPortClose

open Sys2Proof.Machine in
/-- Firmware staging and activation, outing records, slots and the live switch: one claim for each of the commands
that it names. -/
def Obligations.FirmwareAndLiveUpdate : Prop :=
  Claims.fwStage ∧ Claims.fwStageDone ∧ Claims.fwActivate ∧ Claims.outingWrite ∧ Claims.outingWriteDone ∧
  Claims.slotSelect ∧ Claims.liveQuietPoint ∧ Claims.liveArmTimeout ∧ Claims.liveSwitchOpen ∧ Claims.liveSwitchRevert

open Sys2Proof.Machine in
/-- The tell-tale link, the settle and chime windows, and the rear camera's frames: one claim for each of the
commands that it names. -/
def Obligations.TelltalesChimesAndRearCamera : Prop :=
  Claims.tslFrame ∧ Claims.tslStaleTimeout ∧ Claims.tslLossTimeout ∧ Claims.settleWindowEnd ∧ Claims.chimeWindowEnd ∧
  Claims.rearTapFrame ∧ Claims.rearCameraStale

open Sys2Proof.Machine in
/-- The guardian judges input frames, hands over, repairs and signs: one claim for each of the commands that it
names. -/
def Obligations.GuardianFrames : Prop :=
  Claims.inputFrameStart ∧ Claims.inputRegionResult ∧ Claims.inputFrameEnd ∧ Claims.outputFrameStart ∧
  Claims.outputFrameEnd ∧ Claims.digestSigned ∧ Claims.inputLoss ∧ Claims.inputVerticalTimeout

open Sys2Proof.Machine in
/-- Panel self refresh, panel events, and AUX requests of the SoC: one claim for each of the commands that it names. -/
def Obligations.PanelsAndAux : Prop :=
  Claims.psrEntry ∧ Claims.psrExit ∧ Claims.psrRepeatPeriod ∧ Claims.panelHpdEvent ∧ Claims.panelRetrainDone ∧
  Claims.sinkAuxRequest ∧ Claims.auxDeferExpiry ∧ Claims.panelAuxTimeout ∧ Claims.sinkHpdPulseEnd

open Sys2Proof.Machine in
/-- The guardian's configuration, regions, references and verdict route: one claim for each of the commands that it
names. -/
def Obligations.GuardianTables : Prop :=
  Claims.guardConfig ∧ Claims.guardStatus ∧ Claims.guardRegionsSet ∧ Claims.guardRefsLoad ∧
  Claims.guardRefsLoadDone ∧ Claims.verdictRoute

open Sys2Proof.Machine in
/-- Digests, the verdict chain and chime templates: one claim for each of the commands that it names. -/
def Obligations.DigestsAndChimeTemplates : Prop :=
  Claims.digestGet ∧ Claims.chainRead ∧ Claims.chainReadDone ∧ Claims.chimeTemplatesLoad ∧
  Claims.chimeTemplatesLoadDone ∧ Claims.chimeStatus

open Sys2Proof.Machine in
/-- Camera ports lock, are lost, relock, change gear and drain: one claim for each of the commands that it names. -/
def Obligations.CameraPortsLockAndDrain : Prop :=
  Claims.portLock ∧ Claims.portLoss ∧ Claims.relockAttempt ∧ Claims.gearRaiseTimeout ∧ Claims.portDrainEnd ∧
  Claims.drainFrameTimeout ∧ Claims.portRestartDone

open Sys2Proof.Machine in
/-- Camera frames from FS to tag, and the registers of a stream: one claim for each of the commands that it names. -/
def Obligations.CameraFrames : Prop :=
  Claims.csi2FrameStart ∧ Claims.csi2LongPacket ∧ Claims.csi2FrameEnd ∧ Claims.triggerEdgeAgeExpiry ∧
  Claims.stagedFrameCopyDone ∧ Claims.streamHeadWrite ∧ Claims.streamDropsRead ∧ Claims.streamErrsRead

open Sys2Proof.Machine in
/-- The hampers of camera ports and their tunnels: one claim for each of the commands that it names. -/
def Obligations.CameraPortHampers : Prop :=
  Claims.portConfig ∧ Claims.portStatus ∧ Claims.portRestart ∧ Claims.tunnelI2c ∧ Claims.tunnelI2cAnswer ∧
  Claims.tunnelGpio

open Sys2Proof.Machine in
/-- The hampers of streams: one claim for each of the commands that it names. -/
def Obligations.StreamHampers : Prop :=
  Claims.streamOpen ∧ Claims.streamClose ∧ Claims.streamCloseQuiet ∧ Claims.streamStage ∧ Claims.streamStatus ∧
  Claims.streamBuffers ∧ Claims.embeddedMapSet ∧ Claims.embeddedMapSetDone

open Sys2Proof.Machine in
/-- Staged sets, commits and epochs: one claim for each of the commands that it names. -/
def Obligations.Epochs : Prop :=
  Claims.configCommit ∧ Claims.epochSwitchTimer ∧ Claims.configDiscard ∧ Claims.configStatus

open Sys2Proof.Machine in
/-- Position events move the count by their rule: one claim for each of the commands that it names. -/
def Obligations.PositionEventsCount : Prop :=
  Claims.quadStep ∧ Claims.stepDirStep ∧ Claims.upDownCount ∧ Claims.hallChange ∧ Claims.indexEdge ∧
  Claims.standstillTimeout

open Sys2Proof.Machine in
/-- Serial sensors, encoder emulators, and the registers of position channels: one claim for each of the commands
that it names. -/
def Obligations.SerialSensorsAndEmulators : Prop :=
  Claims.serialCycleStart ∧ Claims.serialCycleEnd ∧ Claims.bissRegisterReadDone ∧ Claims.emuOutputStep ∧
  Claims.posPLoRead ∧ Claims.posIdxLoRead ∧ Claims.posSerialErrsRead

open Sys2Proof.Machine in
/-- The hampers of position channels and emulators: one claim for each of the commands that it names. -/
def Obligations.PositionHampers : Prop :=
  Claims.posConfig ∧ Claims.posConfigApply ∧ Claims.posStatus ∧ Claims.posPreset ∧ Claims.emuConfig

open Sys2Proof.Machine in
/-- Comparators fire, are armed, disarmed and read; outputs and lines take their settings: one claim for each of the
commands that it names. -/
def Obligations.ComparatorsAndOutputSettings : Prop :=
  Claims.comparatorFire ∧ Claims.cmpArm ∧ Claims.cmpDisarm ∧ Claims.cmpStatus ∧ Claims.cmpTargetLoRead ∧
  Claims.cmpFireLoRead ∧ Claims.trigConfig ∧ Claims.xtrConfig ∧ Claims.outputConfigApply

open Sys2Proof.Machine in
/-- Trigger outputs pass from delay to pulse to holdoff, and what fires them: one claim for each of the commands that
it names. -/
def Obligations.TriggerOutputs : Prop :=
  Claims.trigDelayEnd ∧ Claims.trigPulseEnd ∧ Claims.trigHoldoffEnd ∧ Claims.trigPeriodTick ∧ Claims.trigFire ∧
  Claims.trigMergedRead ∧ Claims.extEdge

open Sys2Proof.Machine in
/-- Cross lines assert, drive, guard, stick and clear, and count runts: one claim for each of the commands that it
names. -/
def Obligations.CrossLines : Prop :=
  Claims.xtrFallingEdge ∧ Claims.xtrAssertionTaken ∧ Claims.xtrDriveEnd ∧ Claims.xtrGuardEnd ∧
  Claims.xtrReleaseCheck ∧ Claims.xtrStuckTimeout ∧ Claims.xtrStuckClear ∧ Claims.runtPulseEnd ∧ Claims.xtrRuntsRead

open Sys2Proof.Machine in
/-- Hoppers are bound, armed, triggered, disarmed and copied out: one claim for each of the commands that it names. -/
def Obligations.Hoppers : Prop :=
  Claims.hopperBind ∧ Claims.hopperArm ∧ Claims.hopperDisarm ∧ Claims.hopperDisarmQuiet ∧ Claims.hopperTrigger ∧
  Claims.hopperStatus ∧ Claims.hopperCopyout ∧ Claims.hopperCopyEnd ∧ Claims.hopIgnoredRead

open Sys2Proof.Machine in
/-- Pyramid and decode jobs are submitted, cancelled and ended: one claim for each of the commands that it names. -/
def Obligations.PyramidsAndDecoder : Prop :=
  Claims.pyramidSubmit ∧ Claims.pyramidCancel ∧ Claims.pyramidPassEnd ∧ Claims.pyrDroppedRead ∧ Claims.decodeSubmit ∧
  Claims.decodeCancel ∧ Claims.decodeJobEnd ∧ Claims.prepQuiet ∧ Claims.engineStallReset

open Sys2Proof.Machine in
/-- Audio inputs are configured, acquire, lose and deliver hops: one claim for each of the commands that it names. -/
def Obligations.AudioInputs : Prop :=
  Claims.audioConfig ∧ Claims.audioRoute ∧ Claims.audioFrame ∧ Claims.audioLossTimeout ∧ Claims.audioHop ∧
  Claims.audioRecordsWritten

open Sys2Proof.Machine in
/-- The LPDDR5X store heats, drains, retrains and stalls: one claim for each of the commands that it names. -/
def Obligations.LpddrStore : Prop :=
  Claims.thermalSample ∧ Claims.fullRetrainRequest ∧ Claims.weirDrainEnd ∧ Claims.weirDrainTimeout ∧
  Claims.retrainDone ∧ Claims.shortRetrain ∧ Claims.controllerStall

open Sys2Proof.Machine in
/-- Weir's marks return, the scrubber runs, and Weir answers its hampers and registers: one claim for each of the
commands that it names. -/
def Obligations.WeirMarksAndHampers : Prop :=
  Claims.serveRestoreTimer ∧ Claims.sFaultClearTimer ∧ Claims.scrubBurst ∧ Claims.weirShedRead ∧
  Claims.weirEccAddrLoRead ∧ Claims.weirStatus ∧ Claims.weirShedOrder ∧ Claims.weirCheck ∧ Claims.weirScrub

open Sys2Proof.Machine in
/-- The event log, its mirror, and pending faults: one claim for each of the commands that it names. -/
def Obligations.LogMirrorAndFaults : Prop :=
  Claims.eventLogged ∧ Claims.mirrorTimer ∧ Claims.logMirrorDone ∧ Claims.logRead ∧ Claims.logClear ∧
  Claims.faultAck ∧ Claims.faultStatus ∧ Claims.logFilter ∧ Claims.logLostRead ∧ Claims.logFilteredRead

open Sys2Proof.Machine in
/-- What a full reset does, from each of its sources: one claim for each of the commands that it names. -/
def Obligations.FullResets : Prop :=
  Claims.deviceReset ∧ Claims.watchdogService ∧ Claims.watchdogExpiry ∧ Claims.lockstepMismatch ∧
  Claims.resetNAssert ∧ Claims.resetNRelease ∧ Claims.supplyFault ∧ Claims.fullResetRelease

open Sys2Proof.Machine in
/-- The witness sampler's hampers and its count of ignored triggers: one claim for each of the commands that it
names. -/
def Obligations.WitnessHampers : Prop :=
  Claims.witnessConfig ∧ Claims.witnessArm ∧ Claims.witnessDisarm ∧ Claims.witnessQuiet ∧ Claims.witnessStatus ∧
  Claims.witnessRoute ∧ Claims.witIgnoredRead

open Sys2Proof.Machine in
/-- The witness sampler samples, fires, ends and delivers: one claim for each of the commands that it names. -/
def Obligations.WitnessCaptures : Prop :=
  Claims.adcConversion ∧ Claims.dwEdge ∧ Claims.witnessUnitTimeout ∧ Claims.witnessCaptureEnd ∧
  Claims.witnessDeliveryEnd

open Sys2Proof.Machine in
/-- Millrace channels are loaded, opened, mapped and fall quiet: one claim for each of the commands that it names. -/
def Obligations.ChannelHampers : Prop :=
  Claims.chanLoad ∧ Claims.chanConfig ∧ Claims.chanQuiet ∧ Claims.chanSignalMap

open Sys2Proof.Machine in
/-- Runs start, stop, flush, retry and skip through a channel's registers: one claim for each of the commands that it
names. -/
def Obligations.ChannelControl : Prop :=
  Claims.chanGo ∧ Claims.chanStop ∧ Claims.chanFlush ∧ Claims.chanRetry ∧ Claims.chanSkip ∧ Claims.chanKick ∧
  Claims.chanBytesLoRead

open Sys2Proof.Machine in
/-- MOVE and MOVE2D copy their bytes: one claim for each of the commands that it names. -/
def Obligations.ChannelsMoveData : Prop :=
  Claims.move ∧ Claims.move2d

open Sys2Proof.Machine in
/-- WAIT takes its count or fails, and SIGNAL writes an entry or adds to a slot: one claim for each of the commands
that it names. -/
def Obligations.ChannelsWaitAndSignal : Prop :=
  Claims.wait ∧ Claims.waitSatisfied ∧ Claims.waitTimeout ∧ Claims.signalEntry ∧ Claims.signalSlot

open Sys2Proof.Machine in
/-- SET, the CRC accumulator, FENCE, END and their arrival: one claim for each of the commands that it names. -/
def Obligations.ChannelsSetCheckAndEnd : Prop :=
  Claims.setReg ∧ Claims.crcStart ∧ Claims.crcStore ∧ Claims.fence ∧ Claims.endRun ∧ Claims.arrivalReadbackDone
end

