-- ==== Sys2Proof/Laws/Memory.lean ====
section
/-! SUPPORT. The laws of memory: a read after a write, and the canonical form. -/

set_option Elab.async false

namespace Sys2Proof.Machine

theorem Memory.wf_nil : Memory.wf [] := ⟨List.Pairwise.nil, by simp⟩

theorem Memory.wf_tail {c : Host.Cell} {m : Memory} (h : Memory.wf (c :: m)) : Memory.wf m :=
  ⟨(List.pairwise_cons.mp h.1).2, fun d hd => h.2 d (List.mem_cons_of_mem _ hd)⟩

/-- Every entry of a write is one that was there, or the written one. -/
theorem Memory.mem_write {m : Memory} {x : Nat} {v : Byte} {c : Host.Cell} (h : c ∈ Memory.write m x v) :
    c ∈ m ∨ (c = (x, v) ∧ v ≠ 0) := by
  induction m with
  | nil =>
    simp only [Memory.write] at h
    split at h
    · exact .inl h
    · rename_i hv
      exact .inr ⟨List.mem_singleton.mp h, hv⟩
  | cons d m ih =>
    obtain ⟨a, b⟩ := d
    simp only [Memory.write] at h
    split at h
    · split at h
      · exact .inl h
      · rename_i hv
        rcases List.mem_cons.mp h with h | h
        · exact .inr ⟨h, hv⟩
        · exact .inl h
    · split at h
      · rename_i hx
        split at h
        · exact .inl (List.mem_cons_of_mem _ h)
        · rename_i hv
          rcases List.mem_cons.mp h with h | h
          · exact .inr ⟨by rw [h, hx], hv⟩
          · exact .inl (List.mem_cons_of_mem _ h)
      · rcases List.mem_cons.mp h with h | h
        · exact .inl (h ▸ List.mem_cons_self)
        · rcases ih h with h | h
          · exact .inl (List.mem_cons_of_mem _ h)
          · exact .inr h

/-- A write keeps the canonical form. -/
theorem Memory.write_wf {m : Memory} (x : Nat) (v : Byte) (h : Memory.wf m) : Memory.wf (Memory.write m x v) := by
  refine ⟨?_, fun c hc => ?_⟩
  · induction m with
    | nil =>
      simp only [Memory.write]
      split
      · exact List.Pairwise.nil
      · exact List.pairwise_singleton _ _
    | cons d m ih =>
      obtain ⟨a, b⟩ := d
      have ht := Memory.wf_tail h
      have hp := List.pairwise_cons.mp h.1
      simp only [Memory.write]
      split
      · rename_i hx
        split
        · exact h.1
        · exact List.pairwise_cons.mpr ⟨fun c hc => by
            rcases List.mem_cons.mp hc with hc | hc
            · rw [hc]; exact hx
            · exact Nat.lt_trans hx (hp.1 c hc), h.1⟩
      · rename_i hx
        split
        · split
          · exact ht.1
          · exact List.pairwise_cons.mpr ⟨hp.1, ht.1⟩
        · rename_i hne
          refine List.pairwise_cons.mpr ⟨fun c hc => ?_, ih ht⟩
          rcases Memory.mem_write hc with hc | ⟨hc, -⟩
          · exact hp.1 c hc
          · rw [hc]; exact Nat.lt_of_le_of_ne (Nat.le_of_not_lt hx) (fun e => hne e.symm)
  · rcases Memory.mem_write hc with hc | ⟨hc, hv⟩
    · exact h.2 c hc
    · rw [hc]; exact hv

theorem Memory.writeList_wf (bytes : List Byte) : ∀ {m : Memory} (x : Nat), Memory.wf m →
    Memory.wf (Memory.writeList m x bytes) := by
  induction bytes with
  | nil => intro m x h; exact h
  | cons v vs ih => intro m x h; exact ih (x + 1) (Memory.write_wf x v h)

/-- Below every listed address nothing is listed. -/
theorem Memory.read_below {m : Memory} {y : Nat} (h : ∀ c ∈ m, y < c.1) : Memory.read m y = 0 := by
  induction m with
  | nil => rfl
  | cons d m ih =>
    obtain ⟨a, b⟩ := d
    have ha : a ≠ y := Nat.ne_of_gt (h (a, b) List.mem_cons_self)
    simp only [Memory.read, if_neg ha]
    exact ih fun c hc => h c (List.mem_cons_of_mem _ hc)

/-- A read after a write (R393, R411). -/
theorem Memory.read_write {m : Memory} (h : Memory.wf m) (x y : Nat) (v : Byte) :
    Memory.read (Memory.write m x v) y = if y = x then v else Memory.read m y := by
  induction m with
  | nil =>
    simp only [Memory.write]
    split
    · rename_i hv
      by_cases hy : y = x <;> simp [Memory.read, hv]
    · by_cases hy : y = x
      · simp [Memory.read, hy]
      · simp only [Memory.read, if_neg (Ne.symm hy), if_neg hy]
  | cons d m ih =>
    obtain ⟨a, b⟩ := d
    have hp := List.pairwise_cons.mp h.1
    have ht := Memory.wf_tail h
    simp only [Memory.write]
    split
    · rename_i hx
      have low : Memory.read ((a, b) :: m) x = 0 := Memory.read_below fun c hc => by
        rcases List.mem_cons.mp hc with hc | hc
        · rw [hc]; exact hx
        · exact Nat.lt_trans hx (hp.1 c hc)
      split
      · rename_i hv
        by_cases hy : y = x
        · rw [if_pos hy, hy, low, hv]
        · rw [if_neg hy]
      · by_cases hy : y = x
        · simp [Memory.read, hy]
        · rw [if_neg hy, Memory.read, if_neg (Ne.symm hy)]
    · split
      · rename_i hx
        subst hx
        have low : Memory.read m x = 0 := Memory.read_below hp.1
        split
        · rename_i hv
          by_cases hy : y = x
          · rw [if_pos hy, hy, low, hv]
          · rw [if_neg hy, Memory.read, if_neg (Ne.symm hy)]
        · by_cases hy : y = x
          · simp [Memory.read, hy]
          · simp only [Memory.read, if_neg (Ne.symm hy), if_neg hy]
      · rename_i hne
        simp only [Memory.read, ih ht]
        by_cases ha : a = y
        · have hy : ¬ y = x := fun e => hne (e.symm.trans ha.symm)
          rw [if_pos ha, if_pos ha, if_neg hy]
        · rw [if_neg ha, if_neg ha]

end Sys2Proof.Machine
end

