-- ==== Sys2Proof/Laws/Keeps.lean ====
section
/-! SUPPORT. The rules by which `Keeps` is shown of an operation: each says that what a state keeps of `s₀`, the
operation's result keeps. -/

set_option Elab.async false

namespace Sys2Proof.Machine

theorem Kept.refl (s : State) : Kept s s :=
  ⟨rfl, Nat.le_refl _, Nat.le_refl _, List.suffix_refl _, id, id, rfl, id⟩

theorem Kept.trans {s t u : State} (h : Kept s t) (k : Kept t u) : Kept s u :=
  ⟨k.pending.trans h.pending, h.elapsed.trans k.elapsed, h.drawn.trans k.drawn, h.out.trans k.out,
    k.millpond ∘ h.millpond, k.lpddr ∘ h.lpddr, k.serial.trans h.serial, k.lock ∘ h.lock⟩

theorem Within.refl (m : Nat) (s : State) : Within m s s := by constructor <;> intros <;> rfl

theorem Within.trans {m : Nat} {s t u : State} (h : Within m s t) (k : Within m t u) : Within m s u :=
  ⟨k.elapsed.trans h.elapsed,
    fun x => (k.link x).trans (h.link x), fun x => (k.fns x).trans (h.fns x), fun x => (k.lastServed x).trans
    (h.lastServed x), fun x => (k.plan x).trans (h.plan x), fun x => (k.queues x).trans (h.queues x), fun x =>
    (k.accepted x).trans (h.accepted x), fun x => (k.owed x).trans (h.owed x), fun x => (k.log x).trans (h.log x), fun
    x => (k.mirror x).trans (h.mirror x), fun x => (k.mirrorNumber x).trans (h.mirrorNumber x), fun x => (k.clk
    x).trans (h.clk x), fun x => (k.pwr x).trans (h.pwr x), fun x => (k.start x).trans (h.start x), fun x => (k.mram
    x).trans (h.mram x), fun x => (k.meas x).trans (h.meas x), fun x => (k.guard x).trans (h.guard x), fun x =>
    (k.ports x).trans (h.ports x), fun x => (k.streams x).trans (h.streams x), fun x => (k.deviceEpoch x).trans
    (h.deviceEpoch x), fun x => (k.epochs x).trans (h.epochs x), fun x => (k.pos x).trans (h.pos x), fun x => (k.emu
    x).trans (h.emu x), fun x => (k.cmps x).trans (h.cmps x), fun x => (k.trigs x).trans (h.trigs x), fun x =>
    (k.hoppers x).trans (h.hoppers x), fun x => (k.hopEvent x).trans (h.hopEvent x), fun x => (k.prep x).trans (h.prep
    x), fun x => (k.audio x).trans (h.audio x), fun x => (k.weir x).trans (h.weir x), fun x => (k.chans x).trans
    (h.chans x), fun x => (k.wit x).trans (h.wit x), fun x => (k.millpond x).trans (h.millpond x), fun x => (k.lpddr
    x).trans (h.lpddr x), fun x => (k.out x).trans (h.out x), fun x => (k.drawn x).trans (h.drawn x)⟩

/-- What no command undoes, and what lies outside a mask, is as it was. -/
structure Keeps (m : Nat) (s t : State) : Prop where
  kept : Kept s t
  within : Within m s t

/-- Every part of a mask is in another. -/
def Sub (a b : Nat) : Prop := Nat.beq (Nat.land a b) a = true

theorem Sub.eq {a b : Nat} (h : Sub a b) : a &&& b = a := Nat.eq_of_beq_eq_true h

theorem Sub.of {a b c : Nat} (k : Sub b c) (h : Sub a b) : Sub a c := by
  have e : a &&& c = a := by rw [← h.eq, Nat.and_assoc, k.eq]
  show Nat.beq (a &&& c) a = true
  rw [e]; exact Nat.beq_refl a

theorem Sub.refl (a : Nat) : Sub a a := by
  show Nat.beq (a &&& a) a = true
  rw [Nat.and_self]; exact Nat.beq_refl a

theorem Sub.no {a b : Nat} {p : Prop} (z : b &&& a = 0) (h : Sub a b) (k : Nat.beq a 0 = false) : p := by
  rw [← h.eq, Nat.and_comm, z] at k; cases k

/-- A part outside the mask has not changed. -/
theorem off {α : Type} {m b : Nat} {x y : α} (k : Nat.beq b 0 = false) (h : Sub b m ∨ x = y) (z : m &&& b = 0) : x = y := by
  rcases h with h | h
  · exact Sub.no z h k
  · exact h

theorem Keeps.refl (m : Nat) (s : State) : Keeps m s s := ⟨Kept.refl s, Within.refl m s⟩

theorem Keeps.trans {m : Nat} {s t u : State} (h : Keeps m s t) (k : Keeps m t u) : Keeps m s u :=
  ⟨h.kept.trans k.kept, h.within.trans k.within⟩

/-- A change of fields. -/
theorem Keeps.upd {m : Nat} {s₀ s : State}
    {link : Link} {fns : Vector FnState 16} {lastServed : Fn} {plan : Plan} {queues : Vector Queue 32} {accepted :
    List Accepted} {owed : List Owed} {log : Log} {mirror : Vector (Option MirrorBank) 31} {mirrorNumber : Word}
    {clk : Clocks} {pwr : Power} {start : Start} {meas : Meas} {guard : Guard} {ports : Vector Port 8} {streams :
    Vector Stream 32} {deviceEpoch : Word} {epochs : Vector Epochs 16} {pos : Vector Pos 4} {emu : Vector Emu 2}
    {cmps : Vector Cmp 16} {trigs : Trigs} {hoppers : Vector Hop 16} {hopEvent : Nat} {prep : Prep} {audio : Vector
    Audio 2} {weir : Weir} {chans : Vector Chan 64} {wit : Wit}
    (h : Keeps m s₀ s)
    (hlink : Sub Area.link m ∨ link = s.link)
    (hfns : Sub Area.fns m ∨ fns = s.fns)
    (hlastServed : Sub Area.lastServed m ∨ lastServed = s.lastServed)
    (hplan : Sub Area.plan m ∨ plan = s.plan)
    (hqueues : Sub Area.queues m ∨ queues = s.queues)
    (haccepted : Sub Area.accepted m ∨ accepted = s.accepted)
    (howed : Sub Area.owed m ∨ owed = s.owed)
    (hlog : Sub Area.log m ∨ log = s.log)
    (hmirror : Sub Area.mirror m ∨ mirror = s.mirror)
    (hmirrorNumber : Sub Area.mirrorNumber m ∨ mirrorNumber = s.mirrorNumber)
    (hclk : Sub Area.clk m ∨ clk = s.clk)
    (hpwr : Sub Area.pwr m ∨ pwr = s.pwr)
    (hstart : Sub Area.start m ∨ start = s.start)
    (hmeas : Sub Area.meas m ∨ meas = s.meas)
    (hguard : Sub Area.guard m ∨ guard = s.guard)
    (hports : Sub Area.ports m ∨ ports = s.ports)
    (hstreams : Sub Area.streams m ∨ streams = s.streams)
    (hdeviceEpoch : Sub Area.deviceEpoch m ∨ deviceEpoch = s.deviceEpoch)
    (hepochs : Sub Area.epochs m ∨ epochs = s.epochs)
    (hpos : Sub Area.pos m ∨ pos = s.pos)
    (hemu : Sub Area.emu m ∨ emu = s.emu)
    (hcmps : Sub Area.cmps m ∨ cmps = s.cmps)
    (htrigs : Sub Area.trigs m ∨ trigs = s.trigs)
    (hhoppers : Sub Area.hoppers m ∨ hoppers = s.hoppers)
    (hhopEvent : Sub Area.hopEvent m ∨ hopEvent = s.hopEvent)
    (hprep : Sub Area.prep m ∨ prep = s.prep)
    (haudio : Sub Area.audio m ∨ audio = s.audio)
    (hweir : Sub Area.weir m ∨ weir = s.weir)
    (hchans : Sub Area.chans m ∨ chans = s.chans)
    (hwit : Sub Area.wit m ∨ wit = s.wit) :
    Keeps m s₀ (State.mk
      s.elapsed s.drawn s.pending s.out link fns lastServed plan queues accepted owed log mirror mirrorNumber clk
      pwr start s.mram meas guard ports streams deviceEpoch epochs pos emu cmps trigs hoppers hopEvent prep audio
      weir chans wit s.millpond s.lpddr) :=
  h.trans ⟨⟨rfl, Nat.le_refl _, Nat.le_refl _, List.suffix_refl _, id, id, rfl, id⟩,
    ⟨rfl, off rfl hlink, off rfl hfns, off rfl hlastServed, off rfl hplan, off rfl hqueues, off rfl haccepted, off rfl
    howed, off rfl hlog, off rfl hmirror, off rfl hmirrorNumber, off rfl hclk, off rfl hpwr, off rfl hstart, fun _ =>
    rfl, off rfl hmeas, off rfl hguard, off rfl hports, off rfl hstreams, off rfl hdeviceEpoch, off rfl hepochs, off
    rfl hpos, off rfl hemu, off rfl hcmps, off rfl htrigs, off rfl hhoppers, off rfl hhopEvent, off rfl hprep, off rfl
    haudio, off rfl hweir, off rfl hchans, off rfl hwit, fun _ => rfl, fun _ => rfl, fun _ => rfl, fun _ => rfl⟩⟩

/-- The same with a change of MRAM that keeps the serial number and the lock. -/
theorem Keeps.updMram {m : Nat} {s₀ s : State}
    {link : Link} {fns : Vector FnState 16} {lastServed : Fn} {plan : Plan} {queues : Vector Queue 32} {accepted :
    List Accepted} {owed : List Owed} {log : Log} {mirror : Vector (Option MirrorBank) 31} {mirrorNumber : Word}
    {clk : Clocks} {pwr : Power} {start : Start} {meas : Meas} {guard : Guard} {ports : Vector Port 8} {streams :
    Vector Stream 32} {deviceEpoch : Word} {epochs : Vector Epochs 16} {pos : Vector Pos 4} {emu : Vector Emu 2}
    {cmps : Vector Cmp 16} {trigs : Trigs} {hoppers : Vector Hop 16} {hopEvent : Nat} {prep : Prep} {audio : Vector
    Audio 2} {weir : Weir} {chans : Vector Chan 64} {wit : Wit}
    {mram : Mram} (h : Keeps m s₀ s) (hs : mram.identity.serial = s.mram.identity.serial)
    (hl : s.mram.identity.lock = true → mram.identity.lock = true)
    (hmram : Sub Area.mram m ∨ mram = s.mram)
    (hlink : Sub Area.link m ∨ link = s.link)
    (hfns : Sub Area.fns m ∨ fns = s.fns)
    (hlastServed : Sub Area.lastServed m ∨ lastServed = s.lastServed)
    (hplan : Sub Area.plan m ∨ plan = s.plan)
    (hqueues : Sub Area.queues m ∨ queues = s.queues)
    (haccepted : Sub Area.accepted m ∨ accepted = s.accepted)
    (howed : Sub Area.owed m ∨ owed = s.owed)
    (hlog : Sub Area.log m ∨ log = s.log)
    (hmirror : Sub Area.mirror m ∨ mirror = s.mirror)
    (hmirrorNumber : Sub Area.mirrorNumber m ∨ mirrorNumber = s.mirrorNumber)
    (hclk : Sub Area.clk m ∨ clk = s.clk)
    (hpwr : Sub Area.pwr m ∨ pwr = s.pwr)
    (hstart : Sub Area.start m ∨ start = s.start)
    (hmeas : Sub Area.meas m ∨ meas = s.meas)
    (hguard : Sub Area.guard m ∨ guard = s.guard)
    (hports : Sub Area.ports m ∨ ports = s.ports)
    (hstreams : Sub Area.streams m ∨ streams = s.streams)
    (hdeviceEpoch : Sub Area.deviceEpoch m ∨ deviceEpoch = s.deviceEpoch)
    (hepochs : Sub Area.epochs m ∨ epochs = s.epochs)
    (hpos : Sub Area.pos m ∨ pos = s.pos)
    (hemu : Sub Area.emu m ∨ emu = s.emu)
    (hcmps : Sub Area.cmps m ∨ cmps = s.cmps)
    (htrigs : Sub Area.trigs m ∨ trigs = s.trigs)
    (hhoppers : Sub Area.hoppers m ∨ hoppers = s.hoppers)
    (hhopEvent : Sub Area.hopEvent m ∨ hopEvent = s.hopEvent)
    (hprep : Sub Area.prep m ∨ prep = s.prep)
    (haudio : Sub Area.audio m ∨ audio = s.audio)
    (hweir : Sub Area.weir m ∨ weir = s.weir)
    (hchans : Sub Area.chans m ∨ chans = s.chans)
    (hwit : Sub Area.wit m ∨ wit = s.wit) :
    Keeps m s₀ (State.mk
      s.elapsed s.drawn s.pending s.out link fns lastServed plan queues accepted owed log mirror mirrorNumber clk
      pwr start mram meas guard ports streams deviceEpoch epochs pos emu cmps trigs hoppers hopEvent prep audio
      weir chans wit s.millpond s.lpddr) :=
  h.trans ⟨⟨rfl, Nat.le_refl _, Nat.le_refl _, List.suffix_refl _, id, id, hs, hl⟩,
    ⟨rfl, off rfl hlink, off rfl hfns, off rfl hlastServed, off rfl hplan, off rfl hqueues, off rfl haccepted, off rfl
    howed, off rfl hlog, off rfl hmirror, off rfl hmirrorNumber, off rfl hclk, off rfl hpwr, off rfl hstart, off rfl
    hmram, off rfl hmeas, off rfl hguard, off rfl hports, off rfl hstreams, off rfl hdeviceEpoch, off rfl hepochs, off
    rfl hpos, off rfl hemu, off rfl hcmps, off rfl htrigs, off rfl hhoppers, off rfl hhopEvent, off rfl hprep, off rfl
    haudio, off rfl hweir, off rfl hchans, off rfl hwit, fun _ => rfl, fun _ => rfl, fun _ => rfl, fun _ => rfl⟩⟩

theorem Keeps.ite {m : Nat} {s₀ a b : State} {c : Prop} [Decidable c] (ha : Keeps m s₀ a) (hb : Keeps m s₀ b) :
    Keeps m s₀ (if c then a else b) := by split <;> assumption

/-- The state of a pair that an operation gave. -/
theorem Keeps.snd {m : Nat} {α : Type} {s₀ b : State} {p : α × State} {a : α} (e : p = (a, b)) (h : Keeps m s₀ p.2) : Keeps m s₀ b := by
  subst e; exact h

theorem Keeps.fst {m : Nat} {α : Type} {s₀ b : State} {p : State × α} {a : α} (e : p = (b, a)) (h : Keeps m s₀ p.1) : Keeps m s₀ b := by
  subst e; exact h

theorem Keeps.snd2 {m : Nat} {α β : Type} {s₀ b : State} {p : α × β × State} {a : α} {c : β} (e : p = (a, c, b))
    (h : Keeps m s₀ p.2.2) : Keeps m s₀ b := by
  subst e; exact h

/-- A fold of an operation that keeps. -/
theorem Keeps.foldl {m : Nat} {α : Type} {s₀ : State} {f : State → α → State} (hf : ∀ s x, Keeps m s₀ s → Keeps m s₀ (f s x)) :
    ∀ {l : List α} {s : State}, Keeps m s₀ s → Keeps m s₀ (l.foldl f s)
  | [], _, h => h
  | _ :: l, _, h => Keeps.foldl hf (l := l) (hf _ _ h)

/-- A fold that carries a state beside a value. -/
theorem Keeps.foldl2 {m : Nat} {α β : Type} {s₀ : State} {f : β × State → α → β × State}
    (hf : ∀ r x, Keeps m s₀ r.2 → Keeps m s₀ (f r x).2) :
    ∀ {l : List α} {r : β × State}, Keeps m s₀ r.2 → Keeps m s₀ (l.foldl f r).2
  | [], _, h => h
  | _ :: l, _, h => Keeps.foldl2 hf (l := l) (hf _ _ h)

/-- A fold that carries a state before a value. -/
theorem Keeps.foldl1 {m : Nat} {α β : Type} {s₀ : State} {f : State × β → α → State × β}
    (hf : ∀ r x, Keeps m s₀ r.1 → Keeps m s₀ (f r x).1) :
    ∀ {l : List α} {r : State × β}, Keeps m s₀ r.1 → Keeps m s₀ (l.foldl f r).1
  | [], _, h => h
  | _ :: l, _, h => Keeps.foldl1 hf (l := l) (hf _ _ h)

/-- What a verdict keeps. -/
def KeepsV (m : Nat) (s : State) : Verdict → Prop
  | .ok t _ | .accepted t _ | .later t _ => Keeps m s t
  | .refuse _ _ => True

theorem KeepsV.ok {m : Nat} {s t : State} {p : List Byte} (h : Keeps m s t) : KeepsV m s (.ok t p) := h
theorem KeepsV.accepted {m : Nat} {s t : State} {p : List Byte} (h : Keeps m s t) : KeepsV m s (.accepted t p) := h
theorem KeepsV.later {m : Nat} {s t : State} {i : Nat} (h : Keeps m s t) : KeepsV m s (.later t i) := h
theorem KeepsV.refuse {m : Nat} {s : State} {n : Nat} {p : List Byte} : KeepsV m s (.refuse n p) := trivial
theorem KeepsV.badArg {m : Nat} {s : State} : KeepsV m s badArg := trivial
theorem KeepsV.notOwner {m : Nat} {s : State} : KeepsV m s notOwner := trivial
theorem KeepsV.wrongState {m : Nat} {s : State} : KeepsV m s wrongState := trivial
theorem KeepsV.noResource {m : Nat} {s : State} : KeepsV m s noResource := trivial
theorem KeepsV.ite {m : Nat} {s₀ : State} {a b : Verdict} {c : Prop} [Decidable c] (ha : KeepsV m s₀ a) (hb : KeepsV m s₀ b) :
    KeepsV m s₀ (if c then a else b) := by split <;> assumption

/-- What an optional state keeps. -/
def KeepsO (m : Nat) (s : State) : Option State → Prop
  | some t => Keeps m s t
  | none => True

theorem KeepsO.some {m : Nat} {s t : State} (h : Keeps m s t) : KeepsO m s (.some t) := h
theorem KeepsO.none {m : Nat} {s : State} : KeepsO m s .none := trivial
theorem KeepsO.ite {m : Nat} {s₀ : State} {a b : Option State} {c : Prop} [Decidable c] (ha : KeepsO m s₀ a) (hb : KeepsO m s₀ b) :
    KeepsO m s₀ (if c then a else b) := by split <;> assumption
theorem KeepsO.map {m : Nat} {α : Type} {s₀ : State} {x : Option α} {f : α → State} (h : ∀ a, Keeps m s₀ (f a)) :
    KeepsO m s₀ (x.map f) := by cases x with
  | none => exact trivial
  | some a => exact h a
theorem KeepsO.bind {m : Nat} {α : Type} {s₀ : State} {x : Option α} {f : α → Option State} (h : ∀ a, KeepsO m s₀ (f a)) :
    KeepsO m s₀ (x.bind f) := by cases x with
  | none => exact trivial
  | some a => exact h a

theorem Keeps.of_some {m : Nat} {s₀ t : State} {x : Option State} (e : x = some t) (h : KeepsO m s₀ x) : Keeps m s₀ t := by
  subst e; exact h
theorem KeepsV.ok_of {m : Nat} {s₀ t : State} {v : Verdict} {p : List Byte} (e : v = .ok t p) (h : KeepsV m s₀ v) : Keeps m s₀ t := by
  subst e; exact h

/-- What an optional read that changes the state keeps. -/
def KeepsR {α : Type} (m : Nat) (s : State) : Option (α × State) → Prop
  | some r => Keeps m s r.2
  | none => True

theorem KeepsR.some {m : Nat} {α : Type} {s : State} {r : α × State} (h : Keeps m s r.2) : KeepsR m s (.some r) := h
theorem KeepsR.none {m : Nat} {α : Type} {s : State} : KeepsR m s (.none : Option (α × State)) := trivial
theorem KeepsR.ite {m : Nat} {α : Type} {s₀ : State} {a b : Option (α × State)} {c : Prop} [Decidable c] (ha : KeepsR m s₀ a)
    (hb : KeepsR m s₀ b) : KeepsR m s₀ (if c then a else b) := by split <;> assumption
theorem KeepsR.map {m : Nat} {α β : Type} {s₀ : State} {x : Option α} {f : α → β × State} (h : ∀ a, Keeps m s₀ (f a).2) :
    KeepsR m s₀ (x.map f) := by cases x with
  | none => exact trivial
  | some a => exact h a

/-- What an answer keeps. -/
def KeepsA (m : Nat) (s : State) : Answer → Prop
  | .next t => Keeps m s t
  | _ => True

theorem KeepsA.next {m : Nat} {s t : State} (h : Keeps m s t) : KeepsA m s (.next t) := h

theorem KeepsA.out {m : Nat} {s t : State} {a : Answer} (h : KeepsA m s a) (e : a = .next t) : Keeps m s t := by
  subst e; exact h

end Sys2Proof.Machine
end

