-- ==== Sys2Proof/Laws/KeepsOps.lean ====
section
/-! SUPPORT. `Keeps` of the operations and meanings of Machine/Ops.lean. -/

set_option Elab.async false

set_option linter.unusedTactic false
set_option linter.unreachableTactic false

namespace Sys2Proof.Machine

theorem keeps_State_modFn {msk : Nat} {s₀ s : State} (f : Fn) (g : FnState → FnState) (hk : Keeps msk s₀ s)
    (hm : Sub 0x2 msk := by first | assumption | (apply Sub.of; assumption; rfl)) :
    Keeps msk s₀ (State.modFn s f g) := by
  unfold State.modFn
  repeat' first
    | (with_reducible assumption) | ((with_reducible refine Sub.of hm ?_); exact rfl)
    | (with_reducible refine Keeps.ite ?_ ?_)
    | (fail_if_no_progress ((with_reducible refine Keeps.upd ?_ ?_ ?_ ?_ ?_ ?_ ?_ ?_ ?_ ?_ ?_ ?_ ?_ ?_ ?_ ?_ ?_ ?_ ?_ ?_ ?_ ?_ ?_ ?_ ?_ ?_ ?_ ?_ ?_ ?_ ?_) <;> first | exact Or.inl (Sub.of hm rfl) | with_reducible exact Or.inr rfl | skip))
    | (fail_if_no_progress extract_lets) | split | (refine Keeps.snd (by assumption) ?_)
    | (refine Keeps.fst (by assumption) ?_) | (refine Keeps.snd2 (by assumption) ?_) | (dsimp only)
    | (dsimp +zetaDelta only)

theorem keeps_State_modQueue {msk : Nat} {s₀ s : State} (q : Fin 32) (g : Queue → Queue) (hk : Keeps msk s₀ s)
    (hm : Sub 0x10 msk := by first | assumption | (apply Sub.of; assumption; rfl)) :
    Keeps msk s₀ (State.modQueue s q g) := by
  unfold State.modQueue
  repeat' first
    | (with_reducible assumption) | ((with_reducible refine Sub.of hm ?_); exact rfl)
    | (with_reducible refine Keeps.ite ?_ ?_)
    | (fail_if_no_progress ((with_reducible refine Keeps.upd ?_ ?_ ?_ ?_ ?_ ?_ ?_ ?_ ?_ ?_ ?_ ?_ ?_ ?_ ?_ ?_ ?_ ?_ ?_ ?_ ?_ ?_ ?_ ?_ ?_ ?_ ?_ ?_ ?_ ?_ ?_) <;> first | exact Or.inl (Sub.of hm rfl) | with_reducible exact Or.inr rfl | skip))
    | (fail_if_no_progress extract_lets) | split | (refine Keeps.snd (by assumption) ?_)
    | (refine Keeps.fst (by assumption) ?_) | (refine Keeps.snd2 (by assumption) ?_) | (dsimp only)
    | (dsimp +zetaDelta only)

theorem keeps_State_modLog {msk : Nat} {s₀ s : State} (g : Log → Log) (hk : Keeps msk s₀ s)
    (hm : Sub 0x80 msk := by first | assumption | (apply Sub.of; assumption; rfl)) :
    Keeps msk s₀ (State.modLog s g) := by
  unfold State.modLog
  repeat' first
    | (with_reducible assumption) | ((with_reducible refine Sub.of hm ?_); exact rfl)
    | (with_reducible refine Keeps.ite ?_ ?_)
    | (fail_if_no_progress ((with_reducible refine Keeps.upd ?_ ?_ ?_ ?_ ?_ ?_ ?_ ?_ ?_ ?_ ?_ ?_ ?_ ?_ ?_ ?_ ?_ ?_ ?_ ?_ ?_ ?_ ?_ ?_ ?_ ?_ ?_ ?_ ?_ ?_ ?_) <;> first | exact Or.inl (Sub.of hm rfl) | with_reducible exact Or.inr rfl | skip))
    | (fail_if_no_progress extract_lets) | split | (refine Keeps.snd (by assumption) ?_)
    | (refine Keeps.fst (by assumption) ?_) | (refine Keeps.snd2 (by assumption) ?_) | (dsimp only)
    | (dsimp +zetaDelta only)

theorem keeps_emit {msk : Nat} {s₀ s : State} (o : Output) (hk : Keeps msk s₀ s)
    (hm : Sub 0x200000000 msk := by first | assumption | (apply Sub.of; assumption; rfl)) : Keeps msk s₀ (emit o s) :=
  hk.trans ⟨⟨rfl, Nat.le_refl _, Nat.le_refl _, List.suffix_cons _ _, id, id, rfl, id⟩,
    by constructor <;> first | exact fun hb => Sub.no hb (Sub.of hm rfl) rfl | exact fun _ => rfl | rfl⟩

theorem keeps_draw {msk : Nat} {s₀ s : State} (hk : Keeps msk s₀ s)
    (hm : Sub 0x400000000 msk := by first | assumption | (apply Sub.of; assumption; rfl)) : Keeps msk s₀ (draw s).2 :=
  hk.trans ⟨⟨rfl, Nat.le_refl _, Nat.le_succ _, List.suffix_refl _, id, id, rfl, id⟩,
    by constructor <;> first | exact fun hb => Sub.no hb (Sub.of hm rfl) rfl | exact fun _ => rfl | rfl⟩

theorem keeps_postCount {msk : Nat} {s₀ s : State} (code : Nat) (fn : Nat) (unit : Nat) (count : Word) (hk : Keeps msk s₀ s)
    (hm : Sub 0x80 msk := by first | assumption | (apply Sub.of; assumption; rfl)) :
    Keeps msk s₀ (postCount code fn unit count s) := by
  unfold postCount
  repeat' first
    | (with_reducible assumption) | ((with_reducible refine Sub.of hm ?_); exact rfl)
    | (with_reducible refine Keeps.ite ?_ ?_) | (with_reducible apply keeps_State_modLog)
    | (fail_if_no_progress ((with_reducible refine Keeps.upd ?_ ?_ ?_ ?_ ?_ ?_ ?_ ?_ ?_ ?_ ?_ ?_ ?_ ?_ ?_ ?_ ?_ ?_ ?_ ?_ ?_ ?_ ?_ ?_ ?_ ?_ ?_ ?_ ?_ ?_ ?_) <;> first | exact Or.inl (Sub.of hm rfl) | with_reducible exact Or.inr rfl | skip))
    | (fail_if_no_progress extract_lets) | split | (refine Keeps.snd (by assumption) ?_)
    | (refine Keeps.fst (by assumption) ?_) | (refine Keeps.snd2 (by assumption) ?_) | (dsimp only)
    | (dsimp +zetaDelta only)

theorem keeps_post {msk : Nat} {s₀ s : State} (code : Nat) (fn : Nat) (unit : Nat) (hk : Keeps msk s₀ s)
    (hm : Sub 0x80 msk := by first | assumption | (apply Sub.of; assumption; rfl)) :
    Keeps msk s₀ (post code fn unit s) := by
  unfold post
  repeat' first
    | (with_reducible assumption) | ((with_reducible refine Sub.of hm ?_); exact rfl)
    | (with_reducible refine Keeps.ite ?_ ?_) | (with_reducible apply keeps_postCount)
    | (fail_if_no_progress ((with_reducible refine Keeps.upd ?_ ?_ ?_ ?_ ?_ ?_ ?_ ?_ ?_ ?_ ?_ ?_ ?_ ?_ ?_ ?_ ?_ ?_ ?_ ?_ ?_ ?_ ?_ ?_ ?_ ?_ ?_ ?_ ?_ ?_ ?_) <;> first | exact Or.inl (Sub.of hm rfl) | with_reducible exact Or.inr rfl | skip))
    | (fail_if_no_progress extract_lets) | split | (refine Keeps.snd (by assumption) ?_)
    | (refine Keeps.fst (by assumption) ?_) | (refine Keeps.snd2 (by assumption) ?_) | (dsimp only)
    | (dsimp +zetaDelta only)

theorem keeps_millWrite {msk : Nat} {s₀ s : State} (addr : Nat) (bytes : List Byte) (hk : Keeps msk s₀ s)
    (hm : Sub 0x80000000 msk := by first | assumption | (apply Sub.of; assumption; rfl)) : Keeps msk s₀ (millWrite addr bytes s) :=
  hk.trans ⟨⟨rfl, Nat.le_refl _, Nat.le_refl _, List.suffix_refl _, Memory.writeList_wf _ _, id, rfl, id⟩,
    by constructor <;> first | exact fun hb => Sub.no hb (Sub.of hm rfl) rfl | exact fun _ => rfl | rfl⟩

theorem keeps_hostSend {msk : Nat} {s₀ s : State} (fn : Fn) (addr : Nat) (bytes : List Byte) (data : Bool) (hk : Keeps msk s₀ s)
    (hm : Sub 0x200000000 msk := by first | assumption | (apply Sub.of; assumption; rfl)) :
    Keeps msk s₀ (hostSend fn addr bytes data s) := by
  unfold hostSend
  repeat' first
    | (with_reducible assumption) | ((with_reducible refine Sub.of hm ?_); exact rfl)
    | (with_reducible refine Keeps.ite ?_ ?_) | (with_reducible apply keeps_emit)
    | (fail_if_no_progress ((with_reducible refine Keeps.upd ?_ ?_ ?_ ?_ ?_ ?_ ?_ ?_ ?_ ?_ ?_ ?_ ?_ ?_ ?_ ?_ ?_ ?_ ?_ ?_ ?_ ?_ ?_ ?_ ?_ ?_ ?_ ?_ ?_ ?_ ?_) <;> first | exact Or.inl (Sub.of hm rfl) | with_reducible exact Or.inr rfl | skip))
    | (fail_if_no_progress extract_lets) | split | (refine Keeps.snd (by assumption) ?_)
    | (refine Keeps.fst (by assumption) ?_) | (refine Keeps.snd2 (by assumption) ?_) | (dsimp only)
    | (dsimp +zetaDelta only)

theorem keeps_bufferWrite {msk : Nat} {s₀ s : State} (fn : Fn) (b : Buffer) (off : Nat) (bytes : List Byte) (hk : Keeps msk s₀ s)
    (hm : Sub 0x280000000 msk := by first | assumption | (apply Sub.of; assumption; rfl)) :
    Keeps msk s₀ (bufferWrite fn b off bytes s) := by
  unfold bufferWrite
  repeat' first
    | (with_reducible assumption) | ((with_reducible refine Sub.of hm ?_); exact rfl)
    | (with_reducible refine Keeps.ite ?_ ?_) | (with_reducible apply keeps_millWrite)
    | (with_reducible apply keeps_hostSend)
    | (fail_if_no_progress ((with_reducible refine Keeps.upd ?_ ?_ ?_ ?_ ?_ ?_ ?_ ?_ ?_ ?_ ?_ ?_ ?_ ?_ ?_ ?_ ?_ ?_ ?_ ?_ ?_ ?_ ?_ ?_ ?_ ?_ ?_ ?_ ?_ ?_ ?_) <;> first | exact Or.inl (Sub.of hm rfl) | with_reducible exact Or.inr rfl | skip))
    | (fail_if_no_progress extract_lets) | split | (refine Keeps.snd (by assumption) ?_)
    | (refine Keeps.fst (by assumption) ?_) | (refine Keeps.snd2 (by assumption) ?_) | (dsimp only)
    | (dsimp +zetaDelta only)

theorem keeps_signal {msk : Nat} {s₀ s : State} (fn : Fn) (vector : Nat) (hk : Keeps msk s₀ s)
    (hm : Sub 0x200000002 msk := by first | assumption | (apply Sub.of; assumption; rfl)) :
    Keeps msk s₀ (signal fn vector s) := by
  unfold signal
  repeat' first
    | (with_reducible assumption) | ((with_reducible refine Sub.of hm ?_); exact rfl)
    | (with_reducible refine Keeps.ite ?_ ?_) | (with_reducible apply keeps_State_modFn)
    | (with_reducible apply keeps_emit)
    | (fail_if_no_progress ((with_reducible refine Keeps.upd ?_ ?_ ?_ ?_ ?_ ?_ ?_ ?_ ?_ ?_ ?_ ?_ ?_ ?_ ?_ ?_ ?_ ?_ ?_ ?_ ?_ ?_ ?_ ?_ ?_ ?_ ?_ ?_ ?_ ?_ ?_) <;> first | exact Or.inl (Sub.of hm rfl) | with_reducible exact Or.inr rfl | skip))
    | (intro _ _ _) | (intro _ _) | (fail_if_no_progress extract_lets) | split | (refine Keeps.snd (by assumption) ?_)
    | (refine Keeps.fst (by assumption) ?_) | (refine Keeps.snd2 (by assumption) ?_) | (dsimp only)
    | (dsimp +zetaDelta only)

theorem keeps_signalQueue {msk : Nat} {s₀ s : State} (q : Fin 32) (hk : Keeps msk s₀ s)
    (hm : Sub 0x200000012 msk := by first | assumption | (apply Sub.of; assumption; rfl)) :
    Keeps msk s₀ (signalQueue q s) := by
  unfold signalQueue
  repeat' first
    | (with_reducible assumption) | ((with_reducible refine Sub.of hm ?_); exact rfl)
    | (with_reducible refine Keeps.ite ?_ ?_) | (with_reducible apply keeps_signal)
    | (with_reducible apply keeps_State_modQueue)
    | (fail_if_no_progress ((with_reducible refine Keeps.upd ?_ ?_ ?_ ?_ ?_ ?_ ?_ ?_ ?_ ?_ ?_ ?_ ?_ ?_ ?_ ?_ ?_ ?_ ?_ ?_ ?_ ?_ ?_ ?_ ?_ ?_ ?_ ?_ ?_ ?_ ?_) <;> first | exact Or.inl (Sub.of hm rfl) | with_reducible exact Or.inr rfl | skip))
    | (fail_if_no_progress extract_lets) | split | (refine Keeps.snd (by assumption) ?_)
    | (refine Keeps.fst (by assumption) ?_) | (refine Keeps.snd2 (by assumption) ?_) | (dsimp only)
    | (dsimp +zetaDelta only)

theorem keeps_putEntry {msk : Nat} {s₀ s : State} (q : Fin 32) (e : TqEntry) (hk : Keeps msk s₀ s)
    (hm : Sub 0x280000092 msk := by first | assumption | (apply Sub.of; assumption; rfl)) :
    Keeps msk s₀ (putEntry q e s) := by
  unfold putEntry
  repeat' first
    | (with_reducible assumption) | ((with_reducible refine Sub.of hm ?_); exact rfl)
    | (with_reducible refine Keeps.ite ?_ ?_) | (with_reducible apply keeps_State_modQueue)
    | (with_reducible apply keeps_post) | (with_reducible apply keeps_millWrite)
    | (with_reducible apply keeps_hostSend) | (with_reducible apply keeps_signalQueue)
    | (fail_if_no_progress ((with_reducible refine Keeps.upd ?_ ?_ ?_ ?_ ?_ ?_ ?_ ?_ ?_ ?_ ?_ ?_ ?_ ?_ ?_ ?_ ?_ ?_ ?_ ?_ ?_ ?_ ?_ ?_ ?_ ?_ ?_ ?_ ?_ ?_ ?_) <;> first | exact Or.inl (Sub.of hm rfl) | with_reducible exact Or.inr rfl | skip))
    | (fail_if_no_progress extract_lets) | split | (refine Keeps.snd (by assumption) ?_)
    | (refine Keeps.fst (by assumption) ?_) | (refine Keeps.snd2 (by assumption) ?_) | (dsimp only)
    | (dsimp +zetaDelta only)

theorem keeps_flushJobs {msk : Nat} {s₀ s : State} (q : Fin 32) (l : List QJob) (hk : Keeps msk s₀ s)
    (hm : Sub 0x280000092 msk := by first | assumption | (apply Sub.of; assumption; rfl)) : Keeps msk s₀ (flushJobs q l s) := by
  induction l generalizing s with
  | nil => exact keeps_State_modQueue _ _ hk
  | cons j rest ih =>
    unfold flushJobs
    split
    · exact ih (keeps_putEntry _ _ hk)
    · exact keeps_State_modQueue _ _ hk

theorem keeps_submitJob {msk : Nat} {s₀ s : State} (q : Fin 32) (kind : Nat) (index : Nat) (job : Word) (hk : Keeps msk s₀ s)
    (hm : Sub 0x10 msk := by first | assumption | (apply Sub.of; assumption; rfl)) :
    Keeps msk s₀ (submitJob q kind index job s) := by
  unfold submitJob
  repeat' first
    | (with_reducible assumption) | ((with_reducible refine Sub.of hm ?_); exact rfl)
    | (with_reducible refine Keeps.ite ?_ ?_) | (with_reducible apply keeps_State_modQueue)
    | (fail_if_no_progress ((with_reducible refine Keeps.upd ?_ ?_ ?_ ?_ ?_ ?_ ?_ ?_ ?_ ?_ ?_ ?_ ?_ ?_ ?_ ?_ ?_ ?_ ?_ ?_ ?_ ?_ ?_ ?_ ?_ ?_ ?_ ?_ ?_ ?_ ?_) <;> first | exact Or.inl (Sub.of hm rfl) | with_reducible exact Or.inr rfl | skip))
    | (fail_if_no_progress extract_lets) | split | (refine Keeps.snd (by assumption) ?_)
    | (refine Keeps.fst (by assumption) ?_) | (refine Keeps.snd2 (by assumption) ?_) | (dsimp only)
    | (dsimp +zetaDelta only)

theorem keeps_finishJob {msk : Nat} {s₀ s : State} (q : Fin 32) (e : TqEntry) (hk : Keeps msk s₀ s)
    (hm : Sub 0x280000092 msk := by first | assumption | (apply Sub.of; assumption; rfl)) :
    Keeps msk s₀ (finishJob q e s) := by
  unfold finishJob
  repeat' first
    | (with_reducible assumption) | ((with_reducible refine Sub.of hm ?_); exact rfl)
    | (with_reducible refine Keeps.ite ?_ ?_) | (with_reducible apply keeps_putEntry)
    | (with_reducible apply keeps_State_modQueue) | (with_reducible apply keeps_flushJobs)
    | (fail_if_no_progress ((with_reducible refine Keeps.upd ?_ ?_ ?_ ?_ ?_ ?_ ?_ ?_ ?_ ?_ ?_ ?_ ?_ ?_ ?_ ?_ ?_ ?_ ?_ ?_ ?_ ?_ ?_ ?_ ?_ ?_ ?_ ?_ ?_ ?_ ?_) <;> first | exact Or.inl (Sub.of hm rfl) | with_reducible exact Or.inr rfl | skip))
    | (fail_if_no_progress extract_lets) | split | (refine Keeps.snd (by assumption) ?_)
    | (refine Keeps.fst (by assumption) ?_) | (refine Keeps.snd2 (by assumption) ?_) | (dsimp only)
    | (dsimp +zetaDelta only)

theorem keeps_discardJob {msk : Nat} {s₀ s : State} (q : Fin 32) (kind : Nat) (index : Nat) (job : Word) (hk : Keeps msk s₀ s)
    (hm : Sub 0x280000092 msk := by first | assumption | (apply Sub.of; assumption; rfl)) :
    Keeps msk s₀ (discardJob q kind index job s) := by
  unfold discardJob
  repeat' first
    | (with_reducible assumption) | ((with_reducible refine Sub.of hm ?_); exact rfl)
    | (with_reducible refine Keeps.ite ?_ ?_) | (with_reducible apply keeps_flushJobs)
    | (fail_if_no_progress ((with_reducible refine Keeps.upd ?_ ?_ ?_ ?_ ?_ ?_ ?_ ?_ ?_ ?_ ?_ ?_ ?_ ?_ ?_ ?_ ?_ ?_ ?_ ?_ ?_ ?_ ?_ ?_ ?_ ?_ ?_ ?_ ?_ ?_ ?_) <;> first | exact Or.inl (Sub.of hm rfl) | with_reducible exact Or.inr rfl | skip))
    | (fail_if_no_progress extract_lets) | split | (refine Keeps.snd (by assumption) ?_)
    | (refine Keeps.fst (by assumption) ?_) | (refine Keeps.snd2 (by assumption) ?_) | (dsimp only)
    | (dsimp +zetaDelta only)

theorem keeps_noteQuiet {msk : Nat} {s₀ s : State} (fn : Fn) (code : Nat) (job : Word) (count : Word) (hk : Keeps msk s₀ s)
    (hm : Sub 0x2 msk := by first | assumption | (apply Sub.of; assumption; rfl)) :
    Keeps msk s₀ (noteQuiet fn code job count s) := by
  unfold noteQuiet
  repeat' first
    | (with_reducible assumption) | ((with_reducible refine Sub.of hm ?_); exact rfl)
    | (with_reducible refine Keeps.ite ?_ ?_) | (with_reducible apply keeps_State_modFn)
    | (fail_if_no_progress ((with_reducible refine Keeps.upd ?_ ?_ ?_ ?_ ?_ ?_ ?_ ?_ ?_ ?_ ?_ ?_ ?_ ?_ ?_ ?_ ?_ ?_ ?_ ?_ ?_ ?_ ?_ ?_ ?_ ?_ ?_ ?_ ?_ ?_ ?_) <;> first | exact Or.inl (Sub.of hm rfl) | with_reducible exact Or.inr rfl | skip))
    | (intro _ _ _) | (intro _ _) | (fail_if_no_progress extract_lets) | split | (refine Keeps.snd (by assumption) ?_)
    | (refine Keeps.fst (by assumption) ?_) | (refine Keeps.snd2 (by assumption) ?_) | (dsimp only)
    | (dsimp +zetaDelta only)

theorem keeps_notice {msk : Nat} {s₀ s : State} (fn : Fn) (code : Nat) (job : Word) (status : Nat) (count : Word) (hk : Keeps msk s₀ s)
    (hm : Sub 0x280000092 msk := by first | assumption | (apply Sub.of; assumption; rfl)) :
    Keeps msk s₀ (notice fn code job status count s) := by
  unfold notice
  repeat' first
    | (with_reducible assumption) | ((with_reducible refine Sub.of hm ?_); exact rfl)
    | (with_reducible refine Keeps.ite ?_ ?_) | (with_reducible apply keeps_noteQuiet)
    | (with_reducible apply keeps_putEntry) | (with_reducible apply keeps_State_modFn)
    | (fail_if_no_progress ((with_reducible refine Keeps.upd ?_ ?_ ?_ ?_ ?_ ?_ ?_ ?_ ?_ ?_ ?_ ?_ ?_ ?_ ?_ ?_ ?_ ?_ ?_ ?_ ?_ ?_ ?_ ?_ ?_ ?_ ?_ ?_ ?_ ?_ ?_) <;> first | exact Or.inl (Sub.of hm rfl) | with_reducible exact Or.inr rfl | skip))
    | (intro _ _ _) | (intro _ _) | (fail_if_no_progress extract_lets) | split | (refine Keeps.snd (by assumption) ?_)
    | (refine Keeps.fst (by assumption) ?_) | (refine Keeps.snd2 (by assumption) ?_) | (dsimp only)
    | (dsimp +zetaDelta only)

theorem keeps_noticeAll {msk : Nat} {s₀ s : State} (code : Nat) (job : Word) (status : Nat) (count : Word) (hk : Keeps msk s₀ s)
    (hm : Sub 0x280000092 msk := by first | assumption | (apply Sub.of; assumption; rfl)) :
    Keeps msk s₀ (noticeAll code job status count s) := by
  unfold noticeAll
  repeat' first
    | (with_reducible assumption) | ((with_reducible refine Sub.of hm ?_); exact rfl)
    | (with_reducible refine Keeps.ite ?_ ?_) | (with_reducible apply keeps_notice)
    | (with_reducible refine Keeps.foldl (fun _ _ _ => ?_) ?_)
    | (with_reducible refine Keeps.foldl2 (fun _ _ _ => ?_) ?_)
    | (with_reducible refine Keeps.foldl1 (fun _ _ _ => ?_) ?_)
    | (fail_if_no_progress ((with_reducible refine Keeps.upd ?_ ?_ ?_ ?_ ?_ ?_ ?_ ?_ ?_ ?_ ?_ ?_ ?_ ?_ ?_ ?_ ?_ ?_ ?_ ?_ ?_ ?_ ?_ ?_ ?_ ?_ ?_ ?_ ?_ ?_ ?_) <;> first | exact Or.inl (Sub.of hm rfl) | with_reducible exact Or.inr rfl | skip))
    | (fail_if_no_progress extract_lets) | split | (refine Keeps.snd (by assumption) ?_)
    | (refine Keeps.fst (by assumption) ?_) | (refine Keeps.snd2 (by assumption) ?_) | (dsimp only)
    | (dsimp +zetaDelta only)

theorem keeps_hamperDone {msk : Nat} {s₀ s : State} (op : Nat) (index : Nat) (status : Nat) (count : Word) (hk : Keeps msk s₀ s)
    (hm : Sub 0x2800000B2 msk := by first | assumption | (apply Sub.of; assumption; rfl)) :
    Keeps msk s₀ (hamperDone op index status count s) := by
  unfold hamperDone
  repeat' first
    | (with_reducible assumption) | ((with_reducible refine Sub.of hm ?_); exact rfl)
    | (with_reducible refine Keeps.ite ?_ ?_) | (with_reducible apply keeps_notice)
    | (fail_if_no_progress ((with_reducible refine Keeps.upd ?_ ?_ ?_ ?_ ?_ ?_ ?_ ?_ ?_ ?_ ?_ ?_ ?_ ?_ ?_ ?_ ?_ ?_ ?_ ?_ ?_ ?_ ?_ ?_ ?_ ?_ ?_ ?_ ?_ ?_ ?_) <;> first | exact Or.inl (Sub.of hm rfl) | with_reducible exact Or.inr rfl | skip))
    | (fail_if_no_progress extract_lets) | split | (refine Keeps.snd (by assumption) ?_)
    | (refine Keeps.fst (by assumption) ?_) | (refine Keeps.snd2 (by assumption) ?_) | (dsimp only)
    | (dsimp +zetaDelta only)

theorem keeps_accept {msk : Nat} {s₀ s : State} (h : Hamper) (index : Nat) (hk : Keeps msk s₀ s)
    (hm : Sub 0x20 msk := by first | assumption | (apply Sub.of; assumption; rfl)) :
    Keeps msk s₀ (accept h index s) := by
  unfold accept
  repeat' first
    | (with_reducible assumption) | ((with_reducible refine Sub.of hm ?_); exact rfl)
    | (with_reducible refine Keeps.ite ?_ ?_)
    | (fail_if_no_progress ((with_reducible refine Keeps.upd ?_ ?_ ?_ ?_ ?_ ?_ ?_ ?_ ?_ ?_ ?_ ?_ ?_ ?_ ?_ ?_ ?_ ?_ ?_ ?_ ?_ ?_ ?_ ?_ ?_ ?_ ?_ ?_ ?_ ?_ ?_) <;> first | exact Or.inl (Sub.of hm rfl) | with_reducible exact Or.inr rfl | skip))
    | (fail_if_no_progress extract_lets) | split | (refine Keeps.snd (by assumption) ?_)
    | (refine Keeps.fst (by assumption) ?_) | (refine Keeps.snd2 (by assumption) ?_) | (dsimp only)
    | (dsimp +zetaDelta only)

theorem keeps_taken {msk : Nat} {s₀ s : State} (fn : Fn) (porch : Bool) (hk : Keeps msk s₀ s)
    (hm : Sub 0x6 msk := by first | assumption | (apply Sub.of; assumption; rfl)) :
    Keeps msk s₀ (taken fn porch s) := by
  unfold taken
  repeat' first
    | (with_reducible assumption) | ((with_reducible refine Sub.of hm ?_); exact rfl)
    | (with_reducible refine Keeps.ite ?_ ?_) | (with_reducible apply keeps_State_modFn)
    | (fail_if_no_progress ((with_reducible refine Keeps.upd ?_ ?_ ?_ ?_ ?_ ?_ ?_ ?_ ?_ ?_ ?_ ?_ ?_ ?_ ?_ ?_ ?_ ?_ ?_ ?_ ?_ ?_ ?_ ?_ ?_ ?_ ?_ ?_ ?_ ?_ ?_) <;> first | exact Or.inl (Sub.of hm rfl) | with_reducible exact Or.inr rfl | skip))
    | (intro _ _ _) | (intro _ _) | (fail_if_no_progress extract_lets) | split | (refine Keeps.snd (by assumption) ?_)
    | (refine Keeps.fst (by assumption) ?_) | (refine Keeps.snd2 (by assumption) ?_) | (dsimp only)
    | (dsimp +zetaDelta only)

theorem keeps_reply {msk : Nat} {s₀ s : State} (h : Hamper) (status : Nat) (retry : Nat) (payload : List Byte) (hk : Keeps msk s₀ s)
    (hm : Sub 0x200000002 msk := by first | assumption | (apply Sub.of; assumption; rfl)) :
    Keeps msk s₀ (reply h status retry payload s) := by
  unfold reply
  repeat' first
    | (with_reducible assumption) | ((with_reducible refine Sub.of hm ?_); exact rfl)
    | (with_reducible refine Keeps.ite ?_ ?_) | (with_reducible apply keeps_State_modFn)
    | (with_reducible apply keeps_hostSend) | (with_reducible apply keeps_signal)
    | (fail_if_no_progress ((with_reducible refine Keeps.upd ?_ ?_ ?_ ?_ ?_ ?_ ?_ ?_ ?_ ?_ ?_ ?_ ?_ ?_ ?_ ?_ ?_ ?_ ?_ ?_ ?_ ?_ ?_ ?_ ?_ ?_ ?_ ?_ ?_ ?_ ?_) <;> first | exact Or.inl (Sub.of hm rfl) | with_reducible exact Or.inr rfl | skip))
    | (intro _ _ _) | (intro _ _) | (fail_if_no_progress extract_lets) | split | (refine Keeps.snd (by assumption) ?_)
    | (refine Keeps.fst (by assumption) ?_) | (refine Keeps.snd2 (by assumption) ?_) | (dsimp only)
    | (dsimp +zetaDelta only)

theorem keeps_judge {msk : Nat} {s₀ s : State} (h : Hamper) (minor : Nat) (pf0 : Bool) (body : State → Hamper → Verdict)
    (hb : KeepsV msk s₀ (body s h))
    (hm : Sub 0x0 msk := by first | assumption | (apply Sub.of; assumption; rfl)) : KeepsV msk s₀ (judge s h minor pf0 body) := by
  unfold judge badArg notOwner
  repeat' first
    | (with_reducible assumption) | (with_reducible exact KeepsV.refuse) | (with_reducible refine KeepsV.ite ?_ ?_)

theorem keeps_logHeader {msk : Nat} {s₀ s : State} (h : Hamper) (hk : Keeps msk s₀ s)
    (hm : Sub 0x80 msk := by first | assumption | (apply Sub.of; assumption; rfl)) :
    Keeps msk s₀ (logHeader h s) := by
  unfold logHeader
  repeat' first
    | (with_reducible assumption) | ((with_reducible refine Sub.of hm ?_); exact rfl)
    | (with_reducible refine Keeps.ite ?_ ?_) | (with_reducible apply keeps_post)
    | (fail_if_no_progress ((with_reducible refine Keeps.upd ?_ ?_ ?_ ?_ ?_ ?_ ?_ ?_ ?_ ?_ ?_ ?_ ?_ ?_ ?_ ?_ ?_ ?_ ?_ ?_ ?_ ?_ ?_ ?_ ?_ ?_ ?_ ?_ ?_ ?_ ?_) <;> first | exact Or.inl (Sub.of hm rfl) | with_reducible exact Or.inr rfl | skip))
    | (fail_if_no_progress extract_lets) | split | (refine Keeps.snd (by assumption) ?_)
    | (refine Keeps.fst (by assumption) ?_) | (refine Keeps.snd2 (by assumption) ?_) | (dsimp only)
    | (dsimp +zetaDelta only)

theorem keeps_answer {msk : Nat} {s₀ s : State} (h : Hamper) {v : Verdict} (hk : Keeps msk s₀ s) (hv : KeepsV msk s₀ v)
    (hm : Sub 0x2000000C6 msk := by first | assumption | (apply Sub.of; assumption; rfl)) : Keeps msk s₀ (answer h v s) := by
  unfold answer
  cases v with
  | ok t p => exact keeps_reply _ _ _ _ (keeps_taken _ _ hv)
  | accepted t p => exact keeps_reply _ _ _ _ (keeps_taken _ _ hv)
  | later t i =>
    have hv' : Keeps msk s₀ (taken h.fn h.porch t) := keeps_taken _ _ hv
    refine Keeps.upd hv' ?_ ?_ ?_ ?_ ?_ ?_ ?_ ?_ ?_ ?_ ?_ ?_ ?_ ?_ ?_ ?_ ?_ ?_ ?_ ?_ ?_ ?_ ?_ ?_ ?_ ?_ ?_ ?_ ?_ ?_ <;> first
      | with_reducible exact Or.inr rfl | exact Or.inl (Sub.of hm rfl)
  | refuse st p => exact keeps_reply _ _ _ _ (keeps_taken _ _ (keeps_logHeader _ hk))

theorem keeps_replyOwed {msk : Nat} {s₀ s : State} (o : Owed) (status : Nat) (payload : List Byte) (hk : Keeps msk s₀ s)
    (hm : Sub 0x200000042 msk := by first | assumption | (apply Sub.of; assumption; rfl)) :
    Keeps msk s₀ (replyOwed o status payload s) := by
  unfold replyOwed
  repeat' first
    | (with_reducible assumption) | ((with_reducible refine Sub.of hm ?_); exact rfl)
    | (with_reducible refine Keeps.ite ?_ ?_) | (with_reducible apply keeps_reply)
    | (fail_if_no_progress ((with_reducible refine Keeps.upd ?_ ?_ ?_ ?_ ?_ ?_ ?_ ?_ ?_ ?_ ?_ ?_ ?_ ?_ ?_ ?_ ?_ ?_ ?_ ?_ ?_ ?_ ?_ ?_ ?_ ?_ ?_ ?_ ?_ ?_ ?_) <;> first | exact Or.inl (Sub.of hm rfl) | with_reducible exact Or.inr rfl | skip))
    | (fail_if_no_progress extract_lets) | split | (refine Keeps.snd (by assumption) ?_)
    | (refine Keeps.fst (by assumption) ?_) | (refine Keeps.snd2 (by assumption) ?_) | (dsimp only)
    | (dsimp +zetaDelta only)

theorem keeps_serve {msk : Nat} {s₀ s : State} (r : Req) (op minor : Nat) (pf0 : Bool) (body : State → Hamper → Verdict)
    (hb : ∀ t h, Keeps msk s₀ t → KeepsV msk s₀ (body t h)) (hk : Keeps msk s₀ s)
    (hm : Sub 0x2000000C6 msk := by first | assumption | (apply Sub.of; assumption; rfl)) :
    Keeps msk s₀ (serve r op minor pf0 body s) := by
  unfold serve
  split
  · exact hk
  · exact Keeps.ite (keeps_answer _ hk (keeps_judge _ _ _ _ (hb _ _ hk))) hk

end Sys2Proof.Machine
end

