-- ==== Sys2Proof/Laws/KeepsLogOps.lean ====
section
/-! SUPPORT. `Keeps` of the operations and meanings of Machine/LogOps.lean. -/

set_option Elab.async false

set_option linter.unusedTactic false
set_option linter.unreachableTactic false

namespace Sys2Proof.Machine

theorem keeps_raiseFault {msk : Nat} {s₀ s : State} (e : Event) (sequence : Word) (hk : Keeps msk s₀ s)
    (hm : Sub 0x680000092 msk := by first | assumption | (apply Sub.of; assumption; rfl)) :
    Keeps msk s₀ (raiseFault e sequence s) := by
  unfold raiseFault
  repeat' first
    | (with_reducible assumption) | ((with_reducible refine Sub.of hm ?_); exact rfl)
    | (with_reducible refine Keeps.ite ?_ ?_) | (with_reducible apply keeps_State_modLog)
    | (with_reducible apply keeps_draw) | (with_reducible apply keeps_notice)
    | (fail_if_no_progress ((with_reducible refine Keeps.upd ?_ ?_ ?_ ?_ ?_ ?_ ?_ ?_ ?_ ?_ ?_ ?_ ?_ ?_ ?_ ?_ ?_ ?_ ?_ ?_ ?_ ?_ ?_ ?_ ?_ ?_ ?_ ?_ ?_ ?_ ?_) <;> first | exact Or.inl (Sub.of hm rfl) | with_reducible exact Or.inr rfl | skip))
    | (fail_if_no_progress extract_lets) | split | (refine Keeps.snd (by assumption) ?_)
    | (refine Keeps.fst (by assumption) ?_) | (refine Keeps.snd2 (by assumption) ?_) | (dsimp only)
    | (dsimp +zetaDelta only)

theorem keeps_newEntry {msk : Nat} {s₀ s : State} (e : Event) (hk : Keeps msk s₀ s)
    (hm : Sub 0x680000092 msk := by first | assumption | (apply Sub.of; assumption; rfl)) :
    Keeps msk s₀ (newEntry e s) := by
  unfold newEntry
  repeat' first
    | (with_reducible assumption) | ((with_reducible refine Sub.of hm ?_); exact rfl)
    | (with_reducible refine Keeps.ite ?_ ?_) | (with_reducible apply keeps_State_modLog)
    | (with_reducible apply keeps_postCount) | (with_reducible apply keeps_raiseFault)
    | (fail_if_no_progress ((with_reducible refine Keeps.upd ?_ ?_ ?_ ?_ ?_ ?_ ?_ ?_ ?_ ?_ ?_ ?_ ?_ ?_ ?_ ?_ ?_ ?_ ?_ ?_ ?_ ?_ ?_ ?_ ?_ ?_ ?_ ?_ ?_ ?_ ?_) <;> first | exact Or.inl (Sub.of hm rfl) | with_reducible exact Or.inr rfl | skip))
    | (fail_if_no_progress extract_lets) | split | (refine Keeps.snd (by assumption) ?_)
    | (refine Keeps.fst (by assumption) ?_) | (refine Keeps.snd2 (by assumption) ?_) | (dsimp only)
    | (dsimp +zetaDelta only)

theorem keeps_record1 {msk : Nat} {s₀ s : State} (e : Event) (hk : Keeps msk s₀ s)
    (hm : Sub 0x680000092 msk := by first | assumption | (apply Sub.of; assumption; rfl)) :
    Keeps msk s₀ (record1 e s) := by
  unfold record1
  repeat' first
    | (with_reducible assumption) | ((with_reducible refine Sub.of hm ?_); exact rfl)
    | (with_reducible refine Keeps.ite ?_ ?_) | (with_reducible apply keeps_State_modLog)
    | (with_reducible apply keeps_newEntry)
    | (fail_if_no_progress ((with_reducible refine Keeps.upd ?_ ?_ ?_ ?_ ?_ ?_ ?_ ?_ ?_ ?_ ?_ ?_ ?_ ?_ ?_ ?_ ?_ ?_ ?_ ?_ ?_ ?_ ?_ ?_ ?_ ?_ ?_ ?_ ?_ ?_ ?_) <;> first | exact Or.inl (Sub.of hm rfl) | with_reducible exact Or.inr rfl | skip))
    | (fail_if_no_progress extract_lets) | split | (refine Keeps.snd (by assumption) ?_)
    | (refine Keeps.fst (by assumption) ?_) | (refine Keeps.snd2 (by assumption) ?_) | (dsimp only)
    | (dsimp +zetaDelta only)

theorem keeps_drainOne {msk : Nat} {s₀ s : State} (hk : Keeps msk s₀ s)
    (hm : Sub 0x680000092 msk := by first | assumption | (apply Sub.of; assumption; rfl)) :
    Keeps msk s₀ (drainOne s) := by
  unfold drainOne
  repeat' first
    | (with_reducible assumption) | ((with_reducible refine Sub.of hm ?_); exact rfl)
    | (with_reducible refine Keeps.ite ?_ ?_) | (with_reducible apply keeps_record1)
    | (with_reducible apply keeps_State_modLog)
    | (fail_if_no_progress ((with_reducible refine Keeps.upd ?_ ?_ ?_ ?_ ?_ ?_ ?_ ?_ ?_ ?_ ?_ ?_ ?_ ?_ ?_ ?_ ?_ ?_ ?_ ?_ ?_ ?_ ?_ ?_ ?_ ?_ ?_ ?_ ?_ ?_ ?_) <;> first | exact Or.inl (Sub.of hm rfl) | with_reducible exact Or.inr rfl | skip))
    | (fail_if_no_progress extract_lets) | split | (refine Keeps.snd (by assumption) ?_)
    | (refine Keeps.fst (by assumption) ?_) | (refine Keeps.snd2 (by assumption) ?_) | (dsimp only)
    | (dsimp +zetaDelta only)

theorem keeps_drainAll {msk : Nat} {s₀ s : State} (n : Nat) (hk : Keeps msk s₀ s)
    (hm : Sub 0x680000092 msk := by first | assumption | (apply Sub.of; assumption; rfl)) : Keeps msk s₀ (drainAll n s) := by
  induction n generalizing s with
  | zero => exact hk
  | succ n ih => exact ih (keeps_drainOne hk)

theorem keeps_recordAll {msk : Nat} {s₀ s : State} (n : Nat) (hk : Keeps msk s₀ s)
    (hm : Sub 0x680000092 msk := by first | assumption | (apply Sub.of; assumption; rfl)) : Keeps msk s₀ (recordAll n s) := by
  induction n generalizing s with
  | zero => exact hk
  | succ n ih =>
    unfold recordAll
    split
    · exact hk
    · exact ih (keeps_record1 _ (keeps_State_modLog _ hk))

theorem keeps_mirrorEnd {msk : Nat} {s₀ s : State} (hk : Keeps msk s₀ s)
    (hm : Sub 0x980 msk := by first | assumption | (apply Sub.of; assumption; rfl)) :
    Keeps msk s₀ (mirrorEnd s) := by
  unfold mirrorEnd
  repeat' first
    | (with_reducible assumption) | ((with_reducible refine Sub.of hm ?_); exact rfl)
    | (with_reducible refine Keeps.ite ?_ ?_)
    | (fail_if_no_progress ((with_reducible refine Keeps.upd ?_ ?_ ?_ ?_ ?_ ?_ ?_ ?_ ?_ ?_ ?_ ?_ ?_ ?_ ?_ ?_ ?_ ?_ ?_ ?_ ?_ ?_ ?_ ?_ ?_ ?_ ?_ ?_ ?_ ?_ ?_) <;> first | exact Or.inl (Sub.of hm rfl) | with_reducible exact Or.inr rfl | skip))
    | (fail_if_no_progress extract_lets) | split | (refine Keeps.snd (by assumption) ?_)
    | (refine Keeps.fst (by assumption) ?_) | (refine Keeps.snd2 (by assumption) ?_) | (dsimp only)
    | (dsimp +zetaDelta only)

theorem keeps_mirrorBegin {msk : Nat} {s₀ s : State} (reason : Nat) (hk : Keeps msk s₀ s)
    (hm : Sub 0xB80 msk := by first | assumption | (apply Sub.of; assumption; rfl)) :
    Keeps msk s₀ (mirrorBegin reason s) := by
  unfold mirrorBegin
  repeat' first
    | (with_reducible assumption) | ((with_reducible refine Sub.of hm ?_); exact rfl)
    | (with_reducible refine Keeps.ite ?_ ?_) | (with_reducible apply keeps_mirrorEnd)
    | (fail_if_no_progress ((with_reducible refine Keeps.upd ?_ ?_ ?_ ?_ ?_ ?_ ?_ ?_ ?_ ?_ ?_ ?_ ?_ ?_ ?_ ?_ ?_ ?_ ?_ ?_ ?_ ?_ ?_ ?_ ?_ ?_ ?_ ?_ ?_ ?_ ?_) <;> first | exact Or.inl (Sub.of hm rfl) | with_reducible exact Or.inr rfl | skip))
    | (fail_if_no_progress extract_lets) | split | (refine Keeps.snd (by assumption) ?_)
    | (refine Keeps.fst (by assumption) ?_) | (refine Keeps.snd2 (by assumption) ?_) | (dsimp only)
    | (dsimp +zetaDelta only)

theorem keeps_restoreLog {msk : Nat} {s₀ s : State} (kept : Bool) (hk : Keeps msk s₀ s)
    (hm : Sub 0x80 msk := by first | assumption | (apply Sub.of; assumption; rfl)) :
    Keeps msk s₀ (restoreLog kept s) := by
  unfold restoreLog
  repeat' first
    | (with_reducible assumption) | ((with_reducible refine Sub.of hm ?_); exact rfl)
    | (with_reducible refine Keeps.ite ?_ ?_) | (with_reducible apply keeps_State_modLog)
    | (fail_if_no_progress ((with_reducible refine Keeps.upd ?_ ?_ ?_ ?_ ?_ ?_ ?_ ?_ ?_ ?_ ?_ ?_ ?_ ?_ ?_ ?_ ?_ ?_ ?_ ?_ ?_ ?_ ?_ ?_ ?_ ?_ ?_ ?_ ?_ ?_ ?_) <;> first | exact Or.inl (Sub.of hm rfl) | with_reducible exact Or.inr rfl | skip))
    | (fail_if_no_progress extract_lets) | split | (refine Keeps.snd (by assumption) ?_)
    | (refine Keeps.fst (by assumption) ?_) | (refine Keeps.snd2 (by assumption) ?_) | (dsimp only)
    | (dsimp +zetaDelta only)

end Sys2Proof.Machine
end

