-- ==== Sys2Proof/Laws/KeepsAccess.lean ====
section
/-! SUPPORT. `Keeps` of the operations and meanings of Machine/Access.lean. -/

set_option Elab.async false

set_option linter.unusedTactic false
set_option linter.unreachableTactic false

namespace Sys2Proof.Machine

theorem keeps_flagAccess {msk : Nat} {s₀ s : State} (fn : Fn) (off : Nat) (g : FnState → FnState) (hk : Keeps msk s₀ s)
    (hm : Sub 0x2 msk := by first | assumption | (apply Sub.of; assumption; rfl)) :
    Keeps msk s₀ (flagAccess fn off g s) := by
  unfold flagAccess
  repeat' first
    | (with_reducible assumption) | ((with_reducible refine Sub.of hm ?_); exact rfl)
    | (with_reducible refine Keeps.ite ?_ ?_) | (with_reducible apply keeps_State_modFn)
    | (fail_if_no_progress ((with_reducible refine Keeps.upd ?_ ?_ ?_ ?_ ?_ ?_ ?_ ?_ ?_ ?_ ?_ ?_ ?_ ?_ ?_ ?_ ?_ ?_ ?_ ?_ ?_ ?_ ?_ ?_ ?_ ?_ ?_ ?_ ?_ ?_ ?_) <;> first | exact Or.inl (Sub.of hm rfl) | with_reducible exact Or.inr rfl | skip))
    | (intro _ _ _) | (intro _ _) | (fail_if_no_progress extract_lets) | split | (refine Keeps.snd (by assumption) ?_)
    | (refine Keeps.fst (by assumption) ?_) | (refine Keeps.snd2 (by assumption) ?_) | (dsimp only)
    | (dsimp +zetaDelta only)

theorem keeps_flagUnowned {msk : Nat} {s₀ s : State} (fn : Fn) (off : Nat) (index : Nat) (hk : Keeps msk s₀ s)
    (hm : Sub 0x82 msk := by first | assumption | (apply Sub.of; assumption; rfl)) :
    Keeps msk s₀ (flagUnowned fn off index s) := by
  unfold flagUnowned
  repeat' first
    | (with_reducible assumption) | ((with_reducible refine Sub.of hm ?_); exact rfl)
    | (with_reducible refine Keeps.ite ?_ ?_) | (with_reducible apply keeps_post)
    | (with_reducible apply keeps_flagAccess)
    | (fail_if_no_progress ((with_reducible refine Keeps.upd ?_ ?_ ?_ ?_ ?_ ?_ ?_ ?_ ?_ ?_ ?_ ?_ ?_ ?_ ?_ ?_ ?_ ?_ ?_ ?_ ?_ ?_ ?_ ?_ ?_ ?_ ?_ ?_ ?_ ?_ ?_) <;> first | exact Or.inl (Sub.of hm rfl) | with_reducible exact Or.inr rfl | skip))
    | (intro _ _ _) | (intro _ _) | (fail_if_no_progress extract_lets) | split | (refine Keeps.snd (by assumption) ?_)
    | (refine Keeps.fst (by assumption) ?_) | (refine Keeps.snd2 (by assumption) ?_) | (dsimp only)
    | (dsimp +zetaDelta only)

theorem keeps_flagUnimplemented {msk : Nat} {s₀ s : State} (fn : Fn) (off : Nat) (hk : Keeps msk s₀ s)
    (hm : Sub 0x82 msk := by first | assumption | (apply Sub.of; assumption; rfl)) :
    Keeps msk s₀ (flagUnimplemented fn off s) := by
  unfold flagUnimplemented
  repeat' first
    | (with_reducible assumption) | ((with_reducible refine Sub.of hm ?_); exact rfl)
    | (with_reducible refine Keeps.ite ?_ ?_) | (with_reducible apply keeps_post)
    | (with_reducible apply keeps_flagAccess)
    | (fail_if_no_progress ((with_reducible refine Keeps.upd ?_ ?_ ?_ ?_ ?_ ?_ ?_ ?_ ?_ ?_ ?_ ?_ ?_ ?_ ?_ ?_ ?_ ?_ ?_ ?_ ?_ ?_ ?_ ?_ ?_ ?_ ?_ ?_ ?_ ?_ ?_) <;> first | exact Or.inl (Sub.of hm rfl) | with_reducible exact Or.inr rfl | skip))
    | (intro _ _ _) | (intro _ _) | (fail_if_no_progress extract_lets) | split | (refine Keeps.snd (by assumption) ?_)
    | (refine Keeps.fst (by assumption) ?_) | (refine Keeps.snd2 (by assumption) ?_) | (dsimp only)
    | (dsimp +zetaDelta only)

theorem keeps_flagLocked {msk : Nat} {s₀ s : State} (fn : Fn) (off : Nat) (hk : Keeps msk s₀ s)
    (hm : Sub 0x82 msk := by first | assumption | (apply Sub.of; assumption; rfl)) :
    Keeps msk s₀ (flagLocked fn off s) := by
  unfold flagLocked
  repeat' first
    | (with_reducible assumption) | ((with_reducible refine Sub.of hm ?_); exact rfl)
    | (with_reducible refine Keeps.ite ?_ ?_) | (with_reducible apply keeps_post)
    | (with_reducible apply keeps_flagAccess)
    | (fail_if_no_progress ((with_reducible refine Keeps.upd ?_ ?_ ?_ ?_ ?_ ?_ ?_ ?_ ?_ ?_ ?_ ?_ ?_ ?_ ?_ ?_ ?_ ?_ ?_ ?_ ?_ ?_ ?_ ?_ ?_ ?_ ?_ ?_ ?_ ?_ ?_) <;> first | exact Or.inl (Sub.of hm rfl) | with_reducible exact Or.inr rfl | skip))
    | (intro _ _ _) | (intro _ _) | (fail_if_no_progress extract_lets) | split | (refine Keeps.snd (by assumption) ?_)
    | (refine Keeps.fst (by assumption) ?_) | (refine Keeps.snd2 (by assumption) ?_) | (dsimp only)
    | (dsimp +zetaDelta only)

theorem keeps_unsupported {msk : Nat} {s₀ s : State} (fn : Fn) (read : Bool) (hk : Keeps msk s₀ s)
    (hm : Sub 0x200000082 msk := by first | assumption | (apply Sub.of; assumption; rfl)) :
    Keeps msk s₀ (unsupported fn read s) := by
  unfold unsupported
  repeat' first
    | (with_reducible assumption) | ((with_reducible refine Sub.of hm ?_); exact rfl)
    | (with_reducible refine Keeps.ite ?_ ?_) | (with_reducible apply keeps_State_modFn)
    | (with_reducible apply keeps_emit) | (with_reducible apply keeps_post)
    | (fail_if_no_progress ((with_reducible refine Keeps.upd ?_ ?_ ?_ ?_ ?_ ?_ ?_ ?_ ?_ ?_ ?_ ?_ ?_ ?_ ?_ ?_ ?_ ?_ ?_ ?_ ?_ ?_ ?_ ?_ ?_ ?_ ?_ ?_ ?_ ?_ ?_) <;> first | exact Or.inl (Sub.of hm rfl) | with_reducible exact Or.inr rfl | skip))
    | (intro _ _ _) | (intro _ _) | (fail_if_no_progress extract_lets) | split | (refine Keeps.snd (by assumption) ?_)
    | (refine Keeps.fst (by assumption) ?_) | (refine Keeps.snd2 (by assumption) ?_) | (dsimp only)
    | (dsimp +zetaDelta only)

theorem keeps_gated {msk : Nat} {s₀ s : State} (fn : Fn) (off : Nat) (write : Bool) (op : State → Word × State) (h_op : ∀ (t : State), Keeps msk s₀ t → Keeps msk s₀ (op t).2) (hk : Keeps msk s₀ s)
    (hm : Sub 0x82 msk := by first | assumption | (apply Sub.of; assumption; rfl)) :
    Keeps msk s₀ (gated fn off write op s).2 := by
  unfold gated
  repeat' first
    | (with_reducible assumption) | ((with_reducible refine Sub.of hm ?_); exact rfl)
    | (with_reducible refine Keeps.ite ?_ ?_) | (with_reducible apply h_op) | (with_reducible apply keeps_flagUnowned)
    | (with_reducible apply keeps_post)
    | (fail_if_no_progress ((with_reducible refine Keeps.upd ?_ ?_ ?_ ?_ ?_ ?_ ?_ ?_ ?_ ?_ ?_ ?_ ?_ ?_ ?_ ?_ ?_ ?_ ?_ ?_ ?_ ?_ ?_ ?_ ?_ ?_ ?_ ?_ ?_ ?_ ?_) <;> first | exact Or.inl (Sub.of hm rfl) | with_reducible exact Or.inr rfl | skip))
    | (fail_if_no_progress extract_lets) | split | (refine Keeps.snd (by assumption) ?_)
    | (refine Keeps.fst (by assumption) ?_) | (refine Keeps.snd2 (by assumption) ?_) | (dsimp only)
    | (dsimp +zetaDelta only)

theorem keeps_readRegister {msk : Nat} {s₀ s : State} (fn : Fn) (off : Nat) (op : State → Word × State) (h_op : ∀ (t : State), Keeps msk s₀ t → Keeps msk s₀ (op t).2) (hk : Keeps msk s₀ s)
    (hm : Sub 0x200000082 msk := by first | assumption | (apply Sub.of; assumption; rfl)) :
    Keeps msk s₀ (readRegister fn off op s) := by
  unfold readRegister
  repeat' first
    | (with_reducible assumption) | ((with_reducible refine Sub.of hm ?_); exact rfl)
    | (with_reducible refine Keeps.ite ?_ ?_) | (with_reducible apply h_op) | (with_reducible apply keeps_unsupported)
    | (with_reducible apply keeps_gated) | (with_reducible apply keeps_emit)
    | (fail_if_no_progress ((with_reducible refine Keeps.upd ?_ ?_ ?_ ?_ ?_ ?_ ?_ ?_ ?_ ?_ ?_ ?_ ?_ ?_ ?_ ?_ ?_ ?_ ?_ ?_ ?_ ?_ ?_ ?_ ?_ ?_ ?_ ?_ ?_ ?_ ?_) <;> first | exact Or.inl (Sub.of hm rfl) | with_reducible exact Or.inr rfl | skip))
    | (intro _ _ _) | (intro _ _) | (fail_if_no_progress extract_lets) | split | (refine Keeps.snd (by assumption) ?_)
    | (refine Keeps.fst (by assumption) ?_) | (refine Keeps.snd2 (by assumption) ?_) | (dsimp only)
    | (dsimp +zetaDelta only)

theorem keeps_writeRegister {msk : Nat} {s₀ s : State} (fn : Fn) (off : Nat) (op : State → State) (h_op : ∀ (t : State), Keeps msk s₀ t → Keeps msk s₀ (op t)) (hk : Keeps msk s₀ s)
    (hm : Sub 0x200000082 msk := by first | assumption | (apply Sub.of; assumption; rfl)) :
    Keeps msk s₀ (writeRegister fn off op s) := by
  unfold writeRegister
  repeat' first
    | (with_reducible assumption) | ((with_reducible refine Sub.of hm ?_); exact rfl)
    | (with_reducible refine Keeps.ite ?_ ?_) | (with_reducible apply h_op) | (with_reducible apply keeps_unsupported)
    | (with_reducible apply keeps_gated)
    | (fail_if_no_progress ((with_reducible refine Keeps.upd ?_ ?_ ?_ ?_ ?_ ?_ ?_ ?_ ?_ ?_ ?_ ?_ ?_ ?_ ?_ ?_ ?_ ?_ ?_ ?_ ?_ ?_ ?_ ?_ ?_ ?_ ?_ ?_ ?_ ?_ ?_) <;> first | exact Or.inl (Sub.of hm rfl) | with_reducible exact Or.inr rfl | skip))
    | (intro _ _ _) | (intro _ _) | (fail_if_no_progress extract_lets) | split | (refine Keeps.snd (by assumption) ?_)
    | (refine Keeps.fst (by assumption) ?_) | (refine Keeps.snd2 (by assumption) ?_) | (dsimp only)
    | (dsimp +zetaDelta only)

end Sys2Proof.Machine
end

