-- ==== Sys2Proof/Laws/KeepsHampers.lean ====
section
/-! SUPPORT. `Keeps` of the operations and meanings of Machine/Hampers.lean. -/

set_option Elab.async false

set_option linter.unusedTactic false
set_option linter.unreachableTactic false

namespace Sys2Proof.Machine

theorem keeps_ringPorch {msk : Nat} {s₀ s : State} (fn : Fn) (hk : Keeps msk s₀ s)
    (hm : Sub 0x82 msk := by first | assumption | (apply Sub.of; assumption; rfl)) :
    Keeps msk s₀ (ringPorch fn s) := by
  unfold ringPorch
  repeat' first
    | (with_reducible assumption) | ((with_reducible refine Sub.of hm ?_); exact rfl)
    | (with_reducible refine Keeps.ite ?_ ?_) | (with_reducible apply keeps_State_modFn)
    | (with_reducible apply keeps_post)
    | (fail_if_no_progress ((with_reducible refine Keeps.upd ?_ ?_ ?_ ?_ ?_ ?_ ?_ ?_ ?_ ?_ ?_ ?_ ?_ ?_ ?_ ?_ ?_ ?_ ?_ ?_ ?_ ?_ ?_ ?_ ?_ ?_ ?_ ?_ ?_ ?_ ?_) <;> first | exact Or.inl (Sub.of hm rfl) | with_reducible exact Or.inr rfl | skip))
    | (intro _ _ _) | (intro _ _) | (fail_if_no_progress extract_lets) | split | (refine Keeps.snd (by assumption) ?_)
    | (refine Keeps.fst (by assumption) ?_) | (refine Keeps.snd2 (by assumption) ?_) | (dsimp only)
    | (dsimp +zetaDelta only)

theorem keeps_indexError {msk : Nat} {s₀ s : State} (fn : Fn) (hk : Keeps msk s₀ s)
    (hm : Sub 0x82 msk := by first | assumption | (apply Sub.of; assumption; rfl)) :
    Keeps msk s₀ (indexError fn s) := by
  unfold indexError
  repeat' first
    | (with_reducible assumption) | ((with_reducible refine Sub.of hm ?_); exact rfl)
    | (with_reducible refine Keeps.ite ?_ ?_) | (with_reducible apply keeps_post)
    | (with_reducible apply keeps_State_modFn)
    | (fail_if_no_progress ((with_reducible refine Keeps.upd ?_ ?_ ?_ ?_ ?_ ?_ ?_ ?_ ?_ ?_ ?_ ?_ ?_ ?_ ?_ ?_ ?_ ?_ ?_ ?_ ?_ ?_ ?_ ?_ ?_ ?_ ?_ ?_ ?_ ?_ ?_) <;> first | exact Or.inl (Sub.of hm rfl) | with_reducible exact Or.inr rfl | skip))
    | (intro _ _ _) | (intro _ _) | (fail_if_no_progress extract_lets) | split | (refine Keeps.snd (by assumption) ?_)
    | (refine Keeps.fst (by assumption) ?_) | (refine Keeps.snd2 (by assumption) ?_) | (dsimp only)
    | (dsimp +zetaDelta only)

theorem keeps_writeReqTail {msk : Nat} {s₀ s : State} (fn : Fn) (v : Word) (hk : Keeps msk s₀ s)
    (hm : Sub 0x82 msk := by first | assumption | (apply Sub.of; assumption; rfl)) :
    Keeps msk s₀ (writeReqTail fn v s) := by
  unfold writeReqTail
  repeat' first
    | (with_reducible assumption) | ((with_reducible refine Sub.of hm ?_); exact rfl)
    | (with_reducible refine Keeps.ite ?_ ?_) | (with_reducible apply keeps_State_modFn)
    | (with_reducible apply keeps_indexError)
    | (fail_if_no_progress ((with_reducible refine Keeps.upd ?_ ?_ ?_ ?_ ?_ ?_ ?_ ?_ ?_ ?_ ?_ ?_ ?_ ?_ ?_ ?_ ?_ ?_ ?_ ?_ ?_ ?_ ?_ ?_ ?_ ?_ ?_ ?_ ?_ ?_ ?_) <;> first | exact Or.inl (Sub.of hm rfl) | with_reducible exact Or.inr rfl | skip))
    | (intro _ _ _) | (intro _ _) | (fail_if_no_progress extract_lets) | split | (refine Keeps.snd (by assumption) ?_)
    | (refine Keeps.fst (by assumption) ?_) | (refine Keeps.snd2 (by assumption) ?_) | (dsimp only)
    | (dsimp +zetaDelta only)

theorem keeps_writeRepHead {msk : Nat} {s₀ s : State} (fn : Fn) (v : Word) (hk : Keeps msk s₀ s)
    (hm : Sub 0x82 msk := by first | assumption | (apply Sub.of; assumption; rfl)) :
    Keeps msk s₀ (writeRepHead fn v s) := by
  unfold writeRepHead
  repeat' first
    | (with_reducible assumption) | ((with_reducible refine Sub.of hm ?_); exact rfl)
    | (with_reducible refine Keeps.ite ?_ ?_) | (with_reducible apply keeps_State_modFn)
    | (with_reducible apply keeps_indexError)
    | (fail_if_no_progress ((with_reducible refine Keeps.upd ?_ ?_ ?_ ?_ ?_ ?_ ?_ ?_ ?_ ?_ ?_ ?_ ?_ ?_ ?_ ?_ ?_ ?_ ?_ ?_ ?_ ?_ ?_ ?_ ?_ ?_ ?_ ?_ ?_ ?_ ?_) <;> first | exact Or.inl (Sub.of hm rfl) | with_reducible exact Or.inr rfl | skip))
    | (intro _ _ _) | (intro _ _) | (fail_if_no_progress extract_lets) | split | (refine Keeps.snd (by assumption) ?_)
    | (refine Keeps.fst (by assumption) ?_) | (refine Keeps.snd2 (by assumption) ?_) | (dsimp only)
    | (dsimp +zetaDelta only)

theorem keeps_writeTqHead {msk : Nat} {s₀ s : State} (fn : Fn) (q : Fin 32) (v : Word) (hk : Keeps msk s₀ s)
    (hm : Sub 0x90 msk := by first | assumption | (apply Sub.of; assumption; rfl)) :
    Keeps msk s₀ (writeTqHead fn q v s) := by
  unfold writeTqHead
  repeat' first
    | (with_reducible assumption) | ((with_reducible refine Sub.of hm ?_); exact rfl)
    | (with_reducible refine Keeps.ite ?_ ?_) | (with_reducible apply keeps_State_modQueue)
    | (with_reducible apply keeps_post)
    | (fail_if_no_progress ((with_reducible refine Keeps.upd ?_ ?_ ?_ ?_ ?_ ?_ ?_ ?_ ?_ ?_ ?_ ?_ ?_ ?_ ?_ ?_ ?_ ?_ ?_ ?_ ?_ ?_ ?_ ?_ ?_ ?_ ?_ ?_ ?_ ?_ ?_) <;> first | exact Or.inl (Sub.of hm rfl) | with_reducible exact Or.inr rfl | skip))
    | (fail_if_no_progress extract_lets) | split | (refine Keeps.snd (by assumption) ?_)
    | (refine Keeps.fst (by assumption) ?_) | (refine Keeps.snd2 (by assumption) ?_) | (dsimp only)
    | (dsimp +zetaDelta only)

theorem keeps_readTqDropped {msk : Nat} {s₀ s : State} (q : Fin 32) (hk : Keeps msk s₀ s)
    (hm : Sub 0x10 msk := by first | assumption | (apply Sub.of; assumption; rfl)) :
    Keeps msk s₀ (readTqDropped q s).2 := by
  unfold readTqDropped
  repeat' first
    | (with_reducible assumption) | ((with_reducible refine Sub.of hm ?_); exact rfl)
    | (with_reducible refine Keeps.ite ?_ ?_) | (with_reducible apply keeps_State_modQueue)
    | (fail_if_no_progress ((with_reducible refine Keeps.upd ?_ ?_ ?_ ?_ ?_ ?_ ?_ ?_ ?_ ?_ ?_ ?_ ?_ ?_ ?_ ?_ ?_ ?_ ?_ ?_ ?_ ?_ ?_ ?_ ?_ ?_ ?_ ?_ ?_ ?_ ?_) <;> first | exact Or.inl (Sub.of hm rfl) | with_reducible exact Or.inr rfl | skip))
    | (fail_if_no_progress extract_lets) | split | (refine Keeps.snd (by assumption) ?_)
    | (refine Keeps.fst (by assumption) ?_) | (refine Keeps.snd2 (by assumption) ?_) | (dsimp only)
    | (dsimp +zetaDelta only)

theorem keeps_queueSetBody {msk : Nat} {s₀ s : State} (h : Hamper) (hk : Keeps msk s₀ s)
    (hm : Sub 0x80000010 msk := by first | assumption | (apply Sub.of; assumption; rfl)) :
    KeepsV msk s₀ (queueSetBody s h) := by
  unfold queueSetBody
  repeat' first
    | (with_reducible exact KeepsV.refuse) | (with_reducible exact KeepsV.badArg)
    | (with_reducible exact KeepsV.notOwner) | (with_reducible exact KeepsV.wrongState)
    | (with_reducible exact KeepsV.noResource) | (with_reducible refine KeepsV.ok ?_)
    | (with_reducible refine KeepsV.accepted ?_) | (with_reducible refine KeepsV.later ?_)
    | (with_reducible refine KeepsV.ite ?_ ?_) | (with_reducible assumption)
    | ((with_reducible refine Sub.of hm ?_); exact rfl) | (with_reducible refine Keeps.ite ?_ ?_)
    | (with_reducible apply keeps_badArg) | (with_reducible apply keeps_notOwner)
    | (with_reducible apply keeps_wrongState) | (with_reducible apply keeps_millWrite)
    | (with_reducible apply keeps_State_modQueue)
    | (fail_if_no_progress ((with_reducible refine Keeps.upd ?_ ?_ ?_ ?_ ?_ ?_ ?_ ?_ ?_ ?_ ?_ ?_ ?_ ?_ ?_ ?_ ?_ ?_ ?_ ?_ ?_ ?_ ?_ ?_ ?_ ?_ ?_ ?_ ?_ ?_ ?_) <;> first | exact Or.inl (Sub.of hm rfl) | with_reducible exact Or.inr rfl | skip))
    | (fail_if_no_progress extract_lets) | split | (refine Keeps.snd (by assumption) ?_)
    | (refine Keeps.fst (by assumption) ?_) | (refine Keeps.snd2 (by assumption) ?_) | (dsimp only)
    | (dsimp +zetaDelta only)

theorem keeps_queueModerateBody {msk : Nat} {s₀ s : State} (h : Hamper) (hk : Keeps msk s₀ s)
    (hm : Sub 0x200000012 msk := by first | assumption | (apply Sub.of; assumption; rfl)) :
    KeepsV msk s₀ (queueModerateBody s h) := by
  unfold queueModerateBody
  repeat' first
    | (with_reducible exact KeepsV.refuse) | (with_reducible exact KeepsV.badArg)
    | (with_reducible exact KeepsV.notOwner) | (with_reducible exact KeepsV.wrongState)
    | (with_reducible exact KeepsV.noResource) | (with_reducible refine KeepsV.ok ?_)
    | (with_reducible refine KeepsV.accepted ?_) | (with_reducible refine KeepsV.later ?_)
    | (with_reducible refine KeepsV.ite ?_ ?_) | (with_reducible assumption)
    | ((with_reducible refine Sub.of hm ?_); exact rfl) | (with_reducible refine Keeps.ite ?_ ?_)
    | (with_reducible apply keeps_badArg) | (with_reducible apply keeps_notOwner)
    | (with_reducible apply keeps_wrongState) | (with_reducible apply keeps_State_modQueue)
    | (with_reducible apply keeps_signalQueue)
    | (fail_if_no_progress ((with_reducible refine Keeps.upd ?_ ?_ ?_ ?_ ?_ ?_ ?_ ?_ ?_ ?_ ?_ ?_ ?_ ?_ ?_ ?_ ?_ ?_ ?_ ?_ ?_ ?_ ?_ ?_ ?_ ?_ ?_ ?_ ?_ ?_ ?_) <;> first | exact Or.inl (Sub.of hm rfl) | with_reducible exact Or.inr rfl | skip))
    | (fail_if_no_progress extract_lets) | split | (refine Keeps.snd (by assumption) ?_)
    | (refine Keeps.fst (by assumption) ?_) | (refine Keeps.snd2 (by assumption) ?_) | (dsimp only)
    | (dsimp +zetaDelta only)

theorem keeps_queueClearBody {msk : Nat} {s₀ s : State} (h : Hamper) (hk : Keeps msk s₀ s)
    (hm : Sub 0x10 msk := by first | assumption | (apply Sub.of; assumption; rfl)) :
    KeepsV msk s₀ (queueClearBody s h) := by
  unfold queueClearBody
  repeat' first
    | (with_reducible exact KeepsV.refuse) | (with_reducible exact KeepsV.badArg)
    | (with_reducible exact KeepsV.notOwner) | (with_reducible exact KeepsV.wrongState)
    | (with_reducible exact KeepsV.noResource) | (with_reducible refine KeepsV.ok ?_)
    | (with_reducible refine KeepsV.accepted ?_) | (with_reducible refine KeepsV.later ?_)
    | (with_reducible refine KeepsV.ite ?_ ?_) | (with_reducible assumption)
    | ((with_reducible refine Sub.of hm ?_); exact rfl) | (with_reducible refine Keeps.ite ?_ ?_)
    | (with_reducible apply keeps_badArg) | (with_reducible apply keeps_notOwner)
    | (with_reducible apply keeps_wrongState) | (with_reducible apply keeps_State_modQueue)
    | (fail_if_no_progress ((with_reducible refine Keeps.upd ?_ ?_ ?_ ?_ ?_ ?_ ?_ ?_ ?_ ?_ ?_ ?_ ?_ ?_ ?_ ?_ ?_ ?_ ?_ ?_ ?_ ?_ ?_ ?_ ?_ ?_ ?_ ?_ ?_ ?_ ?_) <;> first | exact Or.inl (Sub.of hm rfl) | with_reducible exact Or.inr rfl | skip))
    | (fail_if_no_progress extract_lets) | split | (refine Keeps.snd (by assumption) ?_)
    | (refine Keeps.fst (by assumption) ?_) | (refine Keeps.snd2 (by assumption) ?_) | (dsimp only)
    | (dsimp +zetaDelta only)

theorem keeps_ringsSetBody {msk : Nat} {s₀ s : State} (h : Hamper) (hk : Keeps msk s₀ s)
    (hm : Sub 0x2 msk := by first | assumption | (apply Sub.of; assumption; rfl)) :
    KeepsV msk s₀ (ringsSetBody s h) := by
  unfold ringsSetBody
  repeat' first
    | (with_reducible exact KeepsV.refuse) | (with_reducible exact KeepsV.badArg)
    | (with_reducible exact KeepsV.notOwner) | (with_reducible exact KeepsV.wrongState)
    | (with_reducible exact KeepsV.noResource) | (with_reducible refine KeepsV.ok ?_)
    | (with_reducible refine KeepsV.accepted ?_) | (with_reducible refine KeepsV.later ?_)
    | (with_reducible refine KeepsV.ite ?_ ?_) | (with_reducible assumption)
    | ((with_reducible refine Sub.of hm ?_); exact rfl) | (with_reducible refine Keeps.ite ?_ ?_)
    | (with_reducible apply keeps_wrongState) | (with_reducible apply keeps_badArg)
    | (with_reducible apply keeps_State_modFn)
    | (fail_if_no_progress ((with_reducible refine Keeps.upd ?_ ?_ ?_ ?_ ?_ ?_ ?_ ?_ ?_ ?_ ?_ ?_ ?_ ?_ ?_ ?_ ?_ ?_ ?_ ?_ ?_ ?_ ?_ ?_ ?_ ?_ ?_ ?_ ?_ ?_ ?_) <;> first | exact Or.inl (Sub.of hm rfl) | with_reducible exact Or.inr rfl | skip))
    | (intro _ _ _) | (intro _ _) | (fail_if_no_progress extract_lets) | split | (refine Keeps.snd (by assumption) ?_)
    | (refine Keeps.fst (by assumption) ?_) | (refine Keeps.snd2 (by assumption) ?_) | (dsimp only)
    | (dsimp +zetaDelta only)

theorem keeps_ringsClearBody {msk : Nat} {s₀ s : State} (h : Hamper) (hk : Keeps msk s₀ s)
    (hm : Sub 0x2 msk := by first | assumption | (apply Sub.of; assumption; rfl)) :
    KeepsV msk s₀ (ringsClearBody s h) := by
  unfold ringsClearBody
  repeat' first
    | (with_reducible exact KeepsV.refuse) | (with_reducible exact KeepsV.badArg)
    | (with_reducible exact KeepsV.notOwner) | (with_reducible exact KeepsV.wrongState)
    | (with_reducible exact KeepsV.noResource) | (with_reducible refine KeepsV.ok ?_)
    | (with_reducible refine KeepsV.accepted ?_) | (with_reducible refine KeepsV.later ?_)
    | (with_reducible refine KeepsV.ite ?_ ?_) | (with_reducible assumption)
    | ((with_reducible refine Sub.of hm ?_); exact rfl) | (with_reducible refine Keeps.ite ?_ ?_)
    | (with_reducible apply keeps_wrongState) | (with_reducible apply keeps_badArg)
    | (with_reducible apply keeps_State_modFn)
    | (fail_if_no_progress ((with_reducible refine Keeps.upd ?_ ?_ ?_ ?_ ?_ ?_ ?_ ?_ ?_ ?_ ?_ ?_ ?_ ?_ ?_ ?_ ?_ ?_ ?_ ?_ ?_ ?_ ?_ ?_ ?_ ?_ ?_ ?_ ?_ ?_ ?_) <;> first | exact Or.inl (Sub.of hm rfl) | with_reducible exact Or.inr rfl | skip))
    | (intro _ _ _) | (intro _ _) | (fail_if_no_progress extract_lets) | split | (refine Keeps.snd (by assumption) ?_)
    | (refine Keeps.fst (by assumption) ?_) | (refine Keeps.snd2 (by assumption) ?_) | (dsimp only)
    | (dsimp +zetaDelta only)

theorem keeps_noticeRouteBody {msk : Nat} {s₀ s : State} (h : Hamper) (hk : Keeps msk s₀ s)
    (hm : Sub 0x2 msk := by first | assumption | (apply Sub.of; assumption; rfl)) :
    KeepsV msk s₀ (noticeRouteBody s h) := by
  unfold noticeRouteBody
  repeat' first
    | (with_reducible exact KeepsV.refuse) | (with_reducible exact KeepsV.badArg)
    | (with_reducible exact KeepsV.notOwner) | (with_reducible exact KeepsV.wrongState)
    | (with_reducible exact KeepsV.noResource) | (with_reducible refine KeepsV.ok ?_)
    | (with_reducible refine KeepsV.accepted ?_) | (with_reducible refine KeepsV.later ?_)
    | (with_reducible refine KeepsV.ite ?_ ?_) | (with_reducible assumption)
    | ((with_reducible refine Sub.of hm ?_); exact rfl) | (with_reducible refine Keeps.ite ?_ ?_)
    | (with_reducible apply keeps_badArg) | (with_reducible apply keeps_State_modFn)
    | (with_reducible apply keeps_notOwner)
    | (fail_if_no_progress ((with_reducible refine Keeps.upd ?_ ?_ ?_ ?_ ?_ ?_ ?_ ?_ ?_ ?_ ?_ ?_ ?_ ?_ ?_ ?_ ?_ ?_ ?_ ?_ ?_ ?_ ?_ ?_ ?_ ?_ ?_ ?_ ?_ ?_ ?_) <;> first | exact Or.inl (Sub.of hm rfl) | with_reducible exact Or.inr rfl | skip))
    | (intro _ _ _) | (intro _ _) | (fail_if_no_progress extract_lets) | split | (refine Keeps.snd (by assumption) ?_)
    | (refine Keeps.fst (by assumption) ?_) | (refine Keeps.snd2 (by assumption) ?_) | (dsimp only)
    | (dsimp +zetaDelta only)

theorem keeps_deviceInfoBody {msk : Nat} {s₀ s : State} (h : Hamper) (hk : Keeps msk s₀ s)
    (hm : Sub 0x0 msk := by first | assumption | (apply Sub.of; assumption; rfl)) :
    KeepsV msk s₀ (deviceInfoBody s h) := by
  unfold deviceInfoBody
  repeat' first
    | (with_reducible exact KeepsV.refuse) | (with_reducible exact KeepsV.badArg)
    | (with_reducible exact KeepsV.notOwner) | (with_reducible exact KeepsV.wrongState)
    | (with_reducible exact KeepsV.noResource) | (with_reducible refine KeepsV.ok ?_)
    | (with_reducible refine KeepsV.accepted ?_) | (with_reducible refine KeepsV.later ?_)
    | (with_reducible refine KeepsV.ite ?_ ?_) | (with_reducible assumption)
    | ((with_reducible refine Sub.of hm ?_); exact rfl) | (with_reducible refine Keeps.ite ?_ ?_)
    | (with_reducible apply keeps_badArg)
    | (fail_if_no_progress ((with_reducible refine Keeps.upd ?_ ?_ ?_ ?_ ?_ ?_ ?_ ?_ ?_ ?_ ?_ ?_ ?_ ?_ ?_ ?_ ?_ ?_ ?_ ?_ ?_ ?_ ?_ ?_ ?_ ?_ ?_ ?_ ?_ ?_ ?_) <;> first | exact Or.inl (Sub.of hm rfl) | with_reducible exact Or.inr rfl | skip))
    | (fail_if_no_progress extract_lets) | split | (refine Keeps.snd (by assumption) ?_)
    | (refine Keeps.fst (by assumption) ?_) | (refine Keeps.snd2 (by assumption) ?_) | (dsimp only)
    | (dsimp +zetaDelta only)

theorem keeps_echoBody {msk : Nat} {s₀ s : State} (h : Hamper) (hk : Keeps msk s₀ s)
    (hm : Sub 0x0 msk := by first | assumption | (apply Sub.of; assumption; rfl)) :
    KeepsV msk s₀ (echoBody s h) := by
  unfold echoBody
  repeat' first
    | (with_reducible exact KeepsV.refuse) | (with_reducible exact KeepsV.badArg)
    | (with_reducible exact KeepsV.notOwner) | (with_reducible exact KeepsV.wrongState)
    | (with_reducible exact KeepsV.noResource) | (with_reducible refine KeepsV.ok ?_)
    | (with_reducible refine KeepsV.accepted ?_) | (with_reducible refine KeepsV.later ?_)
    | (with_reducible refine KeepsV.ite ?_ ?_) | (with_reducible assumption)
    | ((with_reducible refine Sub.of hm ?_); exact rfl) | (with_reducible refine Keeps.ite ?_ ?_)
    | (fail_if_no_progress ((with_reducible refine Keeps.upd ?_ ?_ ?_ ?_ ?_ ?_ ?_ ?_ ?_ ?_ ?_ ?_ ?_ ?_ ?_ ?_ ?_ ?_ ?_ ?_ ?_ ?_ ?_ ?_ ?_ ?_ ?_ ?_ ?_ ?_ ?_) <;> first | exact Or.inl (Sub.of hm rfl) | with_reducible exact Or.inr rfl | skip))
    | (fail_if_no_progress extract_lets) | split | (refine Keeps.snd (by assumption) ?_)
    | (refine Keeps.fst (by assumption) ?_) | (refine Keeps.snd2 (by assumption) ?_) | (dsimp only)
    | (dsimp +zetaDelta only)

theorem keeps_execPorchDoorbell {msk : Nat} {s₀ s : State} (dt : Nat) (fn : Fn) (hk : Keeps msk s₀ (advance dt s))
    (hm : Sub 0x200000082 msk := by first | assumption | (apply Sub.of; assumption; rfl)) :
    KeepsA msk s₀ (execPorchDoorbell dt fn s) := by
  unfold execPorchDoorbell
  repeat' first
    | (with_reducible refine KeepsA.next ?_) | (with_reducible assumption)
    | ((with_reducible refine Sub.of hm ?_); exact rfl) | (with_reducible refine Keeps.ite ?_ ?_)
    | (with_reducible apply keeps_writeRegister) | (with_reducible apply keeps_ringPorch)
    | (fail_if_no_progress ((with_reducible refine Keeps.upd ?_ ?_ ?_ ?_ ?_ ?_ ?_ ?_ ?_ ?_ ?_ ?_ ?_ ?_ ?_ ?_ ?_ ?_ ?_ ?_ ?_ ?_ ?_ ?_ ?_ ?_ ?_ ?_ ?_ ?_ ?_) <;> first | exact Or.inl (Sub.of hm rfl) | with_reducible exact Or.inr rfl | skip))
    | (intro _ _ _) | (intro _ _) | (fail_if_no_progress extract_lets) | split | (refine Keeps.snd (by assumption) ?_)
    | (refine Keeps.fst (by assumption) ?_) | (refine Keeps.snd2 (by assumption) ?_) | (dsimp only)
    | (dsimp +zetaDelta only)

theorem keeps_execReqTailWrite {msk : Nat} {s₀ s : State} (dt : Nat) (fn : Fn) (v : Word) (hk : Keeps msk s₀ (advance dt s))
    (hm : Sub 0x200000082 msk := by first | assumption | (apply Sub.of; assumption; rfl)) :
    KeepsA msk s₀ (execReqTailWrite dt fn v s) := by
  unfold execReqTailWrite
  repeat' first
    | (with_reducible refine KeepsA.next ?_) | (with_reducible assumption)
    | ((with_reducible refine Sub.of hm ?_); exact rfl) | (with_reducible refine Keeps.ite ?_ ?_)
    | (with_reducible apply keeps_writeRegister) | (with_reducible apply keeps_writeReqTail)
    | (fail_if_no_progress ((with_reducible refine Keeps.upd ?_ ?_ ?_ ?_ ?_ ?_ ?_ ?_ ?_ ?_ ?_ ?_ ?_ ?_ ?_ ?_ ?_ ?_ ?_ ?_ ?_ ?_ ?_ ?_ ?_ ?_ ?_ ?_ ?_ ?_ ?_) <;> first | exact Or.inl (Sub.of hm rfl) | with_reducible exact Or.inr rfl | skip))
    | (intro _ _ _) | (intro _ _) | (fail_if_no_progress extract_lets) | split | (refine Keeps.snd (by assumption) ?_)
    | (refine Keeps.fst (by assumption) ?_) | (refine Keeps.snd2 (by assumption) ?_) | (dsimp only)
    | (dsimp +zetaDelta only)

theorem keeps_execRepHeadWrite {msk : Nat} {s₀ s : State} (dt : Nat) (fn : Fn) (v : Word) (hk : Keeps msk s₀ (advance dt s))
    (hm : Sub 0x200000082 msk := by first | assumption | (apply Sub.of; assumption; rfl)) :
    KeepsA msk s₀ (execRepHeadWrite dt fn v s) := by
  unfold execRepHeadWrite
  repeat' first
    | (with_reducible refine KeepsA.next ?_) | (with_reducible assumption)
    | ((with_reducible refine Sub.of hm ?_); exact rfl) | (with_reducible refine Keeps.ite ?_ ?_)
    | (with_reducible apply keeps_writeRegister) | (with_reducible apply keeps_writeRepHead)
    | (fail_if_no_progress ((with_reducible refine Keeps.upd ?_ ?_ ?_ ?_ ?_ ?_ ?_ ?_ ?_ ?_ ?_ ?_ ?_ ?_ ?_ ?_ ?_ ?_ ?_ ?_ ?_ ?_ ?_ ?_ ?_ ?_ ?_ ?_ ?_ ?_ ?_) <;> first | exact Or.inl (Sub.of hm rfl) | with_reducible exact Or.inr rfl | skip))
    | (intro _ _ _) | (intro _ _) | (fail_if_no_progress extract_lets) | split | (refine Keeps.snd (by assumption) ?_)
    | (refine Keeps.fst (by assumption) ?_) | (refine Keeps.snd2 (by assumption) ?_) | (dsimp only)
    | (dsimp +zetaDelta only)

theorem keeps_execDeviceInfo {msk : Nat} {s₀ s : State} (dt : Nat) (r : Req) (hk : Keeps msk s₀ (advance dt s))
    (hm : Sub 0x2000000C6 msk := by first | assumption | (apply Sub.of; assumption; rfl)) :
    KeepsA msk s₀ (execDeviceInfo dt r s) := by
  unfold execDeviceInfo
  repeat' first
    | (with_reducible refine KeepsA.next ?_) | (with_reducible assumption)
    | ((with_reducible refine Sub.of hm ?_); exact rfl) | (with_reducible refine Keeps.ite ?_ ?_)
    | (with_reducible apply keeps_serve) | (with_reducible apply keeps_deviceInfoBody)
    | (fail_if_no_progress ((with_reducible refine Keeps.upd ?_ ?_ ?_ ?_ ?_ ?_ ?_ ?_ ?_ ?_ ?_ ?_ ?_ ?_ ?_ ?_ ?_ ?_ ?_ ?_ ?_ ?_ ?_ ?_ ?_ ?_ ?_ ?_ ?_ ?_ ?_) <;> first | exact Or.inl (Sub.of hm rfl) | with_reducible exact Or.inr rfl | skip))
    | (intro _ _ _) | (intro _ _) | (fail_if_no_progress extract_lets) | split | (refine Keeps.snd (by assumption) ?_)
    | (refine Keeps.fst (by assumption) ?_) | (refine Keeps.snd2 (by assumption) ?_) | (dsimp only)
    | (dsimp +zetaDelta only)

theorem keeps_execRingsSet {msk : Nat} {s₀ s : State} (dt : Nat) (r : Req) (hk : Keeps msk s₀ (advance dt s))
    (hm : Sub 0x2000000C6 msk := by first | assumption | (apply Sub.of; assumption; rfl)) :
    KeepsA msk s₀ (execRingsSet dt r s) := by
  unfold execRingsSet
  repeat' first
    | (with_reducible refine KeepsA.next ?_) | (with_reducible assumption)
    | ((with_reducible refine Sub.of hm ?_); exact rfl) | (with_reducible refine Keeps.ite ?_ ?_)
    | (with_reducible apply keeps_serve) | (with_reducible apply keeps_ringsSetBody)
    | (fail_if_no_progress ((with_reducible refine Keeps.upd ?_ ?_ ?_ ?_ ?_ ?_ ?_ ?_ ?_ ?_ ?_ ?_ ?_ ?_ ?_ ?_ ?_ ?_ ?_ ?_ ?_ ?_ ?_ ?_ ?_ ?_ ?_ ?_ ?_ ?_ ?_) <;> first | exact Or.inl (Sub.of hm rfl) | with_reducible exact Or.inr rfl | skip))
    | (intro _ _ _) | (intro _ _) | (fail_if_no_progress extract_lets) | split | (refine Keeps.snd (by assumption) ?_)
    | (refine Keeps.fst (by assumption) ?_) | (refine Keeps.snd2 (by assumption) ?_) | (dsimp only)
    | (dsimp +zetaDelta only)

theorem keeps_execRingsClear {msk : Nat} {s₀ s : State} (dt : Nat) (r : Req) (hk : Keeps msk s₀ (advance dt s))
    (hm : Sub 0x2000000C6 msk := by first | assumption | (apply Sub.of; assumption; rfl)) :
    KeepsA msk s₀ (execRingsClear dt r s) := by
  unfold execRingsClear
  repeat' first
    | (with_reducible refine KeepsA.next ?_) | (with_reducible assumption)
    | ((with_reducible refine Sub.of hm ?_); exact rfl) | (with_reducible refine Keeps.ite ?_ ?_)
    | (with_reducible apply keeps_serve) | (with_reducible apply keeps_ringsClearBody)
    | (fail_if_no_progress ((with_reducible refine Keeps.upd ?_ ?_ ?_ ?_ ?_ ?_ ?_ ?_ ?_ ?_ ?_ ?_ ?_ ?_ ?_ ?_ ?_ ?_ ?_ ?_ ?_ ?_ ?_ ?_ ?_ ?_ ?_ ?_ ?_ ?_ ?_) <;> first | exact Or.inl (Sub.of hm rfl) | with_reducible exact Or.inr rfl | skip))
    | (intro _ _ _) | (intro _ _) | (fail_if_no_progress extract_lets) | split | (refine Keeps.snd (by assumption) ?_)
    | (refine Keeps.fst (by assumption) ?_) | (refine Keeps.snd2 (by assumption) ?_) | (dsimp only)
    | (dsimp +zetaDelta only)

theorem keeps_execNoticeRoute {msk : Nat} {s₀ s : State} (dt : Nat) (r : Req) (hk : Keeps msk s₀ (advance dt s))
    (hm : Sub 0x2000000C6 msk := by first | assumption | (apply Sub.of; assumption; rfl)) :
    KeepsA msk s₀ (execNoticeRoute dt r s) := by
  unfold execNoticeRoute
  repeat' first
    | (with_reducible refine KeepsA.next ?_) | (with_reducible assumption)
    | ((with_reducible refine Sub.of hm ?_); exact rfl) | (with_reducible refine Keeps.ite ?_ ?_)
    | (with_reducible apply keeps_serve) | (with_reducible apply keeps_noticeRouteBody)
    | (fail_if_no_progress ((with_reducible refine Keeps.upd ?_ ?_ ?_ ?_ ?_ ?_ ?_ ?_ ?_ ?_ ?_ ?_ ?_ ?_ ?_ ?_ ?_ ?_ ?_ ?_ ?_ ?_ ?_ ?_ ?_ ?_ ?_ ?_ ?_ ?_ ?_) <;> first | exact Or.inl (Sub.of hm rfl) | with_reducible exact Or.inr rfl | skip))
    | (intro _ _ _) | (intro _ _) | (fail_if_no_progress extract_lets) | split | (refine Keeps.snd (by assumption) ?_)
    | (refine Keeps.fst (by assumption) ?_) | (refine Keeps.snd2 (by assumption) ?_) | (dsimp only)
    | (dsimp +zetaDelta only)

theorem keeps_execEcho {msk : Nat} {s₀ s : State} (dt : Nat) (r : Req) (hk : Keeps msk s₀ (advance dt s))
    (hm : Sub 0x2000000C6 msk := by first | assumption | (apply Sub.of; assumption; rfl)) :
    KeepsA msk s₀ (execEcho dt r s) := by
  unfold execEcho
  repeat' first
    | (with_reducible refine KeepsA.next ?_) | (with_reducible assumption)
    | ((with_reducible refine Sub.of hm ?_); exact rfl) | (with_reducible refine Keeps.ite ?_ ?_)
    | (with_reducible apply keeps_serve) | (with_reducible apply keeps_echoBody)
    | (fail_if_no_progress ((with_reducible refine Keeps.upd ?_ ?_ ?_ ?_ ?_ ?_ ?_ ?_ ?_ ?_ ?_ ?_ ?_ ?_ ?_ ?_ ?_ ?_ ?_ ?_ ?_ ?_ ?_ ?_ ?_ ?_ ?_ ?_ ?_ ?_ ?_) <;> first | exact Or.inl (Sub.of hm rfl) | with_reducible exact Or.inr rfl | skip))
    | (intro _ _ _) | (intro _ _) | (fail_if_no_progress extract_lets) | split | (refine Keeps.snd (by assumption) ?_)
    | (refine Keeps.fst (by assumption) ?_) | (refine Keeps.snd2 (by assumption) ?_) | (dsimp only)
    | (dsimp +zetaDelta only)

theorem keeps_execQueueSet {msk : Nat} {s₀ s : State} (dt : Nat) (r : Req) (hk : Keeps msk s₀ (advance dt s))
    (hm : Sub 0x2800000D6 msk := by first | assumption | (apply Sub.of; assumption; rfl)) :
    KeepsA msk s₀ (execQueueSet dt r s) := by
  unfold execQueueSet
  repeat' first
    | (with_reducible refine KeepsA.next ?_) | (with_reducible assumption)
    | ((with_reducible refine Sub.of hm ?_); exact rfl) | (with_reducible refine Keeps.ite ?_ ?_)
    | (with_reducible apply keeps_serve) | (with_reducible apply keeps_queueSetBody)
    | (fail_if_no_progress ((with_reducible refine Keeps.upd ?_ ?_ ?_ ?_ ?_ ?_ ?_ ?_ ?_ ?_ ?_ ?_ ?_ ?_ ?_ ?_ ?_ ?_ ?_ ?_ ?_ ?_ ?_ ?_ ?_ ?_ ?_ ?_ ?_ ?_ ?_) <;> first | exact Or.inl (Sub.of hm rfl) | with_reducible exact Or.inr rfl | skip))
    | (intro _ _ _) | (intro _ _) | (fail_if_no_progress extract_lets) | split | (refine Keeps.snd (by assumption) ?_)
    | (refine Keeps.fst (by assumption) ?_) | (refine Keeps.snd2 (by assumption) ?_) | (dsimp only)
    | (dsimp +zetaDelta only)

theorem keeps_execQueueClear {msk : Nat} {s₀ s : State} (dt : Nat) (r : Req) (hk : Keeps msk s₀ (advance dt s))
    (hm : Sub 0x2000000D6 msk := by first | assumption | (apply Sub.of; assumption; rfl)) :
    KeepsA msk s₀ (execQueueClear dt r s) := by
  unfold execQueueClear
  repeat' first
    | (with_reducible refine KeepsA.next ?_) | (with_reducible assumption)
    | ((with_reducible refine Sub.of hm ?_); exact rfl) | (with_reducible refine Keeps.ite ?_ ?_)
    | (with_reducible apply keeps_serve) | (with_reducible apply keeps_queueClearBody)
    | (fail_if_no_progress ((with_reducible refine Keeps.upd ?_ ?_ ?_ ?_ ?_ ?_ ?_ ?_ ?_ ?_ ?_ ?_ ?_ ?_ ?_ ?_ ?_ ?_ ?_ ?_ ?_ ?_ ?_ ?_ ?_ ?_ ?_ ?_ ?_ ?_ ?_) <;> first | exact Or.inl (Sub.of hm rfl) | with_reducible exact Or.inr rfl | skip))
    | (intro _ _ _) | (intro _ _) | (fail_if_no_progress extract_lets) | split | (refine Keeps.snd (by assumption) ?_)
    | (refine Keeps.fst (by assumption) ?_) | (refine Keeps.snd2 (by assumption) ?_) | (dsimp only)
    | (dsimp +zetaDelta only)

theorem keeps_execQueueModerate {msk : Nat} {s₀ s : State} (dt : Nat) (r : Req) (hk : Keeps msk s₀ (advance dt s))
    (hm : Sub 0x2000000D6 msk := by first | assumption | (apply Sub.of; assumption; rfl)) :
    KeepsA msk s₀ (execQueueModerate dt r s) := by
  unfold execQueueModerate
  repeat' first
    | (with_reducible refine KeepsA.next ?_) | (with_reducible assumption)
    | ((with_reducible refine Sub.of hm ?_); exact rfl) | (with_reducible refine Keeps.ite ?_ ?_)
    | (with_reducible apply keeps_serve) | (with_reducible apply keeps_queueModerateBody)
    | (fail_if_no_progress ((with_reducible refine Keeps.upd ?_ ?_ ?_ ?_ ?_ ?_ ?_ ?_ ?_ ?_ ?_ ?_ ?_ ?_ ?_ ?_ ?_ ?_ ?_ ?_ ?_ ?_ ?_ ?_ ?_ ?_ ?_ ?_ ?_ ?_ ?_) <;> first | exact Or.inl (Sub.of hm rfl) | with_reducible exact Or.inr rfl | skip))
    | (intro _ _ _) | (intro _ _) | (fail_if_no_progress extract_lets) | split | (refine Keeps.snd (by assumption) ?_)
    | (refine Keeps.fst (by assumption) ?_) | (refine Keeps.snd2 (by assumption) ?_) | (dsimp only)
    | (dsimp +zetaDelta only)

theorem keeps_execTqHeadWrite {msk : Nat} {s₀ s : State} (dt : Nat) (fn : Fn) (q : Fin 32) (v : Word) (hk : Keeps msk s₀ (advance dt s))
    (hm : Sub 0x200000092 msk := by first | assumption | (apply Sub.of; assumption; rfl)) :
    KeepsA msk s₀ (execTqHeadWrite dt fn q v s) := by
  unfold execTqHeadWrite
  repeat' first
    | (with_reducible refine KeepsA.next ?_) | (with_reducible assumption)
    | ((with_reducible refine Sub.of hm ?_); exact rfl) | (with_reducible refine Keeps.ite ?_ ?_)
    | (with_reducible apply keeps_writeRegister) | (with_reducible apply keeps_writeTqHead)
    | (fail_if_no_progress ((with_reducible refine Keeps.upd ?_ ?_ ?_ ?_ ?_ ?_ ?_ ?_ ?_ ?_ ?_ ?_ ?_ ?_ ?_ ?_ ?_ ?_ ?_ ?_ ?_ ?_ ?_ ?_ ?_ ?_ ?_ ?_ ?_ ?_ ?_) <;> first | exact Or.inl (Sub.of hm rfl) | with_reducible exact Or.inr rfl | skip))
    | (intro _ _ _) | (intro _ _) | (fail_if_no_progress extract_lets) | split | (refine Keeps.snd (by assumption) ?_)
    | (refine Keeps.fst (by assumption) ?_) | (refine Keeps.snd2 (by assumption) ?_) | (dsimp only)
    | (dsimp +zetaDelta only)

theorem keeps_execTqDroppedRead {msk : Nat} {s₀ s : State} (dt : Nat) (fn : Fn) (q : Fin 32) (hk : Keeps msk s₀ (advance dt s))
    (hm : Sub 0x200000092 msk := by first | assumption | (apply Sub.of; assumption; rfl)) :
    KeepsA msk s₀ (execTqDroppedRead dt fn q s) := by
  unfold execTqDroppedRead
  repeat' first
    | (with_reducible refine KeepsA.next ?_) | (with_reducible assumption)
    | ((with_reducible refine Sub.of hm ?_); exact rfl) | (with_reducible refine Keeps.ite ?_ ?_)
    | (with_reducible apply keeps_readRegister) | (with_reducible apply keeps_readTqDropped)
    | (fail_if_no_progress ((with_reducible refine Keeps.upd ?_ ?_ ?_ ?_ ?_ ?_ ?_ ?_ ?_ ?_ ?_ ?_ ?_ ?_ ?_ ?_ ?_ ?_ ?_ ?_ ?_ ?_ ?_ ?_ ?_ ?_ ?_ ?_ ?_ ?_ ?_) <;> first | exact Or.inl (Sub.of hm rfl) | with_reducible exact Or.inr rfl | skip))
    | (intro _ _ _) | (intro _ _) | (fail_if_no_progress extract_lets) | split | (refine Keeps.snd (by assumption) ?_)
    | (refine Keeps.fst (by assumption) ?_) | (refine Keeps.snd2 (by assumption) ?_) | (dsimp only)
    | (dsimp +zetaDelta only)

theorem keeps_moderationTimer {msk : Nat} {s₀ s : State} (q : Fin 32) (hk : Keeps msk s₀ s)
    (hm : Sub 0x200000012 msk := by first | assumption | (apply Sub.of; assumption; rfl)) :
    Keeps msk s₀ (moderationTimer q s) := by
  unfold moderationTimer
  repeat' first
    | (with_reducible assumption) | ((with_reducible refine Sub.of hm ?_); exact rfl)
    | (with_reducible refine Keeps.ite ?_ ?_) | (with_reducible apply keeps_signalQueue)
    | (fail_if_no_progress ((with_reducible refine Keeps.upd ?_ ?_ ?_ ?_ ?_ ?_ ?_ ?_ ?_ ?_ ?_ ?_ ?_ ?_ ?_ ?_ ?_ ?_ ?_ ?_ ?_ ?_ ?_ ?_ ?_ ?_ ?_ ?_ ?_ ?_ ?_) <;> first | exact Or.inl (Sub.of hm rfl) | with_reducible exact Or.inr rfl | skip))
    | (fail_if_no_progress extract_lets) | split | (refine Keeps.snd (by assumption) ?_)
    | (refine Keeps.fst (by assumption) ?_) | (refine Keeps.snd2 (by assumption) ?_) | (dsimp only)
    | (dsimp +zetaDelta only)

theorem keeps_execTqModerationTimer {msk : Nat} {s₀ s : State} (dt : Nat) (q : Fin 32) (hk : Keeps msk s₀ (advance dt s))
    (hm : Sub 0x200000012 msk := by first | assumption | (apply Sub.of; assumption; rfl)) :
    KeepsA msk s₀ (execTqModerationTimer dt q s) := by
  unfold execTqModerationTimer
  repeat' first
    | (with_reducible refine KeepsA.next ?_) | (with_reducible assumption)
    | ((with_reducible refine Sub.of hm ?_); exact rfl) | (with_reducible refine Keeps.ite ?_ ?_)
    | (with_reducible apply keeps_moderationTimer)
    | (fail_if_no_progress ((with_reducible refine Keeps.upd ?_ ?_ ?_ ?_ ?_ ?_ ?_ ?_ ?_ ?_ ?_ ?_ ?_ ?_ ?_ ?_ ?_ ?_ ?_ ?_ ?_ ?_ ?_ ?_ ?_ ?_ ?_ ?_ ?_ ?_ ?_) <;> first | exact Or.inl (Sub.of hm rfl) | with_reducible exact Or.inr rfl | skip))
    | (fail_if_no_progress extract_lets) | split | (refine Keeps.snd (by assumption) ?_)
    | (refine Keeps.fst (by assumption) ?_) | (refine Keeps.snd2 (by assumption) ?_) | (dsimp only)
    | (dsimp +zetaDelta only)

theorem keeps_queueStops {msk : Nat} {s₀ s : State} (q : Fin 32) (hk : Keeps msk s₀ s)
    (hm : Sub 0x90 msk := by first | assumption | (apply Sub.of; assumption; rfl)) :
    Keeps msk s₀ (queueStops q s) := by
  unfold queueStops
  repeat' first
    | (with_reducible assumption) | ((with_reducible refine Sub.of hm ?_); exact rfl)
    | (with_reducible refine Keeps.ite ?_ ?_) | (with_reducible apply keeps_post)
    | (with_reducible apply keeps_State_modQueue)
    | (fail_if_no_progress ((with_reducible refine Keeps.upd ?_ ?_ ?_ ?_ ?_ ?_ ?_ ?_ ?_ ?_ ?_ ?_ ?_ ?_ ?_ ?_ ?_ ?_ ?_ ?_ ?_ ?_ ?_ ?_ ?_ ?_ ?_ ?_ ?_ ?_ ?_) <;> first | exact Or.inl (Sub.of hm rfl) | with_reducible exact Or.inr rfl | skip))
    | (fail_if_no_progress extract_lets) | split | (refine Keeps.snd (by assumption) ?_)
    | (refine Keeps.fst (by assumption) ?_) | (refine Keeps.snd2 (by assumption) ?_) | (dsimp only)
    | (dsimp +zetaDelta only)

theorem keeps_execQueueWriteFailed {msk : Nat} {s₀ s : State} (dt : Nat) (q : Fin 32) (hk : Keeps msk s₀ (advance dt s))
    (hm : Sub 0x90 msk := by first | assumption | (apply Sub.of; assumption; rfl)) :
    KeepsA msk s₀ (execQueueWriteFailed dt q s) := by
  unfold execQueueWriteFailed
  repeat' first
    | (with_reducible refine KeepsA.next ?_) | (with_reducible assumption)
    | ((with_reducible refine Sub.of hm ?_); exact rfl) | (with_reducible refine Keeps.ite ?_ ?_)
    | (with_reducible apply keeps_queueStops)
    | (fail_if_no_progress ((with_reducible refine Keeps.upd ?_ ?_ ?_ ?_ ?_ ?_ ?_ ?_ ?_ ?_ ?_ ?_ ?_ ?_ ?_ ?_ ?_ ?_ ?_ ?_ ?_ ?_ ?_ ?_ ?_ ?_ ?_ ?_ ?_ ?_ ?_) <;> first | exact Or.inl (Sub.of hm rfl) | with_reducible exact Or.inr rfl | skip))
    | (fail_if_no_progress extract_lets) | split | (refine Keeps.snd (by assumption) ?_)
    | (refine Keeps.fst (by assumption) ?_) | (refine Keeps.snd2 (by assumption) ?_) | (dsimp only)
    | (dsimp +zetaDelta only)

theorem keeps_replyLost {msk : Nat} {s₀ s : State} (fn : Fn) (hk : Keeps msk s₀ s)
    (hm : Sub 0x82 msk := by first | assumption | (apply Sub.of; assumption; rfl)) :
    Keeps msk s₀ (replyLost fn s) := by
  unfold replyLost
  repeat' first
    | (with_reducible assumption) | ((with_reducible refine Sub.of hm ?_); exact rfl)
    | (with_reducible refine Keeps.ite ?_ ?_) | (with_reducible apply keeps_post)
    | (with_reducible apply keeps_State_modFn)
    | (fail_if_no_progress ((with_reducible refine Keeps.upd ?_ ?_ ?_ ?_ ?_ ?_ ?_ ?_ ?_ ?_ ?_ ?_ ?_ ?_ ?_ ?_ ?_ ?_ ?_ ?_ ?_ ?_ ?_ ?_ ?_ ?_ ?_ ?_ ?_ ?_ ?_) <;> first | exact Or.inl (Sub.of hm rfl) | with_reducible exact Or.inr rfl | skip))
    | (intro _ _ _) | (intro _ _) | (fail_if_no_progress extract_lets) | split | (refine Keeps.snd (by assumption) ?_)
    | (refine Keeps.fst (by assumption) ?_) | (refine Keeps.snd2 (by assumption) ?_) | (dsimp only)
    | (dsimp +zetaDelta only)

theorem keeps_execReplyWriteFailed {msk : Nat} {s₀ s : State} (dt : Nat) (fn : Fn) (hk : Keeps msk s₀ (advance dt s))
    (hm : Sub 0x82 msk := by first | assumption | (apply Sub.of; assumption; rfl)) :
    KeepsA msk s₀ (execReplyWriteFailed dt fn s) := by
  unfold execReplyWriteFailed
  repeat' first
    | (with_reducible refine KeepsA.next ?_) | (with_reducible assumption)
    | ((with_reducible refine Sub.of hm ?_); exact rfl) | (with_reducible refine Keeps.ite ?_ ?_)
    | (with_reducible apply keeps_replyLost)
    | (fail_if_no_progress ((with_reducible refine Keeps.upd ?_ ?_ ?_ ?_ ?_ ?_ ?_ ?_ ?_ ?_ ?_ ?_ ?_ ?_ ?_ ?_ ?_ ?_ ?_ ?_ ?_ ?_ ?_ ?_ ?_ ?_ ?_ ?_ ?_ ?_ ?_) <;> first | exact Or.inl (Sub.of hm rfl) | with_reducible exact Or.inr rfl | skip))
    | (fail_if_no_progress extract_lets) | split | (refine Keeps.snd (by assumption) ?_)
    | (refine Keeps.fst (by assumption) ?_) | (refine Keeps.snd2 (by assumption) ?_) | (dsimp only)
    | (dsimp +zetaDelta only)

end Sys2Proof.Machine
end

