-- ==== Sys2Proof/Laws/KeepsTime.lean ====
section
/-! SUPPORT. `Keeps` of the operations and meanings of Machine/Time.lean. -/

set_option Elab.async false

set_option linter.unusedTactic false
set_option linter.unreachableTactic false

namespace Sys2Proof.Machine

theorem keeps_State_modFantail {msk : Nat} {s₀ s : State} (g : Fantail → Fantail) (hk : Keeps msk s₀ s)
    (hm : Sub 0x400 msk := by first | assumption | (apply Sub.of; assumption; rfl)) :
    Keeps msk s₀ (State.modFantail s g) := by
  unfold State.modFantail
  repeat' first
    | (with_reducible assumption) | ((with_reducible refine Sub.of hm ?_); exact rfl)
    | (with_reducible refine Keeps.ite ?_ ?_)
    | (fail_if_no_progress ((with_reducible refine Keeps.upd ?_ ?_ ?_ ?_ ?_ ?_ ?_ ?_ ?_ ?_ ?_ ?_ ?_ ?_ ?_ ?_ ?_ ?_ ?_ ?_ ?_ ?_ ?_ ?_ ?_ ?_ ?_ ?_ ?_ ?_ ?_) <;> first | exact Or.inl (Sub.of hm rfl) | with_reducible exact Or.inr rfl | skip))
    | (fail_if_no_progress extract_lets) | split | (refine Keeps.snd (by assumption) ?_)
    | (refine Keeps.fst (by assumption) ?_) | (refine Keeps.snd2 (by assumption) ?_) | (dsimp only)
    | (dsimp +zetaDelta only)

theorem keeps_tdcDropped {msk : Nat} {s₀ s : State} (hk : Keeps msk s₀ s)
    (hm : Sub 0x480 msk := by first | assumption | (apply Sub.of; assumption; rfl)) :
    Keeps msk s₀ (tdcDropped s) := by
  unfold tdcDropped
  repeat' first
    | (with_reducible assumption) | ((with_reducible refine Sub.of hm ?_); exact rfl)
    | (with_reducible refine Keeps.ite ?_ ?_) | (with_reducible apply keeps_post)
    | (fail_if_no_progress ((with_reducible refine Keeps.upd ?_ ?_ ?_ ?_ ?_ ?_ ?_ ?_ ?_ ?_ ?_ ?_ ?_ ?_ ?_ ?_ ?_ ?_ ?_ ?_ ?_ ?_ ?_ ?_ ?_ ?_ ?_ ?_ ?_ ?_ ?_) <;> first | exact Or.inl (Sub.of hm rfl) | with_reducible exact Or.inr rfl | skip))
    | (fail_if_no_progress extract_lets) | split | (refine Keeps.snd (by assumption) ?_)
    | (refine Keeps.fst (by assumption) ?_) | (refine Keeps.snd2 (by assumption) ?_) | (dsimp only)
    | (dsimp +zetaDelta only)

theorem keeps_tdcEdge {msk : Nat} {s₀ s : State} (line : TdcLine) (step : Nat) (hk : Keeps msk s₀ s)
    (hm : Sub 0x480 msk := by first | assumption | (apply Sub.of; assumption; rfl)) :
    Keeps msk s₀ (tdcEdge line step s).2 := by
  unfold tdcEdge
  repeat' first
    | (with_reducible assumption) | ((with_reducible refine Sub.of hm ?_); exact rfl)
    | (with_reducible refine Keeps.ite ?_ ?_) | (with_reducible apply keeps_tdcDropped)
    | (fail_if_no_progress ((with_reducible refine Keeps.upd ?_ ?_ ?_ ?_ ?_ ?_ ?_ ?_ ?_ ?_ ?_ ?_ ?_ ?_ ?_ ?_ ?_ ?_ ?_ ?_ ?_ ?_ ?_ ?_ ?_ ?_ ?_ ?_ ?_ ?_ ?_) <;> first | exact Or.inl (Sub.of hm rfl) | with_reducible exact Or.inr rfl | skip))
    | (fail_if_no_progress extract_lets) | split | (refine Keeps.snd (by assumption) ?_)
    | (refine Keeps.fst (by assumption) ?_) | (refine Keeps.snd2 (by assumption) ?_) | (dsimp only)
    | (dsimp +zetaDelta only)

theorem keeps_tdcNote {msk : Nat} {s₀ s : State} (line : TdcLine) (step : Nat) (hk : Keeps msk s₀ s)
    (hm : Sub 0x480 msk := by first | assumption | (apply Sub.of; assumption; rfl)) :
    Keeps msk s₀ (tdcNote line step s) := by
  unfold tdcNote
  repeat' first
    | (with_reducible assumption) | ((with_reducible refine Sub.of hm ?_); exact rfl)
    | (with_reducible refine Keeps.ite ?_ ?_) | (with_reducible apply keeps_tdcEdge)
    | (fail_if_no_progress ((with_reducible refine Keeps.upd ?_ ?_ ?_ ?_ ?_ ?_ ?_ ?_ ?_ ?_ ?_ ?_ ?_ ?_ ?_ ?_ ?_ ?_ ?_ ?_ ?_ ?_ ?_ ?_ ?_ ?_ ?_ ?_ ?_ ?_ ?_) <;> first | exact Or.inl (Sub.of hm rfl) | with_reducible exact Or.inr rfl | skip))
    | (fail_if_no_progress extract_lets) | split | (refine Keeps.snd (by assumption) ?_)
    | (refine Keeps.fst (by assumption) ?_) | (refine Keeps.snd2 (by assumption) ?_) | (dsimp only)
    | (dsimp +zetaDelta only)

theorem keeps_RawLine_sample {msk : Nat} {s₀ s : State} (line : TdcLine) (x : Line) (r : RawLine) (hk : Keeps msk s₀ s)
    (hm : Sub 0x480 msk := by first | assumption | (apply Sub.of; assumption; rfl)) :
    Keeps msk s₀ (RawLine.sample line x r s).2 := by
  unfold RawLine.sample
  repeat' first
    | (with_reducible assumption) | ((with_reducible refine Sub.of hm ?_); exact rfl)
    | (with_reducible refine Keeps.ite ?_ ?_) | (with_reducible apply keeps_tdcEdge)
    | (fail_if_no_progress ((with_reducible refine Keeps.upd ?_ ?_ ?_ ?_ ?_ ?_ ?_ ?_ ?_ ?_ ?_ ?_ ?_ ?_ ?_ ?_ ?_ ?_ ?_ ?_ ?_ ?_ ?_ ?_ ?_ ?_ ?_ ?_ ?_ ?_ ?_) <;> first | exact Or.inl (Sub.of hm rfl) | with_reducible exact Or.inr rfl | skip))
    | (fail_if_no_progress extract_lets) | split | (refine Keeps.snd (by assumption) ?_)
    | (refine Keeps.fst (by assumption) ?_) | (refine Keeps.snd2 (by assumption) ?_) | (dsimp only)
    | (dsimp +zetaDelta only)

theorem keeps_noteDialogue {msk : Nat} {s₀ s : State} (device : Stamp) (masterNs : Nat) (rt : Nat) (o : Rat) (hk : Keeps msk s₀ s)
    (hm : Sub 0x400 msk := by first | assumption | (apply Sub.of; assumption; rfl)) :
    Keeps msk s₀ (noteDialogue device masterNs rt o s) := by
  unfold noteDialogue
  repeat' first
    | (with_reducible assumption) | ((with_reducible refine Sub.of hm ?_); exact rfl)
    | (with_reducible refine Keeps.ite ?_ ?_) | (with_reducible apply keeps_State_modFantail)
    | (fail_if_no_progress ((with_reducible refine Keeps.upd ?_ ?_ ?_ ?_ ?_ ?_ ?_ ?_ ?_ ?_ ?_ ?_ ?_ ?_ ?_ ?_ ?_ ?_ ?_ ?_ ?_ ?_ ?_ ?_ ?_ ?_ ?_ ?_ ?_ ?_ ?_) <;> first | exact Or.inl (Sub.of hm rfl) | with_reducible exact Or.inr rfl | skip))
    | (fail_if_no_progress extract_lets) | split | (refine Keeps.snd (by assumption) ?_)
    | (refine Keeps.fst (by assumption) ?_) | (refine Keeps.snd2 (by assumption) ?_) | (dsimp only)
    | (dsimp +zetaDelta only)

theorem keeps_validDialogue {msk : Nat} {s₀ s : State} (device : Stamp) (masterNs : Nat) (rt : Nat) (hk : Keeps msk s₀ s)
    (hm : Sub 0x480 msk := by first | assumption | (apply Sub.of; assumption; rfl)) :
    Keeps msk s₀ (validDialogue device masterNs rt s) := by
  unfold validDialogue
  repeat' first
    | (with_reducible assumption) | ((with_reducible refine Sub.of hm ?_); exact rfl)
    | (with_reducible refine Keeps.ite ?_ ?_) | (with_reducible apply keeps_noteDialogue)
    | (with_reducible apply keeps_State_modFantail) | (with_reducible apply keeps_acquire)
    | (with_reducible apply keeps_post)
    | (fail_if_no_progress ((with_reducible refine Keeps.upd ?_ ?_ ?_ ?_ ?_ ?_ ?_ ?_ ?_ ?_ ?_ ?_ ?_ ?_ ?_ ?_ ?_ ?_ ?_ ?_ ?_ ?_ ?_ ?_ ?_ ?_ ?_ ?_ ?_ ?_ ?_) <;> first | exact Or.inl (Sub.of hm rfl) | with_reducible exact Or.inr rfl | skip))
    | (fail_if_no_progress extract_lets) | split | (refine Keeps.snd (by assumption) ?_)
    | (refine Keeps.fst (by assumption) ?_) | (refine Keeps.snd2 (by assumption) ?_) | (dsimp only)
    | (dsimp +zetaDelta only)

theorem keeps_ptmResponse {msk : Nat} {s₀ s : State} (step : Nat) (masterNs : Nat) (turnaroundNs : Nat) (hk : Keeps msk s₀ s)
    (hm : Sub 0x480 msk := by first | assumption | (apply Sub.of; assumption; rfl)) :
    Keeps msk s₀ (ptmResponse step masterNs turnaroundNs s) := by
  unfold ptmResponse
  repeat' first
    | (with_reducible assumption) | ((with_reducible refine Sub.of hm ?_); exact rfl)
    | (with_reducible refine Keeps.ite ?_ ?_) | (with_reducible apply keeps_tdcEdge)
    | (with_reducible apply keeps_State_modFantail) | (with_reducible apply keeps_post)
    | (with_reducible apply keeps_validDialogue)
    | (fail_if_no_progress ((with_reducible refine Keeps.upd ?_ ?_ ?_ ?_ ?_ ?_ ?_ ?_ ?_ ?_ ?_ ?_ ?_ ?_ ?_ ?_ ?_ ?_ ?_ ?_ ?_ ?_ ?_ ?_ ?_ ?_ ?_ ?_ ?_ ?_ ?_) <;> first | exact Or.inl (Sub.of hm rfl) | with_reducible exact Or.inr rfl | skip))
    | (fail_if_no_progress extract_lets) | split | (refine Keeps.snd (by assumption) ?_)
    | (refine Keeps.fst (by assumption) ?_) | (refine Keeps.snd2 (by assumption) ?_) | (dsimp only)
    | (dsimp +zetaDelta only)

theorem keeps_ptmStart {msk : Nat} {s₀ s : State} (step : Nat) (hk : Keeps msk s₀ s)
    (hm : Sub 0x200000480 msk := by first | assumption | (apply Sub.of; assumption; rfl)) :
    Keeps msk s₀ (ptmStart step s) := by
  unfold ptmStart
  repeat' first
    | (with_reducible assumption) | ((with_reducible refine Sub.of hm ?_); exact rfl)
    | (with_reducible refine Keeps.ite ?_ ?_) | (with_reducible apply keeps_State_modFantail)
    | (with_reducible apply keeps_post) | (with_reducible apply keeps_tdcEdge) | (with_reducible apply keeps_emit)
    | (fail_if_no_progress ((with_reducible refine Keeps.upd ?_ ?_ ?_ ?_ ?_ ?_ ?_ ?_ ?_ ?_ ?_ ?_ ?_ ?_ ?_ ?_ ?_ ?_ ?_ ?_ ?_ ?_ ?_ ?_ ?_ ?_ ?_ ?_ ?_ ?_ ?_) <;> first | exact Or.inl (Sub.of hm rfl) | with_reducible exact Or.inr rfl | skip))
    | (fail_if_no_progress extract_lets) | split | (refine Keeps.snd (by assumption) ?_)
    | (refine Keeps.fst (by assumption) ?_) | (refine Keeps.snd2 (by assumption) ?_) | (dsimp only)
    | (dsimp +zetaDelta only)

theorem keeps_ptmMissing {msk : Nat} {s₀ s : State} (hk : Keeps msk s₀ s)
    (hm : Sub 0x480 msk := by first | assumption | (apply Sub.of; assumption; rfl)) :
    Keeps msk s₀ (ptmMissing s) := by
  unfold ptmMissing
  repeat' first
    | (with_reducible assumption) | ((with_reducible refine Sub.of hm ?_); exact rfl)
    | (with_reducible refine Keeps.ite ?_ ?_) | (with_reducible apply keeps_post)
    | (with_reducible apply keeps_State_modFantail)
    | (fail_if_no_progress ((with_reducible refine Keeps.upd ?_ ?_ ?_ ?_ ?_ ?_ ?_ ?_ ?_ ?_ ?_ ?_ ?_ ?_ ?_ ?_ ?_ ?_ ?_ ?_ ?_ ?_ ?_ ?_ ?_ ?_ ?_ ?_ ?_ ?_ ?_) <;> first | exact Or.inl (Sub.of hm rfl) | with_reducible exact Or.inr rfl | skip))
    | (fail_if_no_progress extract_lets) | split | (refine Keeps.snd (by assumption) ?_)
    | (refine Keeps.fst (by assumption) ?_) | (refine Keeps.snd2 (by assumption) ?_) | (dsimp only)
    | (dsimp +zetaDelta only)

theorem keeps_fantailQuiet {msk : Nat} {s₀ s : State} (hk : Keeps msk s₀ s)
    (hm : Sub 0x480 msk := by first | assumption | (apply Sub.of; assumption; rfl)) :
    Keeps msk s₀ (fantailQuiet s) := by
  unfold fantailQuiet
  repeat' first
    | (with_reducible assumption) | ((with_reducible refine Sub.of hm ?_); exact rfl)
    | (with_reducible refine Keeps.ite ?_ ?_) | (with_reducible apply keeps_post)
    | (with_reducible apply keeps_State_modFantail)
    | (fail_if_no_progress ((with_reducible refine Keeps.upd ?_ ?_ ?_ ?_ ?_ ?_ ?_ ?_ ?_ ?_ ?_ ?_ ?_ ?_ ?_ ?_ ?_ ?_ ?_ ?_ ?_ ?_ ?_ ?_ ?_ ?_ ?_ ?_ ?_ ?_ ?_) <;> first | exact Or.inl (Sub.of hm rfl) | with_reducible exact Or.inr rfl | skip))
    | (fail_if_no_progress extract_lets) | split | (refine Keeps.snd (by assumption) ?_)
    | (refine Keeps.fst (by assumption) ?_) | (refine Keeps.snd2 (by assumption) ?_) | (dsimp only)
    | (dsimp +zetaDelta only)

theorem keeps_setPtmEnable {msk : Nat} {s₀ s : State} (on : Bool) (hk : Keeps msk s₀ s)
    (hm : Sub 0x401 msk := by first | assumption | (apply Sub.of; assumption; rfl)) :
    Keeps msk s₀ (setPtmEnable on s) := by
  unfold setPtmEnable
  repeat' first
    | (with_reducible assumption) | ((with_reducible refine Sub.of hm ?_); exact rfl)
    | (with_reducible refine Keeps.ite ?_ ?_) | (with_reducible apply keeps_State_modFantail)
    | (fail_if_no_progress ((with_reducible refine Keeps.upd ?_ ?_ ?_ ?_ ?_ ?_ ?_ ?_ ?_ ?_ ?_ ?_ ?_ ?_ ?_ ?_ ?_ ?_ ?_ ?_ ?_ ?_ ?_ ?_ ?_ ?_ ?_ ?_ ?_ ?_ ?_) <;> first | exact Or.inl (Sub.of hm rfl) | with_reducible exact Or.inr rfl | skip))
    | (fail_if_no_progress extract_lets) | split | (refine Keeps.snd (by assumption) ?_)
    | (refine Keeps.fst (by assumption) ?_) | (refine Keeps.snd2 (by assumption) ?_) | (dsimp only)
    | (dsimp +zetaDelta only)

theorem keeps_tdcCalibrate {msk : Nat} {s₀ s : State} (good : Bool) (hk : Keeps msk s₀ s)
    (hm : Sub 0x480 msk := by first | assumption | (apply Sub.of; assumption; rfl)) :
    Keeps msk s₀ (tdcCalibrate good s) := by
  unfold tdcCalibrate
  repeat' first
    | (with_reducible assumption) | ((with_reducible refine Sub.of hm ?_); exact rfl)
    | (with_reducible refine Keeps.ite ?_ ?_) | (with_reducible apply keeps_post)
    | (fail_if_no_progress ((with_reducible refine Keeps.upd ?_ ?_ ?_ ?_ ?_ ?_ ?_ ?_ ?_ ?_ ?_ ?_ ?_ ?_ ?_ ?_ ?_ ?_ ?_ ?_ ?_ ?_ ?_ ?_ ?_ ?_ ?_ ?_ ?_ ?_ ?_) <;> first | exact Or.inl (Sub.of hm rfl) | with_reducible exact Or.inr rfl | skip))
    | (fail_if_no_progress extract_lets) | split | (refine Keeps.snd (by assumption) ?_)
    | (refine Keeps.fst (by assumption) ?_) | (refine Keeps.snd2 (by assumption) ?_) | (dsimp only)
    | (dsimp +zetaDelta only)

theorem keeps_readTimeLo {msk : Nat} {s₀ s : State} (fn : Fn) (hk : Keeps msk s₀ s)
    (hm : Sub 0x2 msk := by first | assumption | (apply Sub.of; assumption; rfl)) :
    Keeps msk s₀ (readTimeLo fn s).2 := by
  unfold readTimeLo
  repeat' first
    | (with_reducible assumption) | ((with_reducible refine Sub.of hm ?_); exact rfl)
    | (with_reducible refine Keeps.ite ?_ ?_) | (with_reducible apply keeps_State_modFn)
    | (fail_if_no_progress ((with_reducible refine Keeps.upd ?_ ?_ ?_ ?_ ?_ ?_ ?_ ?_ ?_ ?_ ?_ ?_ ?_ ?_ ?_ ?_ ?_ ?_ ?_ ?_ ?_ ?_ ?_ ?_ ?_ ?_ ?_ ?_ ?_ ?_ ?_) <;> first | exact Or.inl (Sub.of hm rfl) | with_reducible exact Or.inr rfl | skip))
    | (intro _ _ _) | (intro _ _) | (fail_if_no_progress extract_lets) | split | (refine Keeps.snd (by assumption) ?_)
    | (refine Keeps.fst (by assumption) ?_) | (refine Keeps.snd2 (by assumption) ?_) | (dsimp only)
    | (dsimp +zetaDelta only)

theorem keeps_readTdcDrop {msk : Nat} {s₀ s : State} (hk : Keeps msk s₀ s)
    (hm : Sub 0x400 msk := by first | assumption | (apply Sub.of; assumption; rfl)) :
    Keeps msk s₀ (readTdcDrop s).2 := by
  unfold readTdcDrop
  repeat' first
    | (with_reducible assumption) | ((with_reducible refine Sub.of hm ?_); exact rfl)
    | (with_reducible refine Keeps.ite ?_ ?_)
    | (fail_if_no_progress ((with_reducible refine Keeps.upd ?_ ?_ ?_ ?_ ?_ ?_ ?_ ?_ ?_ ?_ ?_ ?_ ?_ ?_ ?_ ?_ ?_ ?_ ?_ ?_ ?_ ?_ ?_ ?_ ?_ ?_ ?_ ?_ ?_ ?_ ?_) <;> first | exact Or.inl (Sub.of hm rfl) | with_reducible exact Or.inr rfl | skip))
    | (fail_if_no_progress extract_lets) | split | (refine Keeps.snd (by assumption) ?_)
    | (refine Keeps.fst (by assumption) ?_) | (refine Keeps.snd2 (by assumption) ?_) | (dsimp only)
    | (dsimp +zetaDelta only)

theorem keeps_timeStatusBody {msk : Nat} {s₀ s : State} (h : Hamper) (hk : Keeps msk s₀ s)
    (hm : Sub 0x0 msk := by first | assumption | (apply Sub.of; assumption; rfl)) :
    KeepsV msk s₀ (timeStatusBody s h) := by
  unfold timeStatusBody
  repeat' first
    | (with_reducible exact KeepsV.refuse) | (with_reducible exact KeepsV.badArg)
    | (with_reducible exact KeepsV.notOwner) | (with_reducible exact KeepsV.wrongState)
    | (with_reducible exact KeepsV.noResource) | (with_reducible refine KeepsV.ok ?_)
    | (with_reducible refine KeepsV.accepted ?_) | (with_reducible refine KeepsV.later ?_)
    | (with_reducible refine KeepsV.ite ?_ ?_) | (with_reducible assumption)
    | ((with_reducible refine Sub.of hm ?_); exact rfl) | (with_reducible refine Keeps.ite ?_ ?_)
    | (with_reducible apply keeps_badArg)
    | (fail_if_no_progress ((with_reducible refine Keeps.upd ?_ ?_ ?_ ?_ ?_ ?_ ?_ ?_ ?_ ?_ ?_ ?_ ?_ ?_ ?_ ?_ ?_ ?_ ?_ ?_ ?_ ?_ ?_ ?_ ?_ ?_ ?_ ?_ ?_ ?_ ?_) <;> first | exact Or.inl (Sub.of hm rfl) | with_reducible exact Or.inr rfl | skip))
    | (fail_if_no_progress extract_lets) | split | (refine Keeps.snd (by assumption) ?_)
    | (refine Keeps.fst (by assumption) ?_) | (refine Keeps.snd2 (by assumption) ?_) | (dsimp only)
    | (dsimp +zetaDelta only)

theorem keeps_stepTime {msk : Nat} {s₀ s : State} (d : Int) (hk : Keeps msk s₀ s)
    (hm : Sub 0x280420492 msk := by first | assumption | (apply Sub.of; assumption; rfl)) :
    Keeps msk s₀ (stepTime d s) := by
  unfold stepTime
  repeat' first
    | (with_reducible assumption) | ((with_reducible refine Sub.of hm ?_); exact rfl)
    | (with_reducible refine Keeps.ite ?_ ?_) | (with_reducible apply keeps_stepCount)
    | (with_reducible apply keeps_noticeAll) | (with_reducible apply keeps_post)
    | (fail_if_no_progress ((with_reducible refine Keeps.upd ?_ ?_ ?_ ?_ ?_ ?_ ?_ ?_ ?_ ?_ ?_ ?_ ?_ ?_ ?_ ?_ ?_ ?_ ?_ ?_ ?_ ?_ ?_ ?_ ?_ ?_ ?_ ?_ ?_ ?_ ?_) <;> first | exact Or.inl (Sub.of hm rfl) | with_reducible exact Or.inr rfl | skip))
    | (fail_if_no_progress extract_lets) | split | (refine Keeps.snd (by assumption) ?_)
    | (refine Keeps.fst (by assumption) ?_) | (refine Keeps.snd2 (by assumption) ?_) | (dsimp only)
    | (dsimp +zetaDelta only)

theorem keeps_timeStepBody {msk : Nat} {s₀ s : State} (h : Hamper) (hk : Keeps msk s₀ s)
    (hm : Sub 0x280420492 msk := by first | assumption | (apply Sub.of; assumption; rfl)) :
    KeepsV msk s₀ (timeStepBody s h) := by
  unfold timeStepBody
  repeat' first
    | (with_reducible exact KeepsV.refuse) | (with_reducible exact KeepsV.badArg)
    | (with_reducible exact KeepsV.notOwner) | (with_reducible exact KeepsV.wrongState)
    | (with_reducible exact KeepsV.noResource) | (with_reducible refine KeepsV.ok ?_)
    | (with_reducible refine KeepsV.accepted ?_) | (with_reducible refine KeepsV.later ?_)
    | (with_reducible refine KeepsV.ite ?_ ?_) | (with_reducible assumption)
    | ((with_reducible refine Sub.of hm ?_); exact rfl) | (with_reducible refine Keeps.ite ?_ ?_)
    | (with_reducible apply keeps_wrongState) | (with_reducible apply keeps_badArg)
    | (with_reducible apply keeps_stepTime)
    | (fail_if_no_progress ((with_reducible refine Keeps.upd ?_ ?_ ?_ ?_ ?_ ?_ ?_ ?_ ?_ ?_ ?_ ?_ ?_ ?_ ?_ ?_ ?_ ?_ ?_ ?_ ?_ ?_ ?_ ?_ ?_ ?_ ?_ ?_ ?_ ?_ ?_) <;> first | exact Or.inl (Sub.of hm rfl) | with_reducible exact Or.inr rfl | skip))
    | (fail_if_no_progress extract_lets) | split | (refine Keeps.snd (by assumption) ?_)
    | (refine Keeps.fst (by assumption) ?_) | (refine Keeps.snd2 (by assumption) ?_) | (dsimp only)
    | (dsimp +zetaDelta only)

theorem keeps_fantailConfigBody {msk : Nat} {s₀ s : State} (h : Hamper) (hk : Keeps msk s₀ s)
    (hm : Sub 0x400 msk := by first | assumption | (apply Sub.of; assumption; rfl)) :
    KeepsV msk s₀ (fantailConfigBody s h) := by
  unfold fantailConfigBody
  repeat' first
    | (with_reducible exact KeepsV.refuse) | (with_reducible exact KeepsV.badArg)
    | (with_reducible exact KeepsV.notOwner) | (with_reducible exact KeepsV.wrongState)
    | (with_reducible exact KeepsV.noResource) | (with_reducible refine KeepsV.ok ?_)
    | (with_reducible refine KeepsV.accepted ?_) | (with_reducible refine KeepsV.later ?_)
    | (with_reducible refine KeepsV.ite ?_ ?_) | (with_reducible assumption)
    | ((with_reducible refine Sub.of hm ?_); exact rfl) | (with_reducible refine Keeps.ite ?_ ?_)
    | (with_reducible apply keeps_badArg) | (with_reducible apply keeps_State_modFantail)
    | (fail_if_no_progress ((with_reducible refine Keeps.upd ?_ ?_ ?_ ?_ ?_ ?_ ?_ ?_ ?_ ?_ ?_ ?_ ?_ ?_ ?_ ?_ ?_ ?_ ?_ ?_ ?_ ?_ ?_ ?_ ?_ ?_ ?_ ?_ ?_ ?_ ?_) <;> first | exact Or.inl (Sub.of hm rfl) | with_reducible exact Or.inr rfl | skip))
    | (fail_if_no_progress extract_lets) | split | (refine Keeps.snd (by assumption) ?_)
    | (refine Keeps.fst (by assumption) ?_) | (refine Keeps.snd2 (by assumption) ?_) | (dsimp only)
    | (dsimp +zetaDelta only)

theorem keeps_timeCorrelateBody {msk : Nat} {s₀ s : State} (h : Hamper) (hk : Keeps msk s₀ s)
    (hm : Sub 0x0 msk := by first | assumption | (apply Sub.of; assumption; rfl)) :
    KeepsV msk s₀ (timeCorrelateBody s h) := by
  unfold timeCorrelateBody
  repeat' first
    | (with_reducible exact KeepsV.refuse) | (with_reducible exact KeepsV.badArg)
    | (with_reducible exact KeepsV.notOwner) | (with_reducible exact KeepsV.wrongState)
    | (with_reducible exact KeepsV.noResource) | (with_reducible refine KeepsV.ok ?_)
    | (with_reducible refine KeepsV.accepted ?_) | (with_reducible refine KeepsV.later ?_)
    | (with_reducible refine KeepsV.ite ?_ ?_) | (with_reducible assumption)
    | ((with_reducible refine Sub.of hm ?_); exact rfl) | (with_reducible refine Keeps.ite ?_ ?_)
    | (with_reducible apply keeps_wrongState) | (with_reducible apply keeps_badArg)
    | (fail_if_no_progress ((with_reducible refine Keeps.upd ?_ ?_ ?_ ?_ ?_ ?_ ?_ ?_ ?_ ?_ ?_ ?_ ?_ ?_ ?_ ?_ ?_ ?_ ?_ ?_ ?_ ?_ ?_ ?_ ?_ ?_ ?_ ?_ ?_ ?_ ?_) <;> first | exact Or.inl (Sub.of hm rfl) | with_reducible exact Or.inr rfl | skip))
    | (fail_if_no_progress extract_lets) | split | (refine Keeps.snd (by assumption) ?_)
    | (refine Keeps.fst (by assumption) ?_) | (refine Keeps.snd2 (by assumption) ?_) | (dsimp only)
    | (dsimp +zetaDelta only)

theorem keeps_execTimeNsLoRead {msk : Nat} {s₀ s : State} (dt : Nat) (fn : Fn) (hk : Keeps msk s₀ (advance dt s))
    (hm : Sub 0x200000082 msk := by first | assumption | (apply Sub.of; assumption; rfl)) :
    KeepsA msk s₀ (execTimeNsLoRead dt fn s) := by
  unfold execTimeNsLoRead
  repeat' first
    | (with_reducible refine KeepsA.next ?_) | (with_reducible assumption)
    | ((with_reducible refine Sub.of hm ?_); exact rfl) | (with_reducible refine Keeps.ite ?_ ?_)
    | (with_reducible apply keeps_readRegister) | (with_reducible apply keeps_readTimeLo)
    | (fail_if_no_progress ((with_reducible refine Keeps.upd ?_ ?_ ?_ ?_ ?_ ?_ ?_ ?_ ?_ ?_ ?_ ?_ ?_ ?_ ?_ ?_ ?_ ?_ ?_ ?_ ?_ ?_ ?_ ?_ ?_ ?_ ?_ ?_ ?_ ?_ ?_) <;> first | exact Or.inl (Sub.of hm rfl) | with_reducible exact Or.inr rfl | skip))
    | (intro _ _ _) | (intro _ _) | (fail_if_no_progress extract_lets) | split | (refine Keeps.snd (by assumption) ?_)
    | (refine Keeps.fst (by assumption) ?_) | (refine Keeps.snd2 (by assumption) ?_) | (dsimp only)
    | (dsimp +zetaDelta only)

theorem keeps_execTdcDropRead {msk : Nat} {s₀ s : State} (dt : Nat) (fn : Fn) (hk : Keeps msk s₀ (advance dt s))
    (hm : Sub 0x200000482 msk := by first | assumption | (apply Sub.of; assumption; rfl)) :
    KeepsA msk s₀ (execTdcDropRead dt fn s) := by
  unfold execTdcDropRead
  repeat' first
    | (with_reducible refine KeepsA.next ?_) | (with_reducible assumption)
    | ((with_reducible refine Sub.of hm ?_); exact rfl) | (with_reducible refine Keeps.ite ?_ ?_)
    | (with_reducible apply keeps_readRegister) | (with_reducible apply keeps_readTdcDrop)
    | (fail_if_no_progress ((with_reducible refine Keeps.upd ?_ ?_ ?_ ?_ ?_ ?_ ?_ ?_ ?_ ?_ ?_ ?_ ?_ ?_ ?_ ?_ ?_ ?_ ?_ ?_ ?_ ?_ ?_ ?_ ?_ ?_ ?_ ?_ ?_ ?_ ?_) <;> first | exact Or.inl (Sub.of hm rfl) | with_reducible exact Or.inr rfl | skip))
    | (intro _ _ _) | (intro _ _) | (fail_if_no_progress extract_lets) | split | (refine Keeps.snd (by assumption) ?_)
    | (refine Keeps.fst (by assumption) ?_) | (refine Keeps.snd2 (by assumption) ?_) | (dsimp only)
    | (dsimp +zetaDelta only)

theorem keeps_execPtmDialogueStart {msk : Nat} {s₀ s : State} (dt : Nat) (step : Nat) (hk : Keeps msk s₀ (advance dt s))
    (hm : Sub 0x200000480 msk := by first | assumption | (apply Sub.of; assumption; rfl)) :
    KeepsA msk s₀ (execPtmDialogueStart dt step s) := by
  unfold execPtmDialogueStart
  repeat' first
    | (with_reducible refine KeepsA.next ?_) | (with_reducible assumption)
    | ((with_reducible refine Sub.of hm ?_); exact rfl) | (with_reducible refine Keeps.ite ?_ ?_)
    | (with_reducible apply keeps_ptmStart)
    | (fail_if_no_progress ((with_reducible refine Keeps.upd ?_ ?_ ?_ ?_ ?_ ?_ ?_ ?_ ?_ ?_ ?_ ?_ ?_ ?_ ?_ ?_ ?_ ?_ ?_ ?_ ?_ ?_ ?_ ?_ ?_ ?_ ?_ ?_ ?_ ?_ ?_) <;> first | exact Or.inl (Sub.of hm rfl) | with_reducible exact Or.inr rfl | skip))
    | (fail_if_no_progress extract_lets) | split | (refine Keeps.snd (by assumption) ?_)
    | (refine Keeps.fst (by assumption) ?_) | (refine Keeps.snd2 (by assumption) ?_) | (dsimp only)
    | (dsimp +zetaDelta only)

theorem keeps_execPtmDialogueResponse {msk : Nat} {s₀ s : State} (dt : Nat) (step : Nat) (masterNs : Nat) (turnaroundNs : Nat) (hk : Keeps msk s₀ (advance dt s))
    (hm : Sub 0x480 msk := by first | assumption | (apply Sub.of; assumption; rfl)) :
    KeepsA msk s₀ (execPtmDialogueResponse dt step masterNs turnaroundNs s) := by
  unfold execPtmDialogueResponse
  repeat' first
    | (with_reducible refine KeepsA.next ?_) | (with_reducible assumption)
    | ((with_reducible refine Sub.of hm ?_); exact rfl) | (with_reducible refine Keeps.ite ?_ ?_)
    | (with_reducible apply keeps_ptmResponse)
    | (fail_if_no_progress ((with_reducible refine Keeps.upd ?_ ?_ ?_ ?_ ?_ ?_ ?_ ?_ ?_ ?_ ?_ ?_ ?_ ?_ ?_ ?_ ?_ ?_ ?_ ?_ ?_ ?_ ?_ ?_ ?_ ?_ ?_ ?_ ?_ ?_ ?_) <;> first | exact Or.inl (Sub.of hm rfl) | with_reducible exact Or.inr rfl | skip))
    | (fail_if_no_progress extract_lets) | split | (refine Keeps.snd (by assumption) ?_)
    | (refine Keeps.fst (by assumption) ?_) | (refine Keeps.snd2 (by assumption) ?_) | (dsimp only)
    | (dsimp +zetaDelta only)

theorem keeps_execPtmDialogueTimeout {msk : Nat} {s₀ s : State} (dt : Nat) (hk : Keeps msk s₀ (advance dt s))
    (hm : Sub 0x480 msk := by first | assumption | (apply Sub.of; assumption; rfl)) :
    KeepsA msk s₀ (execPtmDialogueTimeout dt s) := by
  unfold execPtmDialogueTimeout
  repeat' first
    | (with_reducible refine KeepsA.next ?_) | (with_reducible assumption)
    | ((with_reducible refine Sub.of hm ?_); exact rfl) | (with_reducible refine Keeps.ite ?_ ?_)
    | (with_reducible apply keeps_ptmMissing)
    | (fail_if_no_progress ((with_reducible refine Keeps.upd ?_ ?_ ?_ ?_ ?_ ?_ ?_ ?_ ?_ ?_ ?_ ?_ ?_ ?_ ?_ ?_ ?_ ?_ ?_ ?_ ?_ ?_ ?_ ?_ ?_ ?_ ?_ ?_ ?_ ?_ ?_) <;> first | exact Or.inl (Sub.of hm rfl) | with_reducible exact Or.inr rfl | skip))
    | (fail_if_no_progress extract_lets) | split | (refine Keeps.snd (by assumption) ?_)
    | (refine Keeps.fst (by assumption) ?_) | (refine Keeps.snd2 (by assumption) ?_) | (dsimp only)
    | (dsimp +zetaDelta only)

theorem keeps_execFantailHoldoverTimeout {msk : Nat} {s₀ s : State} (dt : Nat) (hk : Keeps msk s₀ (advance dt s))
    (hm : Sub 0x480 msk := by first | assumption | (apply Sub.of; assumption; rfl)) :
    KeepsA msk s₀ (execFantailHoldoverTimeout dt s) := by
  unfold execFantailHoldoverTimeout
  repeat' first
    | (with_reducible refine KeepsA.next ?_) | (with_reducible assumption)
    | ((with_reducible refine Sub.of hm ?_); exact rfl) | (with_reducible refine Keeps.ite ?_ ?_)
    | (with_reducible apply keeps_fantailQuiet)
    | (fail_if_no_progress ((with_reducible refine Keeps.upd ?_ ?_ ?_ ?_ ?_ ?_ ?_ ?_ ?_ ?_ ?_ ?_ ?_ ?_ ?_ ?_ ?_ ?_ ?_ ?_ ?_ ?_ ?_ ?_ ?_ ?_ ?_ ?_ ?_ ?_ ?_) <;> first | exact Or.inl (Sub.of hm rfl) | with_reducible exact Or.inr rfl | skip))
    | (fail_if_no_progress extract_lets) | split | (refine Keeps.snd (by assumption) ?_)
    | (refine Keeps.fst (by assumption) ?_) | (refine Keeps.snd2 (by assumption) ?_) | (dsimp only)
    | (dsimp +zetaDelta only)

theorem keeps_execPtmEnableChange {msk : Nat} {s₀ s : State} (dt : Nat) (on : Bool) (hk : Keeps msk s₀ (advance dt s))
    (hm : Sub 0x401 msk := by first | assumption | (apply Sub.of; assumption; rfl)) :
    KeepsA msk s₀ (execPtmEnableChange dt on s) := by
  unfold execPtmEnableChange
  repeat' first
    | (with_reducible refine KeepsA.next ?_) | (with_reducible assumption)
    | ((with_reducible refine Sub.of hm ?_); exact rfl) | (with_reducible refine Keeps.ite ?_ ?_)
    | (with_reducible apply keeps_setPtmEnable)
    | (fail_if_no_progress ((with_reducible refine Keeps.upd ?_ ?_ ?_ ?_ ?_ ?_ ?_ ?_ ?_ ?_ ?_ ?_ ?_ ?_ ?_ ?_ ?_ ?_ ?_ ?_ ?_ ?_ ?_ ?_ ?_ ?_ ?_ ?_ ?_ ?_ ?_) <;> first | exact Or.inl (Sub.of hm rfl) | with_reducible exact Or.inr rfl | skip))
    | (fail_if_no_progress extract_lets) | split | (refine Keeps.snd (by assumption) ?_)
    | (refine Keeps.fst (by assumption) ?_) | (refine Keeps.snd2 (by assumption) ?_) | (dsimp only)
    | (dsimp +zetaDelta only)

theorem keeps_execTdcCalibration {msk : Nat} {s₀ s : State} (dt : Nat) (good : Bool) (hk : Keeps msk s₀ (advance dt s))
    (hm : Sub 0x480 msk := by first | assumption | (apply Sub.of; assumption; rfl)) :
    KeepsA msk s₀ (execTdcCalibration dt good s) := by
  unfold execTdcCalibration
  repeat' first
    | (with_reducible refine KeepsA.next ?_) | (with_reducible assumption)
    | ((with_reducible refine Sub.of hm ?_); exact rfl) | (with_reducible refine Keeps.ite ?_ ?_)
    | (with_reducible apply keeps_tdcCalibrate)
    | (fail_if_no_progress ((with_reducible refine Keeps.upd ?_ ?_ ?_ ?_ ?_ ?_ ?_ ?_ ?_ ?_ ?_ ?_ ?_ ?_ ?_ ?_ ?_ ?_ ?_ ?_ ?_ ?_ ?_ ?_ ?_ ?_ ?_ ?_ ?_ ?_ ?_) <;> first | exact Or.inl (Sub.of hm rfl) | with_reducible exact Or.inr rfl | skip))
    | (fail_if_no_progress extract_lets) | split | (refine Keeps.snd (by assumption) ?_)
    | (refine Keeps.fst (by assumption) ?_) | (refine Keeps.snd2 (by assumption) ?_) | (dsimp only)
    | (dsimp +zetaDelta only)

theorem keeps_execTimeStatus {msk : Nat} {s₀ s : State} (dt : Nat) (r : Req) (hk : Keeps msk s₀ (advance dt s))
    (hm : Sub 0x2000000C6 msk := by first | assumption | (apply Sub.of; assumption; rfl)) :
    KeepsA msk s₀ (execTimeStatus dt r s) := by
  unfold execTimeStatus
  repeat' first
    | (with_reducible refine KeepsA.next ?_) | (with_reducible assumption)
    | ((with_reducible refine Sub.of hm ?_); exact rfl) | (with_reducible refine Keeps.ite ?_ ?_)
    | (with_reducible apply keeps_serve) | (with_reducible apply keeps_timeStatusBody)
    | (fail_if_no_progress ((with_reducible refine Keeps.upd ?_ ?_ ?_ ?_ ?_ ?_ ?_ ?_ ?_ ?_ ?_ ?_ ?_ ?_ ?_ ?_ ?_ ?_ ?_ ?_ ?_ ?_ ?_ ?_ ?_ ?_ ?_ ?_ ?_ ?_ ?_) <;> first | exact Or.inl (Sub.of hm rfl) | with_reducible exact Or.inr rfl | skip))
    | (intro _ _ _) | (intro _ _) | (fail_if_no_progress extract_lets) | split | (refine Keeps.snd (by assumption) ?_)
    | (refine Keeps.fst (by assumption) ?_) | (refine Keeps.snd2 (by assumption) ?_) | (dsimp only)
    | (dsimp +zetaDelta only)

theorem keeps_execTimeStep {msk : Nat} {s₀ s : State} (dt : Nat) (r : Req) (hk : Keeps msk s₀ (advance dt s))
    (hm : Sub 0x2804204D6 msk := by first | assumption | (apply Sub.of; assumption; rfl)) :
    KeepsA msk s₀ (execTimeStep dt r s) := by
  unfold execTimeStep
  repeat' first
    | (with_reducible refine KeepsA.next ?_) | (with_reducible assumption)
    | ((with_reducible refine Sub.of hm ?_); exact rfl) | (with_reducible refine Keeps.ite ?_ ?_)
    | (with_reducible apply keeps_serve) | (with_reducible apply keeps_timeStepBody)
    | (fail_if_no_progress ((with_reducible refine Keeps.upd ?_ ?_ ?_ ?_ ?_ ?_ ?_ ?_ ?_ ?_ ?_ ?_ ?_ ?_ ?_ ?_ ?_ ?_ ?_ ?_ ?_ ?_ ?_ ?_ ?_ ?_ ?_ ?_ ?_ ?_ ?_) <;> first | exact Or.inl (Sub.of hm rfl) | with_reducible exact Or.inr rfl | skip))
    | (intro _ _ _) | (intro _ _) | (fail_if_no_progress extract_lets) | split | (refine Keeps.snd (by assumption) ?_)
    | (refine Keeps.fst (by assumption) ?_) | (refine Keeps.snd2 (by assumption) ?_) | (dsimp only)
    | (dsimp +zetaDelta only)

theorem keeps_execFantailConfig {msk : Nat} {s₀ s : State} (dt : Nat) (r : Req) (hk : Keeps msk s₀ (advance dt s))
    (hm : Sub 0x2000004C6 msk := by first | assumption | (apply Sub.of; assumption; rfl)) :
    KeepsA msk s₀ (execFantailConfig dt r s) := by
  unfold execFantailConfig
  repeat' first
    | (with_reducible refine KeepsA.next ?_) | (with_reducible assumption)
    | ((with_reducible refine Sub.of hm ?_); exact rfl) | (with_reducible refine Keeps.ite ?_ ?_)
    | (with_reducible apply keeps_serve) | (with_reducible apply keeps_fantailConfigBody)
    | (fail_if_no_progress ((with_reducible refine Keeps.upd ?_ ?_ ?_ ?_ ?_ ?_ ?_ ?_ ?_ ?_ ?_ ?_ ?_ ?_ ?_ ?_ ?_ ?_ ?_ ?_ ?_ ?_ ?_ ?_ ?_ ?_ ?_ ?_ ?_ ?_ ?_) <;> first | exact Or.inl (Sub.of hm rfl) | with_reducible exact Or.inr rfl | skip))
    | (intro _ _ _) | (intro _ _) | (fail_if_no_progress extract_lets) | split | (refine Keeps.snd (by assumption) ?_)
    | (refine Keeps.fst (by assumption) ?_) | (refine Keeps.snd2 (by assumption) ?_) | (dsimp only)
    | (dsimp +zetaDelta only)

theorem keeps_execTimeCorrelate {msk : Nat} {s₀ s : State} (dt : Nat) (r : Req) (hk : Keeps msk s₀ (advance dt s))
    (hm : Sub 0x2000000C6 msk := by first | assumption | (apply Sub.of; assumption; rfl)) :
    KeepsA msk s₀ (execTimeCorrelate dt r s) := by
  unfold execTimeCorrelate
  repeat' first
    | (with_reducible refine KeepsA.next ?_) | (with_reducible assumption)
    | ((with_reducible refine Sub.of hm ?_); exact rfl) | (with_reducible refine Keeps.ite ?_ ?_)
    | (with_reducible apply keeps_serve) | (with_reducible apply keeps_timeCorrelateBody)
    | (fail_if_no_progress ((with_reducible refine Keeps.upd ?_ ?_ ?_ ?_ ?_ ?_ ?_ ?_ ?_ ?_ ?_ ?_ ?_ ?_ ?_ ?_ ?_ ?_ ?_ ?_ ?_ ?_ ?_ ?_ ?_ ?_ ?_ ?_ ?_ ?_ ?_) <;> first | exact Or.inl (Sub.of hm rfl) | with_reducible exact Or.inr rfl | skip))
    | (intro _ _ _) | (intro _ _) | (fail_if_no_progress extract_lets) | split | (refine Keeps.snd (by assumption) ?_)
    | (refine Keeps.fst (by assumption) ?_) | (refine Keeps.snd2 (by assumption) ?_) | (dsimp only)
    | (dsimp +zetaDelta only)

end Sys2Proof.Machine
end

