-- ==== Sys2Proof/Laws/KeepsWeirOps.lean ====
section
/-! SUPPORT. `Keeps` of the operations and meanings of Machine/WeirOps.lean. -/

set_option Elab.async false

set_option linter.unusedTactic false
set_option linter.unreachableTactic false

namespace Sys2Proof.Machine

theorem keeps_State_modWeir {msk : Nat} {s₀ s : State} (g : Weir → Weir) (hk : Keeps msk s₀ s)
    (hm : Sub 0x10000000 msk := by first | assumption | (apply Sub.of; assumption; rfl)) :
    Keeps msk s₀ (State.modWeir s g) := by
  unfold State.modWeir
  repeat' first
    | (with_reducible assumption) | ((with_reducible refine Sub.of hm ?_); exact rfl)
    | (with_reducible refine Keeps.ite ?_ ?_)
    | (fail_if_no_progress ((with_reducible refine Keeps.upd ?_ ?_ ?_ ?_ ?_ ?_ ?_ ?_ ?_ ?_ ?_ ?_ ?_ ?_ ?_ ?_ ?_ ?_ ?_ ?_ ?_ ?_ ?_ ?_ ?_ ?_ ?_ ?_ ?_ ?_ ?_) <;> first | exact Or.inl (Sub.of hm rfl) | with_reducible exact Or.inr rfl | skip))
    | (fail_if_no_progress extract_lets) | split | (refine Keeps.snd (by assumption) ?_)
    | (refine Keeps.fst (by assumption) ?_) | (refine Keeps.snd2 (by assumption) ?_) | (dsimp only)
    | (dsimp +zetaDelta only)

theorem keeps_judgeSFault {msk : Nat} {s₀ s : State} (hk : Keeps msk s₀ s)
    (hm : Sub 0x10000080 msk := by first | assumption | (apply Sub.of; assumption; rfl)) :
    Keeps msk s₀ (judgeSFault s) := by
  unfold judgeSFault
  repeat' first
    | (with_reducible assumption) | ((with_reducible refine Sub.of hm ?_); exact rfl)
    | (with_reducible refine Keeps.ite ?_ ?_) | (with_reducible apply keeps_State_modWeir)
    | (with_reducible apply keeps_post)
    | (fail_if_no_progress ((with_reducible refine Keeps.upd ?_ ?_ ?_ ?_ ?_ ?_ ?_ ?_ ?_ ?_ ?_ ?_ ?_ ?_ ?_ ?_ ?_ ?_ ?_ ?_ ?_ ?_ ?_ ?_ ?_ ?_ ?_ ?_ ?_ ?_ ?_) <;> first | exact Or.inl (Sub.of hm rfl) | with_reducible exact Or.inr rfl | skip))
    | (fail_if_no_progress extract_lets) | split | (refine Keeps.snd (by assumption) ?_)
    | (refine Keeps.fst (by assumption) ?_) | (refine Keeps.snd2 (by assumption) ?_) | (dsimp only)
    | (dsimp +zetaDelta only)

theorem keeps_recompute {msk : Nat} {s₀ s : State} (hk : Keeps msk s₀ s)
    (hm : Sub 0x10000080 msk := by first | assumption | (apply Sub.of; assumption; rfl)) :
    Keeps msk s₀ (recompute s) := by
  unfold recompute
  repeat' first
    | (with_reducible assumption) | ((with_reducible refine Sub.of hm ?_); exact rfl)
    | (with_reducible refine Keeps.ite ?_ ?_) | (with_reducible apply keeps_judgeSFault)
    | (with_reducible apply keeps_State_modWeir) | (with_reducible apply keeps_post)
    | (with_reducible refine Keeps.foldl (fun _ _ _ => ?_) ?_)
    | (with_reducible refine Keeps.foldl2 (fun _ _ _ => ?_) ?_)
    | (with_reducible refine Keeps.foldl1 (fun _ _ _ => ?_) ?_)
    | (fail_if_no_progress ((with_reducible refine Keeps.upd ?_ ?_ ?_ ?_ ?_ ?_ ?_ ?_ ?_ ?_ ?_ ?_ ?_ ?_ ?_ ?_ ?_ ?_ ?_ ?_ ?_ ?_ ?_ ?_ ?_ ?_ ?_ ?_ ?_ ?_ ?_) <;> first | exact Or.inl (Sub.of hm rfl) | with_reducible exact Or.inr rfl | skip))
    | (fail_if_no_progress extract_lets) | split | (refine Keeps.snd (by assumption) ?_)
    | (refine Keeps.fst (by assumption) ?_) | (refine Keeps.snd2 (by assumption) ?_) | (dsimp only)
    | (dsimp +zetaDelta only)

theorem keeps_setFlow {msk : Nat} {s₀ s : State} (f : Flow) (hk : Keeps msk s₀ s)
    (hm : Sub 0x10000080 msk := by first | assumption | (apply Sub.of; assumption; rfl)) :
    Keeps msk s₀ (setFlow f s) := by
  unfold setFlow
  repeat' first
    | (with_reducible assumption) | ((with_reducible refine Sub.of hm ?_); exact rfl)
    | (with_reducible refine Keeps.ite ?_ ?_) | (with_reducible apply keeps_recompute)
    | (with_reducible apply keeps_State_modWeir)
    | (fail_if_no_progress ((with_reducible refine Keeps.upd ?_ ?_ ?_ ?_ ?_ ?_ ?_ ?_ ?_ ?_ ?_ ?_ ?_ ?_ ?_ ?_ ?_ ?_ ?_ ?_ ?_ ?_ ?_ ?_ ?_ ?_ ?_ ?_ ?_ ?_ ?_) <;> first | exact Or.inl (Sub.of hm rfl) | with_reducible exact Or.inr rfl | skip))
    | (fail_if_no_progress extract_lets) | split | (refine Keeps.snd (by assumption) ?_)
    | (refine Keeps.fst (by assumption) ?_) | (refine Keeps.snd2 (by assumption) ?_) | (dsimp only)
    | (dsimp +zetaDelta only)

theorem keeps_endFlow {msk : Nat} {s₀ s : State} (kind : Nat) (index : Nat) (hk : Keeps msk s₀ s)
    (hm : Sub 0x10000080 msk := by first | assumption | (apply Sub.of; assumption; rfl)) :
    Keeps msk s₀ (endFlow kind index s) := by
  unfold endFlow
  repeat' first
    | (with_reducible assumption) | ((with_reducible refine Sub.of hm ?_); exact rfl)
    | (with_reducible refine Keeps.ite ?_ ?_) | (with_reducible apply keeps_recompute)
    | (with_reducible apply keeps_State_modWeir)
    | (fail_if_no_progress ((with_reducible refine Keeps.upd ?_ ?_ ?_ ?_ ?_ ?_ ?_ ?_ ?_ ?_ ?_ ?_ ?_ ?_ ?_ ?_ ?_ ?_ ?_ ?_ ?_ ?_ ?_ ?_ ?_ ?_ ?_ ?_ ?_ ?_ ?_) <;> first | exact Or.inl (Sub.of hm rfl) | with_reducible exact Or.inr rfl | skip))
    | (fail_if_no_progress extract_lets) | split | (refine Keeps.snd (by assumption) ?_)
    | (refine Keeps.fst (by assumption) ?_) | (refine Keeps.snd2 (by assumption) ?_) | (dsimp only)
    | (dsimp +zetaDelta only)

theorem keeps_countShed {msk : Nat} {s₀ s : State} (fn : Fn) (hk : Keeps msk s₀ s)
    (hm : Sub 0x10000000 msk := by first | assumption | (apply Sub.of; assumption; rfl)) :
    Keeps msk s₀ (countShed fn s) := by
  unfold countShed
  repeat' first
    | (with_reducible assumption) | ((with_reducible refine Sub.of hm ?_); exact rfl)
    | (with_reducible refine Keeps.ite ?_ ?_) | (with_reducible apply keeps_State_modWeir)
    | (fail_if_no_progress ((with_reducible refine Keeps.upd ?_ ?_ ?_ ?_ ?_ ?_ ?_ ?_ ?_ ?_ ?_ ?_ ?_ ?_ ?_ ?_ ?_ ?_ ?_ ?_ ?_ ?_ ?_ ?_ ?_ ?_ ?_ ?_ ?_ ?_ ?_) <;> first | exact Or.inl (Sub.of hm rfl) | with_reducible exact Or.inr rfl | skip))
    | (fail_if_no_progress extract_lets) | split | (refine Keeps.snd (by assumption) ?_)
    | (refine Keeps.fst (by assumption) ?_) | (refine Keeps.snd2 (by assumption) ?_) | (dsimp only)
    | (dsimp +zetaDelta only)

theorem keeps_correctedRead {msk : Nat} {s₀ s : State} (st : Store) (hk : Keeps msk s₀ s)
    (hm : Sub 0x10000080 msk := by first | assumption | (apply Sub.of; assumption; rfl)) :
    Keeps msk s₀ (correctedRead st s) := by
  unfold correctedRead
  repeat' first
    | (with_reducible assumption) | ((with_reducible refine Sub.of hm ?_); exact rfl)
    | (with_reducible refine Keeps.ite ?_ ?_) | (with_reducible apply keeps_post)
    | (with_reducible apply keeps_State_modWeir)
    | (fail_if_no_progress ((with_reducible refine Keeps.upd ?_ ?_ ?_ ?_ ?_ ?_ ?_ ?_ ?_ ?_ ?_ ?_ ?_ ?_ ?_ ?_ ?_ ?_ ?_ ?_ ?_ ?_ ?_ ?_ ?_ ?_ ?_ ?_ ?_ ?_ ?_) <;> first | exact Or.inl (Sub.of hm rfl) | with_reducible exact Or.inr rfl | skip))
    | (fail_if_no_progress extract_lets) | split | (refine Keeps.snd (by assumption) ?_)
    | (refine Keeps.fst (by assumption) ?_) | (refine Keeps.snd2 (by assumption) ?_) | (dsimp only)
    | (dsimp +zetaDelta only)

theorem keeps_correctedReads {msk : Nat} {s₀ s : State} (st : Store) (n : Nat) (hk : Keeps msk s₀ s)
    (hm : Sub 0x10000080 msk := by first | assumption | (apply Sub.of; assumption; rfl)) : Keeps msk s₀ (correctedReads st n s) := by
  induction n generalizing s with
  | zero => exact hk
  | succ n ih => exact ih (keeps_correctedRead _ hk)

theorem keeps_millUncorrectable {msk : Nat} {s₀ s : State} (hk : Keeps msk s₀ s)
    (hm : Sub 0x10000000 msk := by first | assumption | (apply Sub.of; assumption; rfl)) :
    Keeps msk s₀ (millUncorrectable s) := by
  unfold millUncorrectable
  repeat' first
    | (with_reducible assumption) | ((with_reducible refine Sub.of hm ?_); exact rfl)
    | (with_reducible refine Keeps.ite ?_ ?_) | (with_reducible apply keeps_State_modWeir)
    | (fail_if_no_progress ((with_reducible refine Keeps.upd ?_ ?_ ?_ ?_ ?_ ?_ ?_ ?_ ?_ ?_ ?_ ?_ ?_ ?_ ?_ ?_ ?_ ?_ ?_ ?_ ?_ ?_ ?_ ?_ ?_ ?_ ?_ ?_ ?_ ?_ ?_) <;> first | exact Or.inl (Sub.of hm rfl) | with_reducible exact Or.inr rfl | skip))
    | (fail_if_no_progress extract_lets) | split | (refine Keeps.snd (by assumption) ?_)
    | (refine Keeps.fst (by assumption) ?_) | (refine Keeps.snd2 (by assumption) ?_) | (dsimp only)
    | (dsimp +zetaDelta only)

theorem keeps_uncorrectable {msk : Nat} {s₀ s : State} (addr : Nat) (code : Nat) (unit : Nat) (hk : Keeps msk s₀ s)
    (hm : Sub 0x10000080 msk := by first | assumption | (apply Sub.of; assumption; rfl)) :
    Keeps msk s₀ (uncorrectable addr code unit s) := by
  unfold uncorrectable
  repeat' first
    | (with_reducible assumption) | ((with_reducible refine Sub.of hm ?_); exact rfl)
    | (with_reducible refine Keeps.ite ?_ ?_) | (with_reducible apply keeps_post)
    | (with_reducible apply keeps_State_modWeir)
    | (fail_if_no_progress ((with_reducible refine Keeps.upd ?_ ?_ ?_ ?_ ?_ ?_ ?_ ?_ ?_ ?_ ?_ ?_ ?_ ?_ ?_ ?_ ?_ ?_ ?_ ?_ ?_ ?_ ?_ ?_ ?_ ?_ ?_ ?_ ?_ ?_ ?_) <;> first | exact Or.inl (Sub.of hm rfl) | with_reducible exact Or.inr rfl | skip))
    | (fail_if_no_progress extract_lets) | split | (refine Keeps.snd (by assumption) ?_)
    | (refine Keeps.fst (by assumption) ?_) | (refine Keeps.snd2 (by assumption) ?_) | (dsimp only)
    | (dsimp +zetaDelta only)

theorem keeps_readErrors {msk : Nat} {s₀ s : State} (st : Option Store) (addr : Nat) (unit : Nat) (e : MemErrors) (hk : Keeps msk s₀ s)
    (hm : Sub 0x10000080 msk := by first | assumption | (apply Sub.of; assumption; rfl)) :
    Keeps msk s₀ (readErrors st addr unit e s) := by
  unfold readErrors
  repeat' first
    | (with_reducible assumption) | ((with_reducible refine Sub.of hm ?_); exact rfl)
    | (with_reducible refine Keeps.ite ?_ ?_) | (with_reducible apply keeps_correctedReads)
    | (with_reducible apply keeps_uncorrectable) | (with_reducible apply keeps_millUncorrectable)
    | (fail_if_no_progress ((with_reducible refine Keeps.upd ?_ ?_ ?_ ?_ ?_ ?_ ?_ ?_ ?_ ?_ ?_ ?_ ?_ ?_ ?_ ?_ ?_ ?_ ?_ ?_ ?_ ?_ ?_ ?_ ?_ ?_ ?_ ?_ ?_ ?_ ?_) <;> first | exact Or.inl (Sub.of hm rfl) | with_reducible exact Or.inr rfl | skip))
    | (fail_if_no_progress extract_lets) | split | (refine Keeps.snd (by assumption) ?_)
    | (refine Keeps.fst (by assumption) ?_) | (refine Keeps.snd2 (by assumption) ?_) | (dsimp only)
    | (dsimp +zetaDelta only)

end Sys2Proof.Machine
end

