-- ==== Sys2Proof/Laws/KeepsStartOps.lean ====
section
/-! SUPPORT. `Keeps` of the operations and meanings of Machine/StartOps.lean. -/

set_option Elab.async false

set_option linter.unusedTactic false
set_option linter.unreachableTactic false

namespace Sys2Proof.Machine

theorem keeps_State_modStart {msk : Nat} {s₀ s : State} (g : Start → Start) (hk : Keeps msk s₀ s)
    (hm : Sub 0x1000 msk := by first | assumption | (apply Sub.of; assumption; rfl)) :
    Keeps msk s₀ (State.modStart s g) := by
  unfold State.modStart
  repeat' first
    | (with_reducible assumption) | ((with_reducible refine Sub.of hm ?_); exact rfl)
    | (with_reducible refine Keeps.ite ?_ ?_)
    | (fail_if_no_progress ((with_reducible refine Keeps.upd ?_ ?_ ?_ ?_ ?_ ?_ ?_ ?_ ?_ ?_ ?_ ?_ ?_ ?_ ?_ ?_ ?_ ?_ ?_ ?_ ?_ ?_ ?_ ?_ ?_ ?_ ?_ ?_ ?_ ?_ ?_) <;> first | exact Or.inl (Sub.of hm rfl) | with_reducible exact Or.inr rfl | skip))
    | (fail_if_no_progress extract_lets) | split | (refine Keeps.snd (by assumption) ?_)
    | (refine Keeps.fst (by assumption) ?_) | (refine Keeps.snd2 (by assumption) ?_) | (dsimp only)
    | (dsimp +zetaDelta only)

theorem keeps_State_modPower {msk : Nat} {s₀ s : State} (g : Power → Power) (hk : Keeps msk s₀ s)
    (hm : Sub 0x800 msk := by first | assumption | (apply Sub.of; assumption; rfl)) :
    Keeps msk s₀ (State.modPower s g) := by
  unfold State.modPower
  repeat' first
    | (with_reducible assumption) | ((with_reducible refine Sub.of hm ?_); exact rfl)
    | (with_reducible refine Keeps.ite ?_ ?_)
    | (fail_if_no_progress ((with_reducible refine Keeps.upd ?_ ?_ ?_ ?_ ?_ ?_ ?_ ?_ ?_ ?_ ?_ ?_ ?_ ?_ ?_ ?_ ?_ ?_ ?_ ?_ ?_ ?_ ?_ ?_ ?_ ?_ ?_ ?_ ?_ ?_ ?_) <;> first | exact Or.inl (Sub.of hm rfl) | with_reducible exact Or.inr rfl | skip))
    | (fail_if_no_progress extract_lets) | split | (refine Keeps.snd (by assumption) ?_)
    | (refine Keeps.fst (by assumption) ?_) | (refine Keeps.snd2 (by assumption) ?_) | (dsimp only)
    | (dsimp +zetaDelta only)

theorem keeps_State_modMram {msk : Nat} {s₀ s : State} (g : Mram → Mram) (hk : Keeps msk s₀ s)
    (hs : (g s.mram).identity.serial = s.mram.identity.serial)
    (hl : s.mram.identity.lock = true → (g s.mram).identity.lock = true)
    (hm : Sub 0x2000 msk := by first | assumption | (apply Sub.of; assumption; rfl)) : Keeps msk s₀ (s.modMram g) :=
  hk.trans ⟨⟨rfl, Nat.le_refl _, Nat.le_refl _, List.suffix_refl _, id, id, hs, hl⟩,
    by constructor <;> first | exact fun hb => Sub.no hb (Sub.of hm rfl) rfl | exact fun _ => rfl | rfl⟩

theorem keeps_extend {msk : Nat} {s₀ s : State} (slot : Fin 8) (extender : Nat) (bytes : List Byte) (hk : Keeps msk s₀ s)
    (hm : Sub 0x4080 msk := by first | assumption | (apply Sub.of; assumption; rfl)) :
    Keeps msk s₀ (extend slot extender bytes s) := by
  unfold extend
  repeat' first
    | (with_reducible assumption) | ((with_reducible refine Sub.of hm ?_); exact rfl)
    | (with_reducible refine Keeps.ite ?_ ?_) | (with_reducible apply keeps_post)
    | (fail_if_no_progress ((with_reducible refine Keeps.upd ?_ ?_ ?_ ?_ ?_ ?_ ?_ ?_ ?_ ?_ ?_ ?_ ?_ ?_ ?_ ?_ ?_ ?_ ?_ ?_ ?_ ?_ ?_ ?_ ?_ ?_ ?_ ?_ ?_ ?_ ?_) <;> first | exact Or.inl (Sub.of hm rfl) | with_reducible exact Or.inr rfl | skip))
    | (fail_if_no_progress extract_lets) | split | (refine Keeps.snd (by assumption) ?_)
    | (refine Keeps.fst (by assumption) ?_) | (refine Keeps.snd2 (by assumption) ?_) | (dsimp only)
    | (dsimp +zetaDelta only)

theorem keeps_extendDebug {msk : Nat} {s₀ s : State} (isOpen : Bool) (hk : Keeps msk s₀ s)
    (hm : Sub 0x4080 msk := by first | assumption | (apply Sub.of; assumption; rfl)) :
    Keeps msk s₀ (extendDebug isOpen s) := by
  unfold extendDebug
  repeat' first
    | (with_reducible assumption) | ((with_reducible refine Sub.of hm ?_); exact rfl)
    | (with_reducible refine Keeps.ite ?_ ?_) | (with_reducible apply keeps_extend)
    | (fail_if_no_progress ((with_reducible refine Keeps.upd ?_ ?_ ?_ ?_ ?_ ?_ ?_ ?_ ?_ ?_ ?_ ?_ ?_ ?_ ?_ ?_ ?_ ?_ ?_ ?_ ?_ ?_ ?_ ?_ ?_ ?_ ?_ ?_ ?_ ?_ ?_) <;> first | exact Or.inl (Sub.of hm rfl) | with_reducible exact Or.inr rfl | skip))
    | (fail_if_no_progress extract_lets) | split | (refine Keeps.snd (by assumption) ?_)
    | (refine Keeps.fst (by assumption) ?_) | (refine Keeps.snd2 (by assumption) ?_) | (dsimp only)
    | (dsimp +zetaDelta only)

theorem keeps_jot {msk : Nat} {s₀ s : State} (kind : Nat) (step : Nat) (inst : Nat) (route : Nat) (durationUs : Nat) (cause : Nat) (detail : Nat) (hk : Keeps msk s₀ s)
    (hm : Sub 0x2000 msk := by first | assumption | (apply Sub.of; assumption; rfl)) :
    Keeps msk s₀ (jot kind step inst route durationUs cause detail s) := by
  unfold jot
  repeat' first
    | (with_reducible assumption) | ((with_reducible refine Sub.of hm ?_); exact rfl)
    | (with_reducible refine Keeps.ite ?_ ?_) | (with_reducible apply keeps_State_modMram)
    | (fail_if_no_progress ((with_reducible refine Keeps.upd ?_ ?_ ?_ ?_ ?_ ?_ ?_ ?_ ?_ ?_ ?_ ?_ ?_ ?_ ?_ ?_ ?_ ?_ ?_ ?_ ?_ ?_ ?_ ?_ ?_ ?_ ?_ ?_ ?_ ?_ ?_) <;> first | exact Or.inl (Sub.of hm rfl) | with_reducible exact Or.inr rfl | skip))
    | (fail_if_no_progress ((with_reducible refine Keeps.updMram ?_ (by rfl) (by first | exact id | (intro h; dsimp only; simp [h])) ?_ ?_ ?_ ?_ ?_ ?_ ?_ ?_ ?_ ?_ ?_ ?_ ?_ ?_ ?_ ?_ ?_ ?_ ?_ ?_ ?_ ?_ ?_ ?_ ?_ ?_ ?_ ?_ ?_ ?_ ?_) <;> first | exact Or.inl (Sub.of hm rfl) | with_reducible exact Or.inr rfl | skip))
    | rfl | (exact id) | ((intro h; dsimp only; simp [h]; done)) | (fail_if_no_progress extract_lets) | split
    | (refine Keeps.snd (by assumption) ?_) | (refine Keeps.fst (by assumption) ?_)
    | (refine Keeps.snd2 (by assumption) ?_) | (dsimp only) | (dsimp +zetaDelta only)

theorem keeps_setStep {msk : Nat} {s₀ s : State} (step : Nat) (inst : Nat) (st : StepStatus) (hk : Keeps msk s₀ s)
    (hm : Sub 0x1000 msk := by first | assumption | (apply Sub.of; assumption; rfl)) :
    Keeps msk s₀ (setStep step inst st s) := by
  unfold setStep
  repeat' first
    | (with_reducible assumption) | ((with_reducible refine Sub.of hm ?_); exact rfl)
    | (with_reducible refine Keeps.ite ?_ ?_) | (with_reducible apply keeps_State_modStart)
    | (fail_if_no_progress ((with_reducible refine Keeps.upd ?_ ?_ ?_ ?_ ?_ ?_ ?_ ?_ ?_ ?_ ?_ ?_ ?_ ?_ ?_ ?_ ?_ ?_ ?_ ?_ ?_ ?_ ?_ ?_ ?_ ?_ ?_ ?_ ?_ ?_ ?_) <;> first | exact Or.inl (Sub.of hm rfl) | with_reducible exact Or.inr rfl | skip))
    | (fail_if_no_progress extract_lets) | split | (refine Keeps.snd (by assumption) ?_)
    | (refine Keeps.fst (by assumption) ?_) | (refine Keeps.snd2 (by assumption) ?_) | (dsimp only)
    | (dsimp +zetaDelta only)

theorem keeps_measureValtyn {msk : Nat} {s₀ s : State} (hk : Keeps msk s₀ s)
    (hm : Sub 0x4080 msk := by first | assumption | (apply Sub.of; assumption; rfl)) :
    Keeps msk s₀ (measureValtyn s) := by
  unfold measureValtyn
  repeat' first
    | (with_reducible assumption) | ((with_reducible refine Sub.of hm ?_); exact rfl)
    | (with_reducible refine Keeps.ite ?_ ?_) | (with_reducible apply keeps_extend)
    | (fail_if_no_progress ((with_reducible refine Keeps.upd ?_ ?_ ?_ ?_ ?_ ?_ ?_ ?_ ?_ ?_ ?_ ?_ ?_ ?_ ?_ ?_ ?_ ?_ ?_ ?_ ?_ ?_ ?_ ?_ ?_ ?_ ?_ ?_ ?_ ?_ ?_) <;> first | exact Or.inl (Sub.of hm rfl) | with_reducible exact Or.inr rfl | skip))
    | (fail_if_no_progress extract_lets) | split | (refine Keeps.snd (by assumption) ?_)
    | (refine Keeps.fst (by assumption) ?_) | (refine Keeps.snd2 (by assumption) ?_) | (dsimp only)
    | (dsimp +zetaDelta only)

theorem keeps_runStep {msk : Nat} {s₀ s : State} (step : Nat) (inst : Nat) (route : Nat) (hk : Keeps msk s₀ s)
    (hm : Sub 0x7080 msk := by first | assumption | (apply Sub.of; assumption; rfl)) :
    Keeps msk s₀ (runStep step inst route s) := by
  unfold runStep
  repeat' first
    | (with_reducible assumption) | ((with_reducible refine Sub.of hm ?_); exact rfl)
    | (with_reducible refine Keeps.ite ?_ ?_) | (with_reducible apply keeps_jot)
    | (with_reducible apply keeps_setStep) | (with_reducible apply keeps_extendDebug)
    | (with_reducible apply keeps_measureValtyn)
    | (fail_if_no_progress ((with_reducible refine Keeps.upd ?_ ?_ ?_ ?_ ?_ ?_ ?_ ?_ ?_ ?_ ?_ ?_ ?_ ?_ ?_ ?_ ?_ ?_ ?_ ?_ ?_ ?_ ?_ ?_ ?_ ?_ ?_ ?_ ?_ ?_ ?_) <;> first | exact Or.inl (Sub.of hm rfl) | with_reducible exact Or.inr rfl | skip))
    | (fail_if_no_progress extract_lets) | split | (refine Keeps.snd (by assumption) ?_)
    | (refine Keeps.fst (by assumption) ?_) | (refine Keeps.snd2 (by assumption) ?_) | (dsimp only)
    | (dsimp +zetaDelta only)

theorem keeps_startAgain {msk : Nat} {s₀ s : State} (hk : Keeps msk s₀ s)
    (hm : Sub 0x7080 msk := by first | assumption | (apply Sub.of; assumption; rfl)) :
    Keeps msk s₀ (startAgain s) := by
  unfold startAgain
  repeat' first
    | (with_reducible assumption) | ((with_reducible refine Sub.of hm ?_); exact rfl)
    | (with_reducible refine Keeps.ite ?_ ?_) | (with_reducible apply keeps_runStep)
    | (with_reducible apply keeps_State_modStart)
    | (fail_if_no_progress ((with_reducible refine Keeps.upd ?_ ?_ ?_ ?_ ?_ ?_ ?_ ?_ ?_ ?_ ?_ ?_ ?_ ?_ ?_ ?_ ?_ ?_ ?_ ?_ ?_ ?_ ?_ ?_ ?_ ?_ ?_ ?_ ?_ ?_ ?_) <;> first | exact Or.inl (Sub.of hm rfl) | with_reducible exact Or.inr rfl | skip))
    | (fail_if_no_progress extract_lets) | split | (refine Keeps.snd (by assumption) ?_)
    | (refine Keeps.fst (by assumption) ?_) | (refine Keeps.snd2 (by assumption) ?_) | (dsimp only)
    | (dsimp +zetaDelta only)

theorem keeps_skipStep {msk : Nat} {s₀ s : State} (step : Nat) (inst : Nat) (hk : Keeps msk s₀ s)
    (hm : Sub 0x3000 msk := by first | assumption | (apply Sub.of; assumption; rfl)) :
    Keeps msk s₀ (skipStep step inst s) := by
  unfold skipStep
  repeat' first
    | (with_reducible assumption) | ((with_reducible refine Sub.of hm ?_); exact rfl)
    | (with_reducible refine Keeps.ite ?_ ?_) | (with_reducible apply keeps_jot)
    | (with_reducible apply keeps_State_modStart)
    | (fail_if_no_progress ((with_reducible refine Keeps.upd ?_ ?_ ?_ ?_ ?_ ?_ ?_ ?_ ?_ ?_ ?_ ?_ ?_ ?_ ?_ ?_ ?_ ?_ ?_ ?_ ?_ ?_ ?_ ?_ ?_ ?_ ?_ ?_ ?_ ?_ ?_) <;> first | exact Or.inl (Sub.of hm rfl) | with_reducible exact Or.inr rfl | skip))
    | (fail_if_no_progress extract_lets) | split | (refine Keeps.snd (by assumption) ?_)
    | (refine Keeps.fst (by assumption) ?_) | (refine Keeps.snd2 (by assumption) ?_) | (dsimp only)
    | (dsimp +zetaDelta only)

theorem keeps_beginStep {msk : Nat} {s₀ s : State} (x : Nat × Nat) (hk : Keeps msk s₀ s)
    (hm : Sub 0x7080 msk := by first | assumption | (apply Sub.of; assumption; rfl)) :
    Keeps msk s₀ (beginStep x s) := by
  unfold beginStep
  repeat' first
    | (with_reducible assumption) | ((with_reducible refine Sub.of hm ?_); exact rfl)
    | (with_reducible refine Keeps.ite ?_ ?_) | (with_reducible apply keeps_skipStep)
    | (with_reducible apply keeps_setStep) | (with_reducible apply keeps_startAgain)
    | (with_reducible apply keeps_runStep)
    | (fail_if_no_progress ((with_reducible refine Keeps.upd ?_ ?_ ?_ ?_ ?_ ?_ ?_ ?_ ?_ ?_ ?_ ?_ ?_ ?_ ?_ ?_ ?_ ?_ ?_ ?_ ?_ ?_ ?_ ?_ ?_ ?_ ?_ ?_ ?_ ?_ ?_) <;> first | exact Or.inl (Sub.of hm rfl) | with_reducible exact Or.inr rfl | skip))
    | (fail_if_no_progress extract_lets) | split | (refine Keeps.snd (by assumption) ?_)
    | (refine Keeps.fst (by assumption) ?_) | (refine Keeps.snd2 (by assumption) ?_) | (dsimp only)
    | (dsimp +zetaDelta only)

theorem keeps_beginReady {msk : Nat} {s₀ s : State} (hk : Keeps msk s₀ s)
    (hm : Sub 0x7080 msk := by first | assumption | (apply Sub.of; assumption; rfl)) :
    Keeps msk s₀ (beginReady s) := by
  unfold beginReady
  repeat' first
    | (with_reducible assumption) | ((with_reducible refine Sub.of hm ?_); exact rfl)
    | (with_reducible refine Keeps.ite ?_ ?_) | (with_reducible apply keeps_beginStep)
    | (with_reducible refine Keeps.foldl (fun _ _ _ => ?_) ?_)
    | (with_reducible refine Keeps.foldl2 (fun _ _ _ => ?_) ?_)
    | (with_reducible refine Keeps.foldl1 (fun _ _ _ => ?_) ?_)
    | (fail_if_no_progress ((with_reducible refine Keeps.upd ?_ ?_ ?_ ?_ ?_ ?_ ?_ ?_ ?_ ?_ ?_ ?_ ?_ ?_ ?_ ?_ ?_ ?_ ?_ ?_ ?_ ?_ ?_ ?_ ?_ ?_ ?_ ?_ ?_ ?_ ?_) <;> first | exact Or.inl (Sub.of hm rfl) | with_reducible exact Or.inr rfl | skip))
    | (fail_if_no_progress extract_lets) | split | (refine Keeps.snd (by assumption) ?_)
    | (refine Keeps.fst (by assumption) ?_) | (refine Keeps.snd2 (by assumption) ?_) | (dsimp only)
    | (dsimp +zetaDelta only)

theorem keeps_stepDone {msk : Nat} {s₀ s : State} (step : Nat) (inst : Nat) (detail : Nat) (hk : Keeps msk s₀ s)
    (hm : Sub 0x7080 msk := by first | assumption | (apply Sub.of; assumption; rfl)) :
    Keeps msk s₀ (stepDone step inst detail s) := by
  unfold stepDone
  repeat' first
    | (with_reducible assumption) | ((with_reducible refine Sub.of hm ?_); exact rfl)
    | (with_reducible refine Keeps.ite ?_ ?_) | (with_reducible apply keeps_beginReady)
    | (with_reducible apply keeps_setStep) | (with_reducible apply keeps_jot)
    | (fail_if_no_progress ((with_reducible refine Keeps.upd ?_ ?_ ?_ ?_ ?_ ?_ ?_ ?_ ?_ ?_ ?_ ?_ ?_ ?_ ?_ ?_ ?_ ?_ ?_ ?_ ?_ ?_ ?_ ?_ ?_ ?_ ?_ ?_ ?_ ?_ ?_) <;> first | exact Or.inl (Sub.of hm rfl) | with_reducible exact Or.inr rfl | skip))
    | (fail_if_no_progress extract_lets) | split | (refine Keeps.snd (by assumption) ?_)
    | (refine Keeps.fst (by assumption) ?_) | (refine Keeps.snd2 (by assumption) ?_) | (dsimp only)
    | (dsimp +zetaDelta only)

theorem keeps_routeFails {msk : Nat} {s₀ s : State} (step : Nat) (inst : Nat) (route : Nat) (cause : Nat) (hk : Keeps msk s₀ s)
    (hm : Sub 0x3000 msk := by first | assumption | (apply Sub.of; assumption; rfl)) :
    Keeps msk s₀ (routeFails step inst route cause s) := by
  unfold routeFails
  repeat' first
    | (with_reducible assumption) | ((with_reducible refine Sub.of hm ?_); exact rfl)
    | (with_reducible refine Keeps.ite ?_ ?_) | (with_reducible apply keeps_jot)
    | (with_reducible apply keeps_State_modStart)
    | (fail_if_no_progress ((with_reducible refine Keeps.upd ?_ ?_ ?_ ?_ ?_ ?_ ?_ ?_ ?_ ?_ ?_ ?_ ?_ ?_ ?_ ?_ ?_ ?_ ?_ ?_ ?_ ?_ ?_ ?_ ?_ ?_ ?_ ?_ ?_ ?_ ?_) <;> first | exact Or.inl (Sub.of hm rfl) | with_reducible exact Or.inr rfl | skip))
    | (fail_if_no_progress extract_lets) | split | (refine Keeps.snd (by assumption) ?_)
    | (refine Keeps.fst (by assumption) ?_) | (refine Keeps.snd2 (by assumption) ?_) | (dsimp only)
    | (dsimp +zetaDelta only)

theorem keeps_stepFailed {msk : Nat} {s₀ s : State} (step : Nat) (inst : Nat) (cause : Nat) (hk : Keeps msk s₀ s)
    (hm : Sub 0x7080 msk := by first | assumption | (apply Sub.of; assumption; rfl)) :
    Keeps msk s₀ (stepFailed step inst cause s) := by
  unfold stepFailed
  repeat' first
    | (with_reducible assumption) | ((with_reducible refine Sub.of hm ?_); exact rfl)
    | (with_reducible refine Keeps.ite ?_ ?_) | (with_reducible apply keeps_routeFails)
    | (with_reducible apply keeps_post) | (with_reducible apply keeps_runStep)
    | (with_reducible apply keeps_State_modStart) | (with_reducible apply keeps_setStep)
    | (fail_if_no_progress ((with_reducible refine Keeps.upd ?_ ?_ ?_ ?_ ?_ ?_ ?_ ?_ ?_ ?_ ?_ ?_ ?_ ?_ ?_ ?_ ?_ ?_ ?_ ?_ ?_ ?_ ?_ ?_ ?_ ?_ ?_ ?_ ?_ ?_ ?_) <;> first | exact Or.inl (Sub.of hm rfl) | with_reducible exact Or.inr rfl | skip))
    | (fail_if_no_progress extract_lets) | split | (refine Keeps.snd (by assumption) ?_)
    | (refine Keeps.fst (by assumption) ?_) | (refine Keeps.snd2 (by assumption) ?_) | (dsimp only)
    | (dsimp +zetaDelta only)

theorem keeps_mainReset {msk : Nat} {s₀ s : State} (warm : Bool) (hk : Keeps msk s₀ s)
    (hm : Sub 0x1FFFFD4FF msk := by first | assumption | (apply Sub.of; assumption; rfl)) : Keeps msk s₀ (mainReset warm s) :=
  hk.trans ⟨⟨rfl, Nat.le_refl _, Nat.le_refl _, List.suffix_refl _, fun _ => Memory.wf_nil, fun _ => Memory.wf_nil, rfl, id⟩,
    by constructor <;> first | exact fun hb => Sub.no hb (Sub.of hm rfl) rfl | exact fun _ => rfl | rfl⟩

theorem keeps_releaseMain {msk : Nat} {s₀ s : State} (cause : Nat) (hk : Keeps msk s₀ s)
    (hm : Sub 0x7C83 msk := by first | assumption | (apply Sub.of; assumption; rfl)) :
    Keeps msk s₀ (releaseMain cause s) := by
  unfold releaseMain
  repeat' first
    | (with_reducible assumption) | ((with_reducible refine Sub.of hm ?_); exact rfl)
    | (with_reducible refine Keeps.ite ?_ ?_) | (with_reducible apply keeps_jot)
    | (with_reducible apply keeps_setStep) | (with_reducible apply keeps_skipStep)
    | (with_reducible apply keeps_State_modStart) | (with_reducible apply keeps_post)
    | (with_reducible apply keeps_beginReady) | (with_reducible apply keeps_routeFails)
    | (with_reducible apply keeps_State_modPower) | (with_reducible apply keeps_stepDone)
    | (with_reducible refine Keeps.foldl (fun _ _ _ => ?_) ?_)
    | (with_reducible refine Keeps.foldl2 (fun _ _ _ => ?_) ?_)
    | (with_reducible refine Keeps.foldl1 (fun _ _ _ => ?_) ?_)
    | (fail_if_no_progress ((with_reducible refine Keeps.upd ?_ ?_ ?_ ?_ ?_ ?_ ?_ ?_ ?_ ?_ ?_ ?_ ?_ ?_ ?_ ?_ ?_ ?_ ?_ ?_ ?_ ?_ ?_ ?_ ?_ ?_ ?_ ?_ ?_ ?_ ?_) <;> first | exact Or.inl (Sub.of hm rfl) | with_reducible exact Or.inr rfl | skip))
    | (fail_if_no_progress ((with_reducible refine Keeps.updMram ?_ (by rfl) (by first | exact id | (intro h; dsimp only; simp [h])) ?_ ?_ ?_ ?_ ?_ ?_ ?_ ?_ ?_ ?_ ?_ ?_ ?_ ?_ ?_ ?_ ?_ ?_ ?_ ?_ ?_ ?_ ?_ ?_ ?_ ?_ ?_ ?_ ?_ ?_ ?_) <;> first | exact Or.inl (Sub.of hm rfl) | with_reducible exact Or.inr rfl | skip))
    | rfl | (exact id) | ((intro h; dsimp only; simp [h]; done)) | (fail_if_no_progress extract_lets) | split
    | (refine Keeps.snd (by assumption) ?_) | (refine Keeps.fst (by assumption) ?_)
    | (refine Keeps.snd2 (by assumption) ?_) | (dsimp only) | (dsimp +zetaDelta only)

theorem keeps_wake {msk : Nat} {s₀ s : State} (source : WakeSource) (from_ : Nat) (hk : Keeps msk s₀ s)
    (hm : Sub 0x1FFFFDCFF msk := by first | assumption | (apply Sub.of; assumption; rfl)) :
    Keeps msk s₀ (wake source from_ s) := by
  unfold wake
  repeat' first
    | (with_reducible assumption) | ((with_reducible refine Sub.of hm ?_); exact rfl)
    | (with_reducible refine Keeps.ite ?_ ?_) | (with_reducible apply keeps_mainReset)
    | (with_reducible apply keeps_State_modPower)
    | (fail_if_no_progress ((with_reducible refine Keeps.upd ?_ ?_ ?_ ?_ ?_ ?_ ?_ ?_ ?_ ?_ ?_ ?_ ?_ ?_ ?_ ?_ ?_ ?_ ?_ ?_ ?_ ?_ ?_ ?_ ?_ ?_ ?_ ?_ ?_ ?_ ?_) <;> first | exact Or.inl (Sub.of hm rfl) | with_reducible exact Or.inr rfl | skip))
    | (fail_if_no_progress extract_lets) | split | (refine Keeps.snd (by assumption) ?_)
    | (refine Keeps.fst (by assumption) ?_) | (refine Keeps.snd2 (by assumption) ?_) | (dsimp only)
    | (dsimp +zetaDelta only)

theorem keeps_assertReset {msk : Nat} {s₀ s : State} (src : ResetSource) (hk : Keeps msk s₀ s)
    (hm : Sub 0x1FFFFDCFF msk := by first | assumption | (apply Sub.of; assumption; rfl)) :
    Keeps msk s₀ (assertReset src s) := by
  unfold assertReset
  repeat' first
    | (with_reducible assumption) | ((with_reducible refine Sub.of hm ?_); exact rfl)
    | (with_reducible refine Keeps.ite ?_ ?_) | (with_reducible apply keeps_mainReset)
    | (fail_if_no_progress ((with_reducible refine Keeps.upd ?_ ?_ ?_ ?_ ?_ ?_ ?_ ?_ ?_ ?_ ?_ ?_ ?_ ?_ ?_ ?_ ?_ ?_ ?_ ?_ ?_ ?_ ?_ ?_ ?_ ?_ ?_ ?_ ?_ ?_ ?_) <;> first | exact Or.inl (Sub.of hm rfl) | with_reducible exact Or.inr rfl | skip))
    | (fail_if_no_progress extract_lets) | split | (refine Keeps.snd (by assumption) ?_)
    | (refine Keeps.fst (by assumption) ?_) | (refine Keeps.snd2 (by assumption) ?_) | (dsimp only)
    | (dsimp +zetaDelta only)

theorem keeps_releaseReset {msk : Nat} {s₀ s : State} (hk : Keeps msk s₀ s)
    (hm : Sub 0x7C83 msk := by first | assumption | (apply Sub.of; assumption; rfl)) :
    Keeps msk s₀ (releaseReset s) := by
  unfold releaseReset
  repeat' first
    | (with_reducible assumption) | ((with_reducible refine Sub.of hm ?_); exact rfl)
    | (with_reducible refine Keeps.ite ?_ ?_) | (with_reducible apply keeps_releaseMain)
    | (with_reducible apply keeps_State_modPower)
    | (fail_if_no_progress ((with_reducible refine Keeps.upd ?_ ?_ ?_ ?_ ?_ ?_ ?_ ?_ ?_ ?_ ?_ ?_ ?_ ?_ ?_ ?_ ?_ ?_ ?_ ?_ ?_ ?_ ?_ ?_ ?_ ?_ ?_ ?_ ?_ ?_ ?_) <;> first | exact Or.inl (Sub.of hm rfl) | with_reducible exact Or.inr rfl | skip))
    | (fail_if_no_progress extract_lets) | split | (refine Keeps.snd (by assumption) ?_)
    | (refine Keeps.fst (by assumption) ?_) | (refine Keeps.snd2 (by assumption) ?_) | (dsimp only)
    | (dsimp +zetaDelta only)

end Sys2Proof.Machine
end

