-- ==== Sys2Proof/Laws/KeepsChanOps.lean ====
section
/-! SUPPORT. `Keeps` of the operations and meanings of Machine/ChanOps.lean. -/

set_option Elab.async false

set_option linter.unusedTactic false
set_option linter.unreachableTactic false

namespace Sys2Proof.Machine

theorem keeps_State_modChan {msk : Nat} {s₀ s : State} (c : Fin 64) (g : Chan → Chan) (hk : Keeps msk s₀ s)
    (hm : Sub 0x20000000 msk := by first | assumption | (apply Sub.of; assumption; rfl)) :
    Keeps msk s₀ (State.modChan s c g) := by
  unfold State.modChan
  repeat' first
    | (with_reducible assumption) | ((with_reducible refine Sub.of hm ?_); exact rfl)
    | (with_reducible refine Keeps.ite ?_ ?_)
    | (fail_if_no_progress ((with_reducible refine Keeps.upd ?_ ?_ ?_ ?_ ?_ ?_ ?_ ?_ ?_ ?_ ?_ ?_ ?_ ?_ ?_ ?_ ?_ ?_ ?_ ?_ ?_ ?_ ?_ ?_ ?_ ?_ ?_ ?_ ?_ ?_ ?_) <;> first | exact Or.inl (Sub.of hm rfl) | with_reducible exact Or.inr rfl | skip))
    | (fail_if_no_progress extract_lets) | split | (refine Keeps.snd (by assumption) ?_)
    | (refine Keeps.fst (by assumption) ?_) | (refine Keeps.snd2 (by assumption) ?_) | (dsimp only)
    | (dsimp +zetaDelta only)

theorem keeps_lpWrite {msk : Nat} {s₀ s : State} (addr : Nat) (bytes : List Byte) (hk : Keeps msk s₀ s)
    (hm : Sub 0x100000000 msk := by first | assumption | (apply Sub.of; assumption; rfl)) : Keeps msk s₀ (lpWrite addr bytes s) :=
  hk.trans ⟨⟨rfl, Nat.le_refl _, Nat.le_refl _, List.suffix_refl _, id, Memory.writeList_wf _ _, rfl, id⟩,
    by constructor <;> first | exact fun hb => Sub.no hb (Sub.of hm rfl) rfl | exact fun _ => rfl | rfl⟩

theorem keeps_slotAdd {msk : Nat} {s₀ s : State} (c : Fin 64) (k : Fin 8) (n : Nat) (hk : Keeps msk s₀ s)
    (hm : Sub 0x20000080 msk := by first | assumption | (apply Sub.of; assumption; rfl)) :
    Keeps msk s₀ (slotAdd c k n s) := by
  unfold slotAdd
  repeat' first
    | (with_reducible assumption) | ((with_reducible refine Sub.of hm ?_); exact rfl)
    | (with_reducible refine Keeps.ite ?_ ?_) | (with_reducible apply keeps_State_modChan)
    | (with_reducible apply keeps_post)
    | (fail_if_no_progress ((with_reducible refine Keeps.upd ?_ ?_ ?_ ?_ ?_ ?_ ?_ ?_ ?_ ?_ ?_ ?_ ?_ ?_ ?_ ?_ ?_ ?_ ?_ ?_ ?_ ?_ ?_ ?_ ?_ ?_ ?_ ?_ ?_ ?_ ?_) <;> first | exact Or.inl (Sub.of hm rfl) | with_reducible exact Or.inr rfl | skip))
    | (fail_if_no_progress extract_lets) | split | (refine Keeps.snd (by assumption) ?_)
    | (refine Keeps.fst (by assumption) ?_) | (refine Keeps.snd2 (by assumption) ?_) | (dsimp only)
    | (dsimp +zetaDelta only)

theorem keeps_slotBump {msk : Nat} {s₀ s : State} (kind : Nat) (index : Nat) (hk : Keeps msk s₀ s)
    (hm : Sub 0x20000080 msk := by first | assumption | (apply Sub.of; assumption; rfl)) :
    Keeps msk s₀ (slotBump kind index s) := by
  unfold slotBump
  repeat' first
    | (with_reducible assumption) | ((with_reducible refine Sub.of hm ?_); exact rfl)
    | (with_reducible refine Keeps.ite ?_ ?_) | (with_reducible apply keeps_slotAdd)
    | (with_reducible refine Keeps.foldl (fun _ _ _ => ?_) ?_)
    | (with_reducible refine Keeps.foldl2 (fun _ _ _ => ?_) ?_)
    | (with_reducible refine Keeps.foldl1 (fun _ _ _ => ?_) ?_)
    | (fail_if_no_progress ((with_reducible refine Keeps.upd ?_ ?_ ?_ ?_ ?_ ?_ ?_ ?_ ?_ ?_ ?_ ?_ ?_ ?_ ?_ ?_ ?_ ?_ ?_ ?_ ?_ ?_ ?_ ?_ ?_ ?_ ?_ ?_ ?_ ?_ ?_) <;> first | exact Or.inl (Sub.of hm rfl) | with_reducible exact Or.inr rfl | skip))
    | (fail_if_no_progress extract_lets) | split | (refine Keeps.snd (by assumption) ?_)
    | (refine Keeps.fst (by assumption) ?_) | (refine Keeps.snd2 (by assumption) ?_) | (dsimp only)
    | (dsimp +zetaDelta only)

theorem keeps_chanEntry {msk : Nat} {s₀ s : State} (c : Fin 64) (status : Nat) (flags : Nat) (count : Word) (hk : Keeps msk s₀ s)
    (hm : Sub 0x280000092 msk := by first | assumption | (apply Sub.of; assumption; rfl)) :
    Keeps msk s₀ (chanEntry c status flags count s) := by
  unfold chanEntry
  repeat' first
    | (with_reducible assumption) | ((with_reducible refine Sub.of hm ?_); exact rfl)
    | (with_reducible refine Keeps.ite ?_ ?_) | (with_reducible apply keeps_putEntry)
    | (fail_if_no_progress ((with_reducible refine Keeps.upd ?_ ?_ ?_ ?_ ?_ ?_ ?_ ?_ ?_ ?_ ?_ ?_ ?_ ?_ ?_ ?_ ?_ ?_ ?_ ?_ ?_ ?_ ?_ ?_ ?_ ?_ ?_ ?_ ?_ ?_ ?_) <;> first | exact Or.inl (Sub.of hm rfl) | with_reducible exact Or.inr rfl | skip))
    | (fail_if_no_progress extract_lets) | split | (refine Keeps.snd (by assumption) ?_)
    | (refine Keeps.fst (by assumption) ?_) | (refine Keeps.snd2 (by assumption) ?_) | (dsimp only)
    | (dsimp +zetaDelta only)

theorem keeps_finalEntry {msk : Nat} {s₀ s : State} (c : Fin 64) (key : Word) (runId : Word) (status : Nat) (flags : Nat) (count : Word) (hk : Keeps msk s₀ s)
    (hm : Sub 0x280000092 msk := by first | assumption | (apply Sub.of; assumption; rfl)) :
    Keeps msk s₀ (finalEntry c key runId status flags count s) := by
  unfold finalEntry
  repeat' first
    | (with_reducible assumption) | ((with_reducible refine Sub.of hm ?_); exact rfl)
    | (with_reducible refine Keeps.ite ?_ ?_) | (with_reducible apply keeps_putEntry)
    | (with_reducible apply keeps_State_modQueue) | (with_reducible apply keeps_flushJobs)
    | (fail_if_no_progress ((with_reducible refine Keeps.upd ?_ ?_ ?_ ?_ ?_ ?_ ?_ ?_ ?_ ?_ ?_ ?_ ?_ ?_ ?_ ?_ ?_ ?_ ?_ ?_ ?_ ?_ ?_ ?_ ?_ ?_ ?_ ?_ ?_ ?_ ?_) <;> first | exact Or.inl (Sub.of hm rfl) | with_reducible exact Or.inr rfl | skip))
    | (fail_if_no_progress extract_lets) | split | (refine Keeps.snd (by assumption) ?_)
    | (refine Keeps.fst (by assumption) ?_) | (refine Keeps.snd2 (by assumption) ?_) | (dsimp only)
    | (dsimp +zetaDelta only)

theorem keeps_startRun {msk : Nat} {s₀ s : State} (c : Fin 64) (entry : Nat) (key : Word) (hk : Keeps msk s₀ s)
    (hm : Sub 0x20000000 msk := by first | assumption | (apply Sub.of; assumption; rfl)) :
    Keeps msk s₀ (startRun c entry key s) := by
  unfold startRun
  repeat' first
    | (with_reducible assumption) | ((with_reducible refine Sub.of hm ?_); exact rfl)
    | (with_reducible refine Keeps.ite ?_ ?_) | (with_reducible apply keeps_State_modChan)
    | (fail_if_no_progress ((with_reducible refine Keeps.upd ?_ ?_ ?_ ?_ ?_ ?_ ?_ ?_ ?_ ?_ ?_ ?_ ?_ ?_ ?_ ?_ ?_ ?_ ?_ ?_ ?_ ?_ ?_ ?_ ?_ ?_ ?_ ?_ ?_ ?_ ?_) <;> first | exact Or.inl (Sub.of hm rfl) | with_reducible exact Or.inr rfl | skip))
    | (fail_if_no_progress extract_lets) | split | (refine Keeps.snd (by assumption) ?_)
    | (refine Keeps.fst (by assumption) ?_) | (refine Keeps.snd2 (by assumption) ?_) | (dsimp only)
    | (dsimp +zetaDelta only)

theorem keeps_endRunNow {msk : Nat} {s₀ s : State} (c : Fin 64) (status : Nat) (hk : Keeps msk s₀ s)
    (hm : Sub 0x2A0000092 msk := by first | assumption | (apply Sub.of; assumption; rfl)) :
    Keeps msk s₀ (endRunNow c status s) := by
  unfold endRunNow
  repeat' first
    | (with_reducible assumption) | ((with_reducible refine Sub.of hm ?_); exact rfl)
    | (with_reducible refine Keeps.ite ?_ ?_) | (with_reducible apply keeps_finalEntry)
    | (with_reducible apply keeps_State_modChan) | (with_reducible apply keeps_startRun)
    | (fail_if_no_progress ((with_reducible refine Keeps.upd ?_ ?_ ?_ ?_ ?_ ?_ ?_ ?_ ?_ ?_ ?_ ?_ ?_ ?_ ?_ ?_ ?_ ?_ ?_ ?_ ?_ ?_ ?_ ?_ ?_ ?_ ?_ ?_ ?_ ?_ ?_) <;> first | exact Or.inl (Sub.of hm rfl) | with_reducible exact Or.inr rfl | skip))
    | (fail_if_no_progress extract_lets) | split | (refine Keeps.snd (by assumption) ?_)
    | (refine Keeps.fst (by assumption) ?_) | (refine Keeps.snd2 (by assumption) ?_) | (dsimp only)
    | (dsimp +zetaDelta only)

theorem keeps_haltChan {msk : Nat} {s₀ s : State} (c : Fin 64) (cause : Nat) (status : Nat) (write : Bool) (space : Nat) (addr : Nat) (hk : Keeps msk s₀ s)
    (hm : Sub 0x2A0000092 msk := by first | assumption | (apply Sub.of; assumption; rfl)) :
    Keeps msk s₀ (haltChan c cause status write space addr s) := by
  unfold haltChan
  repeat' first
    | (with_reducible assumption) | ((with_reducible refine Sub.of hm ?_); exact rfl)
    | (with_reducible refine Keeps.ite ?_ ?_) | (with_reducible apply keeps_State_modChan)
    | (with_reducible apply keeps_post) | (with_reducible apply keeps_chanEntry)
    | (fail_if_no_progress ((with_reducible refine Keeps.upd ?_ ?_ ?_ ?_ ?_ ?_ ?_ ?_ ?_ ?_ ?_ ?_ ?_ ?_ ?_ ?_ ?_ ?_ ?_ ?_ ?_ ?_ ?_ ?_ ?_ ?_ ?_ ?_ ?_ ?_ ?_) <;> first | exact Or.inl (Sub.of hm rfl) | with_reducible exact Or.inr rfl | skip))
    | (fail_if_no_progress extract_lets) | split | (refine Keeps.snd (by assumption) ?_)
    | (refine Keeps.fst (by assumption) ?_) | (refine Keeps.snd2 (by assumption) ?_) | (dsimp only)
    | (dsimp +zetaDelta only)

theorem keeps_chanNext {msk : Nat} {s₀ s : State} (c : Fin 64) (hk : Keeps msk s₀ s)
    (hm : Sub 0x20000000 msk := by first | assumption | (apply Sub.of; assumption; rfl)) :
    Keeps msk s₀ (chanNext c s) := by
  unfold chanNext
  repeat' first
    | (with_reducible assumption) | ((with_reducible refine Sub.of hm ?_); exact rfl)
    | (with_reducible refine Keeps.ite ?_ ?_) | (with_reducible apply keeps_State_modChan)
    | (fail_if_no_progress ((with_reducible refine Keeps.upd ?_ ?_ ?_ ?_ ?_ ?_ ?_ ?_ ?_ ?_ ?_ ?_ ?_ ?_ ?_ ?_ ?_ ?_ ?_ ?_ ?_ ?_ ?_ ?_ ?_ ?_ ?_ ?_ ?_ ?_ ?_) <;> first | exact Or.inl (Sub.of hm rfl) | with_reducible exact Or.inr rfl | skip))
    | (fail_if_no_progress extract_lets) | split | (refine Keeps.snd (by assumption) ?_)
    | (refine Keeps.fst (by assumption) ?_) | (refine Keeps.snd2 (by assumption) ?_) | (dsimp only)
    | (dsimp +zetaDelta only)

theorem keeps_failWait {msk : Nat} {s₀ s : State} (c : Fin 64) (goOn : Bool) (status : Nat) (hk : Keeps msk s₀ s)
    (hm : Sub 0x2A0000092 msk := by first | assumption | (apply Sub.of; assumption; rfl)) :
    Keeps msk s₀ (failWait c goOn status s) := by
  unfold failWait
  repeat' first
    | (with_reducible assumption) | ((with_reducible refine Sub.of hm ?_); exact rfl)
    | (with_reducible refine Keeps.ite ?_ ?_) | (with_reducible apply keeps_State_modChan)
    | (with_reducible apply keeps_chanNext) | (with_reducible apply keeps_post)
    | (with_reducible apply keeps_haltChan)
    | (fail_if_no_progress ((with_reducible refine Keeps.upd ?_ ?_ ?_ ?_ ?_ ?_ ?_ ?_ ?_ ?_ ?_ ?_ ?_ ?_ ?_ ?_ ?_ ?_ ?_ ?_ ?_ ?_ ?_ ?_ ?_ ?_ ?_ ?_ ?_ ?_ ?_) <;> first | exact Or.inl (Sub.of hm rfl) | with_reducible exact Or.inr rfl | skip))
    | (fail_if_no_progress extract_lets) | split | (refine Keeps.snd (by assumption) ?_)
    | (refine Keeps.fst (by assumption) ?_) | (refine Keeps.snd2 (by assumption) ?_) | (dsimp only)
    | (dsimp +zetaDelta only)

theorem keeps_sweepWaits {msk : Nat} {s₀ s : State} (hk : Keeps msk s₀ s)
    (hm : Sub 0x2A0000092 msk := by first | assumption | (apply Sub.of; assumption; rfl)) :
    Keeps msk s₀ (sweepWaits s) := by
  unfold sweepWaits
  repeat' first
    | (with_reducible assumption) | ((with_reducible refine Sub.of hm ?_); exact rfl)
    | (with_reducible refine Keeps.ite ?_ ?_) | (with_reducible apply keeps_failWait)
    | (with_reducible refine Keeps.foldl (fun _ _ _ => ?_) ?_)
    | (with_reducible refine Keeps.foldl2 (fun _ _ _ => ?_) ?_)
    | (with_reducible refine Keeps.foldl1 (fun _ _ _ => ?_) ?_)
    | (fail_if_no_progress ((with_reducible refine Keeps.upd ?_ ?_ ?_ ?_ ?_ ?_ ?_ ?_ ?_ ?_ ?_ ?_ ?_ ?_ ?_ ?_ ?_ ?_ ?_ ?_ ?_ ?_ ?_ ?_ ?_ ?_ ?_ ?_ ?_ ?_ ?_) <;> first | exact Or.inl (Sub.of hm rfl) | with_reducible exact Or.inr rfl | skip))
    | (fail_if_no_progress extract_lets) | split | (refine Keeps.snd (by assumption) ?_)
    | (refine Keeps.fst (by assumption) ?_) | (refine Keeps.snd2 (by assumption) ?_) | (dsimp only)
    | (dsimp +zetaDelta only)

theorem keeps_resetWaits {msk : Nat} {s₀ s : State} (kind : Nat) (hk : Keeps msk s₀ s)
    (hm : Sub 0x2A0000092 msk := by first | assumption | (apply Sub.of; assumption; rfl)) :
    Keeps msk s₀ (resetWaits kind s) := by
  unfold resetWaits
  repeat' first
    | (with_reducible assumption) | ((with_reducible refine Sub.of hm ?_); exact rfl)
    | (with_reducible refine Keeps.ite ?_ ?_) | (with_reducible apply keeps_failWait)
    | (with_reducible refine Keeps.foldl (fun _ _ _ => ?_) ?_)
    | (with_reducible refine Keeps.foldl2 (fun _ _ _ => ?_) ?_)
    | (with_reducible refine Keeps.foldl1 (fun _ _ _ => ?_) ?_)
    | (fail_if_no_progress ((with_reducible refine Keeps.upd ?_ ?_ ?_ ?_ ?_ ?_ ?_ ?_ ?_ ?_ ?_ ?_ ?_ ?_ ?_ ?_ ?_ ?_ ?_ ?_ ?_ ?_ ?_ ?_ ?_ ?_ ?_ ?_ ?_ ?_ ?_) <;> first | exact Or.inl (Sub.of hm rfl) | with_reducible exact Or.inr rfl | skip))
    | (fail_if_no_progress extract_lets) | split | (refine Keeps.snd (by assumption) ?_)
    | (refine Keeps.fst (by assumption) ?_) | (refine Keeps.snd2 (by assumption) ?_) | (dsimp only)
    | (dsimp +zetaDelta only)

theorem keeps_flushRuns {msk : Nat} {s₀ s : State} (c : Fin 64) (hk : Keeps msk s₀ s)
    (hm : Sub 0x2A0000092 msk := by first | assumption | (apply Sub.of; assumption; rfl)) :
    Keeps msk s₀ (flushRuns c s).2 := by
  unfold flushRuns
  repeat' first
    | (with_reducible assumption) | ((with_reducible refine Sub.of hm ?_); exact rfl)
    | (with_reducible refine Keeps.ite ?_ ?_) | (with_reducible apply keeps_State_modChan)
    | (with_reducible apply keeps_finalEntry) | (with_reducible refine Keeps.foldl (fun _ _ _ => ?_) ?_)
    | (with_reducible refine Keeps.foldl2 (fun _ _ _ => ?_) ?_)
    | (with_reducible refine Keeps.foldl1 (fun _ _ _ => ?_) ?_)
    | (fail_if_no_progress ((with_reducible refine Keeps.upd ?_ ?_ ?_ ?_ ?_ ?_ ?_ ?_ ?_ ?_ ?_ ?_ ?_ ?_ ?_ ?_ ?_ ?_ ?_ ?_ ?_ ?_ ?_ ?_ ?_ ?_ ?_ ?_ ?_ ?_ ?_) <;> first | exact Or.inl (Sub.of hm rfl) | with_reducible exact Or.inr rfl | skip))
    | (fail_if_no_progress extract_lets) | split | (refine Keeps.snd (by assumption) ?_)
    | (refine Keeps.fst (by assumption) ?_) | (refine Keeps.snd2 (by assumption) ?_) | (dsimp only)
    | (dsimp +zetaDelta only)

theorem keeps_stopRun {msk : Nat} {s₀ s : State} (c : Fin 64) (hk : Keeps msk s₀ s)
    (hm : Sub 0x2A0000092 msk := by first | assumption | (apply Sub.of; assumption; rfl)) :
    Keeps msk s₀ (stopRun c s) := by
  unfold stopRun
  repeat' first
    | (with_reducible assumption) | ((with_reducible refine Sub.of hm ?_); exact rfl)
    | (with_reducible refine Keeps.ite ?_ ?_) | (with_reducible apply keeps_State_modChan)
    | (with_reducible apply keeps_endRunNow)
    | (fail_if_no_progress ((with_reducible refine Keeps.upd ?_ ?_ ?_ ?_ ?_ ?_ ?_ ?_ ?_ ?_ ?_ ?_ ?_ ?_ ?_ ?_ ?_ ?_ ?_ ?_ ?_ ?_ ?_ ?_ ?_ ?_ ?_ ?_ ?_ ?_ ?_) <;> first | exact Or.inl (Sub.of hm rfl) | with_reducible exact Or.inr rfl | skip))
    | (fail_if_no_progress extract_lets) | split | (refine Keeps.snd (by assumption) ?_)
    | (refine Keeps.fst (by assumption) ?_) | (refine Keeps.snd2 (by assumption) ?_) | (dsimp only)
    | (dsimp +zetaDelta only)

theorem keeps_stopChan {msk : Nat} {s₀ s : State} (c : Fin 64) (hk : Keeps msk s₀ s)
    (hm : Sub 0x2A0000092 msk := by first | assumption | (apply Sub.of; assumption; rfl)) :
    Keeps msk s₀ (stopChan c s) := by
  unfold stopChan
  repeat' first
    | (with_reducible assumption) | ((with_reducible refine Sub.of hm ?_); exact rfl)
    | (with_reducible refine Keeps.ite ?_ ?_) | (with_reducible apply keeps_State_modChan)
    | (with_reducible apply keeps_stopRun)
    | (fail_if_no_progress ((with_reducible refine Keeps.upd ?_ ?_ ?_ ?_ ?_ ?_ ?_ ?_ ?_ ?_ ?_ ?_ ?_ ?_ ?_ ?_ ?_ ?_ ?_ ?_ ?_ ?_ ?_ ?_ ?_ ?_ ?_ ?_ ?_ ?_ ?_) <;> first | exact Or.inl (Sub.of hm rfl) | with_reducible exact Or.inr rfl | skip))
    | (fail_if_no_progress extract_lets) | split | (refine Keeps.snd (by assumption) ?_)
    | (refine Keeps.fst (by assumption) ?_) | (refine Keeps.snd2 (by assumption) ?_) | (dsimp only)
    | (dsimp +zetaDelta only)

theorem keeps_freeChan {msk : Nat} {s₀ s : State} (c : Fin 64) (hk : Keeps msk s₀ s)
    (hm : Sub 0x20000000 msk := by first | assumption | (apply Sub.of; assumption; rfl)) :
    Keeps msk s₀ (freeChan c s) := by
  unfold freeChan
  repeat' first
    | (with_reducible assumption) | ((with_reducible refine Sub.of hm ?_); exact rfl)
    | (with_reducible refine Keeps.ite ?_ ?_)
    | (fail_if_no_progress ((with_reducible refine Keeps.upd ?_ ?_ ?_ ?_ ?_ ?_ ?_ ?_ ?_ ?_ ?_ ?_ ?_ ?_ ?_ ?_ ?_ ?_ ?_ ?_ ?_ ?_ ?_ ?_ ?_ ?_ ?_ ?_ ?_ ?_ ?_) <;> first | exact Or.inl (Sub.of hm rfl) | with_reducible exact Or.inr rfl | skip))
    | (fail_if_no_progress extract_lets) | split | (refine Keeps.snd (by assumption) ?_)
    | (refine Keeps.fst (by assumption) ?_) | (refine Keeps.snd2 (by assumption) ?_) | (dsimp only)
    | (dsimp +zetaDelta only)

theorem keeps_borrow {msk : Nat} {s₀ s : State} (c : Fin 64) (hk : Keeps msk s₀ s)
    (hm : Sub 0x20000000 msk := by first | assumption | (apply Sub.of; assumption; rfl)) :
    Keeps msk s₀ (borrow c s) := by
  unfold borrow
  repeat' first
    | (with_reducible assumption) | ((with_reducible refine Sub.of hm ?_); exact rfl)
    | (with_reducible refine Keeps.ite ?_ ?_) | (with_reducible apply keeps_State_modChan)
    | (fail_if_no_progress ((with_reducible refine Keeps.upd ?_ ?_ ?_ ?_ ?_ ?_ ?_ ?_ ?_ ?_ ?_ ?_ ?_ ?_ ?_ ?_ ?_ ?_ ?_ ?_ ?_ ?_ ?_ ?_ ?_ ?_ ?_ ?_ ?_ ?_ ?_) <;> first | exact Or.inl (Sub.of hm rfl) | with_reducible exact Or.inr rfl | skip))
    | (fail_if_no_progress extract_lets) | split | (refine Keeps.snd (by assumption) ?_)
    | (refine Keeps.fst (by assumption) ?_) | (refine Keeps.snd2 (by assumption) ?_) | (dsimp only)
    | (dsimp +zetaDelta only)

theorem keeps_unborrow {msk : Nat} {s₀ s : State} (c : Fin 64) (hk : Keeps msk s₀ s)
    (hm : Sub 0x20000000 msk := by first | assumption | (apply Sub.of; assumption; rfl)) :
    Keeps msk s₀ (unborrow c s) := by
  unfold unborrow
  repeat' first
    | (with_reducible assumption) | ((with_reducible refine Sub.of hm ?_); exact rfl)
    | (with_reducible refine Keeps.ite ?_ ?_) | (with_reducible apply keeps_State_modChan)
    | (fail_if_no_progress ((with_reducible refine Keeps.upd ?_ ?_ ?_ ?_ ?_ ?_ ?_ ?_ ?_ ?_ ?_ ?_ ?_ ?_ ?_ ?_ ?_ ?_ ?_ ?_ ?_ ?_ ?_ ?_ ?_ ?_ ?_ ?_ ?_ ?_ ?_) <;> first | exact Or.inl (Sub.of hm rfl) | with_reducible exact Or.inr rfl | skip))
    | (fail_if_no_progress extract_lets) | split | (refine Keeps.snd (by assumption) ?_)
    | (refine Keeps.fst (by assumption) ?_) | (refine Keeps.snd2 (by assumption) ?_) | (dsimp only)
    | (dsimp +zetaDelta only)

theorem keeps_haltBorrow {msk : Nat} {s₀ s : State} (c : Fin 64) (cause : Nat) (write : Bool) (space : Nat) (addr : Nat) (hk : Keeps msk s₀ s)
    (hm : Sub 0x20000080 msk := by first | assumption | (apply Sub.of; assumption; rfl)) :
    Keeps msk s₀ (haltBorrow c cause write space addr s) := by
  unfold haltBorrow
  repeat' first
    | (with_reducible assumption) | ((with_reducible refine Sub.of hm ?_); exact rfl)
    | (with_reducible refine Keeps.ite ?_ ?_) | (with_reducible apply keeps_State_modChan)
    | (with_reducible apply keeps_post)
    | (fail_if_no_progress ((with_reducible refine Keeps.upd ?_ ?_ ?_ ?_ ?_ ?_ ?_ ?_ ?_ ?_ ?_ ?_ ?_ ?_ ?_ ?_ ?_ ?_ ?_ ?_ ?_ ?_ ?_ ?_ ?_ ?_ ?_ ?_ ?_ ?_ ?_) <;> first | exact Or.inl (Sub.of hm rfl) | with_reducible exact Or.inr rfl | skip))
    | (fail_if_no_progress extract_lets) | split | (refine Keeps.snd (by assumption) ?_)
    | (refine Keeps.fst (by assumption) ?_) | (refine Keeps.snd2 (by assumption) ?_) | (dsimp only)
    | (dsimp +zetaDelta only)

end Sys2Proof.Machine
end

