-- ==== Sys2Proof/Laws/KeepsChanCmds.lean ====
section
/-! SUPPORT. `Keeps` of the operations and meanings of Machine/ChanCmds.lean. -/

set_option Elab.async false

set_option linter.unusedTactic false
set_option linter.unreachableTactic false

namespace Sys2Proof.Machine

theorem keeps_chanLoadBody {msk : Nat} {s₀ s : State} (programme : Fetched) (h : Hamper) (hk : Keeps msk s₀ s)
    (hm : Sub 0x2A0000092 msk := by first | assumption | (apply Sub.of; assumption; rfl)) :
    KeepsV msk s₀ (chanLoadBody programme s h) := by
  unfold chanLoadBody
  repeat' first
    | (with_reducible exact KeepsV.refuse) | (with_reducible exact KeepsV.badArg)
    | (with_reducible exact KeepsV.notOwner) | (with_reducible exact KeepsV.wrongState)
    | (with_reducible exact KeepsV.noResource) | (with_reducible refine KeepsV.ok ?_)
    | (with_reducible refine KeepsV.accepted ?_) | (with_reducible refine KeepsV.later ?_)
    | (with_reducible refine KeepsV.ite ?_ ?_) | (with_reducible assumption)
    | ((with_reducible refine Sub.of hm ?_); exact rfl) | (with_reducible refine Keeps.ite ?_ ?_)
    | (with_reducible apply keeps_badArg) | (with_reducible apply keeps_notOwner)
    | (with_reducible apply keeps_wrongState) | (with_reducible apply keeps_sweepWaits)
    | (with_reducible apply keeps_State_modChan) | (with_reducible refine Keeps.foldl (fun _ _ _ => ?_) ?_)
    | (with_reducible refine Keeps.foldl2 (fun _ _ _ => ?_) ?_)
    | (with_reducible refine Keeps.foldl1 (fun _ _ _ => ?_) ?_)
    | (fail_if_no_progress ((with_reducible refine Keeps.upd ?_ ?_ ?_ ?_ ?_ ?_ ?_ ?_ ?_ ?_ ?_ ?_ ?_ ?_ ?_ ?_ ?_ ?_ ?_ ?_ ?_ ?_ ?_ ?_ ?_ ?_ ?_ ?_ ?_ ?_ ?_) <;> first | exact Or.inl (Sub.of hm rfl) | with_reducible exact Or.inr rfl | skip))
    | (fail_if_no_progress extract_lets) | split | (refine Keeps.snd (by assumption) ?_)
    | (refine Keeps.fst (by assumption) ?_) | (refine Keeps.snd2 (by assumption) ?_) | (dsimp only)
    | (dsimp +zetaDelta only)

theorem keeps_execChanLoad {msk : Nat} {s₀ s : State} (dt : Nat) (r : Req) (programme : Fetched) (hk : Keeps msk s₀ (advance dt s))
    (hm : Sub 0x2A00000D6 msk := by first | assumption | (apply Sub.of; assumption; rfl)) :
    KeepsA msk s₀ (execChanLoad dt r programme s) := by
  unfold execChanLoad
  repeat' first
    | (with_reducible refine KeepsA.next ?_) | (with_reducible assumption)
    | ((with_reducible refine Sub.of hm ?_); exact rfl) | (with_reducible refine Keeps.ite ?_ ?_)
    | (with_reducible apply keeps_serve) | (with_reducible apply keeps_chanLoadBody)
    | (fail_if_no_progress ((with_reducible refine Keeps.upd ?_ ?_ ?_ ?_ ?_ ?_ ?_ ?_ ?_ ?_ ?_ ?_ ?_ ?_ ?_ ?_ ?_ ?_ ?_ ?_ ?_ ?_ ?_ ?_ ?_ ?_ ?_ ?_ ?_ ?_ ?_) <;> first | exact Or.inl (Sub.of hm rfl) | with_reducible exact Or.inr rfl | skip))
    | (intro _ _ _) | (intro _ _) | (fail_if_no_progress extract_lets) | split | (refine Keeps.snd (by assumption) ?_)
    | (refine Keeps.fst (by assumption) ?_) | (refine Keeps.snd2 (by assumption) ?_) | (dsimp only)
    | (dsimp +zetaDelta only)

theorem keeps_disableChan {msk : Nat} {s₀ s : State} (c : Fin 64) (hk : Keeps msk s₀ s)
    (hm : Sub 0x2A0000092 msk := by first | assumption | (apply Sub.of; assumption; rfl)) :
    Keeps msk s₀ (disableChan c s) := by
  unfold disableChan
  repeat' first
    | (with_reducible assumption) | ((with_reducible refine Sub.of hm ?_); exact rfl)
    | (with_reducible refine Keeps.ite ?_ ?_) | (with_reducible apply keeps_State_modChan)
    | (with_reducible apply keeps_flushRuns) | (with_reducible apply keeps_sweepWaits)
    | (with_reducible apply keeps_stopChan)
    | (fail_if_no_progress ((with_reducible refine Keeps.upd ?_ ?_ ?_ ?_ ?_ ?_ ?_ ?_ ?_ ?_ ?_ ?_ ?_ ?_ ?_ ?_ ?_ ?_ ?_ ?_ ?_ ?_ ?_ ?_ ?_ ?_ ?_ ?_ ?_ ?_ ?_) <;> first | exact Or.inl (Sub.of hm rfl) | with_reducible exact Or.inr rfl | skip))
    | (fail_if_no_progress extract_lets) | split | (refine Keeps.snd (by assumption) ?_)
    | (refine Keeps.fst (by assumption) ?_) | (refine Keeps.snd2 (by assumption) ?_) | (dsimp only)
    | (dsimp +zetaDelta only)

theorem keeps_chanConfigBody {msk : Nat} {s₀ s : State} (h : Hamper) (hk : Keeps msk s₀ s)
    (hm : Sub 0x2A0000092 msk := by first | assumption | (apply Sub.of; assumption; rfl)) :
    KeepsV msk s₀ (chanConfigBody s h) := by
  unfold chanConfigBody
  repeat' first
    | (with_reducible exact KeepsV.refuse) | (with_reducible exact KeepsV.badArg)
    | (with_reducible exact KeepsV.notOwner) | (with_reducible exact KeepsV.wrongState)
    | (with_reducible exact KeepsV.noResource) | (with_reducible refine KeepsV.ok ?_)
    | (with_reducible refine KeepsV.accepted ?_) | (with_reducible refine KeepsV.later ?_)
    | (with_reducible refine KeepsV.ite ?_ ?_) | (with_reducible assumption)
    | ((with_reducible refine Sub.of hm ?_); exact rfl) | (with_reducible refine Keeps.ite ?_ ?_)
    | (with_reducible apply keeps_badArg) | (with_reducible apply keeps_notOwner)
    | (with_reducible apply keeps_wrongState) | (with_reducible apply keeps_State_modChan)
    | (with_reducible apply keeps_disableChan)
    | (fail_if_no_progress ((with_reducible refine Keeps.upd ?_ ?_ ?_ ?_ ?_ ?_ ?_ ?_ ?_ ?_ ?_ ?_ ?_ ?_ ?_ ?_ ?_ ?_ ?_ ?_ ?_ ?_ ?_ ?_ ?_ ?_ ?_ ?_ ?_ ?_ ?_) <;> first | exact Or.inl (Sub.of hm rfl) | with_reducible exact Or.inr rfl | skip))
    | (fail_if_no_progress extract_lets) | split | (refine Keeps.snd (by assumption) ?_)
    | (refine Keeps.fst (by assumption) ?_) | (refine Keeps.snd2 (by assumption) ?_) | (dsimp only)
    | (dsimp +zetaDelta only)

theorem keeps_execChanConfig {msk : Nat} {s₀ s : State} (dt : Nat) (r : Req) (hk : Keeps msk s₀ (advance dt s))
    (hm : Sub 0x2A00000D6 msk := by first | assumption | (apply Sub.of; assumption; rfl)) :
    KeepsA msk s₀ (execChanConfig dt r s) := by
  unfold execChanConfig
  repeat' first
    | (with_reducible refine KeepsA.next ?_) | (with_reducible assumption)
    | ((with_reducible refine Sub.of hm ?_); exact rfl) | (with_reducible refine Keeps.ite ?_ ?_)
    | (with_reducible apply keeps_serve) | (with_reducible apply keeps_chanConfigBody)
    | (fail_if_no_progress ((with_reducible refine Keeps.upd ?_ ?_ ?_ ?_ ?_ ?_ ?_ ?_ ?_ ?_ ?_ ?_ ?_ ?_ ?_ ?_ ?_ ?_ ?_ ?_ ?_ ?_ ?_ ?_ ?_ ?_ ?_ ?_ ?_ ?_ ?_) <;> first | exact Or.inl (Sub.of hm rfl) | with_reducible exact Or.inr rfl | skip))
    | (intro _ _ _) | (intro _ _) | (fail_if_no_progress extract_lets) | split | (refine Keeps.snd (by assumption) ?_)
    | (refine Keeps.fst (by assumption) ?_) | (refine Keeps.snd2 (by assumption) ?_) | (dsimp only)
    | (dsimp +zetaDelta only)

theorem keeps_chanQuiet {msk : Nat} {s₀ s : State} (c : Fin 64) (hk : Keeps msk s₀ s)
    (hm : Sub 0x2A0000092 msk := by first | assumption | (apply Sub.of; assumption; rfl)) :
    Keeps msk s₀ (chanQuiet c s) := by
  unfold chanQuiet
  repeat' first
    | (with_reducible assumption) | ((with_reducible refine Sub.of hm ?_); exact rfl)
    | (with_reducible refine Keeps.ite ?_ ?_) | (with_reducible apply keeps_notice)
    | (with_reducible apply keeps_State_modChan)
    | (fail_if_no_progress ((with_reducible refine Keeps.upd ?_ ?_ ?_ ?_ ?_ ?_ ?_ ?_ ?_ ?_ ?_ ?_ ?_ ?_ ?_ ?_ ?_ ?_ ?_ ?_ ?_ ?_ ?_ ?_ ?_ ?_ ?_ ?_ ?_ ?_ ?_) <;> first | exact Or.inl (Sub.of hm rfl) | with_reducible exact Or.inr rfl | skip))
    | (fail_if_no_progress extract_lets) | split | (refine Keeps.snd (by assumption) ?_)
    | (refine Keeps.fst (by assumption) ?_) | (refine Keeps.snd2 (by assumption) ?_) | (dsimp only)
    | (dsimp +zetaDelta only)

theorem keeps_execChanQuiet {msk : Nat} {s₀ s : State} (dt : Nat) (c : Fin 64) (hk : Keeps msk s₀ (advance dt s))
    (hm : Sub 0x2A0000092 msk := by first | assumption | (apply Sub.of; assumption; rfl)) :
    KeepsA msk s₀ (execChanQuiet dt c s) := by
  unfold execChanQuiet
  repeat' first
    | (with_reducible refine KeepsA.next ?_) | (with_reducible assumption)
    | ((with_reducible refine Sub.of hm ?_); exact rfl) | (with_reducible refine Keeps.ite ?_ ?_)
    | (with_reducible apply keeps_chanQuiet)
    | (fail_if_no_progress ((with_reducible refine Keeps.upd ?_ ?_ ?_ ?_ ?_ ?_ ?_ ?_ ?_ ?_ ?_ ?_ ?_ ?_ ?_ ?_ ?_ ?_ ?_ ?_ ?_ ?_ ?_ ?_ ?_ ?_ ?_ ?_ ?_ ?_ ?_) <;> first | exact Or.inl (Sub.of hm rfl) | with_reducible exact Or.inr rfl | skip))
    | (fail_if_no_progress extract_lets) | split | (refine Keeps.snd (by assumption) ?_)
    | (refine Keeps.fst (by assumption) ?_) | (refine Keeps.snd2 (by assumption) ?_) | (dsimp only)
    | (dsimp +zetaDelta only)

theorem keeps_chanSignalMapBody {msk : Nat} {s₀ s : State} (h : Hamper) (hk : Keeps msk s₀ s)
    (hm : Sub 0x20000000 msk := by first | assumption | (apply Sub.of; assumption; rfl)) :
    KeepsV msk s₀ (chanSignalMapBody s h) := by
  unfold chanSignalMapBody
  repeat' first
    | (with_reducible exact KeepsV.refuse) | (with_reducible exact KeepsV.badArg)
    | (with_reducible exact KeepsV.notOwner) | (with_reducible exact KeepsV.wrongState)
    | (with_reducible exact KeepsV.noResource) | (with_reducible refine KeepsV.ok ?_)
    | (with_reducible refine KeepsV.accepted ?_) | (with_reducible refine KeepsV.later ?_)
    | (with_reducible refine KeepsV.ite ?_ ?_) | (with_reducible assumption)
    | ((with_reducible refine Sub.of hm ?_); exact rfl) | (with_reducible refine Keeps.ite ?_ ?_)
    | (with_reducible apply keeps_badArg) | (with_reducible apply keeps_notOwner)
    | (with_reducible apply keeps_wrongState) | (with_reducible apply keeps_State_modChan)
    | (fail_if_no_progress ((with_reducible refine Keeps.upd ?_ ?_ ?_ ?_ ?_ ?_ ?_ ?_ ?_ ?_ ?_ ?_ ?_ ?_ ?_ ?_ ?_ ?_ ?_ ?_ ?_ ?_ ?_ ?_ ?_ ?_ ?_ ?_ ?_ ?_ ?_) <;> first | exact Or.inl (Sub.of hm rfl) | with_reducible exact Or.inr rfl | skip))
    | (fail_if_no_progress extract_lets) | split | (refine Keeps.snd (by assumption) ?_)
    | (refine Keeps.fst (by assumption) ?_) | (refine Keeps.snd2 (by assumption) ?_) | (dsimp only)
    | (dsimp +zetaDelta only)

theorem keeps_execChanSignalMap {msk : Nat} {s₀ s : State} (dt : Nat) (r : Req) (hk : Keeps msk s₀ (advance dt s))
    (hm : Sub 0x2200000C6 msk := by first | assumption | (apply Sub.of; assumption; rfl)) :
    KeepsA msk s₀ (execChanSignalMap dt r s) := by
  unfold execChanSignalMap
  repeat' first
    | (with_reducible refine KeepsA.next ?_) | (with_reducible assumption)
    | ((with_reducible refine Sub.of hm ?_); exact rfl) | (with_reducible refine Keeps.ite ?_ ?_)
    | (with_reducible apply keeps_serve) | (with_reducible apply keeps_chanSignalMapBody)
    | (fail_if_no_progress ((with_reducible refine Keeps.upd ?_ ?_ ?_ ?_ ?_ ?_ ?_ ?_ ?_ ?_ ?_ ?_ ?_ ?_ ?_ ?_ ?_ ?_ ?_ ?_ ?_ ?_ ?_ ?_ ?_ ?_ ?_ ?_ ?_ ?_ ?_) <;> first | exact Or.inl (Sub.of hm rfl) | with_reducible exact Or.inr rfl | skip))
    | (intro _ _ _) | (intro _ _) | (fail_if_no_progress extract_lets) | split | (refine Keeps.snd (by assumption) ?_)
    | (refine Keeps.fst (by assumption) ?_) | (refine Keeps.snd2 (by assumption) ?_) | (dsimp only)
    | (dsimp +zetaDelta only)

theorem keeps_writeChanGo {msk : Nat} {s₀ s : State} (c : Fin 64) (v : Word) (hk : Keeps msk s₀ s)
    (hm : Sub 0x20000090 msk := by first | assumption | (apply Sub.of; assumption; rfl)) :
    Keeps msk s₀ (writeChanGo c v s) := by
  unfold writeChanGo
  repeat' first
    | (with_reducible assumption) | ((with_reducible refine Sub.of hm ?_); exact rfl)
    | (with_reducible refine Keeps.ite ?_ ?_) | (with_reducible apply keeps_State_modChan)
    | (with_reducible apply keeps_submitJob) | (with_reducible apply keeps_startRun)
    | (with_reducible apply keeps_post)
    | (fail_if_no_progress ((with_reducible refine Keeps.upd ?_ ?_ ?_ ?_ ?_ ?_ ?_ ?_ ?_ ?_ ?_ ?_ ?_ ?_ ?_ ?_ ?_ ?_ ?_ ?_ ?_ ?_ ?_ ?_ ?_ ?_ ?_ ?_ ?_ ?_ ?_) <;> first | exact Or.inl (Sub.of hm rfl) | with_reducible exact Or.inr rfl | skip))
    | (fail_if_no_progress extract_lets) | split | (refine Keeps.snd (by assumption) ?_)
    | (refine Keeps.fst (by assumption) ?_) | (refine Keeps.snd2 (by assumption) ?_) | (dsimp only)
    | (dsimp +zetaDelta only)

theorem keeps_execChanGo {msk : Nat} {s₀ s : State} (dt : Nat) (fn : Fn) (c : Fin 64) (v : Word) (hk : Keeps msk s₀ (advance dt s))
    (hm : Sub 0x220000092 msk := by first | assumption | (apply Sub.of; assumption; rfl)) :
    KeepsA msk s₀ (execChanGo dt fn c v s) := by
  unfold execChanGo
  repeat' first
    | (with_reducible refine KeepsA.next ?_) | (with_reducible assumption)
    | ((with_reducible refine Sub.of hm ?_); exact rfl) | (with_reducible refine Keeps.ite ?_ ?_)
    | (with_reducible apply keeps_writeRegister) | (with_reducible apply keeps_writeChanGo)
    | (fail_if_no_progress ((with_reducible refine Keeps.upd ?_ ?_ ?_ ?_ ?_ ?_ ?_ ?_ ?_ ?_ ?_ ?_ ?_ ?_ ?_ ?_ ?_ ?_ ?_ ?_ ?_ ?_ ?_ ?_ ?_ ?_ ?_ ?_ ?_ ?_ ?_) <;> first | exact Or.inl (Sub.of hm rfl) | with_reducible exact Or.inr rfl | skip))
    | (intro _ _ _) | (intro _ _) | (fail_if_no_progress extract_lets) | split | (refine Keeps.snd (by assumption) ?_)
    | (refine Keeps.fst (by assumption) ?_) | (refine Keeps.snd2 (by assumption) ?_) | (dsimp only)
    | (dsimp +zetaDelta only)

theorem keeps_ctrlIgnored {msk : Nat} {s₀ s : State} (c : Fin 64) (hk : Keeps msk s₀ s)
    (hm : Sub 0x20000080 msk := by first | assumption | (apply Sub.of; assumption; rfl)) :
    Keeps msk s₀ (ctrlIgnored c s) := by
  unfold ctrlIgnored
  repeat' first
    | (with_reducible assumption) | ((with_reducible refine Sub.of hm ?_); exact rfl)
    | (with_reducible refine Keeps.ite ?_ ?_) | (with_reducible apply keeps_post)
    | (with_reducible apply keeps_State_modChan)
    | (fail_if_no_progress ((with_reducible refine Keeps.upd ?_ ?_ ?_ ?_ ?_ ?_ ?_ ?_ ?_ ?_ ?_ ?_ ?_ ?_ ?_ ?_ ?_ ?_ ?_ ?_ ?_ ?_ ?_ ?_ ?_ ?_ ?_ ?_ ?_ ?_ ?_) <;> first | exact Or.inl (Sub.of hm rfl) | with_reducible exact Or.inr rfl | skip))
    | (fail_if_no_progress extract_lets) | split | (refine Keeps.snd (by assumption) ?_)
    | (refine Keeps.fst (by assumption) ?_) | (refine Keeps.snd2 (by assumption) ?_) | (dsimp only)
    | (dsimp +zetaDelta only)

theorem keeps_writeChanCtrl {msk : Nat} {s₀ s : State} (c : Fin 64) (v : Word) (hk : Keeps msk s₀ s)
    (hm : Sub 0x2A0000092 msk := by first | assumption | (apply Sub.of; assumption; rfl)) :
    Keeps msk s₀ (writeChanCtrl c v s) := by
  unfold writeChanCtrl
  repeat' first
    | (with_reducible assumption) | ((with_reducible refine Sub.of hm ?_); exact rfl)
    | (with_reducible refine Keeps.ite ?_ ?_) | (with_reducible apply keeps_ctrlIgnored)
    | (with_reducible apply keeps_State_modChan) | (with_reducible apply keeps_chanNext)
    | (with_reducible apply keeps_flushRuns) | (with_reducible apply keeps_stopChan)
    | (fail_if_no_progress ((with_reducible refine Keeps.upd ?_ ?_ ?_ ?_ ?_ ?_ ?_ ?_ ?_ ?_ ?_ ?_ ?_ ?_ ?_ ?_ ?_ ?_ ?_ ?_ ?_ ?_ ?_ ?_ ?_ ?_ ?_ ?_ ?_ ?_ ?_) <;> first | exact Or.inl (Sub.of hm rfl) | with_reducible exact Or.inr rfl | skip))
    | (fail_if_no_progress extract_lets) | split | (refine Keeps.snd (by assumption) ?_)
    | (refine Keeps.fst (by assumption) ?_) | (refine Keeps.snd2 (by assumption) ?_) | (dsimp only)
    | (dsimp +zetaDelta only)

theorem keeps_execChanStop {msk : Nat} {s₀ s : State} (dt : Nat) (fn : Fn) (c : Fin 64) (v : Word) (hk : Keeps msk s₀ (advance dt s))
    (hm : Sub 0x2A0000092 msk := by first | assumption | (apply Sub.of; assumption; rfl)) :
    KeepsA msk s₀ (execChanStop dt fn c v s) := by
  unfold execChanStop
  repeat' first
    | (with_reducible refine KeepsA.next ?_) | (with_reducible assumption)
    | ((with_reducible refine Sub.of hm ?_); exact rfl) | (with_reducible refine Keeps.ite ?_ ?_)
    | (with_reducible apply keeps_writeRegister) | (with_reducible apply keeps_writeChanCtrl)
    | (fail_if_no_progress ((with_reducible refine Keeps.upd ?_ ?_ ?_ ?_ ?_ ?_ ?_ ?_ ?_ ?_ ?_ ?_ ?_ ?_ ?_ ?_ ?_ ?_ ?_ ?_ ?_ ?_ ?_ ?_ ?_ ?_ ?_ ?_ ?_ ?_ ?_) <;> first | exact Or.inl (Sub.of hm rfl) | with_reducible exact Or.inr rfl | skip))
    | (intro _ _ _) | (intro _ _) | (fail_if_no_progress extract_lets) | split | (refine Keeps.snd (by assumption) ?_)
    | (refine Keeps.fst (by assumption) ?_) | (refine Keeps.snd2 (by assumption) ?_) | (dsimp only)
    | (dsimp +zetaDelta only)

theorem keeps_execChanFlush {msk : Nat} {s₀ s : State} (dt : Nat) (fn : Fn) (c : Fin 64) (v : Word) (hk : Keeps msk s₀ (advance dt s))
    (hm : Sub 0x2A0000092 msk := by first | assumption | (apply Sub.of; assumption; rfl)) :
    KeepsA msk s₀ (execChanFlush dt fn c v s) := by
  unfold execChanFlush
  repeat' first
    | (with_reducible refine KeepsA.next ?_) | (with_reducible assumption)
    | ((with_reducible refine Sub.of hm ?_); exact rfl) | (with_reducible refine Keeps.ite ?_ ?_)
    | (with_reducible apply keeps_writeRegister) | (with_reducible apply keeps_writeChanCtrl)
    | (fail_if_no_progress ((with_reducible refine Keeps.upd ?_ ?_ ?_ ?_ ?_ ?_ ?_ ?_ ?_ ?_ ?_ ?_ ?_ ?_ ?_ ?_ ?_ ?_ ?_ ?_ ?_ ?_ ?_ ?_ ?_ ?_ ?_ ?_ ?_ ?_ ?_) <;> first | exact Or.inl (Sub.of hm rfl) | with_reducible exact Or.inr rfl | skip))
    | (intro _ _ _) | (intro _ _) | (fail_if_no_progress extract_lets) | split | (refine Keeps.snd (by assumption) ?_)
    | (refine Keeps.fst (by assumption) ?_) | (refine Keeps.snd2 (by assumption) ?_) | (dsimp only)
    | (dsimp +zetaDelta only)

theorem keeps_execChanRetry {msk : Nat} {s₀ s : State} (dt : Nat) (fn : Fn) (c : Fin 64) (v : Word) (hk : Keeps msk s₀ (advance dt s))
    (hm : Sub 0x2A0000092 msk := by first | assumption | (apply Sub.of; assumption; rfl)) :
    KeepsA msk s₀ (execChanRetry dt fn c v s) := by
  unfold execChanRetry
  repeat' first
    | (with_reducible refine KeepsA.next ?_) | (with_reducible assumption)
    | ((with_reducible refine Sub.of hm ?_); exact rfl) | (with_reducible refine Keeps.ite ?_ ?_)
    | (with_reducible apply keeps_writeRegister) | (with_reducible apply keeps_writeChanCtrl)
    | (fail_if_no_progress ((with_reducible refine Keeps.upd ?_ ?_ ?_ ?_ ?_ ?_ ?_ ?_ ?_ ?_ ?_ ?_ ?_ ?_ ?_ ?_ ?_ ?_ ?_ ?_ ?_ ?_ ?_ ?_ ?_ ?_ ?_ ?_ ?_ ?_ ?_) <;> first | exact Or.inl (Sub.of hm rfl) | with_reducible exact Or.inr rfl | skip))
    | (intro _ _ _) | (intro _ _) | (fail_if_no_progress extract_lets) | split | (refine Keeps.snd (by assumption) ?_)
    | (refine Keeps.fst (by assumption) ?_) | (refine Keeps.snd2 (by assumption) ?_) | (dsimp only)
    | (dsimp +zetaDelta only)

theorem keeps_execChanSkip {msk : Nat} {s₀ s : State} (dt : Nat) (fn : Fn) (c : Fin 64) (v : Word) (hk : Keeps msk s₀ (advance dt s))
    (hm : Sub 0x2A0000092 msk := by first | assumption | (apply Sub.of; assumption; rfl)) :
    KeepsA msk s₀ (execChanSkip dt fn c v s) := by
  unfold execChanSkip
  repeat' first
    | (with_reducible refine KeepsA.next ?_) | (with_reducible assumption)
    | ((with_reducible refine Sub.of hm ?_); exact rfl) | (with_reducible refine Keeps.ite ?_ ?_)
    | (with_reducible apply keeps_writeRegister) | (with_reducible apply keeps_writeChanCtrl)
    | (fail_if_no_progress ((with_reducible refine Keeps.upd ?_ ?_ ?_ ?_ ?_ ?_ ?_ ?_ ?_ ?_ ?_ ?_ ?_ ?_ ?_ ?_ ?_ ?_ ?_ ?_ ?_ ?_ ?_ ?_ ?_ ?_ ?_ ?_ ?_ ?_ ?_) <;> first | exact Or.inl (Sub.of hm rfl) | with_reducible exact Or.inr rfl | skip))
    | (intro _ _ _) | (intro _ _) | (fail_if_no_progress extract_lets) | split | (refine Keeps.snd (by assumption) ?_)
    | (refine Keeps.fst (by assumption) ?_) | (refine Keeps.snd2 (by assumption) ?_) | (dsimp only)
    | (dsimp +zetaDelta only)

theorem keeps_writeChanKick {msk : Nat} {s₀ s : State} (c : Fin 64) (v : Word) (hk : Keeps msk s₀ s)
    (hm : Sub 0x20000080 msk := by first | assumption | (apply Sub.of; assumption; rfl)) :
    Keeps msk s₀ (writeChanKick c v s) := by
  unfold writeChanKick
  repeat' first
    | (with_reducible assumption) | ((with_reducible refine Sub.of hm ?_); exact rfl)
    | (with_reducible refine Keeps.ite ?_ ?_) | (with_reducible apply keeps_slotAdd)
    | (with_reducible apply keeps_ctrlIgnored)
    | (fail_if_no_progress ((with_reducible refine Keeps.upd ?_ ?_ ?_ ?_ ?_ ?_ ?_ ?_ ?_ ?_ ?_ ?_ ?_ ?_ ?_ ?_ ?_ ?_ ?_ ?_ ?_ ?_ ?_ ?_ ?_ ?_ ?_ ?_ ?_ ?_ ?_) <;> first | exact Or.inl (Sub.of hm rfl) | with_reducible exact Or.inr rfl | skip))
    | (fail_if_no_progress extract_lets) | split | (refine Keeps.snd (by assumption) ?_)
    | (refine Keeps.fst (by assumption) ?_) | (refine Keeps.snd2 (by assumption) ?_) | (dsimp only)
    | (dsimp +zetaDelta only)

theorem keeps_execChanKick {msk : Nat} {s₀ s : State} (dt : Nat) (fn : Fn) (c : Fin 64) (v : Word) (hk : Keeps msk s₀ (advance dt s))
    (hm : Sub 0x220000082 msk := by first | assumption | (apply Sub.of; assumption; rfl)) :
    KeepsA msk s₀ (execChanKick dt fn c v s) := by
  unfold execChanKick
  repeat' first
    | (with_reducible refine KeepsA.next ?_) | (with_reducible assumption)
    | ((with_reducible refine Sub.of hm ?_); exact rfl) | (with_reducible refine Keeps.ite ?_ ?_)
    | (with_reducible apply keeps_writeRegister) | (with_reducible apply keeps_writeChanKick)
    | (fail_if_no_progress ((with_reducible refine Keeps.upd ?_ ?_ ?_ ?_ ?_ ?_ ?_ ?_ ?_ ?_ ?_ ?_ ?_ ?_ ?_ ?_ ?_ ?_ ?_ ?_ ?_ ?_ ?_ ?_ ?_ ?_ ?_ ?_ ?_ ?_ ?_) <;> first | exact Or.inl (Sub.of hm rfl) | with_reducible exact Or.inr rfl | skip))
    | (intro _ _ _) | (intro _ _) | (fail_if_no_progress extract_lets) | split | (refine Keeps.snd (by assumption) ?_)
    | (refine Keeps.fst (by assumption) ?_) | (refine Keeps.snd2 (by assumption) ?_) | (dsimp only)
    | (dsimp +zetaDelta only)

theorem keeps_readChanBytes {msk : Nat} {s₀ s : State} (c : Fin 64) (hk : Keeps msk s₀ s)
    (hm : Sub 0x20000000 msk := by first | assumption | (apply Sub.of; assumption; rfl)) :
    Keeps msk s₀ (readChanBytes c s).2 := by
  unfold readChanBytes
  repeat' first
    | (with_reducible assumption) | ((with_reducible refine Sub.of hm ?_); exact rfl)
    | (with_reducible refine Keeps.ite ?_ ?_) | (with_reducible apply keeps_State_modChan)
    | (fail_if_no_progress ((with_reducible refine Keeps.upd ?_ ?_ ?_ ?_ ?_ ?_ ?_ ?_ ?_ ?_ ?_ ?_ ?_ ?_ ?_ ?_ ?_ ?_ ?_ ?_ ?_ ?_ ?_ ?_ ?_ ?_ ?_ ?_ ?_ ?_ ?_) <;> first | exact Or.inl (Sub.of hm rfl) | with_reducible exact Or.inr rfl | skip))
    | (fail_if_no_progress extract_lets) | split | (refine Keeps.snd (by assumption) ?_)
    | (refine Keeps.fst (by assumption) ?_) | (refine Keeps.snd2 (by assumption) ?_) | (dsimp only)
    | (dsimp +zetaDelta only)

theorem keeps_execChanBytesLoRead {msk : Nat} {s₀ s : State} (dt : Nat) (fn : Fn) (c : Fin 64) (hk : Keeps msk s₀ (advance dt s))
    (hm : Sub 0x220000082 msk := by first | assumption | (apply Sub.of; assumption; rfl)) :
    KeepsA msk s₀ (execChanBytesLoRead dt fn c s) := by
  unfold execChanBytesLoRead
  repeat' first
    | (with_reducible refine KeepsA.next ?_) | (with_reducible assumption)
    | ((with_reducible refine Sub.of hm ?_); exact rfl) | (with_reducible refine Keeps.ite ?_ ?_)
    | (with_reducible apply keeps_readRegister) | (with_reducible apply keeps_readChanBytes)
    | (fail_if_no_progress ((with_reducible refine Keeps.upd ?_ ?_ ?_ ?_ ?_ ?_ ?_ ?_ ?_ ?_ ?_ ?_ ?_ ?_ ?_ ?_ ?_ ?_ ?_ ?_ ?_ ?_ ?_ ?_ ?_ ?_ ?_ ?_ ?_ ?_ ?_) <;> first | exact Or.inl (Sub.of hm rfl) | with_reducible exact Or.inr rfl | skip))
    | (intro _ _ _) | (intro _ _) | (fail_if_no_progress extract_lets) | split | (refine Keeps.snd (by assumption) ?_)
    | (refine Keeps.fst (by assumption) ?_) | (refine Keeps.snd2 (by assumption) ?_) | (dsimp only)
    | (dsimp +zetaDelta only)

theorem keeps_writeChanState {msk : Nat} {s₀ s : State} (c : Fin 64) (v : Word) (hk : Keeps msk s₀ s)
    (hm : Sub 0x20000080 msk := by first | assumption | (apply Sub.of; assumption; rfl)) :
    Keeps msk s₀ (writeChanState c v s) := by
  unfold writeChanState
  repeat' first
    | (with_reducible assumption) | ((with_reducible refine Sub.of hm ?_); exact rfl)
    | (with_reducible refine Keeps.ite ?_ ?_) | (with_reducible apply keeps_State_modChan)
    | (with_reducible apply keeps_ctrlIgnored)
    | (fail_if_no_progress ((with_reducible refine Keeps.upd ?_ ?_ ?_ ?_ ?_ ?_ ?_ ?_ ?_ ?_ ?_ ?_ ?_ ?_ ?_ ?_ ?_ ?_ ?_ ?_ ?_ ?_ ?_ ?_ ?_ ?_ ?_ ?_ ?_ ?_ ?_) <;> first | exact Or.inl (Sub.of hm rfl) | with_reducible exact Or.inr rfl | skip))
    | (fail_if_no_progress extract_lets) | split | (refine Keeps.snd (by assumption) ?_)
    | (refine Keeps.fst (by assumption) ?_) | (refine Keeps.snd2 (by assumption) ?_) | (dsimp only)
    | (dsimp +zetaDelta only)

theorem keeps_runInstr {msk : Nat} {s₀ s : State} (c : Fin 64) (is : List Byte → Bool) (body : List Byte → State → State) (h_body : ∀ (x0 : List Byte) (t : State), Keeps msk s₀ t → Keeps msk s₀ (body x0 t)) (hk : Keeps msk s₀ s)
    (hm : Sub 0x2A0000092 msk := by first | assumption | (apply Sub.of; assumption; rfl)) :
    Keeps msk s₀ (runInstr c is body s) := by
  unfold runInstr
  repeat' first
    | (with_reducible assumption) | ((with_reducible refine Sub.of hm ?_); exact rfl)
    | (with_reducible refine Keeps.ite ?_ ?_) | (with_reducible apply h_body) | (with_reducible apply keeps_haltChan)
    | (fail_if_no_progress ((with_reducible refine Keeps.upd ?_ ?_ ?_ ?_ ?_ ?_ ?_ ?_ ?_ ?_ ?_ ?_ ?_ ?_ ?_ ?_ ?_ ?_ ?_ ?_ ?_ ?_ ?_ ?_ ?_ ?_ ?_ ?_ ?_ ?_ ?_) <;> first | exact Or.inl (Sub.of hm rfl) | with_reducible exact Or.inr rfl | skip))
    | (fail_if_no_progress extract_lets) | split | (refine Keeps.snd (by assumption) ?_)
    | (refine Keeps.fst (by assumption) ?_) | (refine Keeps.snd2 (by assumption) ?_) | (dsimp only)
    | (dsimp +zetaDelta only)

theorem keeps_chanDone {msk : Nat} {s₀ s : State} (c : Fin 64) (hk : Keeps msk s₀ s)
    (hm : Sub 0x2A0000092 msk := by first | assumption | (apply Sub.of; assumption; rfl)) :
    Keeps msk s₀ (chanDone c s) := by
  unfold chanDone
  repeat' first
    | (with_reducible assumption) | ((with_reducible refine Sub.of hm ?_); exact rfl)
    | (with_reducible refine Keeps.ite ?_ ?_) | (with_reducible apply keeps_stopRun)
    | (with_reducible apply keeps_chanNext)
    | (fail_if_no_progress ((with_reducible refine Keeps.upd ?_ ?_ ?_ ?_ ?_ ?_ ?_ ?_ ?_ ?_ ?_ ?_ ?_ ?_ ?_ ?_ ?_ ?_ ?_ ?_ ?_ ?_ ?_ ?_ ?_ ?_ ?_ ?_ ?_ ?_ ?_) <;> first | exact Or.inl (Sub.of hm rfl) | with_reducible exact Or.inr rfl | skip))
    | (fail_if_no_progress extract_lets) | split | (refine Keeps.snd (by assumption) ?_)
    | (refine Keeps.fst (by assumption) ?_) | (refine Keeps.snd2 (by assumption) ?_) | (dsimp only)
    | (dsimp +zetaDelta only)

theorem keeps_sendBursts {msk : Nat} {s₀ s : State} (fn : Fn) (data : Bool) (l : List (Nat × Nat)) (bytes : List Byte)
    (hk : Keeps msk s₀ s)
    (hm : Sub 0x200000000 msk := by first | assumption | (apply Sub.of; assumption; rfl)) : Keeps msk s₀ (sendBursts fn data l bytes s) := by
  induction l generalizing s bytes with
  | nil => exact hk
  | cons p rest ih => exact ih _ (keeps_hostSend _ _ _ _ hk)

theorem keeps_writeSide {msk : Nat} {s₀ s : State} (fn : Fn) (space : Nat) (data : Bool) (l : List (Nat × Nat))
    (bytes : List Byte) (hk : Keeps msk s₀ s)
    (hm : Sub 0x380000000 msk := by first | assumption | (apply Sub.of; assumption; rfl)) : Keeps msk s₀ (writeSide fn space data l bytes s) := by
  induction l generalizing s bytes with
  | nil => exact hk
  | cons p rest ih =>
    unfold writeSide
    refine ih _ ?_
    repeat' first
      | (with_reducible assumption) | ((with_reducible refine Sub.of hm ?_); exact rfl) | (with_reducible refine Keeps.ite ?_ ?_)
      | (with_reducible apply keeps_sendBursts)
      | (with_reducible apply keeps_millWrite) | (with_reducible apply keeps_lpWrite)

theorem keeps_accountWrite {msk : Nat} {s₀ s : State} (c : Fin 64) (d : Side) (n : Nat) (hk : Keeps msk s₀ s)
    (hm : Sub 0x20000000 msk := by first | assumption | (apply Sub.of; assumption; rfl)) :
    Keeps msk s₀ (accountWrite c d n s) := by
  unfold accountWrite
  repeat' first
    | (with_reducible assumption) | ((with_reducible refine Sub.of hm ?_); exact rfl)
    | (with_reducible refine Keeps.ite ?_ ?_) | (with_reducible apply keeps_State_modChan)
    | (fail_if_no_progress ((with_reducible refine Keeps.upd ?_ ?_ ?_ ?_ ?_ ?_ ?_ ?_ ?_ ?_ ?_ ?_ ?_ ?_ ?_ ?_ ?_ ?_ ?_ ?_ ?_ ?_ ?_ ?_ ?_ ?_ ?_ ?_ ?_ ?_ ?_) <;> first | exact Or.inl (Sub.of hm rfl) | with_reducible exact Or.inr rfl | skip))
    | (fail_if_no_progress extract_lets) | split | (refine Keeps.snd (by assumption) ?_)
    | (refine Keeps.fst (by assumption) ?_) | (refine Keeps.snd2 (by assumption) ?_) | (dsimp only)
    | (dsimp +zetaDelta only)

theorem keeps_drawBytes {msk : Nat} {s₀ s : State} (n : Nat) (hk : Keeps msk s₀ s)
    (hm : Sub 0x400000000 msk := by first | assumption | (apply Sub.of; assumption; rfl)) : Keeps msk s₀ (drawBytes n s).2 :=
  hk.trans ⟨⟨rfl, Nat.le_refl _, Nat.le_add_right _ _, List.suffix_refl _, id, id, rfl, id⟩,
    by constructor <;> first | exact fun hb => Sub.no hb (Sub.of hm rfl) rfl | exact fun _ => rfl | rfl⟩

theorem keeps_sourceBytes {msk : Nat} {s₀ s : State} (src : Side) (dst : Side) (host : List Byte) (hk : Keeps msk s₀ s)
    (hm : Sub 0x400000000 msk := by first | assumption | (apply Sub.of; assumption; rfl)) :
    Keeps msk s₀ (sourceBytes src dst host s).2 := by
  unfold sourceBytes
  repeat' first
    | (with_reducible assumption) | ((with_reducible refine Sub.of hm ?_); exact rfl)
    | (with_reducible refine Keeps.ite ?_ ?_) | (with_reducible apply keeps_drawBytes)
    | (fail_if_no_progress ((with_reducible refine Keeps.upd ?_ ?_ ?_ ?_ ?_ ?_ ?_ ?_ ?_ ?_ ?_ ?_ ?_ ?_ ?_ ?_ ?_ ?_ ?_ ?_ ?_ ?_ ?_ ?_ ?_ ?_ ?_ ?_ ?_ ?_ ?_) <;> first | exact Or.inl (Sub.of hm rfl) | with_reducible exact Or.inr rfl | skip))
    | (fail_if_no_progress extract_lets) | split | (refine Keeps.snd (by assumption) ?_)
    | (refine Keeps.fst (by assumption) ?_) | (refine Keeps.snd2 (by assumption) ?_) | (dsimp only)
    | (dsimp +zetaDelta only)

theorem keeps_transfer {msk : Nat} {s₀ s : State} (c : Fin 64) (src : Side) (dst : Side) (swap : Nat) (host : List Byte) (fault : Option BusFault) (corrected : Nat) (finish : State → State) (h_finish : ∀ (t : State), Keeps msk s₀ t → Keeps msk s₀ (finish t)) (hk : Keeps msk s₀ s)
    (hm : Sub 0x7B0000092 msk := by first | assumption | (apply Sub.of; assumption; rfl)) :
    Keeps msk s₀ (transfer c src dst swap host fault corrected finish s) := by
  unfold transfer
  repeat' first
    | (with_reducible refine KeepsO.ite ?_ ?_) | (with_reducible refine KeepsO.some ?_)
    | (with_reducible exact KeepsO.none) | (with_reducible assumption)
    | ((with_reducible refine Sub.of hm ?_); exact rfl) | (with_reducible refine Keeps.ite ?_ ?_)
    | (with_reducible apply h_finish) | (with_reducible apply keeps_sourceBytes)
    | (with_reducible apply keeps_correctedReads) | (with_reducible apply keeps_accountWrite)
    | (with_reducible apply keeps_writeSide) | (with_reducible apply keeps_State_modChan)
    | (with_reducible apply keeps_chanDone) | (with_reducible apply keeps_finish) | (with_reducible apply keeps_draw)
    | (with_reducible apply keeps_readErrors) | (with_reducible apply keeps_haltChan)
    | (fail_if_no_progress ((with_reducible refine Keeps.upd ?_ ?_ ?_ ?_ ?_ ?_ ?_ ?_ ?_ ?_ ?_ ?_ ?_ ?_ ?_ ?_ ?_ ?_ ?_ ?_ ?_ ?_ ?_ ?_ ?_ ?_ ?_ ?_ ?_ ?_ ?_) <;> first | exact Or.inl (Sub.of hm rfl) | with_reducible exact Or.inr rfl | skip))
    | (fail_if_no_progress extract_lets) | split | (refine Keeps.snd (by assumption) ?_)
    | (refine Keeps.fst (by assumption) ?_) | (refine Keeps.snd2 (by assumption) ?_) | (dsimp only)
    | (dsimp +zetaDelta only) | (exact Keeps.of_some (by assumption) (by assumption))

theorem keeps_cutTransfer {msk : Nat} {s₀ s : State} (c : Fin 64) (src : Side) (dst : Side) (swap : Nat) (hk : Keeps msk s₀ s)
    (hm : Sub 0x7A0000000 msk := by first | assumption | (apply Sub.of; assumption; rfl)) :
    Keeps msk s₀ (cutTransfer c src dst swap s) := by
  unfold cutTransfer
  repeat' first
    | (with_reducible assumption) | ((with_reducible refine Sub.of hm ?_); exact rfl)
    | (with_reducible refine Keeps.ite ?_ ?_) | (with_reducible apply keeps_draw)
    | (with_reducible apply keeps_drawBytes) | (with_reducible apply keeps_sourceBytes)
    | (with_reducible apply keeps_accountWrite) | (with_reducible apply keeps_writeSide)
    | (fail_if_no_progress ((with_reducible refine Keeps.upd ?_ ?_ ?_ ?_ ?_ ?_ ?_ ?_ ?_ ?_ ?_ ?_ ?_ ?_ ?_ ?_ ?_ ?_ ?_ ?_ ?_ ?_ ?_ ?_ ?_ ?_ ?_ ?_ ?_ ?_ ?_) <;> first | exact Or.inl (Sub.of hm rfl) | with_reducible exact Or.inr rfl | skip))
    | (fail_if_no_progress extract_lets) | split | (refine Keeps.snd (by assumption) ?_)
    | (refine Keeps.fst (by assumption) ?_) | (refine Keeps.snd2 (by assumption) ?_) | (dsimp only)
    | (dsimp +zetaDelta only)

theorem keeps_haltOperand {msk : Nat} {s₀ s : State} (c : Fin 64) (p : Ptr) (hk : Keeps msk s₀ s)
    (hm : Sub 0x2A0000092 msk := by first | assumption | (apply Sub.of; assumption; rfl)) :
    Keeps msk s₀ (haltOperand c p s) := by
  unfold haltOperand
  repeat' first
    | (with_reducible assumption) | ((with_reducible refine Sub.of hm ?_); exact rfl)
    | (with_reducible refine Keeps.ite ?_ ?_) | (with_reducible apply keeps_haltChan)
    | (fail_if_no_progress ((with_reducible refine Keeps.upd ?_ ?_ ?_ ?_ ?_ ?_ ?_ ?_ ?_ ?_ ?_ ?_ ?_ ?_ ?_ ?_ ?_ ?_ ?_ ?_ ?_ ?_ ?_ ?_ ?_ ?_ ?_ ?_ ?_ ?_ ?_) <;> first | exact Or.inl (Sub.of hm rfl) | with_reducible exact Or.inr rfl | skip))
    | (fail_if_no_progress extract_lets) | split | (refine Keeps.snd (by assumption) ?_)
    | (refine Keeps.fst (by assumption) ?_) | (refine Keeps.snd2 (by assumption) ?_) | (dsimp only)
    | (dsimp +zetaDelta only)

theorem keeps_addPtr {msk : Nat} {s₀ s : State} (c : Fin 64) (p : Fin 8) (n : Int) (hk : Keeps msk s₀ s)
    (hm : Sub 0x20000000 msk := by first | assumption | (apply Sub.of; assumption; rfl)) :
    Keeps msk s₀ (addPtr c p n s) := by
  unfold addPtr
  repeat' first
    | (with_reducible assumption) | ((with_reducible refine Sub.of hm ?_); exact rfl)
    | (with_reducible refine Keeps.ite ?_ ?_) | (with_reducible apply keeps_State_modChan)
    | (fail_if_no_progress ((with_reducible refine Keeps.upd ?_ ?_ ?_ ?_ ?_ ?_ ?_ ?_ ?_ ?_ ?_ ?_ ?_ ?_ ?_ ?_ ?_ ?_ ?_ ?_ ?_ ?_ ?_ ?_ ?_ ?_ ?_ ?_ ?_ ?_ ?_) <;> first | exact Or.inl (Sub.of hm rfl) | with_reducible exact Or.inr rfl | skip))
    | (fail_if_no_progress extract_lets) | split | (refine Keeps.snd (by assumption) ?_)
    | (refine Keeps.fst (by assumption) ?_) | (refine Keeps.snd2 (by assumption) ?_) | (dsimp only)
    | (dsimp +zetaDelta only)

theorem keeps_runData {msk : Nat} {s₀ s : State} (c : Fin 64) (sides : Chan → List Byte → Ptr ⊕ DataMove) (host : List Byte) (fault : Option BusFault) (corrected : Nat) (b : List Byte) (hk : Keeps msk s₀ s)
    (hm : Sub 0x7B0000092 msk := by first | assumption | (apply Sub.of; assumption; rfl)) :
    Keeps msk s₀ (runData c sides host fault corrected b s) := by
  unfold runData
  repeat' first
    | (with_reducible assumption) | ((with_reducible refine Sub.of hm ?_); exact rfl)
    | (with_reducible refine Keeps.ite ?_ ?_) | (with_reducible apply keeps_haltOperand)
    | (with_reducible apply keeps_transfer) | (with_reducible apply keeps_addPtr)
    | (fail_if_no_progress ((with_reducible refine Keeps.upd ?_ ?_ ?_ ?_ ?_ ?_ ?_ ?_ ?_ ?_ ?_ ?_ ?_ ?_ ?_ ?_ ?_ ?_ ?_ ?_ ?_ ?_ ?_ ?_ ?_ ?_ ?_ ?_ ?_ ?_ ?_) <;> first | exact Or.inl (Sub.of hm rfl) | with_reducible exact Or.inr rfl | skip))
    | (intro _ _ _) | (intro _ _) | (fail_if_no_progress extract_lets) | split | (refine Keeps.snd (by assumption) ?_)
    | (refine Keeps.fst (by assumption) ?_) | (refine Keeps.snd2 (by assumption) ?_) | (dsimp only)
    | (dsimp +zetaDelta only)

theorem keeps_execMove {msk : Nat} {s₀ s : State} (dt : Nat) (c : Fin 64) (hostData : List Byte) (fault : Option BusFault) (corrected : Nat) (hk : Keeps msk s₀ (advance dt s))
    (hm : Sub 0x7B0000092 msk := by first | assumption | (apply Sub.of; assumption; rfl)) :
    KeepsA msk s₀ (execMove dt c hostData fault corrected s) := by
  unfold execMove
  repeat' first
    | (with_reducible refine KeepsA.next ?_) | (with_reducible assumption)
    | ((with_reducible refine Sub.of hm ?_); exact rfl) | (with_reducible refine Keeps.ite ?_ ?_)
    | (with_reducible apply keeps_runInstr) | (with_reducible apply keeps_runData)
    | (fail_if_no_progress ((with_reducible refine Keeps.upd ?_ ?_ ?_ ?_ ?_ ?_ ?_ ?_ ?_ ?_ ?_ ?_ ?_ ?_ ?_ ?_ ?_ ?_ ?_ ?_ ?_ ?_ ?_ ?_ ?_ ?_ ?_ ?_ ?_ ?_ ?_) <;> first | exact Or.inl (Sub.of hm rfl) | with_reducible exact Or.inr rfl | skip))
    | (intro _ _ _) | (intro _ _) | (fail_if_no_progress extract_lets) | split | (refine Keeps.snd (by assumption) ?_)
    | (refine Keeps.fst (by assumption) ?_) | (refine Keeps.snd2 (by assumption) ?_) | (dsimp only)
    | (dsimp +zetaDelta only)

theorem keeps_execMove2d {msk : Nat} {s₀ s : State} (dt : Nat) (c : Fin 64) (hostData : List Byte) (fault : Option BusFault) (corrected : Nat) (hk : Keeps msk s₀ (advance dt s))
    (hm : Sub 0x7B0000092 msk := by first | assumption | (apply Sub.of; assumption; rfl)) :
    KeepsA msk s₀ (execMove2d dt c hostData fault corrected s) := by
  unfold execMove2d
  repeat' first
    | (with_reducible refine KeepsA.next ?_) | (with_reducible assumption)
    | ((with_reducible refine Sub.of hm ?_); exact rfl) | (with_reducible refine Keeps.ite ?_ ?_)
    | (with_reducible apply keeps_runInstr) | (with_reducible apply keeps_runData)
    | (fail_if_no_progress ((with_reducible refine Keeps.upd ?_ ?_ ?_ ?_ ?_ ?_ ?_ ?_ ?_ ?_ ?_ ?_ ?_ ?_ ?_ ?_ ?_ ?_ ?_ ?_ ?_ ?_ ?_ ?_ ?_ ?_ ?_ ?_ ?_ ?_ ?_) <;> first | exact Or.inl (Sub.of hm rfl) | with_reducible exact Or.inr rfl | skip))
    | (intro _ _ _) | (intro _ _) | (fail_if_no_progress extract_lets) | split | (refine Keeps.snd (by assumption) ?_)
    | (refine Keeps.fst (by assumption) ?_) | (refine Keeps.snd2 (by assumption) ?_) | (dsimp only)
    | (dsimp +zetaDelta only)

theorem keeps_cutData {msk : Nat} {s₀ s : State} (c : Fin 64) (hk : Keeps msk s₀ s)
    (hm : Sub 0x7A0000000 msk := by first | assumption | (apply Sub.of; assumption; rfl)) :
    Keeps msk s₀ (cutData c s) := by
  unfold cutData
  repeat' first
    | (with_reducible assumption) | ((with_reducible refine Sub.of hm ?_); exact rfl)
    | (with_reducible refine Keeps.ite ?_ ?_) | (with_reducible apply keeps_cutTransfer)
    | (fail_if_no_progress ((with_reducible refine Keeps.upd ?_ ?_ ?_ ?_ ?_ ?_ ?_ ?_ ?_ ?_ ?_ ?_ ?_ ?_ ?_ ?_ ?_ ?_ ?_ ?_ ?_ ?_ ?_ ?_ ?_ ?_ ?_ ?_ ?_ ?_ ?_) <;> first | exact Or.inl (Sub.of hm rfl) | with_reducible exact Or.inr rfl | skip))
    | (fail_if_no_progress extract_lets) | split | (refine Keeps.snd (by assumption) ?_)
    | (refine Keeps.fst (by assumption) ?_) | (refine Keeps.snd2 (by assumption) ?_) | (dsimp only)
    | (dsimp +zetaDelta only)

theorem keeps_cutChans {msk : Nat} {s₀ s : State} (fn : Fn) (hk : Keeps msk s₀ s)
    (hm : Sub 0x7A0000000 msk := by first | assumption | (apply Sub.of; assumption; rfl)) :
    Keeps msk s₀ (cutChans fn s) := by
  unfold cutChans
  repeat' first
    | (with_reducible assumption) | ((with_reducible refine Sub.of hm ?_); exact rfl)
    | (with_reducible refine Keeps.ite ?_ ?_) | (with_reducible apply keeps_cutData)
    | (with_reducible refine Keeps.foldl (fun _ _ _ => ?_) ?_)
    | (with_reducible refine Keeps.foldl2 (fun _ _ _ => ?_) ?_)
    | (with_reducible refine Keeps.foldl1 (fun _ _ _ => ?_) ?_)
    | (fail_if_no_progress ((with_reducible refine Keeps.upd ?_ ?_ ?_ ?_ ?_ ?_ ?_ ?_ ?_ ?_ ?_ ?_ ?_ ?_ ?_ ?_ ?_ ?_ ?_ ?_ ?_ ?_ ?_ ?_ ?_ ?_ ?_ ?_ ?_ ?_ ?_) <;> first | exact Or.inl (Sub.of hm rfl) | with_reducible exact Or.inr rfl | skip))
    | (fail_if_no_progress extract_lets) | split | (refine Keeps.snd (by assumption) ?_)
    | (refine Keeps.fst (by assumption) ?_) | (refine Keeps.snd2 (by assumption) ?_) | (dsimp only)
    | (dsimp +zetaDelta only)

theorem keeps_runLoop {msk : Nat} {s₀ s : State} (c : Fin 64) (b : List Byte) (hk : Keeps msk s₀ s)
    (hm : Sub 0x2A0000092 msk := by first | assumption | (apply Sub.of; assumption; rfl)) :
    Keeps msk s₀ (runLoop c b s) := by
  unfold runLoop
  repeat' first
    | (with_reducible assumption) | ((with_reducible refine Sub.of hm ?_); exact rfl)
    | (with_reducible refine Keeps.ite ?_ ?_) | (with_reducible apply keeps_chanDone)
    | (with_reducible apply keeps_State_modChan)
    | (fail_if_no_progress ((with_reducible refine Keeps.upd ?_ ?_ ?_ ?_ ?_ ?_ ?_ ?_ ?_ ?_ ?_ ?_ ?_ ?_ ?_ ?_ ?_ ?_ ?_ ?_ ?_ ?_ ?_ ?_ ?_ ?_ ?_ ?_ ?_ ?_ ?_) <;> first | exact Or.inl (Sub.of hm rfl) | with_reducible exact Or.inr rfl | skip))
    | (fail_if_no_progress extract_lets) | split | (refine Keeps.snd (by assumption) ?_)
    | (refine Keeps.fst (by assumption) ?_) | (refine Keeps.snd2 (by assumption) ?_) | (dsimp only)
    | (dsimp +zetaDelta only)

theorem keeps_execLoop {msk : Nat} {s₀ s : State} (dt : Nat) (c : Fin 64) (hk : Keeps msk s₀ (advance dt s))
    (hm : Sub 0x2A0000092 msk := by first | assumption | (apply Sub.of; assumption; rfl)) :
    KeepsA msk s₀ (execLoop dt c s) := by
  unfold execLoop
  repeat' first
    | (with_reducible refine KeepsA.next ?_) | (with_reducible assumption)
    | ((with_reducible refine Sub.of hm ?_); exact rfl) | (with_reducible refine Keeps.ite ?_ ?_)
    | (with_reducible apply keeps_runInstr) | (with_reducible apply keeps_runLoop)
    | (fail_if_no_progress ((with_reducible refine Keeps.upd ?_ ?_ ?_ ?_ ?_ ?_ ?_ ?_ ?_ ?_ ?_ ?_ ?_ ?_ ?_ ?_ ?_ ?_ ?_ ?_ ?_ ?_ ?_ ?_ ?_ ?_ ?_ ?_ ?_ ?_ ?_) <;> first | exact Or.inl (Sub.of hm rfl) | with_reducible exact Or.inr rfl | skip))
    | (intro _ _ _) | (intro _ _) | (fail_if_no_progress extract_lets) | split | (refine Keeps.snd (by assumption) ?_)
    | (refine Keeps.fst (by assumption) ?_) | (refine Keeps.snd2 (by assumption) ?_) | (dsimp only)
    | (dsimp +zetaDelta only)

theorem keeps_runEndLoop {msk : Nat} {s₀ s : State} (c : Fin 64) (hk : Keeps msk s₀ s)
    (hm : Sub 0x2A0000092 msk := by first | assumption | (apply Sub.of; assumption; rfl)) :
    Keeps msk s₀ (runEndLoop c s) := by
  unfold runEndLoop
  repeat' first
    | (with_reducible assumption) | ((with_reducible refine Sub.of hm ?_); exact rfl)
    | (with_reducible refine Keeps.ite ?_ ?_) | (with_reducible apply keeps_chanDone)
    | (with_reducible apply keeps_State_modChan)
    | (fail_if_no_progress ((with_reducible refine Keeps.upd ?_ ?_ ?_ ?_ ?_ ?_ ?_ ?_ ?_ ?_ ?_ ?_ ?_ ?_ ?_ ?_ ?_ ?_ ?_ ?_ ?_ ?_ ?_ ?_ ?_ ?_ ?_ ?_ ?_ ?_ ?_) <;> first | exact Or.inl (Sub.of hm rfl) | with_reducible exact Or.inr rfl | skip))
    | (fail_if_no_progress extract_lets) | split | (refine Keeps.snd (by assumption) ?_)
    | (refine Keeps.fst (by assumption) ?_) | (refine Keeps.snd2 (by assumption) ?_) | (dsimp only)
    | (dsimp +zetaDelta only)

theorem keeps_execEndLoop {msk : Nat} {s₀ s : State} (dt : Nat) (c : Fin 64) (hk : Keeps msk s₀ (advance dt s))
    (hm : Sub 0x2A0000092 msk := by first | assumption | (apply Sub.of; assumption; rfl)) :
    KeepsA msk s₀ (execEndLoop dt c s) := by
  unfold execEndLoop
  repeat' first
    | (with_reducible refine KeepsA.next ?_) | (with_reducible assumption)
    | ((with_reducible refine Sub.of hm ?_); exact rfl) | (with_reducible refine Keeps.ite ?_ ?_)
    | (with_reducible apply keeps_runInstr) | (with_reducible apply keeps_runEndLoop)
    | (fail_if_no_progress ((with_reducible refine Keeps.upd ?_ ?_ ?_ ?_ ?_ ?_ ?_ ?_ ?_ ?_ ?_ ?_ ?_ ?_ ?_ ?_ ?_ ?_ ?_ ?_ ?_ ?_ ?_ ?_ ?_ ?_ ?_ ?_ ?_ ?_ ?_) <;> first | exact Or.inl (Sub.of hm rfl) | with_reducible exact Or.inr rfl | skip))
    | (intro _ _ _) | (intro _ _) | (fail_if_no_progress extract_lets) | split | (refine Keeps.snd (by assumption) ?_)
    | (refine Keeps.fst (by assumption) ?_) | (refine Keeps.snd2 (by assumption) ?_) | (dsimp only)
    | (dsimp +zetaDelta only)

theorem keeps_runWait {msk : Nat} {s₀ s : State} (c : Fin 64) (b : List Byte) (hk : Keeps msk s₀ s)
    (hm : Sub 0x2A0000092 msk := by first | assumption | (apply Sub.of; assumption; rfl)) :
    Keeps msk s₀ (runWait c b s) := by
  unfold runWait
  repeat' first
    | (with_reducible assumption) | ((with_reducible refine Sub.of hm ?_); exact rfl)
    | (with_reducible refine Keeps.ite ?_ ?_) | (with_reducible apply keeps_chanDone)
    | (with_reducible apply keeps_State_modChan) | (with_reducible apply keeps_failWait)
    | (fail_if_no_progress ((with_reducible refine Keeps.upd ?_ ?_ ?_ ?_ ?_ ?_ ?_ ?_ ?_ ?_ ?_ ?_ ?_ ?_ ?_ ?_ ?_ ?_ ?_ ?_ ?_ ?_ ?_ ?_ ?_ ?_ ?_ ?_ ?_ ?_ ?_) <;> first | exact Or.inl (Sub.of hm rfl) | with_reducible exact Or.inr rfl | skip))
    | (fail_if_no_progress extract_lets) | split | (refine Keeps.snd (by assumption) ?_)
    | (refine Keeps.fst (by assumption) ?_) | (refine Keeps.snd2 (by assumption) ?_) | (dsimp only)
    | (dsimp +zetaDelta only)

theorem keeps_execWait {msk : Nat} {s₀ s : State} (dt : Nat) (c : Fin 64) (hk : Keeps msk s₀ (advance dt s))
    (hm : Sub 0x2A0000092 msk := by first | assumption | (apply Sub.of; assumption; rfl)) :
    KeepsA msk s₀ (execWait dt c s) := by
  unfold execWait
  repeat' first
    | (with_reducible refine KeepsA.next ?_) | (with_reducible assumption)
    | ((with_reducible refine Sub.of hm ?_); exact rfl) | (with_reducible refine Keeps.ite ?_ ?_)
    | (with_reducible apply keeps_runInstr) | (with_reducible apply keeps_runWait)
    | (fail_if_no_progress ((with_reducible refine Keeps.upd ?_ ?_ ?_ ?_ ?_ ?_ ?_ ?_ ?_ ?_ ?_ ?_ ?_ ?_ ?_ ?_ ?_ ?_ ?_ ?_ ?_ ?_ ?_ ?_ ?_ ?_ ?_ ?_ ?_ ?_ ?_) <;> first | exact Or.inl (Sub.of hm rfl) | with_reducible exact Or.inr rfl | skip))
    | (intro _ _ _) | (intro _ _) | (fail_if_no_progress extract_lets) | split | (refine Keeps.snd (by assumption) ?_)
    | (refine Keeps.fst (by assumption) ?_) | (refine Keeps.snd2 (by assumption) ?_) | (dsimp only)
    | (dsimp +zetaDelta only)

theorem keeps_waitMet {msk : Nat} {s₀ s : State} (c : Fin 64) (hk : Keeps msk s₀ s)
    (hm : Sub 0x20000000 msk := by first | assumption | (apply Sub.of; assumption; rfl)) :
    Keeps msk s₀ (waitMet c s) := by
  unfold waitMet
  repeat' first
    | (with_reducible assumption) | ((with_reducible refine Sub.of hm ?_); exact rfl)
    | (with_reducible refine Keeps.ite ?_ ?_) | (with_reducible apply keeps_chanNext)
    | (with_reducible apply keeps_State_modChan)
    | (fail_if_no_progress ((with_reducible refine Keeps.upd ?_ ?_ ?_ ?_ ?_ ?_ ?_ ?_ ?_ ?_ ?_ ?_ ?_ ?_ ?_ ?_ ?_ ?_ ?_ ?_ ?_ ?_ ?_ ?_ ?_ ?_ ?_ ?_ ?_ ?_ ?_) <;> first | exact Or.inl (Sub.of hm rfl) | with_reducible exact Or.inr rfl | skip))
    | (fail_if_no_progress extract_lets) | split | (refine Keeps.snd (by assumption) ?_)
    | (refine Keeps.fst (by assumption) ?_) | (refine Keeps.snd2 (by assumption) ?_) | (dsimp only)
    | (dsimp +zetaDelta only)

theorem keeps_execWaitSatisfied {msk : Nat} {s₀ s : State} (dt : Nat) (c : Fin 64) (hk : Keeps msk s₀ (advance dt s))
    (hm : Sub 0x20000000 msk := by first | assumption | (apply Sub.of; assumption; rfl)) :
    KeepsA msk s₀ (execWaitSatisfied dt c s) := by
  unfold execWaitSatisfied
  repeat' first
    | (with_reducible refine KeepsA.next ?_) | (with_reducible assumption)
    | ((with_reducible refine Sub.of hm ?_); exact rfl) | (with_reducible refine Keeps.ite ?_ ?_)
    | (with_reducible apply keeps_waitMet)
    | (fail_if_no_progress ((with_reducible refine Keeps.upd ?_ ?_ ?_ ?_ ?_ ?_ ?_ ?_ ?_ ?_ ?_ ?_ ?_ ?_ ?_ ?_ ?_ ?_ ?_ ?_ ?_ ?_ ?_ ?_ ?_ ?_ ?_ ?_ ?_ ?_ ?_) <;> first | exact Or.inl (Sub.of hm rfl) | with_reducible exact Or.inr rfl | skip))
    | (fail_if_no_progress extract_lets) | split | (refine Keeps.snd (by assumption) ?_)
    | (refine Keeps.fst (by assumption) ?_) | (refine Keeps.snd2 (by assumption) ?_) | (dsimp only)
    | (dsimp +zetaDelta only)

theorem keeps_waitTimedOut {msk : Nat} {s₀ s : State} (c : Fin 64) (hk : Keeps msk s₀ s)
    (hm : Sub 0x2A0000092 msk := by first | assumption | (apply Sub.of; assumption; rfl)) :
    Keeps msk s₀ (waitTimedOut c s) := by
  unfold waitTimedOut
  repeat' first
    | (with_reducible assumption) | ((with_reducible refine Sub.of hm ?_); exact rfl)
    | (with_reducible refine Keeps.ite ?_ ?_) | (with_reducible apply keeps_failWait)
    | (fail_if_no_progress ((with_reducible refine Keeps.upd ?_ ?_ ?_ ?_ ?_ ?_ ?_ ?_ ?_ ?_ ?_ ?_ ?_ ?_ ?_ ?_ ?_ ?_ ?_ ?_ ?_ ?_ ?_ ?_ ?_ ?_ ?_ ?_ ?_ ?_ ?_) <;> first | exact Or.inl (Sub.of hm rfl) | with_reducible exact Or.inr rfl | skip))
    | (fail_if_no_progress extract_lets) | split | (refine Keeps.snd (by assumption) ?_)
    | (refine Keeps.fst (by assumption) ?_) | (refine Keeps.snd2 (by assumption) ?_) | (dsimp only)
    | (dsimp +zetaDelta only)

theorem keeps_execWaitTimeout {msk : Nat} {s₀ s : State} (dt : Nat) (c : Fin 64) (hk : Keeps msk s₀ (advance dt s))
    (hm : Sub 0x2A0000092 msk := by first | assumption | (apply Sub.of; assumption; rfl)) :
    KeepsA msk s₀ (execWaitTimeout dt c s) := by
  unfold execWaitTimeout
  repeat' first
    | (with_reducible refine KeepsA.next ?_) | (with_reducible assumption)
    | ((with_reducible refine Sub.of hm ?_); exact rfl) | (with_reducible refine Keeps.ite ?_ ?_)
    | (with_reducible apply keeps_waitTimedOut)
    | (fail_if_no_progress ((with_reducible refine Keeps.upd ?_ ?_ ?_ ?_ ?_ ?_ ?_ ?_ ?_ ?_ ?_ ?_ ?_ ?_ ?_ ?_ ?_ ?_ ?_ ?_ ?_ ?_ ?_ ?_ ?_ ?_ ?_ ?_ ?_ ?_ ?_) <;> first | exact Or.inl (Sub.of hm rfl) | with_reducible exact Or.inr rfl | skip))
    | (fail_if_no_progress extract_lets) | split | (refine Keeps.snd (by assumption) ?_)
    | (refine Keeps.fst (by assumption) ?_) | (refine Keeps.snd2 (by assumption) ?_) | (dsimp only)
    | (dsimp +zetaDelta only)

theorem keeps_arrived {msk : Nat} {s₀ s : State} (c : Fin 64) (a : Arrival) (hk : Keeps msk s₀ s)
    (hm : Sub 0x2A0000092 msk := by first | assumption | (apply Sub.of; assumption; rfl)) :
    Keeps msk s₀ (arrived c a s) := by
  unfold arrived
  repeat' first
    | (with_reducible assumption) | ((with_reducible refine Sub.of hm ?_); exact rfl)
    | (with_reducible refine Keeps.ite ?_ ?_) | (with_reducible apply keeps_State_modChan)
    | (with_reducible apply keeps_chanEntry) | (with_reducible apply keeps_chanDone)
    | (with_reducible apply keeps_slotAdd) | (with_reducible apply keeps_post)
    | (with_reducible apply keeps_endRunNow)
    | (fail_if_no_progress ((with_reducible refine Keeps.upd ?_ ?_ ?_ ?_ ?_ ?_ ?_ ?_ ?_ ?_ ?_ ?_ ?_ ?_ ?_ ?_ ?_ ?_ ?_ ?_ ?_ ?_ ?_ ?_ ?_ ?_ ?_ ?_ ?_ ?_ ?_) <;> first | exact Or.inl (Sub.of hm rfl) | with_reducible exact Or.inr rfl | skip))
    | (fail_if_no_progress extract_lets) | split | (refine Keeps.snd (by assumption) ?_)
    | (refine Keeps.fst (by assumption) ?_) | (refine Keeps.snd2 (by assumption) ?_) | (dsimp only)
    | (dsimp +zetaDelta only)

theorem keeps_arrivalPoint {msk : Nat} {s₀ s : State} (c : Fin 64) (a : Arrival) (hk : Keeps msk s₀ s)
    (hm : Sub 0x2A0000092 msk := by first | assumption | (apply Sub.of; assumption; rfl)) :
    Keeps msk s₀ (arrivalPoint c a s) := by
  unfold arrivalPoint
  repeat' first
    | (with_reducible assumption) | ((with_reducible refine Sub.of hm ?_); exact rfl)
    | (with_reducible refine Keeps.ite ?_ ?_) | (with_reducible apply keeps_State_modChan)
    | (with_reducible apply keeps_arrived)
    | (fail_if_no_progress ((with_reducible refine Keeps.upd ?_ ?_ ?_ ?_ ?_ ?_ ?_ ?_ ?_ ?_ ?_ ?_ ?_ ?_ ?_ ?_ ?_ ?_ ?_ ?_ ?_ ?_ ?_ ?_ ?_ ?_ ?_ ?_ ?_ ?_ ?_) <;> first | exact Or.inl (Sub.of hm rfl) | with_reducible exact Or.inr rfl | skip))
    | (fail_if_no_progress extract_lets) | split | (refine Keeps.snd (by assumption) ?_)
    | (refine Keeps.fst (by assumption) ?_) | (refine Keeps.snd2 (by assumption) ?_) | (dsimp only)
    | (dsimp +zetaDelta only)

theorem keeps_execSignalEntry {msk : Nat} {s₀ s : State} (dt : Nat) (c : Fin 64) (hk : Keeps msk s₀ (advance dt s))
    (hm : Sub 0x2A0000092 msk := by first | assumption | (apply Sub.of; assumption; rfl)) :
    KeepsA msk s₀ (execSignalEntry dt c s) := by
  unfold execSignalEntry
  repeat' first
    | (with_reducible refine KeepsA.next ?_) | (with_reducible assumption)
    | ((with_reducible refine Sub.of hm ?_); exact rfl) | (with_reducible refine Keeps.ite ?_ ?_)
    | (with_reducible apply keeps_runInstr) | (with_reducible apply keeps_arrivalPoint)
    | (fail_if_no_progress ((with_reducible refine Keeps.upd ?_ ?_ ?_ ?_ ?_ ?_ ?_ ?_ ?_ ?_ ?_ ?_ ?_ ?_ ?_ ?_ ?_ ?_ ?_ ?_ ?_ ?_ ?_ ?_ ?_ ?_ ?_ ?_ ?_ ?_ ?_) <;> first | exact Or.inl (Sub.of hm rfl) | with_reducible exact Or.inr rfl | skip))
    | (intro _ _ _) | (intro _ _) | (fail_if_no_progress extract_lets) | split | (refine Keeps.snd (by assumption) ?_)
    | (refine Keeps.fst (by assumption) ?_) | (refine Keeps.snd2 (by assumption) ?_) | (dsimp only)
    | (dsimp +zetaDelta only)

theorem keeps_execSignalSlot {msk : Nat} {s₀ s : State} (dt : Nat) (c : Fin 64) (hk : Keeps msk s₀ (advance dt s))
    (hm : Sub 0x2A0000092 msk := by first | assumption | (apply Sub.of; assumption; rfl)) :
    KeepsA msk s₀ (execSignalSlot dt c s) := by
  unfold execSignalSlot
  repeat' first
    | (with_reducible refine KeepsA.next ?_) | (with_reducible assumption)
    | ((with_reducible refine Sub.of hm ?_); exact rfl) | (with_reducible refine Keeps.ite ?_ ?_)
    | (with_reducible apply keeps_runInstr) | (with_reducible apply keeps_arrivalPoint)
    | (fail_if_no_progress ((with_reducible refine Keeps.upd ?_ ?_ ?_ ?_ ?_ ?_ ?_ ?_ ?_ ?_ ?_ ?_ ?_ ?_ ?_ ?_ ?_ ?_ ?_ ?_ ?_ ?_ ?_ ?_ ?_ ?_ ?_ ?_ ?_ ?_ ?_) <;> first | exact Or.inl (Sub.of hm rfl) | with_reducible exact Or.inr rfl | skip))
    | (intro _ _ _) | (intro _ _) | (fail_if_no_progress extract_lets) | split | (refine Keeps.snd (by assumption) ?_)
    | (refine Keeps.fst (by assumption) ?_) | (refine Keeps.snd2 (by assumption) ?_) | (dsimp only)
    | (dsimp +zetaDelta only)

theorem keeps_runSet {msk : Nat} {s₀ s : State} (c : Fin 64) (b : List Byte) (hk : Keeps msk s₀ s)
    (hm : Sub 0x2A0000092 msk := by first | assumption | (apply Sub.of; assumption; rfl)) :
    Keeps msk s₀ (runSet c b s) := by
  unfold runSet
  repeat' first
    | (with_reducible assumption) | ((with_reducible refine Sub.of hm ?_); exact rfl)
    | (with_reducible refine Keeps.ite ?_ ?_) | (with_reducible apply keeps_chanDone)
    | (with_reducible apply keeps_State_modChan)
    | (fail_if_no_progress ((with_reducible refine Keeps.upd ?_ ?_ ?_ ?_ ?_ ?_ ?_ ?_ ?_ ?_ ?_ ?_ ?_ ?_ ?_ ?_ ?_ ?_ ?_ ?_ ?_ ?_ ?_ ?_ ?_ ?_ ?_ ?_ ?_ ?_ ?_) <;> first | exact Or.inl (Sub.of hm rfl) | with_reducible exact Or.inr rfl | skip))
    | (fail_if_no_progress extract_lets) | split | (refine Keeps.snd (by assumption) ?_)
    | (refine Keeps.fst (by assumption) ?_) | (refine Keeps.snd2 (by assumption) ?_) | (dsimp only)
    | (dsimp +zetaDelta only)

theorem keeps_execSetReg {msk : Nat} {s₀ s : State} (dt : Nat) (c : Fin 64) (hk : Keeps msk s₀ (advance dt s))
    (hm : Sub 0x2A0000092 msk := by first | assumption | (apply Sub.of; assumption; rfl)) :
    KeepsA msk s₀ (execSetReg dt c s) := by
  unfold execSetReg
  repeat' first
    | (with_reducible refine KeepsA.next ?_) | (with_reducible assumption)
    | ((with_reducible refine Sub.of hm ?_); exact rfl) | (with_reducible refine Keeps.ite ?_ ?_)
    | (with_reducible apply keeps_runInstr) | (with_reducible apply keeps_runSet)
    | (fail_if_no_progress ((with_reducible refine Keeps.upd ?_ ?_ ?_ ?_ ?_ ?_ ?_ ?_ ?_ ?_ ?_ ?_ ?_ ?_ ?_ ?_ ?_ ?_ ?_ ?_ ?_ ?_ ?_ ?_ ?_ ?_ ?_ ?_ ?_ ?_ ?_) <;> first | exact Or.inl (Sub.of hm rfl) | with_reducible exact Or.inr rfl | skip))
    | (intro _ _ _) | (intro _ _) | (fail_if_no_progress extract_lets) | split | (refine Keeps.snd (by assumption) ?_)
    | (refine Keeps.fst (by assumption) ?_) | (refine Keeps.snd2 (by assumption) ?_) | (dsimp only)
    | (dsimp +zetaDelta only)

theorem keeps_runCrcStart {msk : Nat} {s₀ s : State} (c : Fin 64) (b : List Byte) (hk : Keeps msk s₀ s)
    (hm : Sub 0x2A0000092 msk := by first | assumption | (apply Sub.of; assumption; rfl)) :
    Keeps msk s₀ (runCrcStart c b s) := by
  unfold runCrcStart
  repeat' first
    | (with_reducible assumption) | ((with_reducible refine Sub.of hm ?_); exact rfl)
    | (with_reducible refine Keeps.ite ?_ ?_) | (with_reducible apply keeps_chanDone)
    | (with_reducible apply keeps_State_modChan)
    | (fail_if_no_progress ((with_reducible refine Keeps.upd ?_ ?_ ?_ ?_ ?_ ?_ ?_ ?_ ?_ ?_ ?_ ?_ ?_ ?_ ?_ ?_ ?_ ?_ ?_ ?_ ?_ ?_ ?_ ?_ ?_ ?_ ?_ ?_ ?_ ?_ ?_) <;> first | exact Or.inl (Sub.of hm rfl) | with_reducible exact Or.inr rfl | skip))
    | (fail_if_no_progress extract_lets) | split | (refine Keeps.snd (by assumption) ?_)
    | (refine Keeps.fst (by assumption) ?_) | (refine Keeps.snd2 (by assumption) ?_) | (dsimp only)
    | (dsimp +zetaDelta only)

theorem keeps_execCrcStart {msk : Nat} {s₀ s : State} (dt : Nat) (c : Fin 64) (hk : Keeps msk s₀ (advance dt s))
    (hm : Sub 0x2A0000092 msk := by first | assumption | (apply Sub.of; assumption; rfl)) :
    KeepsA msk s₀ (execCrcStart dt c s) := by
  unfold execCrcStart
  repeat' first
    | (with_reducible refine KeepsA.next ?_) | (with_reducible assumption)
    | ((with_reducible refine Sub.of hm ?_); exact rfl) | (with_reducible refine Keeps.ite ?_ ?_)
    | (with_reducible apply keeps_runInstr) | (with_reducible apply keeps_runCrcStart)
    | (fail_if_no_progress ((with_reducible refine Keeps.upd ?_ ?_ ?_ ?_ ?_ ?_ ?_ ?_ ?_ ?_ ?_ ?_ ?_ ?_ ?_ ?_ ?_ ?_ ?_ ?_ ?_ ?_ ?_ ?_ ?_ ?_ ?_ ?_ ?_ ?_ ?_) <;> first | exact Or.inl (Sub.of hm rfl) | with_reducible exact Or.inr rfl | skip))
    | (intro _ _ _) | (intro _ _) | (fail_if_no_progress extract_lets) | split | (refine Keeps.snd (by assumption) ?_)
    | (refine Keeps.fst (by assumption) ?_) | (refine Keeps.snd2 (by assumption) ?_) | (dsimp only)
    | (dsimp +zetaDelta only)

theorem keeps_runCrcStore {msk : Nat} {s₀ s : State} (c : Fin 64) (b : List Byte) (hk : Keeps msk s₀ s)
    (hm : Sub 0x3A0000092 msk := by first | assumption | (apply Sub.of; assumption; rfl)) :
    Keeps msk s₀ (runCrcStore c b s) := by
  unfold runCrcStore
  repeat' first
    | (with_reducible assumption) | ((with_reducible refine Sub.of hm ?_); exact rfl)
    | (with_reducible refine Keeps.ite ?_ ?_) | (with_reducible apply keeps_haltOperand)
    | (with_reducible apply keeps_haltChan) | (with_reducible apply keeps_accountWrite)
    | (with_reducible apply keeps_writeSide) | (with_reducible apply keeps_addPtr)
    | (with_reducible apply keeps_chanDone) | (with_reducible apply keeps_State_modChan)
    | (fail_if_no_progress ((with_reducible refine Keeps.upd ?_ ?_ ?_ ?_ ?_ ?_ ?_ ?_ ?_ ?_ ?_ ?_ ?_ ?_ ?_ ?_ ?_ ?_ ?_ ?_ ?_ ?_ ?_ ?_ ?_ ?_ ?_ ?_ ?_ ?_ ?_) <;> first | exact Or.inl (Sub.of hm rfl) | with_reducible exact Or.inr rfl | skip))
    | (fail_if_no_progress extract_lets) | split | (refine Keeps.snd (by assumption) ?_)
    | (refine Keeps.fst (by assumption) ?_) | (refine Keeps.snd2 (by assumption) ?_) | (dsimp only)
    | (dsimp +zetaDelta only)

theorem keeps_execCrcStore {msk : Nat} {s₀ s : State} (dt : Nat) (c : Fin 64) (hk : Keeps msk s₀ (advance dt s))
    (hm : Sub 0x3A0000092 msk := by first | assumption | (apply Sub.of; assumption; rfl)) :
    KeepsA msk s₀ (execCrcStore dt c s) := by
  unfold execCrcStore
  repeat' first
    | (with_reducible refine KeepsA.next ?_) | (with_reducible assumption)
    | ((with_reducible refine Sub.of hm ?_); exact rfl) | (with_reducible refine Keeps.ite ?_ ?_)
    | (with_reducible apply keeps_runInstr) | (with_reducible apply keeps_runCrcStore)
    | (fail_if_no_progress ((with_reducible refine Keeps.upd ?_ ?_ ?_ ?_ ?_ ?_ ?_ ?_ ?_ ?_ ?_ ?_ ?_ ?_ ?_ ?_ ?_ ?_ ?_ ?_ ?_ ?_ ?_ ?_ ?_ ?_ ?_ ?_ ?_ ?_ ?_) <;> first | exact Or.inl (Sub.of hm rfl) | with_reducible exact Or.inr rfl | skip))
    | (intro _ _ _) | (intro _ _) | (fail_if_no_progress extract_lets) | split | (refine Keeps.snd (by assumption) ?_)
    | (refine Keeps.fst (by assumption) ?_) | (refine Keeps.snd2 (by assumption) ?_) | (dsimp only)
    | (dsimp +zetaDelta only)

theorem keeps_execFence {msk : Nat} {s₀ s : State} (dt : Nat) (c : Fin 64) (hk : Keeps msk s₀ (advance dt s))
    (hm : Sub 0x2A0000092 msk := by first | assumption | (apply Sub.of; assumption; rfl)) :
    KeepsA msk s₀ (execFence dt c s) := by
  unfold execFence
  repeat' first
    | (with_reducible refine KeepsA.next ?_) | (with_reducible assumption)
    | ((with_reducible refine Sub.of hm ?_); exact rfl) | (with_reducible refine Keeps.ite ?_ ?_)
    | (with_reducible apply keeps_runInstr) | (with_reducible apply keeps_arrivalPoint)
    | (fail_if_no_progress ((with_reducible refine Keeps.upd ?_ ?_ ?_ ?_ ?_ ?_ ?_ ?_ ?_ ?_ ?_ ?_ ?_ ?_ ?_ ?_ ?_ ?_ ?_ ?_ ?_ ?_ ?_ ?_ ?_ ?_ ?_ ?_ ?_ ?_ ?_) <;> first | exact Or.inl (Sub.of hm rfl) | with_reducible exact Or.inr rfl | skip))
    | (intro _ _ _) | (intro _ _) | (fail_if_no_progress extract_lets) | split | (refine Keeps.snd (by assumption) ?_)
    | (refine Keeps.fst (by assumption) ?_) | (refine Keeps.snd2 (by assumption) ?_) | (dsimp only)
    | (dsimp +zetaDelta only)

theorem keeps_execEndRun {msk : Nat} {s₀ s : State} (dt : Nat) (c : Fin 64) (hk : Keeps msk s₀ (advance dt s))
    (hm : Sub 0x2A0000092 msk := by first | assumption | (apply Sub.of; assumption; rfl)) :
    KeepsA msk s₀ (execEndRun dt c s) := by
  unfold execEndRun
  repeat' first
    | (with_reducible refine KeepsA.next ?_) | (with_reducible assumption)
    | ((with_reducible refine Sub.of hm ?_); exact rfl) | (with_reducible refine Keeps.ite ?_ ?_)
    | (with_reducible apply keeps_runInstr) | (with_reducible apply keeps_arrivalPoint)
    | (fail_if_no_progress ((with_reducible refine Keeps.upd ?_ ?_ ?_ ?_ ?_ ?_ ?_ ?_ ?_ ?_ ?_ ?_ ?_ ?_ ?_ ?_ ?_ ?_ ?_ ?_ ?_ ?_ ?_ ?_ ?_ ?_ ?_ ?_ ?_ ?_ ?_) <;> first | exact Or.inl (Sub.of hm rfl) | with_reducible exact Or.inr rfl | skip))
    | (intro _ _ _) | (intro _ _) | (fail_if_no_progress extract_lets) | split | (refine Keeps.snd (by assumption) ?_)
    | (refine Keeps.fst (by assumption) ?_) | (refine Keeps.snd2 (by assumption) ?_) | (dsimp only)
    | (dsimp +zetaDelta only)

theorem keeps_execArrivalReadbackDone {msk : Nat} {s₀ s : State} (dt : Nat) (c : Fin 64) (hk : Keeps msk s₀ (advance dt s))
    (hm : Sub 0x2A0000092 msk := by first | assumption | (apply Sub.of; assumption; rfl)) :
    KeepsA msk s₀ (execArrivalReadbackDone dt c s) := by
  unfold execArrivalReadbackDone
  repeat' first
    | (with_reducible refine KeepsA.next ?_) | (with_reducible assumption)
    | ((with_reducible refine Sub.of hm ?_); exact rfl) | (with_reducible refine Keeps.ite ?_ ?_)
    | (with_reducible apply keeps_arrived)
    | (fail_if_no_progress ((with_reducible refine Keeps.upd ?_ ?_ ?_ ?_ ?_ ?_ ?_ ?_ ?_ ?_ ?_ ?_ ?_ ?_ ?_ ?_ ?_ ?_ ?_ ?_ ?_ ?_ ?_ ?_ ?_ ?_ ?_ ?_ ?_ ?_ ?_) <;> first | exact Or.inl (Sub.of hm rfl) | with_reducible exact Or.inr rfl | skip))
    | (fail_if_no_progress extract_lets) | split | (refine Keeps.snd (by assumption) ?_)
    | (refine Keeps.fst (by assumption) ?_) | (refine Keeps.snd2 (by assumption) ?_) | (dsimp only)
    | (dsimp +zetaDelta only)

theorem keeps_fetchBlock {msk : Nat} {s₀ s : State} (c : Fin 64) (addr : Nat) (bytes : List Byte) (hk : Keeps msk s₀ s)
    (hm : Sub 0x20000000 msk := by first | assumption | (apply Sub.of; assumption; rfl)) :
    Keeps msk s₀ (fetchBlock c addr bytes s) := by
  unfold fetchBlock
  repeat' first
    | (with_reducible assumption) | ((with_reducible refine Sub.of hm ?_); exact rfl)
    | (with_reducible refine Keeps.ite ?_ ?_) | (with_reducible apply keeps_State_modChan)
    | (fail_if_no_progress ((with_reducible refine Keeps.upd ?_ ?_ ?_ ?_ ?_ ?_ ?_ ?_ ?_ ?_ ?_ ?_ ?_ ?_ ?_ ?_ ?_ ?_ ?_ ?_ ?_ ?_ ?_ ?_ ?_ ?_ ?_ ?_ ?_ ?_ ?_) <;> first | exact Or.inl (Sub.of hm rfl) | with_reducible exact Or.inr rfl | skip))
    | (fail_if_no_progress extract_lets) | split | (refine Keeps.snd (by assumption) ?_)
    | (refine Keeps.fst (by assumption) ?_) | (refine Keeps.snd2 (by assumption) ?_) | (dsimp only)
    | (dsimp +zetaDelta only)

theorem keeps_haltBme {msk : Nat} {s₀ s : State} (fn : Fn) (addrs : List (Fin 64 × Nat)) (hk : Keeps msk s₀ s)
    (hm : Sub 0x2A0000092 msk := by first | assumption | (apply Sub.of; assumption; rfl)) :
    Keeps msk s₀ (haltBme fn addrs s) := by
  unfold haltBme
  repeat' first
    | (with_reducible assumption) | ((with_reducible refine Sub.of hm ?_); exact rfl)
    | (with_reducible refine Keeps.ite ?_ ?_) | (with_reducible apply keeps_haltChan)
    | (with_reducible refine Keeps.foldl (fun _ _ _ => ?_) ?_)
    | (with_reducible refine Keeps.foldl2 (fun _ _ _ => ?_) ?_)
    | (with_reducible refine Keeps.foldl1 (fun _ _ _ => ?_) ?_)
    | (fail_if_no_progress ((with_reducible refine Keeps.upd ?_ ?_ ?_ ?_ ?_ ?_ ?_ ?_ ?_ ?_ ?_ ?_ ?_ ?_ ?_ ?_ ?_ ?_ ?_ ?_ ?_ ?_ ?_ ?_ ?_ ?_ ?_ ?_ ?_ ?_ ?_) <;> first | exact Or.inl (Sub.of hm rfl) | with_reducible exact Or.inr rfl | skip))
    | (fail_if_no_progress extract_lets) | split | (refine Keeps.snd (by assumption) ?_)
    | (refine Keeps.fst (by assumption) ?_) | (refine Keeps.snd2 (by assumption) ?_) | (dsimp only)
    | (dsimp +zetaDelta only)

end Sys2Proof.Machine
end

