-- ==== Sys2Proof/Laws/KeepsWeirCmds.lean ====
section
/-! SUPPORT. `Keeps` of the operations and meanings of Machine/WeirCmds.lean. -/

set_option Elab.async false

set_option linter.unusedTactic false
set_option linter.unreachableTactic false

namespace Sys2Proof.Machine

theorem keeps_thermal {msk : Nat} {s₀ s : State} (tj : Int) (hk : Keeps msk s₀ s)
    (hm : Sub 0x10000880 msk := by first | assumption | (apply Sub.of; assumption; rfl)) :
    Keeps msk s₀ (thermal tj s) := by
  unfold thermal
  repeat' first
    | (with_reducible assumption) | ((with_reducible refine Sub.of hm ?_); exact rfl)
    | (with_reducible refine Keeps.ite ?_ ?_) | (with_reducible apply keeps_State_modWeir)
    | (with_reducible apply keeps_recompute) | (with_reducible apply keeps_post)
    | (fail_if_no_progress ((with_reducible refine Keeps.upd ?_ ?_ ?_ ?_ ?_ ?_ ?_ ?_ ?_ ?_ ?_ ?_ ?_ ?_ ?_ ?_ ?_ ?_ ?_ ?_ ?_ ?_ ?_ ?_ ?_ ?_ ?_ ?_ ?_ ?_ ?_) <;> first | exact Or.inl (Sub.of hm rfl) | with_reducible exact Or.inr rfl | skip))
    | (fail_if_no_progress extract_lets) | split | (refine Keeps.snd (by assumption) ?_)
    | (refine Keeps.fst (by assumption) ?_) | (refine Keeps.snd2 (by assumption) ?_) | (dsimp only)
    | (dsimp +zetaDelta only)

theorem keeps_execThermalSample {msk : Nat} {s₀ s : State} (dt : Nat) (tj : Int) (hk : Keeps msk s₀ (advance dt s))
    (hm : Sub 0x10000880 msk := by first | assumption | (apply Sub.of; assumption; rfl)) :
    KeepsA msk s₀ (execThermalSample dt tj s) := by
  unfold execThermalSample
  repeat' first
    | (with_reducible refine KeepsA.next ?_) | (with_reducible assumption)
    | ((with_reducible refine Sub.of hm ?_); exact rfl) | (with_reducible refine Keeps.ite ?_ ?_)
    | (with_reducible apply keeps_thermal)
    | (fail_if_no_progress ((with_reducible refine Keeps.upd ?_ ?_ ?_ ?_ ?_ ?_ ?_ ?_ ?_ ?_ ?_ ?_ ?_ ?_ ?_ ?_ ?_ ?_ ?_ ?_ ?_ ?_ ?_ ?_ ?_ ?_ ?_ ?_ ?_ ?_ ?_) <;> first | exact Or.inl (Sub.of hm rfl) | with_reducible exact Or.inr rfl | skip))
    | (fail_if_no_progress extract_lets) | split | (refine Keeps.snd (by assumption) ?_)
    | (refine Keeps.fst (by assumption) ?_) | (refine Keeps.snd2 (by assumption) ?_) | (dsimp only)
    | (dsimp +zetaDelta only)

theorem keeps_requestRetrain {msk : Nat} {s₀ s : State} (cause : RetrainCause) (hk : Keeps msk s₀ s)
    (hm : Sub 0x10000080 msk := by first | assumption | (apply Sub.of; assumption; rfl)) :
    Keeps msk s₀ (requestRetrain cause s) := by
  unfold requestRetrain
  repeat' first
    | (with_reducible assumption) | ((with_reducible refine Sub.of hm ?_); exact rfl)
    | (with_reducible refine Keeps.ite ?_ ?_) | (with_reducible apply keeps_recompute)
    | (with_reducible apply keeps_post) | (with_reducible apply keeps_State_modWeir)
    | (fail_if_no_progress ((with_reducible refine Keeps.upd ?_ ?_ ?_ ?_ ?_ ?_ ?_ ?_ ?_ ?_ ?_ ?_ ?_ ?_ ?_ ?_ ?_ ?_ ?_ ?_ ?_ ?_ ?_ ?_ ?_ ?_ ?_ ?_ ?_ ?_ ?_) <;> first | exact Or.inl (Sub.of hm rfl) | with_reducible exact Or.inr rfl | skip))
    | (fail_if_no_progress extract_lets) | split | (refine Keeps.snd (by assumption) ?_)
    | (refine Keeps.fst (by assumption) ?_) | (refine Keeps.snd2 (by assumption) ?_) | (dsimp only)
    | (dsimp +zetaDelta only)

theorem keeps_execFullRetrainRequest {msk : Nat} {s₀ s : State} (dt : Nat) (cause : RetrainCause) (hk : Keeps msk s₀ (advance dt s))
    (hm : Sub 0x10000080 msk := by first | assumption | (apply Sub.of; assumption; rfl)) :
    KeepsA msk s₀ (execFullRetrainRequest dt cause s) := by
  unfold execFullRetrainRequest
  repeat' first
    | (with_reducible refine KeepsA.next ?_) | (with_reducible assumption)
    | ((with_reducible refine Sub.of hm ?_); exact rfl) | (with_reducible refine Keeps.ite ?_ ?_)
    | (with_reducible apply keeps_requestRetrain)
    | (fail_if_no_progress ((with_reducible refine Keeps.upd ?_ ?_ ?_ ?_ ?_ ?_ ?_ ?_ ?_ ?_ ?_ ?_ ?_ ?_ ?_ ?_ ?_ ?_ ?_ ?_ ?_ ?_ ?_ ?_ ?_ ?_ ?_ ?_ ?_ ?_ ?_) <;> first | exact Or.inl (Sub.of hm rfl) | with_reducible exact Or.inr rfl | skip))
    | (fail_if_no_progress extract_lets) | split | (refine Keeps.snd (by assumption) ?_)
    | (refine Keeps.fst (by assumption) ?_) | (refine Keeps.snd2 (by assumption) ?_) | (dsimp only)
    | (dsimp +zetaDelta only)

theorem keeps_enterRetraining {msk : Nat} {s₀ s : State} (hk : Keeps msk s₀ s)
    (hm : Sub 0x10000080 msk := by first | assumption | (apply Sub.of; assumption; rfl)) :
    Keeps msk s₀ (enterRetraining s) := by
  unfold enterRetraining
  repeat' first
    | (with_reducible assumption) | ((with_reducible refine Sub.of hm ?_); exact rfl)
    | (with_reducible refine Keeps.ite ?_ ?_) | (with_reducible apply keeps_recompute)
    | (with_reducible apply keeps_State_modWeir)
    | (fail_if_no_progress ((with_reducible refine Keeps.upd ?_ ?_ ?_ ?_ ?_ ?_ ?_ ?_ ?_ ?_ ?_ ?_ ?_ ?_ ?_ ?_ ?_ ?_ ?_ ?_ ?_ ?_ ?_ ?_ ?_ ?_ ?_ ?_ ?_ ?_ ?_) <;> first | exact Or.inl (Sub.of hm rfl) | with_reducible exact Or.inr rfl | skip))
    | (fail_if_no_progress extract_lets) | split | (refine Keeps.snd (by assumption) ?_)
    | (refine Keeps.fst (by assumption) ?_) | (refine Keeps.snd2 (by assumption) ?_) | (dsimp only)
    | (dsimp +zetaDelta only)

theorem keeps_execWeirDrainEnd {msk : Nat} {s₀ s : State} (dt : Nat) (hk : Keeps msk s₀ (advance dt s))
    (hm : Sub 0x10000080 msk := by first | assumption | (apply Sub.of; assumption; rfl)) :
    KeepsA msk s₀ (execWeirDrainEnd dt s) := by
  unfold execWeirDrainEnd
  repeat' first
    | (with_reducible refine KeepsA.next ?_) | (with_reducible assumption)
    | ((with_reducible refine Sub.of hm ?_); exact rfl) | (with_reducible refine Keeps.ite ?_ ?_)
    | (with_reducible apply keeps_enterRetraining)
    | (fail_if_no_progress ((with_reducible refine Keeps.upd ?_ ?_ ?_ ?_ ?_ ?_ ?_ ?_ ?_ ?_ ?_ ?_ ?_ ?_ ?_ ?_ ?_ ?_ ?_ ?_ ?_ ?_ ?_ ?_ ?_ ?_ ?_ ?_ ?_ ?_ ?_) <;> first | exact Or.inl (Sub.of hm rfl) | with_reducible exact Or.inr rfl | skip))
    | (fail_if_no_progress extract_lets) | split | (refine Keeps.snd (by assumption) ?_)
    | (refine Keeps.fst (by assumption) ?_) | (refine Keeps.snd2 (by assumption) ?_) | (dsimp only)
    | (dsimp +zetaDelta only)

theorem keeps_drainTimeout {msk : Nat} {s₀ s : State} (hk : Keeps msk s₀ s)
    (hm : Sub 0x291020092 msk := by first | assumption | (apply Sub.of; assumption; rfl)) :
    Keeps msk s₀ (drainTimeout s) := by
  unfold drainTimeout
  repeat' first
    | (with_reducible assumption) | ((with_reducible refine Sub.of hm ?_); exact rfl)
    | (with_reducible refine Keeps.ite ?_ ?_) | (with_reducible apply keeps_enterRetraining)
    | (with_reducible apply keeps_cutLpFrames)
    | (fail_if_no_progress ((with_reducible refine Keeps.upd ?_ ?_ ?_ ?_ ?_ ?_ ?_ ?_ ?_ ?_ ?_ ?_ ?_ ?_ ?_ ?_ ?_ ?_ ?_ ?_ ?_ ?_ ?_ ?_ ?_ ?_ ?_ ?_ ?_ ?_ ?_) <;> first | exact Or.inl (Sub.of hm rfl) | with_reducible exact Or.inr rfl | skip))
    | (fail_if_no_progress extract_lets) | split | (refine Keeps.snd (by assumption) ?_)
    | (refine Keeps.fst (by assumption) ?_) | (refine Keeps.snd2 (by assumption) ?_) | (dsimp only)
    | (dsimp +zetaDelta only)

theorem keeps_execWeirDrainTimeout {msk : Nat} {s₀ s : State} (dt : Nat) (hk : Keeps msk s₀ (advance dt s))
    (hm : Sub 0x291020092 msk := by first | assumption | (apply Sub.of; assumption; rfl)) :
    KeepsA msk s₀ (execWeirDrainTimeout dt s) := by
  unfold execWeirDrainTimeout
  repeat' first
    | (with_reducible refine KeepsA.next ?_) | (with_reducible assumption)
    | ((with_reducible refine Sub.of hm ?_); exact rfl) | (with_reducible refine Keeps.ite ?_ ?_)
    | (with_reducible apply keeps_drainTimeout)
    | (fail_if_no_progress ((with_reducible refine Keeps.upd ?_ ?_ ?_ ?_ ?_ ?_ ?_ ?_ ?_ ?_ ?_ ?_ ?_ ?_ ?_ ?_ ?_ ?_ ?_ ?_ ?_ ?_ ?_ ?_ ?_ ?_ ?_ ?_ ?_ ?_ ?_) <;> first | exact Or.inl (Sub.of hm rfl) | with_reducible exact Or.inr rfl | skip))
    | (fail_if_no_progress extract_lets) | split | (refine Keeps.snd (by assumption) ?_)
    | (refine Keeps.fst (by assumption) ?_) | (refine Keeps.snd2 (by assumption) ?_) | (dsimp only)
    | (dsimp +zetaDelta only)

theorem keeps_retrainEnds {msk : Nat} {s₀ s : State} (hk : Keeps msk s₀ s)
    (hm : Sub 0x10000080 msk := by first | assumption | (apply Sub.of; assumption; rfl)) :
    Keeps msk s₀ (retrainEnds s) := by
  unfold retrainEnds
  repeat' first
    | (with_reducible assumption) | ((with_reducible refine Sub.of hm ?_); exact rfl)
    | (with_reducible refine Keeps.ite ?_ ?_) | (with_reducible apply keeps_recompute)
    | (with_reducible apply keeps_post) | (with_reducible apply keeps_State_modWeir)
    | (fail_if_no_progress ((with_reducible refine Keeps.upd ?_ ?_ ?_ ?_ ?_ ?_ ?_ ?_ ?_ ?_ ?_ ?_ ?_ ?_ ?_ ?_ ?_ ?_ ?_ ?_ ?_ ?_ ?_ ?_ ?_ ?_ ?_ ?_ ?_ ?_ ?_) <;> first | exact Or.inl (Sub.of hm rfl) | with_reducible exact Or.inr rfl | skip))
    | (fail_if_no_progress extract_lets) | split | (refine Keeps.snd (by assumption) ?_)
    | (refine Keeps.fst (by assumption) ?_) | (refine Keeps.snd2 (by assumption) ?_) | (dsimp only)
    | (dsimp +zetaDelta only)

theorem keeps_execRetrainDone {msk : Nat} {s₀ s : State} (dt : Nat) (hk : Keeps msk s₀ (advance dt s))
    (hm : Sub 0x10000080 msk := by first | assumption | (apply Sub.of; assumption; rfl)) :
    KeepsA msk s₀ (execRetrainDone dt s) := by
  unfold execRetrainDone
  repeat' first
    | (with_reducible refine KeepsA.next ?_) | (with_reducible assumption)
    | ((with_reducible refine Sub.of hm ?_); exact rfl) | (with_reducible refine Keeps.ite ?_ ?_)
    | (with_reducible apply keeps_retrainEnds)
    | (fail_if_no_progress ((with_reducible refine Keeps.upd ?_ ?_ ?_ ?_ ?_ ?_ ?_ ?_ ?_ ?_ ?_ ?_ ?_ ?_ ?_ ?_ ?_ ?_ ?_ ?_ ?_ ?_ ?_ ?_ ?_ ?_ ?_ ?_ ?_ ?_ ?_) <;> first | exact Or.inl (Sub.of hm rfl) | with_reducible exact Or.inr rfl | skip))
    | (fail_if_no_progress extract_lets) | split | (refine Keeps.snd (by assumption) ?_)
    | (refine Keeps.fst (by assumption) ?_) | (refine Keeps.snd2 (by assumption) ?_) | (dsimp only)
    | (dsimp +zetaDelta only)

theorem keeps_shortRetraining {msk : Nat} {s₀ s : State} (hk : Keeps msk s₀ s)
    (hm : Sub 0x10000000 msk := by first | assumption | (apply Sub.of; assumption; rfl)) :
    Keeps msk s₀ (shortRetraining s) := by
  unfold shortRetraining
  repeat' first
    | (with_reducible assumption) | ((with_reducible refine Sub.of hm ?_); exact rfl)
    | (with_reducible refine Keeps.ite ?_ ?_) | (with_reducible apply keeps_State_modWeir)
    | (fail_if_no_progress ((with_reducible refine Keeps.upd ?_ ?_ ?_ ?_ ?_ ?_ ?_ ?_ ?_ ?_ ?_ ?_ ?_ ?_ ?_ ?_ ?_ ?_ ?_ ?_ ?_ ?_ ?_ ?_ ?_ ?_ ?_ ?_ ?_ ?_ ?_) <;> first | exact Or.inl (Sub.of hm rfl) | with_reducible exact Or.inr rfl | skip))
    | (fail_if_no_progress extract_lets) | split | (refine Keeps.snd (by assumption) ?_)
    | (refine Keeps.fst (by assumption) ?_) | (refine Keeps.snd2 (by assumption) ?_) | (dsimp only)
    | (dsimp +zetaDelta only)

theorem keeps_execShortRetrain {msk : Nat} {s₀ s : State} (dt : Nat) (hk : Keeps msk s₀ (advance dt s))
    (hm : Sub 0x10000000 msk := by first | assumption | (apply Sub.of; assumption; rfl)) :
    KeepsA msk s₀ (execShortRetrain dt s) := by
  unfold execShortRetrain
  repeat' first
    | (with_reducible refine KeepsA.next ?_) | (with_reducible assumption)
    | ((with_reducible refine Sub.of hm ?_); exact rfl) | (with_reducible refine Keeps.ite ?_ ?_)
    | (with_reducible apply keeps_shortRetraining)
    | (fail_if_no_progress ((with_reducible refine Keeps.upd ?_ ?_ ?_ ?_ ?_ ?_ ?_ ?_ ?_ ?_ ?_ ?_ ?_ ?_ ?_ ?_ ?_ ?_ ?_ ?_ ?_ ?_ ?_ ?_ ?_ ?_ ?_ ?_ ?_ ?_ ?_) <;> first | exact Or.inl (Sub.of hm rfl) | with_reducible exact Or.inr rfl | skip))
    | (fail_if_no_progress extract_lets) | split | (refine Keeps.snd (by assumption) ?_)
    | (refine Keeps.fst (by assumption) ?_) | (refine Keeps.snd2 (by assumption) ?_) | (dsimp only)
    | (dsimp +zetaDelta only)

theorem keeps_stall {msk : Nat} {s₀ s : State} (hk : Keeps msk s₀ s)
    (hm : Sub 0x291020092 msk := by first | assumption | (apply Sub.of; assumption; rfl)) :
    Keeps msk s₀ (stall s) := by
  unfold stall
  repeat' first
    | (with_reducible assumption) | ((with_reducible refine Sub.of hm ?_); exact rfl)
    | (with_reducible refine Keeps.ite ?_ ?_) | (with_reducible apply keeps_enterRetraining)
    | (with_reducible apply keeps_cutLpFrames) | (with_reducible apply keeps_post)
    | (fail_if_no_progress ((with_reducible refine Keeps.upd ?_ ?_ ?_ ?_ ?_ ?_ ?_ ?_ ?_ ?_ ?_ ?_ ?_ ?_ ?_ ?_ ?_ ?_ ?_ ?_ ?_ ?_ ?_ ?_ ?_ ?_ ?_ ?_ ?_ ?_ ?_) <;> first | exact Or.inl (Sub.of hm rfl) | with_reducible exact Or.inr rfl | skip))
    | (fail_if_no_progress extract_lets) | split | (refine Keeps.snd (by assumption) ?_)
    | (refine Keeps.fst (by assumption) ?_) | (refine Keeps.snd2 (by assumption) ?_) | (dsimp only)
    | (dsimp +zetaDelta only)

theorem keeps_execControllerStall {msk : Nat} {s₀ s : State} (dt : Nat) (hk : Keeps msk s₀ (advance dt s))
    (hm : Sub 0x291020092 msk := by first | assumption | (apply Sub.of; assumption; rfl)) :
    KeepsA msk s₀ (execControllerStall dt s) := by
  unfold execControllerStall
  repeat' first
    | (with_reducible refine KeepsA.next ?_) | (with_reducible assumption)
    | ((with_reducible refine Sub.of hm ?_); exact rfl) | (with_reducible refine Keeps.ite ?_ ?_)
    | (with_reducible apply keeps_stall)
    | (fail_if_no_progress ((with_reducible refine Keeps.upd ?_ ?_ ?_ ?_ ?_ ?_ ?_ ?_ ?_ ?_ ?_ ?_ ?_ ?_ ?_ ?_ ?_ ?_ ?_ ?_ ?_ ?_ ?_ ?_ ?_ ?_ ?_ ?_ ?_ ?_ ?_) <;> first | exact Or.inl (Sub.of hm rfl) | with_reducible exact Or.inr rfl | skip))
    | (fail_if_no_progress extract_lets) | split | (refine Keeps.snd (by assumption) ?_)
    | (refine Keeps.fst (by assumption) ?_) | (refine Keeps.snd2 (by assumption) ?_) | (dsimp only)
    | (dsimp +zetaDelta only)

theorem keeps_restoreFlow {msk : Nat} {s₀ s : State} (kind : Nat) (index : Nat) (hk : Keeps msk s₀ s)
    (hm : Sub 0x10000080 msk := by first | assumption | (apply Sub.of; assumption; rfl)) :
    Keeps msk s₀ (restoreFlow kind index s) := by
  unfold restoreFlow
  repeat' first
    | (with_reducible assumption) | ((with_reducible refine Sub.of hm ?_); exact rfl)
    | (with_reducible refine Keeps.ite ?_ ?_) | (with_reducible apply keeps_post)
    | (with_reducible apply keeps_State_modWeir)
    | (fail_if_no_progress ((with_reducible refine Keeps.upd ?_ ?_ ?_ ?_ ?_ ?_ ?_ ?_ ?_ ?_ ?_ ?_ ?_ ?_ ?_ ?_ ?_ ?_ ?_ ?_ ?_ ?_ ?_ ?_ ?_ ?_ ?_ ?_ ?_ ?_ ?_) <;> first | exact Or.inl (Sub.of hm rfl) | with_reducible exact Or.inr rfl | skip))
    | (fail_if_no_progress extract_lets) | split | (refine Keeps.snd (by assumption) ?_)
    | (refine Keeps.fst (by assumption) ?_) | (refine Keeps.snd2 (by assumption) ?_) | (dsimp only)
    | (dsimp +zetaDelta only)

theorem keeps_execServeRestoreTimer {msk : Nat} {s₀ s : State} (dt : Nat) (kind : Nat) (index : Nat) (hk : Keeps msk s₀ (advance dt s))
    (hm : Sub 0x10000080 msk := by first | assumption | (apply Sub.of; assumption; rfl)) :
    KeepsA msk s₀ (execServeRestoreTimer dt kind index s) := by
  unfold execServeRestoreTimer
  repeat' first
    | (with_reducible refine KeepsA.next ?_) | (with_reducible assumption)
    | ((with_reducible refine Sub.of hm ?_); exact rfl) | (with_reducible refine Keeps.ite ?_ ?_)
    | (with_reducible apply keeps_restoreFlow)
    | (fail_if_no_progress ((with_reducible refine Keeps.upd ?_ ?_ ?_ ?_ ?_ ?_ ?_ ?_ ?_ ?_ ?_ ?_ ?_ ?_ ?_ ?_ ?_ ?_ ?_ ?_ ?_ ?_ ?_ ?_ ?_ ?_ ?_ ?_ ?_ ?_ ?_) <;> first | exact Or.inl (Sub.of hm rfl) | with_reducible exact Or.inr rfl | skip))
    | (fail_if_no_progress extract_lets) | split | (refine Keeps.snd (by assumption) ?_)
    | (refine Keeps.fst (by assumption) ?_) | (refine Keeps.snd2 (by assumption) ?_) | (dsimp only)
    | (dsimp +zetaDelta only)

theorem keeps_clearSFault {msk : Nat} {s₀ s : State} (hk : Keeps msk s₀ s)
    (hm : Sub 0x10000080 msk := by first | assumption | (apply Sub.of; assumption; rfl)) :
    Keeps msk s₀ (clearSFault s) := by
  unfold clearSFault
  repeat' first
    | (with_reducible assumption) | ((with_reducible refine Sub.of hm ?_); exact rfl)
    | (with_reducible refine Keeps.ite ?_ ?_) | (with_reducible apply keeps_recompute)
    | (with_reducible apply keeps_post) | (with_reducible apply keeps_State_modWeir)
    | (fail_if_no_progress ((with_reducible refine Keeps.upd ?_ ?_ ?_ ?_ ?_ ?_ ?_ ?_ ?_ ?_ ?_ ?_ ?_ ?_ ?_ ?_ ?_ ?_ ?_ ?_ ?_ ?_ ?_ ?_ ?_ ?_ ?_ ?_ ?_ ?_ ?_) <;> first | exact Or.inl (Sub.of hm rfl) | with_reducible exact Or.inr rfl | skip))
    | (fail_if_no_progress extract_lets) | split | (refine Keeps.snd (by assumption) ?_)
    | (refine Keeps.fst (by assumption) ?_) | (refine Keeps.snd2 (by assumption) ?_) | (dsimp only)
    | (dsimp +zetaDelta only)

theorem keeps_execSFaultClearTimer {msk : Nat} {s₀ s : State} (dt : Nat) (hk : Keeps msk s₀ (advance dt s))
    (hm : Sub 0x10000080 msk := by first | assumption | (apply Sub.of; assumption; rfl)) :
    KeepsA msk s₀ (execSFaultClearTimer dt s) := by
  unfold execSFaultClearTimer
  repeat' first
    | (with_reducible refine KeepsA.next ?_) | (with_reducible assumption)
    | ((with_reducible refine Sub.of hm ?_); exact rfl) | (with_reducible refine Keeps.ite ?_ ?_)
    | (with_reducible apply keeps_clearSFault)
    | (fail_if_no_progress ((with_reducible refine Keeps.upd ?_ ?_ ?_ ?_ ?_ ?_ ?_ ?_ ?_ ?_ ?_ ?_ ?_ ?_ ?_ ?_ ?_ ?_ ?_ ?_ ?_ ?_ ?_ ?_ ?_ ?_ ?_ ?_ ?_ ?_ ?_) <;> first | exact Or.inl (Sub.of hm rfl) | with_reducible exact Or.inr rfl | skip))
    | (fail_if_no_progress extract_lets) | split | (refine Keeps.snd (by assumption) ?_)
    | (refine Keeps.fst (by assumption) ?_) | (refine Keeps.snd2 (by assumption) ?_) | (dsimp only)
    | (dsimp +zetaDelta only)

theorem keeps_scrubAdvance {msk : Nat} {s₀ s : State} (hk : Keeps msk s₀ s)
    (hm : Sub 0x10000000 msk := by first | assumption | (apply Sub.of; assumption; rfl)) :
    Keeps msk s₀ (scrubAdvance s) := by
  unfold scrubAdvance
  repeat' first
    | (with_reducible assumption) | ((with_reducible refine Sub.of hm ?_); exact rfl)
    | (with_reducible refine Keeps.ite ?_ ?_) | (with_reducible apply keeps_State_modWeir)
    | (fail_if_no_progress ((with_reducible refine Keeps.upd ?_ ?_ ?_ ?_ ?_ ?_ ?_ ?_ ?_ ?_ ?_ ?_ ?_ ?_ ?_ ?_ ?_ ?_ ?_ ?_ ?_ ?_ ?_ ?_ ?_ ?_ ?_ ?_ ?_ ?_ ?_) <;> first | exact Or.inl (Sub.of hm rfl) | with_reducible exact Or.inr rfl | skip))
    | (fail_if_no_progress extract_lets) | split | (refine Keeps.snd (by assumption) ?_)
    | (refine Keeps.fst (by assumption) ?_) | (refine Keeps.snd2 (by assumption) ?_) | (dsimp only)
    | (dsimp +zetaDelta only)

theorem keeps_scrub {msk : Nat} {s₀ s : State} (res : ScrubResult) (hk : Keeps msk s₀ s)
    (hm : Sub 0x10000080 msk := by first | assumption | (apply Sub.of; assumption; rfl)) :
    Keeps msk s₀ (scrub res s) := by
  unfold scrub
  repeat' first
    | (with_reducible assumption) | ((with_reducible refine Sub.of hm ?_); exact rfl)
    | (with_reducible refine Keeps.ite ?_ ?_) | (with_reducible apply keeps_State_modWeir)
    | (with_reducible apply keeps_correctedRead) | (with_reducible apply keeps_uncorrectable)
    | (with_reducible apply keeps_scrubAdvance)
    | (fail_if_no_progress ((with_reducible refine Keeps.upd ?_ ?_ ?_ ?_ ?_ ?_ ?_ ?_ ?_ ?_ ?_ ?_ ?_ ?_ ?_ ?_ ?_ ?_ ?_ ?_ ?_ ?_ ?_ ?_ ?_ ?_ ?_ ?_ ?_ ?_ ?_) <;> first | exact Or.inl (Sub.of hm rfl) | with_reducible exact Or.inr rfl | skip))
    | (fail_if_no_progress extract_lets) | split | (refine Keeps.snd (by assumption) ?_)
    | (refine Keeps.fst (by assumption) ?_) | (refine Keeps.snd2 (by assumption) ?_) | (dsimp only)
    | (dsimp +zetaDelta only)

theorem keeps_execScrubBurst {msk : Nat} {s₀ s : State} (dt : Nat) (res : ScrubResult) (hk : Keeps msk s₀ (advance dt s))
    (hm : Sub 0x10000080 msk := by first | assumption | (apply Sub.of; assumption; rfl)) :
    KeepsA msk s₀ (execScrubBurst dt res s) := by
  unfold execScrubBurst
  repeat' first
    | (with_reducible refine KeepsA.next ?_) | (with_reducible assumption)
    | ((with_reducible refine Sub.of hm ?_); exact rfl) | (with_reducible refine Keeps.ite ?_ ?_)
    | (with_reducible apply keeps_scrub)
    | (fail_if_no_progress ((with_reducible refine Keeps.upd ?_ ?_ ?_ ?_ ?_ ?_ ?_ ?_ ?_ ?_ ?_ ?_ ?_ ?_ ?_ ?_ ?_ ?_ ?_ ?_ ?_ ?_ ?_ ?_ ?_ ?_ ?_ ?_ ?_ ?_ ?_) <;> first | exact Or.inl (Sub.of hm rfl) | with_reducible exact Or.inr rfl | skip))
    | (fail_if_no_progress extract_lets) | split | (refine Keeps.snd (by assumption) ?_)
    | (refine Keeps.fst (by assumption) ?_) | (refine Keeps.snd2 (by assumption) ?_) | (dsimp only)
    | (dsimp +zetaDelta only)

theorem keeps_readWeirShed {msk : Nat} {s₀ s : State} (fn : Fn) (hk : Keeps msk s₀ s)
    (hm : Sub 0x10000000 msk := by first | assumption | (apply Sub.of; assumption; rfl)) :
    Keeps msk s₀ (readWeirShed fn s).2 := by
  unfold readWeirShed
  repeat' first
    | (with_reducible assumption) | ((with_reducible refine Sub.of hm ?_); exact rfl)
    | (with_reducible refine Keeps.ite ?_ ?_) | (with_reducible apply keeps_State_modWeir)
    | (fail_if_no_progress ((with_reducible refine Keeps.upd ?_ ?_ ?_ ?_ ?_ ?_ ?_ ?_ ?_ ?_ ?_ ?_ ?_ ?_ ?_ ?_ ?_ ?_ ?_ ?_ ?_ ?_ ?_ ?_ ?_ ?_ ?_ ?_ ?_ ?_ ?_) <;> first | exact Or.inl (Sub.of hm rfl) | with_reducible exact Or.inr rfl | skip))
    | (fail_if_no_progress extract_lets) | split | (refine Keeps.snd (by assumption) ?_)
    | (refine Keeps.fst (by assumption) ?_) | (refine Keeps.snd2 (by assumption) ?_) | (dsimp only)
    | (dsimp +zetaDelta only)

theorem keeps_execWeirShedRead {msk : Nat} {s₀ s : State} (dt : Nat) (fn : Fn) (hk : Keeps msk s₀ (advance dt s))
    (hm : Sub 0x210000082 msk := by first | assumption | (apply Sub.of; assumption; rfl)) :
    KeepsA msk s₀ (execWeirShedRead dt fn s) := by
  unfold execWeirShedRead
  repeat' first
    | (with_reducible refine KeepsA.next ?_) | (with_reducible assumption)
    | ((with_reducible refine Sub.of hm ?_); exact rfl) | (with_reducible refine Keeps.ite ?_ ?_)
    | (with_reducible apply keeps_readRegister) | (with_reducible apply keeps_readWeirShed)
    | (fail_if_no_progress ((with_reducible refine Keeps.upd ?_ ?_ ?_ ?_ ?_ ?_ ?_ ?_ ?_ ?_ ?_ ?_ ?_ ?_ ?_ ?_ ?_ ?_ ?_ ?_ ?_ ?_ ?_ ?_ ?_ ?_ ?_ ?_ ?_ ?_ ?_) <;> first | exact Or.inl (Sub.of hm rfl) | with_reducible exact Or.inr rfl | skip))
    | (intro _ _ _) | (intro _ _) | (fail_if_no_progress extract_lets) | split | (refine Keeps.snd (by assumption) ?_)
    | (refine Keeps.fst (by assumption) ?_) | (refine Keeps.snd2 (by assumption) ?_) | (dsimp only)
    | (dsimp +zetaDelta only)

theorem keeps_readEccAddr {msk : Nat} {s₀ s : State} (hk : Keeps msk s₀ s)
    (hm : Sub 0x10000000 msk := by first | assumption | (apply Sub.of; assumption; rfl)) :
    Keeps msk s₀ (readEccAddr s).2 := by
  unfold readEccAddr
  repeat' first
    | (with_reducible assumption) | ((with_reducible refine Sub.of hm ?_); exact rfl)
    | (with_reducible refine Keeps.ite ?_ ?_) | (with_reducible apply keeps_State_modWeir)
    | (fail_if_no_progress ((with_reducible refine Keeps.upd ?_ ?_ ?_ ?_ ?_ ?_ ?_ ?_ ?_ ?_ ?_ ?_ ?_ ?_ ?_ ?_ ?_ ?_ ?_ ?_ ?_ ?_ ?_ ?_ ?_ ?_ ?_ ?_ ?_ ?_ ?_) <;> first | exact Or.inl (Sub.of hm rfl) | with_reducible exact Or.inr rfl | skip))
    | (fail_if_no_progress extract_lets) | split | (refine Keeps.snd (by assumption) ?_)
    | (refine Keeps.fst (by assumption) ?_) | (refine Keeps.snd2 (by assumption) ?_) | (dsimp only)
    | (dsimp +zetaDelta only)

theorem keeps_execWeirEccAddrLoRead {msk : Nat} {s₀ s : State} (dt : Nat) (fn : Fn) (hk : Keeps msk s₀ (advance dt s))
    (hm : Sub 0x210000082 msk := by first | assumption | (apply Sub.of; assumption; rfl)) :
    KeepsA msk s₀ (execWeirEccAddrLoRead dt fn s) := by
  unfold execWeirEccAddrLoRead
  repeat' first
    | (with_reducible refine KeepsA.next ?_) | (with_reducible assumption)
    | ((with_reducible refine Sub.of hm ?_); exact rfl) | (with_reducible refine Keeps.ite ?_ ?_)
    | (with_reducible apply keeps_readRegister) | (with_reducible apply keeps_readEccAddr)
    | (fail_if_no_progress ((with_reducible refine Keeps.upd ?_ ?_ ?_ ?_ ?_ ?_ ?_ ?_ ?_ ?_ ?_ ?_ ?_ ?_ ?_ ?_ ?_ ?_ ?_ ?_ ?_ ?_ ?_ ?_ ?_ ?_ ?_ ?_ ?_ ?_ ?_) <;> first | exact Or.inl (Sub.of hm rfl) | with_reducible exact Or.inr rfl | skip))
    | (intro _ _ _) | (intro _ _) | (fail_if_no_progress extract_lets) | split | (refine Keeps.snd (by assumption) ?_)
    | (refine Keeps.fst (by assumption) ?_) | (refine Keeps.snd2 (by assumption) ?_) | (dsimp only)
    | (dsimp +zetaDelta only)

theorem keeps_weirStatusBody {msk : Nat} {s₀ s : State} (h : Hamper) (hk : Keeps msk s₀ s)
    (hm : Sub 0x0 msk := by first | assumption | (apply Sub.of; assumption; rfl)) :
    KeepsV msk s₀ (weirStatusBody s h) := by
  unfold weirStatusBody
  repeat' first
    | (with_reducible exact KeepsV.refuse) | (with_reducible exact KeepsV.badArg)
    | (with_reducible exact KeepsV.notOwner) | (with_reducible exact KeepsV.wrongState)
    | (with_reducible exact KeepsV.noResource) | (with_reducible refine KeepsV.ok ?_)
    | (with_reducible refine KeepsV.accepted ?_) | (with_reducible refine KeepsV.later ?_)
    | (with_reducible refine KeepsV.ite ?_ ?_) | (with_reducible assumption)
    | ((with_reducible refine Sub.of hm ?_); exact rfl) | (with_reducible refine Keeps.ite ?_ ?_)
    | (with_reducible apply keeps_badArg)
    | (fail_if_no_progress ((with_reducible refine Keeps.upd ?_ ?_ ?_ ?_ ?_ ?_ ?_ ?_ ?_ ?_ ?_ ?_ ?_ ?_ ?_ ?_ ?_ ?_ ?_ ?_ ?_ ?_ ?_ ?_ ?_ ?_ ?_ ?_ ?_ ?_ ?_) <;> first | exact Or.inl (Sub.of hm rfl) | with_reducible exact Or.inr rfl | skip))
    | (fail_if_no_progress extract_lets) | split | (refine Keeps.snd (by assumption) ?_)
    | (refine Keeps.fst (by assumption) ?_) | (refine Keeps.snd2 (by assumption) ?_) | (dsimp only)
    | (dsimp +zetaDelta only)

theorem keeps_weirShedOrderBody {msk : Nat} {s₀ s : State} (h : Hamper) (hk : Keeps msk s₀ s)
    (hm : Sub 0x10000080 msk := by first | assumption | (apply Sub.of; assumption; rfl)) :
    KeepsV msk s₀ (weirShedOrderBody s h) := by
  unfold weirShedOrderBody
  repeat' first
    | (with_reducible exact KeepsV.refuse) | (with_reducible exact KeepsV.badArg)
    | (with_reducible exact KeepsV.notOwner) | (with_reducible exact KeepsV.wrongState)
    | (with_reducible exact KeepsV.noResource) | (with_reducible refine KeepsV.ok ?_)
    | (with_reducible refine KeepsV.accepted ?_) | (with_reducible refine KeepsV.later ?_)
    | (with_reducible refine KeepsV.ite ?_ ?_) | (with_reducible assumption)
    | ((with_reducible refine Sub.of hm ?_); exact rfl) | (with_reducible refine Keeps.ite ?_ ?_)
    | (with_reducible apply keeps_badArg) | (with_reducible apply keeps_recompute)
    | (with_reducible apply keeps_State_modWeir)
    | (fail_if_no_progress ((with_reducible refine Keeps.upd ?_ ?_ ?_ ?_ ?_ ?_ ?_ ?_ ?_ ?_ ?_ ?_ ?_ ?_ ?_ ?_ ?_ ?_ ?_ ?_ ?_ ?_ ?_ ?_ ?_ ?_ ?_ ?_ ?_ ?_ ?_) <;> first | exact Or.inl (Sub.of hm rfl) | with_reducible exact Or.inr rfl | skip))
    | (fail_if_no_progress extract_lets) | split | (refine Keeps.snd (by assumption) ?_)
    | (refine Keeps.fst (by assumption) ?_) | (refine Keeps.snd2 (by assumption) ?_) | (dsimp only)
    | (dsimp +zetaDelta only)

theorem keeps_weirCheckBody {msk : Nat} {s₀ s : State} (h : Hamper) (hk : Keeps msk s₀ s)
    (hm : Sub 0x0 msk := by first | assumption | (apply Sub.of; assumption; rfl)) :
    KeepsV msk s₀ (weirCheckBody s h) := by
  unfold weirCheckBody
  repeat' first
    | (with_reducible exact KeepsV.refuse) | (with_reducible exact KeepsV.badArg)
    | (with_reducible exact KeepsV.notOwner) | (with_reducible exact KeepsV.wrongState)
    | (with_reducible exact KeepsV.noResource) | (with_reducible refine KeepsV.ok ?_)
    | (with_reducible refine KeepsV.accepted ?_) | (with_reducible refine KeepsV.later ?_)
    | (with_reducible refine KeepsV.ite ?_ ?_) | (with_reducible assumption)
    | ((with_reducible refine Sub.of hm ?_); exact rfl) | (with_reducible refine Keeps.ite ?_ ?_)
    | (with_reducible apply keeps_badArg)
    | (fail_if_no_progress ((with_reducible refine Keeps.upd ?_ ?_ ?_ ?_ ?_ ?_ ?_ ?_ ?_ ?_ ?_ ?_ ?_ ?_ ?_ ?_ ?_ ?_ ?_ ?_ ?_ ?_ ?_ ?_ ?_ ?_ ?_ ?_ ?_ ?_ ?_) <;> first | exact Or.inl (Sub.of hm rfl) | with_reducible exact Or.inr rfl | skip))
    | (fail_if_no_progress extract_lets) | split | (refine Keeps.snd (by assumption) ?_)
    | (refine Keeps.fst (by assumption) ?_) | (refine Keeps.snd2 (by assumption) ?_) | (dsimp only)
    | (dsimp +zetaDelta only)

theorem keeps_weirScrubBody {msk : Nat} {s₀ s : State} (h : Hamper) (hk : Keeps msk s₀ s)
    (hm : Sub 0x10000000 msk := by first | assumption | (apply Sub.of; assumption; rfl)) :
    KeepsV msk s₀ (weirScrubBody s h) := by
  unfold weirScrubBody
  repeat' first
    | (with_reducible exact KeepsV.refuse) | (with_reducible exact KeepsV.badArg)
    | (with_reducible exact KeepsV.notOwner) | (with_reducible exact KeepsV.wrongState)
    | (with_reducible exact KeepsV.noResource) | (with_reducible refine KeepsV.ok ?_)
    | (with_reducible refine KeepsV.accepted ?_) | (with_reducible refine KeepsV.later ?_)
    | (with_reducible refine KeepsV.ite ?_ ?_) | (with_reducible assumption)
    | ((with_reducible refine Sub.of hm ?_); exact rfl) | (with_reducible refine Keeps.ite ?_ ?_)
    | (with_reducible apply keeps_badArg) | (with_reducible apply keeps_State_modWeir)
    | (fail_if_no_progress ((with_reducible refine Keeps.upd ?_ ?_ ?_ ?_ ?_ ?_ ?_ ?_ ?_ ?_ ?_ ?_ ?_ ?_ ?_ ?_ ?_ ?_ ?_ ?_ ?_ ?_ ?_ ?_ ?_ ?_ ?_ ?_ ?_ ?_ ?_) <;> first | exact Or.inl (Sub.of hm rfl) | with_reducible exact Or.inr rfl | skip))
    | (fail_if_no_progress extract_lets) | split | (refine Keeps.snd (by assumption) ?_)
    | (refine Keeps.fst (by assumption) ?_) | (refine Keeps.snd2 (by assumption) ?_) | (dsimp only)
    | (dsimp +zetaDelta only)

theorem keeps_execWeirStatus {msk : Nat} {s₀ s : State} (dt : Nat) (r : Req) (hk : Keeps msk s₀ (advance dt s))
    (hm : Sub 0x2000000C6 msk := by first | assumption | (apply Sub.of; assumption; rfl)) :
    KeepsA msk s₀ (execWeirStatus dt r s) := by
  unfold execWeirStatus
  repeat' first
    | (with_reducible refine KeepsA.next ?_) | (with_reducible assumption)
    | ((with_reducible refine Sub.of hm ?_); exact rfl) | (with_reducible refine Keeps.ite ?_ ?_)
    | (with_reducible apply keeps_serve) | (with_reducible apply keeps_weirStatusBody)
    | (fail_if_no_progress ((with_reducible refine Keeps.upd ?_ ?_ ?_ ?_ ?_ ?_ ?_ ?_ ?_ ?_ ?_ ?_ ?_ ?_ ?_ ?_ ?_ ?_ ?_ ?_ ?_ ?_ ?_ ?_ ?_ ?_ ?_ ?_ ?_ ?_ ?_) <;> first | exact Or.inl (Sub.of hm rfl) | with_reducible exact Or.inr rfl | skip))
    | (intro _ _ _) | (intro _ _) | (fail_if_no_progress extract_lets) | split | (refine Keeps.snd (by assumption) ?_)
    | (refine Keeps.fst (by assumption) ?_) | (refine Keeps.snd2 (by assumption) ?_) | (dsimp only)
    | (dsimp +zetaDelta only)

theorem keeps_execWeirShedOrder {msk : Nat} {s₀ s : State} (dt : Nat) (r : Req) (hk : Keeps msk s₀ (advance dt s))
    (hm : Sub 0x2100000C6 msk := by first | assumption | (apply Sub.of; assumption; rfl)) :
    KeepsA msk s₀ (execWeirShedOrder dt r s) := by
  unfold execWeirShedOrder
  repeat' first
    | (with_reducible refine KeepsA.next ?_) | (with_reducible assumption)
    | ((with_reducible refine Sub.of hm ?_); exact rfl) | (with_reducible refine Keeps.ite ?_ ?_)
    | (with_reducible apply keeps_serve) | (with_reducible apply keeps_weirShedOrderBody)
    | (fail_if_no_progress ((with_reducible refine Keeps.upd ?_ ?_ ?_ ?_ ?_ ?_ ?_ ?_ ?_ ?_ ?_ ?_ ?_ ?_ ?_ ?_ ?_ ?_ ?_ ?_ ?_ ?_ ?_ ?_ ?_ ?_ ?_ ?_ ?_ ?_ ?_) <;> first | exact Or.inl (Sub.of hm rfl) | with_reducible exact Or.inr rfl | skip))
    | (intro _ _ _) | (intro _ _) | (fail_if_no_progress extract_lets) | split | (refine Keeps.snd (by assumption) ?_)
    | (refine Keeps.fst (by assumption) ?_) | (refine Keeps.snd2 (by assumption) ?_) | (dsimp only)
    | (dsimp +zetaDelta only)

theorem keeps_execWeirCheck {msk : Nat} {s₀ s : State} (dt : Nat) (r : Req) (hk : Keeps msk s₀ (advance dt s))
    (hm : Sub 0x2000000C6 msk := by first | assumption | (apply Sub.of; assumption; rfl)) :
    KeepsA msk s₀ (execWeirCheck dt r s) := by
  unfold execWeirCheck
  repeat' first
    | (with_reducible refine KeepsA.next ?_) | (with_reducible assumption)
    | ((with_reducible refine Sub.of hm ?_); exact rfl) | (with_reducible refine Keeps.ite ?_ ?_)
    | (with_reducible apply keeps_serve) | (with_reducible apply keeps_weirCheckBody)
    | (fail_if_no_progress ((with_reducible refine Keeps.upd ?_ ?_ ?_ ?_ ?_ ?_ ?_ ?_ ?_ ?_ ?_ ?_ ?_ ?_ ?_ ?_ ?_ ?_ ?_ ?_ ?_ ?_ ?_ ?_ ?_ ?_ ?_ ?_ ?_ ?_ ?_) <;> first | exact Or.inl (Sub.of hm rfl) | with_reducible exact Or.inr rfl | skip))
    | (intro _ _ _) | (intro _ _) | (fail_if_no_progress extract_lets) | split | (refine Keeps.snd (by assumption) ?_)
    | (refine Keeps.fst (by assumption) ?_) | (refine Keeps.snd2 (by assumption) ?_) | (dsimp only)
    | (dsimp +zetaDelta only)

theorem keeps_execWeirScrub {msk : Nat} {s₀ s : State} (dt : Nat) (r : Req) (hk : Keeps msk s₀ (advance dt s))
    (hm : Sub 0x2100000C6 msk := by first | assumption | (apply Sub.of; assumption; rfl)) :
    KeepsA msk s₀ (execWeirScrub dt r s) := by
  unfold execWeirScrub
  repeat' first
    | (with_reducible refine KeepsA.next ?_) | (with_reducible assumption)
    | ((with_reducible refine Sub.of hm ?_); exact rfl) | (with_reducible refine Keeps.ite ?_ ?_)
    | (with_reducible apply keeps_serve) | (with_reducible apply keeps_weirScrubBody)
    | (fail_if_no_progress ((with_reducible refine Keeps.upd ?_ ?_ ?_ ?_ ?_ ?_ ?_ ?_ ?_ ?_ ?_ ?_ ?_ ?_ ?_ ?_ ?_ ?_ ?_ ?_ ?_ ?_ ?_ ?_ ?_ ?_ ?_ ?_ ?_ ?_ ?_) <;> first | exact Or.inl (Sub.of hm rfl) | with_reducible exact Or.inr rfl | skip))
    | (intro _ _ _) | (intro _ _) | (fail_if_no_progress extract_lets) | split | (refine Keeps.snd (by assumption) ?_)
    | (refine Keeps.fst (by assumption) ?_) | (refine Keeps.snd2 (by assumption) ?_) | (dsimp only)
    | (dsimp +zetaDelta only)

end Sys2Proof.Machine
end

