-- ==== Sys2Proof/Laws/KeepsFirmware.lean ====
section
/-! SUPPORT. `Keeps` of the operations and meanings of Machine/Firmware.lean. -/

set_option Elab.async false

set_option linter.unusedTactic false
set_option linter.unreachableTactic false

namespace Sys2Proof.Machine

theorem keeps_hamperDoneFree {msk : Nat} {s₀ s : State} (op : Nat) (index : Nat) (status : Nat) (hk : Keeps msk s₀ s)
    (hm : Sub 0x6800000B2 msk := by first | assumption | (apply Sub.of; assumption; rfl)) :
    Keeps msk s₀ (hamperDoneFree op index status s) := by
  unfold hamperDoneFree
  repeat' first
    | (with_reducible assumption) | ((with_reducible refine Sub.of hm ?_); exact rfl)
    | (with_reducible refine Keeps.ite ?_ ?_) | (with_reducible apply keeps_draw)
    | (with_reducible apply keeps_hamperDone)
    | (fail_if_no_progress ((with_reducible refine Keeps.upd ?_ ?_ ?_ ?_ ?_ ?_ ?_ ?_ ?_ ?_ ?_ ?_ ?_ ?_ ?_ ?_ ?_ ?_ ?_ ?_ ?_ ?_ ?_ ?_ ?_ ?_ ?_ ?_ ?_ ?_ ?_) <;> first | exact Or.inl (Sub.of hm rfl) | with_reducible exact Or.inr rfl | skip))
    | (fail_if_no_progress extract_lets) | split | (refine Keeps.snd (by assumption) ?_)
    | (refine Keeps.fst (by assumption) ?_) | (refine Keeps.snd2 (by assumption) ?_) | (dsimp only)
    | (dsimp +zetaDelta only)

theorem keeps_provisionBody {msk : Nat} {s₀ s : State} (h : Hamper) (hk : Keeps msk s₀ s)
    (hm : Sub 0x20 msk := by first | assumption | (apply Sub.of; assumption; rfl)) :
    KeepsV msk s₀ (provisionBody s h) := by
  unfold provisionBody
  repeat' first
    | (with_reducible exact KeepsV.refuse) | (with_reducible exact KeepsV.badArg)
    | (with_reducible exact KeepsV.notOwner) | (with_reducible exact KeepsV.wrongState)
    | (with_reducible exact KeepsV.noResource) | (with_reducible refine KeepsV.ok ?_)
    | (with_reducible refine KeepsV.accepted ?_) | (with_reducible refine KeepsV.later ?_)
    | (with_reducible refine KeepsV.ite ?_ ?_) | (with_reducible assumption)
    | ((with_reducible refine Sub.of hm ?_); exact rfl) | (with_reducible refine Keeps.ite ?_ ?_)
    | (with_reducible apply keeps_wrongState) | (with_reducible apply keeps_badArg)
    | (with_reducible apply keeps_accept)
    | (fail_if_no_progress ((with_reducible refine Keeps.upd ?_ ?_ ?_ ?_ ?_ ?_ ?_ ?_ ?_ ?_ ?_ ?_ ?_ ?_ ?_ ?_ ?_ ?_ ?_ ?_ ?_ ?_ ?_ ?_ ?_ ?_ ?_ ?_ ?_ ?_ ?_) <;> first | exact Or.inl (Sub.of hm rfl) | with_reducible exact Or.inr rfl | skip))
    | (fail_if_no_progress extract_lets) | split | (refine Keeps.snd (by assumption) ?_)
    | (refine Keeps.fst (by assumption) ?_) | (refine Keeps.snd2 (by assumption) ?_) | (dsimp only)
    | (dsimp +zetaDelta only)

theorem keeps_execProvision {msk : Nat} {s₀ s : State} (dt : Nat) (r : Req) (hk : Keeps msk s₀ (advance dt s))
    (hm : Sub 0x2000000E6 msk := by first | assumption | (apply Sub.of; assumption; rfl)) :
    KeepsA msk s₀ (execProvision dt r s) := by
  unfold execProvision
  repeat' first
    | (with_reducible refine KeepsA.next ?_) | (with_reducible assumption)
    | ((with_reducible refine Sub.of hm ?_); exact rfl) | (with_reducible refine Keeps.ite ?_ ?_)
    | (with_reducible apply keeps_serve) | (with_reducible apply keeps_provisionBody)
    | (fail_if_no_progress ((with_reducible refine Keeps.upd ?_ ?_ ?_ ?_ ?_ ?_ ?_ ?_ ?_ ?_ ?_ ?_ ?_ ?_ ?_ ?_ ?_ ?_ ?_ ?_ ?_ ?_ ?_ ?_ ?_ ?_ ?_ ?_ ?_ ?_ ?_) <;> first | exact Or.inl (Sub.of hm rfl) | with_reducible exact Or.inr rfl | skip))
    | (intro _ _ _) | (intro _ _) | (fail_if_no_progress extract_lets) | split | (refine Keeps.snd (by assumption) ?_)
    | (refine Keeps.fst (by assumption) ?_) | (refine Keeps.snd2 (by assumption) ?_) | (dsimp only)
    | (dsimp +zetaDelta only)

theorem keeps_provisionEnds {msk : Nat} {s₀ s : State} (cert : Fetched) (hk : Keeps msk s₀ s)
    (hm : Sub 0x2800020B2 msk := by first | assumption | (apply Sub.of; assumption; rfl)) :
    Keeps msk s₀ (provisionEnds cert s) := by
  unfold provisionEnds
  repeat' first
    | (with_reducible assumption) | ((with_reducible refine Sub.of hm ?_); exact rfl)
    | (with_reducible refine Keeps.ite ?_ ?_) | (with_reducible apply keeps_hamperDone)
    | (with_reducible apply keeps_State_modMram)
    | (fail_if_no_progress ((with_reducible refine Keeps.upd ?_ ?_ ?_ ?_ ?_ ?_ ?_ ?_ ?_ ?_ ?_ ?_ ?_ ?_ ?_ ?_ ?_ ?_ ?_ ?_ ?_ ?_ ?_ ?_ ?_ ?_ ?_ ?_ ?_ ?_ ?_) <;> first | exact Or.inl (Sub.of hm rfl) | with_reducible exact Or.inr rfl | skip))
    | (fail_if_no_progress ((with_reducible refine Keeps.updMram ?_ (by rfl) (by first | exact id | (intro h; dsimp only; simp [h])) ?_ ?_ ?_ ?_ ?_ ?_ ?_ ?_ ?_ ?_ ?_ ?_ ?_ ?_ ?_ ?_ ?_ ?_ ?_ ?_ ?_ ?_ ?_ ?_ ?_ ?_ ?_ ?_ ?_ ?_ ?_) <;> first | exact Or.inl (Sub.of hm rfl) | with_reducible exact Or.inr rfl | skip))
    | rfl | (exact id) | ((intro h; dsimp only; simp [h]; done)) | (fail_if_no_progress extract_lets) | split
    | (refine Keeps.snd (by assumption) ?_) | (refine Keeps.fst (by assumption) ?_)
    | (refine Keeps.snd2 (by assumption) ?_) | (dsimp only) | (dsimp +zetaDelta only)

theorem keeps_execProvisionDone {msk : Nat} {s₀ s : State} (dt : Nat) (cert : Fetched) (hk : Keeps msk s₀ (advance dt s))
    (hm : Sub 0x2800020B2 msk := by first | assumption | (apply Sub.of; assumption; rfl)) :
    KeepsA msk s₀ (execProvisionDone dt cert s) := by
  unfold execProvisionDone
  repeat' first
    | (with_reducible refine KeepsA.next ?_) | (with_reducible assumption)
    | ((with_reducible refine Sub.of hm ?_); exact rfl) | (with_reducible refine Keeps.ite ?_ ?_)
    | (with_reducible apply keeps_provisionEnds)
    | (fail_if_no_progress ((with_reducible refine Keeps.upd ?_ ?_ ?_ ?_ ?_ ?_ ?_ ?_ ?_ ?_ ?_ ?_ ?_ ?_ ?_ ?_ ?_ ?_ ?_ ?_ ?_ ?_ ?_ ?_ ?_ ?_ ?_ ?_ ?_ ?_ ?_) <;> first | exact Or.inl (Sub.of hm rfl) | with_reducible exact Or.inr rfl | skip))
    | (fail_if_no_progress extract_lets) | split | (refine Keeps.snd (by assumption) ?_)
    | (refine Keeps.fst (by assumption) ?_) | (refine Keeps.snd2 (by assumption) ?_) | (dsimp only)
    | (dsimp +zetaDelta only)

theorem keeps_measReportBody {msk : Nat} {s₀ s : State} (h : Hamper) (hk : Keeps msk s₀ s)
    (hm : Sub 0x20 msk := by first | assumption | (apply Sub.of; assumption; rfl)) :
    KeepsV msk s₀ (measReportBody s h) := by
  unfold measReportBody
  repeat' first
    | (with_reducible exact KeepsV.refuse) | (with_reducible exact KeepsV.badArg)
    | (with_reducible exact KeepsV.notOwner) | (with_reducible exact KeepsV.wrongState)
    | (with_reducible exact KeepsV.noResource) | (with_reducible refine KeepsV.ok ?_)
    | (with_reducible refine KeepsV.accepted ?_) | (with_reducible refine KeepsV.later ?_)
    | (with_reducible refine KeepsV.ite ?_ ?_) | (with_reducible assumption)
    | ((with_reducible refine Sub.of hm ?_); exact rfl) | (with_reducible refine Keeps.ite ?_ ?_)
    | (with_reducible apply keeps_badArg) | (with_reducible apply keeps_accept)
    | (fail_if_no_progress ((with_reducible refine Keeps.upd ?_ ?_ ?_ ?_ ?_ ?_ ?_ ?_ ?_ ?_ ?_ ?_ ?_ ?_ ?_ ?_ ?_ ?_ ?_ ?_ ?_ ?_ ?_ ?_ ?_ ?_ ?_ ?_ ?_ ?_ ?_) <;> first | exact Or.inl (Sub.of hm rfl) | with_reducible exact Or.inr rfl | skip))
    | (fail_if_no_progress extract_lets) | split | (refine Keeps.snd (by assumption) ?_)
    | (refine Keeps.fst (by assumption) ?_) | (refine Keeps.snd2 (by assumption) ?_) | (dsimp only)
    | (dsimp +zetaDelta only)

theorem keeps_execMeasReport {msk : Nat} {s₀ s : State} (dt : Nat) (r : Req) (hk : Keeps msk s₀ (advance dt s))
    (hm : Sub 0x2000000E6 msk := by first | assumption | (apply Sub.of; assumption; rfl)) :
    KeepsA msk s₀ (execMeasReport dt r s) := by
  unfold execMeasReport
  repeat' first
    | (with_reducible refine KeepsA.next ?_) | (with_reducible assumption)
    | ((with_reducible refine Sub.of hm ?_); exact rfl) | (with_reducible refine Keeps.ite ?_ ?_)
    | (with_reducible apply keeps_serve) | (with_reducible apply keeps_measReportBody)
    | (fail_if_no_progress ((with_reducible refine Keeps.upd ?_ ?_ ?_ ?_ ?_ ?_ ?_ ?_ ?_ ?_ ?_ ?_ ?_ ?_ ?_ ?_ ?_ ?_ ?_ ?_ ?_ ?_ ?_ ?_ ?_ ?_ ?_ ?_ ?_ ?_ ?_) <;> first | exact Or.inl (Sub.of hm rfl) | with_reducible exact Or.inr rfl | skip))
    | (intro _ _ _) | (intro _ _) | (fail_if_no_progress extract_lets) | split | (refine Keeps.snd (by assumption) ?_)
    | (refine Keeps.fst (by assumption) ?_) | (refine Keeps.snd2 (by assumption) ?_) | (dsimp only)
    | (dsimp +zetaDelta only)

theorem keeps_signBytes {msk : Nat} {s₀ s : State} (bytes : List Byte) (hk : Keeps msk s₀ s)
    (hm : Sub 0x400000000 msk := by first | assumption | (apply Sub.of; assumption; rfl)) :
    Keeps msk s₀ (signBytes bytes s).2 := by
  unfold signBytes
  repeat' first
    | (with_reducible assumption) | ((with_reducible refine Sub.of hm ?_); exact rfl)
    | (with_reducible refine Keeps.ite ?_ ?_) | (with_reducible apply keeps_draw)
    | (fail_if_no_progress ((with_reducible refine Keeps.upd ?_ ?_ ?_ ?_ ?_ ?_ ?_ ?_ ?_ ?_ ?_ ?_ ?_ ?_ ?_ ?_ ?_ ?_ ?_ ?_ ?_ ?_ ?_ ?_ ?_ ?_ ?_ ?_ ?_ ?_ ?_) <;> first | exact Or.inl (Sub.of hm rfl) | with_reducible exact Or.inr rfl | skip))
    | (fail_if_no_progress extract_lets) | split | (refine Keeps.snd (by assumption) ?_)
    | (refine Keeps.fst (by assumption) ?_) | (refine Keeps.snd2 (by assumption) ?_) | (dsimp only)
    | (dsimp +zetaDelta only)

theorem keeps_measReportEnds {msk : Nat} {s₀ s : State} (written : Bool) (hk : Keeps msk s₀ s)
    (hm : Sub 0x6800000B2 msk := by first | assumption | (apply Sub.of; assumption; rfl)) :
    Keeps msk s₀ (measReportEnds written s) := by
  unfold measReportEnds
  repeat' first
    | (with_reducible assumption) | ((with_reducible refine Sub.of hm ?_); exact rfl)
    | (with_reducible refine Keeps.ite ?_ ?_) | (with_reducible apply keeps_signBytes)
    | (with_reducible apply keeps_hamperDone) | (with_reducible apply keeps_bufferWrite)
    | (with_reducible apply keeps_hamperDoneFree)
    | (fail_if_no_progress ((with_reducible refine Keeps.upd ?_ ?_ ?_ ?_ ?_ ?_ ?_ ?_ ?_ ?_ ?_ ?_ ?_ ?_ ?_ ?_ ?_ ?_ ?_ ?_ ?_ ?_ ?_ ?_ ?_ ?_ ?_ ?_ ?_ ?_ ?_) <;> first | exact Or.inl (Sub.of hm rfl) | with_reducible exact Or.inr rfl | skip))
    | (fail_if_no_progress extract_lets) | split | (refine Keeps.snd (by assumption) ?_)
    | (refine Keeps.fst (by assumption) ?_) | (refine Keeps.snd2 (by assumption) ?_) | (dsimp only)
    | (dsimp +zetaDelta only)

theorem keeps_execMeasReportDone {msk : Nat} {s₀ s : State} (dt : Nat) (written : Bool) (hk : Keeps msk s₀ (advance dt s))
    (hm : Sub 0x6800000B2 msk := by first | assumption | (apply Sub.of; assumption; rfl)) :
    KeepsA msk s₀ (execMeasReportDone dt written s) := by
  unfold execMeasReportDone
  repeat' first
    | (with_reducible refine KeepsA.next ?_) | (with_reducible assumption)
    | ((with_reducible refine Sub.of hm ?_); exact rfl) | (with_reducible refine Keeps.ite ?_ ?_)
    | (with_reducible apply keeps_measReportEnds)
    | (fail_if_no_progress ((with_reducible refine Keeps.upd ?_ ?_ ?_ ?_ ?_ ?_ ?_ ?_ ?_ ?_ ?_ ?_ ?_ ?_ ?_ ?_ ?_ ?_ ?_ ?_ ?_ ?_ ?_ ?_ ?_ ?_ ?_ ?_ ?_ ?_ ?_) <;> first | exact Or.inl (Sub.of hm rfl) | with_reducible exact Or.inr rfl | skip))
    | (fail_if_no_progress extract_lets) | split | (refine Keeps.snd (by assumption) ?_)
    | (refine Keeps.fst (by assumption) ?_) | (refine Keeps.snd2 (by assumption) ?_) | (dsimp only)
    | (dsimp +zetaDelta only)

theorem keeps_fwStageBody {msk : Nat} {s₀ s : State} (header : Fetched) (h : Hamper) (hk : Keeps msk s₀ s)
    (hm : Sub 0x2020 msk := by first | assumption | (apply Sub.of; assumption; rfl)) :
    KeepsV msk s₀ (fwStageBody header s h) := by
  unfold fwStageBody
  repeat' first
    | (with_reducible exact KeepsV.refuse) | (with_reducible exact KeepsV.badArg)
    | (with_reducible exact KeepsV.notOwner) | (with_reducible exact KeepsV.wrongState)
    | (with_reducible exact KeepsV.noResource) | (with_reducible refine KeepsV.ok ?_)
    | (with_reducible refine KeepsV.accepted ?_) | (with_reducible refine KeepsV.later ?_)
    | (with_reducible refine KeepsV.ite ?_ ?_) | (with_reducible assumption)
    | ((with_reducible refine Sub.of hm ?_); exact rfl) | (with_reducible refine Keeps.ite ?_ ?_)
    | (with_reducible apply keeps_badArg) | (with_reducible apply keeps_wrongState)
    | (with_reducible apply keeps_accept) | (with_reducible apply keeps_State_modMram)
    | (fail_if_no_progress ((with_reducible refine Keeps.upd ?_ ?_ ?_ ?_ ?_ ?_ ?_ ?_ ?_ ?_ ?_ ?_ ?_ ?_ ?_ ?_ ?_ ?_ ?_ ?_ ?_ ?_ ?_ ?_ ?_ ?_ ?_ ?_ ?_ ?_ ?_) <;> first | exact Or.inl (Sub.of hm rfl) | with_reducible exact Or.inr rfl | skip))
    | (fail_if_no_progress ((with_reducible refine Keeps.updMram ?_ (by rfl) (by first | exact id | (intro h; dsimp only; simp [h])) ?_ ?_ ?_ ?_ ?_ ?_ ?_ ?_ ?_ ?_ ?_ ?_ ?_ ?_ ?_ ?_ ?_ ?_ ?_ ?_ ?_ ?_ ?_ ?_ ?_ ?_ ?_ ?_ ?_ ?_ ?_) <;> first | exact Or.inl (Sub.of hm rfl) | with_reducible exact Or.inr rfl | skip))
    | rfl | (exact id) | ((intro h; dsimp only; simp [h]; done)) | (fail_if_no_progress extract_lets) | split
    | (refine Keeps.snd (by assumption) ?_) | (refine Keeps.fst (by assumption) ?_)
    | (refine Keeps.snd2 (by assumption) ?_) | (dsimp only) | (dsimp +zetaDelta only)

theorem keeps_execFwStage {msk : Nat} {s₀ s : State} (dt : Nat) (r : Req) (header : Fetched) (hk : Keeps msk s₀ (advance dt s))
    (hm : Sub 0x2000020E6 msk := by first | assumption | (apply Sub.of; assumption; rfl)) :
    KeepsA msk s₀ (execFwStage dt r header s) := by
  unfold execFwStage
  repeat' first
    | (with_reducible refine KeepsA.next ?_) | (with_reducible assumption)
    | ((with_reducible refine Sub.of hm ?_); exact rfl) | (with_reducible refine Keeps.ite ?_ ?_)
    | (with_reducible apply keeps_serve) | (with_reducible apply keeps_fwStageBody)
    | (fail_if_no_progress ((with_reducible refine Keeps.upd ?_ ?_ ?_ ?_ ?_ ?_ ?_ ?_ ?_ ?_ ?_ ?_ ?_ ?_ ?_ ?_ ?_ ?_ ?_ ?_ ?_ ?_ ?_ ?_ ?_ ?_ ?_ ?_ ?_ ?_ ?_) <;> first | exact Or.inl (Sub.of hm rfl) | with_reducible exact Or.inr rfl | skip))
    | (intro _ _ _) | (intro _ _) | (fail_if_no_progress extract_lets) | split | (refine Keeps.snd (by assumption) ?_)
    | (refine Keeps.fst (by assumption) ?_) | (refine Keeps.snd2 (by assumption) ?_) | (dsimp only)
    | (dsimp +zetaDelta only)

theorem keeps_fwStageEnds {msk : Nat} {s₀ s : State} (image : Fetched) (hk : Keeps msk s₀ s)
    (hm : Sub 0x6800020B2 msk := by first | assumption | (apply Sub.of; assumption; rfl)) :
    Keeps msk s₀ (fwStageEnds image s) := by
  unfold fwStageEnds
  repeat' first
    | (with_reducible assumption) | ((with_reducible refine Sub.of hm ?_); exact rfl)
    | (with_reducible refine Keeps.ite ?_ ?_) | (with_reducible apply keeps_State_modMram)
    | (with_reducible apply keeps_hamperDoneFree) | (with_reducible apply keeps_post)
    | (fail_if_no_progress ((with_reducible refine Keeps.upd ?_ ?_ ?_ ?_ ?_ ?_ ?_ ?_ ?_ ?_ ?_ ?_ ?_ ?_ ?_ ?_ ?_ ?_ ?_ ?_ ?_ ?_ ?_ ?_ ?_ ?_ ?_ ?_ ?_ ?_ ?_) <;> first | exact Or.inl (Sub.of hm rfl) | with_reducible exact Or.inr rfl | skip))
    | (fail_if_no_progress ((with_reducible refine Keeps.updMram ?_ (by rfl) (by first | exact id | (intro h; dsimp only; simp [h])) ?_ ?_ ?_ ?_ ?_ ?_ ?_ ?_ ?_ ?_ ?_ ?_ ?_ ?_ ?_ ?_ ?_ ?_ ?_ ?_ ?_ ?_ ?_ ?_ ?_ ?_ ?_ ?_ ?_ ?_ ?_) <;> first | exact Or.inl (Sub.of hm rfl) | with_reducible exact Or.inr rfl | skip))
    | rfl | (exact id) | ((intro h; dsimp only; simp [h]; done)) | (fail_if_no_progress extract_lets) | split
    | (refine Keeps.snd (by assumption) ?_) | (refine Keeps.fst (by assumption) ?_)
    | (refine Keeps.snd2 (by assumption) ?_) | (dsimp only) | (dsimp +zetaDelta only)

theorem keeps_execFwStageDone {msk : Nat} {s₀ s : State} (dt : Nat) (image : Fetched) (hk : Keeps msk s₀ (advance dt s))
    (hm : Sub 0x6800020B2 msk := by first | assumption | (apply Sub.of; assumption; rfl)) :
    KeepsA msk s₀ (execFwStageDone dt image s) := by
  unfold execFwStageDone
  repeat' first
    | (with_reducible refine KeepsA.next ?_) | (with_reducible assumption)
    | ((with_reducible refine Sub.of hm ?_); exact rfl) | (with_reducible refine Keeps.ite ?_ ?_)
    | (with_reducible apply keeps_fwStageEnds)
    | (fail_if_no_progress ((with_reducible refine Keeps.upd ?_ ?_ ?_ ?_ ?_ ?_ ?_ ?_ ?_ ?_ ?_ ?_ ?_ ?_ ?_ ?_ ?_ ?_ ?_ ?_ ?_ ?_ ?_ ?_ ?_ ?_ ?_ ?_ ?_ ?_ ?_) <;> first | exact Or.inl (Sub.of hm rfl) | with_reducible exact Or.inr rfl | skip))
    | (fail_if_no_progress extract_lets) | split | (refine Keeps.snd (by assumption) ?_)
    | (refine Keeps.fst (by assumption) ?_) | (refine Keeps.snd2 (by assumption) ?_) | (dsimp only)
    | (dsimp +zetaDelta only)

theorem keeps_activateSlot {msk : Nat} {s₀ s : State} (slot : Fin 2) (hk : Keeps msk s₀ s)
    (hm : Sub 0x2000 msk := by first | assumption | (apply Sub.of; assumption; rfl)) :
    Keeps msk s₀ (activateSlot slot s) := by
  unfold activateSlot
  repeat' first
    | (with_reducible assumption) | ((with_reducible refine Sub.of hm ?_); exact rfl)
    | (with_reducible refine Keeps.ite ?_ ?_) | (with_reducible apply keeps_State_modMram)
    | (fail_if_no_progress ((with_reducible refine Keeps.upd ?_ ?_ ?_ ?_ ?_ ?_ ?_ ?_ ?_ ?_ ?_ ?_ ?_ ?_ ?_ ?_ ?_ ?_ ?_ ?_ ?_ ?_ ?_ ?_ ?_ ?_ ?_ ?_ ?_ ?_ ?_) <;> first | exact Or.inl (Sub.of hm rfl) | with_reducible exact Or.inr rfl | skip))
    | (fail_if_no_progress ((with_reducible refine Keeps.updMram ?_ (by rfl) (by first | exact id | (intro h; dsimp only; simp [h])) ?_ ?_ ?_ ?_ ?_ ?_ ?_ ?_ ?_ ?_ ?_ ?_ ?_ ?_ ?_ ?_ ?_ ?_ ?_ ?_ ?_ ?_ ?_ ?_ ?_ ?_ ?_ ?_ ?_ ?_ ?_) <;> first | exact Or.inl (Sub.of hm rfl) | with_reducible exact Or.inr rfl | skip))
    | rfl | (exact id) | ((intro h; dsimp only; simp [h]; done)) | (fail_if_no_progress extract_lets) | split
    | (refine Keeps.snd (by assumption) ?_) | (refine Keeps.fst (by assumption) ?_)
    | (refine Keeps.snd2 (by assumption) ?_) | (dsimp only) | (dsimp +zetaDelta only)

theorem keeps_activateCopy {msk : Nat} {s₀ s : State} (copy : Fin 2) (hk : Keeps msk s₀ s)
    (hm : Sub 0x2000 msk := by first | assumption | (apply Sub.of; assumption; rfl)) :
    Keeps msk s₀ (activateCopy copy s) := by
  unfold activateCopy
  repeat' first
    | (with_reducible assumption) | ((with_reducible refine Sub.of hm ?_); exact rfl)
    | (with_reducible refine Keeps.ite ?_ ?_) | (with_reducible apply keeps_State_modMram)
    | (fail_if_no_progress ((with_reducible refine Keeps.upd ?_ ?_ ?_ ?_ ?_ ?_ ?_ ?_ ?_ ?_ ?_ ?_ ?_ ?_ ?_ ?_ ?_ ?_ ?_ ?_ ?_ ?_ ?_ ?_ ?_ ?_ ?_ ?_ ?_ ?_ ?_) <;> first | exact Or.inl (Sub.of hm rfl) | with_reducible exact Or.inr rfl | skip))
    | (fail_if_no_progress ((with_reducible refine Keeps.updMram ?_ (by rfl) (by first | exact id | (intro h; dsimp only; simp [h])) ?_ ?_ ?_ ?_ ?_ ?_ ?_ ?_ ?_ ?_ ?_ ?_ ?_ ?_ ?_ ?_ ?_ ?_ ?_ ?_ ?_ ?_ ?_ ?_ ?_ ?_ ?_ ?_ ?_ ?_ ?_) <;> first | exact Or.inl (Sub.of hm rfl) | with_reducible exact Or.inr rfl | skip))
    | rfl | (exact id) | ((intro h; dsimp only; simp [h]; done)) | (fail_if_no_progress extract_lets) | split
    | (refine Keeps.snd (by assumption) ?_) | (refine Keeps.fst (by assumption) ?_)
    | (refine Keeps.snd2 (by assumption) ?_) | (dsimp only) | (dsimp +zetaDelta only)

theorem keeps_fwActivateBody {msk : Nat} {s₀ s : State} (h : Hamper) (hk : Keeps msk s₀ s)
    (hm : Sub 0x3000 msk := by first | assumption | (apply Sub.of; assumption; rfl)) :
    KeepsV msk s₀ (fwActivateBody s h) := by
  unfold fwActivateBody
  repeat' first
    | (with_reducible exact KeepsV.refuse) | (with_reducible exact KeepsV.badArg)
    | (with_reducible exact KeepsV.notOwner) | (with_reducible exact KeepsV.wrongState)
    | (with_reducible exact KeepsV.noResource) | (with_reducible refine KeepsV.ok ?_)
    | (with_reducible refine KeepsV.accepted ?_) | (with_reducible refine KeepsV.later ?_)
    | (with_reducible refine KeepsV.ite ?_ ?_) | (with_reducible assumption)
    | ((with_reducible refine Sub.of hm ?_); exact rfl) | (with_reducible refine Keeps.ite ?_ ?_)
    | (with_reducible apply keeps_badArg) | (with_reducible apply keeps_wrongState)
    | (with_reducible apply keeps_activateSlot) | (with_reducible apply keeps_State_modStart)
    | (fail_if_no_progress ((with_reducible refine Keeps.upd ?_ ?_ ?_ ?_ ?_ ?_ ?_ ?_ ?_ ?_ ?_ ?_ ?_ ?_ ?_ ?_ ?_ ?_ ?_ ?_ ?_ ?_ ?_ ?_ ?_ ?_ ?_ ?_ ?_ ?_ ?_) <;> first | exact Or.inl (Sub.of hm rfl) | with_reducible exact Or.inr rfl | skip))
    | (fail_if_no_progress extract_lets) | split | (refine Keeps.snd (by assumption) ?_)
    | (refine Keeps.fst (by assumption) ?_) | (refine Keeps.snd2 (by assumption) ?_) | (dsimp only)
    | (dsimp +zetaDelta only)

theorem keeps_execFwActivate {msk : Nat} {s₀ s : State} (dt : Nat) (r : Req) (hk : Keeps msk s₀ (advance dt s))
    (hm : Sub 0x2000030C6 msk := by first | assumption | (apply Sub.of; assumption; rfl)) :
    KeepsA msk s₀ (execFwActivate dt r s) := by
  unfold execFwActivate
  repeat' first
    | (with_reducible refine KeepsA.next ?_) | (with_reducible assumption)
    | ((with_reducible refine Sub.of hm ?_); exact rfl) | (with_reducible refine Keeps.ite ?_ ?_)
    | (with_reducible apply keeps_serve) | (with_reducible apply keeps_fwActivateBody)
    | (fail_if_no_progress ((with_reducible refine Keeps.upd ?_ ?_ ?_ ?_ ?_ ?_ ?_ ?_ ?_ ?_ ?_ ?_ ?_ ?_ ?_ ?_ ?_ ?_ ?_ ?_ ?_ ?_ ?_ ?_ ?_ ?_ ?_ ?_ ?_ ?_ ?_) <;> first | exact Or.inl (Sub.of hm rfl) | with_reducible exact Or.inr rfl | skip))
    | (intro _ _ _) | (intro _ _) | (fail_if_no_progress extract_lets) | split | (refine Keeps.snd (by assumption) ?_)
    | (refine Keeps.fst (by assumption) ?_) | (refine Keeps.snd2 (by assumption) ?_) | (dsimp only)
    | (dsimp +zetaDelta only)

theorem keeps_outingWriteBody {msk : Nat} {s₀ s : State} (h : Hamper) (hk : Keeps msk s₀ s)
    (hm : Sub 0x20 msk := by first | assumption | (apply Sub.of; assumption; rfl)) :
    KeepsV msk s₀ (outingWriteBody s h) := by
  unfold outingWriteBody
  repeat' first
    | (with_reducible exact KeepsV.refuse) | (with_reducible exact KeepsV.badArg)
    | (with_reducible exact KeepsV.notOwner) | (with_reducible exact KeepsV.wrongState)
    | (with_reducible exact KeepsV.noResource) | (with_reducible refine KeepsV.ok ?_)
    | (with_reducible refine KeepsV.accepted ?_) | (with_reducible refine KeepsV.later ?_)
    | (with_reducible refine KeepsV.ite ?_ ?_) | (with_reducible assumption)
    | ((with_reducible refine Sub.of hm ?_); exact rfl) | (with_reducible refine Keeps.ite ?_ ?_)
    | (with_reducible apply keeps_badArg) | (with_reducible apply keeps_wrongState)
    | (with_reducible apply keeps_accept)
    | (fail_if_no_progress ((with_reducible refine Keeps.upd ?_ ?_ ?_ ?_ ?_ ?_ ?_ ?_ ?_ ?_ ?_ ?_ ?_ ?_ ?_ ?_ ?_ ?_ ?_ ?_ ?_ ?_ ?_ ?_ ?_ ?_ ?_ ?_ ?_ ?_ ?_) <;> first | exact Or.inl (Sub.of hm rfl) | with_reducible exact Or.inr rfl | skip))
    | (fail_if_no_progress extract_lets) | split | (refine Keeps.snd (by assumption) ?_)
    | (refine Keeps.fst (by assumption) ?_) | (refine Keeps.snd2 (by assumption) ?_) | (dsimp only)
    | (dsimp +zetaDelta only)

theorem keeps_execOutingWrite {msk : Nat} {s₀ s : State} (dt : Nat) (r : Req) (hk : Keeps msk s₀ (advance dt s))
    (hm : Sub 0x2000000E6 msk := by first | assumption | (apply Sub.of; assumption; rfl)) :
    KeepsA msk s₀ (execOutingWrite dt r s) := by
  unfold execOutingWrite
  repeat' first
    | (with_reducible refine KeepsA.next ?_) | (with_reducible assumption)
    | ((with_reducible refine Sub.of hm ?_); exact rfl) | (with_reducible refine Keeps.ite ?_ ?_)
    | (with_reducible apply keeps_serve) | (with_reducible apply keeps_outingWriteBody)
    | (fail_if_no_progress ((with_reducible refine Keeps.upd ?_ ?_ ?_ ?_ ?_ ?_ ?_ ?_ ?_ ?_ ?_ ?_ ?_ ?_ ?_ ?_ ?_ ?_ ?_ ?_ ?_ ?_ ?_ ?_ ?_ ?_ ?_ ?_ ?_ ?_ ?_) <;> first | exact Or.inl (Sub.of hm rfl) | with_reducible exact Or.inr rfl | skip))
    | (intro _ _ _) | (intro _ _) | (fail_if_no_progress extract_lets) | split | (refine Keeps.snd (by assumption) ?_)
    | (refine Keeps.fst (by assumption) ?_) | (refine Keeps.snd2 (by assumption) ?_) | (dsimp only)
    | (dsimp +zetaDelta only)

theorem keeps_outingWriteEnds {msk : Nat} {s₀ s : State} (rec : Fetched) (hk : Keeps msk s₀ s)
    (hm : Sub 0x6800020B2 msk := by first | assumption | (apply Sub.of; assumption; rfl)) :
    Keeps msk s₀ (outingWriteEnds rec s) := by
  unfold outingWriteEnds
  repeat' first
    | (with_reducible assumption) | ((with_reducible refine Sub.of hm ?_); exact rfl)
    | (with_reducible refine Keeps.ite ?_ ?_) | (with_reducible apply keeps_hamperDoneFree)
    | (with_reducible apply keeps_State_modMram) | (with_reducible apply keeps_hamperDone)
    | (with_reducible apply keeps_activateCopy) | (with_reducible apply keeps_post)
    | (fail_if_no_progress ((with_reducible refine Keeps.upd ?_ ?_ ?_ ?_ ?_ ?_ ?_ ?_ ?_ ?_ ?_ ?_ ?_ ?_ ?_ ?_ ?_ ?_ ?_ ?_ ?_ ?_ ?_ ?_ ?_ ?_ ?_ ?_ ?_ ?_ ?_) <;> first | exact Or.inl (Sub.of hm rfl) | with_reducible exact Or.inr rfl | skip))
    | (fail_if_no_progress ((with_reducible refine Keeps.updMram ?_ (by rfl) (by first | exact id | (intro h; dsimp only; simp [h])) ?_ ?_ ?_ ?_ ?_ ?_ ?_ ?_ ?_ ?_ ?_ ?_ ?_ ?_ ?_ ?_ ?_ ?_ ?_ ?_ ?_ ?_ ?_ ?_ ?_ ?_ ?_ ?_ ?_ ?_ ?_) <;> first | exact Or.inl (Sub.of hm rfl) | with_reducible exact Or.inr rfl | skip))
    | rfl | (exact id) | ((intro h; dsimp only; simp [h]; done)) | (fail_if_no_progress extract_lets) | split
    | (refine Keeps.snd (by assumption) ?_) | (refine Keeps.fst (by assumption) ?_)
    | (refine Keeps.snd2 (by assumption) ?_) | (dsimp only) | (dsimp +zetaDelta only)

theorem keeps_execOutingWriteDone {msk : Nat} {s₀ s : State} (dt : Nat) (rec : Fetched) (hk : Keeps msk s₀ (advance dt s))
    (hm : Sub 0x6800020B2 msk := by first | assumption | (apply Sub.of; assumption; rfl)) :
    KeepsA msk s₀ (execOutingWriteDone dt rec s) := by
  unfold execOutingWriteDone
  repeat' first
    | (with_reducible refine KeepsA.next ?_) | (with_reducible assumption)
    | ((with_reducible refine Sub.of hm ?_); exact rfl) | (with_reducible refine Keeps.ite ?_ ?_)
    | (with_reducible apply keeps_outingWriteEnds)
    | (fail_if_no_progress ((with_reducible refine Keeps.upd ?_ ?_ ?_ ?_ ?_ ?_ ?_ ?_ ?_ ?_ ?_ ?_ ?_ ?_ ?_ ?_ ?_ ?_ ?_ ?_ ?_ ?_ ?_ ?_ ?_ ?_ ?_ ?_ ?_ ?_ ?_) <;> first | exact Or.inl (Sub.of hm rfl) | with_reducible exact Or.inr rfl | skip))
    | (fail_if_no_progress extract_lets) | split | (refine Keeps.snd (by assumption) ?_)
    | (refine Keeps.fst (by assumption) ?_) | (refine Keeps.snd2 (by assumption) ?_) | (dsimp only)
    | (dsimp +zetaDelta only)

theorem keeps_journalReadBody {msk : Nat} {s₀ s : State} (h : Hamper) (hk : Keeps msk s₀ s)
    (hm : Sub 0x280000000 msk := by first | assumption | (apply Sub.of; assumption; rfl)) :
    KeepsV msk s₀ (journalReadBody s h) := by
  unfold journalReadBody
  repeat' first
    | (with_reducible exact KeepsV.refuse) | (with_reducible exact KeepsV.badArg)
    | (with_reducible exact KeepsV.notOwner) | (with_reducible exact KeepsV.wrongState)
    | (with_reducible exact KeepsV.noResource) | (with_reducible refine KeepsV.ok ?_)
    | (with_reducible refine KeepsV.accepted ?_) | (with_reducible refine KeepsV.later ?_)
    | (with_reducible refine KeepsV.ite ?_ ?_) | (with_reducible assumption)
    | ((with_reducible refine Sub.of hm ?_); exact rfl) | (with_reducible refine Keeps.ite ?_ ?_)
    | (with_reducible apply keeps_badArg) | (with_reducible apply keeps_bufferWrite)
    | (fail_if_no_progress ((with_reducible refine Keeps.upd ?_ ?_ ?_ ?_ ?_ ?_ ?_ ?_ ?_ ?_ ?_ ?_ ?_ ?_ ?_ ?_ ?_ ?_ ?_ ?_ ?_ ?_ ?_ ?_ ?_ ?_ ?_ ?_ ?_ ?_ ?_) <;> first | exact Or.inl (Sub.of hm rfl) | with_reducible exact Or.inr rfl | skip))
    | (fail_if_no_progress extract_lets) | split | (refine Keeps.snd (by assumption) ?_)
    | (refine Keeps.fst (by assumption) ?_) | (refine Keeps.snd2 (by assumption) ?_) | (dsimp only)
    | (dsimp +zetaDelta only)

theorem keeps_execJournalRead {msk : Nat} {s₀ s : State} (dt : Nat) (r : Req) (hk : Keeps msk s₀ (advance dt s))
    (hm : Sub 0x2800000C6 msk := by first | assumption | (apply Sub.of; assumption; rfl)) :
    KeepsA msk s₀ (execJournalRead dt r s) := by
  unfold execJournalRead
  repeat' first
    | (with_reducible refine KeepsA.next ?_) | (with_reducible assumption)
    | ((with_reducible refine Sub.of hm ?_); exact rfl) | (with_reducible refine Keeps.ite ?_ ?_)
    | (with_reducible apply keeps_serve) | (with_reducible apply keeps_journalReadBody)
    | (fail_if_no_progress ((with_reducible refine Keeps.upd ?_ ?_ ?_ ?_ ?_ ?_ ?_ ?_ ?_ ?_ ?_ ?_ ?_ ?_ ?_ ?_ ?_ ?_ ?_ ?_ ?_ ?_ ?_ ?_ ?_ ?_ ?_ ?_ ?_ ?_ ?_) <;> first | exact Or.inl (Sub.of hm rfl) | with_reducible exact Or.inr rfl | skip))
    | (intro _ _ _) | (intro _ _) | (fail_if_no_progress extract_lets) | split | (refine Keeps.snd (by assumption) ?_)
    | (refine Keeps.fst (by assumption) ?_) | (refine Keeps.snd2 (by assumption) ?_) | (dsimp only)
    | (dsimp +zetaDelta only)

theorem keeps_journalClearBody {msk : Nat} {s₀ s : State} (h : Hamper) (hk : Keeps msk s₀ s)
    (hm : Sub 0x2000 msk := by first | assumption | (apply Sub.of; assumption; rfl)) :
    KeepsV msk s₀ (journalClearBody s h) := by
  unfold journalClearBody
  repeat' first
    | (with_reducible exact KeepsV.refuse) | (with_reducible exact KeepsV.badArg)
    | (with_reducible exact KeepsV.notOwner) | (with_reducible exact KeepsV.wrongState)
    | (with_reducible exact KeepsV.noResource) | (with_reducible refine KeepsV.ok ?_)
    | (with_reducible refine KeepsV.accepted ?_) | (with_reducible refine KeepsV.later ?_)
    | (with_reducible refine KeepsV.ite ?_ ?_) | (with_reducible assumption)
    | ((with_reducible refine Sub.of hm ?_); exact rfl) | (with_reducible refine Keeps.ite ?_ ?_)
    | (with_reducible apply keeps_badArg) | (with_reducible apply keeps_jot)
    | (fail_if_no_progress ((with_reducible refine Keeps.upd ?_ ?_ ?_ ?_ ?_ ?_ ?_ ?_ ?_ ?_ ?_ ?_ ?_ ?_ ?_ ?_ ?_ ?_ ?_ ?_ ?_ ?_ ?_ ?_ ?_ ?_ ?_ ?_ ?_ ?_ ?_) <;> first | exact Or.inl (Sub.of hm rfl) | with_reducible exact Or.inr rfl | skip))
    | (fail_if_no_progress extract_lets) | split | (refine Keeps.snd (by assumption) ?_)
    | (refine Keeps.fst (by assumption) ?_) | (refine Keeps.snd2 (by assumption) ?_) | (dsimp only)
    | (dsimp +zetaDelta only)

theorem keeps_execJournalClear {msk : Nat} {s₀ s : State} (dt : Nat) (r : Req) (hk : Keeps msk s₀ (advance dt s))
    (hm : Sub 0x2000020C6 msk := by first | assumption | (apply Sub.of; assumption; rfl)) :
    KeepsA msk s₀ (execJournalClear dt r s) := by
  unfold execJournalClear
  repeat' first
    | (with_reducible refine KeepsA.next ?_) | (with_reducible assumption)
    | ((with_reducible refine Sub.of hm ?_); exact rfl) | (with_reducible refine Keeps.ite ?_ ?_)
    | (with_reducible apply keeps_serve) | (with_reducible apply keeps_journalClearBody)
    | (fail_if_no_progress ((with_reducible refine Keeps.upd ?_ ?_ ?_ ?_ ?_ ?_ ?_ ?_ ?_ ?_ ?_ ?_ ?_ ?_ ?_ ?_ ?_ ?_ ?_ ?_ ?_ ?_ ?_ ?_ ?_ ?_ ?_ ?_ ?_ ?_ ?_) <;> first | exact Or.inl (Sub.of hm rfl) | with_reducible exact Or.inr rfl | skip))
    | (intro _ _ _) | (intro _ _) | (fail_if_no_progress extract_lets) | split | (refine Keeps.snd (by assumption) ?_)
    | (refine Keeps.fst (by assumption) ?_) | (refine Keeps.snd2 (by assumption) ?_) | (dsimp only)
    | (dsimp +zetaDelta only)

theorem keeps_slotSelectBody {msk : Nat} {s₀ s : State} (h : Hamper) (hk : Keeps msk s₀ s)
    (hm : Sub 0x2000 msk := by first | assumption | (apply Sub.of; assumption; rfl)) :
    KeepsV msk s₀ (slotSelectBody s h) := by
  unfold slotSelectBody
  repeat' first
    | (with_reducible exact KeepsV.refuse) | (with_reducible exact KeepsV.badArg)
    | (with_reducible exact KeepsV.notOwner) | (with_reducible exact KeepsV.wrongState)
    | (with_reducible exact KeepsV.noResource) | (with_reducible refine KeepsV.ok ?_)
    | (with_reducible refine KeepsV.accepted ?_) | (with_reducible refine KeepsV.later ?_)
    | (with_reducible refine KeepsV.ite ?_ ?_) | (with_reducible assumption)
    | ((with_reducible refine Sub.of hm ?_); exact rfl) | (with_reducible refine Keeps.ite ?_ ?_)
    | (with_reducible apply keeps_wrongState) | (with_reducible apply keeps_badArg)
    | (with_reducible apply keeps_activateSlot) | (with_reducible apply keeps_activateCopy)
    | (fail_if_no_progress ((with_reducible refine Keeps.upd ?_ ?_ ?_ ?_ ?_ ?_ ?_ ?_ ?_ ?_ ?_ ?_ ?_ ?_ ?_ ?_ ?_ ?_ ?_ ?_ ?_ ?_ ?_ ?_ ?_ ?_ ?_ ?_ ?_ ?_ ?_) <;> first | exact Or.inl (Sub.of hm rfl) | with_reducible exact Or.inr rfl | skip))
    | (fail_if_no_progress extract_lets) | split | (refine Keeps.snd (by assumption) ?_)
    | (refine Keeps.fst (by assumption) ?_) | (refine Keeps.snd2 (by assumption) ?_) | (dsimp only)
    | (dsimp +zetaDelta only)

theorem keeps_execSlotSelect {msk : Nat} {s₀ s : State} (dt : Nat) (r : Req) (hk : Keeps msk s₀ (advance dt s))
    (hm : Sub 0x2000020C6 msk := by first | assumption | (apply Sub.of; assumption; rfl)) :
    KeepsA msk s₀ (execSlotSelect dt r s) := by
  unfold execSlotSelect
  repeat' first
    | (with_reducible refine KeepsA.next ?_) | (with_reducible assumption)
    | ((with_reducible refine Sub.of hm ?_); exact rfl) | (with_reducible refine Keeps.ite ?_ ?_)
    | (with_reducible apply keeps_serve) | (with_reducible apply keeps_slotSelectBody)
    | (fail_if_no_progress ((with_reducible refine Keeps.upd ?_ ?_ ?_ ?_ ?_ ?_ ?_ ?_ ?_ ?_ ?_ ?_ ?_ ?_ ?_ ?_ ?_ ?_ ?_ ?_ ?_ ?_ ?_ ?_ ?_ ?_ ?_ ?_ ?_ ?_ ?_) <;> first | exact Or.inl (Sub.of hm rfl) | with_reducible exact Or.inr rfl | skip))
    | (intro _ _ _) | (intro _ _) | (fail_if_no_progress extract_lets) | split | (refine Keeps.snd (by assumption) ?_)
    | (refine Keeps.fst (by assumption) ?_) | (refine Keeps.snd2 (by assumption) ?_) | (dsimp only)
    | (dsimp +zetaDelta only)

theorem keeps_quietPoint {msk : Nat} {s₀ s : State} (hk : Keeps msk s₀ s)
    (hm : Sub 0x5080 msk := by first | assumption | (apply Sub.of; assumption; rfl)) :
    Keeps msk s₀ (quietPoint s) := by
  unfold quietPoint
  repeat' first
    | (with_reducible assumption) | ((with_reducible refine Sub.of hm ?_); exact rfl)
    | (with_reducible refine Keeps.ite ?_ ?_) | (with_reducible apply keeps_State_modStart)
    | (with_reducible apply keeps_extend)
    | (fail_if_no_progress ((with_reducible refine Keeps.upd ?_ ?_ ?_ ?_ ?_ ?_ ?_ ?_ ?_ ?_ ?_ ?_ ?_ ?_ ?_ ?_ ?_ ?_ ?_ ?_ ?_ ?_ ?_ ?_ ?_ ?_ ?_ ?_ ?_ ?_ ?_) <;> first | exact Or.inl (Sub.of hm rfl) | with_reducible exact Or.inr rfl | skip))
    | (fail_if_no_progress extract_lets) | split | (refine Keeps.snd (by assumption) ?_)
    | (refine Keeps.fst (by assumption) ?_) | (refine Keeps.snd2 (by assumption) ?_) | (dsimp only)
    | (dsimp +zetaDelta only)

theorem keeps_execLiveQuietPoint {msk : Nat} {s₀ s : State} (dt : Nat) (hk : Keeps msk s₀ (advance dt s))
    (hm : Sub 0x5080 msk := by first | assumption | (apply Sub.of; assumption; rfl)) :
    KeepsA msk s₀ (execLiveQuietPoint dt s) := by
  unfold execLiveQuietPoint
  repeat' first
    | (with_reducible refine KeepsA.next ?_) | (with_reducible assumption)
    | ((with_reducible refine Sub.of hm ?_); exact rfl) | (with_reducible refine Keeps.ite ?_ ?_)
    | (with_reducible apply keeps_quietPoint)
    | (fail_if_no_progress ((with_reducible refine Keeps.upd ?_ ?_ ?_ ?_ ?_ ?_ ?_ ?_ ?_ ?_ ?_ ?_ ?_ ?_ ?_ ?_ ?_ ?_ ?_ ?_ ?_ ?_ ?_ ?_ ?_ ?_ ?_ ?_ ?_ ?_ ?_) <;> first | exact Or.inl (Sub.of hm rfl) | with_reducible exact Or.inr rfl | skip))
    | (fail_if_no_progress extract_lets) | split | (refine Keeps.snd (by assumption) ?_)
    | (refine Keeps.fst (by assumption) ?_) | (refine Keeps.snd2 (by assumption) ?_) | (dsimp only)
    | (dsimp +zetaDelta only)

theorem keeps_armTimeout {msk : Nat} {s₀ s : State} (hk : Keeps msk s₀ s)
    (hm : Sub 0x280001092 msk := by first | assumption | (apply Sub.of; assumption; rfl)) :
    Keeps msk s₀ (armTimeout s) := by
  unfold armTimeout
  repeat' first
    | (with_reducible assumption) | ((with_reducible refine Sub.of hm ?_); exact rfl)
    | (with_reducible refine Keeps.ite ?_ ?_) | (with_reducible apply keeps_noticeAll)
    | (with_reducible apply keeps_State_modStart)
    | (fail_if_no_progress ((with_reducible refine Keeps.upd ?_ ?_ ?_ ?_ ?_ ?_ ?_ ?_ ?_ ?_ ?_ ?_ ?_ ?_ ?_ ?_ ?_ ?_ ?_ ?_ ?_ ?_ ?_ ?_ ?_ ?_ ?_ ?_ ?_ ?_ ?_) <;> first | exact Or.inl (Sub.of hm rfl) | with_reducible exact Or.inr rfl | skip))
    | (fail_if_no_progress extract_lets) | split | (refine Keeps.snd (by assumption) ?_)
    | (refine Keeps.fst (by assumption) ?_) | (refine Keeps.snd2 (by assumption) ?_) | (dsimp only)
    | (dsimp +zetaDelta only)

theorem keeps_execLiveArmTimeout {msk : Nat} {s₀ s : State} (dt : Nat) (hk : Keeps msk s₀ (advance dt s))
    (hm : Sub 0x280001092 msk := by first | assumption | (apply Sub.of; assumption; rfl)) :
    KeepsA msk s₀ (execLiveArmTimeout dt s) := by
  unfold execLiveArmTimeout
  repeat' first
    | (with_reducible refine KeepsA.next ?_) | (with_reducible assumption)
    | ((with_reducible refine Sub.of hm ?_); exact rfl) | (with_reducible refine Keeps.ite ?_ ?_)
    | (with_reducible apply keeps_armTimeout)
    | (fail_if_no_progress ((with_reducible refine Keeps.upd ?_ ?_ ?_ ?_ ?_ ?_ ?_ ?_ ?_ ?_ ?_ ?_ ?_ ?_ ?_ ?_ ?_ ?_ ?_ ?_ ?_ ?_ ?_ ?_ ?_ ?_ ?_ ?_ ?_ ?_ ?_) <;> first | exact Or.inl (Sub.of hm rfl) | with_reducible exact Or.inr rfl | skip))
    | (fail_if_no_progress extract_lets) | split | (refine Keeps.snd (by assumption) ?_)
    | (refine Keeps.fst (by assumption) ?_) | (refine Keeps.snd2 (by assumption) ?_) | (dsimp only)
    | (dsimp +zetaDelta only)

theorem keeps_switchOpens {msk : Nat} {s₀ s : State} (hk : Keeps msk s₀ s)
    (hm : Sub 0x280003092 msk := by first | assumption | (apply Sub.of; assumption; rfl)) :
    Keeps msk s₀ (switchOpens s) := by
  unfold switchOpens
  repeat' first
    | (with_reducible assumption) | ((with_reducible refine Sub.of hm ?_); exact rfl)
    | (with_reducible refine Keeps.ite ?_ ?_) | (with_reducible apply keeps_State_modStart)
    | (with_reducible apply keeps_noticeAll) | (with_reducible apply keeps_jot)
    | (with_reducible apply keeps_activateSlot)
    | (fail_if_no_progress ((with_reducible refine Keeps.upd ?_ ?_ ?_ ?_ ?_ ?_ ?_ ?_ ?_ ?_ ?_ ?_ ?_ ?_ ?_ ?_ ?_ ?_ ?_ ?_ ?_ ?_ ?_ ?_ ?_ ?_ ?_ ?_ ?_ ?_ ?_) <;> first | exact Or.inl (Sub.of hm rfl) | with_reducible exact Or.inr rfl | skip))
    | (fail_if_no_progress extract_lets) | split | (refine Keeps.snd (by assumption) ?_)
    | (refine Keeps.fst (by assumption) ?_) | (refine Keeps.snd2 (by assumption) ?_) | (dsimp only)
    | (dsimp +zetaDelta only)

theorem keeps_execLiveSwitchOpen {msk : Nat} {s₀ s : State} (dt : Nat) (hk : Keeps msk s₀ (advance dt s))
    (hm : Sub 0x280003092 msk := by first | assumption | (apply Sub.of; assumption; rfl)) :
    KeepsA msk s₀ (execLiveSwitchOpen dt s) := by
  unfold execLiveSwitchOpen
  repeat' first
    | (with_reducible refine KeepsA.next ?_) | (with_reducible assumption)
    | ((with_reducible refine Sub.of hm ?_); exact rfl) | (with_reducible refine Keeps.ite ?_ ?_)
    | (with_reducible apply keeps_switchOpens)
    | (fail_if_no_progress ((with_reducible refine Keeps.upd ?_ ?_ ?_ ?_ ?_ ?_ ?_ ?_ ?_ ?_ ?_ ?_ ?_ ?_ ?_ ?_ ?_ ?_ ?_ ?_ ?_ ?_ ?_ ?_ ?_ ?_ ?_ ?_ ?_ ?_ ?_) <;> first | exact Or.inl (Sub.of hm rfl) | with_reducible exact Or.inr rfl | skip))
    | (fail_if_no_progress extract_lets) | split | (refine Keeps.snd (by assumption) ?_)
    | (refine Keeps.fst (by assumption) ?_) | (refine Keeps.snd2 (by assumption) ?_) | (dsimp only)
    | (dsimp +zetaDelta only)

theorem keeps_switchReverts {msk : Nat} {s₀ s : State} (hk : Keeps msk s₀ s)
    (hm : Sub 0x280007092 msk := by first | assumption | (apply Sub.of; assumption; rfl)) :
    Keeps msk s₀ (switchReverts s) := by
  unfold switchReverts
  repeat' first
    | (with_reducible assumption) | ((with_reducible refine Sub.of hm ?_); exact rfl)
    | (with_reducible refine Keeps.ite ?_ ?_) | (with_reducible apply keeps_extend)
    | (with_reducible apply keeps_State_modStart) | (with_reducible apply keeps_post)
    | (with_reducible apply keeps_noticeAll) | (with_reducible apply keeps_jot)
    | (fail_if_no_progress ((with_reducible refine Keeps.upd ?_ ?_ ?_ ?_ ?_ ?_ ?_ ?_ ?_ ?_ ?_ ?_ ?_ ?_ ?_ ?_ ?_ ?_ ?_ ?_ ?_ ?_ ?_ ?_ ?_ ?_ ?_ ?_ ?_ ?_ ?_) <;> first | exact Or.inl (Sub.of hm rfl) | with_reducible exact Or.inr rfl | skip))
    | (fail_if_no_progress extract_lets) | split | (refine Keeps.snd (by assumption) ?_)
    | (refine Keeps.fst (by assumption) ?_) | (refine Keeps.snd2 (by assumption) ?_) | (dsimp only)
    | (dsimp +zetaDelta only)

theorem keeps_execLiveSwitchRevert {msk : Nat} {s₀ s : State} (dt : Nat) (hk : Keeps msk s₀ (advance dt s))
    (hm : Sub 0x280007092 msk := by first | assumption | (apply Sub.of; assumption; rfl)) :
    KeepsA msk s₀ (execLiveSwitchRevert dt s) := by
  unfold execLiveSwitchRevert
  repeat' first
    | (with_reducible refine KeepsA.next ?_) | (with_reducible assumption)
    | ((with_reducible refine Sub.of hm ?_); exact rfl) | (with_reducible refine Keeps.ite ?_ ?_)
    | (with_reducible apply keeps_switchReverts)
    | (fail_if_no_progress ((with_reducible refine Keeps.upd ?_ ?_ ?_ ?_ ?_ ?_ ?_ ?_ ?_ ?_ ?_ ?_ ?_ ?_ ?_ ?_ ?_ ?_ ?_ ?_ ?_ ?_ ?_ ?_ ?_ ?_ ?_ ?_ ?_ ?_ ?_) <;> first | exact Or.inl (Sub.of hm rfl) | with_reducible exact Or.inr rfl | skip))
    | (fail_if_no_progress extract_lets) | split | (refine Keeps.snd (by assumption) ?_)
    | (refine Keeps.fst (by assumption) ?_) | (refine Keeps.snd2 (by assumption) ?_) | (dsimp only)
    | (dsimp +zetaDelta only)

theorem keeps_debugPort {msk : Nat} {s₀ s : State} (isOpen : Bool) (hk : Keeps msk s₀ s)
    (hm : Sub 0x4080 msk := by first | assumption | (apply Sub.of; assumption; rfl)) :
    Keeps msk s₀ (debugPort isOpen s) := by
  unfold debugPort
  repeat' first
    | (with_reducible assumption) | ((with_reducible refine Sub.of hm ?_); exact rfl)
    | (with_reducible refine Keeps.ite ?_ ?_) | (with_reducible apply keeps_extendDebug)
    | (fail_if_no_progress ((with_reducible refine Keeps.upd ?_ ?_ ?_ ?_ ?_ ?_ ?_ ?_ ?_ ?_ ?_ ?_ ?_ ?_ ?_ ?_ ?_ ?_ ?_ ?_ ?_ ?_ ?_ ?_ ?_ ?_ ?_ ?_ ?_ ?_ ?_) <;> first | exact Or.inl (Sub.of hm rfl) | with_reducible exact Or.inr rfl | skip))
    | (fail_if_no_progress extract_lets) | split | (refine Keeps.snd (by assumption) ?_)
    | (refine Keeps.fst (by assumption) ?_) | (refine Keeps.snd2 (by assumption) ?_) | (dsimp only)
    | (dsimp +zetaDelta only)

theorem keeps_haltCore {msk : Nat} {s₀ s : State} (hk : Keeps msk s₀ s)
    (hm : Sub 0x800 msk := by first | assumption | (apply Sub.of; assumption; rfl)) :
    Keeps msk s₀ (haltCore s) := by
  unfold haltCore
  repeat' first
    | (with_reducible assumption) | ((with_reducible refine Sub.of hm ?_); exact rfl)
    | (with_reducible refine Keeps.ite ?_ ?_) | (with_reducible apply keeps_State_modPower)
    | (fail_if_no_progress ((with_reducible refine Keeps.upd ?_ ?_ ?_ ?_ ?_ ?_ ?_ ?_ ?_ ?_ ?_ ?_ ?_ ?_ ?_ ?_ ?_ ?_ ?_ ?_ ?_ ?_ ?_ ?_ ?_ ?_ ?_ ?_ ?_ ?_ ?_) <;> first | exact Or.inl (Sub.of hm rfl) | with_reducible exact Or.inr rfl | skip))
    | (fail_if_no_progress extract_lets) | split | (refine Keeps.snd (by assumption) ?_)
    | (refine Keeps.fst (by assumption) ?_) | (refine Keeps.snd2 (by assumption) ?_) | (dsimp only)
    | (dsimp +zetaDelta only)

theorem keeps_freeCore {msk : Nat} {s₀ s : State} (hk : Keeps msk s₀ s)
    (hm : Sub 0x800 msk := by first | assumption | (apply Sub.of; assumption; rfl)) :
    Keeps msk s₀ (freeCore s) := by
  unfold freeCore
  repeat' first
    | (with_reducible assumption) | ((with_reducible refine Sub.of hm ?_); exact rfl)
    | (with_reducible refine Keeps.ite ?_ ?_) | (with_reducible apply keeps_State_modPower)
    | (fail_if_no_progress ((with_reducible refine Keeps.upd ?_ ?_ ?_ ?_ ?_ ?_ ?_ ?_ ?_ ?_ ?_ ?_ ?_ ?_ ?_ ?_ ?_ ?_ ?_ ?_ ?_ ?_ ?_ ?_ ?_ ?_ ?_ ?_ ?_ ?_ ?_) <;> first | exact Or.inl (Sub.of hm rfl) | with_reducible exact Or.inr rfl | skip))
    | (fail_if_no_progress extract_lets) | split | (refine Keeps.snd (by assumption) ?_)
    | (refine Keeps.fst (by assumption) ?_) | (refine Keeps.snd2 (by assumption) ?_) | (dsimp only)
    | (dsimp +zetaDelta only)

theorem keeps_execDebugPortOpen {msk : Nat} {s₀ s : State} (dt : Nat) (halts : Bool) (hk : Keeps msk s₀ (advance dt s))
    (hm : Sub 0x4880 msk := by first | assumption | (apply Sub.of; assumption; rfl)) :
    KeepsA msk s₀ (execDebugPortOpen dt halts s) := by
  unfold execDebugPortOpen
  repeat' first
    | (with_reducible refine KeepsA.next ?_) | (with_reducible assumption)
    | ((with_reducible refine Sub.of hm ?_); exact rfl) | (with_reducible refine Keeps.ite ?_ ?_)
    | (with_reducible apply keeps_debugPort) | (with_reducible apply keeps_haltCore)
    | (fail_if_no_progress ((with_reducible refine Keeps.upd ?_ ?_ ?_ ?_ ?_ ?_ ?_ ?_ ?_ ?_ ?_ ?_ ?_ ?_ ?_ ?_ ?_ ?_ ?_ ?_ ?_ ?_ ?_ ?_ ?_ ?_ ?_ ?_ ?_ ?_ ?_) <;> first | exact Or.inl (Sub.of hm rfl) | with_reducible exact Or.inr rfl | skip))
    | (fail_if_no_progress extract_lets) | split | (refine Keeps.snd (by assumption) ?_)
    | (refine Keeps.fst (by assumption) ?_) | (refine Keeps.snd2 (by assumption) ?_) | (dsimp only)
    | (dsimp +zetaDelta only)

theorem keeps_execDebugPortClose {msk : Nat} {s₀ s : State} (dt : Nat) (hk : Keeps msk s₀ (advance dt s))
    (hm : Sub 0x4880 msk := by first | assumption | (apply Sub.of; assumption; rfl)) :
    KeepsA msk s₀ (execDebugPortClose dt s) := by
  unfold execDebugPortClose
  repeat' first
    | (with_reducible refine KeepsA.next ?_) | (with_reducible assumption)
    | ((with_reducible refine Sub.of hm ?_); exact rfl) | (with_reducible refine Keeps.ite ?_ ?_)
    | (with_reducible apply keeps_freeCore) | (with_reducible apply keeps_debugPort)
    | (fail_if_no_progress ((with_reducible refine Keeps.upd ?_ ?_ ?_ ?_ ?_ ?_ ?_ ?_ ?_ ?_ ?_ ?_ ?_ ?_ ?_ ?_ ?_ ?_ ?_ ?_ ?_ ?_ ?_ ?_ ?_ ?_ ?_ ?_ ?_ ?_ ?_) <;> first | exact Or.inl (Sub.of hm rfl) | with_reducible exact Or.inr rfl | skip))
    | (fail_if_no_progress extract_lets) | split | (refine Keeps.snd (by assumption) ?_)
    | (refine Keeps.fst (by assumption) ?_) | (refine Keeps.snd2 (by assumption) ?_) | (dsimp only)
    | (dsimp +zetaDelta only)

theorem keeps_spdmAnswer {msk : Nat} {s₀ s : State} (msg : List Byte) (hk : Keeps msk s₀ s)
    (hm : Sub 0x600004080 msk := by first | assumption | (apply Sub.of; assumption; rfl)) :
    Keeps msk s₀ (spdmAnswer msg s) := by
  unfold spdmAnswer
  repeat' first
    | (with_reducible assumption) | ((with_reducible refine Sub.of hm ?_); exact rfl)
    | (with_reducible refine Keeps.ite ?_ ?_) | (with_reducible apply keeps_signBytes)
    | (with_reducible apply keeps_draw) | (with_reducible apply keeps_emit) | (with_reducible apply keeps_post)
    | (fail_if_no_progress ((with_reducible refine Keeps.upd ?_ ?_ ?_ ?_ ?_ ?_ ?_ ?_ ?_ ?_ ?_ ?_ ?_ ?_ ?_ ?_ ?_ ?_ ?_ ?_ ?_ ?_ ?_ ?_ ?_ ?_ ?_ ?_ ?_ ?_ ?_) <;> first | exact Or.inl (Sub.of hm rfl) | with_reducible exact Or.inr rfl | skip))
    | (fail_if_no_progress extract_lets) | split | (refine Keeps.snd (by assumption) ?_)
    | (refine Keeps.fst (by assumption) ?_) | (refine Keeps.snd2 (by assumption) ?_) | (dsimp only)
    | (dsimp +zetaDelta only)

theorem keeps_execSpdmRequest {msk : Nat} {s₀ s : State} (dt : Nat) (msg : List Byte) (hk : Keeps msk s₀ (advance dt s))
    (hm : Sub 0x600004080 msk := by first | assumption | (apply Sub.of; assumption; rfl)) :
    KeepsA msk s₀ (execSpdmRequest dt msg s) := by
  unfold execSpdmRequest
  repeat' first
    | (with_reducible refine KeepsA.next ?_) | (with_reducible assumption)
    | ((with_reducible refine Sub.of hm ?_); exact rfl) | (with_reducible refine Keeps.ite ?_ ?_)
    | (with_reducible apply keeps_spdmAnswer)
    | (fail_if_no_progress ((with_reducible refine Keeps.upd ?_ ?_ ?_ ?_ ?_ ?_ ?_ ?_ ?_ ?_ ?_ ?_ ?_ ?_ ?_ ?_ ?_ ?_ ?_ ?_ ?_ ?_ ?_ ?_ ?_ ?_ ?_ ?_ ?_ ?_ ?_) <;> first | exact Or.inl (Sub.of hm rfl) | with_reducible exact Or.inr rfl | skip))
    | (fail_if_no_progress extract_lets) | split | (refine Keeps.snd (by assumption) ?_)
    | (refine Keeps.fst (by assumption) ?_) | (refine Keeps.snd2 (by assumption) ?_) | (dsimp only)
    | (dsimp +zetaDelta only)

theorem keeps_compactReady {msk : Nat} {s₀ s : State} (hk : Keeps msk s₀ s)
    (hm : Sub 0x400004000 msk := by first | assumption | (apply Sub.of; assumption; rfl)) :
    Keeps msk s₀ (compactReady s) := by
  unfold compactReady
  repeat' first
    | (with_reducible assumption) | ((with_reducible refine Sub.of hm ?_); exact rfl)
    | (with_reducible refine Keeps.ite ?_ ?_) | (with_reducible apply keeps_signBytes)
    | (fail_if_no_progress ((with_reducible refine Keeps.upd ?_ ?_ ?_ ?_ ?_ ?_ ?_ ?_ ?_ ?_ ?_ ?_ ?_ ?_ ?_ ?_ ?_ ?_ ?_ ?_ ?_ ?_ ?_ ?_ ?_ ?_ ?_ ?_ ?_ ?_ ?_) <;> first | exact Or.inl (Sub.of hm rfl) | with_reducible exact Or.inr rfl | skip))
    | (fail_if_no_progress extract_lets) | split | (refine Keeps.snd (by assumption) ?_)
    | (refine Keeps.fst (by assumption) ?_) | (refine Keeps.snd2 (by assumption) ?_) | (dsimp only)
    | (dsimp +zetaDelta only)

theorem keeps_execCompactReportReady {msk : Nat} {s₀ s : State} (dt : Nat) (hk : Keeps msk s₀ (advance dt s))
    (hm : Sub 0x400004000 msk := by first | assumption | (apply Sub.of; assumption; rfl)) :
    KeepsA msk s₀ (execCompactReportReady dt s) := by
  unfold execCompactReportReady
  repeat' first
    | (with_reducible refine KeepsA.next ?_) | (with_reducible assumption)
    | ((with_reducible refine Sub.of hm ?_); exact rfl) | (with_reducible refine Keeps.ite ?_ ?_)
    | (with_reducible apply keeps_compactReady)
    | (fail_if_no_progress ((with_reducible refine Keeps.upd ?_ ?_ ?_ ?_ ?_ ?_ ?_ ?_ ?_ ?_ ?_ ?_ ?_ ?_ ?_ ?_ ?_ ?_ ?_ ?_ ?_ ?_ ?_ ?_ ?_ ?_ ?_ ?_ ?_ ?_ ?_) <;> first | exact Or.inl (Sub.of hm rfl) | with_reducible exact Or.inr rfl | skip))
    | (fail_if_no_progress extract_lets) | split | (refine Keeps.snd (by assumption) ?_)
    | (refine Keeps.fst (by assumption) ?_) | (refine Keeps.snd2 (by assumption) ?_) | (dsimp only)
    | (dsimp +zetaDelta only)

end Sys2Proof.Machine
end

