-- ==== Sys2Proof/Laws/KeepsCmpOps.lean ====
section
/-! SUPPORT. `Keeps` of the operations and meanings of Machine/CmpOps.lean. -/

set_option Elab.async false

set_option linter.unusedTactic false
set_option linter.unreachableTactic false

namespace Sys2Proof.Machine

theorem keeps_State_modCmp {msk : Nat} {s₀ s : State} (n : Fin 16) (g : Cmp → Cmp) (hk : Keeps msk s₀ s)
    (hm : Sub 0x400000 msk := by first | assumption | (apply Sub.of; assumption; rfl)) :
    Keeps msk s₀ (State.modCmp s n g) := by
  unfold State.modCmp
  repeat' first
    | (with_reducible assumption) | ((with_reducible refine Sub.of hm ?_); exact rfl)
    | (with_reducible refine Keeps.ite ?_ ?_)
    | (fail_if_no_progress ((with_reducible refine Keeps.upd ?_ ?_ ?_ ?_ ?_ ?_ ?_ ?_ ?_ ?_ ?_ ?_ ?_ ?_ ?_ ?_ ?_ ?_ ?_ ?_ ?_ ?_ ?_ ?_ ?_ ?_ ?_ ?_ ?_ ?_ ?_) <;> first | exact Or.inl (Sub.of hm rfl) | with_reducible exact Or.inr rfl | skip))
    | (fail_if_no_progress extract_lets) | split | (refine Keeps.snd (by assumption) ?_)
    | (refine Keeps.fst (by assumption) ?_) | (refine Keeps.snd2 (by assumption) ?_) | (dsimp only)
    | (dsimp +zetaDelta only)

theorem keeps_cmpRecord {msk : Nat} {s₀ s : State} (n : Fin 16) (skip : Bool) (r : Reach) (merged : Bool) (done : Bool) (hk : Keeps msk s₀ s)
    (hm : Sub 0x280400092 msk := by first | assumption | (apply Sub.of; assumption; rfl)) :
    Keeps msk s₀ (cmpRecord n skip r merged done s) := by
  unfold cmpRecord
  repeat' first
    | (with_reducible assumption) | ((with_reducible refine Sub.of hm ?_); exact rfl)
    | (with_reducible refine Keeps.ite ?_ ?_) | (with_reducible apply keeps_State_modCmp)
    | (with_reducible apply keeps_deliver) | (with_reducible apply keeps_putEntry)
    | (fail_if_no_progress ((with_reducible refine Keeps.upd ?_ ?_ ?_ ?_ ?_ ?_ ?_ ?_ ?_ ?_ ?_ ?_ ?_ ?_ ?_ ?_ ?_ ?_ ?_ ?_ ?_ ?_ ?_ ?_ ?_ ?_ ?_ ?_ ?_ ?_ ?_) <;> first | exact Or.inl (Sub.of hm rfl) | with_reducible exact Or.inr rfl | skip))
    | (fail_if_no_progress extract_lets) | split | (refine Keeps.snd (by assumption) ?_)
    | (refine Keeps.fst (by assumption) ?_) | (refine Keeps.snd2 (by assumption) ?_) | (dsimp only)
    | (dsimp +zetaDelta only)

theorem keeps_cmpFires {msk : Nat} {s₀ s : State} (n : Fin 16) (r : Reach) (hk : Keeps msk s₀ s)
    (hm : Sub 0x6E3C00492 msk := by first | assumption | (apply Sub.of; assumption; rfl)) :
    Keeps msk s₀ (cmpFires n r s) := by
  unfold cmpFires
  repeat' first
    | (with_reducible assumption) | ((with_reducible refine Sub.of hm ?_); exact rfl)
    | (with_reducible refine Keeps.ite ?_ ?_) | (with_reducible apply keeps_fireTrigs)
    | (with_reducible apply keeps_driveXtrs) | (with_reducible apply keeps_cmpRecord)
    | (with_reducible apply keeps_State_modCmp) | (with_reducible apply keeps_post)
    | (with_reducible apply keeps_slotBump) | (with_reducible apply keeps_publish)
    | (with_reducible apply keeps_sweepWaits)
    | (fail_if_no_progress ((with_reducible refine Keeps.upd ?_ ?_ ?_ ?_ ?_ ?_ ?_ ?_ ?_ ?_ ?_ ?_ ?_ ?_ ?_ ?_ ?_ ?_ ?_ ?_ ?_ ?_ ?_ ?_ ?_ ?_ ?_ ?_ ?_ ?_ ?_) <;> first | exact Or.inl (Sub.of hm rfl) | with_reducible exact Or.inr rfl | skip))
    | (fail_if_no_progress extract_lets) | split | (refine Keeps.snd (by assumption) ?_)
    | (refine Keeps.fst (by assumption) ?_) | (refine Keeps.snd2 (by assumption) ?_) | (dsimp only)
    | (dsimp +zetaDelta only)

theorem keeps_cmpSkips {msk : Nat} {s₀ s : State} (n : Fin 16) (r : Reach) (hk : Keeps msk s₀ s)
    (hm : Sub 0x2A0400092 msk := by first | assumption | (apply Sub.of; assumption; rfl)) :
    Keeps msk s₀ (cmpSkips n r s) := by
  unfold cmpSkips
  repeat' first
    | (with_reducible assumption) | ((with_reducible refine Sub.of hm ?_); exact rfl)
    | (with_reducible refine Keeps.ite ?_ ?_) | (with_reducible apply keeps_cmpRecord)
    | (with_reducible apply keeps_State_modCmp) | (with_reducible apply keeps_post)
    | (with_reducible apply keeps_sweepWaits)
    | (fail_if_no_progress ((with_reducible refine Keeps.upd ?_ ?_ ?_ ?_ ?_ ?_ ?_ ?_ ?_ ?_ ?_ ?_ ?_ ?_ ?_ ?_ ?_ ?_ ?_ ?_ ?_ ?_ ?_ ?_ ?_ ?_ ?_ ?_ ?_ ?_ ?_) <;> first | exact Or.inl (Sub.of hm rfl) | with_reducible exact Or.inr rfl | skip))
    | (fail_if_no_progress extract_lets) | split | (refine Keeps.snd (by assumption) ?_)
    | (refine Keeps.fst (by assumption) ?_) | (refine Keeps.snd2 (by assumption) ?_) | (dsimp only)
    | (dsimp +zetaDelta only)

theorem keeps_interpStep {msk : Nat} {s₀ s : State} (n : Fin 16) (until_ : Int) (hk : Keeps msk s₀ s)
    (hm : Sub 0x6E3C00492 msk := by first | assumption | (apply Sub.of; assumption; rfl)) :
    Keeps msk s₀ (interpStep n until_ s).2 := by
  unfold interpStep
  repeat' first
    | (with_reducible assumption) | ((with_reducible refine Sub.of hm ?_); exact rfl)
    | (with_reducible refine Keeps.ite ?_ ?_) | (with_reducible apply keeps_cmpFires)
    | (with_reducible apply keeps_State_modCmp)
    | (fail_if_no_progress ((with_reducible refine Keeps.upd ?_ ?_ ?_ ?_ ?_ ?_ ?_ ?_ ?_ ?_ ?_ ?_ ?_ ?_ ?_ ?_ ?_ ?_ ?_ ?_ ?_ ?_ ?_ ?_ ?_ ?_ ?_ ?_ ?_ ?_ ?_) <;> first | exact Or.inl (Sub.of hm rfl) | with_reducible exact Or.inr rfl | skip))
    | (fail_if_no_progress extract_lets) | split | (refine Keeps.snd (by assumption) ?_)
    | (refine Keeps.fst (by assumption) ?_) | (refine Keeps.snd2 (by assumption) ?_) | (dsimp only)
    | (dsimp +zetaDelta only)

theorem keeps_interpAll {msk : Nat} {s₀ s : State} (n : Fin 16) (t : Int) (k : Nat) (hk : Keeps msk s₀ s)
    (hm : Sub 0x6E3C00492 msk := by first | assumption | (apply Sub.of; assumption; rfl)) : Keeps msk s₀ (interpAll k n t s) := by
  induction k generalizing s with
  | zero => exact hk
  | succ k ih =>
    have h := keeps_interpStep n t hk
    unfold interpAll
    split
    rename_i more b e
    rw [e] at h
    exact Keeps.ite (ih h) h

theorem keeps_carryOut {msk : Nat} {s₀ s : State} (n : Fin 16) (hk : Keeps msk s₀ s)
    (hm : Sub 0x6E3C00492 msk := by first | assumption | (apply Sub.of; assumption; rfl)) :
    Keeps msk s₀ (carryOut n s) := by
  unfold carryOut
  repeat' first
    | (with_reducible assumption) | ((with_reducible refine Sub.of hm ?_); exact rfl)
    | (with_reducible refine Keeps.ite ?_ ?_) | (with_reducible apply keeps_cmpFires)
    | (with_reducible apply keeps_State_modCmp)
    | (fail_if_no_progress ((with_reducible refine Keeps.upd ?_ ?_ ?_ ?_ ?_ ?_ ?_ ?_ ?_ ?_ ?_ ?_ ?_ ?_ ?_ ?_ ?_ ?_ ?_ ?_ ?_ ?_ ?_ ?_ ?_ ?_ ?_ ?_ ?_ ?_ ?_) <;> first | exact Or.inl (Sub.of hm rfl) | with_reducible exact Or.inr rfl | skip))
    | (fail_if_no_progress extract_lets) | split | (refine Keeps.snd (by assumption) ?_)
    | (refine Keeps.fst (by assumption) ?_) | (refine Keeps.snd2 (by assumption) ?_) | (dsimp only)
    | (dsimp +zetaDelta only)

theorem keeps_settleCmps {msk : Nat} {s₀ s : State} (ch : Fin 4) (until_ : Int) (hk : Keeps msk s₀ s)
    (hm : Sub 0x6E3C00492 msk := by first | assumption | (apply Sub.of; assumption; rfl)) :
    Keeps msk s₀ (settleCmps ch until_ s) := by
  unfold settleCmps
  repeat' first
    | (with_reducible assumption) | ((with_reducible refine Sub.of hm ?_); exact rfl)
    | (with_reducible refine Keeps.ite ?_ ?_) | (with_reducible apply keeps_interpAll)
    | (with_reducible apply keeps_carryOut) | (with_reducible refine Keeps.foldl (fun _ _ _ => ?_) ?_)
    | (with_reducible refine Keeps.foldl2 (fun _ _ _ => ?_) ?_)
    | (with_reducible refine Keeps.foldl1 (fun _ _ _ => ?_) ?_)
    | (fail_if_no_progress ((with_reducible refine Keeps.upd ?_ ?_ ?_ ?_ ?_ ?_ ?_ ?_ ?_ ?_ ?_ ?_ ?_ ?_ ?_ ?_ ?_ ?_ ?_ ?_ ?_ ?_ ?_ ?_ ?_ ?_ ?_ ?_ ?_ ?_ ?_) <;> first | exact Or.inl (Sub.of hm rfl) | with_reducible exact Or.inr rfl | skip))
    | (fail_if_no_progress extract_lets) | split | (refine Keeps.snd (by assumption) ?_)
    | (refine Keeps.fst (by assumption) ?_) | (refine Keeps.snd2 (by assumption) ?_) | (dsimp only)
    | (dsimp +zetaDelta only)

theorem keeps_markCmps {msk : Nat} {s₀ s : State} (ch : Fin 4) (h : Held) (inferred : Bool) (coarse : Bool) (hk : Keeps msk s₀ s)
    (hm : Sub 0x400000 msk := by first | assumption | (apply Sub.of; assumption; rfl)) :
    Keeps msk s₀ (markCmps ch h inferred coarse s) := by
  unfold markCmps
  repeat' first
    | (with_reducible assumption) | ((with_reducible refine Sub.of hm ?_); exact rfl)
    | (with_reducible refine Keeps.ite ?_ ?_) | (with_reducible apply keeps_State_modCmp)
    | (with_reducible refine Keeps.foldl (fun _ _ _ => ?_) ?_)
    | (with_reducible refine Keeps.foldl2 (fun _ _ _ => ?_) ?_)
    | (with_reducible refine Keeps.foldl1 (fun _ _ _ => ?_) ?_)
    | (fail_if_no_progress ((with_reducible refine Keeps.upd ?_ ?_ ?_ ?_ ?_ ?_ ?_ ?_ ?_ ?_ ?_ ?_ ?_ ?_ ?_ ?_ ?_ ?_ ?_ ?_ ?_ ?_ ?_ ?_ ?_ ?_ ?_ ?_ ?_ ?_ ?_) <;> first | exact Or.inl (Sub.of hm rfl) | with_reducible exact Or.inr rfl | skip))
    | (fail_if_no_progress extract_lets) | split | (refine Keeps.snd (by assumption) ?_)
    | (refine Keeps.fst (by assumption) ?_) | (refine Keeps.snd2 (by assumption) ?_) | (dsimp only)
    | (dsimp +zetaDelta only)

theorem keeps_writeTarget {msk : Nat} {s₀ s : State} (n : Fin 16) (hk : Keeps msk s₀ s)
    (hm : Sub 0x6E3C00492 msk := by first | assumption | (apply Sub.of; assumption; rfl)) :
    Keeps msk s₀ (writeTarget n s).2 := by
  unfold writeTarget
  repeat' first
    | (with_reducible assumption) | ((with_reducible refine Sub.of hm ?_); exact rfl)
    | (with_reducible refine Keeps.ite ?_ ?_) | (with_reducible apply keeps_State_modCmp)
    | (with_reducible apply keeps_cmpFires) | (with_reducible apply keeps_cmpSkips)
    | (fail_if_no_progress ((with_reducible refine Keeps.upd ?_ ?_ ?_ ?_ ?_ ?_ ?_ ?_ ?_ ?_ ?_ ?_ ?_ ?_ ?_ ?_ ?_ ?_ ?_ ?_ ?_ ?_ ?_ ?_ ?_ ?_ ?_ ?_ ?_ ?_ ?_) <;> first | exact Or.inl (Sub.of hm rfl) | with_reducible exact Or.inr rfl | skip))
    | (fail_if_no_progress extract_lets) | split | (refine Keeps.snd (by assumption) ?_)
    | (refine Keeps.fst (by assumption) ?_) | (refine Keeps.snd2 (by assumption) ?_) | (dsimp only)
    | (dsimp +zetaDelta only)

theorem keeps_presetCmps {msk : Nat} {s₀ s : State} (ch : Fin 4) (hk : Keeps msk s₀ s)
    (hm : Sub 0x6E3C00492 msk := by first | assumption | (apply Sub.of; assumption; rfl)) :
    Keeps msk s₀ (presetCmps ch s) := by
  unfold presetCmps
  repeat' first
    | (with_reducible assumption) | ((with_reducible refine Sub.of hm ?_); exact rfl)
    | (with_reducible refine Keeps.ite ?_ ?_) | (with_reducible apply keeps_writeTarget)
    | (with_reducible refine Keeps.foldl (fun _ _ _ => ?_) ?_)
    | (with_reducible refine Keeps.foldl2 (fun _ _ _ => ?_) ?_)
    | (with_reducible refine Keeps.foldl1 (fun _ _ _ => ?_) ?_)
    | (fail_if_no_progress ((with_reducible refine Keeps.upd ?_ ?_ ?_ ?_ ?_ ?_ ?_ ?_ ?_ ?_ ?_ ?_ ?_ ?_ ?_ ?_ ?_ ?_ ?_ ?_ ?_ ?_ ?_ ?_ ?_ ?_ ?_ ?_ ?_ ?_ ?_) <;> first | exact Or.inl (Sub.of hm rfl) | with_reducible exact Or.inr rfl | skip))
    | (fail_if_no_progress extract_lets) | split | (refine Keeps.snd (by assumption) ?_)
    | (refine Keeps.fst (by assumption) ?_) | (refine Keeps.snd2 (by assumption) ?_) | (dsimp only)
    | (dsimp +zetaDelta only)

theorem keeps_timeFires {msk : Nat} {s₀ s : State} (n : Fin 16) (r : Reach) (hk : Keeps msk s₀ s)
    (hm : Sub 0x6E3C00492 msk := by first | assumption | (apply Sub.of; assumption; rfl)) :
    Keeps msk s₀ (timeFires n r s) := by
  unfold timeFires
  repeat' first
    | (with_reducible assumption) | ((with_reducible refine Sub.of hm ?_); exact rfl)
    | (with_reducible refine Keeps.ite ?_ ?_) | (with_reducible apply keeps_cmpFires)
    | (with_reducible apply keeps_State_modCmp)
    | (fail_if_no_progress ((with_reducible refine Keeps.upd ?_ ?_ ?_ ?_ ?_ ?_ ?_ ?_ ?_ ?_ ?_ ?_ ?_ ?_ ?_ ?_ ?_ ?_ ?_ ?_ ?_ ?_ ?_ ?_ ?_ ?_ ?_ ?_ ?_ ?_ ?_) <;> first | exact Or.inl (Sub.of hm rfl) | with_reducible exact Or.inr rfl | skip))
    | (fail_if_no_progress extract_lets) | split | (refine Keeps.snd (by assumption) ?_)
    | (refine Keeps.fst (by assumption) ?_) | (refine Keeps.snd2 (by assumption) ?_) | (dsimp only)
    | (dsimp +zetaDelta only)

end Sys2Proof.Machine
end

