-- ==== Sys2Proof/Laws/KeepsSensorScript.lean ====
section
/-! SUPPORT. `Keeps` of the operations and meanings of Machine/SensorScript.lean. -/

set_option Elab.async false

set_option linter.unusedTactic false
set_option linter.unreachableTactic false

namespace Sys2Proof.Machine

theorem keeps_scriptI2c {msk : Nat} {s₀ s : State} (p : Fin 8) (dev : Nat) (write : List Byte) (read : Nat) (a : I2cAnswer) (hk : Keeps msk s₀ s)
    (hm : Sub 0x200000080 msk := by first | assumption | (apply Sub.of; assumption; rfl)) :
    Keeps msk s₀ (scriptI2c p dev write read a s).2 := by
  unfold scriptI2c
  repeat' first
    | (with_reducible assumption) | ((with_reducible refine Sub.of hm ?_); exact rfl)
    | (with_reducible refine Keeps.ite ?_ ?_) | (with_reducible apply keeps_emit) | (with_reducible apply keeps_post)
    | (fail_if_no_progress ((with_reducible refine Keeps.upd ?_ ?_ ?_ ?_ ?_ ?_ ?_ ?_ ?_ ?_ ?_ ?_ ?_ ?_ ?_ ?_ ?_ ?_ ?_ ?_ ?_ ?_ ?_ ?_ ?_ ?_ ?_ ?_ ?_ ?_ ?_) <;> first | exact Or.inl (Sub.of hm rfl) | with_reducible exact Or.inr rfl | skip))
    | (fail_if_no_progress extract_lets) | split | (refine Keeps.snd (by assumption) ?_)
    | (refine Keeps.fst (by assumption) ?_) | (refine Keeps.snd2 (by assumption) ?_) | (dsimp only)
    | (dsimp +zetaDelta only)

theorem keeps_writeOnce {msk : Nat} {s₀ s : State} (p : Fin 8) (verify : Bool) (dev : Nat) (reg : List Byte) (value : List Byte) (l : List I2cAnswer) (hk : Keeps msk s₀ s)
    (hm : Sub 0x200000080 msk := by first | assumption | (apply Sub.of; assumption; rfl)) :
    Keeps msk s₀ (writeOnce p verify dev reg value l s).2 := by
  unfold writeOnce
  repeat' first
    | (with_reducible assumption) | ((with_reducible refine Sub.of hm ?_); exact rfl)
    | (with_reducible refine Keeps.ite ?_ ?_) | (with_reducible apply keeps_scriptI2c)
    | (fail_if_no_progress ((with_reducible refine Keeps.upd ?_ ?_ ?_ ?_ ?_ ?_ ?_ ?_ ?_ ?_ ?_ ?_ ?_ ?_ ?_ ?_ ?_ ?_ ?_ ?_ ?_ ?_ ?_ ?_ ?_ ?_ ?_ ?_ ?_ ?_ ?_) <;> first | exact Or.inl (Sub.of hm rfl) | with_reducible exact Or.inr rfl | skip))
    | (fail_if_no_progress extract_lets) | split | (refine Keeps.snd (by assumption) ?_)
    | (refine Keeps.fst (by assumption) ?_) | (refine Keeps.snd2 (by assumption) ?_) | (dsimp only)
    | (dsimp +zetaDelta only)

theorem keeps_scriptWrite {msk : Nat} {s₀ s : State} (p : Fin 8) (verify : Bool) (dev : Nat) (reg : List Byte) (value : List Byte) (l : List I2cAnswer) (hk : Keeps msk s₀ s)
    (hm : Sub 0x200000080 msk := by first | assumption | (apply Sub.of; assumption; rfl)) :
    Keeps msk s₀ (scriptWrite p verify dev reg value l s).2 := by
  unfold scriptWrite
  repeat' first
    | (with_reducible assumption) | ((with_reducible refine Sub.of hm ?_); exact rfl)
    | (with_reducible refine Keeps.ite ?_ ?_) | (with_reducible apply keeps_writeOnce)
    | (fail_if_no_progress ((with_reducible refine Keeps.upd ?_ ?_ ?_ ?_ ?_ ?_ ?_ ?_ ?_ ?_ ?_ ?_ ?_ ?_ ?_ ?_ ?_ ?_ ?_ ?_ ?_ ?_ ?_ ?_ ?_ ?_ ?_ ?_ ?_ ?_ ?_) <;> first | exact Or.inl (Sub.of hm rfl) | with_reducible exact Or.inr rfl | skip))
    | (fail_if_no_progress extract_lets) | split | (refine Keeps.snd (by assumption) ?_)
    | (refine Keeps.fst (by assumption) ?_) | (refine Keeps.snd2 (by assumption) ?_) | (dsimp only)
    | (dsimp +zetaDelta only)

theorem keeps_scriptPoll {msk : Nat} {s₀ s : State} (p : Fin 8) (dev : Nat) (reg : List Byte) (value mask : Nat)
    (l : List I2cAnswer) (hk : Keeps msk s₀ s)
    (hm : Sub 0x200000080 msk := by first | assumption | (apply Sub.of; assumption; rfl)) : Keeps msk s₀ (scriptPoll p dev reg value mask l s).2 := by
  induction l generalizing s with
  | nil => exact hk
  | cons a rest ih =>
    have h := keeps_scriptI2c p dev reg 2 a hk
    unfold scriptPoll
    extract_lets r
    split
    · exact h
    · split
      · exact h
      · exact ih h

theorem keeps_scriptEntry {msk : Nat} {s₀ s : State} (p : Fin 8) (verify : Bool) (e : List Byte) (l : List I2cAnswer) (hk : Keeps msk s₀ s)
    (hm : Sub 0x200010080 msk := by first | assumption | (apply Sub.of; assumption; rfl)) :
    Keeps msk s₀ (scriptEntry p verify e l s).2 := by
  unfold scriptEntry
  repeat' first
    | (with_reducible assumption) | ((with_reducible refine Sub.of hm ?_); exact rfl)
    | (with_reducible refine Keeps.ite ?_ ?_) | (with_reducible apply keeps_scriptWrite)
    | (with_reducible apply keeps_scriptPoll) | (with_reducible apply keeps_emit)
    | (with_reducible apply keeps_State_modPort)
    | (fail_if_no_progress ((with_reducible refine Keeps.upd ?_ ?_ ?_ ?_ ?_ ?_ ?_ ?_ ?_ ?_ ?_ ?_ ?_ ?_ ?_ ?_ ?_ ?_ ?_ ?_ ?_ ?_ ?_ ?_ ?_ ?_ ?_ ?_ ?_ ?_ ?_) <;> first | exact Or.inl (Sub.of hm rfl) | with_reducible exact Or.inr rfl | skip))
    | (fail_if_no_progress extract_lets) | split | (refine Keeps.snd (by assumption) ?_)
    | (refine Keeps.fst (by assumption) ?_) | (refine Keeps.snd2 (by assumption) ?_) | (dsimp only)
    | (dsimp +zetaDelta only)

theorem keeps_scriptRuns {msk : Nat} {s₀ s : State} (p : Fin 8) (verify : Bool) (es : List (List Byte))
    (l : List (List I2cAnswer)) (hk : Keeps msk s₀ s)
    (hm : Sub 0x200010080 msk := by first | assumption | (apply Sub.of; assumption; rfl)) : Keeps msk s₀ (scriptRuns p verify es l s).2 := by
  induction es generalizing s l with
  | nil => exact hk
  | cons e rest ih =>
    have h := keeps_scriptEntry p verify e (l.headD []) hk
    unfold scriptRuns
    extract_lets r
    split
    · exact hk
    · split
      · exact ih _ h
      · exact h

theorem keeps_sensorRuns {msk : Nat} {s₀ s : State} (p : Fin 8) (verify : Bool) (answers : List (List I2cAnswer)) (hk : Keeps msk s₀ s)
    (hm : Sub 0x200010080 msk := by first | assumption | (apply Sub.of; assumption; rfl)) :
    Keeps msk s₀ (sensorRuns p verify answers s).2 := by
  unfold sensorRuns
  repeat' first
    | (with_reducible assumption) | ((with_reducible refine Sub.of hm ?_); exact rfl)
    | (with_reducible refine Keeps.ite ?_ ?_) | (with_reducible apply keeps_scriptRuns)
    | (fail_if_no_progress ((with_reducible refine Keeps.upd ?_ ?_ ?_ ?_ ?_ ?_ ?_ ?_ ?_ ?_ ?_ ?_ ?_ ?_ ?_ ?_ ?_ ?_ ?_ ?_ ?_ ?_ ?_ ?_ ?_ ?_ ?_ ?_ ?_ ?_ ?_) <;> first | exact Or.inl (Sub.of hm rfl) | with_reducible exact Or.inr rfl | skip))
    | (fail_if_no_progress extract_lets) | split | (refine Keeps.snd (by assumption) ?_)
    | (refine Keeps.fst (by assumption) ?_) | (refine Keeps.snd2 (by assumption) ?_) | (dsimp only)
    | (dsimp +zetaDelta only)

end Sys2Proof.Machine
end

