-- ==== Sys2Proof/Laws/KeepsRegs.lean ====
section
/-! SUPPORT. `Keeps` of the operations and meanings of Machine/Regs.lean. -/

set_option Elab.async false

set_option linter.unusedTactic false
set_option linter.unreachableTactic false

namespace Sys2Proof.Machine

theorem keeps_readSerialLo {msk : Nat} {s₀ s : State} (fn : Fn) (hk : Keeps msk s₀ s)
    (hm : Sub 0x2 msk := by first | assumption | (apply Sub.of; assumption; rfl)) :
    Keeps msk s₀ (readSerialLo fn s).2 := by
  unfold readSerialLo
  repeat' first
    | (with_reducible assumption) | ((with_reducible refine Sub.of hm ?_); exact rfl)
    | (with_reducible refine Keeps.ite ?_ ?_) | (with_reducible apply keeps_State_modFn)
    | (fail_if_no_progress ((with_reducible refine Keeps.upd ?_ ?_ ?_ ?_ ?_ ?_ ?_ ?_ ?_ ?_ ?_ ?_ ?_ ?_ ?_ ?_ ?_ ?_ ?_ ?_ ?_ ?_ ?_ ?_ ?_ ?_ ?_ ?_ ?_ ?_ ?_) <;> first | exact Or.inl (Sub.of hm rfl) | with_reducible exact Or.inr rfl | skip))
    | (intro _ _ _) | (intro _ _) | (fail_if_no_progress extract_lets) | split | (refine Keeps.snd (by assumption) ?_)
    | (refine Keeps.fst (by assumption) ?_) | (refine Keeps.snd2 (by assumption) ?_) | (dsimp only)
    | (dsimp +zetaDelta only)

theorem keeps_sideRead {msk : Nat} {s₀ s : State} (fn : Fn) (off : Nat) (hk : Keeps msk s₀ s)
    (hm : Sub 0x75D20492 msk := by first | assumption | (apply Sub.of; assumption; rfl)) : KeepsR msk s₀ (sideRead s fn off) := by
  unfold sideRead
  repeat' first
    | (with_reducible assumption) | ((with_reducible refine Sub.of hm ?_); exact rfl) | (with_reducible refine KeepsR.ite ?_ ?_) | (with_reducible refine KeepsR.map fun _ => ?_)
    | (with_reducible refine KeepsR.some ?_) | (with_reducible exact KeepsR.none)
    | (with_reducible apply keeps_readChanBytes)
    | (with_reducible apply keeps_readCmpFireLo)
    | (with_reducible apply keeps_readCmpTargetLo)
    | (with_reducible apply keeps_readDrops)
    | (with_reducible apply keeps_readEccAddr)
    | (with_reducible apply keeps_readErrs)
    | (with_reducible apply keeps_readIgnored)
    | (with_reducible apply keeps_readLogFiltered)
    | (with_reducible apply keeps_readLogLost)
    | (with_reducible apply keeps_readPosIdxLo)
    | (with_reducible apply keeps_readPosPLo)
    | (with_reducible apply keeps_readPyrDropped)
    | (with_reducible apply keeps_readSerialErrs)
    | (with_reducible apply keeps_readSerialLo)
    | (with_reducible apply keeps_readTdcDrop)
    | (with_reducible apply keeps_readTimeLo)
    | (with_reducible apply keeps_readTqDropped)
    | (with_reducible apply keeps_readTrigMerged)
    | (with_reducible apply keeps_readWeirShed)
    | (with_reducible apply keeps_readXtrRunts)
    | (with_reducible apply keeps_State_modWit)

theorem keeps_readDword {msk : Nat} {s₀ s : State} (fn : Fn) (off : Nat) (full : Bool) (hk : Keeps msk s₀ s)
    (hm : Sub 0x75D20492 msk := by first | assumption | (apply Sub.of; assumption; rfl)) :
    Keeps msk s₀ (readDword fn off full s).2 := by
  have h := keeps_sideRead fn off hk
  unfold readDword
  split
  · rename_i r e
    cases full with
    | true => rw [if_pos rfl] at e; rw [e] at h; exact h
    | false => rw [if_neg (by decide)] at e; cases e
  · split
    · exact hk
    · exact keeps_flagUnimplemented _ _ hk

theorem keeps_bar0Read {msk : Nat} {s₀ s : State} (fn : Fn) (off : Nat) (bytes : Nat) (hk : Keeps msk s₀ s)
    (hm : Sub 0x275D20492 msk := by first | assumption | (apply Sub.of; assumption; rfl)) :
    Keeps msk s₀ (bar0Read fn off bytes s) := by
  unfold bar0Read
  repeat' first
    | (with_reducible assumption) | ((with_reducible refine Sub.of hm ?_); exact rfl)
    | (with_reducible refine Keeps.ite ?_ ?_) | (with_reducible apply keeps_unsupported)
    | (with_reducible apply keeps_post) | (with_reducible apply keeps_emit) | (with_reducible apply keeps_State_modFn)
    | (with_reducible apply keeps_gated) | (with_reducible apply keeps_readDword)
    | (with_reducible refine Keeps.foldl (fun _ _ _ => ?_) ?_)
    | (with_reducible refine Keeps.foldl2 (fun _ _ _ => ?_) ?_)
    | (with_reducible refine Keeps.foldl1 (fun _ _ _ => ?_) ?_)
    | (fail_if_no_progress ((with_reducible refine Keeps.upd ?_ ?_ ?_ ?_ ?_ ?_ ?_ ?_ ?_ ?_ ?_ ?_ ?_ ?_ ?_ ?_ ?_ ?_ ?_ ?_ ?_ ?_ ?_ ?_ ?_ ?_ ?_ ?_ ?_ ?_ ?_) <;> first | exact Or.inl (Sub.of hm rfl) | with_reducible exact Or.inr rfl | skip))
    | (intro _ _ _) | (intro _ _) | (fail_if_no_progress extract_lets) | split | (refine Keeps.snd (by assumption) ?_)
    | (refine Keeps.fst (by assumption) ?_) | (refine Keeps.snd2 (by assumption) ?_) | (dsimp only)
    | (dsimp +zetaDelta only)

theorem keeps_msixFlush {msk : Nat} {s₀ s : State} (fn : Fn) (hk : Keeps msk s₀ s)
    (hm : Sub 0x200000002 msk := by first | assumption | (apply Sub.of; assumption; rfl)) :
    Keeps msk s₀ (msixFlush fn s) := by
  unfold msixFlush
  repeat' first
    | (with_reducible assumption) | ((with_reducible refine Sub.of hm ?_); exact rfl)
    | (with_reducible refine Keeps.ite ?_ ?_) | (with_reducible apply keeps_emit)
    | (with_reducible apply keeps_State_modFn) | (with_reducible refine Keeps.foldl (fun _ _ _ => ?_) ?_)
    | (with_reducible refine Keeps.foldl2 (fun _ _ _ => ?_) ?_)
    | (with_reducible refine Keeps.foldl1 (fun _ _ _ => ?_) ?_)
    | (fail_if_no_progress ((with_reducible refine Keeps.upd ?_ ?_ ?_ ?_ ?_ ?_ ?_ ?_ ?_ ?_ ?_ ?_ ?_ ?_ ?_ ?_ ?_ ?_ ?_ ?_ ?_ ?_ ?_ ?_ ?_ ?_ ?_ ?_ ?_ ?_ ?_) <;> first | exact Or.inl (Sub.of hm rfl) | with_reducible exact Or.inr rfl | skip))
    | (intro _ _ _) | (intro _ _) | (fail_if_no_progress extract_lets) | split | (refine Keeps.snd (by assumption) ?_)
    | (refine Keeps.fst (by assumption) ?_) | (refine Keeps.snd2 (by assumption) ?_) | (dsimp only)
    | (dsimp +zetaDelta only)

theorem keeps_msixSet {msk : Nat} {s₀ s : State} (fn : Fn) (k : Fin 32) (g : MsixEntry → MsixEntry) (hk : Keeps msk s₀ s)
    (hm : Sub 0x2 msk := by first | assumption | (apply Sub.of; assumption; rfl)) :
    Keeps msk s₀ (msixSet fn k g s) := by
  unfold msixSet
  repeat' first
    | (with_reducible assumption) | ((with_reducible refine Sub.of hm ?_); exact rfl)
    | (with_reducible refine Keeps.ite ?_ ?_) | (with_reducible apply keeps_State_modFn)
    | (fail_if_no_progress ((with_reducible refine Keeps.upd ?_ ?_ ?_ ?_ ?_ ?_ ?_ ?_ ?_ ?_ ?_ ?_ ?_ ?_ ?_ ?_ ?_ ?_ ?_ ?_ ?_ ?_ ?_ ?_ ?_ ?_ ?_ ?_ ?_ ?_ ?_) <;> first | exact Or.inl (Sub.of hm rfl) | with_reducible exact Or.inr rfl | skip))
    | (intro _ _ _) | (intro _ _) | (fail_if_no_progress extract_lets) | split | (refine Keeps.snd (by assumption) ?_)
    | (refine Keeps.fst (by assumption) ?_) | (refine Keeps.snd2 (by assumption) ?_) | (dsimp only)
    | (dsimp +zetaDelta only)

theorem keeps_writeMsix {msk : Nat} {s₀ s : State} (fn : Fn) (off : Nat) (v : Word) (hk : Keeps msk s₀ s)
    (hm : Sub 0x200000002 msk := by first | assumption | (apply Sub.of; assumption; rfl)) :
    Keeps msk s₀ (writeMsix fn off v s) := by
  unfold writeMsix
  repeat' first
    | (with_reducible assumption) | ((with_reducible refine Sub.of hm ?_); exact rfl)
    | (with_reducible refine Keeps.ite ?_ ?_) | (with_reducible apply keeps_msixSet)
    | (with_reducible apply keeps_msixFlush)
    | (fail_if_no_progress ((with_reducible refine Keeps.upd ?_ ?_ ?_ ?_ ?_ ?_ ?_ ?_ ?_ ?_ ?_ ?_ ?_ ?_ ?_ ?_ ?_ ?_ ?_ ?_ ?_ ?_ ?_ ?_ ?_ ?_ ?_ ?_ ?_ ?_ ?_) <;> first | exact Or.inl (Sub.of hm rfl) | with_reducible exact Or.inr rfl | skip))
    | (fail_if_no_progress extract_lets) | split | (refine Keeps.snd (by assumption) ?_)
    | (refine Keeps.fst (by assumption) ?_) | (refine Keeps.snd2 (by assumption) ?_) | (dsimp only)
    | (dsimp +zetaDelta only)

theorem keeps_writeHostReg {msk : Nat} {s₀ s : State} (fn : Fn) (off : Nat) (v : Word) (hk : Keeps msk s₀ s)
    (hm : Sub 0x200000093 msk := by first | assumption | (apply Sub.of; assumption; rfl)) :
    KeepsO msk s₀ (writeHostReg fn off v s) := by
  unfold writeHostReg
  repeat' first
    | (with_reducible refine KeepsO.ite ?_ ?_) | (with_reducible refine KeepsO.map fun _ => ?_)
    | (with_reducible refine KeepsO.bind fun _ => ?_) | (with_reducible refine KeepsO.some ?_)
    | (with_reducible exact KeepsO.none) | trivial | (with_reducible assumption)
    | ((with_reducible refine Sub.of hm ?_); exact rfl) | (with_reducible refine Keeps.ite ?_ ?_)
    | (with_reducible apply keeps_State_modFn) | (with_reducible apply keeps_ringPorch)
    | (with_reducible apply keeps_writeReqTail) | (with_reducible apply keeps_writeRepHead)
    | (with_reducible apply keeps_writeTqHead) | (with_reducible apply keeps_State_modQueue)
    | (with_reducible apply keeps_writeMsix)
    | (fail_if_no_progress ((with_reducible refine Keeps.upd ?_ ?_ ?_ ?_ ?_ ?_ ?_ ?_ ?_ ?_ ?_ ?_ ?_ ?_ ?_ ?_ ?_ ?_ ?_ ?_ ?_ ?_ ?_ ?_ ?_ ?_ ?_ ?_ ?_ ?_ ?_) <;> first | exact Or.inl (Sub.of hm rfl) | with_reducible exact Or.inr rfl | skip))
    | (intro _ _ _) | (intro _ _) | (fail_if_no_progress extract_lets) | split | (refine Keeps.snd (by assumption) ?_)
    | (refine Keeps.fst (by assumption) ?_) | (refine Keeps.snd2 (by assumption) ?_) | (dsimp only)
    | (dsimp +zetaDelta only)

theorem keeps_writeEngineReg {msk : Nat} {s₀ s : State} (fn : Fn) (off : Nat) (v : Word) (hk : Keeps msk s₀ s)
    (hm : Sub 0x2E1F20492 msk := by first | assumption | (apply Sub.of; assumption; rfl)) :
    KeepsO msk s₀ (writeEngineReg fn off v s) := by
  unfold writeEngineReg
  repeat' first
    | (with_reducible refine KeepsO.ite ?_ ?_) | (with_reducible refine KeepsO.map fun _ => ?_)
    | (with_reducible refine KeepsO.bind fun _ => ?_) | (with_reducible refine KeepsO.some ?_)
    | (with_reducible exact KeepsO.none) | trivial | (with_reducible assumption)
    | ((with_reducible refine Sub.of hm ?_); exact rfl) | (with_reducible refine Keeps.ite ?_ ?_)
    | (with_reducible apply keeps_writeStreamHead) | (with_reducible apply keeps_State_modHop)
    | (with_reducible apply keeps_writeWitState) | (with_reducible apply keeps_writeChanGo)
    | (with_reducible apply keeps_writeChanCtrl) | (with_reducible apply keeps_writeChanState)
    | (with_reducible apply keeps_writeChanKick) | (with_reducible apply keeps_writePosFlags)
    | (with_reducible apply keeps_writeEmuFlags) | (with_reducible apply keeps_writeCmpState)
    | (with_reducible apply keeps_writeXtrState) | (with_reducible apply keeps_State_modLog)
    | (fail_if_no_progress ((with_reducible refine Keeps.upd ?_ ?_ ?_ ?_ ?_ ?_ ?_ ?_ ?_ ?_ ?_ ?_ ?_ ?_ ?_ ?_ ?_ ?_ ?_ ?_ ?_ ?_ ?_ ?_ ?_ ?_ ?_ ?_ ?_ ?_ ?_) <;> first | exact Or.inl (Sub.of hm rfl) | with_reducible exact Or.inr rfl | skip))
    | (fail_if_no_progress extract_lets) | split | (refine Keeps.snd (by assumption) ?_)
    | (refine Keeps.fst (by assumption) ?_) | (refine Keeps.snd2 (by assumption) ?_) | (dsimp only)
    | (dsimp +zetaDelta only)

theorem keeps_writeDword {msk : Nat} {s₀ s : State} (fn : Fn) (off : Nat) (v : Word) (hk : Keeps msk s₀ s)
    (hm : Sub 0x2E1F20493 msk := by first | assumption | (apply Sub.of; assumption; rfl)) :
    Keeps msk s₀ (writeDword fn off v s) := by
  have h1 := keeps_writeHostReg fn off v hk
  have h2 := keeps_writeEngineReg fn off v hk
  unfold writeDword
  split
  · rename_i t e
    cases h : writeHostReg fn off v s with
    | some u => rw [h] at e h1; cases e; exact h1
    | none =>
      rw [h] at e
      have e' : writeEngineReg fn off v s = some t := e
      rw [e'] at h2; exact h2
  · exact Keeps.ite hk (keeps_flagUnimplemented _ _ hk)

theorem keeps_bar0Write {msk : Nat} {s₀ s : State} (fn : Fn) (off : Nat) (words : List (Word × BitVec 4)) (hk : Keeps msk s₀ s)
    (hm : Sub 0x2E1F20493 msk := by first | assumption | (apply Sub.of; assumption; rfl)) :
    Keeps msk s₀ (bar0Write fn off words s) := by
  unfold bar0Write
  repeat' first
    | (with_reducible assumption) | ((with_reducible refine Sub.of hm ?_); exact rfl)
    | (with_reducible refine Keeps.ite ?_ ?_) | (with_reducible apply keeps_unsupported)
    | (with_reducible apply keeps_post) | (with_reducible apply keeps_flagAccess) | (with_reducible apply keeps_gated)
    | (with_reducible apply keeps_writeDword) | (with_reducible refine Keeps.foldl (fun _ _ _ => ?_) ?_)
    | (with_reducible refine Keeps.foldl2 (fun _ _ _ => ?_) ?_)
    | (with_reducible refine Keeps.foldl1 (fun _ _ _ => ?_) ?_)
    | (fail_if_no_progress ((with_reducible refine Keeps.upd ?_ ?_ ?_ ?_ ?_ ?_ ?_ ?_ ?_ ?_ ?_ ?_ ?_ ?_ ?_ ?_ ?_ ?_ ?_ ?_ ?_ ?_ ?_ ?_ ?_ ?_ ?_ ?_ ?_ ?_ ?_) <;> first | exact Or.inl (Sub.of hm rfl) | with_reducible exact Or.inr rfl | skip))
    | (intro _ _ _) | (intro _ _) | (fail_if_no_progress extract_lets) | split | (refine Keeps.snd (by assumption) ?_)
    | (refine Keeps.fst (by assumption) ?_) | (refine Keeps.snd2 (by assumption) ?_) | (dsimp only)
    | (dsimp +zetaDelta only)

theorem keeps_execRegisterWrite {msk : Nat} {s₀ s : State} (dt : Nat) (fn : Fn) (off : Nat) (words : List (Word × BitVec 4)) (hk : Keeps msk s₀ (advance dt s))
    (hm : Sub 0x2E1F20493 msk := by first | assumption | (apply Sub.of; assumption; rfl)) :
    KeepsA msk s₀ (execRegisterWrite dt fn off words s) := by
  unfold execRegisterWrite
  repeat' first
    | (with_reducible refine KeepsA.next ?_) | (with_reducible assumption)
    | ((with_reducible refine Sub.of hm ?_); exact rfl) | (with_reducible refine Keeps.ite ?_ ?_)
    | (with_reducible apply keeps_bar0Write)
    | (fail_if_no_progress ((with_reducible refine Keeps.upd ?_ ?_ ?_ ?_ ?_ ?_ ?_ ?_ ?_ ?_ ?_ ?_ ?_ ?_ ?_ ?_ ?_ ?_ ?_ ?_ ?_ ?_ ?_ ?_ ?_ ?_ ?_ ?_ ?_ ?_ ?_) <;> first | exact Or.inl (Sub.of hm rfl) | with_reducible exact Or.inr rfl | skip))
    | (fail_if_no_progress extract_lets) | split | (refine Keeps.snd (by assumption) ?_)
    | (refine Keeps.fst (by assumption) ?_) | (refine Keeps.snd2 (by assumption) ?_) | (dsimp only)
    | (dsimp +zetaDelta only)

theorem keeps_execBar0ReadRejected {msk : Nat} {s₀ s : State} (dt : Nat) (fn : Fn) (off : Nat) (bytes : Nat) (hk : Keeps msk s₀ (advance dt s))
    (hm : Sub 0x275D20492 msk := by first | assumption | (apply Sub.of; assumption; rfl)) :
    KeepsA msk s₀ (execBar0ReadRejected dt fn off bytes s) := by
  unfold execBar0ReadRejected
  repeat' first
    | (with_reducible refine KeepsA.next ?_) | (with_reducible assumption)
    | ((with_reducible refine Sub.of hm ?_); exact rfl) | (with_reducible refine Keeps.ite ?_ ?_)
    | (with_reducible apply keeps_bar0Read)
    | (fail_if_no_progress ((with_reducible refine Keeps.upd ?_ ?_ ?_ ?_ ?_ ?_ ?_ ?_ ?_ ?_ ?_ ?_ ?_ ?_ ?_ ?_ ?_ ?_ ?_ ?_ ?_ ?_ ?_ ?_ ?_ ?_ ?_ ?_ ?_ ?_ ?_) <;> first | exact Or.inl (Sub.of hm rfl) | with_reducible exact Or.inr rfl | skip))
    | (fail_if_no_progress extract_lets) | split | (refine Keeps.snd (by assumption) ?_)
    | (refine Keeps.fst (by assumption) ?_) | (refine Keeps.snd2 (by assumption) ?_) | (dsimp only)
    | (dsimp +zetaDelta only)

theorem keeps_execSerialLoRead {msk : Nat} {s₀ s : State} (dt : Nat) (fn : Fn) (hk : Keeps msk s₀ (advance dt s))
    (hm : Sub 0x200000082 msk := by first | assumption | (apply Sub.of; assumption; rfl)) :
    KeepsA msk s₀ (execSerialLoRead dt fn s) := by
  unfold execSerialLoRead
  repeat' first
    | (with_reducible refine KeepsA.next ?_) | (with_reducible assumption)
    | ((with_reducible refine Sub.of hm ?_); exact rfl) | (with_reducible refine Keeps.ite ?_ ?_)
    | (with_reducible apply keeps_readRegister) | (with_reducible apply keeps_readSerialLo)
    | (fail_if_no_progress ((with_reducible refine Keeps.upd ?_ ?_ ?_ ?_ ?_ ?_ ?_ ?_ ?_ ?_ ?_ ?_ ?_ ?_ ?_ ?_ ?_ ?_ ?_ ?_ ?_ ?_ ?_ ?_ ?_ ?_ ?_ ?_ ?_ ?_ ?_) <;> first | exact Or.inl (Sub.of hm rfl) | with_reducible exact Or.inr rfl | skip))
    | (intro _ _ _) | (intro _ _) | (fail_if_no_progress extract_lets) | split | (refine Keeps.snd (by assumption) ?_)
    | (refine Keeps.fst (by assumption) ?_) | (refine Keeps.snd2 (by assumption) ?_) | (dsimp only)
    | (dsimp +zetaDelta only)

end Sys2Proof.Machine
end

