-- ==== Sys2Proof/Laws/KeepsStartSteps.lean ====
section
/-! SUPPORT. `Keeps` of the operations and meanings of Machine/StartSteps.lean. -/

set_option Elab.async false

set_option linter.unusedTactic false
set_option linter.unreachableTactic false

namespace Sys2Proof.Machine

theorem keeps_applyDefault {msk : Nat} {s₀ s : State} (body : State → Hamper → Verdict) (op : Nat) (bytes : List Byte)
    (hb : ∀ t h, Keeps msk s₀ t → KeepsV msk s₀ (body t h)) (hk : Keeps msk s₀ s)
    (hm : Sub 0x0 msk := by first | assumption | (apply Sub.of; assumption; rfl)) : KeepsO msk s₀ (applyDefault body op bytes s) := by
  unfold applyDefault
  split
  · rename_i t p e
    exact KeepsV.ok_of e (hb _ _ hk)
  · trivial

theorem keeps_applyAll {msk : Nat} {s₀ s : State} (body : State → Hamper → Verdict) (op : Nat)
    (hb : ∀ t h, Keeps msk s₀ t → KeepsV msk s₀ (body t h)) (l : List (List Byte)) (hk : Keeps msk s₀ s)
    (hm : Sub 0x0 msk := by first | assumption | (apply Sub.of; assumption; rfl)) : Keeps msk s₀ (applyAll body op l s).1 := by
  induction l generalizing s with
  | nil => exact hk
  | cons b rest ih =>
    unfold applyAll
    split
    · rename_i t e
      exact ih (Keeps.of_some e (keeps_applyDefault _ _ _ hb hk))
    · exact hk

theorem keeps_startPort {msk : Nat} {s₀ s : State} (step : Nat) (p : Fin 8) (route : Nat) (hk : Keeps msk s₀ s)
    (hm : Sub 0x10000 msk := by first | assumption | (apply Sub.of; assumption; rfl)) :
    Keeps msk s₀ (startPort step p route s) := by
  unfold startPort
  repeat' first
    | (with_reducible assumption) | ((with_reducible refine Sub.of hm ?_); exact rfl)
    | (with_reducible refine Keeps.ite ?_ ?_) | (with_reducible apply keeps_acquire)
    | (with_reducible apply keeps_State_modPort)
    | (fail_if_no_progress ((with_reducible refine Keeps.upd ?_ ?_ ?_ ?_ ?_ ?_ ?_ ?_ ?_ ?_ ?_ ?_ ?_ ?_ ?_ ?_ ?_ ?_ ?_ ?_ ?_ ?_ ?_ ?_ ?_ ?_ ?_ ?_ ?_ ?_ ?_) <;> first | exact Or.inl (Sub.of hm rfl) | with_reducible exact Or.inr rfl | skip))
    | (fail_if_no_progress extract_lets) | split | (refine Keeps.snd (by assumption) ?_)
    | (refine Keeps.fst (by assumption) ?_) | (refine Keeps.snd2 (by assumption) ?_) | (dsimp only)
    | (dsimp +zetaDelta only)

theorem keeps_stepEffect {msk : Nat} {s₀ s : State} (step : Nat) (inst : Nat) (route : Nat) (hk : Keeps msk s₀ s)
    (hm : Sub 0x200018000 msk := by first | assumption | (apply Sub.of; assumption; rfl)) :
    Keeps msk s₀ (stepEffect step inst route s) := by
  unfold stepEffect
  repeat' first
    | (with_reducible assumption) | ((with_reducible refine Sub.of hm ?_); exact rfl)
    | (with_reducible refine Keeps.ite ?_ ?_) | (with_reducible apply keeps_openPath)
    | (with_reducible apply keeps_startPort)
    | (fail_if_no_progress ((with_reducible refine Keeps.upd ?_ ?_ ?_ ?_ ?_ ?_ ?_ ?_ ?_ ?_ ?_ ?_ ?_ ?_ ?_ ?_ ?_ ?_ ?_ ?_ ?_ ?_ ?_ ?_ ?_ ?_ ?_ ?_ ?_ ?_ ?_) <;> first | exact Or.inl (Sub.of hm rfl) | with_reducible exact Or.inr rfl | skip))
    | (fail_if_no_progress extract_lets) | split | (refine Keeps.snd (by assumption) ?_)
    | (refine Keeps.fst (by assumption) ?_) | (refine Keeps.snd2 (by assumption) ?_) | (dsimp only)
    | (dsimp +zetaDelta only)

theorem keeps_withEffects {msk : Nat} {s₀ s : State} (f : State → State) (h_f : ∀ (t : State), Keeps msk s₀ t → Keeps msk s₀ (f t)) (hk : Keeps msk s₀ s)
    (hm : Sub 0x200018000 msk := by first | assumption | (apply Sub.of; assumption; rfl)) :
    Keeps msk s₀ (withEffects f s) := by
  unfold withEffects
  repeat' first
    | (with_reducible assumption) | ((with_reducible refine Sub.of hm ?_); exact rfl)
    | (with_reducible refine Keeps.ite ?_ ?_) | (with_reducible apply h_f) | (with_reducible apply keeps_stepEffect)
    | (with_reducible refine Keeps.foldl (fun _ _ _ => ?_) ?_)
    | (with_reducible refine Keeps.foldl2 (fun _ _ _ => ?_) ?_)
    | (with_reducible refine Keeps.foldl1 (fun _ _ _ => ?_) ?_)
    | (fail_if_no_progress ((with_reducible refine Keeps.upd ?_ ?_ ?_ ?_ ?_ ?_ ?_ ?_ ?_ ?_ ?_ ?_ ?_ ?_ ?_ ?_ ?_ ?_ ?_ ?_ ?_ ?_ ?_ ?_ ?_ ?_ ?_ ?_ ?_ ?_ ?_) <;> first | exact Or.inl (Sub.of hm rfl) | with_reducible exact Or.inr rfl | skip))
    | (fail_if_no_progress extract_lets) | split | (refine Keeps.snd (by assumption) ?_)
    | (refine Keeps.fst (by assumption) ?_) | (refine Keeps.snd2 (by assumption) ?_) | (dsimp only)
    | (dsimp +zetaDelta only)

theorem keeps_execCarWakeDebounceExpiry {msk : Nat} {s₀ s : State} (dt : Nat) (hk : Keeps msk s₀ (advance dt s))
    (hm : Sub 0x3FFFFFCFF msk := by first | assumption | (apply Sub.of; assumption; rfl)) :
    KeepsA msk s₀ (execCarWakeDebounceExpiry dt s) := by
  unfold execCarWakeDebounceExpiry
  repeat' first
    | (with_reducible refine KeepsA.next ?_) | (with_reducible assumption)
    | ((with_reducible refine Sub.of hm ?_); exact rfl) | (with_reducible refine Keeps.ite ?_ ?_)
    | (with_reducible apply keeps_withEffects) | (with_reducible apply keeps_carWakeTaken)
    | (fail_if_no_progress ((with_reducible refine Keeps.upd ?_ ?_ ?_ ?_ ?_ ?_ ?_ ?_ ?_ ?_ ?_ ?_ ?_ ?_ ?_ ?_ ?_ ?_ ?_ ?_ ?_ ?_ ?_ ?_ ?_ ?_ ?_ ?_ ?_ ?_ ?_) <;> first | exact Or.inl (Sub.of hm rfl) | with_reducible exact Or.inr rfl | skip))
    | (intro _ _ _) | (intro _ _) | (fail_if_no_progress extract_lets) | split | (refine Keeps.snd (by assumption) ?_)
    | (refine Keeps.fst (by assumption) ?_) | (refine Keeps.snd2 (by assumption) ?_) | (dsimp only)
    | (dsimp +zetaDelta only)

theorem keeps_noPicture {msk : Nat} {s₀ s : State} (p : Fin 2) (hk : Keeps msk s₀ s)
    (hm : Sub 0x8000 msk := by first | assumption | (apply Sub.of; assumption; rfl)) :
    Keeps msk s₀ (noPicture p s) := by
  unfold noPicture
  repeat' first
    | (with_reducible assumption) | ((with_reducible refine Sub.of hm ?_); exact rfl)
    | (with_reducible refine Keeps.ite ?_ ?_) | (with_reducible apply keeps_State_modPath)
    | (fail_if_no_progress ((with_reducible refine Keeps.upd ?_ ?_ ?_ ?_ ?_ ?_ ?_ ?_ ?_ ?_ ?_ ?_ ?_ ?_ ?_ ?_ ?_ ?_ ?_ ?_ ?_ ?_ ?_ ?_ ?_ ?_ ?_ ?_ ?_ ?_ ?_) <;> first | exact Or.inl (Sub.of hm rfl) | with_reducible exact Or.inr rfl | skip))
    | (fail_if_no_progress extract_lets) | split | (refine Keeps.snd (by assumption) ?_)
    | (refine Keeps.fst (by assumption) ?_) | (refine Keeps.snd2 (by assumption) ?_) | (dsimp only)
    | (dsimp +zetaDelta only)

theorem keeps_enterRecovery {msk : Nat} {s₀ s : State} (hk : Keeps msk s₀ s)
    (hm : Sub 0x1080 msk := by first | assumption | (apply Sub.of; assumption; rfl)) :
    Keeps msk s₀ (enterRecovery s) := by
  unfold enterRecovery
  repeat' first
    | (with_reducible assumption) | ((with_reducible refine Sub.of hm ?_); exact rfl)
    | (with_reducible refine Keeps.ite ?_ ?_) | (with_reducible apply keeps_post)
    | (with_reducible apply keeps_State_modStart)
    | (fail_if_no_progress ((with_reducible refine Keeps.upd ?_ ?_ ?_ ?_ ?_ ?_ ?_ ?_ ?_ ?_ ?_ ?_ ?_ ?_ ?_ ?_ ?_ ?_ ?_ ?_ ?_ ?_ ?_ ?_ ?_ ?_ ?_ ?_ ?_ ?_ ?_) <;> first | exact Or.inl (Sub.of hm rfl) | with_reducible exact Or.inr rfl | skip))
    | (fail_if_no_progress extract_lets) | split | (refine Keeps.snd (by assumption) ?_)
    | (refine Keeps.fst (by assumption) ?_) | (refine Keeps.snd2 (by assumption) ?_) | (dsimp only)
    | (dsimp +zetaDelta only)

theorem keeps_modBank {msk : Nat} {s₀ s : State} (g : Bank → Bank) (hk : Keeps msk s₀ s)
    (hm : Sub 0x2000 msk := by first | assumption | (apply Sub.of; assumption; rfl)) :
    Keeps msk s₀ (modBank g s) := by
  unfold modBank
  repeat' first
    | (with_reducible assumption) | ((with_reducible refine Sub.of hm ?_); exact rfl)
    | (with_reducible refine Keeps.ite ?_ ?_) | (with_reducible apply keeps_State_modMram)
    | (fail_if_no_progress ((with_reducible refine Keeps.upd ?_ ?_ ?_ ?_ ?_ ?_ ?_ ?_ ?_ ?_ ?_ ?_ ?_ ?_ ?_ ?_ ?_ ?_ ?_ ?_ ?_ ?_ ?_ ?_ ?_ ?_ ?_ ?_ ?_ ?_ ?_) <;> first | exact Or.inl (Sub.of hm rfl) | with_reducible exact Or.inr rfl | skip))
    | (fail_if_no_progress ((with_reducible refine Keeps.updMram ?_ (by rfl) (by first | exact id | (intro h; dsimp only; simp [h])) ?_ ?_ ?_ ?_ ?_ ?_ ?_ ?_ ?_ ?_ ?_ ?_ ?_ ?_ ?_ ?_ ?_ ?_ ?_ ?_ ?_ ?_ ?_ ?_ ?_ ?_ ?_ ?_ ?_ ?_ ?_) <;> first | exact Or.inl (Sub.of hm rfl) | with_reducible exact Or.inr rfl | skip))
    | rfl | (exact id) | ((intro h; dsimp only; simp [h]; done)) | (fail_if_no_progress extract_lets) | split
    | (refine Keeps.snd (by assumption) ?_) | (refine Keeps.fst (by assumption) ?_)
    | (refine Keeps.snd2 (by assumption) ?_) | (dsimp only) | (dsimp +zetaDelta only)

theorem keeps_applyTriggerDefaults {msk : Nat} {s₀ s : State} (hk : Keeps msk s₀ s)
    (hm : Sub 0x800080 msk := by first | assumption | (apply Sub.of; assumption; rfl)) : Keeps msk s₀ (applyTriggerDefaults s) := by
  unfold applyTriggerDefaults
  refine Keeps.foldl (fun t b h => ?_) (Keeps.foldl (fun t b h => ?_) hk)
  · dsimp only
    split
    · rename_i u e; exact Keeps.of_some e (keeps_applyDefault _ _ _ (fun _ _ h => keeps_xtrConfigBody _ h) h)
    · exact keeps_post _ _ _ h
  · dsimp only
    split
    · rename_i u e; exact Keeps.of_some e (keeps_applyDefault _ _ _ (fun _ _ h => keeps_trigConfigBody _ h) h)
    · exact keeps_post _ _ _ h

theorem keeps_applyWeirDefaults {msk : Nat} {s₀ s : State} (hk : Keeps msk s₀ s)
    (hm : Sub 0x10000080 msk := by first | assumption | (apply Sub.of; assumption; rfl)) : Keeps msk s₀ (applyWeirDefaults s) := by
  unfold applyWeirDefaults
  extract_lets c t one
  have h1 : Keeps msk s₀ t := by
    show Keeps msk s₀ (match (c.bind fun c => c.key 1).bind Cbor.nat? with
      | some n => if n ≤ 8192 ∧ n % 4 = 0 then s.modWeir fun w => { w with grantKib := n } else post 0x6010 wide wide s
      | none => s)
    split
    · exact Keeps.ite (keeps_State_modWeir _ hk) (keeps_post _ _ _ hk)
    · exact hk
  have h2 : ∀ (k : Nat) (body : State → Hamper → Verdict) (op : Nat) (u : State),
      (∀ t h, Keeps msk s₀ t → KeepsV msk s₀ (body t h)) → Keeps msk s₀ u → Keeps msk s₀ (one k body op u) := by
    intro k body op u hb hu
    show Keeps msk s₀ (match (c.bind fun c => c.key k).bind Cbor.bytes? with
      | some b => (match applyDefault body op b u with
        | some t => t
        | none => post 0x6010 wide wide u)
      | none => u)
    split
    · split
      · rename_i v e; exact Keeps.of_some e (keeps_applyDefault _ _ _ hb hu)
      · exact keeps_post _ _ _ hu
    · exact hu
  exact h2 _ _ _ _ (fun _ _ h => keeps_weirScrubBody _ h) (h2 _ _ _ _ (fun _ _ h => keeps_weirShedOrderBody _ h) h1)

theorem keeps_dropGuardLoads {msk : Nat} {s₀ s : State} (hk : Keeps msk s₀ s)
    (hm : Sub 0x8000 msk := by first | assumption | (apply Sub.of; assumption; rfl)) :
    Keeps msk s₀ (dropGuardLoads s) := by
  unfold dropGuardLoads
  repeat' first
    | (with_reducible assumption) | ((with_reducible refine Sub.of hm ?_); exact rfl)
    | (with_reducible refine Keeps.ite ?_ ?_) | (with_reducible apply keeps_State_modGuard)
    | (fail_if_no_progress ((with_reducible refine Keeps.upd ?_ ?_ ?_ ?_ ?_ ?_ ?_ ?_ ?_ ?_ ?_ ?_ ?_ ?_ ?_ ?_ ?_ ?_ ?_ ?_ ?_ ?_ ?_ ?_ ?_ ?_ ?_ ?_ ?_ ?_ ?_) <;> first | exact Or.inl (Sub.of hm rfl) | with_reducible exact Or.inr rfl | skip))
    | (fail_if_no_progress extract_lets) | split | (refine Keeps.snd (by assumption) ?_)
    | (refine Keeps.fst (by assumption) ?_) | (refine Keeps.snd2 (by assumption) ?_) | (dsimp only)
    | (dsimp +zetaDelta only)

theorem keeps_applyGuardDefaults {msk : Nat} {s₀ s : State} (hk : Keeps msk s₀ s)
    (hm : Sub 0x400008000 msk := by first | assumption | (apply Sub.of; assumption; rfl)) :
    Keeps msk s₀ (applyGuardDefaults s) := by
  unfold applyGuardDefaults
  repeat' first
    | (with_reducible assumption) | ((with_reducible refine Sub.of hm ?_); exact rfl)
    | (with_reducible refine Keeps.ite ?_ ?_) | (with_reducible apply keeps_State_modGuard)
    | (with_reducible apply keeps_draw) | (with_reducible apply keeps_State_modPath)
    | (with_reducible refine Keeps.foldl (fun _ _ _ => ?_) ?_)
    | (with_reducible refine Keeps.foldl2 (fun _ _ _ => ?_) ?_)
    | (with_reducible refine Keeps.foldl1 (fun _ _ _ => ?_) ?_)
    | (fail_if_no_progress ((with_reducible refine Keeps.upd ?_ ?_ ?_ ?_ ?_ ?_ ?_ ?_ ?_ ?_ ?_ ?_ ?_ ?_ ?_ ?_ ?_ ?_ ?_ ?_ ?_ ?_ ?_ ?_ ?_ ?_ ?_ ?_ ?_ ?_ ?_) <;> first | exact Or.inl (Sub.of hm rfl) | with_reducible exact Or.inr rfl | skip))
    | (fail_if_no_progress extract_lets) | split | (refine Keeps.snd (by assumption) ?_)
    | (refine Keeps.fst (by assumption) ?_) | (refine Keeps.snd2 (by assumption) ?_) | (dsimp only)
    | (dsimp +zetaDelta only)

theorem keeps_applyOuting {msk : Nat} {s₀ s : State} (copy : Option (Fin 2)) (o : Outing) (hk : Keeps msk s₀ s)
    (hm : Sub 0x41080FC88 msk := by first | assumption | (apply Sub.of; assumption; rfl)) :
    Keeps msk s₀ (applyOuting copy o s) := by
  unfold applyOuting
  repeat' first
    | (with_reducible assumption) | ((with_reducible refine Sub.of hm ?_); exact rfl)
    | (with_reducible refine Keeps.ite ?_ ?_) | (with_reducible apply keeps_extend)
    | (with_reducible apply keeps_dropGuardLoads) | (with_reducible apply keeps_State_modStart)
    | (with_reducible apply keeps_State_modWeir) | (with_reducible apply keeps_State_modFantail)
    | (with_reducible apply keeps_applyTriggerDefaults) | (with_reducible apply keeps_applyWeirDefaults)
    | (with_reducible apply keeps_applyGuardDefaults) | (with_reducible apply keeps_modBank)
    | (with_reducible apply keeps_State_modPower)
    | (fail_if_no_progress ((with_reducible refine Keeps.upd ?_ ?_ ?_ ?_ ?_ ?_ ?_ ?_ ?_ ?_ ?_ ?_ ?_ ?_ ?_ ?_ ?_ ?_ ?_ ?_ ?_ ?_ ?_ ?_ ?_ ?_ ?_ ?_ ?_ ?_ ?_) <;> first | exact Or.inl (Sub.of hm rfl) | with_reducible exact Or.inr rfl | skip))
    | (fail_if_no_progress extract_lets) | split | (refine Keeps.snd (by assumption) ?_)
    | (refine Keeps.fst (by assumption) ?_) | (refine Keeps.snd2 (by assumption) ?_) | (dsimp only)
    | (dsimp +zetaDelta only)

theorem keeps_foldApplies {msk : Nat} {s₀ s : State} (learned : List Learned) (fast : Bool) (hk : Keeps msk s₀ s)
    (hm : Sub 0x3080 msk := by first | assumption | (apply Sub.of; assumption; rfl)) :
    Keeps msk s₀ (foldApplies learned fast s) := by
  unfold foldApplies
  repeat' first
    | (with_reducible assumption) | ((with_reducible refine Sub.of hm ?_); exact rfl)
    | (with_reducible refine Keeps.ite ?_ ?_) | (with_reducible apply keeps_post)
    | (with_reducible apply keeps_State_modStart) | (with_reducible apply keeps_modBank)
    | (with_reducible apply keeps_State_modMram)
    | (fail_if_no_progress ((with_reducible refine Keeps.upd ?_ ?_ ?_ ?_ ?_ ?_ ?_ ?_ ?_ ?_ ?_ ?_ ?_ ?_ ?_ ?_ ?_ ?_ ?_ ?_ ?_ ?_ ?_ ?_ ?_ ?_ ?_ ?_ ?_ ?_ ?_) <;> first | exact Or.inl (Sub.of hm rfl) | with_reducible exact Or.inr rfl | skip))
    | (fail_if_no_progress ((with_reducible refine Keeps.updMram ?_ (by rfl) (by first | exact id | (intro h; dsimp only; simp [h])) ?_ ?_ ?_ ?_ ?_ ?_ ?_ ?_ ?_ ?_ ?_ ?_ ?_ ?_ ?_ ?_ ?_ ?_ ?_ ?_ ?_ ?_ ?_ ?_ ?_ ?_ ?_ ?_ ?_ ?_ ?_) <;> first | exact Or.inl (Sub.of hm rfl) | with_reducible exact Or.inr rfl | skip))
    | rfl | (exact id) | ((intro h; dsimp only; simp [h]; done)) | (fail_if_no_progress extract_lets) | split
    | (refine Keeps.snd (by assumption) ?_) | (refine Keeps.fst (by assumption) ?_)
    | (refine Keeps.snd2 (by assumption) ?_) | (dsimp only) | (dsimp +zetaDelta only)

theorem keeps_finalFailure {msk : Nat} {s₀ s : State} (step : Nat) (inst : Nat) (hk : Keeps msk s₀ s)
    (hm : Sub 0x6948AFCBA msk := by first | assumption | (apply Sub.of; assumption; rfl)) :
    Keeps msk s₀ (finalFailure step inst s) := by
  unfold finalFailure
  repeat' first
    | (with_reducible assumption) | ((with_reducible refine Sub.of hm ?_); exact rfl)
    | (with_reducible refine Keeps.ite ?_ ?_) | (with_reducible apply keeps_enterRecovery)
    | (with_reducible apply keeps_foldApplies) | (with_reducible apply keeps_applyOuting)
    | (with_reducible apply keeps_noPicture) | (with_reducible apply keeps_holdPath)
    | (with_reducible apply keeps_State_modWeir) | (with_reducible refine Keeps.foldl (fun _ _ _ => ?_) ?_)
    | (with_reducible refine Keeps.foldl2 (fun _ _ _ => ?_) ?_)
    | (with_reducible refine Keeps.foldl1 (fun _ _ _ => ?_) ?_)
    | (fail_if_no_progress ((with_reducible refine Keeps.upd ?_ ?_ ?_ ?_ ?_ ?_ ?_ ?_ ?_ ?_ ?_ ?_ ?_ ?_ ?_ ?_ ?_ ?_ ?_ ?_ ?_ ?_ ?_ ?_ ?_ ?_ ?_ ?_ ?_ ?_ ?_) <;> first | exact Or.inl (Sub.of hm rfl) | with_reducible exact Or.inr rfl | skip))
    | (fail_if_no_progress extract_lets) | split | (refine Keeps.snd (by assumption) ?_)
    | (refine Keeps.fst (by assumption) ?_) | (refine Keeps.snd2 (by assumption) ?_) | (dsimp only)
    | (dsimp +zetaDelta only)

theorem keeps_checkFails {msk : Nat} {s₀ s : State} (hk : Keeps msk s₀ s)
    (hm : Sub 0x3000 msk := by first | assumption | (apply Sub.of; assumption; rfl)) :
    Keeps msk s₀ (checkFails s) := by
  unfold checkFails
  repeat' first
    | (with_reducible assumption) | ((with_reducible refine Sub.of hm ?_); exact rfl)
    | (with_reducible refine Keeps.ite ?_ ?_) | (with_reducible apply keeps_setStep)
    | (with_reducible apply keeps_routeFails)
    | (fail_if_no_progress ((with_reducible refine Keeps.upd ?_ ?_ ?_ ?_ ?_ ?_ ?_ ?_ ?_ ?_ ?_ ?_ ?_ ?_ ?_ ?_ ?_ ?_ ?_ ?_ ?_ ?_ ?_ ?_ ?_ ?_ ?_ ?_ ?_ ?_ ?_) <;> first | exact Or.inl (Sub.of hm rfl) | with_reducible exact Or.inr rfl | skip))
    | (fail_if_no_progress extract_lets) | split | (refine Keeps.snd (by assumption) ?_)
    | (refine Keeps.fst (by assumption) ?_) | (refine Keeps.snd2 (by assumption) ?_) | (dsimp only)
    | (dsimp +zetaDelta only)

theorem keeps_valtynFails {msk : Nat} {s₀ s : State} (route : Nat) (cause : Nat) (hk : Keeps msk s₀ s)
    (hm : Sub 0x7080 msk := by first | assumption | (apply Sub.of; assumption; rfl)) :
    Keeps msk s₀ (valtynFails route cause s) := by
  unfold valtynFails
  repeat' first
    | (with_reducible assumption) | ((with_reducible refine Sub.of hm ?_); exact rfl)
    | (with_reducible refine Keeps.ite ?_ ?_) | (with_reducible apply keeps_routeFails)
    | (with_reducible apply keeps_checkFails) | (with_reducible apply keeps_startAgain)
    | (with_reducible apply keeps_runStep) | (with_reducible apply keeps_State_modStart)
    | (with_reducible apply keeps_enterRecovery) | (with_reducible apply keeps_post)
    | (with_reducible apply keeps_setStep)
    | (fail_if_no_progress ((with_reducible refine Keeps.upd ?_ ?_ ?_ ?_ ?_ ?_ ?_ ?_ ?_ ?_ ?_ ?_ ?_ ?_ ?_ ?_ ?_ ?_ ?_ ?_ ?_ ?_ ?_ ?_ ?_ ?_ ?_ ?_ ?_ ?_ ?_) <;> first | exact Or.inl (Sub.of hm rfl) | with_reducible exact Or.inr rfl | skip))
    | (fail_if_no_progress extract_lets) | split | (refine Keeps.snd (by assumption) ?_)
    | (refine Keeps.fst (by assumption) ?_) | (refine Keeps.snd2 (by assumption) ?_) | (dsimp only)
    | (dsimp +zetaDelta only)

theorem keeps_nextRetry {msk : Nat} {s₀ s : State} (hk : Keeps msk s₀ s)
    (hm : Sub 0x7080 msk := by first | assumption | (apply Sub.of; assumption; rfl)) :
    Keeps msk s₀ (nextRetry s) := by
  unfold nextRetry
  repeat' first
    | (with_reducible assumption) | ((with_reducible refine Sub.of hm ?_); exact rfl)
    | (with_reducible refine Keeps.ite ?_ ?_) | (with_reducible apply keeps_runStep)
    | (with_reducible apply keeps_State_modStart)
    | (fail_if_no_progress ((with_reducible refine Keeps.upd ?_ ?_ ?_ ?_ ?_ ?_ ?_ ?_ ?_ ?_ ?_ ?_ ?_ ?_ ?_ ?_ ?_ ?_ ?_ ?_ ?_ ?_ ?_ ?_ ?_ ?_ ?_ ?_ ?_ ?_ ?_) <;> first | exact Or.inl (Sub.of hm rfl) | with_reducible exact Or.inr rfl | skip))
    | (fail_if_no_progress extract_lets) | split | (refine Keeps.snd (by assumption) ?_)
    | (refine Keeps.fst (by assumption) ?_) | (refine Keeps.snd2 (by assumption) ?_) | (dsimp only)
    | (dsimp +zetaDelta only)

theorem keeps_retryEnds {msk : Nat} {s₀ s : State} (step : Nat) (inst : Nat) (ok : Bool) (cause : Nat) (detail : Nat) (hk : Keeps msk s₀ s)
    (hm : Sub 0x7080 msk := by first | assumption | (apply Sub.of; assumption; rfl)) :
    Keeps msk s₀ (retryEnds step inst ok cause detail s) := by
  unfold retryEnds
  repeat' first
    | (with_reducible assumption) | ((with_reducible refine Sub.of hm ?_); exact rfl)
    | (with_reducible refine Keeps.ite ?_ ?_) | (with_reducible apply keeps_jot)
    | (with_reducible apply keeps_nextRetry) | (with_reducible apply keeps_setStep)
    | (fail_if_no_progress ((with_reducible refine Keeps.upd ?_ ?_ ?_ ?_ ?_ ?_ ?_ ?_ ?_ ?_ ?_ ?_ ?_ ?_ ?_ ?_ ?_ ?_ ?_ ?_ ?_ ?_ ?_ ?_ ?_ ?_ ?_ ?_ ?_ ?_ ?_) <;> first | exact Or.inl (Sub.of hm rfl) | with_reducible exact Or.inr rfl | skip))
    | (fail_if_no_progress extract_lets) | split | (refine Keeps.snd (by assumption) ?_)
    | (refine Keeps.fst (by assumption) ?_) | (refine Keeps.snd2 (by assumption) ?_) | (dsimp only)
    | (dsimp +zetaDelta only)

theorem keeps_failStep {msk : Nat} {s₀ s : State} (step : Nat) (inst : Nat) (cause : Nat) (hk : Keeps msk s₀ s)
    (hm : Sub 0x6948AFCBA msk := by first | assumption | (apply Sub.of; assumption; rfl)) :
    Keeps msk s₀ (failStep step inst cause s) := by
  unfold failStep
  repeat' first
    | (with_reducible assumption) | ((with_reducible refine Sub.of hm ?_); exact rfl)
    | (with_reducible refine Keeps.ite ?_ ?_) | (with_reducible apply keeps_retryEnds)
    | (with_reducible apply keeps_post) | (with_reducible apply keeps_valtynFails)
    | (with_reducible apply keeps_stepFailed) | (with_reducible apply keeps_finalFailure)
    | (with_reducible apply keeps_beginReady)
    | (fail_if_no_progress ((with_reducible refine Keeps.upd ?_ ?_ ?_ ?_ ?_ ?_ ?_ ?_ ?_ ?_ ?_ ?_ ?_ ?_ ?_ ?_ ?_ ?_ ?_ ?_ ?_ ?_ ?_ ?_ ?_ ?_ ?_ ?_ ?_ ?_ ?_) <;> first | exact Or.inl (Sub.of hm rfl) | with_reducible exact Or.inr rfl | skip))
    | (fail_if_no_progress extract_lets) | split | (refine Keeps.snd (by assumption) ?_)
    | (refine Keeps.fst (by assumption) ?_) | (refine Keeps.snd2 (by assumption) ?_) | (dsimp only)
    | (dsimp +zetaDelta only)

theorem keeps_doneStep {msk : Nat} {s₀ s : State} (step : Nat) (inst : Nat) (detail : Nat) (hk : Keeps msk s₀ s)
    (hm : Sub 0x7080 msk := by first | assumption | (apply Sub.of; assumption; rfl)) :
    Keeps msk s₀ (doneStep step inst detail s) := by
  unfold doneStep
  repeat' first
    | (with_reducible assumption) | ((with_reducible refine Sub.of hm ?_); exact rfl)
    | (with_reducible refine Keeps.ite ?_ ?_) | (with_reducible apply keeps_stepDone)
    | (with_reducible apply keeps_State_modStart)
    | (fail_if_no_progress ((with_reducible refine Keeps.upd ?_ ?_ ?_ ?_ ?_ ?_ ?_ ?_ ?_ ?_ ?_ ?_ ?_ ?_ ?_ ?_ ?_ ?_ ?_ ?_ ?_ ?_ ?_ ?_ ?_ ?_ ?_ ?_ ?_ ?_ ?_) <;> first | exact Or.inl (Sub.of hm rfl) | with_reducible exact Or.inr rfl | skip))
    | (fail_if_no_progress extract_lets) | split | (refine Keeps.snd (by assumption) ?_)
    | (refine Keeps.fst (by assumption) ?_) | (refine Keeps.snd2 (by assumption) ?_) | (dsimp only)
    | (dsimp +zetaDelta only)

theorem keeps_finish {msk : Nat} {s₀ s : State} (step inst detail : Nat) (res : Option State) (hr : KeepsO msk s₀ res) (hk : Keeps msk s₀ s)
    (hm : Sub 0x6948BFCBA msk := by first | assumption | (apply Sub.of; assumption; rfl)) :
    Keeps msk s₀ (finish step inst detail res s) := by
  unfold finish
  cases res with
  | some t =>
    split
    · exact keeps_retryEnds _ _ _ _ _ (keeps_State_modStart _ hr)
    · exact keeps_withEffects _ (fun _ _ => keeps_doneStep _ _ _ hr) hk
    · exact hk
  | none =>
    split
    · exact keeps_withEffects _ (fun _ h => keeps_failStep _ _ _ h) hk
    · exact keeps_withEffects _ (fun _ h => keeps_failStep _ _ _ h) hk
    · exact hk

theorem keeps_slotCheckEnds {msk : Nat} {s₀ s : State} (hk : Keeps msk s₀ s)
    (hm : Sub 0x6948BFCBA msk := by first | assumption | (apply Sub.of; assumption; rfl)) :
    Keeps msk s₀ (slotCheckEnds s) := by
  unfold slotCheckEnds
  repeat' first
    | (with_reducible assumption) | ((with_reducible refine Sub.of hm ?_); exact rfl)
    | (with_reducible refine Keeps.ite ?_ ?_) | (with_reducible apply keeps_withEffects)
    | (with_reducible apply keeps_doneStep) | (with_reducible apply keeps_extend)
    | (with_reducible apply keeps_measureValtyn) | (with_reducible apply keeps_failStep)
    | (fail_if_no_progress ((with_reducible refine Keeps.upd ?_ ?_ ?_ ?_ ?_ ?_ ?_ ?_ ?_ ?_ ?_ ?_ ?_ ?_ ?_ ?_ ?_ ?_ ?_ ?_ ?_ ?_ ?_ ?_ ?_ ?_ ?_ ?_ ?_ ?_ ?_) <;> first | exact Or.inl (Sub.of hm rfl) | with_reducible exact Or.inr rfl | skip))
    | (intro _ _ _) | (intro _ _) | (fail_if_no_progress extract_lets) | split | (refine Keeps.snd (by assumption) ?_)
    | (refine Keeps.fst (by assumption) ?_) | (refine Keeps.snd2 (by assumption) ?_) | (dsimp only)
    | (dsimp +zetaDelta only)

theorem keeps_execSlotCheck {msk : Nat} {s₀ s : State} (dt : Nat) (hk : Keeps msk s₀ (advance dt s))
    (hm : Sub 0x6948BFCBA msk := by first | assumption | (apply Sub.of; assumption; rfl)) :
    KeepsA msk s₀ (execSlotCheck dt s) := by
  unfold execSlotCheck
  repeat' first
    | (with_reducible refine KeepsA.next ?_) | (with_reducible assumption)
    | ((with_reducible refine Sub.of hm ?_); exact rfl) | (with_reducible refine Keeps.ite ?_ ?_)
    | (with_reducible apply keeps_slotCheckEnds)
    | (fail_if_no_progress ((with_reducible refine Keeps.upd ?_ ?_ ?_ ?_ ?_ ?_ ?_ ?_ ?_ ?_ ?_ ?_ ?_ ?_ ?_ ?_ ?_ ?_ ?_ ?_ ?_ ?_ ?_ ?_ ?_ ?_ ?_ ?_ ?_ ?_ ?_) <;> first | exact Or.inl (Sub.of hm rfl) | with_reducible exact Or.inr rfl | skip))
    | (fail_if_no_progress extract_lets) | split | (refine Keeps.snd (by assumption) ?_)
    | (refine Keeps.fst (by assumption) ?_) | (refine Keeps.snd2 (by assumption) ?_) | (dsimp only)
    | (dsimp +zetaDelta only)

theorem keeps_valtynRuns {msk : Nat} {s₀ s : State} (hk : Keeps msk s₀ s)
    (hm : Sub 0x1880 msk := by first | assumption | (apply Sub.of; assumption; rfl)) :
    Keeps msk s₀ (valtynRuns s) := by
  unfold valtynRuns
  repeat' first
    | (with_reducible assumption) | ((with_reducible refine Sub.of hm ?_); exact rfl)
    | (with_reducible refine Keeps.ite ?_ ?_) | (with_reducible apply keeps_State_modStart)
    | (with_reducible apply keeps_restoreLog) | (with_reducible apply keeps_State_modPower)
    | (fail_if_no_progress ((with_reducible refine Keeps.upd ?_ ?_ ?_ ?_ ?_ ?_ ?_ ?_ ?_ ?_ ?_ ?_ ?_ ?_ ?_ ?_ ?_ ?_ ?_ ?_ ?_ ?_ ?_ ?_ ?_ ?_ ?_ ?_ ?_ ?_ ?_) <;> first | exact Or.inl (Sub.of hm rfl) | with_reducible exact Or.inr rfl | skip))
    | (fail_if_no_progress extract_lets) | split | (refine Keeps.snd (by assumption) ?_)
    | (refine Keeps.fst (by assumption) ?_) | (refine Keeps.snd2 (by assumption) ?_) | (dsimp only)
    | (dsimp +zetaDelta only)

theorem keeps_execValtynRun {msk : Nat} {s₀ s : State} (dt : Nat) (res : StepResult) (hk : Keeps msk s₀ (advance dt s))
    (hm : Sub 0x6948BFCBA msk := by first | assumption | (apply Sub.of; assumption; rfl)) :
    KeepsA msk s₀ (execValtynRun dt res s) := by
  unfold execValtynRun
  repeat' first
    | (with_reducible refine KeepsA.next ?_) | (with_reducible assumption)
    | ((with_reducible refine Sub.of hm ?_); exact rfl) | (with_reducible refine Keeps.ite ?_ ?_)
    | (with_reducible apply keeps_withEffects) | (with_reducible apply keeps_doneStep)
    | (with_reducible apply keeps_valtynRuns) | (with_reducible apply keeps_failStep)
    | (fail_if_no_progress ((with_reducible refine Keeps.upd ?_ ?_ ?_ ?_ ?_ ?_ ?_ ?_ ?_ ?_ ?_ ?_ ?_ ?_ ?_ ?_ ?_ ?_ ?_ ?_ ?_ ?_ ?_ ?_ ?_ ?_ ?_ ?_ ?_ ?_ ?_) <;> first | exact Or.inl (Sub.of hm rfl) | with_reducible exact Or.inr rfl | skip))
    | (intro _ _ _) | (intro _ _) | (fail_if_no_progress extract_lets) | split | (refine Keeps.snd (by assumption) ?_)
    | (refine Keeps.fst (by assumption) ?_) | (refine Keeps.snd2 (by assumption) ?_) | (dsimp only)
    | (dsimp +zetaDelta only)

theorem keeps_closeRecords {msk : Nat} {s₀ s : State} (b : Bank) (failed : List Record) (hk : Keeps msk s₀ s)
    (hm : Sub 0x2080 msk := by first | assumption | (apply Sub.of; assumption; rfl)) :
    Keeps msk s₀ (closeRecords b failed s) := by
  unfold closeRecords
  repeat' first
    | (with_reducible assumption) | ((with_reducible refine Sub.of hm ?_); exact rfl)
    | (with_reducible refine Keeps.ite ?_ ?_) | (with_reducible apply keeps_jot) | (with_reducible apply keeps_post)
    | (with_reducible refine Keeps.foldl (fun _ _ _ => ?_) ?_)
    | (with_reducible refine Keeps.foldl2 (fun _ _ _ => ?_) ?_)
    | (with_reducible refine Keeps.foldl1 (fun _ _ _ => ?_) ?_)
    | (fail_if_no_progress ((with_reducible refine Keeps.upd ?_ ?_ ?_ ?_ ?_ ?_ ?_ ?_ ?_ ?_ ?_ ?_ ?_ ?_ ?_ ?_ ?_ ?_ ?_ ?_ ?_ ?_ ?_ ?_ ?_ ?_ ?_ ?_ ?_ ?_ ?_) <;> first | exact Or.inl (Sub.of hm rfl) | with_reducible exact Or.inr rfl | skip))
    | (fail_if_no_progress extract_lets) | split | (refine Keeps.snd (by assumption) ?_)
    | (refine Keeps.fst (by assumption) ?_) | (refine Keeps.snd2 (by assumption) ?_) | (dsimp only)
    | (dsimp +zetaDelta only)

theorem keeps_journalFolds {msk : Nat} {s₀ s : State} (hk : Keeps msk s₀ s)
    (hm : Sub 0x20001F080 msk := by first | assumption | (apply Sub.of; assumption; rfl)) :
    Keeps msk s₀ (journalFolds s) := by
  unfold journalFolds
  repeat' first
    | (with_reducible assumption) | ((with_reducible refine Sub.of hm ?_); exact rfl)
    | (with_reducible refine Keeps.ite ?_ ?_) | (with_reducible apply keeps_post)
    | (with_reducible apply keeps_closeRecords) | (with_reducible apply keeps_withEffects)
    | (with_reducible apply keeps_doneStep) | (with_reducible apply keeps_foldApplies)
    | (with_reducible refine Keeps.foldl (fun _ _ _ => ?_) ?_)
    | (with_reducible refine Keeps.foldl2 (fun _ _ _ => ?_) ?_)
    | (with_reducible refine Keeps.foldl1 (fun _ _ _ => ?_) ?_)
    | (fail_if_no_progress ((with_reducible refine Keeps.upd ?_ ?_ ?_ ?_ ?_ ?_ ?_ ?_ ?_ ?_ ?_ ?_ ?_ ?_ ?_ ?_ ?_ ?_ ?_ ?_ ?_ ?_ ?_ ?_ ?_ ?_ ?_ ?_ ?_ ?_ ?_) <;> first | exact Or.inl (Sub.of hm rfl) | with_reducible exact Or.inr rfl | skip))
    | (intro _ _ _) | (intro _ _) | (fail_if_no_progress extract_lets) | split | (refine Keeps.snd (by assumption) ?_)
    | (refine Keeps.fst (by assumption) ?_) | (refine Keeps.snd2 (by assumption) ?_) | (dsimp only)
    | (dsimp +zetaDelta only)

theorem keeps_execJournalFold {msk : Nat} {s₀ s : State} (dt : Nat) (hk : Keeps msk s₀ (advance dt s))
    (hm : Sub 0x20001F080 msk := by first | assumption | (apply Sub.of; assumption; rfl)) :
    KeepsA msk s₀ (execJournalFold dt s) := by
  unfold execJournalFold
  repeat' first
    | (with_reducible refine KeepsA.next ?_) | (with_reducible assumption)
    | ((with_reducible refine Sub.of hm ?_); exact rfl) | (with_reducible refine Keeps.ite ?_ ?_)
    | (with_reducible apply keeps_journalFolds)
    | (fail_if_no_progress ((with_reducible refine Keeps.upd ?_ ?_ ?_ ?_ ?_ ?_ ?_ ?_ ?_ ?_ ?_ ?_ ?_ ?_ ?_ ?_ ?_ ?_ ?_ ?_ ?_ ?_ ?_ ?_ ?_ ?_ ?_ ?_ ?_ ?_ ?_) <;> first | exact Or.inl (Sub.of hm rfl) | with_reducible exact Or.inr rfl | skip))
    | (fail_if_no_progress extract_lets) | split | (refine Keeps.snd (by assumption) ?_)
    | (refine Keeps.fst (by assumption) ?_) | (refine Keeps.snd2 (by assumption) ?_) | (dsimp only)
    | (dsimp +zetaDelta only)

theorem keeps_recordRead {msk : Nat} {s₀ s : State} (hk : Keeps msk s₀ s)
    (hm : Sub 0x6948BFCBA msk := by first | assumption | (apply Sub.of; assumption; rfl)) :
    Keeps msk s₀ (recordRead s) := by
  unfold recordRead
  repeat' first
    | (with_reducible assumption) | ((with_reducible refine Sub.of hm ?_); exact rfl)
    | (with_reducible refine Keeps.ite ?_ ?_) | (with_reducible apply keeps_withEffects)
    | (with_reducible apply keeps_doneStep) | (with_reducible apply keeps_applyOuting)
    | (with_reducible apply keeps_failStep) | (with_reducible apply keeps_post)
    | (fail_if_no_progress ((with_reducible refine Keeps.upd ?_ ?_ ?_ ?_ ?_ ?_ ?_ ?_ ?_ ?_ ?_ ?_ ?_ ?_ ?_ ?_ ?_ ?_ ?_ ?_ ?_ ?_ ?_ ?_ ?_ ?_ ?_ ?_ ?_ ?_ ?_) <;> first | exact Or.inl (Sub.of hm rfl) | with_reducible exact Or.inr rfl | skip))
    | (intro _ _ _) | (intro _ _) | (fail_if_no_progress extract_lets) | split | (refine Keeps.snd (by assumption) ?_)
    | (refine Keeps.fst (by assumption) ?_) | (refine Keeps.snd2 (by assumption) ?_) | (dsimp only)
    | (dsimp +zetaDelta only)

theorem keeps_execOutingRecord {msk : Nat} {s₀ s : State} (dt : Nat) (hk : Keeps msk s₀ (advance dt s))
    (hm : Sub 0x6948BFCBA msk := by first | assumption | (apply Sub.of; assumption; rfl)) :
    KeepsA msk s₀ (execOutingRecord dt s) := by
  unfold execOutingRecord
  repeat' first
    | (with_reducible refine KeepsA.next ?_) | (with_reducible assumption)
    | ((with_reducible refine Sub.of hm ?_); exact rfl) | (with_reducible refine Keeps.ite ?_ ?_)
    | (with_reducible apply keeps_recordRead)
    | (fail_if_no_progress ((with_reducible refine Keeps.upd ?_ ?_ ?_ ?_ ?_ ?_ ?_ ?_ ?_ ?_ ?_ ?_ ?_ ?_ ?_ ?_ ?_ ?_ ?_ ?_ ?_ ?_ ?_ ?_ ?_ ?_ ?_ ?_ ?_ ?_ ?_) <;> first | exact Or.inl (Sub.of hm rfl) | with_reducible exact Or.inr rfl | skip))
    | (fail_if_no_progress extract_lets) | split | (refine Keeps.snd (by assumption) ?_)
    | (refine Keeps.fst (by assumption) ?_) | (refine Keeps.snd2 (by assumption) ?_) | (dsimp only)
    | (dsimp +zetaDelta only)

theorem keeps_buildSurfaces {msk : Nat} {s₀ s : State} (alternate : Bool) (hk : Keeps msk s₀ s)
    (hm : Sub 0x8000 msk := by first | assumption | (apply Sub.of; assumption; rfl)) :
    Keeps msk s₀ (buildSurfaces alternate s) := by
  unfold buildSurfaces
  repeat' first
    | (with_reducible assumption) | ((with_reducible refine Sub.of hm ?_); exact rfl)
    | (with_reducible refine Keeps.ite ?_ ?_) | (with_reducible apply keeps_State_modPath)
    | (with_reducible refine Keeps.foldl (fun _ _ _ => ?_) ?_)
    | (with_reducible refine Keeps.foldl2 (fun _ _ _ => ?_) ?_)
    | (with_reducible refine Keeps.foldl1 (fun _ _ _ => ?_) ?_)
    | (fail_if_no_progress ((with_reducible refine Keeps.upd ?_ ?_ ?_ ?_ ?_ ?_ ?_ ?_ ?_ ?_ ?_ ?_ ?_ ?_ ?_ ?_ ?_ ?_ ?_ ?_ ?_ ?_ ?_ ?_ ?_ ?_ ?_ ?_ ?_ ?_ ?_) <;> first | exact Or.inl (Sub.of hm rfl) | with_reducible exact Or.inr rfl | skip))
    | (fail_if_no_progress extract_lets) | split | (refine Keeps.snd (by assumption) ?_)
    | (refine Keeps.fst (by assumption) ?_) | (refine Keeps.snd2 (by assumption) ?_) | (dsimp only)
    | (dsimp +zetaDelta only)

theorem keeps_execGuardianSurfaces {msk : Nat} {s₀ s : State} (dt : Nat) (res : StepResult) (hk : Keeps msk s₀ (advance dt s))
    (hm : Sub 0x6948BFCBA msk := by first | assumption | (apply Sub.of; assumption; rfl)) :
    KeepsA msk s₀ (execGuardianSurfaces dt res s) := by
  unfold execGuardianSurfaces
  repeat' first
    | (with_reducible refine KeepsO.ite ?_ ?_) | (with_reducible refine KeepsO.some ?_)
    | (with_reducible exact KeepsO.none) | (with_reducible refine KeepsA.next ?_) | (with_reducible assumption)
    | ((with_reducible refine Sub.of hm ?_); exact rfl) | (with_reducible refine Keeps.ite ?_ ?_)
    | (with_reducible apply keeps_finish) | (with_reducible apply keeps_buildSurfaces)
    | (fail_if_no_progress ((with_reducible refine Keeps.upd ?_ ?_ ?_ ?_ ?_ ?_ ?_ ?_ ?_ ?_ ?_ ?_ ?_ ?_ ?_ ?_ ?_ ?_ ?_ ?_ ?_ ?_ ?_ ?_ ?_ ?_ ?_ ?_ ?_ ?_ ?_) <;> first | exact Or.inl (Sub.of hm rfl) | with_reducible exact Or.inr rfl | skip))
    | (fail_if_no_progress extract_lets) | split | (refine Keeps.snd (by assumption) ?_)
    | (refine Keeps.fst (by assumption) ?_) | (refine Keeps.snd2 (by assumption) ?_) | (dsimp only)
    | (dsimp +zetaDelta only) | (exact Keeps.of_some (by assumption) (by assumption))

theorem keeps_execTslReceive {msk : Nat} {s₀ s : State} (dt : Nat) (hk : Keeps msk s₀ (advance dt s))
    (hm : Sub 0x6948BFCBA msk := by first | assumption | (apply Sub.of; assumption; rfl)) :
    KeepsA msk s₀ (execTslReceive dt s) := by
  unfold execTslReceive
  repeat' first
    | (with_reducible refine KeepsO.ite ?_ ?_) | (with_reducible refine KeepsO.some ?_)
    | (with_reducible exact KeepsO.none) | (with_reducible refine KeepsA.next ?_) | (with_reducible assumption)
    | ((with_reducible refine Sub.of hm ?_); exact rfl) | (with_reducible refine Keeps.ite ?_ ?_)
    | (with_reducible apply keeps_finish) | (with_reducible apply keeps_State_modTsl)
    | (fail_if_no_progress ((with_reducible refine Keeps.upd ?_ ?_ ?_ ?_ ?_ ?_ ?_ ?_ ?_ ?_ ?_ ?_ ?_ ?_ ?_ ?_ ?_ ?_ ?_ ?_ ?_ ?_ ?_ ?_ ?_ ?_ ?_ ?_ ?_ ?_ ?_) <;> first | exact Or.inl (Sub.of hm rfl) | with_reducible exact Or.inr rfl | skip))
    | (fail_if_no_progress extract_lets) | split | (refine Keeps.snd (by assumption) ?_)
    | (refine Keeps.fst (by assumption) ?_) | (refine Keeps.snd2 (by assumption) ?_) | (dsimp only)
    | (dsimp +zetaDelta only) | (exact Keeps.of_some (by assumption) (by assumption))

theorem keeps_panelLink {msk : Nat} {s₀ s : State} (p : Fin 2) (hk : Keeps msk s₀ s)
    (hm : Sub 0x8000 msk := by first | assumption | (apply Sub.of; assumption; rfl)) :
    Keeps msk s₀ (panelLink p s) := by
  unfold panelLink
  repeat' first
    | (with_reducible assumption) | ((with_reducible refine Sub.of hm ?_); exact rfl)
    | (with_reducible refine Keeps.ite ?_ ?_) | (with_reducible apply keeps_panelTrained)
    | (with_reducible apply keeps_noPicture)
    | (fail_if_no_progress ((with_reducible refine Keeps.upd ?_ ?_ ?_ ?_ ?_ ?_ ?_ ?_ ?_ ?_ ?_ ?_ ?_ ?_ ?_ ?_ ?_ ?_ ?_ ?_ ?_ ?_ ?_ ?_ ?_ ?_ ?_ ?_ ?_ ?_ ?_) <;> first | exact Or.inl (Sub.of hm rfl) | with_reducible exact Or.inr rfl | skip))
    | (fail_if_no_progress extract_lets) | split | (refine Keeps.snd (by assumption) ?_)
    | (refine Keeps.fst (by assumption) ?_) | (refine Keeps.snd2 (by assumption) ?_) | (dsimp only)
    | (dsimp +zetaDelta only)

theorem keeps_execPanelLinkTrained {msk : Nat} {s₀ s : State} (dt : Nat) (p : Fin 2) (link : Option LinkSettings) (hk : Keeps msk s₀ (advance dt s))
    (hm : Sub 0x6948BFCBA msk := by first | assumption | (apply Sub.of; assumption; rfl)) :
    KeepsA msk s₀ (execPanelLinkTrained dt p link s) := by
  unfold execPanelLinkTrained
  repeat' first
    | (with_reducible refine KeepsO.ite ?_ ?_) | (with_reducible refine KeepsO.some ?_)
    | (with_reducible exact KeepsO.none) | (with_reducible refine KeepsA.next ?_) | (with_reducible assumption)
    | ((with_reducible refine Sub.of hm ?_); exact rfl) | (with_reducible refine Keeps.ite ?_ ?_)
    | (with_reducible apply keeps_finish) | (with_reducible apply keeps_panelLink)
    | (fail_if_no_progress ((with_reducible refine Keeps.upd ?_ ?_ ?_ ?_ ?_ ?_ ?_ ?_ ?_ ?_ ?_ ?_ ?_ ?_ ?_ ?_ ?_ ?_ ?_ ?_ ?_ ?_ ?_ ?_ ?_ ?_ ?_ ?_ ?_ ?_ ?_) <;> first | exact Or.inl (Sub.of hm rfl) | with_reducible exact Or.inr rfl | skip))
    | (fail_if_no_progress extract_lets) | split | (refine Keeps.snd (by assumption) ?_)
    | (refine Keeps.fst (by assumption) ?_) | (refine Keeps.snd2 (by assumption) ?_) | (dsimp only)
    | (dsimp +zetaDelta only) | (exact Keeps.of_some (by assumption) (by assumption))

theorem keeps_execEarlyPicture {msk : Nat} {s₀ s : State} (dt : Nat) (p : Fin 2) (res : StepResult) (hk : Keeps msk s₀ (advance dt s))
    (hm : Sub 0x6948BFCBA msk := by first | assumption | (apply Sub.of; assumption; rfl)) :
    KeepsA msk s₀ (execEarlyPicture dt p res s) := by
  unfold execEarlyPicture
  repeat' first
    | (with_reducible refine KeepsO.ite ?_ ?_) | (with_reducible refine KeepsO.some ?_)
    | (with_reducible exact KeepsO.none) | (with_reducible refine KeepsA.next ?_) | (with_reducible assumption)
    | ((with_reducible refine Sub.of hm ?_); exact rfl) | (with_reducible refine Keeps.ite ?_ ?_)
    | (with_reducible apply keeps_finish) | (with_reducible apply keeps_State_modPath)
    | (fail_if_no_progress ((with_reducible refine Keeps.upd ?_ ?_ ?_ ?_ ?_ ?_ ?_ ?_ ?_ ?_ ?_ ?_ ?_ ?_ ?_ ?_ ?_ ?_ ?_ ?_ ?_ ?_ ?_ ?_ ?_ ?_ ?_ ?_ ?_ ?_ ?_) <;> first | exact Or.inl (Sub.of hm rfl) | with_reducible exact Or.inr rfl | skip))
    | (fail_if_no_progress extract_lets) | split | (refine Keeps.snd (by assumption) ?_)
    | (refine Keeps.fst (by assumption) ?_) | (refine Keeps.snd2 (by assumption) ?_) | (dsimp only)
    | (dsimp +zetaDelta only) | (exact Keeps.of_some (by assumption) (by assumption))

theorem keeps_portLockedAt {msk : Nat} {s₀ s : State} (p : Fin 8) (gear : Nat) (hk : Keeps msk s₀ s)
    (hm : Sub 0x10080 msk := by first | assumption | (apply Sub.of; assumption; rfl)) :
    Keeps msk s₀ (portLockedAt p gear s) := by
  unfold portLockedAt
  repeat' first
    | (with_reducible assumption) | ((with_reducible refine Sub.of hm ?_); exact rfl)
    | (with_reducible refine Keeps.ite ?_ ?_) | (with_reducible apply keeps_State_modPort)
    | (with_reducible apply keeps_post)
    | (fail_if_no_progress ((with_reducible refine Keeps.upd ?_ ?_ ?_ ?_ ?_ ?_ ?_ ?_ ?_ ?_ ?_ ?_ ?_ ?_ ?_ ?_ ?_ ?_ ?_ ?_ ?_ ?_ ?_ ?_ ?_ ?_ ?_ ?_ ?_ ?_ ?_) <;> first | exact Or.inl (Sub.of hm rfl) | with_reducible exact Or.inr rfl | skip))
    | (fail_if_no_progress extract_lets) | split | (refine Keeps.snd (by assumption) ?_)
    | (refine Keeps.fst (by assumption) ?_) | (refine Keeps.snd2 (by assumption) ?_) | (dsimp only)
    | (dsimp +zetaDelta only)

theorem keeps_rearLink {msk : Nat} {s₀ s : State} (p : Fin 8) (res : StepResult) (gear : Nat) (profile : Nat) (hk : Keeps msk s₀ s)
    (hm : Sub 0x6948BFCBA msk := by first | assumption | (apply Sub.of; assumption; rfl)) :
    Keeps msk s₀ (rearLink p res gear profile s) := by
  unfold rearLink
  repeat' first
    | (with_reducible refine KeepsO.ite ?_ ?_) | (with_reducible refine KeepsO.some ?_)
    | (with_reducible exact KeepsO.none) | (with_reducible assumption)
    | ((with_reducible refine Sub.of hm ?_); exact rfl) | (with_reducible refine Keeps.ite ?_ ?_)
    | (with_reducible apply keeps_finish) | (with_reducible apply keeps_portLockedAt)
    | (fail_if_no_progress ((with_reducible refine Keeps.upd ?_ ?_ ?_ ?_ ?_ ?_ ?_ ?_ ?_ ?_ ?_ ?_ ?_ ?_ ?_ ?_ ?_ ?_ ?_ ?_ ?_ ?_ ?_ ?_ ?_ ?_ ?_ ?_ ?_ ?_ ?_) <;> first | exact Or.inl (Sub.of hm rfl) | with_reducible exact Or.inr rfl | skip))
    | (fail_if_no_progress extract_lets) | split | (refine Keeps.snd (by assumption) ?_)
    | (refine Keeps.fst (by assumption) ?_) | (refine Keeps.snd2 (by assumption) ?_) | (dsimp only)
    | (dsimp +zetaDelta only) | (exact Keeps.of_some (by assumption) (by assumption))

theorem keeps_execRearCameraLink {msk : Nat} {s₀ s : State} (dt : Nat) (res : StepResult) (gear : Nat) (profile : Nat) (hk : Keeps msk s₀ (advance dt s))
    (hm : Sub 0x6948BFCBA msk := by first | assumption | (apply Sub.of; assumption; rfl)) :
    KeepsA msk s₀ (execRearCameraLink dt res gear profile s) := by
  unfold execRearCameraLink
  repeat' first
    | (with_reducible refine KeepsA.next ?_) | (with_reducible assumption)
    | ((with_reducible refine Sub.of hm ?_); exact rfl) | (with_reducible refine Keeps.ite ?_ ?_)
    | (with_reducible apply keeps_rearLink)
    | (fail_if_no_progress ((with_reducible refine Keeps.upd ?_ ?_ ?_ ?_ ?_ ?_ ?_ ?_ ?_ ?_ ?_ ?_ ?_ ?_ ?_ ?_ ?_ ?_ ?_ ?_ ?_ ?_ ?_ ?_ ?_ ?_ ?_ ?_ ?_ ?_ ?_) <;> first | exact Or.inl (Sub.of hm rfl) | with_reducible exact Or.inr rfl | skip))
    | (fail_if_no_progress extract_lets) | split | (refine Keeps.snd (by assumption) ?_)
    | (refine Keeps.fst (by assumption) ?_) | (refine Keeps.snd2 (by assumption) ?_) | (dsimp only)
    | (dsimp +zetaDelta only)

theorem keeps_execGearRaiseTimeout {msk : Nat} {s₀ s : State} (dt : Nat) (p : Fin 8) (hk : Keeps msk s₀ (advance dt s))
    (hm : Sub 0x6948BFCBA msk := by first | assumption | (apply Sub.of; assumption; rfl)) :
    KeepsA msk s₀ (execGearRaiseTimeout dt p s) := by
  unfold execGearRaiseTimeout
  repeat' first
    | (with_reducible refine KeepsA.next ?_) | (with_reducible assumption)
    | ((with_reducible refine Sub.of hm ?_); exact rfl) | (with_reducible refine Keeps.ite ?_ ?_)
    | (with_reducible apply keeps_raiseFails) | (with_reducible apply keeps_withEffects)
    | (with_reducible apply keeps_failStep)
    | (fail_if_no_progress ((with_reducible refine Keeps.upd ?_ ?_ ?_ ?_ ?_ ?_ ?_ ?_ ?_ ?_ ?_ ?_ ?_ ?_ ?_ ?_ ?_ ?_ ?_ ?_ ?_ ?_ ?_ ?_ ?_ ?_ ?_ ?_ ?_ ?_ ?_) <;> first | exact Or.inl (Sub.of hm rfl) | with_reducible exact Or.inr rfl | skip))
    | (intro _ _ _) | (intro _ _) | (fail_if_no_progress extract_lets) | split | (refine Keeps.snd (by assumption) ?_)
    | (refine Keeps.fst (by assumption) ?_) | (refine Keeps.snd2 (by assumption) ?_) | (dsimp only)
    | (dsimp +zetaDelta only)

theorem keeps_sensorStep {msk : Nat} {s₀ s : State} (step : Nat) (p : Fin 8) (detail : Nat) (answers : List (List I2cAnswer)) (frame : Bool) (hk : Keeps msk s₀ s)
    (hm : Sub 0x6948BFCBA msk := by first | assumption | (apply Sub.of; assumption; rfl)) :
    Keeps msk s₀ (sensorStep step p detail answers frame s) := by
  unfold sensorStep
  repeat' first
    | (with_reducible refine KeepsO.ite ?_ ?_) | (with_reducible refine KeepsO.some ?_)
    | (with_reducible exact KeepsO.none) | (with_reducible assumption)
    | ((with_reducible refine Sub.of hm ?_); exact rfl) | (with_reducible refine Keeps.ite ?_ ?_)
    | (with_reducible apply keeps_sensorRuns) | (with_reducible apply keeps_finish)
    | (fail_if_no_progress ((with_reducible refine Keeps.upd ?_ ?_ ?_ ?_ ?_ ?_ ?_ ?_ ?_ ?_ ?_ ?_ ?_ ?_ ?_ ?_ ?_ ?_ ?_ ?_ ?_ ?_ ?_ ?_ ?_ ?_ ?_ ?_ ?_ ?_ ?_) <;> first | exact Or.inl (Sub.of hm rfl) | with_reducible exact Or.inr rfl | skip))
    | (fail_if_no_progress extract_lets) | split | (refine Keeps.snd (by assumption) ?_)
    | (refine Keeps.fst (by assumption) ?_) | (refine Keeps.snd2 (by assumption) ?_) | (dsimp only)
    | (dsimp +zetaDelta only) | (exact Keeps.of_some (by assumption) (by assumption))

theorem keeps_execRearSensor {msk : Nat} {s₀ s : State} (dt : Nat) (answers : List (List I2cAnswer)) (frame : Bool) (hk : Keeps msk s₀ (advance dt s))
    (hm : Sub 0x6948BFCBA msk := by first | assumption | (apply Sub.of; assumption; rfl)) :
    KeepsA msk s₀ (execRearSensor dt answers frame s) := by
  unfold execRearSensor
  repeat' first
    | (with_reducible refine KeepsA.next ?_) | (with_reducible assumption)
    | ((with_reducible refine Sub.of hm ?_); exact rfl) | (with_reducible refine Keeps.ite ?_ ?_)
    | (with_reducible apply keeps_sensorStep)
    | (fail_if_no_progress ((with_reducible refine Keeps.upd ?_ ?_ ?_ ?_ ?_ ?_ ?_ ?_ ?_ ?_ ?_ ?_ ?_ ?_ ?_ ?_ ?_ ?_ ?_ ?_ ?_ ?_ ?_ ?_ ?_ ?_ ?_ ?_ ?_ ?_ ?_) <;> first | exact Or.inl (Sub.of hm rfl) | with_reducible exact Or.inr rfl | skip))
    | (fail_if_no_progress extract_lets) | split | (refine Keeps.snd (by assumption) ?_)
    | (refine Keeps.fst (by assumption) ?_) | (refine Keeps.snd2 (by assumption) ?_) | (dsimp only)
    | (dsimp +zetaDelta only)

theorem keeps_execRearInsertion {msk : Nat} {s₀ s : State} (dt : Nat) (res : StepResult) (hk : Keeps msk s₀ (advance dt s))
    (hm : Sub 0x6948BFCBA msk := by first | assumption | (apply Sub.of; assumption; rfl)) :
    KeepsA msk s₀ (execRearInsertion dt res s) := by
  unfold execRearInsertion
  repeat' first
    | (with_reducible refine KeepsO.ite ?_ ?_) | (with_reducible refine KeepsO.some ?_)
    | (with_reducible exact KeepsO.none) | (with_reducible refine KeepsA.next ?_) | (with_reducible assumption)
    | ((with_reducible refine Sub.of hm ?_); exact rfl) | (with_reducible refine Keeps.ite ?_ ?_)
    | (with_reducible apply keeps_finish)
    | (fail_if_no_progress ((with_reducible refine Keeps.upd ?_ ?_ ?_ ?_ ?_ ?_ ?_ ?_ ?_ ?_ ?_ ?_ ?_ ?_ ?_ ?_ ?_ ?_ ?_ ?_ ?_ ?_ ?_ ?_ ?_ ?_ ?_ ?_ ?_ ?_ ?_) <;> first | exact Or.inl (Sub.of hm rfl) | with_reducible exact Or.inr rfl | skip))
    | (fail_if_no_progress extract_lets) | split | (refine Keeps.snd (by assumption) ?_)
    | (refine Keeps.fst (by assumption) ?_) | (refine Keeps.snd2 (by assumption) ?_) | (dsimp only)
    | (dsimp +zetaDelta only) | (exact Keeps.of_some (by assumption) (by assumption))

theorem keeps_execLpddr5xTraining {msk : Nat} {s₀ s : State} (dt : Nat) (res : StepResult) (mts : Nat) (gib : Nat) (hk : Keeps msk s₀ (advance dt s))
    (hm : Sub 0x6948BFCBA msk := by first | assumption | (apply Sub.of; assumption; rfl)) :
    KeepsA msk s₀ (execLpddr5xTraining dt res mts gib s) := by
  unfold execLpddr5xTraining
  repeat' first
    | (with_reducible refine KeepsO.ite ?_ ?_) | (with_reducible refine KeepsO.some ?_)
    | (with_reducible exact KeepsO.none) | (with_reducible refine KeepsA.next ?_) | (with_reducible assumption)
    | ((with_reducible refine Sub.of hm ?_); exact rfl) | (with_reducible refine Keeps.ite ?_ ?_)
    | (with_reducible apply keeps_finish) | (with_reducible apply keeps_State_modWeir)
    | (fail_if_no_progress ((with_reducible refine Keeps.upd ?_ ?_ ?_ ?_ ?_ ?_ ?_ ?_ ?_ ?_ ?_ ?_ ?_ ?_ ?_ ?_ ?_ ?_ ?_ ?_ ?_ ?_ ?_ ?_ ?_ ?_ ?_ ?_ ?_ ?_ ?_) <;> first | exact Or.inl (Sub.of hm rfl) | with_reducible exact Or.inr rfl | skip))
    | (fail_if_no_progress extract_lets) | split | (refine Keeps.snd (by assumption) ?_)
    | (refine Keeps.fst (by assumption) ?_) | (refine Keeps.snd2 (by assumption) ?_) | (dsimp only)
    | (dsimp +zetaDelta only) | (exact Keeps.of_some (by assumption) (by assumption))

theorem keeps_cameraStep {msk : Nat} {s₀ s : State} (p : Fin 8) (res : StepResult) (gear : Nat) (profile : Nat) (answers : List (List I2cAnswer)) (frame : Bool) (hk : Keeps msk s₀ s)
    (hm : Sub 0x6948BFCBA msk := by first | assumption | (apply Sub.of; assumption; rfl)) :
    Keeps msk s₀ (cameraStep p res gear profile answers frame s) := by
  unfold cameraStep
  repeat' first
    | (with_reducible refine KeepsO.ite ?_ ?_) | (with_reducible refine KeepsO.some ?_)
    | (with_reducible exact KeepsO.none) | (with_reducible assumption)
    | ((with_reducible refine Sub.of hm ?_); exact rfl) | (with_reducible refine Keeps.ite ?_ ?_)
    | (with_reducible apply keeps_finish) | (with_reducible apply keeps_sensorStep)
    | (with_reducible apply keeps_portLockedAt)
    | (fail_if_no_progress ((with_reducible refine Keeps.upd ?_ ?_ ?_ ?_ ?_ ?_ ?_ ?_ ?_ ?_ ?_ ?_ ?_ ?_ ?_ ?_ ?_ ?_ ?_ ?_ ?_ ?_ ?_ ?_ ?_ ?_ ?_ ?_ ?_ ?_ ?_) <;> first | exact Or.inl (Sub.of hm rfl) | with_reducible exact Or.inr rfl | skip))
    | (fail_if_no_progress extract_lets) | split | (refine Keeps.snd (by assumption) ?_)
    | (refine Keeps.fst (by assumption) ?_) | (refine Keeps.snd2 (by assumption) ?_) | (dsimp only)
    | (dsimp +zetaDelta only) | (exact Keeps.of_some (by assumption) (by assumption))

theorem keeps_execCameraPortStart {msk : Nat} {s₀ s : State} (dt : Nat) (port : Fin 8) (res : StepResult) (gear : Nat) (profile : Nat) (answers : List (List I2cAnswer)) (frame : Bool) (hk : Keeps msk s₀ (advance dt s))
    (hm : Sub 0x6948BFCBA msk := by first | assumption | (apply Sub.of; assumption; rfl)) :
    KeepsA msk s₀ (execCameraPortStart dt port res gear profile answers frame s) := by
  unfold execCameraPortStart
  repeat' first
    | (with_reducible refine KeepsA.next ?_) | (with_reducible assumption)
    | ((with_reducible refine Sub.of hm ?_); exact rfl) | (with_reducible refine Keeps.ite ?_ ?_)
    | (with_reducible apply keeps_cameraStep)
    | (fail_if_no_progress ((with_reducible refine Keeps.upd ?_ ?_ ?_ ?_ ?_ ?_ ?_ ?_ ?_ ?_ ?_ ?_ ?_ ?_ ?_ ?_ ?_ ?_ ?_ ?_ ?_ ?_ ?_ ?_ ?_ ?_ ?_ ?_ ?_ ?_ ?_) <;> first | exact Or.inl (Sub.of hm rfl) | with_reducible exact Or.inr rfl | skip))
    | (fail_if_no_progress extract_lets) | split | (refine Keeps.snd (by assumption) ?_)
    | (refine Keeps.fst (by assumption) ?_) | (refine Keeps.snd2 (by assumption) ?_) | (dsimp only)
    | (dsimp +zetaDelta only)

theorem keeps_finishDefaults {msk : Nat} {s₀ s : State} (step : Nat) (apply : State → State × Bool) (h_apply : ∀ (t : State), Keeps msk s₀ t → Keeps msk s₀ (apply t).1) (hk : Keeps msk s₀ s)
    (hm : Sub 0x6948BFCBA msk := by first | assumption | (apply Sub.of; assumption; rfl)) :
    Keeps msk s₀ (finishDefaults step apply s) := by
  unfold finishDefaults
  repeat' first
    | (with_reducible refine KeepsO.ite ?_ ?_) | (with_reducible refine KeepsO.some ?_)
    | (with_reducible exact KeepsO.none) | (with_reducible assumption)
    | ((with_reducible refine Sub.of hm ?_); exact rfl) | (with_reducible refine Keeps.ite ?_ ?_)
    | (with_reducible apply h_apply) | (with_reducible apply keeps_finish)
    | (fail_if_no_progress ((with_reducible refine Keeps.upd ?_ ?_ ?_ ?_ ?_ ?_ ?_ ?_ ?_ ?_ ?_ ?_ ?_ ?_ ?_ ?_ ?_ ?_ ?_ ?_ ?_ ?_ ?_ ?_ ?_ ?_ ?_ ?_ ?_ ?_ ?_) <;> first | exact Or.inl (Sub.of hm rfl) | with_reducible exact Or.inr rfl | skip))
    | (fail_if_no_progress extract_lets) | split | (refine Keeps.snd (by assumption) ?_)
    | (refine Keeps.fst (by assumption) ?_) | (refine Keeps.snd2 (by assumption) ?_) | (dsimp only)
    | (dsimp +zetaDelta only) | (exact Keeps.of_some (by assumption) (by assumption))

theorem keeps_applyPositions {msk : Nat} {s₀ s : State} (hk : Keeps msk s₀ s)
    (hm : Sub 0x6E3F004B2 msk := by first | assumption | (apply Sub.of; assumption; rfl)) : Keeps msk s₀ (applyPositions s).1 := by
  unfold applyPositions
  extract_lets emus
  have h1 := keeps_applyAll posConfigBody 0x0301 (fun _ _ h => keeps_posConfigBody _ h) (defaultList s 3 1) hk
  split
  · rename_i t e; rw [e] at h1; exact h1
  · rename_i t e; rw [e] at h1
    have h2 := keeps_applyAll emuConfigBody 0x0304 (fun _ _ h => keeps_emuConfigBody _ h) emus h1
    split
    · rename_i u e; rw [e] at h2; exact h2
    · rename_i u e; rw [e] at h2
      extract_lets presets
      split
      · exact keeps_applyAll _ _ (fun _ _ h => keeps_posPresetBody _ h) _ h2
      · exact keeps_applyAll _ _ (fun _ _ h => keeps_posPresetBody _ h) _ h2

theorem keeps_execPositionChannels {msk : Nat} {s₀ s : State} (dt : Nat) (hk : Keeps msk s₀ (advance dt s))
    (hm : Sub 0x6F7FBFCBA msk := by first | assumption | (apply Sub.of; assumption; rfl)) :
    KeepsA msk s₀ (execPositionChannels dt s) := by
  unfold execPositionChannels
  repeat' first
    | (with_reducible refine KeepsA.next ?_) | (with_reducible assumption)
    | ((with_reducible refine Sub.of hm ?_); exact rfl) | (with_reducible refine Keeps.ite ?_ ?_)
    | (with_reducible apply keeps_finishDefaults) | (with_reducible apply keeps_applyPositions)
    | (fail_if_no_progress ((with_reducible refine Keeps.upd ?_ ?_ ?_ ?_ ?_ ?_ ?_ ?_ ?_ ?_ ?_ ?_ ?_ ?_ ?_ ?_ ?_ ?_ ?_ ?_ ?_ ?_ ?_ ?_ ?_ ?_ ?_ ?_ ?_ ?_ ?_) <;> first | exact Or.inl (Sub.of hm rfl) | with_reducible exact Or.inr rfl | skip))
    | (intro _ _ _) | (intro _ _) | (fail_if_no_progress extract_lets) | split | (refine Keeps.snd (by assumption) ?_)
    | (refine Keeps.fst (by assumption) ?_) | (refine Keeps.snd2 (by assumption) ?_) | (dsimp only)
    | (dsimp +zetaDelta only)

theorem keeps_applyAudio {msk : Nat} {s₀ s : State} (hk : Keeps msk s₀ s)
    (hm : Sub 0x6FF018092 msk := by first | assumption | (apply Sub.of; assumption; rfl)) : Keeps msk s₀ (applyAudio s).1 :=
  keeps_applyAll _ _ (fun _ _ h => keeps_audioConfigBody _ h) _ hk

theorem keeps_execAudioInputs {msk : Nat} {s₀ s : State} (dt : Nat) (hk : Keeps msk s₀ (advance dt s))
    (hm : Sub 0x6FF8BFCBA msk := by first | assumption | (apply Sub.of; assumption; rfl)) :
    KeepsA msk s₀ (execAudioInputs dt s) := by
  unfold execAudioInputs
  repeat' first
    | (with_reducible refine KeepsA.next ?_) | (with_reducible assumption)
    | ((with_reducible refine Sub.of hm ?_); exact rfl) | (with_reducible refine Keeps.ite ?_ ?_)
    | (with_reducible apply keeps_finishDefaults) | (with_reducible apply keeps_applyAudio)
    | (fail_if_no_progress ((with_reducible refine Keeps.upd ?_ ?_ ?_ ?_ ?_ ?_ ?_ ?_ ?_ ?_ ?_ ?_ ?_ ?_ ?_ ?_ ?_ ?_ ?_ ?_ ?_ ?_ ?_ ?_ ?_ ?_ ?_ ?_ ?_ ?_ ?_) <;> first | exact Or.inl (Sub.of hm rfl) | with_reducible exact Or.inr rfl | skip))
    | (intro _ _ _) | (intro _ _) | (fail_if_no_progress extract_lets) | split | (refine Keeps.snd (by assumption) ?_)
    | (refine Keeps.fst (by assumption) ?_) | (refine Keeps.snd2 (by assumption) ?_) | (dsimp only)
    | (dsimp +zetaDelta only)

theorem keeps_applyWitness {msk : Nat} {s₀ s : State} (hk : Keeps msk s₀ s)
    (hm : Sub 0x50000000 msk := by first | assumption | (apply Sub.of; assumption; rfl)) : Keeps msk s₀ (applyWitness s).1 := by
  unfold applyWitness
  extract_lets item
  have h1 := keeps_applyAll witnessConfigBody 0x0901 (fun _ _ h => keeps_witnessConfigBody _ h) (item 1) hk
  split
  · rename_i t e; rw [e] at h1; exact h1
  · rename_i t e; rw [e] at h1; exact keeps_applyAll _ _ (fun _ _ h => keeps_witnessArmBody _ h) _ h1

theorem keeps_execWitnessArmStep {msk : Nat} {s₀ s : State} (dt : Nat) (hk : Keeps msk s₀ (advance dt s))
    (hm : Sub 0x6D48BFCBA msk := by first | assumption | (apply Sub.of; assumption; rfl)) :
    KeepsA msk s₀ (execWitnessArmStep dt s) := by
  unfold execWitnessArmStep
  repeat' first
    | (with_reducible refine KeepsA.next ?_) | (with_reducible assumption)
    | ((with_reducible refine Sub.of hm ?_); exact rfl) | (with_reducible refine Keeps.ite ?_ ?_)
    | (with_reducible apply keeps_finishDefaults) | (with_reducible apply keeps_applyWitness)
    | (fail_if_no_progress ((with_reducible refine Keeps.upd ?_ ?_ ?_ ?_ ?_ ?_ ?_ ?_ ?_ ?_ ?_ ?_ ?_ ?_ ?_ ?_ ?_ ?_ ?_ ?_ ?_ ?_ ?_ ?_ ?_ ?_ ?_ ?_ ?_ ?_ ?_) <;> first | exact Or.inl (Sub.of hm rfl) | with_reducible exact Or.inr rfl | skip))
    | (intro _ _ _) | (intro _ _) | (fail_if_no_progress extract_lets) | split | (refine Keeps.snd (by assumption) ?_)
    | (refine Keeps.fst (by assumption) ?_) | (refine Keeps.snd2 (by assumption) ?_) | (dsimp only)
    | (dsimp +zetaDelta only)

theorem keeps_startCloses {msk : Nat} {s₀ s : State} (hk : Keeps msk s₀ s)
    (hm : Sub 0x280007892 msk := by first | assumption | (apply Sub.of; assumption; rfl)) :
    Keeps msk s₀ (startCloses s) := by
  unfold startCloses
  repeat' first
    | (with_reducible assumption) | ((with_reducible refine Sub.of hm ?_); exact rfl)
    | (with_reducible refine Keeps.ite ?_ ?_) | (with_reducible apply keeps_stepDone)
    | (with_reducible apply keeps_State_modStart) | (with_reducible apply keeps_State_modPower)
    | (with_reducible apply keeps_noticeAll) | (with_reducible apply keeps_post)
    | (with_reducible apply keeps_nextRetry)
    | (fail_if_no_progress ((with_reducible refine Keeps.upd ?_ ?_ ?_ ?_ ?_ ?_ ?_ ?_ ?_ ?_ ?_ ?_ ?_ ?_ ?_ ?_ ?_ ?_ ?_ ?_ ?_ ?_ ?_ ?_ ?_ ?_ ?_ ?_ ?_ ?_ ?_) <;> first | exact Or.inl (Sub.of hm rfl) | with_reducible exact Or.inr rfl | skip))
    | (fail_if_no_progress extract_lets) | split | (refine Keeps.snd (by assumption) ?_)
    | (refine Keeps.fst (by assumption) ?_) | (refine Keeps.snd2 (by assumption) ?_) | (dsimp only)
    | (dsimp +zetaDelta only)

theorem keeps_execStartDone {msk : Nat} {s₀ s : State} (dt : Nat) (hk : Keeps msk s₀ (advance dt s))
    (hm : Sub 0x28001F892 msk := by first | assumption | (apply Sub.of; assumption; rfl)) :
    KeepsA msk s₀ (execStartDone dt s) := by
  unfold execStartDone
  repeat' first
    | (with_reducible refine KeepsA.next ?_) | (with_reducible assumption)
    | ((with_reducible refine Sub.of hm ?_); exact rfl) | (with_reducible refine Keeps.ite ?_ ?_)
    | (with_reducible apply keeps_withEffects) | (with_reducible apply keeps_startCloses)
    | (fail_if_no_progress ((with_reducible refine Keeps.upd ?_ ?_ ?_ ?_ ?_ ?_ ?_ ?_ ?_ ?_ ?_ ?_ ?_ ?_ ?_ ?_ ?_ ?_ ?_ ?_ ?_ ?_ ?_ ?_ ?_ ?_ ?_ ?_ ?_ ?_ ?_) <;> first | exact Or.inl (Sub.of hm rfl) | with_reducible exact Or.inr rfl | skip))
    | (intro _ _ _) | (intro _ _) | (fail_if_no_progress extract_lets) | split | (refine Keeps.snd (by assumption) ?_)
    | (refine Keeps.fst (by assumption) ?_) | (refine Keeps.snd2 (by assumption) ?_) | (dsimp only)
    | (dsimp +zetaDelta only)

theorem keeps_stepTimesOut {msk : Nat} {s₀ s : State} (step : Nat) (inst : Nat) (hk : Keeps msk s₀ s)
    (hm : Sub 0x6948BFCBA msk := by first | assumption | (apply Sub.of; assumption; rfl)) :
    Keeps msk s₀ (stepTimesOut step inst s) := by
  unfold stepTimesOut
  repeat' first
    | (with_reducible assumption) | ((with_reducible refine Sub.of hm ?_); exact rfl)
    | (with_reducible refine Keeps.ite ?_ ?_) | (with_reducible apply keeps_withEffects)
    | (with_reducible apply keeps_failStep) | (with_reducible apply keeps_State_modStart)
    | (fail_if_no_progress ((with_reducible refine Keeps.upd ?_ ?_ ?_ ?_ ?_ ?_ ?_ ?_ ?_ ?_ ?_ ?_ ?_ ?_ ?_ ?_ ?_ ?_ ?_ ?_ ?_ ?_ ?_ ?_ ?_ ?_ ?_ ?_ ?_ ?_ ?_) <;> first | exact Or.inl (Sub.of hm rfl) | with_reducible exact Or.inr rfl | skip))
    | (intro _ _ _) | (intro _ _) | (fail_if_no_progress extract_lets) | split | (refine Keeps.snd (by assumption) ?_)
    | (refine Keeps.fst (by assumption) ?_) | (refine Keeps.snd2 (by assumption) ?_) | (dsimp only)
    | (dsimp +zetaDelta only)

theorem keeps_wakeTimesOut {msk : Nat} {s₀ s : State} (hk : Keeps msk s₀ s)
    (hm : Sub 0x800 msk := by first | assumption | (apply Sub.of; assumption; rfl)) :
    Keeps msk s₀ (wakeTimesOut s) := by
  unfold wakeTimesOut
  repeat' first
    | (with_reducible assumption) | ((with_reducible refine Sub.of hm ?_); exact rfl)
    | (with_reducible refine Keeps.ite ?_ ?_) | (with_reducible apply keeps_State_modPower)
    | (fail_if_no_progress ((with_reducible refine Keeps.upd ?_ ?_ ?_ ?_ ?_ ?_ ?_ ?_ ?_ ?_ ?_ ?_ ?_ ?_ ?_ ?_ ?_ ?_ ?_ ?_ ?_ ?_ ?_ ?_ ?_ ?_ ?_ ?_ ?_ ?_ ?_) <;> first | exact Or.inl (Sub.of hm rfl) | with_reducible exact Or.inr rfl | skip))
    | (fail_if_no_progress extract_lets) | split | (refine Keeps.snd (by assumption) ?_)
    | (refine Keeps.fst (by assumption) ?_) | (refine Keeps.snd2 (by assumption) ?_) | (dsimp only)
    | (dsimp +zetaDelta only)

theorem keeps_execStartStepTimeout {msk : Nat} {s₀ s : State} (dt : Nat) (step : Nat) (inst : Nat) (hk : Keeps msk s₀ (advance dt s))
    (hm : Sub 0x6948BFCBA msk := by first | assumption | (apply Sub.of; assumption; rfl)) :
    KeepsA msk s₀ (execStartStepTimeout dt step inst s) := by
  unfold execStartStepTimeout
  repeat' first
    | (with_reducible refine KeepsA.next ?_) | (with_reducible assumption)
    | ((with_reducible refine Sub.of hm ?_); exact rfl) | (with_reducible refine Keeps.ite ?_ ?_)
    | (with_reducible apply keeps_wakeTimesOut) | (with_reducible apply keeps_stepTimesOut)
    | (fail_if_no_progress ((with_reducible refine Keeps.upd ?_ ?_ ?_ ?_ ?_ ?_ ?_ ?_ ?_ ?_ ?_ ?_ ?_ ?_ ?_ ?_ ?_ ?_ ?_ ?_ ?_ ?_ ?_ ?_ ?_ ?_ ?_ ?_ ?_ ?_ ?_) <;> first | exact Or.inl (Sub.of hm rfl) | with_reducible exact Or.inr rfl | skip))
    | (fail_if_no_progress extract_lets) | split | (refine Keeps.snd (by assumption) ?_)
    | (refine Keeps.fst (by assumption) ?_) | (refine Keeps.snd2 (by assumption) ?_) | (dsimp only)
    | (dsimp +zetaDelta only)

theorem keeps_lateRetryEnds {msk : Nat} {s₀ s : State} (step : Nat) (inst : Nat) (res : StepResult) (detail : Nat) (answers : List (List I2cAnswer)) (frame : Bool) (hk : Keeps msk s₀ s)
    (hm : Sub 0x6FFFBFCBA msk := by first | assumption | (apply Sub.of; assumption; rfl)) :
    Keeps msk s₀ (lateRetryEnds step inst res detail answers frame s) := by
  unfold lateRetryEnds
  repeat' first
    | (with_reducible refine KeepsO.ite ?_ ?_) | (with_reducible refine KeepsO.some ?_)
    | (with_reducible exact KeepsO.none) | (with_reducible assumption)
    | ((with_reducible refine Sub.of hm ?_); exact rfl) | (with_reducible refine Keeps.ite ?_ ?_)
    | (with_reducible apply keeps_finish) | (with_reducible apply keeps_cameraStep)
    | (with_reducible apply keeps_finishDefaults) | (with_reducible apply keeps_applyPositions)
    | (with_reducible apply keeps_applyAudio) | (with_reducible apply keeps_applyWitness)
    | (fail_if_no_progress ((with_reducible refine Keeps.upd ?_ ?_ ?_ ?_ ?_ ?_ ?_ ?_ ?_ ?_ ?_ ?_ ?_ ?_ ?_ ?_ ?_ ?_ ?_ ?_ ?_ ?_ ?_ ?_ ?_ ?_ ?_ ?_ ?_ ?_ ?_) <;> first | exact Or.inl (Sub.of hm rfl) | with_reducible exact Or.inr rfl | skip))
    | (intro _ _ _) | (intro _ _) | (fail_if_no_progress extract_lets) | split | (refine Keeps.snd (by assumption) ?_)
    | (refine Keeps.fst (by assumption) ?_) | (refine Keeps.snd2 (by assumption) ?_) | (dsimp only)
    | (dsimp +zetaDelta only) | (exact Keeps.of_some (by assumption) (by assumption))

theorem keeps_execLateRetry {msk : Nat} {s₀ s : State} (dt : Nat) (step : Nat) (inst : Nat) (res : StepResult) (detail : Nat) (answers : List (List I2cAnswer)) (frame : Bool) (hk : Keeps msk s₀ (advance dt s))
    (hm : Sub 0x6FFFBFCBA msk := by first | assumption | (apply Sub.of; assumption; rfl)) :
    KeepsA msk s₀ (execLateRetry dt step inst res detail answers frame s) := by
  unfold execLateRetry
  repeat' first
    | (with_reducible refine KeepsA.next ?_) | (with_reducible assumption)
    | ((with_reducible refine Sub.of hm ?_); exact rfl) | (with_reducible refine Keeps.ite ?_ ?_)
    | (with_reducible apply keeps_withEffects) | (with_reducible apply keeps_lateRetryEnds)
    | (fail_if_no_progress ((with_reducible refine Keeps.upd ?_ ?_ ?_ ?_ ?_ ?_ ?_ ?_ ?_ ?_ ?_ ?_ ?_ ?_ ?_ ?_ ?_ ?_ ?_ ?_ ?_ ?_ ?_ ?_ ?_ ?_ ?_ ?_ ?_ ?_ ?_) <;> first | exact Or.inl (Sub.of hm rfl) | with_reducible exact Or.inr rfl | skip))
    | (intro _ _ _) | (intro _ _) | (fail_if_no_progress extract_lets) | split | (refine Keeps.snd (by assumption) ?_)
    | (refine Keeps.fst (by assumption) ?_) | (refine Keeps.snd2 (by assumption) ?_) | (dsimp only)
    | (dsimp +zetaDelta only)

end Sys2Proof.Machine
end

