-- ==== Sys2Proof/Laws/Serve.lean ====
section
/-! SUPPORT. What the shared operations of a request and of a register access do where nothing stands in their way. -/

set_option Elab.async false

namespace Sys2Proof.Machine

/-- A request that comes to its own section is answered by it. -/
theorem serve_asked {a : State} {r : Req} {h : Hamper} {op minor : Nat} {pf0 : Bool} (body : State → Hamper → Verdict)
    (k : Asked a r h op minor pf0) : serve r op minor pf0 body a = answer h (body a h) a := by
  obtain ⟨fetched, opcode, header, alive, running, version, sender, door, block⟩ := k
  have h1 : (pf0 && h.fn != 0) = false := by
    cases pf0 with
    | false => rfl
    | true => simp [sender rfl]
  have h2 : judge a h minor pf0 body = body a h := by
    unfold judge
    rw [if_neg alive, if_neg (by simp [door]), if_neg (by simp [header]), if_neg (by simp [running]),
      if_neg (Nat.not_lt.mpr version), if_neg (by simp [h1]), if_neg (by simp [block])]
  unfold serve
  rw [fetched]
  simp only [opcode, if_true, h2]

/-- An access that reaches a function's registers below their common end is neither refused nor dropped. -/
theorem reaches_reached {a : State} {fn : Fn} {off : Nat} (k : Reached a fn) (ho : off < 0x40000) :
    reaches a fn off = some true := by
  have h1 : since a (some a.link.rrsFrom) (ticksMs 60) = true := by simp [since, k.2.1]
  have h2 : ((a.fns[fn]).mode != .absent && (a.fns[fn]).mode != .fencing) = true := by
    rcases k.2.2 with h | h <;> (rw [h]; decide)
  have h3 : off < if fn = 0 then 0x100000 else 0x40000 := by split <;> omega
  unfold reaches
  rw [if_neg (by simp [k.1])]
  rw [h1, Bool.true_and, h2, decide_eq_true h3, Bool.true_and]

/-- A register outside the windows of resources passes for BARE and READY functions. -/
theorem gateOf_open {a : State} {fn : Fn} {off : Nat} (k : Reached a fn) (hw : windowOwner a off = none) :
    gateOf a fn off = .pass := by
  have h1 : ¬ ((a.fns[fn]).mode = .wedged ∧ 0x2000 ≤ off) := by
    rcases k.2.2 with h | h <;> (rw [h]; exact fun x => FnMode.noConfusion x.1)
  unfold gateOf
  rw [if_neg h1, hw]

/-- A register in a window passes for the resource's owner. -/
theorem gateOf_owned {a : State} {fn : Fn} {off i : Nat} (k : Reached a fn) (hw : windowOwner a off = some (fn, i)) :
    gateOf a fn off = .pass := by
  have h1 : ¬ ((a.fns[fn]).mode = .wedged ∧ 0x2000 ≤ off) := by
    rcases k.2.2 with h | h <;> (rw [h]; exact fun x => FnMode.noConfusion x.1)
  unfold gateOf
  rw [if_neg h1, hw]
  simp

/-- A write that passes acts on the register. -/
theorem writeRegister_pass {a : State} {fn : Fn} {off : Nat} (op : State → State) (hr : reaches a fn off = some true)
    (hg : gateOf a fn off = .pass) : writeRegister fn off op a = op a := by
  simp [writeRegister, hr, gated, hg]

/-- A read that passes completes with the register. -/
theorem readRegister_pass {a : State} {fn : Fn} {off : Nat} (op : State → Word × State)
    (hr : reaches a fn off = some true) (hg : gateOf a fn off = .pass) :
    readRegister fn off op a = emit (.completion fn [(op a).1]) (op a).2 := by
  simp [readRegister, hr, gated, hg]

/-! ### The windows of resources (R43) -/

theorem windowOwner_queue (a : State) (i : Fin 32) (off k : Nat) (hk : k < 0x20) (ho : off = 0x3000 + 0x20 * i + k) :
    windowOwner a off = some (a.plan.queues[i], i.val) := by
  have hi := i.isLt
  have e : entryAt 32 0x20 off = some i := by
    have h : off % (32 * 0x20) / 0x20 = i.val := by omega
    unfold entryAt fin?
    rw [h, dif_pos hi]
  unfold windowOwner
  repeat' first
    | rw [if_pos (by omega)]
    | rw [if_neg (by omega)]
  rw [e]; rfl

theorem windowOwner_stream (a : State) (i : Fin 32) (off k : Nat) (hk : k < 0x20) (ho : off = 0x8000 + 0x20 * i + k) :
    windowOwner a off = some (a.plan.streams[i], i.val) := by
  have hi := i.isLt
  have e : entryAt 32 0x20 off = some i := by
    have h : off % (32 * 0x20) / 0x20 = i.val := by omega
    unfold entryAt fin?
    rw [h, dif_pos hi]
  unfold windowOwner
  repeat' first
    | rw [if_pos (by omega)]
    | rw [if_neg (by omega)]
  rw [e]; rfl

theorem windowOwner_hopper (a : State) (i : Fin 16) (off k : Nat) (hk : k < 0x20) (ho : off = 0x8400 + 0x20 * i + k) :
    windowOwner a off = some (a.plan.hoppers[i], i.val) := by
  have hi := i.isLt
  have e : entryAt 16 0x20 off = some i := by
    have h : off % (16 * 0x20) / 0x20 = i.val := by omega
    unfold entryAt fin?
    rw [h, dif_pos hi]
  unfold windowOwner
  repeat' first
    | rw [if_pos (by omega)]
    | rw [if_neg (by omega)]
  rw [e]; rfl

theorem windowOwner_channel (a : State) (i : Fin 64) (off k : Nat) (hk : k < 0x100) (ho : off = 0x10000 + 0x100 * i + k) :
    windowOwner a off = some (a.plan.channels[i], i.val) := by
  have hi := i.isLt
  have e : entryAt 64 0x100 off = some i := by
    have h : off % (64 * 0x100) / 0x100 = i.val := by omega
    unfold entryAt fin?
    rw [h, dif_pos hi]
  unfold windowOwner
  repeat' first
    | rw [if_pos (by omega)]
    | rw [if_neg (by omega)]
  rw [e]; rfl

theorem windowOwner_comparator (a : State) (i : Fin 16) (off k : Nat) (hk : k < 0x20) (ho : off = 0x21200 + 0x20 * i + k) :
    windowOwner a off = some (a.plan.comparators[i], i.val) := by
  have hi := i.isLt
  have e : entryAt 16 0x20 off = some i := by
    have h : off % (16 * 0x20) / 0x20 = i.val := by omega
    unfold entryAt fin?
    rw [h, dif_pos hi]
  unfold windowOwner
  repeat' first
    | rw [if_pos (by omega)]
    | rw [if_neg (by omega)]
  rw [e]; rfl

end Sys2Proof.Machine
end

