-- ==== Sys2Proof/Laws/State.lean ====
section
/-! SUPPORT. Each update of the state and each of its fields: the field that the update changes, and those it leaves. -/

namespace Sys2Proof.Machine

@[simp] theorem State.modFn_elapsed (s : State) (f : Fn) (g : FnState → FnState) : (State.modFn s f g).elapsed = s.elapsed := rfl
@[simp] theorem State.modFn_pending (s : State) (f : Fn) (g : FnState → FnState) : (State.modFn s f g).pending = s.pending := rfl
@[simp] theorem State.modFn_link (s : State) (f : Fn) (g : FnState → FnState) : (State.modFn s f g).link = s.link := rfl
@[simp] theorem State.modFn_lastServed (s : State) (f : Fn) (g : FnState → FnState) : (State.modFn s f g).lastServed = s.lastServed := rfl
@[simp] theorem State.modFn_plan (s : State) (f : Fn) (g : FnState → FnState) : (State.modFn s f g).plan = s.plan := rfl
@[simp] theorem State.modFn_queues (s : State) (f : Fn) (g : FnState → FnState) : (State.modFn s f g).queues = s.queues := rfl
@[simp] theorem State.modFn_accepted (s : State) (f : Fn) (g : FnState → FnState) : (State.modFn s f g).accepted = s.accepted := rfl
@[simp] theorem State.modFn_owed (s : State) (f : Fn) (g : FnState → FnState) : (State.modFn s f g).owed = s.owed := rfl
@[simp] theorem State.modFn_log (s : State) (f : Fn) (g : FnState → FnState) : (State.modFn s f g).log = s.log := rfl
@[simp] theorem State.modFn_mirror (s : State) (f : Fn) (g : FnState → FnState) : (State.modFn s f g).mirror = s.mirror := rfl
@[simp] theorem State.modFn_mirrorNumber (s : State) (f : Fn) (g : FnState → FnState) : (State.modFn s f g).mirrorNumber = s.mirrorNumber := rfl
@[simp] theorem State.modFn_clk (s : State) (f : Fn) (g : FnState → FnState) : (State.modFn s f g).clk = s.clk := rfl
@[simp] theorem State.modFn_pwr (s : State) (f : Fn) (g : FnState → FnState) : (State.modFn s f g).pwr = s.pwr := rfl
@[simp] theorem State.modFn_start (s : State) (f : Fn) (g : FnState → FnState) : (State.modFn s f g).start = s.start := rfl
@[simp] theorem State.modFn_mram (s : State) (f : Fn) (g : FnState → FnState) : (State.modFn s f g).mram = s.mram := rfl
@[simp] theorem State.modFn_meas (s : State) (f : Fn) (g : FnState → FnState) : (State.modFn s f g).meas = s.meas := rfl
@[simp] theorem State.modFn_guard (s : State) (f : Fn) (g : FnState → FnState) : (State.modFn s f g).guard = s.guard := rfl
@[simp] theorem State.modFn_ports (s : State) (f : Fn) (g : FnState → FnState) : (State.modFn s f g).ports = s.ports := rfl
@[simp] theorem State.modFn_streams (s : State) (f : Fn) (g : FnState → FnState) : (State.modFn s f g).streams = s.streams := rfl
@[simp] theorem State.modFn_deviceEpoch (s : State) (f : Fn) (g : FnState → FnState) : (State.modFn s f g).deviceEpoch = s.deviceEpoch := rfl
@[simp] theorem State.modFn_epochs (s : State) (f : Fn) (g : FnState → FnState) : (State.modFn s f g).epochs = s.epochs := rfl
@[simp] theorem State.modFn_pos (s : State) (f : Fn) (g : FnState → FnState) : (State.modFn s f g).pos = s.pos := rfl
@[simp] theorem State.modFn_emu (s : State) (f : Fn) (g : FnState → FnState) : (State.modFn s f g).emu = s.emu := rfl
@[simp] theorem State.modFn_cmps (s : State) (f : Fn) (g : FnState → FnState) : (State.modFn s f g).cmps = s.cmps := rfl
@[simp] theorem State.modFn_trigs (s : State) (f : Fn) (g : FnState → FnState) : (State.modFn s f g).trigs = s.trigs := rfl
@[simp] theorem State.modFn_hoppers (s : State) (f : Fn) (g : FnState → FnState) : (State.modFn s f g).hoppers = s.hoppers := rfl
@[simp] theorem State.modFn_hopEvent (s : State) (f : Fn) (g : FnState → FnState) : (State.modFn s f g).hopEvent = s.hopEvent := rfl
@[simp] theorem State.modFn_prep (s : State) (f : Fn) (g : FnState → FnState) : (State.modFn s f g).prep = s.prep := rfl
@[simp] theorem State.modFn_audio (s : State) (f : Fn) (g : FnState → FnState) : (State.modFn s f g).audio = s.audio := rfl
@[simp] theorem State.modFn_weir (s : State) (f : Fn) (g : FnState → FnState) : (State.modFn s f g).weir = s.weir := rfl
@[simp] theorem State.modFn_chans (s : State) (f : Fn) (g : FnState → FnState) : (State.modFn s f g).chans = s.chans := rfl
@[simp] theorem State.modFn_wit (s : State) (f : Fn) (g : FnState → FnState) : (State.modFn s f g).wit = s.wit := rfl
@[simp] theorem State.modFn_millpond (s : State) (f : Fn) (g : FnState → FnState) : (State.modFn s f g).millpond = s.millpond := rfl
@[simp] theorem State.modFn_lpddr (s : State) (f : Fn) (g : FnState → FnState) : (State.modFn s f g).lpddr = s.lpddr := rfl
@[simp] theorem State.modFn_out (s : State) (f : Fn) (g : FnState → FnState) : (State.modFn s f g).out = s.out := rfl
@[simp] theorem State.modFn_drawn (s : State) (f : Fn) (g : FnState → FnState) : (State.modFn s f g).drawn = s.drawn := rfl
@[simp] theorem State.modFn_fns (s : State) (f : Fn) (g : FnState → FnState) :
    (State.modFn s f g).fns = vmod s.fns f g := rfl

@[simp] theorem State.modQueue_elapsed (s : State) (q : Fin 32) (g : Queue → Queue) : (State.modQueue s q g).elapsed = s.elapsed := rfl
@[simp] theorem State.modQueue_pending (s : State) (q : Fin 32) (g : Queue → Queue) : (State.modQueue s q g).pending = s.pending := rfl
@[simp] theorem State.modQueue_link (s : State) (q : Fin 32) (g : Queue → Queue) : (State.modQueue s q g).link = s.link := rfl
@[simp] theorem State.modQueue_fns (s : State) (q : Fin 32) (g : Queue → Queue) : (State.modQueue s q g).fns = s.fns := rfl
@[simp] theorem State.modQueue_lastServed (s : State) (q : Fin 32) (g : Queue → Queue) : (State.modQueue s q g).lastServed = s.lastServed := rfl
@[simp] theorem State.modQueue_plan (s : State) (q : Fin 32) (g : Queue → Queue) : (State.modQueue s q g).plan = s.plan := rfl
@[simp] theorem State.modQueue_accepted (s : State) (q : Fin 32) (g : Queue → Queue) : (State.modQueue s q g).accepted = s.accepted := rfl
@[simp] theorem State.modQueue_owed (s : State) (q : Fin 32) (g : Queue → Queue) : (State.modQueue s q g).owed = s.owed := rfl
@[simp] theorem State.modQueue_log (s : State) (q : Fin 32) (g : Queue → Queue) : (State.modQueue s q g).log = s.log := rfl
@[simp] theorem State.modQueue_mirror (s : State) (q : Fin 32) (g : Queue → Queue) : (State.modQueue s q g).mirror = s.mirror := rfl
@[simp] theorem State.modQueue_mirrorNumber (s : State) (q : Fin 32) (g : Queue → Queue) : (State.modQueue s q g).mirrorNumber = s.mirrorNumber := rfl
@[simp] theorem State.modQueue_clk (s : State) (q : Fin 32) (g : Queue → Queue) : (State.modQueue s q g).clk = s.clk := rfl
@[simp] theorem State.modQueue_pwr (s : State) (q : Fin 32) (g : Queue → Queue) : (State.modQueue s q g).pwr = s.pwr := rfl
@[simp] theorem State.modQueue_start (s : State) (q : Fin 32) (g : Queue → Queue) : (State.modQueue s q g).start = s.start := rfl
@[simp] theorem State.modQueue_mram (s : State) (q : Fin 32) (g : Queue → Queue) : (State.modQueue s q g).mram = s.mram := rfl
@[simp] theorem State.modQueue_meas (s : State) (q : Fin 32) (g : Queue → Queue) : (State.modQueue s q g).meas = s.meas := rfl
@[simp] theorem State.modQueue_guard (s : State) (q : Fin 32) (g : Queue → Queue) : (State.modQueue s q g).guard = s.guard := rfl
@[simp] theorem State.modQueue_ports (s : State) (q : Fin 32) (g : Queue → Queue) : (State.modQueue s q g).ports = s.ports := rfl
@[simp] theorem State.modQueue_streams (s : State) (q : Fin 32) (g : Queue → Queue) : (State.modQueue s q g).streams = s.streams := rfl
@[simp] theorem State.modQueue_deviceEpoch (s : State) (q : Fin 32) (g : Queue → Queue) : (State.modQueue s q g).deviceEpoch = s.deviceEpoch := rfl
@[simp] theorem State.modQueue_epochs (s : State) (q : Fin 32) (g : Queue → Queue) : (State.modQueue s q g).epochs = s.epochs := rfl
@[simp] theorem State.modQueue_pos (s : State) (q : Fin 32) (g : Queue → Queue) : (State.modQueue s q g).pos = s.pos := rfl
@[simp] theorem State.modQueue_emu (s : State) (q : Fin 32) (g : Queue → Queue) : (State.modQueue s q g).emu = s.emu := rfl
@[simp] theorem State.modQueue_cmps (s : State) (q : Fin 32) (g : Queue → Queue) : (State.modQueue s q g).cmps = s.cmps := rfl
@[simp] theorem State.modQueue_trigs (s : State) (q : Fin 32) (g : Queue → Queue) : (State.modQueue s q g).trigs = s.trigs := rfl
@[simp] theorem State.modQueue_hoppers (s : State) (q : Fin 32) (g : Queue → Queue) : (State.modQueue s q g).hoppers = s.hoppers := rfl
@[simp] theorem State.modQueue_hopEvent (s : State) (q : Fin 32) (g : Queue → Queue) : (State.modQueue s q g).hopEvent = s.hopEvent := rfl
@[simp] theorem State.modQueue_prep (s : State) (q : Fin 32) (g : Queue → Queue) : (State.modQueue s q g).prep = s.prep := rfl
@[simp] theorem State.modQueue_audio (s : State) (q : Fin 32) (g : Queue → Queue) : (State.modQueue s q g).audio = s.audio := rfl
@[simp] theorem State.modQueue_weir (s : State) (q : Fin 32) (g : Queue → Queue) : (State.modQueue s q g).weir = s.weir := rfl
@[simp] theorem State.modQueue_chans (s : State) (q : Fin 32) (g : Queue → Queue) : (State.modQueue s q g).chans = s.chans := rfl
@[simp] theorem State.modQueue_wit (s : State) (q : Fin 32) (g : Queue → Queue) : (State.modQueue s q g).wit = s.wit := rfl
@[simp] theorem State.modQueue_millpond (s : State) (q : Fin 32) (g : Queue → Queue) : (State.modQueue s q g).millpond = s.millpond := rfl
@[simp] theorem State.modQueue_lpddr (s : State) (q : Fin 32) (g : Queue → Queue) : (State.modQueue s q g).lpddr = s.lpddr := rfl
@[simp] theorem State.modQueue_out (s : State) (q : Fin 32) (g : Queue → Queue) : (State.modQueue s q g).out = s.out := rfl
@[simp] theorem State.modQueue_drawn (s : State) (q : Fin 32) (g : Queue → Queue) : (State.modQueue s q g).drawn = s.drawn := rfl
@[simp] theorem State.modQueue_queues (s : State) (q : Fin 32) (g : Queue → Queue) :
    (State.modQueue s q g).queues = vmod s.queues q g := rfl

@[simp] theorem State.modLog_elapsed (s : State) (g : Log → Log) : (State.modLog s g).elapsed = s.elapsed := rfl
@[simp] theorem State.modLog_pending (s : State) (g : Log → Log) : (State.modLog s g).pending = s.pending := rfl
@[simp] theorem State.modLog_link (s : State) (g : Log → Log) : (State.modLog s g).link = s.link := rfl
@[simp] theorem State.modLog_fns (s : State) (g : Log → Log) : (State.modLog s g).fns = s.fns := rfl
@[simp] theorem State.modLog_lastServed (s : State) (g : Log → Log) : (State.modLog s g).lastServed = s.lastServed := rfl
@[simp] theorem State.modLog_plan (s : State) (g : Log → Log) : (State.modLog s g).plan = s.plan := rfl
@[simp] theorem State.modLog_queues (s : State) (g : Log → Log) : (State.modLog s g).queues = s.queues := rfl
@[simp] theorem State.modLog_accepted (s : State) (g : Log → Log) : (State.modLog s g).accepted = s.accepted := rfl
@[simp] theorem State.modLog_owed (s : State) (g : Log → Log) : (State.modLog s g).owed = s.owed := rfl
@[simp] theorem State.modLog_mirror (s : State) (g : Log → Log) : (State.modLog s g).mirror = s.mirror := rfl
@[simp] theorem State.modLog_mirrorNumber (s : State) (g : Log → Log) : (State.modLog s g).mirrorNumber = s.mirrorNumber := rfl
@[simp] theorem State.modLog_clk (s : State) (g : Log → Log) : (State.modLog s g).clk = s.clk := rfl
@[simp] theorem State.modLog_pwr (s : State) (g : Log → Log) : (State.modLog s g).pwr = s.pwr := rfl
@[simp] theorem State.modLog_start (s : State) (g : Log → Log) : (State.modLog s g).start = s.start := rfl
@[simp] theorem State.modLog_mram (s : State) (g : Log → Log) : (State.modLog s g).mram = s.mram := rfl
@[simp] theorem State.modLog_meas (s : State) (g : Log → Log) : (State.modLog s g).meas = s.meas := rfl
@[simp] theorem State.modLog_guard (s : State) (g : Log → Log) : (State.modLog s g).guard = s.guard := rfl
@[simp] theorem State.modLog_ports (s : State) (g : Log → Log) : (State.modLog s g).ports = s.ports := rfl
@[simp] theorem State.modLog_streams (s : State) (g : Log → Log) : (State.modLog s g).streams = s.streams := rfl
@[simp] theorem State.modLog_deviceEpoch (s : State) (g : Log → Log) : (State.modLog s g).deviceEpoch = s.deviceEpoch := rfl
@[simp] theorem State.modLog_epochs (s : State) (g : Log → Log) : (State.modLog s g).epochs = s.epochs := rfl
@[simp] theorem State.modLog_pos (s : State) (g : Log → Log) : (State.modLog s g).pos = s.pos := rfl
@[simp] theorem State.modLog_emu (s : State) (g : Log → Log) : (State.modLog s g).emu = s.emu := rfl
@[simp] theorem State.modLog_cmps (s : State) (g : Log → Log) : (State.modLog s g).cmps = s.cmps := rfl
@[simp] theorem State.modLog_trigs (s : State) (g : Log → Log) : (State.modLog s g).trigs = s.trigs := rfl
@[simp] theorem State.modLog_hoppers (s : State) (g : Log → Log) : (State.modLog s g).hoppers = s.hoppers := rfl
@[simp] theorem State.modLog_hopEvent (s : State) (g : Log → Log) : (State.modLog s g).hopEvent = s.hopEvent := rfl
@[simp] theorem State.modLog_prep (s : State) (g : Log → Log) : (State.modLog s g).prep = s.prep := rfl
@[simp] theorem State.modLog_audio (s : State) (g : Log → Log) : (State.modLog s g).audio = s.audio := rfl
@[simp] theorem State.modLog_weir (s : State) (g : Log → Log) : (State.modLog s g).weir = s.weir := rfl
@[simp] theorem State.modLog_chans (s : State) (g : Log → Log) : (State.modLog s g).chans = s.chans := rfl
@[simp] theorem State.modLog_wit (s : State) (g : Log → Log) : (State.modLog s g).wit = s.wit := rfl
@[simp] theorem State.modLog_millpond (s : State) (g : Log → Log) : (State.modLog s g).millpond = s.millpond := rfl
@[simp] theorem State.modLog_lpddr (s : State) (g : Log → Log) : (State.modLog s g).lpddr = s.lpddr := rfl
@[simp] theorem State.modLog_out (s : State) (g : Log → Log) : (State.modLog s g).out = s.out := rfl
@[simp] theorem State.modLog_drawn (s : State) (g : Log → Log) : (State.modLog s g).drawn = s.drawn := rfl
@[simp] theorem State.modLog_log (s : State) (g : Log → Log) :
    (State.modLog s g).log = g s.log := rfl

@[simp] theorem emit_elapsed (o : Output) (s : State) : (emit o s).elapsed = s.elapsed := rfl
@[simp] theorem emit_pending (o : Output) (s : State) : (emit o s).pending = s.pending := rfl
@[simp] theorem emit_link (o : Output) (s : State) : (emit o s).link = s.link := rfl
@[simp] theorem emit_fns (o : Output) (s : State) : (emit o s).fns = s.fns := rfl
@[simp] theorem emit_lastServed (o : Output) (s : State) : (emit o s).lastServed = s.lastServed := rfl
@[simp] theorem emit_plan (o : Output) (s : State) : (emit o s).plan = s.plan := rfl
@[simp] theorem emit_queues (o : Output) (s : State) : (emit o s).queues = s.queues := rfl
@[simp] theorem emit_accepted (o : Output) (s : State) : (emit o s).accepted = s.accepted := rfl
@[simp] theorem emit_owed (o : Output) (s : State) : (emit o s).owed = s.owed := rfl
@[simp] theorem emit_log (o : Output) (s : State) : (emit o s).log = s.log := rfl
@[simp] theorem emit_mirror (o : Output) (s : State) : (emit o s).mirror = s.mirror := rfl
@[simp] theorem emit_mirrorNumber (o : Output) (s : State) : (emit o s).mirrorNumber = s.mirrorNumber := rfl
@[simp] theorem emit_clk (o : Output) (s : State) : (emit o s).clk = s.clk := rfl
@[simp] theorem emit_pwr (o : Output) (s : State) : (emit o s).pwr = s.pwr := rfl
@[simp] theorem emit_start (o : Output) (s : State) : (emit o s).start = s.start := rfl
@[simp] theorem emit_mram (o : Output) (s : State) : (emit o s).mram = s.mram := rfl
@[simp] theorem emit_meas (o : Output) (s : State) : (emit o s).meas = s.meas := rfl
@[simp] theorem emit_guard (o : Output) (s : State) : (emit o s).guard = s.guard := rfl
@[simp] theorem emit_ports (o : Output) (s : State) : (emit o s).ports = s.ports := rfl
@[simp] theorem emit_streams (o : Output) (s : State) : (emit o s).streams = s.streams := rfl
@[simp] theorem emit_deviceEpoch (o : Output) (s : State) : (emit o s).deviceEpoch = s.deviceEpoch := rfl
@[simp] theorem emit_epochs (o : Output) (s : State) : (emit o s).epochs = s.epochs := rfl
@[simp] theorem emit_pos (o : Output) (s : State) : (emit o s).pos = s.pos := rfl
@[simp] theorem emit_emu (o : Output) (s : State) : (emit o s).emu = s.emu := rfl
@[simp] theorem emit_cmps (o : Output) (s : State) : (emit o s).cmps = s.cmps := rfl
@[simp] theorem emit_trigs (o : Output) (s : State) : (emit o s).trigs = s.trigs := rfl
@[simp] theorem emit_hoppers (o : Output) (s : State) : (emit o s).hoppers = s.hoppers := rfl
@[simp] theorem emit_hopEvent (o : Output) (s : State) : (emit o s).hopEvent = s.hopEvent := rfl
@[simp] theorem emit_prep (o : Output) (s : State) : (emit o s).prep = s.prep := rfl
@[simp] theorem emit_audio (o : Output) (s : State) : (emit o s).audio = s.audio := rfl
@[simp] theorem emit_weir (o : Output) (s : State) : (emit o s).weir = s.weir := rfl
@[simp] theorem emit_chans (o : Output) (s : State) : (emit o s).chans = s.chans := rfl
@[simp] theorem emit_wit (o : Output) (s : State) : (emit o s).wit = s.wit := rfl
@[simp] theorem emit_millpond (o : Output) (s : State) : (emit o s).millpond = s.millpond := rfl
@[simp] theorem emit_lpddr (o : Output) (s : State) : (emit o s).lpddr = s.lpddr := rfl
@[simp] theorem emit_drawn (o : Output) (s : State) : (emit o s).drawn = s.drawn := rfl
@[simp] theorem emit_out (o : Output) (s : State) :
    (emit o s).out = o :: s.out := rfl

@[simp] theorem draw_elapsed (s : State) : (draw s).2.elapsed = s.elapsed := rfl
@[simp] theorem draw_pending (s : State) : (draw s).2.pending = s.pending := rfl
@[simp] theorem draw_link (s : State) : (draw s).2.link = s.link := rfl
@[simp] theorem draw_fns (s : State) : (draw s).2.fns = s.fns := rfl
@[simp] theorem draw_lastServed (s : State) : (draw s).2.lastServed = s.lastServed := rfl
@[simp] theorem draw_plan (s : State) : (draw s).2.plan = s.plan := rfl
@[simp] theorem draw_queues (s : State) : (draw s).2.queues = s.queues := rfl
@[simp] theorem draw_accepted (s : State) : (draw s).2.accepted = s.accepted := rfl
@[simp] theorem draw_owed (s : State) : (draw s).2.owed = s.owed := rfl
@[simp] theorem draw_log (s : State) : (draw s).2.log = s.log := rfl
@[simp] theorem draw_mirror (s : State) : (draw s).2.mirror = s.mirror := rfl
@[simp] theorem draw_mirrorNumber (s : State) : (draw s).2.mirrorNumber = s.mirrorNumber := rfl
@[simp] theorem draw_clk (s : State) : (draw s).2.clk = s.clk := rfl
@[simp] theorem draw_pwr (s : State) : (draw s).2.pwr = s.pwr := rfl
@[simp] theorem draw_start (s : State) : (draw s).2.start = s.start := rfl
@[simp] theorem draw_mram (s : State) : (draw s).2.mram = s.mram := rfl
@[simp] theorem draw_meas (s : State) : (draw s).2.meas = s.meas := rfl
@[simp] theorem draw_guard (s : State) : (draw s).2.guard = s.guard := rfl
@[simp] theorem draw_ports (s : State) : (draw s).2.ports = s.ports := rfl
@[simp] theorem draw_streams (s : State) : (draw s).2.streams = s.streams := rfl
@[simp] theorem draw_deviceEpoch (s : State) : (draw s).2.deviceEpoch = s.deviceEpoch := rfl
@[simp] theorem draw_epochs (s : State) : (draw s).2.epochs = s.epochs := rfl
@[simp] theorem draw_pos (s : State) : (draw s).2.pos = s.pos := rfl
@[simp] theorem draw_emu (s : State) : (draw s).2.emu = s.emu := rfl
@[simp] theorem draw_cmps (s : State) : (draw s).2.cmps = s.cmps := rfl
@[simp] theorem draw_trigs (s : State) : (draw s).2.trigs = s.trigs := rfl
@[simp] theorem draw_hoppers (s : State) : (draw s).2.hoppers = s.hoppers := rfl
@[simp] theorem draw_hopEvent (s : State) : (draw s).2.hopEvent = s.hopEvent := rfl
@[simp] theorem draw_prep (s : State) : (draw s).2.prep = s.prep := rfl
@[simp] theorem draw_audio (s : State) : (draw s).2.audio = s.audio := rfl
@[simp] theorem draw_weir (s : State) : (draw s).2.weir = s.weir := rfl
@[simp] theorem draw_chans (s : State) : (draw s).2.chans = s.chans := rfl
@[simp] theorem draw_wit (s : State) : (draw s).2.wit = s.wit := rfl
@[simp] theorem draw_millpond (s : State) : (draw s).2.millpond = s.millpond := rfl
@[simp] theorem draw_lpddr (s : State) : (draw s).2.lpddr = s.lpddr := rfl
@[simp] theorem draw_out (s : State) : (draw s).2.out = s.out := rfl

@[simp] theorem millWrite_elapsed (addr : Nat) (bytes : List Byte) (s : State) : (millWrite addr bytes s).elapsed = s.elapsed := rfl
@[simp] theorem millWrite_pending (addr : Nat) (bytes : List Byte) (s : State) : (millWrite addr bytes s).pending = s.pending := rfl
@[simp] theorem millWrite_link (addr : Nat) (bytes : List Byte) (s : State) : (millWrite addr bytes s).link = s.link := rfl
@[simp] theorem millWrite_fns (addr : Nat) (bytes : List Byte) (s : State) : (millWrite addr bytes s).fns = s.fns := rfl
@[simp] theorem millWrite_lastServed (addr : Nat) (bytes : List Byte) (s : State) : (millWrite addr bytes s).lastServed = s.lastServed := rfl
@[simp] theorem millWrite_plan (addr : Nat) (bytes : List Byte) (s : State) : (millWrite addr bytes s).plan = s.plan := rfl
@[simp] theorem millWrite_queues (addr : Nat) (bytes : List Byte) (s : State) : (millWrite addr bytes s).queues = s.queues := rfl
@[simp] theorem millWrite_accepted (addr : Nat) (bytes : List Byte) (s : State) : (millWrite addr bytes s).accepted = s.accepted := rfl
@[simp] theorem millWrite_owed (addr : Nat) (bytes : List Byte) (s : State) : (millWrite addr bytes s).owed = s.owed := rfl
@[simp] theorem millWrite_log (addr : Nat) (bytes : List Byte) (s : State) : (millWrite addr bytes s).log = s.log := rfl
@[simp] theorem millWrite_mirror (addr : Nat) (bytes : List Byte) (s : State) : (millWrite addr bytes s).mirror = s.mirror := rfl
@[simp] theorem millWrite_mirrorNumber (addr : Nat) (bytes : List Byte) (s : State) : (millWrite addr bytes s).mirrorNumber = s.mirrorNumber := rfl
@[simp] theorem millWrite_clk (addr : Nat) (bytes : List Byte) (s : State) : (millWrite addr bytes s).clk = s.clk := rfl
@[simp] theorem millWrite_pwr (addr : Nat) (bytes : List Byte) (s : State) : (millWrite addr bytes s).pwr = s.pwr := rfl
@[simp] theorem millWrite_start (addr : Nat) (bytes : List Byte) (s : State) : (millWrite addr bytes s).start = s.start := rfl
@[simp] theorem millWrite_mram (addr : Nat) (bytes : List Byte) (s : State) : (millWrite addr bytes s).mram = s.mram := rfl
@[simp] theorem millWrite_meas (addr : Nat) (bytes : List Byte) (s : State) : (millWrite addr bytes s).meas = s.meas := rfl
@[simp] theorem millWrite_guard (addr : Nat) (bytes : List Byte) (s : State) : (millWrite addr bytes s).guard = s.guard := rfl
@[simp] theorem millWrite_ports (addr : Nat) (bytes : List Byte) (s : State) : (millWrite addr bytes s).ports = s.ports := rfl
@[simp] theorem millWrite_streams (addr : Nat) (bytes : List Byte) (s : State) : (millWrite addr bytes s).streams = s.streams := rfl
@[simp] theorem millWrite_deviceEpoch (addr : Nat) (bytes : List Byte) (s : State) : (millWrite addr bytes s).deviceEpoch = s.deviceEpoch := rfl
@[simp] theorem millWrite_epochs (addr : Nat) (bytes : List Byte) (s : State) : (millWrite addr bytes s).epochs = s.epochs := rfl
@[simp] theorem millWrite_pos (addr : Nat) (bytes : List Byte) (s : State) : (millWrite addr bytes s).pos = s.pos := rfl
@[simp] theorem millWrite_emu (addr : Nat) (bytes : List Byte) (s : State) : (millWrite addr bytes s).emu = s.emu := rfl
@[simp] theorem millWrite_cmps (addr : Nat) (bytes : List Byte) (s : State) : (millWrite addr bytes s).cmps = s.cmps := rfl
@[simp] theorem millWrite_trigs (addr : Nat) (bytes : List Byte) (s : State) : (millWrite addr bytes s).trigs = s.trigs := rfl
@[simp] theorem millWrite_hoppers (addr : Nat) (bytes : List Byte) (s : State) : (millWrite addr bytes s).hoppers = s.hoppers := rfl
@[simp] theorem millWrite_hopEvent (addr : Nat) (bytes : List Byte) (s : State) : (millWrite addr bytes s).hopEvent = s.hopEvent := rfl
@[simp] theorem millWrite_prep (addr : Nat) (bytes : List Byte) (s : State) : (millWrite addr bytes s).prep = s.prep := rfl
@[simp] theorem millWrite_audio (addr : Nat) (bytes : List Byte) (s : State) : (millWrite addr bytes s).audio = s.audio := rfl
@[simp] theorem millWrite_weir (addr : Nat) (bytes : List Byte) (s : State) : (millWrite addr bytes s).weir = s.weir := rfl
@[simp] theorem millWrite_chans (addr : Nat) (bytes : List Byte) (s : State) : (millWrite addr bytes s).chans = s.chans := rfl
@[simp] theorem millWrite_wit (addr : Nat) (bytes : List Byte) (s : State) : (millWrite addr bytes s).wit = s.wit := rfl
@[simp] theorem millWrite_lpddr (addr : Nat) (bytes : List Byte) (s : State) : (millWrite addr bytes s).lpddr = s.lpddr := rfl
@[simp] theorem millWrite_out (addr : Nat) (bytes : List Byte) (s : State) : (millWrite addr bytes s).out = s.out := rfl
@[simp] theorem millWrite_drawn (addr : Nat) (bytes : List Byte) (s : State) : (millWrite addr bytes s).drawn = s.drawn := rfl
@[simp] theorem millWrite_millpond (addr : Nat) (bytes : List Byte) (s : State) :
    (millWrite addr bytes s).millpond = Memory.writeList s.millpond addr bytes := rfl

@[simp] theorem State.modFantail_elapsed (s : State) (g : Fantail → Fantail) : (State.modFantail s g).elapsed = s.elapsed := rfl
@[simp] theorem State.modFantail_pending (s : State) (g : Fantail → Fantail) : (State.modFantail s g).pending = s.pending := rfl
@[simp] theorem State.modFantail_link (s : State) (g : Fantail → Fantail) : (State.modFantail s g).link = s.link := rfl
@[simp] theorem State.modFantail_fns (s : State) (g : Fantail → Fantail) : (State.modFantail s g).fns = s.fns := rfl
@[simp] theorem State.modFantail_lastServed (s : State) (g : Fantail → Fantail) : (State.modFantail s g).lastServed = s.lastServed := rfl
@[simp] theorem State.modFantail_plan (s : State) (g : Fantail → Fantail) : (State.modFantail s g).plan = s.plan := rfl
@[simp] theorem State.modFantail_queues (s : State) (g : Fantail → Fantail) : (State.modFantail s g).queues = s.queues := rfl
@[simp] theorem State.modFantail_accepted (s : State) (g : Fantail → Fantail) : (State.modFantail s g).accepted = s.accepted := rfl
@[simp] theorem State.modFantail_owed (s : State) (g : Fantail → Fantail) : (State.modFantail s g).owed = s.owed := rfl
@[simp] theorem State.modFantail_log (s : State) (g : Fantail → Fantail) : (State.modFantail s g).log = s.log := rfl
@[simp] theorem State.modFantail_mirror (s : State) (g : Fantail → Fantail) : (State.modFantail s g).mirror = s.mirror := rfl
@[simp] theorem State.modFantail_mirrorNumber (s : State) (g : Fantail → Fantail) : (State.modFantail s g).mirrorNumber = s.mirrorNumber := rfl
@[simp] theorem State.modFantail_pwr (s : State) (g : Fantail → Fantail) : (State.modFantail s g).pwr = s.pwr := rfl
@[simp] theorem State.modFantail_start (s : State) (g : Fantail → Fantail) : (State.modFantail s g).start = s.start := rfl
@[simp] theorem State.modFantail_mram (s : State) (g : Fantail → Fantail) : (State.modFantail s g).mram = s.mram := rfl
@[simp] theorem State.modFantail_meas (s : State) (g : Fantail → Fantail) : (State.modFantail s g).meas = s.meas := rfl
@[simp] theorem State.modFantail_guard (s : State) (g : Fantail → Fantail) : (State.modFantail s g).guard = s.guard := rfl
@[simp] theorem State.modFantail_ports (s : State) (g : Fantail → Fantail) : (State.modFantail s g).ports = s.ports := rfl
@[simp] theorem State.modFantail_streams (s : State) (g : Fantail → Fantail) : (State.modFantail s g).streams = s.streams := rfl
@[simp] theorem State.modFantail_deviceEpoch (s : State) (g : Fantail → Fantail) : (State.modFantail s g).deviceEpoch = s.deviceEpoch := rfl
@[simp] theorem State.modFantail_epochs (s : State) (g : Fantail → Fantail) : (State.modFantail s g).epochs = s.epochs := rfl
@[simp] theorem State.modFantail_pos (s : State) (g : Fantail → Fantail) : (State.modFantail s g).pos = s.pos := rfl
@[simp] theorem State.modFantail_emu (s : State) (g : Fantail → Fantail) : (State.modFantail s g).emu = s.emu := rfl
@[simp] theorem State.modFantail_cmps (s : State) (g : Fantail → Fantail) : (State.modFantail s g).cmps = s.cmps := rfl
@[simp] theorem State.modFantail_trigs (s : State) (g : Fantail → Fantail) : (State.modFantail s g).trigs = s.trigs := rfl
@[simp] theorem State.modFantail_hoppers (s : State) (g : Fantail → Fantail) : (State.modFantail s g).hoppers = s.hoppers := rfl
@[simp] theorem State.modFantail_hopEvent (s : State) (g : Fantail → Fantail) : (State.modFantail s g).hopEvent = s.hopEvent := rfl
@[simp] theorem State.modFantail_prep (s : State) (g : Fantail → Fantail) : (State.modFantail s g).prep = s.prep := rfl
@[simp] theorem State.modFantail_audio (s : State) (g : Fantail → Fantail) : (State.modFantail s g).audio = s.audio := rfl
@[simp] theorem State.modFantail_weir (s : State) (g : Fantail → Fantail) : (State.modFantail s g).weir = s.weir := rfl
@[simp] theorem State.modFantail_chans (s : State) (g : Fantail → Fantail) : (State.modFantail s g).chans = s.chans := rfl
@[simp] theorem State.modFantail_wit (s : State) (g : Fantail → Fantail) : (State.modFantail s g).wit = s.wit := rfl
@[simp] theorem State.modFantail_millpond (s : State) (g : Fantail → Fantail) : (State.modFantail s g).millpond = s.millpond := rfl
@[simp] theorem State.modFantail_lpddr (s : State) (g : Fantail → Fantail) : (State.modFantail s g).lpddr = s.lpddr := rfl
@[simp] theorem State.modFantail_out (s : State) (g : Fantail → Fantail) : (State.modFantail s g).out = s.out := rfl
@[simp] theorem State.modFantail_drawn (s : State) (g : Fantail → Fantail) : (State.modFantail s g).drawn = s.drawn := rfl

@[simp] theorem State.modWeir_elapsed (s : State) (g : Weir → Weir) : (State.modWeir s g).elapsed = s.elapsed := rfl
@[simp] theorem State.modWeir_pending (s : State) (g : Weir → Weir) : (State.modWeir s g).pending = s.pending := rfl
@[simp] theorem State.modWeir_link (s : State) (g : Weir → Weir) : (State.modWeir s g).link = s.link := rfl
@[simp] theorem State.modWeir_fns (s : State) (g : Weir → Weir) : (State.modWeir s g).fns = s.fns := rfl
@[simp] theorem State.modWeir_lastServed (s : State) (g : Weir → Weir) : (State.modWeir s g).lastServed = s.lastServed := rfl
@[simp] theorem State.modWeir_plan (s : State) (g : Weir → Weir) : (State.modWeir s g).plan = s.plan := rfl
@[simp] theorem State.modWeir_queues (s : State) (g : Weir → Weir) : (State.modWeir s g).queues = s.queues := rfl
@[simp] theorem State.modWeir_accepted (s : State) (g : Weir → Weir) : (State.modWeir s g).accepted = s.accepted := rfl
@[simp] theorem State.modWeir_owed (s : State) (g : Weir → Weir) : (State.modWeir s g).owed = s.owed := rfl
@[simp] theorem State.modWeir_log (s : State) (g : Weir → Weir) : (State.modWeir s g).log = s.log := rfl
@[simp] theorem State.modWeir_mirror (s : State) (g : Weir → Weir) : (State.modWeir s g).mirror = s.mirror := rfl
@[simp] theorem State.modWeir_mirrorNumber (s : State) (g : Weir → Weir) : (State.modWeir s g).mirrorNumber = s.mirrorNumber := rfl
@[simp] theorem State.modWeir_clk (s : State) (g : Weir → Weir) : (State.modWeir s g).clk = s.clk := rfl
@[simp] theorem State.modWeir_pwr (s : State) (g : Weir → Weir) : (State.modWeir s g).pwr = s.pwr := rfl
@[simp] theorem State.modWeir_start (s : State) (g : Weir → Weir) : (State.modWeir s g).start = s.start := rfl
@[simp] theorem State.modWeir_mram (s : State) (g : Weir → Weir) : (State.modWeir s g).mram = s.mram := rfl
@[simp] theorem State.modWeir_meas (s : State) (g : Weir → Weir) : (State.modWeir s g).meas = s.meas := rfl
@[simp] theorem State.modWeir_guard (s : State) (g : Weir → Weir) : (State.modWeir s g).guard = s.guard := rfl
@[simp] theorem State.modWeir_ports (s : State) (g : Weir → Weir) : (State.modWeir s g).ports = s.ports := rfl
@[simp] theorem State.modWeir_streams (s : State) (g : Weir → Weir) : (State.modWeir s g).streams = s.streams := rfl
@[simp] theorem State.modWeir_deviceEpoch (s : State) (g : Weir → Weir) : (State.modWeir s g).deviceEpoch = s.deviceEpoch := rfl
@[simp] theorem State.modWeir_epochs (s : State) (g : Weir → Weir) : (State.modWeir s g).epochs = s.epochs := rfl
@[simp] theorem State.modWeir_pos (s : State) (g : Weir → Weir) : (State.modWeir s g).pos = s.pos := rfl
@[simp] theorem State.modWeir_emu (s : State) (g : Weir → Weir) : (State.modWeir s g).emu = s.emu := rfl
@[simp] theorem State.modWeir_cmps (s : State) (g : Weir → Weir) : (State.modWeir s g).cmps = s.cmps := rfl
@[simp] theorem State.modWeir_trigs (s : State) (g : Weir → Weir) : (State.modWeir s g).trigs = s.trigs := rfl
@[simp] theorem State.modWeir_hoppers (s : State) (g : Weir → Weir) : (State.modWeir s g).hoppers = s.hoppers := rfl
@[simp] theorem State.modWeir_hopEvent (s : State) (g : Weir → Weir) : (State.modWeir s g).hopEvent = s.hopEvent := rfl
@[simp] theorem State.modWeir_prep (s : State) (g : Weir → Weir) : (State.modWeir s g).prep = s.prep := rfl
@[simp] theorem State.modWeir_audio (s : State) (g : Weir → Weir) : (State.modWeir s g).audio = s.audio := rfl
@[simp] theorem State.modWeir_chans (s : State) (g : Weir → Weir) : (State.modWeir s g).chans = s.chans := rfl
@[simp] theorem State.modWeir_wit (s : State) (g : Weir → Weir) : (State.modWeir s g).wit = s.wit := rfl
@[simp] theorem State.modWeir_millpond (s : State) (g : Weir → Weir) : (State.modWeir s g).millpond = s.millpond := rfl
@[simp] theorem State.modWeir_lpddr (s : State) (g : Weir → Weir) : (State.modWeir s g).lpddr = s.lpddr := rfl
@[simp] theorem State.modWeir_out (s : State) (g : Weir → Weir) : (State.modWeir s g).out = s.out := rfl
@[simp] theorem State.modWeir_drawn (s : State) (g : Weir → Weir) : (State.modWeir s g).drawn = s.drawn := rfl
@[simp] theorem State.modWeir_weir (s : State) (g : Weir → Weir) :
    (State.modWeir s g).weir = g s.weir := rfl

@[simp] theorem State.modStart_elapsed (s : State) (g : Start → Start) : (State.modStart s g).elapsed = s.elapsed := rfl
@[simp] theorem State.modStart_pending (s : State) (g : Start → Start) : (State.modStart s g).pending = s.pending := rfl
@[simp] theorem State.modStart_link (s : State) (g : Start → Start) : (State.modStart s g).link = s.link := rfl
@[simp] theorem State.modStart_fns (s : State) (g : Start → Start) : (State.modStart s g).fns = s.fns := rfl
@[simp] theorem State.modStart_lastServed (s : State) (g : Start → Start) : (State.modStart s g).lastServed = s.lastServed := rfl
@[simp] theorem State.modStart_plan (s : State) (g : Start → Start) : (State.modStart s g).plan = s.plan := rfl
@[simp] theorem State.modStart_queues (s : State) (g : Start → Start) : (State.modStart s g).queues = s.queues := rfl
@[simp] theorem State.modStart_accepted (s : State) (g : Start → Start) : (State.modStart s g).accepted = s.accepted := rfl
@[simp] theorem State.modStart_owed (s : State) (g : Start → Start) : (State.modStart s g).owed = s.owed := rfl
@[simp] theorem State.modStart_log (s : State) (g : Start → Start) : (State.modStart s g).log = s.log := rfl
@[simp] theorem State.modStart_mirror (s : State) (g : Start → Start) : (State.modStart s g).mirror = s.mirror := rfl
@[simp] theorem State.modStart_mirrorNumber (s : State) (g : Start → Start) : (State.modStart s g).mirrorNumber = s.mirrorNumber := rfl
@[simp] theorem State.modStart_clk (s : State) (g : Start → Start) : (State.modStart s g).clk = s.clk := rfl
@[simp] theorem State.modStart_pwr (s : State) (g : Start → Start) : (State.modStart s g).pwr = s.pwr := rfl
@[simp] theorem State.modStart_mram (s : State) (g : Start → Start) : (State.modStart s g).mram = s.mram := rfl
@[simp] theorem State.modStart_meas (s : State) (g : Start → Start) : (State.modStart s g).meas = s.meas := rfl
@[simp] theorem State.modStart_guard (s : State) (g : Start → Start) : (State.modStart s g).guard = s.guard := rfl
@[simp] theorem State.modStart_ports (s : State) (g : Start → Start) : (State.modStart s g).ports = s.ports := rfl
@[simp] theorem State.modStart_streams (s : State) (g : Start → Start) : (State.modStart s g).streams = s.streams := rfl
@[simp] theorem State.modStart_deviceEpoch (s : State) (g : Start → Start) : (State.modStart s g).deviceEpoch = s.deviceEpoch := rfl
@[simp] theorem State.modStart_epochs (s : State) (g : Start → Start) : (State.modStart s g).epochs = s.epochs := rfl
@[simp] theorem State.modStart_pos (s : State) (g : Start → Start) : (State.modStart s g).pos = s.pos := rfl
@[simp] theorem State.modStart_emu (s : State) (g : Start → Start) : (State.modStart s g).emu = s.emu := rfl
@[simp] theorem State.modStart_cmps (s : State) (g : Start → Start) : (State.modStart s g).cmps = s.cmps := rfl
@[simp] theorem State.modStart_trigs (s : State) (g : Start → Start) : (State.modStart s g).trigs = s.trigs := rfl
@[simp] theorem State.modStart_hoppers (s : State) (g : Start → Start) : (State.modStart s g).hoppers = s.hoppers := rfl
@[simp] theorem State.modStart_hopEvent (s : State) (g : Start → Start) : (State.modStart s g).hopEvent = s.hopEvent := rfl
@[simp] theorem State.modStart_prep (s : State) (g : Start → Start) : (State.modStart s g).prep = s.prep := rfl
@[simp] theorem State.modStart_audio (s : State) (g : Start → Start) : (State.modStart s g).audio = s.audio := rfl
@[simp] theorem State.modStart_weir (s : State) (g : Start → Start) : (State.modStart s g).weir = s.weir := rfl
@[simp] theorem State.modStart_chans (s : State) (g : Start → Start) : (State.modStart s g).chans = s.chans := rfl
@[simp] theorem State.modStart_wit (s : State) (g : Start → Start) : (State.modStart s g).wit = s.wit := rfl
@[simp] theorem State.modStart_millpond (s : State) (g : Start → Start) : (State.modStart s g).millpond = s.millpond := rfl
@[simp] theorem State.modStart_lpddr (s : State) (g : Start → Start) : (State.modStart s g).lpddr = s.lpddr := rfl
@[simp] theorem State.modStart_out (s : State) (g : Start → Start) : (State.modStart s g).out = s.out := rfl
@[simp] theorem State.modStart_drawn (s : State) (g : Start → Start) : (State.modStart s g).drawn = s.drawn := rfl
@[simp] theorem State.modStart_start (s : State) (g : Start → Start) :
    (State.modStart s g).start = g s.start := rfl

@[simp] theorem State.modPower_elapsed (s : State) (g : Power → Power) : (State.modPower s g).elapsed = s.elapsed := rfl
@[simp] theorem State.modPower_pending (s : State) (g : Power → Power) : (State.modPower s g).pending = s.pending := rfl
@[simp] theorem State.modPower_link (s : State) (g : Power → Power) : (State.modPower s g).link = s.link := rfl
@[simp] theorem State.modPower_fns (s : State) (g : Power → Power) : (State.modPower s g).fns = s.fns := rfl
@[simp] theorem State.modPower_lastServed (s : State) (g : Power → Power) : (State.modPower s g).lastServed = s.lastServed := rfl
@[simp] theorem State.modPower_plan (s : State) (g : Power → Power) : (State.modPower s g).plan = s.plan := rfl
@[simp] theorem State.modPower_queues (s : State) (g : Power → Power) : (State.modPower s g).queues = s.queues := rfl
@[simp] theorem State.modPower_accepted (s : State) (g : Power → Power) : (State.modPower s g).accepted = s.accepted := rfl
@[simp] theorem State.modPower_owed (s : State) (g : Power → Power) : (State.modPower s g).owed = s.owed := rfl
@[simp] theorem State.modPower_log (s : State) (g : Power → Power) : (State.modPower s g).log = s.log := rfl
@[simp] theorem State.modPower_mirror (s : State) (g : Power → Power) : (State.modPower s g).mirror = s.mirror := rfl
@[simp] theorem State.modPower_mirrorNumber (s : State) (g : Power → Power) : (State.modPower s g).mirrorNumber = s.mirrorNumber := rfl
@[simp] theorem State.modPower_clk (s : State) (g : Power → Power) : (State.modPower s g).clk = s.clk := rfl
@[simp] theorem State.modPower_start (s : State) (g : Power → Power) : (State.modPower s g).start = s.start := rfl
@[simp] theorem State.modPower_mram (s : State) (g : Power → Power) : (State.modPower s g).mram = s.mram := rfl
@[simp] theorem State.modPower_meas (s : State) (g : Power → Power) : (State.modPower s g).meas = s.meas := rfl
@[simp] theorem State.modPower_guard (s : State) (g : Power → Power) : (State.modPower s g).guard = s.guard := rfl
@[simp] theorem State.modPower_ports (s : State) (g : Power → Power) : (State.modPower s g).ports = s.ports := rfl
@[simp] theorem State.modPower_streams (s : State) (g : Power → Power) : (State.modPower s g).streams = s.streams := rfl
@[simp] theorem State.modPower_deviceEpoch (s : State) (g : Power → Power) : (State.modPower s g).deviceEpoch = s.deviceEpoch := rfl
@[simp] theorem State.modPower_epochs (s : State) (g : Power → Power) : (State.modPower s g).epochs = s.epochs := rfl
@[simp] theorem State.modPower_pos (s : State) (g : Power → Power) : (State.modPower s g).pos = s.pos := rfl
@[simp] theorem State.modPower_emu (s : State) (g : Power → Power) : (State.modPower s g).emu = s.emu := rfl
@[simp] theorem State.modPower_cmps (s : State) (g : Power → Power) : (State.modPower s g).cmps = s.cmps := rfl
@[simp] theorem State.modPower_trigs (s : State) (g : Power → Power) : (State.modPower s g).trigs = s.trigs := rfl
@[simp] theorem State.modPower_hoppers (s : State) (g : Power → Power) : (State.modPower s g).hoppers = s.hoppers := rfl
@[simp] theorem State.modPower_hopEvent (s : State) (g : Power → Power) : (State.modPower s g).hopEvent = s.hopEvent := rfl
@[simp] theorem State.modPower_prep (s : State) (g : Power → Power) : (State.modPower s g).prep = s.prep := rfl
@[simp] theorem State.modPower_audio (s : State) (g : Power → Power) : (State.modPower s g).audio = s.audio := rfl
@[simp] theorem State.modPower_weir (s : State) (g : Power → Power) : (State.modPower s g).weir = s.weir := rfl
@[simp] theorem State.modPower_chans (s : State) (g : Power → Power) : (State.modPower s g).chans = s.chans := rfl
@[simp] theorem State.modPower_wit (s : State) (g : Power → Power) : (State.modPower s g).wit = s.wit := rfl
@[simp] theorem State.modPower_millpond (s : State) (g : Power → Power) : (State.modPower s g).millpond = s.millpond := rfl
@[simp] theorem State.modPower_lpddr (s : State) (g : Power → Power) : (State.modPower s g).lpddr = s.lpddr := rfl
@[simp] theorem State.modPower_out (s : State) (g : Power → Power) : (State.modPower s g).out = s.out := rfl
@[simp] theorem State.modPower_drawn (s : State) (g : Power → Power) : (State.modPower s g).drawn = s.drawn := rfl
@[simp] theorem State.modPower_pwr (s : State) (g : Power → Power) :
    (State.modPower s g).pwr = g s.pwr := rfl

@[simp] theorem State.modMram_elapsed (s : State) (g : Mram → Mram) : (State.modMram s g).elapsed = s.elapsed := rfl
@[simp] theorem State.modMram_pending (s : State) (g : Mram → Mram) : (State.modMram s g).pending = s.pending := rfl
@[simp] theorem State.modMram_link (s : State) (g : Mram → Mram) : (State.modMram s g).link = s.link := rfl
@[simp] theorem State.modMram_fns (s : State) (g : Mram → Mram) : (State.modMram s g).fns = s.fns := rfl
@[simp] theorem State.modMram_lastServed (s : State) (g : Mram → Mram) : (State.modMram s g).lastServed = s.lastServed := rfl
@[simp] theorem State.modMram_plan (s : State) (g : Mram → Mram) : (State.modMram s g).plan = s.plan := rfl
@[simp] theorem State.modMram_queues (s : State) (g : Mram → Mram) : (State.modMram s g).queues = s.queues := rfl
@[simp] theorem State.modMram_accepted (s : State) (g : Mram → Mram) : (State.modMram s g).accepted = s.accepted := rfl
@[simp] theorem State.modMram_owed (s : State) (g : Mram → Mram) : (State.modMram s g).owed = s.owed := rfl
@[simp] theorem State.modMram_log (s : State) (g : Mram → Mram) : (State.modMram s g).log = s.log := rfl
@[simp] theorem State.modMram_mirror (s : State) (g : Mram → Mram) : (State.modMram s g).mirror = s.mirror := rfl
@[simp] theorem State.modMram_mirrorNumber (s : State) (g : Mram → Mram) : (State.modMram s g).mirrorNumber = s.mirrorNumber := rfl
@[simp] theorem State.modMram_clk (s : State) (g : Mram → Mram) : (State.modMram s g).clk = s.clk := rfl
@[simp] theorem State.modMram_pwr (s : State) (g : Mram → Mram) : (State.modMram s g).pwr = s.pwr := rfl
@[simp] theorem State.modMram_start (s : State) (g : Mram → Mram) : (State.modMram s g).start = s.start := rfl
@[simp] theorem State.modMram_meas (s : State) (g : Mram → Mram) : (State.modMram s g).meas = s.meas := rfl
@[simp] theorem State.modMram_guard (s : State) (g : Mram → Mram) : (State.modMram s g).guard = s.guard := rfl
@[simp] theorem State.modMram_ports (s : State) (g : Mram → Mram) : (State.modMram s g).ports = s.ports := rfl
@[simp] theorem State.modMram_streams (s : State) (g : Mram → Mram) : (State.modMram s g).streams = s.streams := rfl
@[simp] theorem State.modMram_deviceEpoch (s : State) (g : Mram → Mram) : (State.modMram s g).deviceEpoch = s.deviceEpoch := rfl
@[simp] theorem State.modMram_epochs (s : State) (g : Mram → Mram) : (State.modMram s g).epochs = s.epochs := rfl
@[simp] theorem State.modMram_pos (s : State) (g : Mram → Mram) : (State.modMram s g).pos = s.pos := rfl
@[simp] theorem State.modMram_emu (s : State) (g : Mram → Mram) : (State.modMram s g).emu = s.emu := rfl
@[simp] theorem State.modMram_cmps (s : State) (g : Mram → Mram) : (State.modMram s g).cmps = s.cmps := rfl
@[simp] theorem State.modMram_trigs (s : State) (g : Mram → Mram) : (State.modMram s g).trigs = s.trigs := rfl
@[simp] theorem State.modMram_hoppers (s : State) (g : Mram → Mram) : (State.modMram s g).hoppers = s.hoppers := rfl
@[simp] theorem State.modMram_hopEvent (s : State) (g : Mram → Mram) : (State.modMram s g).hopEvent = s.hopEvent := rfl
@[simp] theorem State.modMram_prep (s : State) (g : Mram → Mram) : (State.modMram s g).prep = s.prep := rfl
@[simp] theorem State.modMram_audio (s : State) (g : Mram → Mram) : (State.modMram s g).audio = s.audio := rfl
@[simp] theorem State.modMram_weir (s : State) (g : Mram → Mram) : (State.modMram s g).weir = s.weir := rfl
@[simp] theorem State.modMram_chans (s : State) (g : Mram → Mram) : (State.modMram s g).chans = s.chans := rfl
@[simp] theorem State.modMram_wit (s : State) (g : Mram → Mram) : (State.modMram s g).wit = s.wit := rfl
@[simp] theorem State.modMram_millpond (s : State) (g : Mram → Mram) : (State.modMram s g).millpond = s.millpond := rfl
@[simp] theorem State.modMram_lpddr (s : State) (g : Mram → Mram) : (State.modMram s g).lpddr = s.lpddr := rfl
@[simp] theorem State.modMram_out (s : State) (g : Mram → Mram) : (State.modMram s g).out = s.out := rfl
@[simp] theorem State.modMram_drawn (s : State) (g : Mram → Mram) : (State.modMram s g).drawn = s.drawn := rfl
@[simp] theorem State.modMram_mram (s : State) (g : Mram → Mram) :
    (State.modMram s g).mram = g s.mram := rfl

@[simp] theorem State.modPos_elapsed (s : State) (c : Fin 4) (g : Pos → Pos) : (State.modPos s c g).elapsed = s.elapsed := rfl
@[simp] theorem State.modPos_pending (s : State) (c : Fin 4) (g : Pos → Pos) : (State.modPos s c g).pending = s.pending := rfl
@[simp] theorem State.modPos_link (s : State) (c : Fin 4) (g : Pos → Pos) : (State.modPos s c g).link = s.link := rfl
@[simp] theorem State.modPos_fns (s : State) (c : Fin 4) (g : Pos → Pos) : (State.modPos s c g).fns = s.fns := rfl
@[simp] theorem State.modPos_lastServed (s : State) (c : Fin 4) (g : Pos → Pos) : (State.modPos s c g).lastServed = s.lastServed := rfl
@[simp] theorem State.modPos_plan (s : State) (c : Fin 4) (g : Pos → Pos) : (State.modPos s c g).plan = s.plan := rfl
@[simp] theorem State.modPos_queues (s : State) (c : Fin 4) (g : Pos → Pos) : (State.modPos s c g).queues = s.queues := rfl
@[simp] theorem State.modPos_accepted (s : State) (c : Fin 4) (g : Pos → Pos) : (State.modPos s c g).accepted = s.accepted := rfl
@[simp] theorem State.modPos_owed (s : State) (c : Fin 4) (g : Pos → Pos) : (State.modPos s c g).owed = s.owed := rfl
@[simp] theorem State.modPos_log (s : State) (c : Fin 4) (g : Pos → Pos) : (State.modPos s c g).log = s.log := rfl
@[simp] theorem State.modPos_mirror (s : State) (c : Fin 4) (g : Pos → Pos) : (State.modPos s c g).mirror = s.mirror := rfl
@[simp] theorem State.modPos_mirrorNumber (s : State) (c : Fin 4) (g : Pos → Pos) : (State.modPos s c g).mirrorNumber = s.mirrorNumber := rfl
@[simp] theorem State.modPos_clk (s : State) (c : Fin 4) (g : Pos → Pos) : (State.modPos s c g).clk = s.clk := rfl
@[simp] theorem State.modPos_pwr (s : State) (c : Fin 4) (g : Pos → Pos) : (State.modPos s c g).pwr = s.pwr := rfl
@[simp] theorem State.modPos_start (s : State) (c : Fin 4) (g : Pos → Pos) : (State.modPos s c g).start = s.start := rfl
@[simp] theorem State.modPos_mram (s : State) (c : Fin 4) (g : Pos → Pos) : (State.modPos s c g).mram = s.mram := rfl
@[simp] theorem State.modPos_meas (s : State) (c : Fin 4) (g : Pos → Pos) : (State.modPos s c g).meas = s.meas := rfl
@[simp] theorem State.modPos_guard (s : State) (c : Fin 4) (g : Pos → Pos) : (State.modPos s c g).guard = s.guard := rfl
@[simp] theorem State.modPos_ports (s : State) (c : Fin 4) (g : Pos → Pos) : (State.modPos s c g).ports = s.ports := rfl
@[simp] theorem State.modPos_streams (s : State) (c : Fin 4) (g : Pos → Pos) : (State.modPos s c g).streams = s.streams := rfl
@[simp] theorem State.modPos_deviceEpoch (s : State) (c : Fin 4) (g : Pos → Pos) : (State.modPos s c g).deviceEpoch = s.deviceEpoch := rfl
@[simp] theorem State.modPos_epochs (s : State) (c : Fin 4) (g : Pos → Pos) : (State.modPos s c g).epochs = s.epochs := rfl
@[simp] theorem State.modPos_emu (s : State) (c : Fin 4) (g : Pos → Pos) : (State.modPos s c g).emu = s.emu := rfl
@[simp] theorem State.modPos_cmps (s : State) (c : Fin 4) (g : Pos → Pos) : (State.modPos s c g).cmps = s.cmps := rfl
@[simp] theorem State.modPos_trigs (s : State) (c : Fin 4) (g : Pos → Pos) : (State.modPos s c g).trigs = s.trigs := rfl
@[simp] theorem State.modPos_hoppers (s : State) (c : Fin 4) (g : Pos → Pos) : (State.modPos s c g).hoppers = s.hoppers := rfl
@[simp] theorem State.modPos_hopEvent (s : State) (c : Fin 4) (g : Pos → Pos) : (State.modPos s c g).hopEvent = s.hopEvent := rfl
@[simp] theorem State.modPos_prep (s : State) (c : Fin 4) (g : Pos → Pos) : (State.modPos s c g).prep = s.prep := rfl
@[simp] theorem State.modPos_audio (s : State) (c : Fin 4) (g : Pos → Pos) : (State.modPos s c g).audio = s.audio := rfl
@[simp] theorem State.modPos_weir (s : State) (c : Fin 4) (g : Pos → Pos) : (State.modPos s c g).weir = s.weir := rfl
@[simp] theorem State.modPos_chans (s : State) (c : Fin 4) (g : Pos → Pos) : (State.modPos s c g).chans = s.chans := rfl
@[simp] theorem State.modPos_wit (s : State) (c : Fin 4) (g : Pos → Pos) : (State.modPos s c g).wit = s.wit := rfl
@[simp] theorem State.modPos_millpond (s : State) (c : Fin 4) (g : Pos → Pos) : (State.modPos s c g).millpond = s.millpond := rfl
@[simp] theorem State.modPos_lpddr (s : State) (c : Fin 4) (g : Pos → Pos) : (State.modPos s c g).lpddr = s.lpddr := rfl
@[simp] theorem State.modPos_out (s : State) (c : Fin 4) (g : Pos → Pos) : (State.modPos s c g).out = s.out := rfl
@[simp] theorem State.modPos_drawn (s : State) (c : Fin 4) (g : Pos → Pos) : (State.modPos s c g).drawn = s.drawn := rfl
@[simp] theorem State.modPos_pos (s : State) (c : Fin 4) (g : Pos → Pos) :
    (State.modPos s c g).pos = vmod s.pos c g := rfl

@[simp] theorem State.modEmu_elapsed (s : State) (m : Fin 2) (g : Emu → Emu) : (State.modEmu s m g).elapsed = s.elapsed := rfl
@[simp] theorem State.modEmu_pending (s : State) (m : Fin 2) (g : Emu → Emu) : (State.modEmu s m g).pending = s.pending := rfl
@[simp] theorem State.modEmu_link (s : State) (m : Fin 2) (g : Emu → Emu) : (State.modEmu s m g).link = s.link := rfl
@[simp] theorem State.modEmu_fns (s : State) (m : Fin 2) (g : Emu → Emu) : (State.modEmu s m g).fns = s.fns := rfl
@[simp] theorem State.modEmu_lastServed (s : State) (m : Fin 2) (g : Emu → Emu) : (State.modEmu s m g).lastServed = s.lastServed := rfl
@[simp] theorem State.modEmu_plan (s : State) (m : Fin 2) (g : Emu → Emu) : (State.modEmu s m g).plan = s.plan := rfl
@[simp] theorem State.modEmu_queues (s : State) (m : Fin 2) (g : Emu → Emu) : (State.modEmu s m g).queues = s.queues := rfl
@[simp] theorem State.modEmu_accepted (s : State) (m : Fin 2) (g : Emu → Emu) : (State.modEmu s m g).accepted = s.accepted := rfl
@[simp] theorem State.modEmu_owed (s : State) (m : Fin 2) (g : Emu → Emu) : (State.modEmu s m g).owed = s.owed := rfl
@[simp] theorem State.modEmu_log (s : State) (m : Fin 2) (g : Emu → Emu) : (State.modEmu s m g).log = s.log := rfl
@[simp] theorem State.modEmu_mirror (s : State) (m : Fin 2) (g : Emu → Emu) : (State.modEmu s m g).mirror = s.mirror := rfl
@[simp] theorem State.modEmu_mirrorNumber (s : State) (m : Fin 2) (g : Emu → Emu) : (State.modEmu s m g).mirrorNumber = s.mirrorNumber := rfl
@[simp] theorem State.modEmu_clk (s : State) (m : Fin 2) (g : Emu → Emu) : (State.modEmu s m g).clk = s.clk := rfl
@[simp] theorem State.modEmu_pwr (s : State) (m : Fin 2) (g : Emu → Emu) : (State.modEmu s m g).pwr = s.pwr := rfl
@[simp] theorem State.modEmu_start (s : State) (m : Fin 2) (g : Emu → Emu) : (State.modEmu s m g).start = s.start := rfl
@[simp] theorem State.modEmu_mram (s : State) (m : Fin 2) (g : Emu → Emu) : (State.modEmu s m g).mram = s.mram := rfl
@[simp] theorem State.modEmu_meas (s : State) (m : Fin 2) (g : Emu → Emu) : (State.modEmu s m g).meas = s.meas := rfl
@[simp] theorem State.modEmu_guard (s : State) (m : Fin 2) (g : Emu → Emu) : (State.modEmu s m g).guard = s.guard := rfl
@[simp] theorem State.modEmu_ports (s : State) (m : Fin 2) (g : Emu → Emu) : (State.modEmu s m g).ports = s.ports := rfl
@[simp] theorem State.modEmu_streams (s : State) (m : Fin 2) (g : Emu → Emu) : (State.modEmu s m g).streams = s.streams := rfl
@[simp] theorem State.modEmu_deviceEpoch (s : State) (m : Fin 2) (g : Emu → Emu) : (State.modEmu s m g).deviceEpoch = s.deviceEpoch := rfl
@[simp] theorem State.modEmu_epochs (s : State) (m : Fin 2) (g : Emu → Emu) : (State.modEmu s m g).epochs = s.epochs := rfl
@[simp] theorem State.modEmu_pos (s : State) (m : Fin 2) (g : Emu → Emu) : (State.modEmu s m g).pos = s.pos := rfl
@[simp] theorem State.modEmu_cmps (s : State) (m : Fin 2) (g : Emu → Emu) : (State.modEmu s m g).cmps = s.cmps := rfl
@[simp] theorem State.modEmu_trigs (s : State) (m : Fin 2) (g : Emu → Emu) : (State.modEmu s m g).trigs = s.trigs := rfl
@[simp] theorem State.modEmu_hoppers (s : State) (m : Fin 2) (g : Emu → Emu) : (State.modEmu s m g).hoppers = s.hoppers := rfl
@[simp] theorem State.modEmu_hopEvent (s : State) (m : Fin 2) (g : Emu → Emu) : (State.modEmu s m g).hopEvent = s.hopEvent := rfl
@[simp] theorem State.modEmu_prep (s : State) (m : Fin 2) (g : Emu → Emu) : (State.modEmu s m g).prep = s.prep := rfl
@[simp] theorem State.modEmu_audio (s : State) (m : Fin 2) (g : Emu → Emu) : (State.modEmu s m g).audio = s.audio := rfl
@[simp] theorem State.modEmu_weir (s : State) (m : Fin 2) (g : Emu → Emu) : (State.modEmu s m g).weir = s.weir := rfl
@[simp] theorem State.modEmu_chans (s : State) (m : Fin 2) (g : Emu → Emu) : (State.modEmu s m g).chans = s.chans := rfl
@[simp] theorem State.modEmu_wit (s : State) (m : Fin 2) (g : Emu → Emu) : (State.modEmu s m g).wit = s.wit := rfl
@[simp] theorem State.modEmu_millpond (s : State) (m : Fin 2) (g : Emu → Emu) : (State.modEmu s m g).millpond = s.millpond := rfl
@[simp] theorem State.modEmu_lpddr (s : State) (m : Fin 2) (g : Emu → Emu) : (State.modEmu s m g).lpddr = s.lpddr := rfl
@[simp] theorem State.modEmu_out (s : State) (m : Fin 2) (g : Emu → Emu) : (State.modEmu s m g).out = s.out := rfl
@[simp] theorem State.modEmu_drawn (s : State) (m : Fin 2) (g : Emu → Emu) : (State.modEmu s m g).drawn = s.drawn := rfl
@[simp] theorem State.modEmu_emu (s : State) (m : Fin 2) (g : Emu → Emu) :
    (State.modEmu s m g).emu = vmod s.emu m g := rfl

@[simp] theorem State.modStream_elapsed (s : State) (n : Fin 32) (g : Stream → Stream) : (State.modStream s n g).elapsed = s.elapsed := rfl
@[simp] theorem State.modStream_pending (s : State) (n : Fin 32) (g : Stream → Stream) : (State.modStream s n g).pending = s.pending := rfl
@[simp] theorem State.modStream_link (s : State) (n : Fin 32) (g : Stream → Stream) : (State.modStream s n g).link = s.link := rfl
@[simp] theorem State.modStream_fns (s : State) (n : Fin 32) (g : Stream → Stream) : (State.modStream s n g).fns = s.fns := rfl
@[simp] theorem State.modStream_lastServed (s : State) (n : Fin 32) (g : Stream → Stream) : (State.modStream s n g).lastServed = s.lastServed := rfl
@[simp] theorem State.modStream_plan (s : State) (n : Fin 32) (g : Stream → Stream) : (State.modStream s n g).plan = s.plan := rfl
@[simp] theorem State.modStream_queues (s : State) (n : Fin 32) (g : Stream → Stream) : (State.modStream s n g).queues = s.queues := rfl
@[simp] theorem State.modStream_accepted (s : State) (n : Fin 32) (g : Stream → Stream) : (State.modStream s n g).accepted = s.accepted := rfl
@[simp] theorem State.modStream_owed (s : State) (n : Fin 32) (g : Stream → Stream) : (State.modStream s n g).owed = s.owed := rfl
@[simp] theorem State.modStream_log (s : State) (n : Fin 32) (g : Stream → Stream) : (State.modStream s n g).log = s.log := rfl
@[simp] theorem State.modStream_mirror (s : State) (n : Fin 32) (g : Stream → Stream) : (State.modStream s n g).mirror = s.mirror := rfl
@[simp] theorem State.modStream_mirrorNumber (s : State) (n : Fin 32) (g : Stream → Stream) : (State.modStream s n g).mirrorNumber = s.mirrorNumber := rfl
@[simp] theorem State.modStream_clk (s : State) (n : Fin 32) (g : Stream → Stream) : (State.modStream s n g).clk = s.clk := rfl
@[simp] theorem State.modStream_pwr (s : State) (n : Fin 32) (g : Stream → Stream) : (State.modStream s n g).pwr = s.pwr := rfl
@[simp] theorem State.modStream_start (s : State) (n : Fin 32) (g : Stream → Stream) : (State.modStream s n g).start = s.start := rfl
@[simp] theorem State.modStream_mram (s : State) (n : Fin 32) (g : Stream → Stream) : (State.modStream s n g).mram = s.mram := rfl
@[simp] theorem State.modStream_meas (s : State) (n : Fin 32) (g : Stream → Stream) : (State.modStream s n g).meas = s.meas := rfl
@[simp] theorem State.modStream_guard (s : State) (n : Fin 32) (g : Stream → Stream) : (State.modStream s n g).guard = s.guard := rfl
@[simp] theorem State.modStream_ports (s : State) (n : Fin 32) (g : Stream → Stream) : (State.modStream s n g).ports = s.ports := rfl
@[simp] theorem State.modStream_deviceEpoch (s : State) (n : Fin 32) (g : Stream → Stream) : (State.modStream s n g).deviceEpoch = s.deviceEpoch := rfl
@[simp] theorem State.modStream_epochs (s : State) (n : Fin 32) (g : Stream → Stream) : (State.modStream s n g).epochs = s.epochs := rfl
@[simp] theorem State.modStream_pos (s : State) (n : Fin 32) (g : Stream → Stream) : (State.modStream s n g).pos = s.pos := rfl
@[simp] theorem State.modStream_emu (s : State) (n : Fin 32) (g : Stream → Stream) : (State.modStream s n g).emu = s.emu := rfl
@[simp] theorem State.modStream_cmps (s : State) (n : Fin 32) (g : Stream → Stream) : (State.modStream s n g).cmps = s.cmps := rfl
@[simp] theorem State.modStream_trigs (s : State) (n : Fin 32) (g : Stream → Stream) : (State.modStream s n g).trigs = s.trigs := rfl
@[simp] theorem State.modStream_hoppers (s : State) (n : Fin 32) (g : Stream → Stream) : (State.modStream s n g).hoppers = s.hoppers := rfl
@[simp] theorem State.modStream_hopEvent (s : State) (n : Fin 32) (g : Stream → Stream) : (State.modStream s n g).hopEvent = s.hopEvent := rfl
@[simp] theorem State.modStream_prep (s : State) (n : Fin 32) (g : Stream → Stream) : (State.modStream s n g).prep = s.prep := rfl
@[simp] theorem State.modStream_audio (s : State) (n : Fin 32) (g : Stream → Stream) : (State.modStream s n g).audio = s.audio := rfl
@[simp] theorem State.modStream_weir (s : State) (n : Fin 32) (g : Stream → Stream) : (State.modStream s n g).weir = s.weir := rfl
@[simp] theorem State.modStream_chans (s : State) (n : Fin 32) (g : Stream → Stream) : (State.modStream s n g).chans = s.chans := rfl
@[simp] theorem State.modStream_wit (s : State) (n : Fin 32) (g : Stream → Stream) : (State.modStream s n g).wit = s.wit := rfl
@[simp] theorem State.modStream_millpond (s : State) (n : Fin 32) (g : Stream → Stream) : (State.modStream s n g).millpond = s.millpond := rfl
@[simp] theorem State.modStream_lpddr (s : State) (n : Fin 32) (g : Stream → Stream) : (State.modStream s n g).lpddr = s.lpddr := rfl
@[simp] theorem State.modStream_out (s : State) (n : Fin 32) (g : Stream → Stream) : (State.modStream s n g).out = s.out := rfl
@[simp] theorem State.modStream_drawn (s : State) (n : Fin 32) (g : Stream → Stream) : (State.modStream s n g).drawn = s.drawn := rfl
@[simp] theorem State.modStream_streams (s : State) (n : Fin 32) (g : Stream → Stream) :
    (State.modStream s n g).streams = vmod s.streams n g := rfl

@[simp] theorem State.modPort_elapsed (s : State) (p : Fin 8) (g : Port → Port) : (State.modPort s p g).elapsed = s.elapsed := rfl
@[simp] theorem State.modPort_pending (s : State) (p : Fin 8) (g : Port → Port) : (State.modPort s p g).pending = s.pending := rfl
@[simp] theorem State.modPort_link (s : State) (p : Fin 8) (g : Port → Port) : (State.modPort s p g).link = s.link := rfl
@[simp] theorem State.modPort_fns (s : State) (p : Fin 8) (g : Port → Port) : (State.modPort s p g).fns = s.fns := rfl
@[simp] theorem State.modPort_lastServed (s : State) (p : Fin 8) (g : Port → Port) : (State.modPort s p g).lastServed = s.lastServed := rfl
@[simp] theorem State.modPort_plan (s : State) (p : Fin 8) (g : Port → Port) : (State.modPort s p g).plan = s.plan := rfl
@[simp] theorem State.modPort_queues (s : State) (p : Fin 8) (g : Port → Port) : (State.modPort s p g).queues = s.queues := rfl
@[simp] theorem State.modPort_accepted (s : State) (p : Fin 8) (g : Port → Port) : (State.modPort s p g).accepted = s.accepted := rfl
@[simp] theorem State.modPort_owed (s : State) (p : Fin 8) (g : Port → Port) : (State.modPort s p g).owed = s.owed := rfl
@[simp] theorem State.modPort_log (s : State) (p : Fin 8) (g : Port → Port) : (State.modPort s p g).log = s.log := rfl
@[simp] theorem State.modPort_mirror (s : State) (p : Fin 8) (g : Port → Port) : (State.modPort s p g).mirror = s.mirror := rfl
@[simp] theorem State.modPort_mirrorNumber (s : State) (p : Fin 8) (g : Port → Port) : (State.modPort s p g).mirrorNumber = s.mirrorNumber := rfl
@[simp] theorem State.modPort_clk (s : State) (p : Fin 8) (g : Port → Port) : (State.modPort s p g).clk = s.clk := rfl
@[simp] theorem State.modPort_pwr (s : State) (p : Fin 8) (g : Port → Port) : (State.modPort s p g).pwr = s.pwr := rfl
@[simp] theorem State.modPort_start (s : State) (p : Fin 8) (g : Port → Port) : (State.modPort s p g).start = s.start := rfl
@[simp] theorem State.modPort_mram (s : State) (p : Fin 8) (g : Port → Port) : (State.modPort s p g).mram = s.mram := rfl
@[simp] theorem State.modPort_meas (s : State) (p : Fin 8) (g : Port → Port) : (State.modPort s p g).meas = s.meas := rfl
@[simp] theorem State.modPort_guard (s : State) (p : Fin 8) (g : Port → Port) : (State.modPort s p g).guard = s.guard := rfl
@[simp] theorem State.modPort_streams (s : State) (p : Fin 8) (g : Port → Port) : (State.modPort s p g).streams = s.streams := rfl
@[simp] theorem State.modPort_deviceEpoch (s : State) (p : Fin 8) (g : Port → Port) : (State.modPort s p g).deviceEpoch = s.deviceEpoch := rfl
@[simp] theorem State.modPort_epochs (s : State) (p : Fin 8) (g : Port → Port) : (State.modPort s p g).epochs = s.epochs := rfl
@[simp] theorem State.modPort_pos (s : State) (p : Fin 8) (g : Port → Port) : (State.modPort s p g).pos = s.pos := rfl
@[simp] theorem State.modPort_emu (s : State) (p : Fin 8) (g : Port → Port) : (State.modPort s p g).emu = s.emu := rfl
@[simp] theorem State.modPort_cmps (s : State) (p : Fin 8) (g : Port → Port) : (State.modPort s p g).cmps = s.cmps := rfl
@[simp] theorem State.modPort_trigs (s : State) (p : Fin 8) (g : Port → Port) : (State.modPort s p g).trigs = s.trigs := rfl
@[simp] theorem State.modPort_hoppers (s : State) (p : Fin 8) (g : Port → Port) : (State.modPort s p g).hoppers = s.hoppers := rfl
@[simp] theorem State.modPort_hopEvent (s : State) (p : Fin 8) (g : Port → Port) : (State.modPort s p g).hopEvent = s.hopEvent := rfl
@[simp] theorem State.modPort_prep (s : State) (p : Fin 8) (g : Port → Port) : (State.modPort s p g).prep = s.prep := rfl
@[simp] theorem State.modPort_audio (s : State) (p : Fin 8) (g : Port → Port) : (State.modPort s p g).audio = s.audio := rfl
@[simp] theorem State.modPort_weir (s : State) (p : Fin 8) (g : Port → Port) : (State.modPort s p g).weir = s.weir := rfl
@[simp] theorem State.modPort_chans (s : State) (p : Fin 8) (g : Port → Port) : (State.modPort s p g).chans = s.chans := rfl
@[simp] theorem State.modPort_wit (s : State) (p : Fin 8) (g : Port → Port) : (State.modPort s p g).wit = s.wit := rfl
@[simp] theorem State.modPort_millpond (s : State) (p : Fin 8) (g : Port → Port) : (State.modPort s p g).millpond = s.millpond := rfl
@[simp] theorem State.modPort_lpddr (s : State) (p : Fin 8) (g : Port → Port) : (State.modPort s p g).lpddr = s.lpddr := rfl
@[simp] theorem State.modPort_out (s : State) (p : Fin 8) (g : Port → Port) : (State.modPort s p g).out = s.out := rfl
@[simp] theorem State.modPort_drawn (s : State) (p : Fin 8) (g : Port → Port) : (State.modPort s p g).drawn = s.drawn := rfl
@[simp] theorem State.modPort_ports (s : State) (p : Fin 8) (g : Port → Port) :
    (State.modPort s p g).ports = vmod s.ports p g := rfl

@[simp] theorem State.modHop_elapsed (s : State) (h : Fin 16) (g : Hop → Hop) : (State.modHop s h g).elapsed = s.elapsed := rfl
@[simp] theorem State.modHop_pending (s : State) (h : Fin 16) (g : Hop → Hop) : (State.modHop s h g).pending = s.pending := rfl
@[simp] theorem State.modHop_link (s : State) (h : Fin 16) (g : Hop → Hop) : (State.modHop s h g).link = s.link := rfl
@[simp] theorem State.modHop_fns (s : State) (h : Fin 16) (g : Hop → Hop) : (State.modHop s h g).fns = s.fns := rfl
@[simp] theorem State.modHop_lastServed (s : State) (h : Fin 16) (g : Hop → Hop) : (State.modHop s h g).lastServed = s.lastServed := rfl
@[simp] theorem State.modHop_plan (s : State) (h : Fin 16) (g : Hop → Hop) : (State.modHop s h g).plan = s.plan := rfl
@[simp] theorem State.modHop_queues (s : State) (h : Fin 16) (g : Hop → Hop) : (State.modHop s h g).queues = s.queues := rfl
@[simp] theorem State.modHop_accepted (s : State) (h : Fin 16) (g : Hop → Hop) : (State.modHop s h g).accepted = s.accepted := rfl
@[simp] theorem State.modHop_owed (s : State) (h : Fin 16) (g : Hop → Hop) : (State.modHop s h g).owed = s.owed := rfl
@[simp] theorem State.modHop_log (s : State) (h : Fin 16) (g : Hop → Hop) : (State.modHop s h g).log = s.log := rfl
@[simp] theorem State.modHop_mirror (s : State) (h : Fin 16) (g : Hop → Hop) : (State.modHop s h g).mirror = s.mirror := rfl
@[simp] theorem State.modHop_mirrorNumber (s : State) (h : Fin 16) (g : Hop → Hop) : (State.modHop s h g).mirrorNumber = s.mirrorNumber := rfl
@[simp] theorem State.modHop_clk (s : State) (h : Fin 16) (g : Hop → Hop) : (State.modHop s h g).clk = s.clk := rfl
@[simp] theorem State.modHop_pwr (s : State) (h : Fin 16) (g : Hop → Hop) : (State.modHop s h g).pwr = s.pwr := rfl
@[simp] theorem State.modHop_start (s : State) (h : Fin 16) (g : Hop → Hop) : (State.modHop s h g).start = s.start := rfl
@[simp] theorem State.modHop_mram (s : State) (h : Fin 16) (g : Hop → Hop) : (State.modHop s h g).mram = s.mram := rfl
@[simp] theorem State.modHop_meas (s : State) (h : Fin 16) (g : Hop → Hop) : (State.modHop s h g).meas = s.meas := rfl
@[simp] theorem State.modHop_guard (s : State) (h : Fin 16) (g : Hop → Hop) : (State.modHop s h g).guard = s.guard := rfl
@[simp] theorem State.modHop_ports (s : State) (h : Fin 16) (g : Hop → Hop) : (State.modHop s h g).ports = s.ports := rfl
@[simp] theorem State.modHop_streams (s : State) (h : Fin 16) (g : Hop → Hop) : (State.modHop s h g).streams = s.streams := rfl
@[simp] theorem State.modHop_deviceEpoch (s : State) (h : Fin 16) (g : Hop → Hop) : (State.modHop s h g).deviceEpoch = s.deviceEpoch := rfl
@[simp] theorem State.modHop_epochs (s : State) (h : Fin 16) (g : Hop → Hop) : (State.modHop s h g).epochs = s.epochs := rfl
@[simp] theorem State.modHop_pos (s : State) (h : Fin 16) (g : Hop → Hop) : (State.modHop s h g).pos = s.pos := rfl
@[simp] theorem State.modHop_emu (s : State) (h : Fin 16) (g : Hop → Hop) : (State.modHop s h g).emu = s.emu := rfl
@[simp] theorem State.modHop_cmps (s : State) (h : Fin 16) (g : Hop → Hop) : (State.modHop s h g).cmps = s.cmps := rfl
@[simp] theorem State.modHop_trigs (s : State) (h : Fin 16) (g : Hop → Hop) : (State.modHop s h g).trigs = s.trigs := rfl
@[simp] theorem State.modHop_hopEvent (s : State) (h : Fin 16) (g : Hop → Hop) : (State.modHop s h g).hopEvent = s.hopEvent := rfl
@[simp] theorem State.modHop_prep (s : State) (h : Fin 16) (g : Hop → Hop) : (State.modHop s h g).prep = s.prep := rfl
@[simp] theorem State.modHop_audio (s : State) (h : Fin 16) (g : Hop → Hop) : (State.modHop s h g).audio = s.audio := rfl
@[simp] theorem State.modHop_weir (s : State) (h : Fin 16) (g : Hop → Hop) : (State.modHop s h g).weir = s.weir := rfl
@[simp] theorem State.modHop_chans (s : State) (h : Fin 16) (g : Hop → Hop) : (State.modHop s h g).chans = s.chans := rfl
@[simp] theorem State.modHop_wit (s : State) (h : Fin 16) (g : Hop → Hop) : (State.modHop s h g).wit = s.wit := rfl
@[simp] theorem State.modHop_millpond (s : State) (h : Fin 16) (g : Hop → Hop) : (State.modHop s h g).millpond = s.millpond := rfl
@[simp] theorem State.modHop_lpddr (s : State) (h : Fin 16) (g : Hop → Hop) : (State.modHop s h g).lpddr = s.lpddr := rfl
@[simp] theorem State.modHop_out (s : State) (h : Fin 16) (g : Hop → Hop) : (State.modHop s h g).out = s.out := rfl
@[simp] theorem State.modHop_drawn (s : State) (h : Fin 16) (g : Hop → Hop) : (State.modHop s h g).drawn = s.drawn := rfl
@[simp] theorem State.modHop_hoppers (s : State) (h : Fin 16) (g : Hop → Hop) :
    (State.modHop s h g).hoppers = vmod s.hoppers h g := rfl

@[simp] theorem State.modEpochs_elapsed (s : State) (f : Fn) (g : Epochs → Epochs) : (State.modEpochs s f g).elapsed = s.elapsed := rfl
@[simp] theorem State.modEpochs_pending (s : State) (f : Fn) (g : Epochs → Epochs) : (State.modEpochs s f g).pending = s.pending := rfl
@[simp] theorem State.modEpochs_link (s : State) (f : Fn) (g : Epochs → Epochs) : (State.modEpochs s f g).link = s.link := rfl
@[simp] theorem State.modEpochs_fns (s : State) (f : Fn) (g : Epochs → Epochs) : (State.modEpochs s f g).fns = s.fns := rfl
@[simp] theorem State.modEpochs_lastServed (s : State) (f : Fn) (g : Epochs → Epochs) : (State.modEpochs s f g).lastServed = s.lastServed := rfl
@[simp] theorem State.modEpochs_plan (s : State) (f : Fn) (g : Epochs → Epochs) : (State.modEpochs s f g).plan = s.plan := rfl
@[simp] theorem State.modEpochs_queues (s : State) (f : Fn) (g : Epochs → Epochs) : (State.modEpochs s f g).queues = s.queues := rfl
@[simp] theorem State.modEpochs_accepted (s : State) (f : Fn) (g : Epochs → Epochs) : (State.modEpochs s f g).accepted = s.accepted := rfl
@[simp] theorem State.modEpochs_owed (s : State) (f : Fn) (g : Epochs → Epochs) : (State.modEpochs s f g).owed = s.owed := rfl
@[simp] theorem State.modEpochs_log (s : State) (f : Fn) (g : Epochs → Epochs) : (State.modEpochs s f g).log = s.log := rfl
@[simp] theorem State.modEpochs_mirror (s : State) (f : Fn) (g : Epochs → Epochs) : (State.modEpochs s f g).mirror = s.mirror := rfl
@[simp] theorem State.modEpochs_mirrorNumber (s : State) (f : Fn) (g : Epochs → Epochs) : (State.modEpochs s f g).mirrorNumber = s.mirrorNumber := rfl
@[simp] theorem State.modEpochs_clk (s : State) (f : Fn) (g : Epochs → Epochs) : (State.modEpochs s f g).clk = s.clk := rfl
@[simp] theorem State.modEpochs_pwr (s : State) (f : Fn) (g : Epochs → Epochs) : (State.modEpochs s f g).pwr = s.pwr := rfl
@[simp] theorem State.modEpochs_start (s : State) (f : Fn) (g : Epochs → Epochs) : (State.modEpochs s f g).start = s.start := rfl
@[simp] theorem State.modEpochs_mram (s : State) (f : Fn) (g : Epochs → Epochs) : (State.modEpochs s f g).mram = s.mram := rfl
@[simp] theorem State.modEpochs_meas (s : State) (f : Fn) (g : Epochs → Epochs) : (State.modEpochs s f g).meas = s.meas := rfl
@[simp] theorem State.modEpochs_guard (s : State) (f : Fn) (g : Epochs → Epochs) : (State.modEpochs s f g).guard = s.guard := rfl
@[simp] theorem State.modEpochs_ports (s : State) (f : Fn) (g : Epochs → Epochs) : (State.modEpochs s f g).ports = s.ports := rfl
@[simp] theorem State.modEpochs_streams (s : State) (f : Fn) (g : Epochs → Epochs) : (State.modEpochs s f g).streams = s.streams := rfl
@[simp] theorem State.modEpochs_deviceEpoch (s : State) (f : Fn) (g : Epochs → Epochs) : (State.modEpochs s f g).deviceEpoch = s.deviceEpoch := rfl
@[simp] theorem State.modEpochs_pos (s : State) (f : Fn) (g : Epochs → Epochs) : (State.modEpochs s f g).pos = s.pos := rfl
@[simp] theorem State.modEpochs_emu (s : State) (f : Fn) (g : Epochs → Epochs) : (State.modEpochs s f g).emu = s.emu := rfl
@[simp] theorem State.modEpochs_cmps (s : State) (f : Fn) (g : Epochs → Epochs) : (State.modEpochs s f g).cmps = s.cmps := rfl
@[simp] theorem State.modEpochs_trigs (s : State) (f : Fn) (g : Epochs → Epochs) : (State.modEpochs s f g).trigs = s.trigs := rfl
@[simp] theorem State.modEpochs_hoppers (s : State) (f : Fn) (g : Epochs → Epochs) : (State.modEpochs s f g).hoppers = s.hoppers := rfl
@[simp] theorem State.modEpochs_hopEvent (s : State) (f : Fn) (g : Epochs → Epochs) : (State.modEpochs s f g).hopEvent = s.hopEvent := rfl
@[simp] theorem State.modEpochs_prep (s : State) (f : Fn) (g : Epochs → Epochs) : (State.modEpochs s f g).prep = s.prep := rfl
@[simp] theorem State.modEpochs_audio (s : State) (f : Fn) (g : Epochs → Epochs) : (State.modEpochs s f g).audio = s.audio := rfl
@[simp] theorem State.modEpochs_weir (s : State) (f : Fn) (g : Epochs → Epochs) : (State.modEpochs s f g).weir = s.weir := rfl
@[simp] theorem State.modEpochs_chans (s : State) (f : Fn) (g : Epochs → Epochs) : (State.modEpochs s f g).chans = s.chans := rfl
@[simp] theorem State.modEpochs_wit (s : State) (f : Fn) (g : Epochs → Epochs) : (State.modEpochs s f g).wit = s.wit := rfl
@[simp] theorem State.modEpochs_millpond (s : State) (f : Fn) (g : Epochs → Epochs) : (State.modEpochs s f g).millpond = s.millpond := rfl
@[simp] theorem State.modEpochs_lpddr (s : State) (f : Fn) (g : Epochs → Epochs) : (State.modEpochs s f g).lpddr = s.lpddr := rfl
@[simp] theorem State.modEpochs_out (s : State) (f : Fn) (g : Epochs → Epochs) : (State.modEpochs s f g).out = s.out := rfl
@[simp] theorem State.modEpochs_drawn (s : State) (f : Fn) (g : Epochs → Epochs) : (State.modEpochs s f g).drawn = s.drawn := rfl
@[simp] theorem State.modEpochs_epochs (s : State) (f : Fn) (g : Epochs → Epochs) :
    (State.modEpochs s f g).epochs = vmod s.epochs f g := rfl

@[simp] theorem State.modChan_elapsed (s : State) (c : Fin 64) (g : Chan → Chan) : (State.modChan s c g).elapsed = s.elapsed := rfl
@[simp] theorem State.modChan_pending (s : State) (c : Fin 64) (g : Chan → Chan) : (State.modChan s c g).pending = s.pending := rfl
@[simp] theorem State.modChan_link (s : State) (c : Fin 64) (g : Chan → Chan) : (State.modChan s c g).link = s.link := rfl
@[simp] theorem State.modChan_fns (s : State) (c : Fin 64) (g : Chan → Chan) : (State.modChan s c g).fns = s.fns := rfl
@[simp] theorem State.modChan_lastServed (s : State) (c : Fin 64) (g : Chan → Chan) : (State.modChan s c g).lastServed = s.lastServed := rfl
@[simp] theorem State.modChan_plan (s : State) (c : Fin 64) (g : Chan → Chan) : (State.modChan s c g).plan = s.plan := rfl
@[simp] theorem State.modChan_queues (s : State) (c : Fin 64) (g : Chan → Chan) : (State.modChan s c g).queues = s.queues := rfl
@[simp] theorem State.modChan_accepted (s : State) (c : Fin 64) (g : Chan → Chan) : (State.modChan s c g).accepted = s.accepted := rfl
@[simp] theorem State.modChan_owed (s : State) (c : Fin 64) (g : Chan → Chan) : (State.modChan s c g).owed = s.owed := rfl
@[simp] theorem State.modChan_log (s : State) (c : Fin 64) (g : Chan → Chan) : (State.modChan s c g).log = s.log := rfl
@[simp] theorem State.modChan_mirror (s : State) (c : Fin 64) (g : Chan → Chan) : (State.modChan s c g).mirror = s.mirror := rfl
@[simp] theorem State.modChan_mirrorNumber (s : State) (c : Fin 64) (g : Chan → Chan) : (State.modChan s c g).mirrorNumber = s.mirrorNumber := rfl
@[simp] theorem State.modChan_clk (s : State) (c : Fin 64) (g : Chan → Chan) : (State.modChan s c g).clk = s.clk := rfl
@[simp] theorem State.modChan_pwr (s : State) (c : Fin 64) (g : Chan → Chan) : (State.modChan s c g).pwr = s.pwr := rfl
@[simp] theorem State.modChan_start (s : State) (c : Fin 64) (g : Chan → Chan) : (State.modChan s c g).start = s.start := rfl
@[simp] theorem State.modChan_mram (s : State) (c : Fin 64) (g : Chan → Chan) : (State.modChan s c g).mram = s.mram := rfl
@[simp] theorem State.modChan_meas (s : State) (c : Fin 64) (g : Chan → Chan) : (State.modChan s c g).meas = s.meas := rfl
@[simp] theorem State.modChan_guard (s : State) (c : Fin 64) (g : Chan → Chan) : (State.modChan s c g).guard = s.guard := rfl
@[simp] theorem State.modChan_ports (s : State) (c : Fin 64) (g : Chan → Chan) : (State.modChan s c g).ports = s.ports := rfl
@[simp] theorem State.modChan_streams (s : State) (c : Fin 64) (g : Chan → Chan) : (State.modChan s c g).streams = s.streams := rfl
@[simp] theorem State.modChan_deviceEpoch (s : State) (c : Fin 64) (g : Chan → Chan) : (State.modChan s c g).deviceEpoch = s.deviceEpoch := rfl
@[simp] theorem State.modChan_epochs (s : State) (c : Fin 64) (g : Chan → Chan) : (State.modChan s c g).epochs = s.epochs := rfl
@[simp] theorem State.modChan_pos (s : State) (c : Fin 64) (g : Chan → Chan) : (State.modChan s c g).pos = s.pos := rfl
@[simp] theorem State.modChan_emu (s : State) (c : Fin 64) (g : Chan → Chan) : (State.modChan s c g).emu = s.emu := rfl
@[simp] theorem State.modChan_cmps (s : State) (c : Fin 64) (g : Chan → Chan) : (State.modChan s c g).cmps = s.cmps := rfl
@[simp] theorem State.modChan_trigs (s : State) (c : Fin 64) (g : Chan → Chan) : (State.modChan s c g).trigs = s.trigs := rfl
@[simp] theorem State.modChan_hoppers (s : State) (c : Fin 64) (g : Chan → Chan) : (State.modChan s c g).hoppers = s.hoppers := rfl
@[simp] theorem State.modChan_hopEvent (s : State) (c : Fin 64) (g : Chan → Chan) : (State.modChan s c g).hopEvent = s.hopEvent := rfl
@[simp] theorem State.modChan_prep (s : State) (c : Fin 64) (g : Chan → Chan) : (State.modChan s c g).prep = s.prep := rfl
@[simp] theorem State.modChan_audio (s : State) (c : Fin 64) (g : Chan → Chan) : (State.modChan s c g).audio = s.audio := rfl
@[simp] theorem State.modChan_weir (s : State) (c : Fin 64) (g : Chan → Chan) : (State.modChan s c g).weir = s.weir := rfl
@[simp] theorem State.modChan_wit (s : State) (c : Fin 64) (g : Chan → Chan) : (State.modChan s c g).wit = s.wit := rfl
@[simp] theorem State.modChan_millpond (s : State) (c : Fin 64) (g : Chan → Chan) : (State.modChan s c g).millpond = s.millpond := rfl
@[simp] theorem State.modChan_lpddr (s : State) (c : Fin 64) (g : Chan → Chan) : (State.modChan s c g).lpddr = s.lpddr := rfl
@[simp] theorem State.modChan_out (s : State) (c : Fin 64) (g : Chan → Chan) : (State.modChan s c g).out = s.out := rfl
@[simp] theorem State.modChan_drawn (s : State) (c : Fin 64) (g : Chan → Chan) : (State.modChan s c g).drawn = s.drawn := rfl
@[simp] theorem State.modChan_chans (s : State) (c : Fin 64) (g : Chan → Chan) :
    (State.modChan s c g).chans = vmod s.chans c g := rfl

@[simp] theorem lpWrite_elapsed (addr : Nat) (bytes : List Byte) (s : State) : (lpWrite addr bytes s).elapsed = s.elapsed := rfl
@[simp] theorem lpWrite_pending (addr : Nat) (bytes : List Byte) (s : State) : (lpWrite addr bytes s).pending = s.pending := rfl
@[simp] theorem lpWrite_link (addr : Nat) (bytes : List Byte) (s : State) : (lpWrite addr bytes s).link = s.link := rfl
@[simp] theorem lpWrite_fns (addr : Nat) (bytes : List Byte) (s : State) : (lpWrite addr bytes s).fns = s.fns := rfl
@[simp] theorem lpWrite_lastServed (addr : Nat) (bytes : List Byte) (s : State) : (lpWrite addr bytes s).lastServed = s.lastServed := rfl
@[simp] theorem lpWrite_plan (addr : Nat) (bytes : List Byte) (s : State) : (lpWrite addr bytes s).plan = s.plan := rfl
@[simp] theorem lpWrite_queues (addr : Nat) (bytes : List Byte) (s : State) : (lpWrite addr bytes s).queues = s.queues := rfl
@[simp] theorem lpWrite_accepted (addr : Nat) (bytes : List Byte) (s : State) : (lpWrite addr bytes s).accepted = s.accepted := rfl
@[simp] theorem lpWrite_owed (addr : Nat) (bytes : List Byte) (s : State) : (lpWrite addr bytes s).owed = s.owed := rfl
@[simp] theorem lpWrite_log (addr : Nat) (bytes : List Byte) (s : State) : (lpWrite addr bytes s).log = s.log := rfl
@[simp] theorem lpWrite_mirror (addr : Nat) (bytes : List Byte) (s : State) : (lpWrite addr bytes s).mirror = s.mirror := rfl
@[simp] theorem lpWrite_mirrorNumber (addr : Nat) (bytes : List Byte) (s : State) : (lpWrite addr bytes s).mirrorNumber = s.mirrorNumber := rfl
@[simp] theorem lpWrite_clk (addr : Nat) (bytes : List Byte) (s : State) : (lpWrite addr bytes s).clk = s.clk := rfl
@[simp] theorem lpWrite_pwr (addr : Nat) (bytes : List Byte) (s : State) : (lpWrite addr bytes s).pwr = s.pwr := rfl
@[simp] theorem lpWrite_start (addr : Nat) (bytes : List Byte) (s : State) : (lpWrite addr bytes s).start = s.start := rfl
@[simp] theorem lpWrite_mram (addr : Nat) (bytes : List Byte) (s : State) : (lpWrite addr bytes s).mram = s.mram := rfl
@[simp] theorem lpWrite_meas (addr : Nat) (bytes : List Byte) (s : State) : (lpWrite addr bytes s).meas = s.meas := rfl
@[simp] theorem lpWrite_guard (addr : Nat) (bytes : List Byte) (s : State) : (lpWrite addr bytes s).guard = s.guard := rfl
@[simp] theorem lpWrite_ports (addr : Nat) (bytes : List Byte) (s : State) : (lpWrite addr bytes s).ports = s.ports := rfl
@[simp] theorem lpWrite_streams (addr : Nat) (bytes : List Byte) (s : State) : (lpWrite addr bytes s).streams = s.streams := rfl
@[simp] theorem lpWrite_deviceEpoch (addr : Nat) (bytes : List Byte) (s : State) : (lpWrite addr bytes s).deviceEpoch = s.deviceEpoch := rfl
@[simp] theorem lpWrite_epochs (addr : Nat) (bytes : List Byte) (s : State) : (lpWrite addr bytes s).epochs = s.epochs := rfl
@[simp] theorem lpWrite_pos (addr : Nat) (bytes : List Byte) (s : State) : (lpWrite addr bytes s).pos = s.pos := rfl
@[simp] theorem lpWrite_emu (addr : Nat) (bytes : List Byte) (s : State) : (lpWrite addr bytes s).emu = s.emu := rfl
@[simp] theorem lpWrite_cmps (addr : Nat) (bytes : List Byte) (s : State) : (lpWrite addr bytes s).cmps = s.cmps := rfl
@[simp] theorem lpWrite_trigs (addr : Nat) (bytes : List Byte) (s : State) : (lpWrite addr bytes s).trigs = s.trigs := rfl
@[simp] theorem lpWrite_hoppers (addr : Nat) (bytes : List Byte) (s : State) : (lpWrite addr bytes s).hoppers = s.hoppers := rfl
@[simp] theorem lpWrite_hopEvent (addr : Nat) (bytes : List Byte) (s : State) : (lpWrite addr bytes s).hopEvent = s.hopEvent := rfl
@[simp] theorem lpWrite_prep (addr : Nat) (bytes : List Byte) (s : State) : (lpWrite addr bytes s).prep = s.prep := rfl
@[simp] theorem lpWrite_audio (addr : Nat) (bytes : List Byte) (s : State) : (lpWrite addr bytes s).audio = s.audio := rfl
@[simp] theorem lpWrite_weir (addr : Nat) (bytes : List Byte) (s : State) : (lpWrite addr bytes s).weir = s.weir := rfl
@[simp] theorem lpWrite_chans (addr : Nat) (bytes : List Byte) (s : State) : (lpWrite addr bytes s).chans = s.chans := rfl
@[simp] theorem lpWrite_wit (addr : Nat) (bytes : List Byte) (s : State) : (lpWrite addr bytes s).wit = s.wit := rfl
@[simp] theorem lpWrite_millpond (addr : Nat) (bytes : List Byte) (s : State) : (lpWrite addr bytes s).millpond = s.millpond := rfl
@[simp] theorem lpWrite_out (addr : Nat) (bytes : List Byte) (s : State) : (lpWrite addr bytes s).out = s.out := rfl
@[simp] theorem lpWrite_drawn (addr : Nat) (bytes : List Byte) (s : State) : (lpWrite addr bytes s).drawn = s.drawn := rfl
@[simp] theorem lpWrite_lpddr (addr : Nat) (bytes : List Byte) (s : State) :
    (lpWrite addr bytes s).lpddr = Memory.writeList s.lpddr addr bytes := rfl

@[simp] theorem State.modPrep_elapsed (s : State) (g : Prep → Prep) : (State.modPrep s g).elapsed = s.elapsed := rfl
@[simp] theorem State.modPrep_pending (s : State) (g : Prep → Prep) : (State.modPrep s g).pending = s.pending := rfl
@[simp] theorem State.modPrep_link (s : State) (g : Prep → Prep) : (State.modPrep s g).link = s.link := rfl
@[simp] theorem State.modPrep_fns (s : State) (g : Prep → Prep) : (State.modPrep s g).fns = s.fns := rfl
@[simp] theorem State.modPrep_lastServed (s : State) (g : Prep → Prep) : (State.modPrep s g).lastServed = s.lastServed := rfl
@[simp] theorem State.modPrep_plan (s : State) (g : Prep → Prep) : (State.modPrep s g).plan = s.plan := rfl
@[simp] theorem State.modPrep_queues (s : State) (g : Prep → Prep) : (State.modPrep s g).queues = s.queues := rfl
@[simp] theorem State.modPrep_accepted (s : State) (g : Prep → Prep) : (State.modPrep s g).accepted = s.accepted := rfl
@[simp] theorem State.modPrep_owed (s : State) (g : Prep → Prep) : (State.modPrep s g).owed = s.owed := rfl
@[simp] theorem State.modPrep_log (s : State) (g : Prep → Prep) : (State.modPrep s g).log = s.log := rfl
@[simp] theorem State.modPrep_mirror (s : State) (g : Prep → Prep) : (State.modPrep s g).mirror = s.mirror := rfl
@[simp] theorem State.modPrep_mirrorNumber (s : State) (g : Prep → Prep) : (State.modPrep s g).mirrorNumber = s.mirrorNumber := rfl
@[simp] theorem State.modPrep_clk (s : State) (g : Prep → Prep) : (State.modPrep s g).clk = s.clk := rfl
@[simp] theorem State.modPrep_pwr (s : State) (g : Prep → Prep) : (State.modPrep s g).pwr = s.pwr := rfl
@[simp] theorem State.modPrep_start (s : State) (g : Prep → Prep) : (State.modPrep s g).start = s.start := rfl
@[simp] theorem State.modPrep_mram (s : State) (g : Prep → Prep) : (State.modPrep s g).mram = s.mram := rfl
@[simp] theorem State.modPrep_meas (s : State) (g : Prep → Prep) : (State.modPrep s g).meas = s.meas := rfl
@[simp] theorem State.modPrep_guard (s : State) (g : Prep → Prep) : (State.modPrep s g).guard = s.guard := rfl
@[simp] theorem State.modPrep_ports (s : State) (g : Prep → Prep) : (State.modPrep s g).ports = s.ports := rfl
@[simp] theorem State.modPrep_streams (s : State) (g : Prep → Prep) : (State.modPrep s g).streams = s.streams := rfl
@[simp] theorem State.modPrep_deviceEpoch (s : State) (g : Prep → Prep) : (State.modPrep s g).deviceEpoch = s.deviceEpoch := rfl
@[simp] theorem State.modPrep_epochs (s : State) (g : Prep → Prep) : (State.modPrep s g).epochs = s.epochs := rfl
@[simp] theorem State.modPrep_pos (s : State) (g : Prep → Prep) : (State.modPrep s g).pos = s.pos := rfl
@[simp] theorem State.modPrep_emu (s : State) (g : Prep → Prep) : (State.modPrep s g).emu = s.emu := rfl
@[simp] theorem State.modPrep_cmps (s : State) (g : Prep → Prep) : (State.modPrep s g).cmps = s.cmps := rfl
@[simp] theorem State.modPrep_trigs (s : State) (g : Prep → Prep) : (State.modPrep s g).trigs = s.trigs := rfl
@[simp] theorem State.modPrep_hoppers (s : State) (g : Prep → Prep) : (State.modPrep s g).hoppers = s.hoppers := rfl
@[simp] theorem State.modPrep_hopEvent (s : State) (g : Prep → Prep) : (State.modPrep s g).hopEvent = s.hopEvent := rfl
@[simp] theorem State.modPrep_audio (s : State) (g : Prep → Prep) : (State.modPrep s g).audio = s.audio := rfl
@[simp] theorem State.modPrep_weir (s : State) (g : Prep → Prep) : (State.modPrep s g).weir = s.weir := rfl
@[simp] theorem State.modPrep_chans (s : State) (g : Prep → Prep) : (State.modPrep s g).chans = s.chans := rfl
@[simp] theorem State.modPrep_wit (s : State) (g : Prep → Prep) : (State.modPrep s g).wit = s.wit := rfl
@[simp] theorem State.modPrep_millpond (s : State) (g : Prep → Prep) : (State.modPrep s g).millpond = s.millpond := rfl
@[simp] theorem State.modPrep_lpddr (s : State) (g : Prep → Prep) : (State.modPrep s g).lpddr = s.lpddr := rfl
@[simp] theorem State.modPrep_out (s : State) (g : Prep → Prep) : (State.modPrep s g).out = s.out := rfl
@[simp] theorem State.modPrep_drawn (s : State) (g : Prep → Prep) : (State.modPrep s g).drawn = s.drawn := rfl
@[simp] theorem State.modPrep_prep (s : State) (g : Prep → Prep) :
    (State.modPrep s g).prep = g s.prep := rfl

@[simp] theorem State.modWit_elapsed (s : State) (g : Wit → Wit) : (State.modWit s g).elapsed = s.elapsed := rfl
@[simp] theorem State.modWit_pending (s : State) (g : Wit → Wit) : (State.modWit s g).pending = s.pending := rfl
@[simp] theorem State.modWit_link (s : State) (g : Wit → Wit) : (State.modWit s g).link = s.link := rfl
@[simp] theorem State.modWit_fns (s : State) (g : Wit → Wit) : (State.modWit s g).fns = s.fns := rfl
@[simp] theorem State.modWit_lastServed (s : State) (g : Wit → Wit) : (State.modWit s g).lastServed = s.lastServed := rfl
@[simp] theorem State.modWit_plan (s : State) (g : Wit → Wit) : (State.modWit s g).plan = s.plan := rfl
@[simp] theorem State.modWit_queues (s : State) (g : Wit → Wit) : (State.modWit s g).queues = s.queues := rfl
@[simp] theorem State.modWit_accepted (s : State) (g : Wit → Wit) : (State.modWit s g).accepted = s.accepted := rfl
@[simp] theorem State.modWit_owed (s : State) (g : Wit → Wit) : (State.modWit s g).owed = s.owed := rfl
@[simp] theorem State.modWit_log (s : State) (g : Wit → Wit) : (State.modWit s g).log = s.log := rfl
@[simp] theorem State.modWit_mirror (s : State) (g : Wit → Wit) : (State.modWit s g).mirror = s.mirror := rfl
@[simp] theorem State.modWit_mirrorNumber (s : State) (g : Wit → Wit) : (State.modWit s g).mirrorNumber = s.mirrorNumber := rfl
@[simp] theorem State.modWit_clk (s : State) (g : Wit → Wit) : (State.modWit s g).clk = s.clk := rfl
@[simp] theorem State.modWit_pwr (s : State) (g : Wit → Wit) : (State.modWit s g).pwr = s.pwr := rfl
@[simp] theorem State.modWit_start (s : State) (g : Wit → Wit) : (State.modWit s g).start = s.start := rfl
@[simp] theorem State.modWit_mram (s : State) (g : Wit → Wit) : (State.modWit s g).mram = s.mram := rfl
@[simp] theorem State.modWit_meas (s : State) (g : Wit → Wit) : (State.modWit s g).meas = s.meas := rfl
@[simp] theorem State.modWit_guard (s : State) (g : Wit → Wit) : (State.modWit s g).guard = s.guard := rfl
@[simp] theorem State.modWit_ports (s : State) (g : Wit → Wit) : (State.modWit s g).ports = s.ports := rfl
@[simp] theorem State.modWit_streams (s : State) (g : Wit → Wit) : (State.modWit s g).streams = s.streams := rfl
@[simp] theorem State.modWit_deviceEpoch (s : State) (g : Wit → Wit) : (State.modWit s g).deviceEpoch = s.deviceEpoch := rfl
@[simp] theorem State.modWit_epochs (s : State) (g : Wit → Wit) : (State.modWit s g).epochs = s.epochs := rfl
@[simp] theorem State.modWit_pos (s : State) (g : Wit → Wit) : (State.modWit s g).pos = s.pos := rfl
@[simp] theorem State.modWit_emu (s : State) (g : Wit → Wit) : (State.modWit s g).emu = s.emu := rfl
@[simp] theorem State.modWit_cmps (s : State) (g : Wit → Wit) : (State.modWit s g).cmps = s.cmps := rfl
@[simp] theorem State.modWit_trigs (s : State) (g : Wit → Wit) : (State.modWit s g).trigs = s.trigs := rfl
@[simp] theorem State.modWit_hoppers (s : State) (g : Wit → Wit) : (State.modWit s g).hoppers = s.hoppers := rfl
@[simp] theorem State.modWit_hopEvent (s : State) (g : Wit → Wit) : (State.modWit s g).hopEvent = s.hopEvent := rfl
@[simp] theorem State.modWit_prep (s : State) (g : Wit → Wit) : (State.modWit s g).prep = s.prep := rfl
@[simp] theorem State.modWit_audio (s : State) (g : Wit → Wit) : (State.modWit s g).audio = s.audio := rfl
@[simp] theorem State.modWit_weir (s : State) (g : Wit → Wit) : (State.modWit s g).weir = s.weir := rfl
@[simp] theorem State.modWit_chans (s : State) (g : Wit → Wit) : (State.modWit s g).chans = s.chans := rfl
@[simp] theorem State.modWit_millpond (s : State) (g : Wit → Wit) : (State.modWit s g).millpond = s.millpond := rfl
@[simp] theorem State.modWit_lpddr (s : State) (g : Wit → Wit) : (State.modWit s g).lpddr = s.lpddr := rfl
@[simp] theorem State.modWit_out (s : State) (g : Wit → Wit) : (State.modWit s g).out = s.out := rfl
@[simp] theorem State.modWit_drawn (s : State) (g : Wit → Wit) : (State.modWit s g).drawn = s.drawn := rfl
@[simp] theorem State.modWit_wit (s : State) (g : Wit → Wit) :
    (State.modWit s g).wit = g s.wit := rfl

@[simp] theorem State.modGuard_elapsed (s : State) (g : Guard → Guard) : (State.modGuard s g).elapsed = s.elapsed := rfl
@[simp] theorem State.modGuard_pending (s : State) (g : Guard → Guard) : (State.modGuard s g).pending = s.pending := rfl
@[simp] theorem State.modGuard_link (s : State) (g : Guard → Guard) : (State.modGuard s g).link = s.link := rfl
@[simp] theorem State.modGuard_fns (s : State) (g : Guard → Guard) : (State.modGuard s g).fns = s.fns := rfl
@[simp] theorem State.modGuard_lastServed (s : State) (g : Guard → Guard) : (State.modGuard s g).lastServed = s.lastServed := rfl
@[simp] theorem State.modGuard_plan (s : State) (g : Guard → Guard) : (State.modGuard s g).plan = s.plan := rfl
@[simp] theorem State.modGuard_queues (s : State) (g : Guard → Guard) : (State.modGuard s g).queues = s.queues := rfl
@[simp] theorem State.modGuard_accepted (s : State) (g : Guard → Guard) : (State.modGuard s g).accepted = s.accepted := rfl
@[simp] theorem State.modGuard_owed (s : State) (g : Guard → Guard) : (State.modGuard s g).owed = s.owed := rfl
@[simp] theorem State.modGuard_log (s : State) (g : Guard → Guard) : (State.modGuard s g).log = s.log := rfl
@[simp] theorem State.modGuard_mirror (s : State) (g : Guard → Guard) : (State.modGuard s g).mirror = s.mirror := rfl
@[simp] theorem State.modGuard_mirrorNumber (s : State) (g : Guard → Guard) : (State.modGuard s g).mirrorNumber = s.mirrorNumber := rfl
@[simp] theorem State.modGuard_clk (s : State) (g : Guard → Guard) : (State.modGuard s g).clk = s.clk := rfl
@[simp] theorem State.modGuard_pwr (s : State) (g : Guard → Guard) : (State.modGuard s g).pwr = s.pwr := rfl
@[simp] theorem State.modGuard_start (s : State) (g : Guard → Guard) : (State.modGuard s g).start = s.start := rfl
@[simp] theorem State.modGuard_mram (s : State) (g : Guard → Guard) : (State.modGuard s g).mram = s.mram := rfl
@[simp] theorem State.modGuard_meas (s : State) (g : Guard → Guard) : (State.modGuard s g).meas = s.meas := rfl
@[simp] theorem State.modGuard_ports (s : State) (g : Guard → Guard) : (State.modGuard s g).ports = s.ports := rfl
@[simp] theorem State.modGuard_streams (s : State) (g : Guard → Guard) : (State.modGuard s g).streams = s.streams := rfl
@[simp] theorem State.modGuard_deviceEpoch (s : State) (g : Guard → Guard) : (State.modGuard s g).deviceEpoch = s.deviceEpoch := rfl
@[simp] theorem State.modGuard_epochs (s : State) (g : Guard → Guard) : (State.modGuard s g).epochs = s.epochs := rfl
@[simp] theorem State.modGuard_pos (s : State) (g : Guard → Guard) : (State.modGuard s g).pos = s.pos := rfl
@[simp] theorem State.modGuard_emu (s : State) (g : Guard → Guard) : (State.modGuard s g).emu = s.emu := rfl
@[simp] theorem State.modGuard_cmps (s : State) (g : Guard → Guard) : (State.modGuard s g).cmps = s.cmps := rfl
@[simp] theorem State.modGuard_trigs (s : State) (g : Guard → Guard) : (State.modGuard s g).trigs = s.trigs := rfl
@[simp] theorem State.modGuard_hoppers (s : State) (g : Guard → Guard) : (State.modGuard s g).hoppers = s.hoppers := rfl
@[simp] theorem State.modGuard_hopEvent (s : State) (g : Guard → Guard) : (State.modGuard s g).hopEvent = s.hopEvent := rfl
@[simp] theorem State.modGuard_prep (s : State) (g : Guard → Guard) : (State.modGuard s g).prep = s.prep := rfl
@[simp] theorem State.modGuard_audio (s : State) (g : Guard → Guard) : (State.modGuard s g).audio = s.audio := rfl
@[simp] theorem State.modGuard_weir (s : State) (g : Guard → Guard) : (State.modGuard s g).weir = s.weir := rfl
@[simp] theorem State.modGuard_chans (s : State) (g : Guard → Guard) : (State.modGuard s g).chans = s.chans := rfl
@[simp] theorem State.modGuard_wit (s : State) (g : Guard → Guard) : (State.modGuard s g).wit = s.wit := rfl
@[simp] theorem State.modGuard_millpond (s : State) (g : Guard → Guard) : (State.modGuard s g).millpond = s.millpond := rfl
@[simp] theorem State.modGuard_lpddr (s : State) (g : Guard → Guard) : (State.modGuard s g).lpddr = s.lpddr := rfl
@[simp] theorem State.modGuard_out (s : State) (g : Guard → Guard) : (State.modGuard s g).out = s.out := rfl
@[simp] theorem State.modGuard_drawn (s : State) (g : Guard → Guard) : (State.modGuard s g).drawn = s.drawn := rfl
@[simp] theorem State.modGuard_guard (s : State) (g : Guard → Guard) :
    (State.modGuard s g).guard = g s.guard := rfl

@[simp] theorem State.modPath_elapsed (s : State) (p : Fin 2) (f : GPath → GPath) : (State.modPath s p f).elapsed = s.elapsed := rfl
@[simp] theorem State.modPath_pending (s : State) (p : Fin 2) (f : GPath → GPath) : (State.modPath s p f).pending = s.pending := rfl
@[simp] theorem State.modPath_link (s : State) (p : Fin 2) (f : GPath → GPath) : (State.modPath s p f).link = s.link := rfl
@[simp] theorem State.modPath_fns (s : State) (p : Fin 2) (f : GPath → GPath) : (State.modPath s p f).fns = s.fns := rfl
@[simp] theorem State.modPath_lastServed (s : State) (p : Fin 2) (f : GPath → GPath) : (State.modPath s p f).lastServed = s.lastServed := rfl
@[simp] theorem State.modPath_plan (s : State) (p : Fin 2) (f : GPath → GPath) : (State.modPath s p f).plan = s.plan := rfl
@[simp] theorem State.modPath_queues (s : State) (p : Fin 2) (f : GPath → GPath) : (State.modPath s p f).queues = s.queues := rfl
@[simp] theorem State.modPath_accepted (s : State) (p : Fin 2) (f : GPath → GPath) : (State.modPath s p f).accepted = s.accepted := rfl
@[simp] theorem State.modPath_owed (s : State) (p : Fin 2) (f : GPath → GPath) : (State.modPath s p f).owed = s.owed := rfl
@[simp] theorem State.modPath_log (s : State) (p : Fin 2) (f : GPath → GPath) : (State.modPath s p f).log = s.log := rfl
@[simp] theorem State.modPath_mirror (s : State) (p : Fin 2) (f : GPath → GPath) : (State.modPath s p f).mirror = s.mirror := rfl
@[simp] theorem State.modPath_mirrorNumber (s : State) (p : Fin 2) (f : GPath → GPath) : (State.modPath s p f).mirrorNumber = s.mirrorNumber := rfl
@[simp] theorem State.modPath_clk (s : State) (p : Fin 2) (f : GPath → GPath) : (State.modPath s p f).clk = s.clk := rfl
@[simp] theorem State.modPath_pwr (s : State) (p : Fin 2) (f : GPath → GPath) : (State.modPath s p f).pwr = s.pwr := rfl
@[simp] theorem State.modPath_start (s : State) (p : Fin 2) (f : GPath → GPath) : (State.modPath s p f).start = s.start := rfl
@[simp] theorem State.modPath_mram (s : State) (p : Fin 2) (f : GPath → GPath) : (State.modPath s p f).mram = s.mram := rfl
@[simp] theorem State.modPath_meas (s : State) (p : Fin 2) (f : GPath → GPath) : (State.modPath s p f).meas = s.meas := rfl
@[simp] theorem State.modPath_ports (s : State) (p : Fin 2) (f : GPath → GPath) : (State.modPath s p f).ports = s.ports := rfl
@[simp] theorem State.modPath_streams (s : State) (p : Fin 2) (f : GPath → GPath) : (State.modPath s p f).streams = s.streams := rfl
@[simp] theorem State.modPath_deviceEpoch (s : State) (p : Fin 2) (f : GPath → GPath) : (State.modPath s p f).deviceEpoch = s.deviceEpoch := rfl
@[simp] theorem State.modPath_epochs (s : State) (p : Fin 2) (f : GPath → GPath) : (State.modPath s p f).epochs = s.epochs := rfl
@[simp] theorem State.modPath_pos (s : State) (p : Fin 2) (f : GPath → GPath) : (State.modPath s p f).pos = s.pos := rfl
@[simp] theorem State.modPath_emu (s : State) (p : Fin 2) (f : GPath → GPath) : (State.modPath s p f).emu = s.emu := rfl
@[simp] theorem State.modPath_cmps (s : State) (p : Fin 2) (f : GPath → GPath) : (State.modPath s p f).cmps = s.cmps := rfl
@[simp] theorem State.modPath_trigs (s : State) (p : Fin 2) (f : GPath → GPath) : (State.modPath s p f).trigs = s.trigs := rfl
@[simp] theorem State.modPath_hoppers (s : State) (p : Fin 2) (f : GPath → GPath) : (State.modPath s p f).hoppers = s.hoppers := rfl
@[simp] theorem State.modPath_hopEvent (s : State) (p : Fin 2) (f : GPath → GPath) : (State.modPath s p f).hopEvent = s.hopEvent := rfl
@[simp] theorem State.modPath_prep (s : State) (p : Fin 2) (f : GPath → GPath) : (State.modPath s p f).prep = s.prep := rfl
@[simp] theorem State.modPath_audio (s : State) (p : Fin 2) (f : GPath → GPath) : (State.modPath s p f).audio = s.audio := rfl
@[simp] theorem State.modPath_weir (s : State) (p : Fin 2) (f : GPath → GPath) : (State.modPath s p f).weir = s.weir := rfl
@[simp] theorem State.modPath_chans (s : State) (p : Fin 2) (f : GPath → GPath) : (State.modPath s p f).chans = s.chans := rfl
@[simp] theorem State.modPath_wit (s : State) (p : Fin 2) (f : GPath → GPath) : (State.modPath s p f).wit = s.wit := rfl
@[simp] theorem State.modPath_millpond (s : State) (p : Fin 2) (f : GPath → GPath) : (State.modPath s p f).millpond = s.millpond := rfl
@[simp] theorem State.modPath_lpddr (s : State) (p : Fin 2) (f : GPath → GPath) : (State.modPath s p f).lpddr = s.lpddr := rfl
@[simp] theorem State.modPath_out (s : State) (p : Fin 2) (f : GPath → GPath) : (State.modPath s p f).out = s.out := rfl
@[simp] theorem State.modPath_drawn (s : State) (p : Fin 2) (f : GPath → GPath) : (State.modPath s p f).drawn = s.drawn := rfl

@[simp] theorem State.modTsl_elapsed (s : State) (f : Tsl → Tsl) : (State.modTsl s f).elapsed = s.elapsed := rfl
@[simp] theorem State.modTsl_pending (s : State) (f : Tsl → Tsl) : (State.modTsl s f).pending = s.pending := rfl
@[simp] theorem State.modTsl_link (s : State) (f : Tsl → Tsl) : (State.modTsl s f).link = s.link := rfl
@[simp] theorem State.modTsl_fns (s : State) (f : Tsl → Tsl) : (State.modTsl s f).fns = s.fns := rfl
@[simp] theorem State.modTsl_lastServed (s : State) (f : Tsl → Tsl) : (State.modTsl s f).lastServed = s.lastServed := rfl
@[simp] theorem State.modTsl_plan (s : State) (f : Tsl → Tsl) : (State.modTsl s f).plan = s.plan := rfl
@[simp] theorem State.modTsl_queues (s : State) (f : Tsl → Tsl) : (State.modTsl s f).queues = s.queues := rfl
@[simp] theorem State.modTsl_accepted (s : State) (f : Tsl → Tsl) : (State.modTsl s f).accepted = s.accepted := rfl
@[simp] theorem State.modTsl_owed (s : State) (f : Tsl → Tsl) : (State.modTsl s f).owed = s.owed := rfl
@[simp] theorem State.modTsl_log (s : State) (f : Tsl → Tsl) : (State.modTsl s f).log = s.log := rfl
@[simp] theorem State.modTsl_mirror (s : State) (f : Tsl → Tsl) : (State.modTsl s f).mirror = s.mirror := rfl
@[simp] theorem State.modTsl_mirrorNumber (s : State) (f : Tsl → Tsl) : (State.modTsl s f).mirrorNumber = s.mirrorNumber := rfl
@[simp] theorem State.modTsl_clk (s : State) (f : Tsl → Tsl) : (State.modTsl s f).clk = s.clk := rfl
@[simp] theorem State.modTsl_pwr (s : State) (f : Tsl → Tsl) : (State.modTsl s f).pwr = s.pwr := rfl
@[simp] theorem State.modTsl_start (s : State) (f : Tsl → Tsl) : (State.modTsl s f).start = s.start := rfl
@[simp] theorem State.modTsl_mram (s : State) (f : Tsl → Tsl) : (State.modTsl s f).mram = s.mram := rfl
@[simp] theorem State.modTsl_meas (s : State) (f : Tsl → Tsl) : (State.modTsl s f).meas = s.meas := rfl
@[simp] theorem State.modTsl_ports (s : State) (f : Tsl → Tsl) : (State.modTsl s f).ports = s.ports := rfl
@[simp] theorem State.modTsl_streams (s : State) (f : Tsl → Tsl) : (State.modTsl s f).streams = s.streams := rfl
@[simp] theorem State.modTsl_deviceEpoch (s : State) (f : Tsl → Tsl) : (State.modTsl s f).deviceEpoch = s.deviceEpoch := rfl
@[simp] theorem State.modTsl_epochs (s : State) (f : Tsl → Tsl) : (State.modTsl s f).epochs = s.epochs := rfl
@[simp] theorem State.modTsl_pos (s : State) (f : Tsl → Tsl) : (State.modTsl s f).pos = s.pos := rfl
@[simp] theorem State.modTsl_emu (s : State) (f : Tsl → Tsl) : (State.modTsl s f).emu = s.emu := rfl
@[simp] theorem State.modTsl_cmps (s : State) (f : Tsl → Tsl) : (State.modTsl s f).cmps = s.cmps := rfl
@[simp] theorem State.modTsl_trigs (s : State) (f : Tsl → Tsl) : (State.modTsl s f).trigs = s.trigs := rfl
@[simp] theorem State.modTsl_hoppers (s : State) (f : Tsl → Tsl) : (State.modTsl s f).hoppers = s.hoppers := rfl
@[simp] theorem State.modTsl_hopEvent (s : State) (f : Tsl → Tsl) : (State.modTsl s f).hopEvent = s.hopEvent := rfl
@[simp] theorem State.modTsl_prep (s : State) (f : Tsl → Tsl) : (State.modTsl s f).prep = s.prep := rfl
@[simp] theorem State.modTsl_audio (s : State) (f : Tsl → Tsl) : (State.modTsl s f).audio = s.audio := rfl
@[simp] theorem State.modTsl_weir (s : State) (f : Tsl → Tsl) : (State.modTsl s f).weir = s.weir := rfl
@[simp] theorem State.modTsl_chans (s : State) (f : Tsl → Tsl) : (State.modTsl s f).chans = s.chans := rfl
@[simp] theorem State.modTsl_wit (s : State) (f : Tsl → Tsl) : (State.modTsl s f).wit = s.wit := rfl
@[simp] theorem State.modTsl_millpond (s : State) (f : Tsl → Tsl) : (State.modTsl s f).millpond = s.millpond := rfl
@[simp] theorem State.modTsl_lpddr (s : State) (f : Tsl → Tsl) : (State.modTsl s f).lpddr = s.lpddr := rfl
@[simp] theorem State.modTsl_out (s : State) (f : Tsl → Tsl) : (State.modTsl s f).out = s.out := rfl
@[simp] theorem State.modTsl_drawn (s : State) (f : Tsl → Tsl) : (State.modTsl s f).drawn = s.drawn := rfl

@[simp] theorem State.modTrigs_elapsed (s : State) (g : Trigs → Trigs) : (State.modTrigs s g).elapsed = s.elapsed := rfl
@[simp] theorem State.modTrigs_pending (s : State) (g : Trigs → Trigs) : (State.modTrigs s g).pending = s.pending := rfl
@[simp] theorem State.modTrigs_link (s : State) (g : Trigs → Trigs) : (State.modTrigs s g).link = s.link := rfl
@[simp] theorem State.modTrigs_fns (s : State) (g : Trigs → Trigs) : (State.modTrigs s g).fns = s.fns := rfl
@[simp] theorem State.modTrigs_lastServed (s : State) (g : Trigs → Trigs) : (State.modTrigs s g).lastServed = s.lastServed := rfl
@[simp] theorem State.modTrigs_plan (s : State) (g : Trigs → Trigs) : (State.modTrigs s g).plan = s.plan := rfl
@[simp] theorem State.modTrigs_queues (s : State) (g : Trigs → Trigs) : (State.modTrigs s g).queues = s.queues := rfl
@[simp] theorem State.modTrigs_accepted (s : State) (g : Trigs → Trigs) : (State.modTrigs s g).accepted = s.accepted := rfl
@[simp] theorem State.modTrigs_owed (s : State) (g : Trigs → Trigs) : (State.modTrigs s g).owed = s.owed := rfl
@[simp] theorem State.modTrigs_log (s : State) (g : Trigs → Trigs) : (State.modTrigs s g).log = s.log := rfl
@[simp] theorem State.modTrigs_mirror (s : State) (g : Trigs → Trigs) : (State.modTrigs s g).mirror = s.mirror := rfl
@[simp] theorem State.modTrigs_mirrorNumber (s : State) (g : Trigs → Trigs) : (State.modTrigs s g).mirrorNumber = s.mirrorNumber := rfl
@[simp] theorem State.modTrigs_clk (s : State) (g : Trigs → Trigs) : (State.modTrigs s g).clk = s.clk := rfl
@[simp] theorem State.modTrigs_pwr (s : State) (g : Trigs → Trigs) : (State.modTrigs s g).pwr = s.pwr := rfl
@[simp] theorem State.modTrigs_start (s : State) (g : Trigs → Trigs) : (State.modTrigs s g).start = s.start := rfl
@[simp] theorem State.modTrigs_mram (s : State) (g : Trigs → Trigs) : (State.modTrigs s g).mram = s.mram := rfl
@[simp] theorem State.modTrigs_meas (s : State) (g : Trigs → Trigs) : (State.modTrigs s g).meas = s.meas := rfl
@[simp] theorem State.modTrigs_guard (s : State) (g : Trigs → Trigs) : (State.modTrigs s g).guard = s.guard := rfl
@[simp] theorem State.modTrigs_ports (s : State) (g : Trigs → Trigs) : (State.modTrigs s g).ports = s.ports := rfl
@[simp] theorem State.modTrigs_streams (s : State) (g : Trigs → Trigs) : (State.modTrigs s g).streams = s.streams := rfl
@[simp] theorem State.modTrigs_deviceEpoch (s : State) (g : Trigs → Trigs) : (State.modTrigs s g).deviceEpoch = s.deviceEpoch := rfl
@[simp] theorem State.modTrigs_epochs (s : State) (g : Trigs → Trigs) : (State.modTrigs s g).epochs = s.epochs := rfl
@[simp] theorem State.modTrigs_pos (s : State) (g : Trigs → Trigs) : (State.modTrigs s g).pos = s.pos := rfl
@[simp] theorem State.modTrigs_emu (s : State) (g : Trigs → Trigs) : (State.modTrigs s g).emu = s.emu := rfl
@[simp] theorem State.modTrigs_cmps (s : State) (g : Trigs → Trigs) : (State.modTrigs s g).cmps = s.cmps := rfl
@[simp] theorem State.modTrigs_hoppers (s : State) (g : Trigs → Trigs) : (State.modTrigs s g).hoppers = s.hoppers := rfl
@[simp] theorem State.modTrigs_hopEvent (s : State) (g : Trigs → Trigs) : (State.modTrigs s g).hopEvent = s.hopEvent := rfl
@[simp] theorem State.modTrigs_prep (s : State) (g : Trigs → Trigs) : (State.modTrigs s g).prep = s.prep := rfl
@[simp] theorem State.modTrigs_audio (s : State) (g : Trigs → Trigs) : (State.modTrigs s g).audio = s.audio := rfl
@[simp] theorem State.modTrigs_weir (s : State) (g : Trigs → Trigs) : (State.modTrigs s g).weir = s.weir := rfl
@[simp] theorem State.modTrigs_chans (s : State) (g : Trigs → Trigs) : (State.modTrigs s g).chans = s.chans := rfl
@[simp] theorem State.modTrigs_wit (s : State) (g : Trigs → Trigs) : (State.modTrigs s g).wit = s.wit := rfl
@[simp] theorem State.modTrigs_millpond (s : State) (g : Trigs → Trigs) : (State.modTrigs s g).millpond = s.millpond := rfl
@[simp] theorem State.modTrigs_lpddr (s : State) (g : Trigs → Trigs) : (State.modTrigs s g).lpddr = s.lpddr := rfl
@[simp] theorem State.modTrigs_out (s : State) (g : Trigs → Trigs) : (State.modTrigs s g).out = s.out := rfl
@[simp] theorem State.modTrigs_drawn (s : State) (g : Trigs → Trigs) : (State.modTrigs s g).drawn = s.drawn := rfl
@[simp] theorem State.modTrigs_trigs (s : State) (g : Trigs → Trigs) :
    (State.modTrigs s g).trigs = g s.trigs := rfl

@[simp] theorem State.modTrig_elapsed (s : State) (k : Fin 12) (g : Trig → Trig) : (State.modTrig s k g).elapsed = s.elapsed := rfl
@[simp] theorem State.modTrig_pending (s : State) (k : Fin 12) (g : Trig → Trig) : (State.modTrig s k g).pending = s.pending := rfl
@[simp] theorem State.modTrig_link (s : State) (k : Fin 12) (g : Trig → Trig) : (State.modTrig s k g).link = s.link := rfl
@[simp] theorem State.modTrig_fns (s : State) (k : Fin 12) (g : Trig → Trig) : (State.modTrig s k g).fns = s.fns := rfl
@[simp] theorem State.modTrig_lastServed (s : State) (k : Fin 12) (g : Trig → Trig) : (State.modTrig s k g).lastServed = s.lastServed := rfl
@[simp] theorem State.modTrig_plan (s : State) (k : Fin 12) (g : Trig → Trig) : (State.modTrig s k g).plan = s.plan := rfl
@[simp] theorem State.modTrig_queues (s : State) (k : Fin 12) (g : Trig → Trig) : (State.modTrig s k g).queues = s.queues := rfl
@[simp] theorem State.modTrig_accepted (s : State) (k : Fin 12) (g : Trig → Trig) : (State.modTrig s k g).accepted = s.accepted := rfl
@[simp] theorem State.modTrig_owed (s : State) (k : Fin 12) (g : Trig → Trig) : (State.modTrig s k g).owed = s.owed := rfl
@[simp] theorem State.modTrig_log (s : State) (k : Fin 12) (g : Trig → Trig) : (State.modTrig s k g).log = s.log := rfl
@[simp] theorem State.modTrig_mirror (s : State) (k : Fin 12) (g : Trig → Trig) : (State.modTrig s k g).mirror = s.mirror := rfl
@[simp] theorem State.modTrig_mirrorNumber (s : State) (k : Fin 12) (g : Trig → Trig) : (State.modTrig s k g).mirrorNumber = s.mirrorNumber := rfl
@[simp] theorem State.modTrig_clk (s : State) (k : Fin 12) (g : Trig → Trig) : (State.modTrig s k g).clk = s.clk := rfl
@[simp] theorem State.modTrig_pwr (s : State) (k : Fin 12) (g : Trig → Trig) : (State.modTrig s k g).pwr = s.pwr := rfl
@[simp] theorem State.modTrig_start (s : State) (k : Fin 12) (g : Trig → Trig) : (State.modTrig s k g).start = s.start := rfl
@[simp] theorem State.modTrig_mram (s : State) (k : Fin 12) (g : Trig → Trig) : (State.modTrig s k g).mram = s.mram := rfl
@[simp] theorem State.modTrig_meas (s : State) (k : Fin 12) (g : Trig → Trig) : (State.modTrig s k g).meas = s.meas := rfl
@[simp] theorem State.modTrig_guard (s : State) (k : Fin 12) (g : Trig → Trig) : (State.modTrig s k g).guard = s.guard := rfl
@[simp] theorem State.modTrig_ports (s : State) (k : Fin 12) (g : Trig → Trig) : (State.modTrig s k g).ports = s.ports := rfl
@[simp] theorem State.modTrig_streams (s : State) (k : Fin 12) (g : Trig → Trig) : (State.modTrig s k g).streams = s.streams := rfl
@[simp] theorem State.modTrig_deviceEpoch (s : State) (k : Fin 12) (g : Trig → Trig) : (State.modTrig s k g).deviceEpoch = s.deviceEpoch := rfl
@[simp] theorem State.modTrig_epochs (s : State) (k : Fin 12) (g : Trig → Trig) : (State.modTrig s k g).epochs = s.epochs := rfl
@[simp] theorem State.modTrig_pos (s : State) (k : Fin 12) (g : Trig → Trig) : (State.modTrig s k g).pos = s.pos := rfl
@[simp] theorem State.modTrig_emu (s : State) (k : Fin 12) (g : Trig → Trig) : (State.modTrig s k g).emu = s.emu := rfl
@[simp] theorem State.modTrig_cmps (s : State) (k : Fin 12) (g : Trig → Trig) : (State.modTrig s k g).cmps = s.cmps := rfl
@[simp] theorem State.modTrig_hoppers (s : State) (k : Fin 12) (g : Trig → Trig) : (State.modTrig s k g).hoppers = s.hoppers := rfl
@[simp] theorem State.modTrig_hopEvent (s : State) (k : Fin 12) (g : Trig → Trig) : (State.modTrig s k g).hopEvent = s.hopEvent := rfl
@[simp] theorem State.modTrig_prep (s : State) (k : Fin 12) (g : Trig → Trig) : (State.modTrig s k g).prep = s.prep := rfl
@[simp] theorem State.modTrig_audio (s : State) (k : Fin 12) (g : Trig → Trig) : (State.modTrig s k g).audio = s.audio := rfl
@[simp] theorem State.modTrig_weir (s : State) (k : Fin 12) (g : Trig → Trig) : (State.modTrig s k g).weir = s.weir := rfl
@[simp] theorem State.modTrig_chans (s : State) (k : Fin 12) (g : Trig → Trig) : (State.modTrig s k g).chans = s.chans := rfl
@[simp] theorem State.modTrig_wit (s : State) (k : Fin 12) (g : Trig → Trig) : (State.modTrig s k g).wit = s.wit := rfl
@[simp] theorem State.modTrig_millpond (s : State) (k : Fin 12) (g : Trig → Trig) : (State.modTrig s k g).millpond = s.millpond := rfl
@[simp] theorem State.modTrig_lpddr (s : State) (k : Fin 12) (g : Trig → Trig) : (State.modTrig s k g).lpddr = s.lpddr := rfl
@[simp] theorem State.modTrig_out (s : State) (k : Fin 12) (g : Trig → Trig) : (State.modTrig s k g).out = s.out := rfl
@[simp] theorem State.modTrig_drawn (s : State) (k : Fin 12) (g : Trig → Trig) : (State.modTrig s k g).drawn = s.drawn := rfl

@[simp] theorem State.modXtr_elapsed (s : State) (l : Fin 4) (g : Xtr → Xtr) : (State.modXtr s l g).elapsed = s.elapsed := rfl
@[simp] theorem State.modXtr_pending (s : State) (l : Fin 4) (g : Xtr → Xtr) : (State.modXtr s l g).pending = s.pending := rfl
@[simp] theorem State.modXtr_link (s : State) (l : Fin 4) (g : Xtr → Xtr) : (State.modXtr s l g).link = s.link := rfl
@[simp] theorem State.modXtr_fns (s : State) (l : Fin 4) (g : Xtr → Xtr) : (State.modXtr s l g).fns = s.fns := rfl
@[simp] theorem State.modXtr_lastServed (s : State) (l : Fin 4) (g : Xtr → Xtr) : (State.modXtr s l g).lastServed = s.lastServed := rfl
@[simp] theorem State.modXtr_plan (s : State) (l : Fin 4) (g : Xtr → Xtr) : (State.modXtr s l g).plan = s.plan := rfl
@[simp] theorem State.modXtr_queues (s : State) (l : Fin 4) (g : Xtr → Xtr) : (State.modXtr s l g).queues = s.queues := rfl
@[simp] theorem State.modXtr_accepted (s : State) (l : Fin 4) (g : Xtr → Xtr) : (State.modXtr s l g).accepted = s.accepted := rfl
@[simp] theorem State.modXtr_owed (s : State) (l : Fin 4) (g : Xtr → Xtr) : (State.modXtr s l g).owed = s.owed := rfl
@[simp] theorem State.modXtr_log (s : State) (l : Fin 4) (g : Xtr → Xtr) : (State.modXtr s l g).log = s.log := rfl
@[simp] theorem State.modXtr_mirror (s : State) (l : Fin 4) (g : Xtr → Xtr) : (State.modXtr s l g).mirror = s.mirror := rfl
@[simp] theorem State.modXtr_mirrorNumber (s : State) (l : Fin 4) (g : Xtr → Xtr) : (State.modXtr s l g).mirrorNumber = s.mirrorNumber := rfl
@[simp] theorem State.modXtr_clk (s : State) (l : Fin 4) (g : Xtr → Xtr) : (State.modXtr s l g).clk = s.clk := rfl
@[simp] theorem State.modXtr_pwr (s : State) (l : Fin 4) (g : Xtr → Xtr) : (State.modXtr s l g).pwr = s.pwr := rfl
@[simp] theorem State.modXtr_start (s : State) (l : Fin 4) (g : Xtr → Xtr) : (State.modXtr s l g).start = s.start := rfl
@[simp] theorem State.modXtr_mram (s : State) (l : Fin 4) (g : Xtr → Xtr) : (State.modXtr s l g).mram = s.mram := rfl
@[simp] theorem State.modXtr_meas (s : State) (l : Fin 4) (g : Xtr → Xtr) : (State.modXtr s l g).meas = s.meas := rfl
@[simp] theorem State.modXtr_guard (s : State) (l : Fin 4) (g : Xtr → Xtr) : (State.modXtr s l g).guard = s.guard := rfl
@[simp] theorem State.modXtr_ports (s : State) (l : Fin 4) (g : Xtr → Xtr) : (State.modXtr s l g).ports = s.ports := rfl
@[simp] theorem State.modXtr_streams (s : State) (l : Fin 4) (g : Xtr → Xtr) : (State.modXtr s l g).streams = s.streams := rfl
@[simp] theorem State.modXtr_deviceEpoch (s : State) (l : Fin 4) (g : Xtr → Xtr) : (State.modXtr s l g).deviceEpoch = s.deviceEpoch := rfl
@[simp] theorem State.modXtr_epochs (s : State) (l : Fin 4) (g : Xtr → Xtr) : (State.modXtr s l g).epochs = s.epochs := rfl
@[simp] theorem State.modXtr_pos (s : State) (l : Fin 4) (g : Xtr → Xtr) : (State.modXtr s l g).pos = s.pos := rfl
@[simp] theorem State.modXtr_emu (s : State) (l : Fin 4) (g : Xtr → Xtr) : (State.modXtr s l g).emu = s.emu := rfl
@[simp] theorem State.modXtr_cmps (s : State) (l : Fin 4) (g : Xtr → Xtr) : (State.modXtr s l g).cmps = s.cmps := rfl
@[simp] theorem State.modXtr_hoppers (s : State) (l : Fin 4) (g : Xtr → Xtr) : (State.modXtr s l g).hoppers = s.hoppers := rfl
@[simp] theorem State.modXtr_hopEvent (s : State) (l : Fin 4) (g : Xtr → Xtr) : (State.modXtr s l g).hopEvent = s.hopEvent := rfl
@[simp] theorem State.modXtr_prep (s : State) (l : Fin 4) (g : Xtr → Xtr) : (State.modXtr s l g).prep = s.prep := rfl
@[simp] theorem State.modXtr_audio (s : State) (l : Fin 4) (g : Xtr → Xtr) : (State.modXtr s l g).audio = s.audio := rfl
@[simp] theorem State.modXtr_weir (s : State) (l : Fin 4) (g : Xtr → Xtr) : (State.modXtr s l g).weir = s.weir := rfl
@[simp] theorem State.modXtr_chans (s : State) (l : Fin 4) (g : Xtr → Xtr) : (State.modXtr s l g).chans = s.chans := rfl
@[simp] theorem State.modXtr_wit (s : State) (l : Fin 4) (g : Xtr → Xtr) : (State.modXtr s l g).wit = s.wit := rfl
@[simp] theorem State.modXtr_millpond (s : State) (l : Fin 4) (g : Xtr → Xtr) : (State.modXtr s l g).millpond = s.millpond := rfl
@[simp] theorem State.modXtr_lpddr (s : State) (l : Fin 4) (g : Xtr → Xtr) : (State.modXtr s l g).lpddr = s.lpddr := rfl
@[simp] theorem State.modXtr_out (s : State) (l : Fin 4) (g : Xtr → Xtr) : (State.modXtr s l g).out = s.out := rfl
@[simp] theorem State.modXtr_drawn (s : State) (l : Fin 4) (g : Xtr → Xtr) : (State.modXtr s l g).drawn = s.drawn := rfl

@[simp] theorem State.modExt_elapsed (s : State) (e : Fin 2) (g : Ext → Ext) : (State.modExt s e g).elapsed = s.elapsed := rfl
@[simp] theorem State.modExt_pending (s : State) (e : Fin 2) (g : Ext → Ext) : (State.modExt s e g).pending = s.pending := rfl
@[simp] theorem State.modExt_link (s : State) (e : Fin 2) (g : Ext → Ext) : (State.modExt s e g).link = s.link := rfl
@[simp] theorem State.modExt_fns (s : State) (e : Fin 2) (g : Ext → Ext) : (State.modExt s e g).fns = s.fns := rfl
@[simp] theorem State.modExt_lastServed (s : State) (e : Fin 2) (g : Ext → Ext) : (State.modExt s e g).lastServed = s.lastServed := rfl
@[simp] theorem State.modExt_plan (s : State) (e : Fin 2) (g : Ext → Ext) : (State.modExt s e g).plan = s.plan := rfl
@[simp] theorem State.modExt_queues (s : State) (e : Fin 2) (g : Ext → Ext) : (State.modExt s e g).queues = s.queues := rfl
@[simp] theorem State.modExt_accepted (s : State) (e : Fin 2) (g : Ext → Ext) : (State.modExt s e g).accepted = s.accepted := rfl
@[simp] theorem State.modExt_owed (s : State) (e : Fin 2) (g : Ext → Ext) : (State.modExt s e g).owed = s.owed := rfl
@[simp] theorem State.modExt_log (s : State) (e : Fin 2) (g : Ext → Ext) : (State.modExt s e g).log = s.log := rfl
@[simp] theorem State.modExt_mirror (s : State) (e : Fin 2) (g : Ext → Ext) : (State.modExt s e g).mirror = s.mirror := rfl
@[simp] theorem State.modExt_mirrorNumber (s : State) (e : Fin 2) (g : Ext → Ext) : (State.modExt s e g).mirrorNumber = s.mirrorNumber := rfl
@[simp] theorem State.modExt_clk (s : State) (e : Fin 2) (g : Ext → Ext) : (State.modExt s e g).clk = s.clk := rfl
@[simp] theorem State.modExt_pwr (s : State) (e : Fin 2) (g : Ext → Ext) : (State.modExt s e g).pwr = s.pwr := rfl
@[simp] theorem State.modExt_start (s : State) (e : Fin 2) (g : Ext → Ext) : (State.modExt s e g).start = s.start := rfl
@[simp] theorem State.modExt_mram (s : State) (e : Fin 2) (g : Ext → Ext) : (State.modExt s e g).mram = s.mram := rfl
@[simp] theorem State.modExt_meas (s : State) (e : Fin 2) (g : Ext → Ext) : (State.modExt s e g).meas = s.meas := rfl
@[simp] theorem State.modExt_guard (s : State) (e : Fin 2) (g : Ext → Ext) : (State.modExt s e g).guard = s.guard := rfl
@[simp] theorem State.modExt_ports (s : State) (e : Fin 2) (g : Ext → Ext) : (State.modExt s e g).ports = s.ports := rfl
@[simp] theorem State.modExt_streams (s : State) (e : Fin 2) (g : Ext → Ext) : (State.modExt s e g).streams = s.streams := rfl
@[simp] theorem State.modExt_deviceEpoch (s : State) (e : Fin 2) (g : Ext → Ext) : (State.modExt s e g).deviceEpoch = s.deviceEpoch := rfl
@[simp] theorem State.modExt_epochs (s : State) (e : Fin 2) (g : Ext → Ext) : (State.modExt s e g).epochs = s.epochs := rfl
@[simp] theorem State.modExt_pos (s : State) (e : Fin 2) (g : Ext → Ext) : (State.modExt s e g).pos = s.pos := rfl
@[simp] theorem State.modExt_emu (s : State) (e : Fin 2) (g : Ext → Ext) : (State.modExt s e g).emu = s.emu := rfl
@[simp] theorem State.modExt_cmps (s : State) (e : Fin 2) (g : Ext → Ext) : (State.modExt s e g).cmps = s.cmps := rfl
@[simp] theorem State.modExt_hoppers (s : State) (e : Fin 2) (g : Ext → Ext) : (State.modExt s e g).hoppers = s.hoppers := rfl
@[simp] theorem State.modExt_hopEvent (s : State) (e : Fin 2) (g : Ext → Ext) : (State.modExt s e g).hopEvent = s.hopEvent := rfl
@[simp] theorem State.modExt_prep (s : State) (e : Fin 2) (g : Ext → Ext) : (State.modExt s e g).prep = s.prep := rfl
@[simp] theorem State.modExt_audio (s : State) (e : Fin 2) (g : Ext → Ext) : (State.modExt s e g).audio = s.audio := rfl
@[simp] theorem State.modExt_weir (s : State) (e : Fin 2) (g : Ext → Ext) : (State.modExt s e g).weir = s.weir := rfl
@[simp] theorem State.modExt_chans (s : State) (e : Fin 2) (g : Ext → Ext) : (State.modExt s e g).chans = s.chans := rfl
@[simp] theorem State.modExt_wit (s : State) (e : Fin 2) (g : Ext → Ext) : (State.modExt s e g).wit = s.wit := rfl
@[simp] theorem State.modExt_millpond (s : State) (e : Fin 2) (g : Ext → Ext) : (State.modExt s e g).millpond = s.millpond := rfl
@[simp] theorem State.modExt_lpddr (s : State) (e : Fin 2) (g : Ext → Ext) : (State.modExt s e g).lpddr = s.lpddr := rfl
@[simp] theorem State.modExt_out (s : State) (e : Fin 2) (g : Ext → Ext) : (State.modExt s e g).out = s.out := rfl
@[simp] theorem State.modExt_drawn (s : State) (e : Fin 2) (g : Ext → Ext) : (State.modExt s e g).drawn = s.drawn := rfl

@[simp] theorem State.modCmp_elapsed (s : State) (n : Fin 16) (g : Cmp → Cmp) : (State.modCmp s n g).elapsed = s.elapsed := rfl
@[simp] theorem State.modCmp_pending (s : State) (n : Fin 16) (g : Cmp → Cmp) : (State.modCmp s n g).pending = s.pending := rfl
@[simp] theorem State.modCmp_link (s : State) (n : Fin 16) (g : Cmp → Cmp) : (State.modCmp s n g).link = s.link := rfl
@[simp] theorem State.modCmp_fns (s : State) (n : Fin 16) (g : Cmp → Cmp) : (State.modCmp s n g).fns = s.fns := rfl
@[simp] theorem State.modCmp_lastServed (s : State) (n : Fin 16) (g : Cmp → Cmp) : (State.modCmp s n g).lastServed = s.lastServed := rfl
@[simp] theorem State.modCmp_plan (s : State) (n : Fin 16) (g : Cmp → Cmp) : (State.modCmp s n g).plan = s.plan := rfl
@[simp] theorem State.modCmp_queues (s : State) (n : Fin 16) (g : Cmp → Cmp) : (State.modCmp s n g).queues = s.queues := rfl
@[simp] theorem State.modCmp_accepted (s : State) (n : Fin 16) (g : Cmp → Cmp) : (State.modCmp s n g).accepted = s.accepted := rfl
@[simp] theorem State.modCmp_owed (s : State) (n : Fin 16) (g : Cmp → Cmp) : (State.modCmp s n g).owed = s.owed := rfl
@[simp] theorem State.modCmp_log (s : State) (n : Fin 16) (g : Cmp → Cmp) : (State.modCmp s n g).log = s.log := rfl
@[simp] theorem State.modCmp_mirror (s : State) (n : Fin 16) (g : Cmp → Cmp) : (State.modCmp s n g).mirror = s.mirror := rfl
@[simp] theorem State.modCmp_mirrorNumber (s : State) (n : Fin 16) (g : Cmp → Cmp) : (State.modCmp s n g).mirrorNumber = s.mirrorNumber := rfl
@[simp] theorem State.modCmp_clk (s : State) (n : Fin 16) (g : Cmp → Cmp) : (State.modCmp s n g).clk = s.clk := rfl
@[simp] theorem State.modCmp_pwr (s : State) (n : Fin 16) (g : Cmp → Cmp) : (State.modCmp s n g).pwr = s.pwr := rfl
@[simp] theorem State.modCmp_start (s : State) (n : Fin 16) (g : Cmp → Cmp) : (State.modCmp s n g).start = s.start := rfl
@[simp] theorem State.modCmp_mram (s : State) (n : Fin 16) (g : Cmp → Cmp) : (State.modCmp s n g).mram = s.mram := rfl
@[simp] theorem State.modCmp_meas (s : State) (n : Fin 16) (g : Cmp → Cmp) : (State.modCmp s n g).meas = s.meas := rfl
@[simp] theorem State.modCmp_guard (s : State) (n : Fin 16) (g : Cmp → Cmp) : (State.modCmp s n g).guard = s.guard := rfl
@[simp] theorem State.modCmp_ports (s : State) (n : Fin 16) (g : Cmp → Cmp) : (State.modCmp s n g).ports = s.ports := rfl
@[simp] theorem State.modCmp_streams (s : State) (n : Fin 16) (g : Cmp → Cmp) : (State.modCmp s n g).streams = s.streams := rfl
@[simp] theorem State.modCmp_deviceEpoch (s : State) (n : Fin 16) (g : Cmp → Cmp) : (State.modCmp s n g).deviceEpoch = s.deviceEpoch := rfl
@[simp] theorem State.modCmp_epochs (s : State) (n : Fin 16) (g : Cmp → Cmp) : (State.modCmp s n g).epochs = s.epochs := rfl
@[simp] theorem State.modCmp_pos (s : State) (n : Fin 16) (g : Cmp → Cmp) : (State.modCmp s n g).pos = s.pos := rfl
@[simp] theorem State.modCmp_emu (s : State) (n : Fin 16) (g : Cmp → Cmp) : (State.modCmp s n g).emu = s.emu := rfl
@[simp] theorem State.modCmp_trigs (s : State) (n : Fin 16) (g : Cmp → Cmp) : (State.modCmp s n g).trigs = s.trigs := rfl
@[simp] theorem State.modCmp_hoppers (s : State) (n : Fin 16) (g : Cmp → Cmp) : (State.modCmp s n g).hoppers = s.hoppers := rfl
@[simp] theorem State.modCmp_hopEvent (s : State) (n : Fin 16) (g : Cmp → Cmp) : (State.modCmp s n g).hopEvent = s.hopEvent := rfl
@[simp] theorem State.modCmp_prep (s : State) (n : Fin 16) (g : Cmp → Cmp) : (State.modCmp s n g).prep = s.prep := rfl
@[simp] theorem State.modCmp_audio (s : State) (n : Fin 16) (g : Cmp → Cmp) : (State.modCmp s n g).audio = s.audio := rfl
@[simp] theorem State.modCmp_weir (s : State) (n : Fin 16) (g : Cmp → Cmp) : (State.modCmp s n g).weir = s.weir := rfl
@[simp] theorem State.modCmp_chans (s : State) (n : Fin 16) (g : Cmp → Cmp) : (State.modCmp s n g).chans = s.chans := rfl
@[simp] theorem State.modCmp_wit (s : State) (n : Fin 16) (g : Cmp → Cmp) : (State.modCmp s n g).wit = s.wit := rfl
@[simp] theorem State.modCmp_millpond (s : State) (n : Fin 16) (g : Cmp → Cmp) : (State.modCmp s n g).millpond = s.millpond := rfl
@[simp] theorem State.modCmp_lpddr (s : State) (n : Fin 16) (g : Cmp → Cmp) : (State.modCmp s n g).lpddr = s.lpddr := rfl
@[simp] theorem State.modCmp_out (s : State) (n : Fin 16) (g : Cmp → Cmp) : (State.modCmp s n g).out = s.out := rfl
@[simp] theorem State.modCmp_drawn (s : State) (n : Fin 16) (g : Cmp → Cmp) : (State.modCmp s n g).drawn = s.drawn := rfl
@[simp] theorem State.modCmp_cmps (s : State) (n : Fin 16) (g : Cmp → Cmp) :
    (State.modCmp s n g).cmps = vmod s.cmps n g := rfl

@[simp] theorem State.modFrame_elapsed (s : State) (n : Fin 32) (g : Frame → Frame) : (State.modFrame s n g).elapsed = s.elapsed := rfl
@[simp] theorem State.modFrame_pending (s : State) (n : Fin 32) (g : Frame → Frame) : (State.modFrame s n g).pending = s.pending := rfl
@[simp] theorem State.modFrame_link (s : State) (n : Fin 32) (g : Frame → Frame) : (State.modFrame s n g).link = s.link := rfl
@[simp] theorem State.modFrame_fns (s : State) (n : Fin 32) (g : Frame → Frame) : (State.modFrame s n g).fns = s.fns := rfl
@[simp] theorem State.modFrame_lastServed (s : State) (n : Fin 32) (g : Frame → Frame) : (State.modFrame s n g).lastServed = s.lastServed := rfl
@[simp] theorem State.modFrame_plan (s : State) (n : Fin 32) (g : Frame → Frame) : (State.modFrame s n g).plan = s.plan := rfl
@[simp] theorem State.modFrame_queues (s : State) (n : Fin 32) (g : Frame → Frame) : (State.modFrame s n g).queues = s.queues := rfl
@[simp] theorem State.modFrame_accepted (s : State) (n : Fin 32) (g : Frame → Frame) : (State.modFrame s n g).accepted = s.accepted := rfl
@[simp] theorem State.modFrame_owed (s : State) (n : Fin 32) (g : Frame → Frame) : (State.modFrame s n g).owed = s.owed := rfl
@[simp] theorem State.modFrame_log (s : State) (n : Fin 32) (g : Frame → Frame) : (State.modFrame s n g).log = s.log := rfl
@[simp] theorem State.modFrame_mirror (s : State) (n : Fin 32) (g : Frame → Frame) : (State.modFrame s n g).mirror = s.mirror := rfl
@[simp] theorem State.modFrame_mirrorNumber (s : State) (n : Fin 32) (g : Frame → Frame) : (State.modFrame s n g).mirrorNumber = s.mirrorNumber := rfl
@[simp] theorem State.modFrame_clk (s : State) (n : Fin 32) (g : Frame → Frame) : (State.modFrame s n g).clk = s.clk := rfl
@[simp] theorem State.modFrame_pwr (s : State) (n : Fin 32) (g : Frame → Frame) : (State.modFrame s n g).pwr = s.pwr := rfl
@[simp] theorem State.modFrame_start (s : State) (n : Fin 32) (g : Frame → Frame) : (State.modFrame s n g).start = s.start := rfl
@[simp] theorem State.modFrame_mram (s : State) (n : Fin 32) (g : Frame → Frame) : (State.modFrame s n g).mram = s.mram := rfl
@[simp] theorem State.modFrame_meas (s : State) (n : Fin 32) (g : Frame → Frame) : (State.modFrame s n g).meas = s.meas := rfl
@[simp] theorem State.modFrame_guard (s : State) (n : Fin 32) (g : Frame → Frame) : (State.modFrame s n g).guard = s.guard := rfl
@[simp] theorem State.modFrame_ports (s : State) (n : Fin 32) (g : Frame → Frame) : (State.modFrame s n g).ports = s.ports := rfl
@[simp] theorem State.modFrame_deviceEpoch (s : State) (n : Fin 32) (g : Frame → Frame) : (State.modFrame s n g).deviceEpoch = s.deviceEpoch := rfl
@[simp] theorem State.modFrame_epochs (s : State) (n : Fin 32) (g : Frame → Frame) : (State.modFrame s n g).epochs = s.epochs := rfl
@[simp] theorem State.modFrame_pos (s : State) (n : Fin 32) (g : Frame → Frame) : (State.modFrame s n g).pos = s.pos := rfl
@[simp] theorem State.modFrame_emu (s : State) (n : Fin 32) (g : Frame → Frame) : (State.modFrame s n g).emu = s.emu := rfl
@[simp] theorem State.modFrame_cmps (s : State) (n : Fin 32) (g : Frame → Frame) : (State.modFrame s n g).cmps = s.cmps := rfl
@[simp] theorem State.modFrame_trigs (s : State) (n : Fin 32) (g : Frame → Frame) : (State.modFrame s n g).trigs = s.trigs := rfl
@[simp] theorem State.modFrame_hoppers (s : State) (n : Fin 32) (g : Frame → Frame) : (State.modFrame s n g).hoppers = s.hoppers := rfl
@[simp] theorem State.modFrame_hopEvent (s : State) (n : Fin 32) (g : Frame → Frame) : (State.modFrame s n g).hopEvent = s.hopEvent := rfl
@[simp] theorem State.modFrame_prep (s : State) (n : Fin 32) (g : Frame → Frame) : (State.modFrame s n g).prep = s.prep := rfl
@[simp] theorem State.modFrame_audio (s : State) (n : Fin 32) (g : Frame → Frame) : (State.modFrame s n g).audio = s.audio := rfl
@[simp] theorem State.modFrame_weir (s : State) (n : Fin 32) (g : Frame → Frame) : (State.modFrame s n g).weir = s.weir := rfl
@[simp] theorem State.modFrame_chans (s : State) (n : Fin 32) (g : Frame → Frame) : (State.modFrame s n g).chans = s.chans := rfl
@[simp] theorem State.modFrame_wit (s : State) (n : Fin 32) (g : Frame → Frame) : (State.modFrame s n g).wit = s.wit := rfl
@[simp] theorem State.modFrame_millpond (s : State) (n : Fin 32) (g : Frame → Frame) : (State.modFrame s n g).millpond = s.millpond := rfl
@[simp] theorem State.modFrame_lpddr (s : State) (n : Fin 32) (g : Frame → Frame) : (State.modFrame s n g).lpddr = s.lpddr := rfl
@[simp] theorem State.modFrame_out (s : State) (n : Fin 32) (g : Frame → Frame) : (State.modFrame s n g).out = s.out := rfl
@[simp] theorem State.modFrame_drawn (s : State) (n : Fin 32) (g : Frame → Frame) : (State.modFrame s n g).drawn = s.drawn := rfl

@[simp] theorem State.modAudio_elapsed (s : State) (i : Fin 2) (g : Audio → Audio) : (State.modAudio s i g).elapsed = s.elapsed := rfl
@[simp] theorem State.modAudio_pending (s : State) (i : Fin 2) (g : Audio → Audio) : (State.modAudio s i g).pending = s.pending := rfl
@[simp] theorem State.modAudio_link (s : State) (i : Fin 2) (g : Audio → Audio) : (State.modAudio s i g).link = s.link := rfl
@[simp] theorem State.modAudio_fns (s : State) (i : Fin 2) (g : Audio → Audio) : (State.modAudio s i g).fns = s.fns := rfl
@[simp] theorem State.modAudio_lastServed (s : State) (i : Fin 2) (g : Audio → Audio) : (State.modAudio s i g).lastServed = s.lastServed := rfl
@[simp] theorem State.modAudio_plan (s : State) (i : Fin 2) (g : Audio → Audio) : (State.modAudio s i g).plan = s.plan := rfl
@[simp] theorem State.modAudio_queues (s : State) (i : Fin 2) (g : Audio → Audio) : (State.modAudio s i g).queues = s.queues := rfl
@[simp] theorem State.modAudio_accepted (s : State) (i : Fin 2) (g : Audio → Audio) : (State.modAudio s i g).accepted = s.accepted := rfl
@[simp] theorem State.modAudio_owed (s : State) (i : Fin 2) (g : Audio → Audio) : (State.modAudio s i g).owed = s.owed := rfl
@[simp] theorem State.modAudio_log (s : State) (i : Fin 2) (g : Audio → Audio) : (State.modAudio s i g).log = s.log := rfl
@[simp] theorem State.modAudio_mirror (s : State) (i : Fin 2) (g : Audio → Audio) : (State.modAudio s i g).mirror = s.mirror := rfl
@[simp] theorem State.modAudio_mirrorNumber (s : State) (i : Fin 2) (g : Audio → Audio) : (State.modAudio s i g).mirrorNumber = s.mirrorNumber := rfl
@[simp] theorem State.modAudio_clk (s : State) (i : Fin 2) (g : Audio → Audio) : (State.modAudio s i g).clk = s.clk := rfl
@[simp] theorem State.modAudio_pwr (s : State) (i : Fin 2) (g : Audio → Audio) : (State.modAudio s i g).pwr = s.pwr := rfl
@[simp] theorem State.modAudio_start (s : State) (i : Fin 2) (g : Audio → Audio) : (State.modAudio s i g).start = s.start := rfl
@[simp] theorem State.modAudio_mram (s : State) (i : Fin 2) (g : Audio → Audio) : (State.modAudio s i g).mram = s.mram := rfl
@[simp] theorem State.modAudio_meas (s : State) (i : Fin 2) (g : Audio → Audio) : (State.modAudio s i g).meas = s.meas := rfl
@[simp] theorem State.modAudio_guard (s : State) (i : Fin 2) (g : Audio → Audio) : (State.modAudio s i g).guard = s.guard := rfl
@[simp] theorem State.modAudio_ports (s : State) (i : Fin 2) (g : Audio → Audio) : (State.modAudio s i g).ports = s.ports := rfl
@[simp] theorem State.modAudio_streams (s : State) (i : Fin 2) (g : Audio → Audio) : (State.modAudio s i g).streams = s.streams := rfl
@[simp] theorem State.modAudio_deviceEpoch (s : State) (i : Fin 2) (g : Audio → Audio) : (State.modAudio s i g).deviceEpoch = s.deviceEpoch := rfl
@[simp] theorem State.modAudio_epochs (s : State) (i : Fin 2) (g : Audio → Audio) : (State.modAudio s i g).epochs = s.epochs := rfl
@[simp] theorem State.modAudio_pos (s : State) (i : Fin 2) (g : Audio → Audio) : (State.modAudio s i g).pos = s.pos := rfl
@[simp] theorem State.modAudio_emu (s : State) (i : Fin 2) (g : Audio → Audio) : (State.modAudio s i g).emu = s.emu := rfl
@[simp] theorem State.modAudio_cmps (s : State) (i : Fin 2) (g : Audio → Audio) : (State.modAudio s i g).cmps = s.cmps := rfl
@[simp] theorem State.modAudio_trigs (s : State) (i : Fin 2) (g : Audio → Audio) : (State.modAudio s i g).trigs = s.trigs := rfl
@[simp] theorem State.modAudio_hoppers (s : State) (i : Fin 2) (g : Audio → Audio) : (State.modAudio s i g).hoppers = s.hoppers := rfl
@[simp] theorem State.modAudio_hopEvent (s : State) (i : Fin 2) (g : Audio → Audio) : (State.modAudio s i g).hopEvent = s.hopEvent := rfl
@[simp] theorem State.modAudio_prep (s : State) (i : Fin 2) (g : Audio → Audio) : (State.modAudio s i g).prep = s.prep := rfl
@[simp] theorem State.modAudio_weir (s : State) (i : Fin 2) (g : Audio → Audio) : (State.modAudio s i g).weir = s.weir := rfl
@[simp] theorem State.modAudio_chans (s : State) (i : Fin 2) (g : Audio → Audio) : (State.modAudio s i g).chans = s.chans := rfl
@[simp] theorem State.modAudio_wit (s : State) (i : Fin 2) (g : Audio → Audio) : (State.modAudio s i g).wit = s.wit := rfl
@[simp] theorem State.modAudio_millpond (s : State) (i : Fin 2) (g : Audio → Audio) : (State.modAudio s i g).millpond = s.millpond := rfl
@[simp] theorem State.modAudio_lpddr (s : State) (i : Fin 2) (g : Audio → Audio) : (State.modAudio s i g).lpddr = s.lpddr := rfl
@[simp] theorem State.modAudio_out (s : State) (i : Fin 2) (g : Audio → Audio) : (State.modAudio s i g).out = s.out := rfl
@[simp] theorem State.modAudio_drawn (s : State) (i : Fin 2) (g : Audio → Audio) : (State.modAudio s i g).drawn = s.drawn := rfl
@[simp] theorem State.modAudio_audio (s : State) (i : Fin 2) (g : Audio → Audio) :
    (State.modAudio s i g).audio = vmod s.audio i g := rfl

/-- An event goes to the collector, or is counted there: it touches the log alone (R480, R499). -/
theorem postCount_eq (code fn unit : Nat) (count : Word) (s : State) :
    postCount code fn unit count s = { s with log := (postCount code fn unit count s).log } := by
  unfold postCount
  split
  · rfl
  · split <;> rfl

@[simp] theorem post_elapsed (code fn unit : Nat) (s : State) : (post code fn unit s).elapsed = s.elapsed := by
  unfold post; rw [postCount_eq]
@[simp] theorem post_pending (code fn unit : Nat) (s : State) : (post code fn unit s).pending = s.pending := by
  unfold post; rw [postCount_eq]
@[simp] theorem post_link (code fn unit : Nat) (s : State) : (post code fn unit s).link = s.link := by
  unfold post; rw [postCount_eq]
@[simp] theorem post_fns (code fn unit : Nat) (s : State) : (post code fn unit s).fns = s.fns := by
  unfold post; rw [postCount_eq]
@[simp] theorem post_lastServed (code fn unit : Nat) (s : State) : (post code fn unit s).lastServed = s.lastServed := by
  unfold post; rw [postCount_eq]
@[simp] theorem post_plan (code fn unit : Nat) (s : State) : (post code fn unit s).plan = s.plan := by
  unfold post; rw [postCount_eq]
@[simp] theorem post_queues (code fn unit : Nat) (s : State) : (post code fn unit s).queues = s.queues := by
  unfold post; rw [postCount_eq]
@[simp] theorem post_accepted (code fn unit : Nat) (s : State) : (post code fn unit s).accepted = s.accepted := by
  unfold post; rw [postCount_eq]
@[simp] theorem post_owed (code fn unit : Nat) (s : State) : (post code fn unit s).owed = s.owed := by
  unfold post; rw [postCount_eq]
@[simp] theorem post_mirror (code fn unit : Nat) (s : State) : (post code fn unit s).mirror = s.mirror := by
  unfold post; rw [postCount_eq]
@[simp] theorem post_mirrorNumber (code fn unit : Nat) (s : State) : (post code fn unit s).mirrorNumber = s.mirrorNumber := by
  unfold post; rw [postCount_eq]
@[simp] theorem post_clk (code fn unit : Nat) (s : State) : (post code fn unit s).clk = s.clk := by
  unfold post; rw [postCount_eq]
@[simp] theorem post_pwr (code fn unit : Nat) (s : State) : (post code fn unit s).pwr = s.pwr := by
  unfold post; rw [postCount_eq]
@[simp] theorem post_start (code fn unit : Nat) (s : State) : (post code fn unit s).start = s.start := by
  unfold post; rw [postCount_eq]
@[simp] theorem post_mram (code fn unit : Nat) (s : State) : (post code fn unit s).mram = s.mram := by
  unfold post; rw [postCount_eq]
@[simp] theorem post_meas (code fn unit : Nat) (s : State) : (post code fn unit s).meas = s.meas := by
  unfold post; rw [postCount_eq]
@[simp] theorem post_guard (code fn unit : Nat) (s : State) : (post code fn unit s).guard = s.guard := by
  unfold post; rw [postCount_eq]
@[simp] theorem post_ports (code fn unit : Nat) (s : State) : (post code fn unit s).ports = s.ports := by
  unfold post; rw [postCount_eq]
@[simp] theorem post_streams (code fn unit : Nat) (s : State) : (post code fn unit s).streams = s.streams := by
  unfold post; rw [postCount_eq]
@[simp] theorem post_deviceEpoch (code fn unit : Nat) (s : State) : (post code fn unit s).deviceEpoch = s.deviceEpoch := by
  unfold post; rw [postCount_eq]
@[simp] theorem post_epochs (code fn unit : Nat) (s : State) : (post code fn unit s).epochs = s.epochs := by
  unfold post; rw [postCount_eq]
@[simp] theorem post_pos (code fn unit : Nat) (s : State) : (post code fn unit s).pos = s.pos := by
  unfold post; rw [postCount_eq]
@[simp] theorem post_emu (code fn unit : Nat) (s : State) : (post code fn unit s).emu = s.emu := by
  unfold post; rw [postCount_eq]
@[simp] theorem post_cmps (code fn unit : Nat) (s : State) : (post code fn unit s).cmps = s.cmps := by
  unfold post; rw [postCount_eq]
@[simp] theorem post_trigs (code fn unit : Nat) (s : State) : (post code fn unit s).trigs = s.trigs := by
  unfold post; rw [postCount_eq]
@[simp] theorem post_hoppers (code fn unit : Nat) (s : State) : (post code fn unit s).hoppers = s.hoppers := by
  unfold post; rw [postCount_eq]
@[simp] theorem post_hopEvent (code fn unit : Nat) (s : State) : (post code fn unit s).hopEvent = s.hopEvent := by
  unfold post; rw [postCount_eq]
@[simp] theorem post_prep (code fn unit : Nat) (s : State) : (post code fn unit s).prep = s.prep := by
  unfold post; rw [postCount_eq]
@[simp] theorem post_audio (code fn unit : Nat) (s : State) : (post code fn unit s).audio = s.audio := by
  unfold post; rw [postCount_eq]
@[simp] theorem post_weir (code fn unit : Nat) (s : State) : (post code fn unit s).weir = s.weir := by
  unfold post; rw [postCount_eq]
@[simp] theorem post_chans (code fn unit : Nat) (s : State) : (post code fn unit s).chans = s.chans := by
  unfold post; rw [postCount_eq]
@[simp] theorem post_wit (code fn unit : Nat) (s : State) : (post code fn unit s).wit = s.wit := by
  unfold post; rw [postCount_eq]
@[simp] theorem post_millpond (code fn unit : Nat) (s : State) : (post code fn unit s).millpond = s.millpond := by
  unfold post; rw [postCount_eq]
@[simp] theorem post_lpddr (code fn unit : Nat) (s : State) : (post code fn unit s).lpddr = s.lpddr := by
  unfold post; rw [postCount_eq]
@[simp] theorem post_out (code fn unit : Nat) (s : State) : (post code fn unit s).out = s.out := by
  unfold post; rw [postCount_eq]
@[simp] theorem post_drawn (code fn unit : Nat) (s : State) : (post code fn unit s).drawn = s.drawn := by
  unfold post; rw [postCount_eq]

/-! ### Banks -/

@[simp] theorem vmod_vmod {α : Type} {n : Nat} (v : Vector α n) (i : Fin n) (f g : α → α) :
    vmod (vmod v i f) i g = vmod v i (fun x => g (f x)) := by simp [vmod]

@[simp] theorem vmod_same {α : Type} {n : Nat} (v : Vector α n) (i : Fin n) (f : α → α) : (vmod v i f)[i.val] = f v[i] := by
  simp [vmod]

theorem vmod_other {α : Type} {n : Nat} (v : Vector α n) (i j : Fin n) (f : α → α) (h : i ≠ j) :
    (vmod v i f)[j.val] = v[j] := by
  have : i.val ≠ j.val := fun e => h (Fin.ext e)
  simp [vmod, this]

end Sys2Proof.Machine
end

