-- ==== Sys2Proof/WellFormed.lean ====
section
/-! DEFINITION. Well-formed commands: operands that the wires can spell. `exec` is total and does not need it. -/

namespace Sys2Proof

/-- A link speed code that R31 supports. -/
def speedOk (n : Nat) : Bool := decide (1 ≤ n) && decide (n ≤ 6)

/-- A link width that R31 supports. -/
def widthOk (n : Nat) : Bool := n == 1 || n == 2 || n == 4

/-- A gear of R210. -/
def gearOk (n : Nat) : Bool := decide (1 ≤ n) && decide (n ≤ 5)

/-- A profile of R210. -/
def profileOk (n : Nat) : Bool := n == 1 || n == 2

/-- A start step (R135). -/
def stepOk (n : Nat) : Bool := decide (1 ≤ n) && decide (n ≤ 19)

/-- A configuration request names a doubleword of the 4 KiB space (R34). -/
def ConfigReq.wf : ConfigReq → Bool
  | .read o | .write o _ => decide (o < 4096) && decide (o % 4 = 0)

/-- A BAR2 request lies in the 32 MiB window (R40, R44). -/
def Bar2Req.wf : Bar2Req → Bool
  | .write o b => decide (o + b.length ≤ 0x2000000)
  | .read o n => decide (o + n ≤ 0x2000000)

/-- A ring hamper has 256 bytes (R71). -/
def Req.wf (r : Req) : Bool :=
  match r.via with
  | .porch => true
  | .ring msg => decide (msg.length = 256)

/-- Every timing field of a stream's attributes has the 16 bits that DisplayPort gives it, and the clock 40 (log entry 39). -/
def Msa.wf (m : Msa) : Bool :=
  [m.hActive, m.hTotal, m.vActive, m.vTotal, m.hSyncStart, m.hSyncWidth, m.vSyncStart, m.vSyncWidth, m.colorimetry].all
    (fun v => decide (v < 65536)) && decide (m.hz < 2 ^ 40) && decide (m.bpc ≤ 16)

/-- An edge falls within the 5 ns of its tick: 160 steps of 31.25 ps (R124). -/
def tdcStepOk (n : Nat) : Bool := decide (n < 160)

/-- A stamp that crosses by a compensated synchroniser lies within `n` ns of the instant (R112), in 1/256 ns. -/
def skewOk (n : Int) (skew : Int) : Bool := decide (|skew| ≤ 256 * n)

/-- Every ball's edge falls within its tick (R124). -/
def ballsOk (balls : Vector Line 4) : Bool := balls.toList.all fun x => tdcStepOk x.step

/-- Each field of R143's detail word has a byte. -/
def LinkSettings.wf (l : LinkSettings) : Bool :=
  decide (l.rate ≤ 255) && decide (l.lanes ≤ 255) && decide (l.swing ≤ 255) && decide (l.pre ≤ 255)

/-- A camera's answer carries a result byte. -/
def I2cAnswer.wf : I2cAnswer → Bool
  | .answered r _ => decide (r ≤ 255)
  | .silent => true

/-- A command's operands lie in the ranges of its row. -/
def Instr.wf (i : Instr) : Bool :=
  match i with
  | .perstDeassert .. => true
  | .linkTrained _ speed width _ => speedOk speed && widthOk width
  | .linkRetrainChange _ speed width => speedOk speed && widthOk width
  | .configRequest _ _ req => req.wf
  | .flrInitiate .. => true
  | .fenceClosed .. => true
  | .fenceTimeoutWedge _ _ holder => decide (holder ≤ 255)
  | .vfEnableSet .. => true
  | .vfEnableClear .. => true
  | .busMasterEnableClear .. => true
  | .busMasterEnableSet .. => true
  | .dlDown .. => true
  | .hotResetReceived .. => true
  | .perstAssert .. => true
  | .registerWrite _ _ offset words => decide (offset + 4 * words.length ≤ 0x100000) && decide (offset % 4 = 0)
  | .bar0ReadRejected _ _ offset bytes => decide (offset + bytes ≤ 0x100000)
  | .bar2Write _ req => req.wf
  | .inboundTlpError .. => true
  | .readCompletion .. => true
  | .completionTimeout .. => true
  | .serialLoRead .. => true
  | .instancePlanSet _ r => r.wf
  | .instancePlanGet _ r => r.wf
  | .porchDoorbell .. => true
  | .reqTailWrite .. => true
  | .repHeadWrite .. => true
  | .deviceInfo _ r => r.wf
  | .ringsSet _ r => r.wf
  | .ringsClear _ r => r.wf
  | .noticeRoute _ r => r.wf
  | .echo _ r => r.wf
  | .queueSet _ r => r.wf
  | .queueClear _ r => r.wf
  | .queueModerate _ r => r.wf
  | .tqHeadWrite .. => true
  | .tqDroppedRead .. => true
  | .tqModerationTimer .. => true
  | .queueWriteFailed .. => true
  | .replyWriteFailed .. => true
  | .timeNsLoRead .. => true
  | .tdcDropRead .. => true
  | .ptmDialogueStart _ step => tdcStepOk step
  | .ptmDialogueResponse _ step _ _ => tdcStepOk step
  | .ptmDialogueTimeout .. => true
  | .fantailHoldoverTimeout .. => true
  | .ptmEnableChange .. => true
  | .tdcCalibration .. => true
  | .clockLoss .. => true
  | .refclkLoss .. => true
  | .timeStatus _ r => r.wf
  | .timeStep _ r => r.wf
  | .fantailConfig _ r => r.wf
  | .timeCorrelate _ r => r.wf
  | .carWakeRise .. => true
  | .carWakeDebounceExpiry .. => true
  | .xtr0WakeEdge .. => true
  | .aonPowerApply .. => true
  | .aonPowerLoss .. => true
  | .parkHoldExpiry .. => true
  | .mainSuppliesOff .. => true
  | .suppliesGood .. => true
  | .slotCheck .. => true
  | .valtynRun .. => true
  | .journalFold .. => true
  | .outingRecord .. => true
  | .guardianSurfaces .. => true
  | .tslReceive .. => true
  | .panelLinkTrained _ _ link => link.all LinkSettings.wf
  | .earlyPicture .. => true
  | .rearCameraLink _ _ gear profile => gearOk gear && profileOk profile
  | .rearSensor _ answers _ => answers.all fun l => l.all I2cAnswer.wf
  | .rearInsertion .. => true
  | .lpddr5xTraining _ _ _ gib => decide (2 ≤ gib) && decide (gib ≤ 16)
  | .cameraPortStart _ _ _ gear profile answers _ => gearOk gear && profileOk profile && answers.all fun l => l.all I2cAnswer.wf
  | .positionChannels .. => true
  | .audioInputs .. => true
  | .witnessArmStep .. => true
  | .startDone .. => true
  | .startStepTimeout _ step _ => stepOk step
  | .lateRetry _ step _ _ _ answers _ => stepOk step && answers.all fun l => l.all I2cAnswer.wf
  | .provision _ r => r.wf
  | .provisionDone .. => true
  | .measReport _ r => r.wf
  | .measReportDone .. => true
  | .fwStage _ r _ => r.wf
  | .fwStageDone .. => true
  | .fwActivate _ r => r.wf
  | .outingWrite _ r => r.wf
  | .outingWriteDone .. => true
  | .journalRead _ r => r.wf
  | .journalClear _ r => r.wf
  | .slotSelect _ r => r.wf
  | .liveQuietPoint .. => true
  | .liveArmTimeout .. => true
  | .liveSwitchOpen .. => true
  | .liveSwitchRevert .. => true
  | .debugPortOpen .. => true
  | .debugPortClose .. => true
  | .spdmRequest .. => true
  | .compactReportReady .. => true
  | .tslFrame _ bytes => decide (bytes.length ≤ 40)
  | .tslStaleTimeout .. => true
  | .tslLossTimeout .. => true
  | .inputFrameStart _ _ msa => msa.wf
  | .inputRegionResult .. => true
  | .inputFrameEnd .. => true
  | .outputFrameStart .. => true
  | .outputFrameEnd .. => true
  | .digestSigned .. => true
  | .inputLoss .. => true
  | .inputVerticalTimeout .. => true
  | .psrEntry .. => true
  | .psrExit .. => true
  | .psrRepeatPeriod .. => true
  | .panelHpdEvent .. => true
  | .panelRetrainDone _ _ link => link.all LinkSettings.wf
  | .sinkAuxRequest _ _ req => decide (req.addr < 2 ^ 20) && decide (req.data.length ≤ 16)
  | .auxDeferExpiry .. => true
  | .panelAuxTimeout .. => true
  | .sinkHpdPulseEnd .. => true
  | .settleWindowEnd .. => true
  | .chimeWindowEnd .. => true
  | .rearTapFrame _ dataType _ _ _ => decide (dataType ≤ 63)
  | .rearCameraStale .. => true
  | .guardConfig _ r => r.wf
  | .guardStatus _ r => r.wf
  | .guardRegionsSet _ r _ => r.wf
  | .guardRefsLoad _ r _ => r.wf
  | .guardRefsLoadDone .. => true
  | .verdictRoute _ r => r.wf
  | .digestGet _ r => r.wf
  | .chainRead _ r => r.wf
  | .chainReadDone .. => true
  | .chimeTemplatesLoad _ r _ => r.wf
  | .chimeTemplatesLoadDone .. => true
  | .chimeStatus _ r => r.wf
  | .portLock .. => true
  | .portLoss .. => true
  | .relockAttempt .. => true
  | .gearRaiseTimeout .. => true
  | .csi2FrameStart _ _ vc skew => decide (vc ≤ 15) && skewOk 5 skew
  | .csi2LongPacket _ _ vc dataType _ _ => decide (vc ≤ 15) && decide (dataType ≤ 63)
  | .csi2FrameEnd _ _ vc skew => decide (vc ≤ 15) && skewOk 5 skew
  | .triggerEdgeAgeExpiry .. => true
  | .portDrainEnd .. => true
  | .drainFrameTimeout .. => true
  | .stagedFrameCopyDone .. => true
  | .streamHeadWrite .. => true
  | .streamDropsRead .. => true
  | .streamErrsRead .. => true
  | .portConfig _ r => r.wf
  | .portStatus _ r => r.wf
  | .portRestart _ r => r.wf
  | .portRestartDone .. => true
  | .tunnelI2c _ r => r.wf
  | .tunnelGpio _ r _ => r.wf
  | .streamOpen _ r => r.wf
  | .streamClose _ r => r.wf
  | .streamCloseQuiet .. => true
  | .streamStage _ r => r.wf
  | .streamStatus _ r => r.wf
  | .streamBuffers _ r => r.wf
  | .embeddedMapSet _ r => r.wf
  | .embeddedMapSetDone .. => true
  | .quadStep _ _ balls => ballsOk balls
  | .stepDirStep _ _ balls => ballsOk balls
  | .upDownCount _ _ balls => ballsOk balls
  | .hallChange _ _ balls => ballsOk balls
  | .indexEdge _ _ balls => ballsOk balls
  | .standstillTimeout .. => true
  | .serialCycleStart .. => true
  | .serialCycleEnd .. => true
  | .bissRegisterReadDone .. => true
  | .emuOutputStep .. => true
  | .posPLoRead .. => true
  | .posIdxLoRead .. => true
  | .posSerialErrsRead .. => true
  | .posConfig _ r => r.wf
  | .posConfigApply .. => true
  | .posStatus _ r => r.wf
  | .posPreset _ r => r.wf
  | .emuConfig _ r => r.wf
  | .comparatorFire .. => true
  | .trigDelayEnd .. => true
  | .trigPulseEnd _ _ step => tdcStepOk step
  | .trigHoldoffEnd .. => true
  | .trigPeriodTick .. => true
  | .xtrFallingEdge _ _ step => tdcStepOk step
  | .xtrAssertionTaken .. => true
  | .xtrDriveEnd _ _ step _ => tdcStepOk step
  | .xtrGuardEnd .. => true
  | .xtrReleaseCheck .. => true
  | .xtrStuckTimeout .. => true
  | .xtrStuckClear .. => true
  | .extEdge _ _ pin => tdcStepOk pin.step
  | .cmpTargetLoRead .. => true
  | .cmpFireLoRead .. => true
  | .trigMergedRead .. => true
  | .xtrRuntsRead .. => true
  | .cmpArm _ r => r.wf
  | .cmpDisarm _ r => r.wf
  | .cmpStatus _ r => r.wf
  | .trigConfig _ r => r.wf
  | .xtrConfig _ r => r.wf
  | .outputConfigApply .. => true
  | .trigFire _ r => r.wf
  | .configCommit _ r => r.wf
  | .epochSwitchTimer .. => true
  | .configDiscard _ r => r.wf
  | .configStatus _ r => r.wf
  | .hopperBind _ r => r.wf
  | .hopperArm _ r => r.wf
  | .hopperDisarm _ r => r.wf
  | .hopperDisarmQuiet .. => true
  | .hopperTrigger _ r => r.wf
  | .hopperStatus _ r => r.wf
  | .hopperCopyout _ r => r.wf
  | .hopperCopyEnd .. => true
  | .hopIgnoredRead .. => true
  | .pyramidSubmit _ r => r.wf
  | .pyramidCancel _ r => r.wf
  | .pyramidPassEnd .. => true
  | .pyrDroppedRead .. => true
  | .decodeSubmit _ r => r.wf
  | .decodeCancel _ r => r.wf
  | .decodeJobEnd .. => true
  | .prepQuiet .. => true
  | .engineStallReset .. => true
  | .audioConfig _ r => r.wf
  | .audioRoute _ r => r.wf
  | .audioFrame _ _ skew _ _ samples => decide (samples.length ≤ 8) && skewOk 10 skew
  | .audioLossTimeout .. => true
  | .audioHop .. => true
  | .audioRecordsWritten .. => true
  | .thermalSample .. => true
  | .fullRetrainRequest .. => true
  | .weirDrainEnd .. => true
  | .weirDrainTimeout .. => true
  | .retrainDone .. => true
  | .shortRetrain .. => true
  | .controllerStall .. => true
  | .serveRestoreTimer _ kind _ => decide (kind ≤ 3)
  | .sFaultClearTimer .. => true
  | .scrubBurst .. => true
  | .weirShedRead .. => true
  | .weirEccAddrLoRead .. => true
  | .weirStatus _ r => r.wf
  | .weirShedOrder _ r => r.wf
  | .weirCheck _ r => r.wf
  | .weirScrub _ r => r.wf
  | .chanLoad _ r _ => r.wf
  | .chanConfig _ r => r.wf
  | .chanQuiet .. => true
  | .chanSignalMap _ r => r.wf
  | .chanGo .. => true
  | .chanStop .. => true
  | .chanFlush .. => true
  | .chanRetry .. => true
  | .chanSkip .. => true
  | .chanKick .. => true
  | .chanBytesLoRead .. => true
  | .move .. => true
  | .move2d .. => true
  | .loop .. => true
  | .endLoop .. => true
  | .wait .. => true
  | .waitSatisfied .. => true
  | .waitTimeout .. => true
  | .signalEntry .. => true
  | .signalSlot .. => true
  | .setReg .. => true
  | .crcStart .. => true
  | .crcStore .. => true
  | .fence .. => true
  | .endRun .. => true
  | .arrivalReadbackDone .. => true
  | .witnessConfig _ r => r.wf
  | .witnessArm _ r => r.wf
  | .witnessDisarm _ r => r.wf
  | .witnessQuiet .. => true
  | .witnessStatus _ r => r.wf
  | .witnessRoute _ r => r.wf
  | .adcConversion .. => true
  | .dwEdge _ _ ball => tdcStepOk ball.step
  | .witnessUnitTimeout .. => true
  | .witnessCaptureEnd .. => true
  | .witnessDeliveryEnd .. => true
  | .witIgnoredRead .. => true
  | .instanceQuiesce _ r => r.wf
  | .instanceQuiesceDone .. => true
  | .eventLogged .. => true
  | .mirrorTimer .. => true
  | .logRead _ r => r.wf
  | .logClear _ r => r.wf
  | .faultAck _ r => r.wf
  | .faultStatus _ r => r.wf
  | .logFilter _ r => r.wf
  | .deviceReset _ r => r.wf
  | .logLostRead .. => true
  | .logFilteredRead .. => true
  | .watchdogService .. => true
  | .watchdogExpiry .. => true
  | .lockstepMismatch .. => true
  | .resetNAssert .. => true
  | .resetNRelease .. => true
  | .supplyFault .. => true
  | .fullResetRelease .. => true
  | .avsStep .. => true
  | .carWakeFall .. => true
  | .runtPulseEnd _ _ step => tdcStepOk step
  | .tunnelI2cAnswer _ _ answer => answer.wf
  | .refclkRestored .. => true
  | .logMirrorDone .. => true
  | .unknownOpcode _ r => r.wf

end Sys2Proof
end

