-- ==== Sys2Proof/Tests/Slice0.lean ====
section
/-! SUPPORT. The tests: operands that are out of range, published check values, and for each statement with hypotheses a
named witness `met_…`: a state and operands that meet them. In a witness, `H` only supplies the text of the hypotheses;
the proof clears it before it shows them. -/

namespace Sys2Proof.Machine

set_option synthInstance.maxSize 2000
set_option Elab.async false

/-! ### Operands that the wires cannot spell (`Instr.wf`)

One command for each kind of check; the same command in range passes. -/

theorem test_wf_linkSpeed : Instr.wf (.linkTrained 0 7 4 false) = false ∧ Instr.wf (.linkTrained 0 6 4 false) = true := by decide
theorem test_wf_linkWidth : Instr.wf (.linkRetrainChange 0 5 3) = false ∧ Instr.wf (.linkRetrainChange 0 5 2) = true := by decide
theorem test_wf_configOffset : Instr.wf (.configRequest 0 0 (.read 6)) = false ∧
    Instr.wf (.configRequest 0 0 (.write 4096 0)) = false ∧ Instr.wf (.configRequest 0 0 (.read 4)) = true := by decide
theorem test_wf_wedgeHolder : Instr.wf (.fenceTimeoutWedge 0 1 256) = false ∧ Instr.wf (.fenceTimeoutWedge 0 1 3) = true := by decide
theorem test_wf_registerWrite : Instr.wf (.registerWrite 0 0 0xFFFFE [(0, 15)]) = false ∧
    Instr.wf (.registerWrite 0 0 2 [(0, 15)]) = false ∧ Instr.wf (.registerWrite 0 0 0xFFFFC [(0, 15)]) = true := by decide
theorem test_wf_bar0Read : Instr.wf (.bar0ReadRejected 0 0 0xFFFFF 2) = false ∧ Instr.wf (.bar0ReadRejected 0 0 1 2) = true := by decide
theorem test_wf_bar2 : Instr.wf (.bar2Write 0 (.write 0x1FFFFFF [none, some 0])) = false ∧
    Instr.wf (.bar2Write 0 (.write 0x1FFFFFF [some 0])) = true ∧ Instr.wf (.bar2Write 0 (.read 0x1FFFFFD 4)) = false ∧
    Instr.wf (.bar2Write 0 (.read 0x1FFFFFC 4)) = true := by decide
theorem test_wf_ringLength : Instr.wf (.echo 0 ⟨0, .ring [0]⟩) = false ∧ Instr.wf (.echo 0 ⟨0, .porch⟩) = true := by decide
theorem test_wf_linkSettings : Instr.wf (.panelLinkTrained 0 0 (some ⟨256, 0, 0, 0⟩)) = false ∧
    Instr.wf (.panelRetrainDone 0 0 (some ⟨0, 0, 0, 256⟩)) = false ∧ Instr.wf (.panelLinkTrained 0 0 none) = true := by decide
theorem test_wf_gear : Instr.wf (.rearCameraLink 0 ⟨true⟩ 6 1) = false ∧ Instr.wf (.rearCameraLink 0 ⟨true⟩ 5 1) = true := by decide
theorem test_wf_profile : Instr.wf (.cameraPortStart 0 7 ⟨true⟩ 1 3 [] true) = false ∧
    Instr.wf (.cameraPortStart 0 7 ⟨true⟩ 1 2 [] true) = true := by decide
theorem test_wf_startStep : Instr.wf (.startStepTimeout 0 20 0) = false ∧ Instr.wf (.lateRetry 0 0 0 ⟨true⟩ 0 [] true) = false ∧
    Instr.wf (.startStepTimeout 0 19 0) = true := by decide
theorem test_wf_tslLength : Instr.wf (.tslFrame 0 (List.replicate 41 0)) = false ∧
    Instr.wf (.tslFrame 0 (List.replicate 40 0)) = true := by decide
theorem test_wf_msa : Instr.wf (.inputFrameStart 0 0 ⟨25000000, 65536, 800, 480, 525, 16, 96, 10, 2, 8, true, 0⟩) = false ∧
    Instr.wf (.inputFrameStart 0 0 ⟨25000000, 640, 800, 480, 525, 16, 96, 10, 2, 17, true, 0⟩) = false ∧
    Instr.wf (.inputFrameStart 0 0 ⟨25000000, 640, 800, 480, 525, 16, 96, 10, 2, 8, true, 0⟩) = true := by decide
theorem test_wf_auxAddress : Instr.wf (.sinkAuxRequest 0 0 ⟨false, false, false, 0x100000, [], []⟩) = false ∧
    Instr.wf (.sinkAuxRequest 0 0 ⟨false, false, false, 0, List.replicate 17 0, []⟩) = false ∧
    Instr.wf (.sinkAuxRequest 0 0 ⟨false, false, false, 0xFFFFF, [0], []⟩) = true := by decide
theorem test_wf_tapDataType : Instr.wf (.rearTapFrame 0 64 8 8 []) = false ∧ Instr.wf (.rearTapFrame 0 63 8 8 []) = true := by decide
theorem test_wf_virtualChannel : Instr.wf (.csi2FrameStart 0 0 16 0) = false ∧ Instr.wf (.csi2FrameEnd 0 0 16 0) = false ∧
    Instr.wf (.csi2FrameStart 0 0 15 0) = true := by decide
theorem test_wf_skew : Instr.wf (.csi2FrameStart 0 0 0 1281) = false ∧ Instr.wf (.csi2FrameStart 0 0 0 (-1280)) = true ∧
    Instr.wf (.audioFrame 0 0 (-2561) true 0 []) = false ∧ Instr.wf (.audioFrame 0 0 2560 true 0 []) = true := by decide
theorem test_wf_tdcStep : Instr.wf (.trigPulseEnd 0 0 160) = false ∧ Instr.wf (.trigPulseEnd 0 0 159) = true ∧
    Instr.wf (.quadStep 0 0 (.replicate 4 ⟨true, 160⟩)) = false ∧
    Instr.wf (.quadStep 0 0 (.replicate 4 ⟨true, 159⟩)) = true := by decide
theorem test_wf_lpddrSize : Instr.wf (.lpddr5xTraining 0 ⟨true⟩ 8533 1) = false ∧
    Instr.wf (.lpddr5xTraining 0 ⟨true⟩ 8533 17) = false ∧ Instr.wf (.lpddr5xTraining 0 ⟨true⟩ 8533 16) = true := by decide
theorem test_wf_packetDataType : (∀ p, Instr.wf (.csi2LongPacket 0 0 0 64 [] p) = false) ∧
    (∀ p, Instr.wf (.csi2LongPacket 0 0 0 63 [] p) = true) := by simp [Instr.wf]
theorem test_wf_audioSamples : Instr.wf (.audioFrame 0 0 0 true 0 (List.replicate 9 0)) = false ∧
    Instr.wf (.audioFrame 0 0 0 true 0 (List.replicate 8 0)) = true := by decide
theorem test_wf_restoreKind : Instr.wf (.serveRestoreTimer 0 4 0) = false ∧ Instr.wf (.serveRestoreTimer 0 3 0) = true := by decide
theorem test_wf_i2cAnswer : Instr.wf (.tunnelI2cAnswer 0 0 (.answered 256 [])) = false ∧
    Instr.wf (.tunnelI2cAnswer 0 0 (.answered 255 [])) = true ∧ Instr.wf (.tunnelI2cAnswer 0 0 .silent) = true := by decide

/-! ### The shared calculations, against published check values -/

/-- "123456789", the usual check input of a CRC. -/
def checkInput : List Byte := [0x31, 0x32, 0x33, 0x34, 0x35, 0x36, 0x37, 0x38, 0x39]

/-- CRC-32C's published check value. -/
theorem test_crc32c : crc32c checkInput = 0xE3069283 := by decide +kernel

/-- CRC-32's published check value. -/
theorem test_crc32 : crc32Step 0xFFFFFFFF checkInput ^^^ 0xFFFFFFFF = 0xCBF43926 := by decide +kernel

/-- CRC-16/CCITT-FALSE's published check value. -/
theorem test_crc16 : crc16Step 0xFFFF checkInput = 0x29B1 := by decide +kernel

/-- CRC-8 SAE J1850's published check value. -/
theorem test_crc8 : crc8 checkInput = 0x4B := by decide +kernel

/-- SHA-384 of "abc" begins CB 00 75 3F (FIPS 180-4). -/
theorem test_sha384 : (sha384 [0x61, 0x62, 0x63]).take 8 = [0xCB, 0x00, 0x75, 0x3F, 0x45, 0xA3, 0x5E, 0x8B] := by decide +kernel

/-- No word spells a command: the opcode table gives no row any bits. -/
theorem test_decode (w : Nat) : decodeTableWord 32 w = none := rfl

/-- A part without power is dark: its front command is taken and the queue's rest stays. -/
theorem test_step_takes_front : (match step { State.reset with pending := [.carWakeFall 0, .vfEnableSet 0] } with
    | .next t => t.pending
    | _ => []) = [.vfEnableSet 0] := by decide +kernel


/-! ### The states and requests of the tests. -/

/-- The hypotheses of a claim about a command, at a state. -/
abbrev Acts.Met {c : Nat → Instr} {pre : State → Prop} {post : State → State} (_ : Acts c pre post) (s : State) : Prop :=
  pre (advance 0 s)

abbrev ActsSo.Met {c : Nat → Instr} {pre : State → Prop} {rel : State → State → Prop} (_ : ActsSo c pre rel)
    (s : State) : Prop := pre (advance 0 s)

/-- The hamper that Valtyn fetches. -/
def fetched (s : State) (r : Req) : Hamper := (fetch (advance 0 s) r).getD (hamperOf 0 true [])

/-- The hypotheses of a claim about a request, at a state and a request that Valtyn fetches there. -/
abbrev Serves.Met {c : Nat → Req → Instr} {op minor : Nat} {pf0 : Bool} {pre : State → Hamper → Prop} {status : Nat}
    {payload : State → Hamper → List Byte} {post : State → Hamper → State}
    (_ : Serves c op minor pf0 pre status payload post) (s : State) (r : Req) : Prop :=
  Asked (advance 0 s) r (fetched s r) op minor pf0 ∧ pre (advance 0 s) (fetched s r)

abbrev Defers.Met {c : Nat → Req → Instr} {op minor : Nat} {pf0 : Bool} {pre : State → Hamper → Prop}
    {index : State → Hamper → Nat} {post : State → Hamper → State}
    (_ : Defers c op minor pf0 pre index post) (s : State) (r : Req) : Prop :=
  Asked (advance 0 s) r (fetched s r) op minor pf0 ∧ pre (advance 0 s) (fetched s r)

/-- The hypothesis of an implication. -/
abbrev ant {p q : Prop} (_ : p → q) : Prop := p
abbrev ant2 {p q r : Prop} (_ : p → q → r) : Prop := p ∧ q
abbrev ant3 {p q r t : Prop} (_ : p → q → r → t) : Prop := p ∧ q ∧ r
abbrev ant4 {p q r t u : Prop} (_ : p → q → r → t → u) : Prop := p ∧ q ∧ r ∧ t
abbrev ant5 {p q r t u v : Prop} (_ : p → q → r → t → u → v) : Prop := p ∧ q ∧ r ∧ t ∧ u
abbrev ant6 {p q r t u v w : Prop} (_ : p → q → r → t → u → v → w) : Prop := p ∧ q ∧ r ∧ t ∧ u ∧ v

/-- A request of PF0 in its ring: opcode and payload. -/
def ask (op : Nat) (payload : List Byte) : Req :=
  ⟨0, .ring (record [(2, op), (2, 0), (4, 7), (2, payload.length), (2, 0), (4, 0)] ++ padTo 240 payload)⟩

/-- The hamper that `ask` is fetched as. -/
def asked (op : Nat) (payload : List Byte) : Hamper := hamperOf 0 false
  (record [(2, op), (2, 0), (4, 7), (2, payload.length), (2, 0), (4, 0)] ++ padTo 240 payload)

/-- A running part, 5 s after the model began: Valtyn serves version 4 (R14), the link is up, PF0 is READY with one ring
request and Bus Master Enable set, and VF15 is READY. -/
def up : State :=
  { State.reset with
    elapsed := 1000000000
    lastServed := 15
    link := { State.reset.link with perstLow := false, up := true, width := 4, speed := 5, vfEnable := true, numVfs := 15 }
    clk := { State.reset.clk with refclkOk := true, xtalOk := true, pllLock := 0xF }
    pwr := { State.reset.pwr with state := .running, pwrEn := true, suppliesGood := true, cause := 1 }
    start := { State.reset.start with core := .valtyn, minor := 4, number := 7 }
    fns := (State.reset.fns.set 0 { FnState.reset .ready with busMaster := true, doorbells := [false] }).set 15
      { FnState.reset .ready with busMaster := true } }

/-- `up` with its request in PF0's porch instead, in mode `mode`. -/
def porched (mode : FnMode) (rest : List Bool) (op : Nat) (payload : List Byte) : State :=
  up.modFn 0 fun f => { f with
    mode := mode, doorbells := true :: rest
    porchCopy := record [(2, op), (2, 2), (4, 7), (2, payload.length), (2, 0), (4, 0)] ++ padTo 240 payload }

/-- A host buffer reference: address and length (R76). -/
def hostBuf (addr len : Nat) : List Byte := record [(8, addr), (4, len), (4, 0)]

/-- A Millpond buffer reference. -/
def millBuf (addr len : Nat) : List Byte := record [(8, addr), (4, len), (4, 1)]

/-- `s` with the queue `q` of PF0 enabled in host memory with 64 entries. -/
def withQueue (q : Fin 32) (s : State) : State :=
  s.modQueue q fun Q => { Q with enabled := true, entries := 64, base := 0x4000, vector := 3, threshold := 1 }

/-- `s` with device time at 1 s. -/
def aged (s : State) : State := { s with clk := { s.clk with dev := BitVec.ofNat 104 (1000000000 * 2 ^ 40) } }

/-- The part in a start, 5 s after the model began, where a step has just begun its primary route. -/
def starting (step inst : Nat) : State :=
  { up with
    pwr := { up.pwr with state := .starting }
    start := { up.start with steps := [⟨step, inst, .running 0 up.elapsed⟩] } }

/-- `s` with the defaults of outing key 6 that these CBOR bytes spell. -/
def withDefaults (cbor : List Byte) (s : State) : State :=
  s.modStart fun a => { a with outing := { a.outing with defaultsItem := cbor } }

/-- The container of an outing record (R150). -/
def outingOf (body : List Byte) : List Byte :=
  record [(4, 0x4F555431), (2, 1), (2, 0), (4, body.length), (4, crc32c body)] ++ body

/-- The smallest good record: every resource PF0's, PF0 the guardian's owner. -/
def smallOuting : List Byte := outingOf ([0xA2, 0x01, 0x58, 0xA8] ++ List.replicate 168 0 ++ [0x02, 0x00])

/-- The smallest intact image (R147, R148). -/
def smallImage : List Byte :=
  let h := padTo 0xFC (record [(4, 0x56414C31), (4, 0x04010000), (4, 0x100), (4, 0), (4, 0x100), (4, 0), (4, crc32c []),
    (4, 0x100)])
  h ++ leBytes 4 (crc32c h)

/-- A request of VF15 in its porch, in the state `f up`. -/
def asking (mode : FnMode) (op : Nat) (flags : Nat) (f : State → State) : State :=
  f ({ up with lastServed := 14 }.modFn 15 fun x => { x with
    mode := mode, doorbells := [true], porchCopy := record [(2, op), (2, flags), (4, 7), (2, 0), (2, 0), (4, 0)] })

/-- The hamper of `asking`. -/
def askedOf (op flags : Nat) : Hamper :=
  hamperOf 15 true (record [(2, op), (2, flags), (4, 7), (2, 0), (2, 0), (4, 0)])

theorem met_idle (H : Obligations.StepIdlesOnEmptyQueue) : ant (H State.reset) := rfl

theorem met_canonical : State.reset.Canonical ∧ step State.reset = .next State.reset := by
  refine ⟨?_, rfl⟩; unfold State.Canonical; decide +kernel

theorem met_time (H : Obligations.TimeMovesOnlyTheClock) :
    ant ((H 7 up).2.1) ∧ ant ((H 7 State.reset).2.2) := by
  delta Acts.Met ActsSo.Met Serves.Met Defers.Met ant ant2 ant3 ant4 ant5 ant6; clear H; decide +kernel

def closedDoor (s : State) : State := s.modStart fun x => { x with doorClosed := true }

theorem met_refuses (c : Nat → Req → Instr) (H : Claims.Refuses c 0x0C05 4 true) :
    ant3 (H (asking .wedged 0x0C05 2 id) 0 ⟨15, .porch⟩ (askedOf 0x0C05 2)) ∧
    ((asking .wedged 0x0C05 2 id).fns[(15 : Fn)]).mode = .wedged ∧
    ant3 (H (asking .ready 0x0C05 2 closedDoor) 0 ⟨15, .porch⟩ (askedOf 0x0C05 2)) ∧
    ((asking .ready 0x0C05 2 closedDoor).fns[(15 : Fn)]).mode ≠ .wedged ∧
    (advance 0 (asking .ready 0x0C05 2 closedDoor)).start.doorClosed = true ∧
    ant3 (H (asking .ready 0x0C05 1 id) 0 ⟨15, .porch⟩ (askedOf 0x0C05 1)) ∧
    (askedOf 0x0C05 1).headerBad = true ∧
    (askedOf 0x0C05 2).headerBad = false ∧
    (asking .ready 0x0C05 2 fun s => s.modStart fun x => { x with minor := 3 }).start.minor < 4 ∧
    ant3 (H (asking .ready 0x0C05 2 id) 0 ⟨15, .porch⟩ (askedOf 0x0C05 2)) ∧
    4 ≤ (asking .ready 0x0C05 2 id).start.minor ∧ (askedOf 0x0C05 2).fn ≠ 0 := by
  delta Acts.Met ActsSo.Met Serves.Met Defers.Met ant ant2 ant3 ant4 ant5 ant6; clear H; decide +kernel

theorem met_shut (c : Nat → Req → Instr) (H : Claims.Refuses c 0x0210 0 false) :
    ant3 (H (asking .ready 0x0210 2 fun s => s.modStart fun x => { x with allDoorsClosed := true }) 0 ⟨15, .porch⟩
      (askedOf 0x0210 2)) ∧
    doorShut (asking .ready 0x0210 2 fun s => s.modStart fun x => { x with allDoorsClosed := true }) (askedOf 0x0210 2) =
      true := by
  delta Acts.Met ActsSo.Met Serves.Met Defers.Met ant ant2 ant3 ant4 ant5 ant6; clear H; decide +kernel

theorem met_reply (H : Obligations.RepliesAreWritten) :
    ant ((H (askedOf 1 2) 0 0 [] up).2.2.2.1) ∧ ant2 ((H (asked 1 []) 0 0 [] up).2.2.2.2) ∧
    ((up.fns[(0 : Fn)]).busMaster = true ∧ (State.reset.fns[(0 : Fn)]).busMaster = false) := by
  delta Acts.Met ActsSo.Met Serves.Met Defers.Met ant ant2 ant3 ant4 ant5 ant6; clear H; decide +kernel

def fullQueue (Q : Queue) : Queue := { Q with tail := 63 }

theorem met_entry (H : Obligations.TailraceEntriesAreWrittenOrCounted) :
    ant4 ((H 31 ⟨1, 2, 3, 0, 0, 4⟩ (withQueue 31 up)).1) ∧
    ((withQueue 31 up).queues[(31 : Fin 32)]).millpond = false ∧
    ant4 ((H 31 ⟨1, 2, 3, 0, 0, 4⟩ ((withQueue 31 up).modQueue 31 fullQueue)).2.1) ∧
    ant ((H 31 ⟨1, 2, 3, 0, 0, 4⟩ up).2.2) ∧
    ant ((H 31 ⟨1, 2, 3, 0, 0, 4⟩ ((withQueue 31 up).modQueue 31 fun Q => { Q with stopped := true })).2.2) := by
  delta Acts.Met ActsSo.Met Serves.Met Defers.Met ant ant2 ant3 ant4 ant5 ant6; clear H; decide +kernel

theorem met_event (H : Obligations.EventsEnterTheCollector) :
    ant ((H 0x2001 0 0 (up.modLog fun g => { g with filterMask := 0x0FFE })).1) ∧
    ant2 ((H 0x2001 0 0 up).2.1) ∧
    ant2 ((H 0x2001 0 0 (up.modLog fun g => { g with collector := List.replicate 256 ⟨0x2001, 0, 0, 0, 1⟩ })).2.2) := by
  delta Acts.Met ActsSo.Met Serves.Met Defers.Met ant ant2 ant3 ant4 ant5 ant6; clear H; decide +kernel

/-- `up` with every resource VF15's. -/
def given : State :=
  { up with plan := { up.plan with
      queues := Vector.replicate 32 15, streams := Vector.replicate 32 15, channels := Vector.replicate 64 15,
      hoppers := Vector.replicate 16 15, comparators := Vector.replicate 16 15 } }

theorem met_unowned (H : Obligations.UnownedWindowsReadZero) :
    ((H.1 0 63 1).1).Met given ∧ ((H.1 0 63 1).2.1).Met given ∧ ((H.1 0 63 1).2.2.1).Met given ∧
    (((H.1 0 63 1).2.2.2.1) (by decide)).Met given ∧ (((H.1 0 63 1).2.2.2.2 63 (by decide)).1).Met given ∧
    (((H.1 0 63 1).2.2.2.2 63 (by decide)).2).Met given ∧
    ((H.2.1 0 31 1).1).Met given ∧ ((H.2.1 0 31 1).2.1).Met given ∧ ((H.2.1 0 31 1).2.2.1).Met given ∧
    (((H.2.1 0 31 1).2.2.2 7 (by decide)).1).Met given ∧ (((H.2.1 0 31 1).2.2.2 7 (by decide)).2).Met given ∧
    ((H.2.2.1 0 31 1).1).Met given ∧ ((H.2.2.1 0 31 1).2.1).Met given ∧
    (((H.2.2.1 0 31 1).2.2 7 (by decide)).1).Met given ∧ (((H.2.2.1 0 31 1).2.2 7 (by decide)).2).Met given ∧
    ((H.2.2.2.1 0 15 1).1).Met given ∧ (((H.2.2.2.1 0 15 1).2 7 (by decide)).1).Met given ∧
    (((H.2.2.2.1 0 15 1).2 7 (by decide)).2).Met given ∧
    ((H.2.2.2.2 0 15 1).1).Met given ∧ ((H.2.2.2.2 0 15 1).2.1).Met given ∧
    (((H.2.2.2.2 0 15 1).2.2 7 (by decide)).1).Met given ∧ (((H.2.2.2.2 0 15 1).2.2 7 (by decide)).2).Met given := by
  delta Acts.Met ActsSo.Met Serves.Met Defers.Met ant ant2 ant3 ant4 ant5 ant6; clear H; decide +kernel

theorem met_head (H : Obligations.QueueHeadMovesWithinUnreadEntries) :
    (H 0 31 5).1.Met ((withQueue 31 up).modQueue 31 fun Q => { Q with tail := 5 }) ∧
    (H 0 31 6).2.Met ((withQueue 31 up).modQueue 31 fun Q => { Q with tail := 5 }) ∧
    (H 0 31 0).1.Met up := by
  delta Acts.Met ActsSo.Met Serves.Met Defers.Met ant ant2 ant3 ant4 ant5 ant6; clear H; decide +kernel

theorem met_newEntry (H : Obligations.NewLogEntriesTakeTheNextSlot) :
    (H ⟨0x2001, 255, 1, 7, 1⟩ []).Met (up.modLog fun g => { g with collector := [⟨0x2001, 255, 1, 7, 1⟩] }) := by
  delta Acts.Met ActsSo.Met Serves.Met Defers.Met ant ant2 ant3 ant4 ant5 ant6; clear H; decide +kernel

theorem met_perstDeassert (H : Claims.perstDeassert) :
    H.1.Met { up with link := { up.link with perstLow := true } } ∧
    H.2.1.Met { State.reset with pwr := { State.reset.pwr with state := .parked } } ∧
    H.2.2.Met { up with link := { up.link with perstLow := true }, pwr := { up.pwr with state := .shutdown } } := by
  delta Acts.Met ActsSo.Met Serves.Met Defers.Met ant ant2 ant3 ant4 ant5 ant6; clear H; decide +kernel

theorem met_linkTrained (H : Claims.linkTrained) :
    (H 6 1 true).1.Met { up with link := { up.link with up := false, width := 0 } } ∧
    (H 5 4 false).1.Met { up with link := { up.link with up := false } } ∧
    (H 5 1 false).2.Met { up with link := { up.link with up := false } } := by
  delta Acts.Met ActsSo.Met Serves.Met Defers.Met ant ant2 ant3 ant4 ant5 ant6; clear H; decide +kernel

theorem met_linkRetrainChange (H : Claims.linkRetrainChange) : (H 1 4).Met up := by
  delta Acts.Met ActsSo.Met Serves.Met Defers.Met ant ant2 ant3 ant4 ant5 ant6; clear H; decide +kernel

theorem met_configRequest (H : Claims.configRequest) :
    (H.1 15 (.read 0)).Met { up with link := { up.link with rrsFrom := up.elapsed } } ∧ H.2.1.Met up ∧
    (H.2.2 15 4).Met up := by
  delta Acts.Met ActsSo.Met Serves.Met Defers.Met ant ant2 ant3 ant4 ant5 ant6; clear H; decide +kernel

theorem met_flrInitiate (H : Claims.flrInitiate) :
    (H 15).1.Met up ∧ ant ((H 0).2.2.1 up 31) ∧ ant ((H 0).2.2.2 up 63) := by
  delta Acts.Met ActsSo.Met Serves.Met Defers.Met ant ant2 ant3 ant4 ant5 ant6; clear H; decide +kernel

theorem met_fenceClosed (H : Claims.fenceClosed) :
    (H 15 980000000).Met (up.modFn 15 fun f => { f with mode := .fencing, flrAt := some 980000000 }) := by
  delta Acts.Met ActsSo.Met Serves.Met Defers.Met ant ant2 ant3 ant4 ant5 ant6; clear H; decide +kernel

theorem met_fenceTimeoutWedge (H : Claims.fenceTimeoutWedge) :
    (H 15 3 980000000).Met (up.modFn 15 fun f => { f with mode := .fencing, flrAt := some 980000000 }) := by
  delta Acts.Met ActsSo.Met Serves.Met Defers.Met ant ant2 ant3 ant4 ant5 ant6; clear H; decide +kernel

theorem met_vfEnableSet (H : Claims.vfEnableSet) : H.Met { up with link := { up.link with vfEnable := false } } := by
  delta Acts.Met ActsSo.Met Serves.Met Defers.Met ant ant2 ant3 ant4 ant5 ant6; clear H; decide +kernel

theorem met_vfEnableClear (H : Claims.vfEnableClear) : H.Met up := by
  delta Acts.Met ActsSo.Met Serves.Met Defers.Met ant ant2 ant3 ant4 ant5 ant6; clear H; decide +kernel

theorem met_busMasterEnableClear (H : Claims.busMasterEnableClear) : (H 15 [(63, 4096)]).Met up := by
  delta Acts.Met ActsSo.Met Serves.Met Defers.Met ant ant2 ant3 ant4 ant5 ant6; clear H; decide +kernel

theorem met_busMasterEnableSet (H : Claims.busMasterEnableSet) : (H 15).Met up := by
  delta Acts.Met ActsSo.Met Serves.Met Defers.Met ant ant2 ant3 ant4 ant5 ant6; clear H; decide +kernel

theorem met_dlDown (H : Claims.dlDown) : H.Met up := by
  delta Acts.Met ActsSo.Met Serves.Met Defers.Met ant ant2 ant3 ant4 ant5 ant6; clear H; decide +kernel

theorem met_hotResetReceived (H : Claims.hotResetReceived) : H.Met up := by
  delta Acts.Met ActsSo.Met Serves.Met Defers.Met ant ant2 ant3 ant4 ant5 ant6; clear H; decide +kernel

theorem met_perstAssert (H : Claims.perstAssert) :
    H.Met { up with start := { up.start with steps := [⟨1, 0xFF, .done⟩] } } := by
  delta Acts.Met ActsSo.Met Serves.Met Defers.Met ant ant2 ant3 ant4 ant5 ant6; clear H; decide +kernel

theorem met_registerWrite (H : Claims.registerWrite) :
    (H 15 0xFFFFFFFF).1.Met up ∧ ant2 ((H 15 5).2 0x3FFFC 0xE) ∧
    ((H 15 5).2 0x3FFFC 0xE (by decide) (by decide)).Met up := by
  delta Acts.Met ActsSo.Met Serves.Met Defers.Met ant ant2 ant3 ant4 ant5 ant6; clear H; decide +kernel

theorem met_bar0ReadRejected (H : Claims.bar0ReadRejected) :
    ant2 ((H 15).1 0x3FF00 132) ∧ ((H 15).1 0x3FF00 132 (by decide) (by decide)).Met up ∧ (H 15).2.Met up := by
  delta Acts.Met ActsSo.Met Serves.Met Defers.Met ant ant2 ant3 ant4 ant5 ant6; clear H; decide +kernel

/-- `up` with the BAR2 window enabled. -/
def bar2Up : State := { up with start := { up.start with ident := { up.start.ident with bar2Enable := true } } }

theorem met_bar2Write (H : Claims.bar2Write) :
    (H.1 0x10FFFFC [some 1, none, some 3, some 4]).1.Met bar2Up ∧ (H.1 0xFFFFFC [some 1, none, none, none]).2.Met bar2Up ∧
    (H.2 0x1000004 2).Met bar2Up := by
  delta Acts.Met ActsSo.Met Serves.Met Defers.Met ant ant2 ant3 ant4 ant5 ant6; clear H; decide +kernel

theorem met_inboundTlpError (H : Claims.inboundTlpError) :
    (H 0).1.Met up ∧ (H 15).2.1.Met up ∧ (H 15).2.2.1.Met up ∧ (H 15).2.2.2.1.Met up ∧ (H 15).2.2.2.2.1.Met (up.modFn 15 fun f => { f with cfg := [(0x118, 0x100)] }) ∧
    (H 15).2.2.2.2.2.Met up := by
  delta Acts.Met ActsSo.Met Serves.Met Defers.Met ant ant2 ant3 ant4 ant5 ant6; clear H; decide +kernel

theorem met_readCompletion (H : Claims.readCompletion) :
    (H.1 15).Met up ∧ ant (H.2 0 .ca) ∧ (H.2 0 .ca (.inr rfl)).Met up := by
  delta Acts.Met ActsSo.Met Serves.Met Defers.Met ant ant2 ant3 ant4 ant5 ant6; clear H; decide +kernel

theorem met_completionTimeout (H : Claims.completionTimeout) : (H 15).Met up := by
  delta Acts.Met ActsSo.Met Serves.Met Defers.Met ant ant2 ant3 ant4 ant5 ant6; clear H; decide +kernel

theorem met_serialLoRead (H : Claims.serialLoRead) : (H 15).Met up := by
  delta Acts.Met ActsSo.Met Serves.Met Defers.Met ant ant2 ant3 ant4 ant5 ant6; clear H; decide +kernel

theorem met_instancePlanSet (H : Claims.instancePlanSet) :
    H.1.Met up (ask 0x101 (record [(4, 9), (2, 1), (2, 0), (160, 0)])) ∧
    ant3 (H.2 up 0 (ask 0x101 (record [(4, 9), (2, 0), (2, 0), (160, 0)]))
      (asked 0x101 (record [(4, 9), (2, 0), (2, 0), (160, 0)]))) := by
  delta Acts.Met ActsSo.Met Serves.Met Defers.Met ant ant2 ant3 ant4 ant5 ant6; clear H; decide +kernel

theorem met_instancePlanGet (H : Claims.instancePlanGet) : H.Met up (ask 0x102 []) := by
  delta Acts.Met ActsSo.Met Serves.Met Defers.Met ant ant2 ant3 ant4 ant5 ant6; clear H; decide +kernel

theorem met_porchDoorbell (H : Claims.porchDoorbell) :
    (H 15).1.Met up ∧ (H 15).2.Met (up.modFn 15 fun f => { f with porchBusy := true }) := by
  delta Acts.Met ActsSo.Met Serves.Met Defers.Met ant ant2 ant3 ant4 ant5 ant6; clear H; decide +kernel

theorem met_reqTailWrite (H : Claims.reqTailWrite) : (H 15 32).1.Met up ∧ (H 15 33).2.Met up := by
  delta Acts.Met ActsSo.Met Serves.Met Defers.Met ant ant2 ant3 ant4 ant5 ant6; clear H; decide +kernel

theorem met_repHeadWrite (H : Claims.repHeadWrite) :
    (H 15 2).1.Met (up.modFn 15 fun f => { f with repTail := 2 }) ∧ (H 15 1).2.Met up := by
  delta Acts.Met ActsSo.Met Serves.Met Defers.Met ant ant2 ant3 ant4 ant5 ant6; clear H; decide +kernel

theorem met_deviceInfo (H : Claims.deviceInfo) : H.Met up (ask 1 []) := by
  delta Acts.Met ActsSo.Met Serves.Met Defers.Met ant ant2 ant3 ant4 ant5 ant6; clear H; decide +kernel

theorem met_ringsSet (H : Claims.ringsSet) :
    H.Met (porched .bare [] 2 (record [(8, 0x1000), (8, 0x3000), (1, 31), (7, 0)])) ⟨0, .porch⟩ := by
  delta Acts.Met ActsSo.Met Serves.Met Defers.Met ant ant2 ant3 ant4 ant5 ant6; clear H; decide +kernel

theorem met_ringsClear (H : Claims.ringsClear) :
    H.1.Met (porched .ready [] 3 []) ⟨0, .porch⟩ ∧ H.2.Met (porched .ready [false, false] 3 []) ⟨0, .porch⟩ := by
  delta Acts.Met ActsSo.Met Serves.Met Defers.Met ant ant2 ant3 ant4 ant5 ant6; clear H; decide +kernel

theorem met_noticeRoute (H : Claims.noticeRoute) :
    (H.1 31).Met up (ask 4 (record [(1, 31), (3, 0)])) ∧ H.2.Met up (ask 4 (record [(1, 0xFF), (3, 0)])) := by
  delta Acts.Met ActsSo.Met Serves.Met Defers.Met ant ant2 ant3 ant4 ant5 ant6; clear H; decide +kernel

theorem met_echo (H : Claims.echo) : H.Met up (ask 5 [1, 2, 3]) := by
  delta Acts.Met ActsSo.Met Serves.Met Defers.Met ant ant2 ant3 ant4 ant5 ant6; clear H; decide +kernel

theorem met_queueSet (H : Claims.queueSet) :
    (H 31).1.Met up (ask 0x110 (record
      [(1, 31), (1, 0), (1, 1), (1, 31), (4, 64), (8, 0x4000), (2, 1), (2, 0), (4, 0)])) ∧
    (H 0).2.Met { up with start := { up.start with ident := { up.start.ident with bar2Enable := true } } }
      (ask 0x110 (record [(1, 0), (1, 1), (1, 0), (1, 0xFF), (4, 64), (8, 0x1000000), (2, 1), (2, 0), (4, 0)])) := by
  delta Acts.Met ActsSo.Met Serves.Met Defers.Met ant ant2 ant3 ant4 ant5 ant6; clear H; decide +kernel

theorem met_queueClear (H : Claims.queueClear) :
    (H 31).Met (withQueue 31 up) (ask 0x111 (record [(1, 31), (3, 0)])) := by
  delta Acts.Met ActsSo.Met Serves.Met Defers.Met ant ant2 ant3 ant4 ant5 ant6; clear H; decide +kernel

theorem met_queueModerate (H : Claims.queueModerate) :
    (H 31).1.Met (withQueue 31 up) (ask 0x112 (record [(1, 31), (1, 0), (2, 2), (2, 10), (2, 0)])) ∧
    (H 31).2.Met ((withQueue 31 up).modQueue 31 fun Q => { Q with unsignalled := 3 })
      (ask 0x112 (record [(1, 31), (1, 0), (2, 2), (2, 10), (2, 0)])) := by
  delta Acts.Met ActsSo.Met Serves.Met Defers.Met ant ant2 ant3 ant4 ant5 ant6; clear H; decide +kernel

theorem met_tqDroppedRead (H : Claims.tqDroppedRead) :
    (H 0 31).Met ((withQueue 31 up).modQueue 31 fun Q => { Q with dropped := 2 }) := by
  delta Acts.Met ActsSo.Met Serves.Met Defers.Met ant ant2 ant3 ant4 ant5 ant6; clear H; decide +kernel

theorem met_tqModerationTimer (H : Claims.tqModerationTimer) :
    (H 31 999990000).Met ((withQueue 31 up).modQueue 31 fun Q => { Q with
      timeUs := 50, unsignalled := 2, timerFrom := some 999990000 }) := by
  delta Acts.Met ActsSo.Met Serves.Met Defers.Met ant ant2 ant3 ant4 ant5 ant6; clear H; decide +kernel

theorem met_queueWriteFailed (H : Claims.queueWriteFailed) : (H 31).Met (withQueue 31 up) := by
  delta Acts.Met ActsSo.Met Serves.Met Defers.Met ant ant2 ant3 ant4 ant5 ant6; clear H; decide +kernel

theorem met_replyWriteFailed (H : Claims.replyWriteFailed) :
    (H 15).Met (up.modFn 15 fun f => { f with repTail := 1 }) := by
  delta Acts.Met ActsSo.Met Serves.Met Defers.Met ant ant2 ant3 ant4 ant5 ant6; clear H; decide +kernel

theorem met_unknownOpcode (H : Claims.unknownOpcode) :
    ant2 (H up 0 (ask 0x0FFF []) (asked 0x0FFF [])) := by
  delta Acts.Met ActsSo.Met Serves.Met Defers.Met ant ant2 ant3 ant4 ant5 ant6; clear H; decide +kernel

theorem met_timeNsLoRead (H : Claims.timeNsLoRead) : (H 15).Met up := by
  delta Acts.Met ActsSo.Met Serves.Met Defers.Met ant ant2 ant3 ant4 ant5 ant6; clear H; decide +kernel

theorem met_tdcDropRead (H : Claims.tdcDropRead) : (H 15).Met up := by
  delta Acts.Met ActsSo.Met Serves.Met Defers.Met ant ant2 ant3 ant4 ant5 ant6; clear H; decide +kernel

theorem met_ptmDialogueStart (H : Claims.ptmDialogueStart) :
    (H 5).1.Met { up with link := { up.link with ptmEnable := true } } ∧
    (H 5).2.Met (up.modFantail fun f => { f with startedAt := some 998000000, mode := .rate }) := by
  delta Acts.Met ActsSo.Met Serves.Met Defers.Met ant ant2 ant3 ant4 ant5 ant6; clear H; decide +kernel

theorem met_ptmDialogueResponse (H : Claims.ptmDialogueResponse) :
    (H 1000 0 0 999900000 Held.zero Held.zero 0).1.Met
      (up.modFantail fun f => { f with waiting := some (999900000, Held.zero), roundTrips := [10, 20, 30] }) ∧
    (H 1000 15 1 999900000 Held.zero Held.zero 0).2.1.Met
      (up.modFantail fun f => { f with
        waiting := some (999900000, Held.zero), mode := .rate, state := .acquire, within := 7 }) ∧
    (H 1000 5000000 1 999900000 Held.zero Held.zero 0).2.2.1.Met
      (up.modFantail fun f => { f with
        waiting := some (999900000, Held.zero), mode := .rate, state := .locked, prevOffset := some 0 }) ∧
    (H 1000 0 1 999900000 Held.zero Held.zero 10).2.2.2.Met
      (up.modFantail fun f => { f with
        waiting := some (999900000, Held.zero), mode := .rate, state := .locked, prevOffset := some 10,
        lastDevice := some Held.zero }) := by
  delta Acts.Met ActsSo.Met Serves.Met Defers.Met ant ant2 ant3 ant4 ant5 ant6; clear H; decide +kernel

theorem met_ptmDialogueTimeout (H : Claims.ptmDialogueTimeout) :
    (H 999800000 Held.zero).1.Met (up.modFantail fun f => { f with waiting := some (999800000, Held.zero) }) ∧
    (H 999800000 Held.zero).2.Met
      (up.modFantail fun f => { f with waiting := some (999800000, Held.zero), silent := 3 }) := by
  delta Acts.Met ActsSo.Met Serves.Met Defers.Met ant ant2 ant3 ant4 ant5 ant6; clear H; decide +kernel

theorem met_fantailHoldoverTimeout (H : Claims.fantailHoldoverTimeout) :
    H.Met (up.modFantail fun f => { f with mode := .slew, state := .locked, validAt := 992000000 }) := by
  delta Acts.Met ActsSo.Met Serves.Met Defers.Met ant ant2 ant3 ant4 ant5 ant6; clear H; decide +kernel

theorem met_ptmEnableChange (H : Claims.ptmEnableChange) :
    H.1.Met up ∧ H.2.Met (up.modFantail fun f => { f with mode := .slew, state := .locked }) := by
  delta Acts.Met ActsSo.Met Serves.Met Defers.Met ant ant2 ant3 ant4 ant5 ant6; clear H; decide +kernel

theorem met_tdcCalibration (H : Claims.tdcCalibration) : H.1.Met up ∧ H.2.Met up := by
  delta Acts.Met ActsSo.Met Serves.Met Defers.Met ant ant2 ant3 ant4 ant5 ant6; clear H; decide +kernel

theorem met_clockLoss (H : Claims.clockLoss) : (H .crystal).Met up ∧ (H .ddrPll).Met up := by
  delta Acts.Met ActsSo.Met Serves.Met Defers.Met ant ant2 ant3 ant4 ant5 ant6; clear H; decide +kernel

theorem met_refclkLoss (H : Claims.refclkLoss) : H.Met up := by
  delta Acts.Met ActsSo.Met Serves.Met Defers.Met ant ant2 ant3 ant4 ant5 ant6; clear H; decide +kernel

theorem met_refclkRestored (H : Claims.refclkRestored) : H.Met up := by
  delta Acts.Met ActsSo.Met Serves.Met Defers.Met ant ant2 ant3 ant4 ant5 ant6; clear H; decide +kernel

theorem met_timeStatus (H : Claims.timeStatus) : H.Met up (ask 0xA01 []) := by
  delta Acts.Met ActsSo.Met Serves.Met Defers.Met ant ant2 ant3 ant4 ant5 ant6; clear H; decide +kernel

theorem met_timeStep (H : Claims.timeStep) :
    ant2 (H (-256)) ∧
    (H (-256) (by decide) (by decide)).1.Met { up with clk := { up.clk with dev := 0x10000000000000000 } }
      (ask 0xA02 (record [(8, sval 8 (-1)), (1, 0), (1, 0), (6, 0)])) ∧
    ant (((H (-256) (by decide) (by decide)).2 (up.modStream 31 fun x => { x with mode := .opened })).2.2 31) := by
  delta Acts.Met ActsSo.Met Serves.Met Defers.Met ant ant2 ant3 ant4 ant5 ant6; clear H; decide +kernel

theorem met_fantailConfig (H : Claims.fantailConfig) :
    ant (H .slew 1000 1024 200 10 1000) ∧
    (H .slew 1000 1024 200 10 1000 (by decide)).1.Met (up.modFantail fun f => { f with mode := .rate })
      (ask 0xA03 (record [(1, 2), (1, 0), (2, 1000), (2, 1024), (2, 200), (4, 10), (4, 1000), (4, 0)])) ∧
    (H .slew 1000 1024 200 10 1000 (by decide)).2.1.Met up
      (ask 0xA03 (record [(1, 0), (1, 0), (2, 1000), (2, 1024), (2, 200), (4, 10), (4, 1000), (4, 0)])) := by
  delta Acts.Met ActsSo.Met Serves.Met Defers.Met ant ant2 ant3 ant4 ant5 ant6; clear H; decide +kernel

theorem met_timeCorrelate (H : Claims.timeCorrelate) :
    (H ⟨256, 0⟩).Met (up.modFantail fun f => { f with lastDevice := some ⟨256, 0⟩, correlated := true })
      (ask 0xA04 []) := by
  delta Acts.Met ActsSo.Met Serves.Met Defers.Met ant ant2 ant3 ant4 ant5 ant6; clear H; decide +kernel

theorem met_carWakeRise (H : Claims.carWakeRise) : H.Met up := by
  delta Acts.Met ActsSo.Met Serves.Met Defers.Met ant ant2 ant3 ant4 ant5 ant6; clear H; decide +kernel

theorem met_carWakeDebounceExpiry (H : Claims.carWakeDebounceExpiry) :
    (H 999800000).1.Met (up.modPower fun p => { p with
      state := .parked, carWake := true, debounceFrom := some 999800000 }) ∧
    (H 999800000).2.Met ((starting 5 0xFF).modPower fun p => { p with
      carWake := true, debounceFrom := some 999800000 }) := by
  delta Acts.Met ActsSo.Met Serves.Met Defers.Met ant ant2 ant3 ant4 ant5 ant6; clear H; decide +kernel

theorem met_carWakeFall (H : Claims.carWakeFall) :
    H.1.Met (up.modPower fun p => { p with carWake := true }) ∧
    (H.2 999900000).1.Met (up.modPower fun p => { p with carWake := true, debounceFrom := some 999900000 }) ∧
    (H.2 999900000).2.Met (up.modPower fun p => { p with
      carWake := true, debounceFrom := some 999900000, suppliesGood := false }) := by
  delta Acts.Met ActsSo.Met Serves.Met Defers.Met ant ant2 ant3 ant4 ant5 ant6; clear H; decide +kernel

theorem met_xtr0WakeEdge (H : Claims.xtr0WakeEdge) :
    H.Met (up.modPower fun p => { p with state := .parked, wakeOnXtr0 := true }) := by
  delta Acts.Met ActsSo.Met Serves.Met Defers.Met ant ant2 ant3 ant4 ant5 ant6; clear H; decide +kernel

theorem met_aonPowerApply (H : Claims.aonPowerApply) : (H true).Met State.reset := by
  delta Acts.Met ActsSo.Met Serves.Met Defers.Met ant ant2 ant3 ant4 ant5 ant6; clear H; decide +kernel

theorem met_aonPowerLoss (H : Claims.aonPowerLoss) : H.Met up := by
  delta Acts.Met ActsSo.Met Serves.Met Defers.Met ant ant2 ant3 ant4 ant5 ant6; clear H; decide +kernel

theorem met_parkHoldExpiry (H : Claims.parkHoldExpiry) :
    (H 800000000).Met ((up.modPower fun p => { p with parkFrom := some 800000000 }).modStart fun a => { a with
      outing := { a.outing with parkHoldS := 1 } }) := by
  delta Acts.Met ActsSo.Met Serves.Met Defers.Met ant ant2 ant3 ant4 ant5 ant6; clear H; decide +kernel

theorem met_mainSuppliesOff (H : Claims.mainSuppliesOff) :
    H.1.Met (up.modPower fun p => { p with state := .shutdown, pwrEn := false }) ∧
    (H.2 7).Met (up.modPower fun p => { p with state := .shutdown, pwrEn := false, heldWake := some (.carWake, 7) }) := by
  delta Acts.Met ActsSo.Met Serves.Met Defers.Met ant ant2 ant3 ant4 ant5 ant6; clear H; decide +kernel

/-- A wake 5 ms ago whose supplies are not good yet. -/
def waking : State :=
  { up with pwr := { up.pwr with state := .starting, suppliesGood := false }, clk := { up.clk with wakeAt := 999000000 } }

theorem met_suppliesGood (H : Claims.suppliesGood) : H.1.Met waking ∧ H.2.Met waking := by
  delta Acts.Met ActsSo.Met Serves.Met Defers.Met ant ant2 ant3 ant4 ant5 ant6; clear H; decide +kernel

/-- `s` with one slot of the measurement set. -/
def measured (s : State) : State := { s with meas := { s.meas with count := 1 } }

/-- `s` with a step that has ended. -/
def after (step inst : Nat) (s : State) : State := s.modStart fun a => { a with steps := a.steps ++ [⟨step, inst, .done⟩] }

/-- A learned entry, and a bank of the start before with it. -/
def learned8 : Learned := ⟨8, 0, 0, false, false, 6, 0⟩

def bank6 : Bank := ⟨6, 1, 0, 0, 0xFF, 1, 4, 0, [learned8], [], true, true⟩

/-- `s` whose record gives port 7 a script of one entry that is no opcode of R235. -/
def scripted (s : State) : State := withDefaults [0xA1, 2, 0xA1, 7, 0x48, 6, 0, 0, 0, 0, 0, 0, 0] s

theorem met_slotCheck (H : Claims.slotCheck) :
    H.1.Met (((starting 2 0xFF).modMram fun m => { m with slots := m.slots.set 0 ⟨.empty, smallImage⟩ }) |> measured) ∧
    H.2.1.Met (((starting 2 0xFF).modMram fun m => { m with slots := m.slots.set 0 ⟨.empty, smallImage⟩ }).modStart
      fun a => { a with steps := a.steps ++ [⟨3, 0xFF, .running 1 1000000000⟩] }) ∧
    H.2.2.Met (measured (starting 2 0xFF)) := by
  delta Acts.Met ActsSo.Met Serves.Met Defers.Met ant ant2 ant3 ant4 ant5 ant6; clear H; decide +kernel

theorem met_valtynRun (H : Claims.valtynRun) :
    (H ⟨true⟩ 0).1.Met (after 2 0xFF (starting 3 0xFF)) ∧ (H ⟨false⟩ 0).2.Met (after 2 0xFF (starting 3 0xFF)) := by
  delta Acts.Met ActsSo.Met Serves.Met Defers.Met ant ant2 ant3 ant4 ant5 ant6; clear H; decide +kernel

theorem met_journalFold (H : Claims.journalFold) :
    (H bank6 [learned8] true []).1.Met ((starting 4 0xFF).modMram fun m => { m with banks := m.banks.set 6 (some bank6) }) := by
  delta Acts.Met ActsSo.Met Serves.Met Defers.Met ant ant2 ant3 ant4 ant5 ant6; clear H; decide +kernel

theorem met_outingRecord (H : Claims.outingRecord) :
    (H ((decodeOuting smallOuting).getD Outing.builtIn)).1.Met ((starting 5 0xFF).modMram fun m => { m with
      copies := m.copies.set 0 smallOuting }) ∧
    (H Outing.builtIn).2.Met (starting 5 0xFF) := by
  delta Acts.Met ActsSo.Met Serves.Met Defers.Met ant ant2 ant3 ant4 ant5 ant6; clear H; decide +kernel

theorem met_guardianSurfaces (H : Claims.guardianSurfaces) :
    (H ⟨true⟩).1.Met (starting 6 0xFF) ∧ (H ⟨false⟩).2.Met (starting 6 0xFF) := by
  delta Acts.Met ActsSo.Met Serves.Met Defers.Met ant ant2 ant3 ant4 ant5 ant6; clear H; decide +kernel

theorem met_tslReceive (H : Claims.tslReceive) : H.Met (starting 7 0xFF) := by
  delta Acts.Met ActsSo.Met Serves.Met Defers.Met ant ant2 ant3 ant4 ant5 ant6; clear H; decide +kernel

theorem met_panelLinkTrained (H : Claims.panelLinkTrained) :
    (H 1 ⟨0x1E, 4, 3, 2⟩).1.Met (starting 9 1) ∧ (H 0 ⟨0x1E, 4, 3, 2⟩).2.Met (starting 8 0) := by
  delta Acts.Met ActsSo.Met Serves.Met Defers.Met ant ant2 ant3 ant4 ant5 ant6; clear H; decide +kernel

theorem met_earlyPicture (H : Claims.earlyPicture) :
    (H 1 ⟨true⟩).1.Met (starting 10 1) ∧ (H 0 ⟨false⟩).2.Met (starting 10 0) := by
  delta Acts.Met ActsSo.Met Serves.Met Defers.Met ant ant2 ant3 ant4 ant5 ant6; clear H; decide +kernel

theorem met_rearCameraLink (H : Claims.rearCameraLink) :
    (H 7 ⟨true⟩ 5 0).1.Met (((starting 11 7).modPort 7 fun p => { p with mode := .acquire }).modStart fun a => { a with
      outing := { a.outing with rearPort := some 7 } }) ∧
    (H 7 ⟨false⟩ 5 0).2.Met ((starting 11 7).modStart fun a => { a with
      outing := { a.outing with rearPort := some 7 } }) := by
  delta Acts.Met ActsSo.Met Serves.Met Defers.Met ant ant2 ant3 ant4 ant5 ant6; clear H; decide +kernel

theorem met_rearSensor (H : Claims.rearSensor) :
    ant (H 7 [] true 1) ∧ ((H 7 [] true 1 (.inr rfl)).1.Met ((starting 12 7).modStart fun a => { a with
      outing := { a.outing with rearPort := some 7 }, steps := [⟨12, 7, .running 1 up.elapsed⟩] })) ∧
    (H 7 [] false 0 (.inl rfl)).2.1.Met ((starting 12 7).modStart fun a => { a with
      outing := { a.outing with rearPort := some 7 } }) ∧
    (H 7 [] false 0 (.inl rfl)).2.2.Met (scripted ((starting 12 7).modStart fun a => { a with
      outing := { a.outing with rearPort := some 7 } })) := by
  delta Acts.Met ActsSo.Met Serves.Met Defers.Met ant ant2 ant3 ant4 ant5 ant6; clear H; decide +kernel

theorem met_rearInsertion (H : Claims.rearInsertion) : (H ⟨true⟩).Met (starting 13 1) := by
  delta Acts.Met ActsSo.Met Serves.Met Defers.Met ant ant2 ant3 ant4 ant5 ant6; clear H; decide +kernel

theorem met_lpddr5xTraining (H : Claims.lpddr5xTraining) :
    (H ⟨true⟩ 8533 16).1.Met (starting 14 0xFF) ∧ (H ⟨false⟩ 8533 2).2.Met (starting 14 0xFF) := by
  delta Acts.Met ActsSo.Met Serves.Met Defers.Met ant ant2 ant3 ant4 ant5 ant6; clear H; decide +kernel

theorem met_cameraPortStart (H : Claims.cameraPortStart) :
    (H 7 ⟨true⟩ 5 0 [] true).1.Met ((starting 15 7).modPort 7 fun p => { p with mode := .acquire }) ∧
    (H 7 ⟨false⟩ 5 0 [] false).2.Met (starting 15 7) := by
  delta Acts.Met ActsSo.Met Serves.Met Defers.Met ant ant2 ant3 ant4 ant5 ant6; clear H; decide +kernel

theorem met_positionChannels (H : Claims.positionChannels) :
    H.1.Met (starting 16 0xFF) ∧
    H.2.Met (withDefaults [0xA1, 3, 0xA1, 1, 0x81, 0x41, 0xFF] (starting 16 0xFF)) := by
  delta Acts.Met ActsSo.Met Serves.Met Defers.Met ant ant2 ant3 ant4 ant5 ant6; clear H; decide +kernel

theorem met_audioInputs (H : Claims.audioInputs) :
    H.1.Met (starting 17 0xFF) ∧ H.2.Met (withDefaults [0xA1, 6, 0x81, 0x41, 0xFF] (starting 17 0xFF)) := by
  delta Acts.Met ActsSo.Met Serves.Met Defers.Met ant ant2 ant3 ant4 ant5 ant6; clear H; decide +kernel

theorem met_witnessArmStep (H : Claims.witnessArmStep) :
    H.1.Met (starting 18 0xFF) ∧
    H.2.Met (withDefaults ([0xA1, 4, 0xA1, 1, 0x55] ++ List.replicate 20 0 ++ [1]) (starting 18 0xFF)) := by
  delta Acts.Met ActsSo.Met Serves.Met Defers.Met ant ant2 ant3 ant4 ant5 ant6; clear H; decide +kernel

theorem met_startDone (H : Claims.startDone) : H.1.Met (starting 19 0xFF) ∧ ant (H.2 (starting 19 0xFF)) := by
  delta Acts.Met ActsSo.Met Serves.Met Defers.Met ant ant2 ant3 ant4 ant5 ant6; clear H; decide +kernel

theorem met_startStepTimeout (H : Claims.startStepTimeout) :
    ant (H 8 0 970000000).1 ∧
    ((H 8 0 970000000).1 (by decide)).Met ((starting 8 0).modStart fun a => { a with
      steps := [⟨8, 0, .running 0 970000000⟩] }) ∧
    (H 1 0xFF 0).2.Met (up.modPower fun p => { p with state := .starting, suppliesGood := false }) := by
  delta Acts.Met ActsSo.Met Serves.Met Defers.Met ant ant2 ant3 ant4 ant5 ant6; clear H; decide +kernel

theorem met_lateRetry (H : Claims.lateRetry) :
    ant2 (H 8 0 0 ⟨true⟩ [] true) ∧
    (H 8 0 0 ⟨true⟩ [] true (by decide) rfl).Met ((starting 8 0).modStart fun a => { a with
      steps := [⟨8, 0, .running 2 1000000000⟩] }) := by
  delta Acts.Met ActsSo.Met Serves.Met Defers.Met ant ant2 ant3 ant4 ant5 ant6; clear H; decide +kernel

theorem met_avsStep (H : Claims.avsStep) :
    H.1.Met (up.modPower fun p => { p with avsFused := 3 }) ∧ H.2.Met (up.modPower fun p => { p with avsCode := 3 }) := by
  delta Acts.Met ActsSo.Met Serves.Met Defers.Met ant ant2 ant3 ant4 ant5 ant6; clear H; decide +kernel

/-- `up` with one ACCEPTED hamper in progress. -/
def accepted (op index : Nat) (payload : List Byte) : State := { up with accepted := [⟨op, 0, 7, index, payload⟩] }

/-- The payload of a PROVISION with flags `f` and the certificate chain in four bytes of host memory. -/
def certified (f : Nat) : List Byte := record [(2, 1), (2, 2), (1, f), (3, 0)] ++ hostBuf 0x1000 4

/-- The payload of a hamper that reads `n` bytes of host memory. -/
def reading (a b n : Nat) : List Byte := record [(1, a), (1, b), (6, 0)] ++ hostBuf 0x1000 n

theorem met_provision (H : Claims.provision) :
    H.1.Met up (ask 9 (record [(2, 1), (2, 2), (1, 3), (3, 0), (16, 0)])) ∧
    H.2.Met (up.modMram fun m => { m with identity := { m.identity with lock := true } })
      (ask 9 (record [(2, 1), (2, 2), (1, 3), (3, 0), (16, 0)])) := by
  delta Acts.Met ActsSo.Met Serves.Met Defers.Met ant ant2 ant3 ant4 ant5 ant6; clear H; decide +kernel

theorem met_provisionDone (H : Claims.provisionDone) :
    (H .failed ⟨9, 0, 7, 0, certified 3⟩ []).1.Met (accepted 9 0 (certified 3)) ∧
    (H (.data [1, 2, 3, 4]) ⟨9, 0, 7, 0, certified 5⟩ [1, 2, 3, 4]).2.1.Met (accepted 9 0 (certified 5)) ∧
    (H .failed ⟨9, 0, 7, 0, certified 4⟩ []).2.2.Met (accepted 9 0 (certified 4)) := by
  delta Acts.Met ActsSo.Met Serves.Met Defers.Met ant ant2 ant3 ant4 ant5 ant6; clear H; decide +kernel

theorem met_measReport (H : Claims.measReport) :
    H.Met up (ask 0xB01 (record [(32, 5), (1, 1), (3, 0)] ++ hostBuf 0x1000 17328)) := by
  delta Acts.Met ActsSo.Met Serves.Met Defers.Met ant ant2 ant3 ant4 ant5 ant6; clear H; decide +kernel

theorem met_measReportDone (H : Claims.measReportDone) :
    (H ⟨0xB01, 0, 7, 0, record [(32, 5), (1, 0), (3, 0)] ++ hostBuf 0x1000 944⟩).1.Met
      (accepted 0xB01 0 (record [(32, 5), (1, 0), (3, 0)] ++ hostBuf 0x1000 944)) ∧
    (H ⟨0xB01, 0, 7, 0, record [(32, 5), (1, 0), (3, 0)] ++ hostBuf 0x1000 944⟩).2.Met
      (accepted 0xB01 0 (record [(32, 5), (1, 0), (3, 0)] ++ hostBuf 0x1000 944)) := by
  delta Acts.Met ActsSo.Met Serves.Met Defers.Met ant ant2 ant3 ant4 ant5 ant6; clear H; decide +kernel

/-- Host memory gives what a buffer of its length asks for. -/
theorem read_host (s : State) (fn : Fn) (b : Buffer) (d : List Byte) (hm : b.millpond = false)
    (hb : (s.fns[fn]).busMaster = true) (hl : d.length ≤ b.length) : bufferRead s fn b (.data d) = .data d := by
  simp only [bufferRead, hm, hb, List.take_of_length_le hl]; rfl

theorem met_fwStage (H : Claims.fwStage) :
    (H 1 (.data smallImage) smallImage).1.Met up (ask 0xB02 (reading 1 0 0x100)) ∧
    (H 0 .failed []).2.Met up (ask 0xB02 (reading 0 0 0x100)) := by
  delta Acts.Met ActsSo.Met Serves.Met Defers.Met ant ant2 ant3 ant4 ant5 ant6; clear H
  refine ⟨⟨?_, ?_, ?_, ?_, ?_, ?_, ?_, ?_, read_host _ _ _ _ ?_ ?_ ?_, ?_, ?_, ?_⟩, ?_⟩ <;> decide +kernel

theorem met_fwStageDone (H : Claims.fwStageDone) :
    (H ⟨0xB02, 0, 7, 1, reading 1 0 0x100⟩ 1 (.data smallImage) smallImage).1.Met
      (accepted 0xB02 1 (reading 1 0 0x100)) ∧
    (H ⟨0xB02, 0, 7, 1, reading 1 0 0x100⟩ 1 (.data []) []).2.Met (accepted 0xB02 1 (reading 1 0 0x100)) := by
  delta Acts.Met ActsSo.Met Serves.Met Defers.Met ant ant2 ant3 ant4 ant5 ant6; clear H
  refine ⟨⟨⟨?_, ?_, read_host _ _ _ _ ?_ ?_ ?_⟩, ?_⟩, ?_⟩ <;> decide +kernel

/-- `s` with an intact image in slot 1. -/
def slot1Valid (s : State) : State := s.modMram fun m => { m with slots := m.slots.set 1 ⟨.valid, smallImage⟩ }

theorem met_fwActivate (H : Claims.fwActivate) :
    (H 1).1.Met (slot1Valid up) (ask 0xB03 (record [(1, 1), (1, 0), (2, 0)])) ∧
    (H 1).2.Met ((slot1Valid up).modStart fun a => { a with major := fld smallImage 6 1 })
      (ask 0xB03 (record [(1, 1), (1, 1), (2, 0)])) := by
  delta Acts.Met ActsSo.Met Serves.Met Defers.Met ant ant2 ant3 ant4 ant5 ant6; clear H; decide +kernel

theorem met_outingWrite (H : Claims.outingWrite) :
    (H 1).1.Met up (ask 0xB04 (reading 1 1 0x100000)) ∧ (H 0).2.Met up (ask 0xB04 (reading 0 1 0x100000)) := by
  delta Acts.Met ActsSo.Met Serves.Met Defers.Met ant ant2 ant3 ant4 ant5 ant6; clear H; decide +kernel

/-- `accepted`, once ST05 is done. -/
def recordRead05 (op index : Nat) (payload : List Byte) : State :=
  (accepted op index payload).modStart fun a => { a with steps := [⟨5, noInst, .done⟩] }

theorem met_outingWriteDone (H : Claims.outingWriteDone) :
    (H ⟨0xB04, 0, 7, 1, reading 1 1 0x1000⟩ 1 (.data smallOuting) smallOuting 0).1.Met
      (recordRead05 0xB04 1 (reading 1 1 0x1000)) ∧
    (H ⟨0xB04, 0, 7, 1, reading 1 1 0x1000⟩ 1 (.data []) [] 0).2.Met
      (recordRead05 0xB04 1 (reading 1 1 0x1000)) := by
  delta Acts.Met ActsSo.Met Serves.Met Defers.Met ant ant2 ant3 ant4 ant5 ant6; clear H; decide +kernel

theorem met_journalRead (H : Claims.journalRead) :
    (H ⟨0xFFFFFFF8, 1, 0, 0, 0, 1, 4, 0, [], [], true, true⟩).Met
      (up.modMram fun m => { m with
        banks := m.banks.set (bankOf 0xFFFFFFF8) (some ⟨0xFFFFFFF8, 1, 0, 0, 0, 1, 4, 0, [], [], true, true⟩) })
      (ask 0xB05 (record [(1, 15), (7, 0)] ++ hostBuf 0x1000 16384)) := by
  delta Acts.Met ActsSo.Met Serves.Met Defers.Met ant ant2 ant3 ant4 ant5 ant6; clear H; decide +kernel

theorem met_journalClear (H : Claims.journalClear) :
    H.1.Met up (ask 0xB06 []) ∧ ant (H.2 [] ⟨0x12, 0, 0xFF, 0, 7, 0, 0, 0, 0, true⟩) := by
  delta Acts.Met ActsSo.Met Serves.Met Defers.Met ant ant2 ant3 ant4 ant5 ant6; clear H; decide +kernel

theorem met_slotSelect (H : Claims.slotSelect) :
    (H 1 1).1.Met ((slot1Valid up).modMram fun m => { m with copies := m.copies.set 1 smallOuting })
      (ask 0xB07 (record [(1, 1), (1, 1), (2, 0)])) ∧
    (H 1 0).2.1.Met (slot1Valid up) (ask 0xB07 (record [(1, 1), (1, 0xFF), (2, 0)])) ∧
    (H 0 1).2.2.1.Met (up.modMram fun m => { m with copies := m.copies.set 1 smallOuting })
      (ask 0xB07 (record [(1, 0xFF), (1, 1), (2, 0)])) ∧
    (H 0 0).2.2.2.Met up (ask 0xB07 (record [(1, 0), (1, 0xFF), (2, 0)])) := by
  delta Acts.Met ActsSo.Met Serves.Met Defers.Met ant ant2 ant3 ant4 ant5 ant6; clear H; decide +kernel

theorem met_liveQuietPoint (H : Claims.liveQuietPoint) :
    (H 1 0).Met ((slot1Valid up).modStart fun a => { a with live := .armed 1 0 }) := by
  delta Acts.Met ActsSo.Met Serves.Met Defers.Met ant ant2 ant3 ant4 ant5 ant6; clear H; decide +kernel

theorem met_liveArmTimeout (H : Claims.liveArmTimeout) :
    (H 1 600000000).Met ((slot1Valid up).modStart fun a => { a with live := .armed 1 600000000 }) := by
  delta Acts.Met ActsSo.Met Serves.Met Defers.Met ant ant2 ant3 ant4 ant5 ant6; clear H; decide +kernel

theorem met_liveSwitchOpen (H : Claims.liveSwitchOpen) :
    (H 1 999000000 (imageVersion smallImage)).Met
      ((slot1Valid up).modStart fun a => { a with live := .switching 1 999000000, doorClosed := true }) := by
  delta Acts.Met ActsSo.Met Serves.Met Defers.Met ant ant2 ant3 ant4 ant5 ant6; clear H; decide +kernel

theorem met_liveSwitchRevert (H : Claims.liveSwitchRevert) :
    (H 1 996000000).Met
      ((slot1Valid up).modStart fun a => { a with live := .switching 1 996000000, doorClosed := true }) := by
  delta Acts.Met ActsSo.Met Serves.Met Defers.Met ant ant2 ant3 ant4 ant5 ant6; clear H; decide +kernel

theorem met_debugPortOpen (H : Claims.debugPortOpen) : H.1.Met up ∧ H.2.Met up := by
  delta Acts.Met ActsSo.Met Serves.Met Defers.Met ant ant2 ant3 ant4 ant5 ant6; clear H; decide +kernel

theorem met_debugPortClose (H : Claims.debugPortClose) :
    H.1.Met { up with meas := { up.meas with debugOpen := true } } ∧
    (H.2 900000000).Met ({ up with meas := { up.meas with debugOpen := true } }.modPower fun p => { p with
      wdtHalt := some 900000000 }) := by
  delta Acts.Met ActsSo.Met Serves.Met Defers.Met ant ant2 ant3 ant4 ant5 ant6; clear H; decide +kernel

theorem met_spdmRequest (H : Claims.spdmRequest) :
    (H [0x10, 0x84, 0, 0] .version .version).1.Met up ∧ (H [0x13, 0xE1, 0, 0] .version .none).2.Met up := by
  delta Acts.Met ActsSo.Met Serves.Met Defers.Met ant ant2 ant3 ant4 ant5 ant6; clear H; decide +kernel

theorem met_compactReportReady (H : Claims.compactReportReady) :
    (H [1, 2]).Met { up with meas := { up.meas with compact := .pending [1, 2] } } := by
  delta Acts.Met ActsSo.Met Serves.Met Defers.Met ant ant2 ant3 ant4 ant5 ant6; clear H; decide +kernel

/-- `up` with a display path changed. -/
def pathed (p : Fin 2) (f : GPath → GPath) : State := up.modPath p f

/-- A STATE frame of the TSL with its CRC, or one off it. -/
def tslBytes (wrong : Nat) : List Byte :=
  let b := record [(1, 0xA5), (1, 1), (1, 3), (1, 1), (16, 0x1234), (16, 0), (3, 0)]
  b ++ leBytes 1 (crc8 b ^^^ wrong)

/-- A layout with a camera window, and a region of one pixel with its look and latch. -/
def smallLayout : Layout := ⟨25000, [640, 800, 480, 525, 16, 96, 10, 2], 8, 0, 0, 0, 4, 4, false, 0, []⟩
def dotRegion : Region := ⟨31, 63, 0, 0, 1, 1, 0, 1, 0, 0⟩
def dotLook : Look := ⟨1, 1, [0x40000005]⟩
def dotLatch : Latch := ⟨BitVec.ofNat 128 (2 ^ 126), true, 0, false, false, 0, 0⟩
def dotFrame : GFrame := ⟨false, .checked, dotLatch, [dotRegion], 9, .none, none, [], 0, 0, true, 480, false⟩

/-- The attributes of a stream of `w` by `h`, and of the layout's timing. -/
def msaOf (w h : Nat) : Msa := ⟨25000000, w, 800, h, 525, 16, 96, 10, 2, 8, true, 0⟩
def smallMsa : Msa := msaOf 640 480
def deepMsa : Msa := { smallMsa with bpc := 10 }

theorem met_tslFrame (H : Claims.tslFrame) :
    ant2 (H (tslBytes 1)) ∧ ant ((H (tslBytes 1) (by decide +kernel) (by decide +kernel)).1) ∧
    ((H (tslBytes 1) (by decide +kernel) (by decide +kernel)).1 (by decide +kernel)).Met
      (up.modTsl fun t => { t with on := true }) ∧
    ant5 ((H (tslBytes 0) (by decide +kernel) (by decide +kernel)).2) ∧
    ((H (tslBytes 0) (by decide +kernel) (by decide +kernel)).2 (by decide +kernel) (by decide +kernel)
      (by decide +kernel) (by decide +kernel) (by decide +kernel)).1.Met (up.modTsl fun t => { t with on := true }) ∧
    ((H (tslBytes 0) (by decide +kernel) (by decide +kernel)).2 (by decide +kernel) (by decide +kernel)
      (by decide +kernel) (by decide +kernel) (by decide +kernel)).2.Met
      (up.modTsl fun t => { t with on := true, alive := some 3 }) := by
  delta Acts.Met ActsSo.Met Serves.Met Defers.Met ant ant2 ant3 ant4 ant5 ant6; clear H; decide +kernel

theorem met_tslStaleTimeout (H : Claims.tslStaleTimeout) :
    H.Met (up.modTsl fun t => { t with on := true, mode := .live, lastAt := 990000000 }) := by
  delta Acts.Met ActsSo.Met Serves.Met Defers.Met ant ant2 ant3 ant4 ant5 ant6; clear H; decide +kernel

theorem met_tslLossTimeout (H : Claims.tslLossTimeout) :
    H.1.Met (up.modTsl fun t => { t with on := true, mode := .stale, lastAt := 900000000 }) ∧
    ant (H.2 (up.modTsl fun t => { t with mode := .lost }).guard) := by
  delta Acts.Met ActsSo.Met Serves.Met Defers.Met ant ant2 ant3 ant4 ant5 ant6; clear H; decide +kernel

theorem met_inputFrameStart (H : Claims.inputFrameStart) :
    ant ((H 1 (msaOf 3840 1440)).1) ∧
    ((H 1 smallMsa).1 (by decide)).Met (pathed 1 fun x => { x with mode := .early, showing := true }) ∧
    ant ((H 1 (msaOf 3841 1440)).2) ∧
    ((H 1 (msaOf 3841 1440)).2 (by decide)).Met (pathed 1 fun x => { x with mode := .checked }) := by
  delta Acts.Met ActsSo.Met Serves.Met Defers.Met ant ant2 ant3 ant4 ant5 ant6; clear H; decide +kernel

theorem met_inputRegionResult (H : Claims.inputRegionResult) :
    (H 1 31 [6] dotFrame dotRegion deepMsa).1.Met (pathed 1 fun x => { x with
      mode := .checked, input := some dotFrame, stream := some deepMsa, refs := x.refs.set 0 (some dotLook) }) ∧
    (H 1 31 [5] dotFrame dotRegion deepMsa).2.Met (pathed 1 fun x => { x with
      mode := .checked, input := some dotFrame, stream := some deepMsa, refs := x.refs.set 0 (some dotLook) }) := by
  delta Acts.Met ActsSo.Met Serves.Met Defers.Met ant ant2 ant3 ant4 ant5 ant6; clear H; decide +kernel

theorem met_inputFrameEnd (H : Claims.inputFrameEnd) :
    (H 1 { dotFrame with judgedIn := 0x80000000 }).1.Met (pathed 1 fun x => { x with
      mode := .trial, good := 2, input := some { dotFrame with judgedIn := 0x80000000 }, layout := some smallLayout,
      stream := some smallMsa }) ∧
    (H 1 dotFrame).2.Met (pathed 1 fun x => { x with mode := .trial, good := 2, input := some dotFrame }) := by
  delta Acts.Met ActsSo.Met Serves.Met Defers.Met ant ant2 ant3 ant4 ant5 ant6; clear H; decide +kernel

theorem met_outputFrameStart (H : Claims.outputFrameStart) :
    (H 1 dotFrame).1.Met (pathed 1 fun x => { x with
      mode := .early, trained := true, showing := true, layout := some smallLayout }) ∧
    (H 1 dotFrame).2.Met (pathed 1 fun x => { x with mode := .checked, input := some dotFrame }) := by
  delta Acts.Met ActsSo.Met Serves.Met Defers.Met ant ant2 ant3 ant4 ant5 ant6; clear H; decide +kernel

theorem met_outputFrameEnd (H : Claims.outputFrameEnd) :
    (H 1 [(31, [5])] ⟨2, some 7⟩ dotFrame []).Met (pathed 1 fun x => { x with mode := .checked, outs := [dotFrame] }) := by
  delta Acts.Met ActsSo.Met Serves.Met Defers.Met ant ant2 ant3 ant4 ant5 ant6; clear H; decide +kernel

theorem met_digestSigned (H : Claims.digestSigned) :
    (H 1 ⟨0, 1, 2, []⟩ []).Met (pathed 1 fun x => { x with owedDigests := [⟨0, 1, 2, []⟩] }) := by
  delta Acts.Met ActsSo.Met Serves.Met Defers.Met ant ant2 ant3 ant4 ant5 ant6; clear H; decide +kernel

theorem met_inputLoss (H : Claims.inputLoss) : (H 1 .lock).Met (pathed 1 fun x => { x with mode := .repair }) := by
  delta Acts.Met ActsSo.Met Serves.Met Defers.Met ant ant2 ant3 ant4 ant5 ant6; clear H; decide +kernel

theorem met_inputVerticalTimeout (H : Claims.inputVerticalTimeout) :
    (H 1 smallMsa).Met (pathed 1 fun x => { x with mode := .checked, stream := some smallMsa }) := by
  delta Acts.Met ActsSo.Met Serves.Met Defers.Met ant ant2 ant3 ant4 ant5 ant6; clear H; decide +kernel

theorem met_psrEntry (H : Claims.psrEntry) :
    (H 1).Met (pathed 1 fun x => { x with mode := .checked, stream := some smallMsa, trained := true }) := by
  delta Acts.Met ActsSo.Met Serves.Met Defers.Met ant ant2 ant3 ant4 ant5 ant6; clear H; decide +kernel

theorem met_psrExit (H : Claims.psrExit) :
    (H 1).1.Met (pathed 1 fun x => { x with psr := true, mode := .checked }) ∧ (H 1).2.Met up := by
  delta Acts.Met ActsSo.Met Serves.Met Defers.Met ant ant2 ant3 ant4 ant5 ant6; clear H; decide +kernel

theorem met_psrRepeatPeriod (H : Claims.psrRepeatPeriod) :
    (H 1).1.Met (pathed 1 fun x => { x with psr := true, mode := .unchecked }) ∧
    (H 1).2.Met (pathed 1 fun x => { x with psr := true, mode := .checked, set := ⟨9, [dotRegion]⟩ }) := by
  delta Acts.Met ActsSo.Met Serves.Met Defers.Met ant ant2 ant3 ant4 ant5 ant6; clear H; decide +kernel

theorem met_panelHpdEvent (H : Claims.panelHpdEvent) :
    (H 1 .hpdLow).Met (pathed 1 fun x => { x with mode := .checked, trained := true }) := by
  delta Acts.Met ActsSo.Met Serves.Met Defers.Met ant ant2 ant3 ant4 ant5 ant6; clear H; decide +kernel

theorem met_panelRetrainDone (H : Claims.panelRetrainDone) :
    (H 1 ⟨0x1E, 4, 3, 2⟩).1.Met (pathed 1 fun x => { x with mode := .checked, retraining := true }) ∧
    (H 1 ⟨0x1E, 4, 3, 2⟩).2.Met (pathed 1 fun x => { x with mode := .checked, retraining := true }) := by
  delta Acts.Met ActsSo.Met Serves.Met Defers.Met ant ant2 ant3 ant4 ant5 ant6; clear H; decide +kernel

theorem met_sinkAuxRequest (H : Claims.sinkAuxRequest) :
    ant (H 1 ⟨true, false, false, 0, [], []⟩).1 ∧
    ((H 1 ⟨true, false, false, 0, [], []⟩).1 rfl).Met (pathed 1 fun x => { x with mode := .checked }) ∧
    ant2 (H 1 ⟨false, false, true, 0x170, [0x40], []⟩).2.1 ∧
    ((H 1 ⟨false, false, true, 0x170, [0x40], []⟩).2.1 rfl (by decide)).Met
      (pathed 1 fun x => { x with mode := .checked }) ∧
    ant6 (H 1 ⟨false, false, true, 0x1FF, [7], []⟩).2.2.1 ∧
    ((H 1 ⟨false, false, true, 0x1FF, [7], []⟩).2.2.1 rfl (by decide) rfl rfl (by decide) (by decide)).Met
      (pathed 1 fun x => { x with mode := .checked }) ∧
    ant5 (H 1 ⟨false, false, false, 1, [0], []⟩).2.2.2.1 ∧
    ((H 1 ⟨false, false, false, 1, [0], []⟩).2.2.2.1 rfl rfl rfl rfl rfl).Met
      (pathed 1 fun x => { x with mode := .checked }) ∧
    ant3 (H 1 ⟨false, false, false, 0x300, [0], [9]⟩).2.2.2.2.1 ∧
    ((H 1 ⟨false, false, false, 0x300, [0], [9]⟩).2.2.2.2.1 rfl (by decide) (by decide)).Met
      (pathed 1 fun x => { x with mode := .checked }) ∧
    ant4 (H 1 ⟨false, false, false, 0x300, [0], [9]⟩).2.2.2.2.2 ∧
    ((H 1 ⟨false, false, false, 0x300, [0], [9]⟩).2.2.2.2.2 rfl (by decide) (by decide) (by decide)).Met
      (pathed 1 fun x => { x with mode := .checked, trained := true }) := by
  delta Acts.Met ActsSo.Met Serves.Met Defers.Met ant ant2 ant3 ant4 ant5 ant6; clear H; decide +kernel

theorem met_auxDeferExpiry (H : Claims.auxDeferExpiry) :
    (H 1 990000000).Met (pathed 1 fun x => { x with deferFrom := some 990000000 }) := by
  delta Acts.Met ActsSo.Met Serves.Met Defers.Met ant ant2 ant3 ant4 ant5 ant6; clear H; decide +kernel

theorem met_panelAuxTimeout (H : Claims.panelAuxTimeout) :
    (H 1 999920000).Met (pathed 1 fun x => { x with auxWait := some 999920000 }) := by
  delta Acts.Met ActsSo.Met Serves.Met Defers.Met ant ant2 ant3 ant4 ant5 ant6; clear H; decide +kernel

theorem met_sinkHpdPulseEnd (H : Claims.sinkHpdPulseEnd) :
    (H 1 999600000).Met (pathed 1 fun x => { x with hpdLow := some 999600000 }) := by
  delta Acts.Met ActsSo.Met Serves.Met Defers.Met ant ant2 ant3 ant4 ant5 ant6; clear H; decide +kernel

theorem met_settleWindowEnd (H : Claims.settleWindowEnd) :
    (H 63 1000000000).Met (up.modGuard fun g => { g with settle := g.settle.set 63 (some 1000000000) }) := by
  delta Acts.Met ActsSo.Met Serves.Met Defers.Met ant ant2 ant3 ant4 ant5 ant6; clear H; decide +kernel

theorem met_chimeWindowEnd (H : Claims.chimeWindowEnd) :
    (H 15 1000000000).1.Met (up.modGuard fun g => { g with windows := g.windows.set 15 (some 1000000000) }) := by
  delta Acts.Met ActsSo.Met Serves.Met Defers.Met ant ant2 ant3 ant4 ant5 ant6; clear H; decide +kernel

/-- The rear camera on port 7, locked, with path 1 in EARLY. -/
def rearUp : State :=
  ((pathed 1 fun x => { x with mode := .early, layout := some smallLayout, latch := some dotLatch }).modPort 7 fun q =>
    { q with mode := .locked }).modStart fun a => { a with outing := { a.outing with rearPort := some 7 } }

theorem met_rearTapFrame (H : Claims.rearTapFrame) :
    ant ((H 0x2A 4 2 [[1, 2, 3, 4], [5, 6, 7, 8]] 7 smallLayout).1 ⟨1, true, 1, 0, 2, 0x2A, 4, 2, 0, false⟩ 1) ∧
    ((H 0x2A 4 2 [[1, 2, 3, 4], [5, 6, 7, 8]] 7 smallLayout).1 ⟨1, true, 1, 0, 2, 0x2A, 4, 2, 0, false⟩ 1
      (by decide)).Met (rearUp.modGuard fun g => { g with rear := some ⟨900000000, 1, 1, 0, false⟩ }) ∧
    ant (H 0x12 4 2 [] 7 smallLayout).2 ∧ ((H 0x12 4 2 [] 7 smallLayout).2 (by decide)).1.Met rearUp ∧
    ((H 0x12 4 2 [] 7 smallLayout).2 (by decide)).2.Met
      (rearUp.modGuard fun g => { g with noTypeAt := some (rearUp.ports[(7 : Fin 8)]).locks }) := by
  delta Acts.Met ActsSo.Met Serves.Met Defers.Met ant ant2 ant3 ant4 ant5 ant6; clear H; decide +kernel

theorem met_rearCameraStale (H : Claims.rearCameraStale) :
    (H ⟨900000000, 1, 1, 0, false⟩ { dotLatch with reverse := true } 7).Met
      ((rearUp.modPath 1 fun x => { x with latch := some { dotLatch with reverse := true } }).modGuard fun g => { g with
        rear := some ⟨900000000, 1, 1, 0, false⟩ }) := by
  delta Acts.Met ActsSo.Met Serves.Met Defers.Met ant ant2 ant3 ant4 ant5 ant6; clear H; decide +kernel

theorem met_guardConfig (H : Claims.guardConfig) :
    (H ⟨200, 2000, 500, 2000, 200, 1000⟩).1.Met up
      (ask 0x401 (record [(2, 200), (2, 2000), (2, 500), (2, 2000), (2, 200), (2, 1000), (4, 0)])) ∧
    ant ((H ⟨200, 2000, 500, 2000, 200, 1000⟩).2
      (up.modGuard fun g => { g with nextCfg := some ⟨200, 2000, 500, 2000, 200, 1000⟩ })) := by
  delta Acts.Met ActsSo.Met Serves.Met Defers.Met ant ant2 ant3 ant4 ant5 ant6; clear H; decide +kernel

theorem met_guardStatus (H : Claims.guardStatus) : H.Met up (ask 0x402 []) := by
  delta Acts.Met ActsSo.Met Serves.Met Defers.Met ant ant2 ant3 ant4 ant5 ant6; clear H; decide +kernel

/-- The bytes of `dotRegion` (R178). -/
def dotBytes : List Byte :=
  record [(1, 31), (1, 63), (1, 0), (1, 0), (2, 0), (2, 0), (2, 1), (2, 1), (2, 0), (2, 1), (2, 0), (2, 0), (4, 0), (8, 0)]

theorem met_guardRegionsSet (H : Claims.guardRegionsSet) :
    (H 1 (.data dotBytes) dotBytes [dotRegion]).Met up
      (ask 0x403 (record [(1, 1), (1, 1), (2, 0)] ++ hostBuf 0x1000 32)) := by
  delta Acts.Met ActsSo.Met Serves.Met Defers.Met ant ant2 ant3 ant4 ant5 ant6; clear H; decide +kernel

/-- The bytes of `dotLook` (R180), and of a request that loads it. -/
def dotLookBytes : List Byte := record [(2, 1), (2, 1), (4, 0), (4, 0x40000005)]
def dotAsked : List Byte := record [(1, 1), (1, 0), (2, 127), (2, 1), (2, 0)] ++ hostBuf 0x1000 12

theorem met_guardRefsLoad (H : Claims.guardRefsLoad) :
    (H 1 (.data dotLookBytes) dotLookBytes [dotLook] 12).1.Met (pathed 1 fun x => { x with layout := some smallLayout })
      (ask 0x404 dotAsked) ∧
    (H 1 .failed [] [] 0).2.Met { up with accepted := [⟨0x404, 0, 7, 1, []⟩] } (ask 0x404 dotAsked) := by
  delta Acts.Met ActsSo.Met Serves.Met Defers.Met ant ant2 ant3 ant4 ant5 ant6; clear H; decide +kernel

theorem met_guardRefsLoadDone (H : Claims.guardRefsLoadDone) :
    (H 1 ⟨0x404, 0, 7, 1, dotAsked⟩).1.Met
      { pathed 1 (fun x => { x with loading := [(127, dotLook)] }) with accepted := [⟨0x404, 0, 7, 1, dotAsked⟩] } ∧
    (H 1 ⟨0x404, 0, 7, 1, []⟩).2.Met { up with accepted := [⟨0x404, 0, 7, 1, []⟩] } := by
  delta Acts.Met ActsSo.Met Serves.Met Defers.Met ant ant2 ant3 ant4 ant5 ant6; clear H; decide +kernel

theorem met_verdictRoute (H : Claims.verdictRoute) :
    (H 1).1.Met up (ask 0x405 (record [(1, 1), (1, 0xFF), (2, 0), (4, 0), (16, 0), (8, 0), (16, 0)])) ∧
    ((H 1).2 31).Met up (ask 0x405 (record [(1, 1), (1, 31), (2, 0), (4, 64)] ++ hostBuf 0x1000 4096 ++
      record [(4, 4), (4, 0)] ++ hostBuf 0x8000 1024)) := by
  delta Acts.Met ActsSo.Met Serves.Met Defers.Met ant ant2 ant3 ant4 ant5 ant6; clear H; decide +kernel

theorem met_digestGet (H : Claims.digestGet) :
    (H 1 (3, [1, 2]) []).1.Met (pathed 1 fun x => { x with digests := [(3, [1, 2])] })
      (ask 0x406 (record [(1, 1), (3, 0), (4, 0xFFFFFFFF)])) ∧
    (H 1 (3, [1, 2]) []).2.Met (pathed 1 fun x => { x with digests := [(3, [1, 2])] })
      (ask 0x406 (record [(1, 1), (3, 0), (4, 3)])) := by
  delta Acts.Met ActsSo.Met Serves.Met Defers.Met ant ant2 ant3 ant4 ant5 ant6; clear H; decide +kernel

theorem met_chainRead (H : Claims.chainRead) :
    (H 1).Met (pathed 1 fun x => { x with nextSeq := 2, verdicts := [[2], [1]] })
      (ask 0x407 (record [(1, 1), (3, 0), (4, 0), (4, 2)] ++ hostBuf 0x1000 128)) := by
  delta Acts.Met ActsSo.Met Serves.Met Defers.Met ant ant2 ant3 ant4 ant5 ant6; clear H; decide +kernel

theorem met_chainReadDone (H : Claims.chainReadDone) :
    (H 1 ⟨0x407, 0, 7, 1, record [(1, 1), (3, 0), (4, 0), (4, 2)] ++ hostBuf 0x1000 128⟩).1.Met
      { pathed 1 (fun x => { x with nextSeq := 2, verdicts := [[2], [1]] }) with
        accepted := [⟨0x407, 0, 7, 1, record [(1, 1), (3, 0), (4, 0), (4, 2)] ++ hostBuf 0x1000 128⟩] } ∧
    (H 1 ⟨0x407, 0, 7, 1, []⟩).2.Met { up with accepted := [⟨0x407, 0, 7, 1, []⟩] } := by
  delta Acts.Met ActsSo.Met Serves.Met Defers.Met ant ant2 ant3 ant4 ant5 ant6; clear H; decide +kernel

/-- The bytes of a template of one hop (R200). -/
def smallTemplate : List Byte :=
  record [(1, 63), (1, 1), (1, 7), (1, 1), (2, 50), (2, 3), (2, 0), (8, 1), (14, 0)] ++ List.replicate 80 0

/-- The template itself. -/
def oneHop : Template := ⟨63, 1, 7, 1, 50, 3, 0, 1, [List.replicate 40 0]⟩

theorem met_chimeTemplatesLoad (H : Claims.chimeTemplatesLoad) :
    (H (.data smallTemplate) smallTemplate [oneHop] 112).Met (pathed 1 fun x => { x with layout := some smallLayout })
      (ask 0x410 (record [(1, 15), (1, 1), (2, 0)] ++ hostBuf 0x1000 112)) := by
  delta Acts.Met ActsSo.Met Serves.Met Defers.Met ant ant2 ant3 ant4 ant5 ant6; clear H; decide +kernel

theorem met_chimeTemplatesLoadDone (H : Claims.chimeTemplatesLoadDone) :
    (H ⟨0x410, 0, 7, 15, record [(1, 15), (1, 1), (2, 0)]⟩).1.Met
      { up.modGuard (fun g => { g with loading := [(15, oneHop)] }) with
        accepted := [⟨0x410, 0, 7, 15, record [(1, 15), (1, 1), (2, 0)]⟩] } ∧
    (H ⟨0x410, 0, 7, 15, record [(1, 15), (1, 1), (2, 0)]⟩).2.Met
      { up with accepted := [⟨0x410, 0, 7, 15, record [(1, 15), (1, 1), (2, 0)]⟩] } := by
  delta Acts.Met ActsSo.Met Serves.Met Defers.Met ant ant2 ant3 ant4 ant5 ant6; clear H; decide +kernel

theorem met_chimeStatus (H : Claims.chimeStatus) : H.Met up (ask 0x411 []) := by
  delta Acts.Met ActsSo.Met Serves.Met Defers.Met ant ant2 ant3 ant4 ant5 ant6; clear H; decide +kernel

/-- `up` with a port on, in mode `m`, slot 0 on virtual channel 0. -/
def portUp (p : Fin 8) (m : PortMode) : State :=
  up.modPort p fun x => { x with
    mode := m, gear := 1, cfg := ⟨true, 1, 1, 0, 0, 0, 0, #v[0, 0xFF, 0xFF, 0xFF], 100, 16, 100⟩ }

/-- The settings of a small stream: RAW8, 64 by 1. -/
def smallStream : StreamCfg := ⟨0x2A, 64, 1, 0, 0, 0, .p, 0, 0, 0xFF, 0, 3000, 64, 1000⟩
def smallRing : Ring := ⟨4, 4096, 0x10000, false, 0x20000, false⟩

/-- A frame of `smallStream` with no line yet. -/
def smallFrame : Frame :=
  ⟨0, 0, smallStream, 0, some smallRing, false, ⟨0, 0⟩, none, none, none, false, false, false, false, [], [], 0, false,
    false, false, false⟩

/-- Port 1 in mode `m` with its stream 4 open and changed by `f`. -/
def streamUp (m : PortMode) (f : Stream → Stream) : State :=
  (portUp 1 m).modStream 4 fun x => f { x with mode := .opened, cfg := smallStream, ring := some smallRing }

def cleanPacket : PacketFate := ⟨false, false, false, 1, 64, [64]⟩

/-- The payload of a PORT_CONFIG. -/
def portBytes (p enable : Nat) : List Byte :=
  record [(1, p), (1, enable), (1, 1), (1, 1), (1, 0), (1, 0), (1, 0), (1, 0), (1, 0), (3, 0xFFFFFF), (2, 100), (2, 16),
    (2, 100), (6, 0)]

/-- The settings that it gives. -/
def portOfBytes (enable : Bool) : PortCfg := ⟨enable, 1, 1, 0, 0, 0, 0, #v[0, 0xFF, 0xFF, 0xFF], 100, 16, 100⟩

/-- The payload of a STREAM_OPEN of `smallStream`. -/
def streamBytes : List Byte :=
  record [(1, 4), (1, 0x2A), (2, 64), (2, 1), (1, 0), (1, 0), (1, 0), (1, 1), (1, 0), (1, 0), (1, 0xFF), (1, 0), (2, 3000),
    (4, 64), (4, 1000), (8, 0)]

def stagedFrame : Staged :=
  ⟨.frame false, true, ⟨4, 0, 0, 0, none, ⟨0, 0⟩, false, ⟨0, 0⟩, 1, 0, 0, 0, 0, 0⟩, smallStream, smallRing,
    [List.replicate 64 7], 0⟩

theorem met_portLock (H : Claims.portLock) :
    (H 1).1.Met (portUp 1 .acquire) ∧
    (H 1).2.Met ((portUp 1 .acquire).modPort 1 fun x => { x with cfg := { x.cfg with gear := 2 } }) := by
  delta Acts.Met ActsSo.Met Serves.Met Defers.Met ant ant2 ant3 ant4 ant5 ant6; clear H; decide +kernel

theorem met_portLoss (H : Claims.portLoss) :
    (H 1).1.Met (streamUp .locked id) ∧ (H 1).2.Met (streamUp .drain id) := by
  delta Acts.Met ActsSo.Met Serves.Met Defers.Met ant ant2 ant3 ant4 ant5 ant6; clear H; decide +kernel

theorem met_relockAttempt (H : Claims.relockAttempt) : (H 1).Met (portUp 1 .lost) := by
  delta Acts.Met ActsSo.Met Serves.Met Defers.Met ant ant2 ant3 ant4 ant5 ant6; clear H; decide +kernel

theorem met_gearRaiseTimeout (H : Claims.gearRaiseTimeout) :
    (H 1 100).Met ((portUp 1 .acquire).modPort 1 fun x => { x with raising := some 100 }) := by
  delta Acts.Met ActsSo.Met Serves.Met Defers.Met ant ant2 ant3 ant4 ant5 ant6; clear H; decide +kernel

theorem met_csi2FrameStart (H : Claims.csi2FrameStart) :
    (H 1 0 7 0).1.Met (streamUp .locked id) ∧
    (H 1 0 (-7) 0).2.1.Met (streamUp .locked fun x => { x with prevSof := some ⟨0, 0⟩ }) ∧
    (H 1 3 7 0).2.2.Met (streamUp .locked id) := by
  delta Acts.Met ActsSo.Met Serves.Met Defers.Met ant ant2 ant3 ant4 ant5 ant6; clear H; decide +kernel

theorem met_csi2LongPacket (H : Claims.csi2LongPacket) :
    ((H 1 0 0x2A (List.replicate 64 7) cleanPacket).1 0 smallFrame rfl rfl rfl rfl (by decide) rfl (by decide)
      rfl rfl).Met (streamUp .locked fun x => { x with frame := some smallFrame }) ∧
    ((H 1 0 0x2A [] { cleanPacket with unrecoverable := true }).2 rfl).Met
      ((streamUp .locked id).modPort 1 fun x => { x with bad := List.replicate 16 1000000000 }) := by
  delta Acts.Met ActsSo.Met Serves.Met Defers.Met ant ant2 ant3 ant4 ant5 ant6; clear H; decide +kernel

theorem met_csi2FrameEnd (H : Claims.csi2FrameEnd) :
    ant4 (H 1 0 7 0 { smallFrame with lines := [List.replicate 64 7] } smallRing) ∧
    (H 1 0 7 0 { smallFrame with lines := [List.replicate 64 7] } smallRing rfl rfl rfl rfl).Met
      (streamUp .locked fun x => { x with frame := some { smallFrame with lines := [List.replicate 64 7] } }) := by
  delta Acts.Met ActsSo.Met Serves.Met Defers.Met ant ant2 ant3 ant4 ant5 ant6; clear H; decide +kernel

theorem met_triggerEdgeAgeExpiry (H : Claims.triggerEdgeAgeExpiry) :
    (H 4 ⟨⟨0, 0⟩, none, false, false⟩ []).Met
      (aged (streamUp .locked fun x => { x with edges := [⟨⟨0, 0⟩, none, false, false⟩] })) := by
  delta Acts.Met ActsSo.Met Serves.Met Defers.Met ant ant2 ant3 ant4 ant5 ant6; clear H; decide +kernel

theorem met_portDrainEnd (H : Claims.portDrainEnd) :
    (H 1).1.Met (streamUp .drain id) ∧
    (H 1).2.Met ((streamUp .drain id).modPort 1 fun x => { x with next := some { x.cfg with enable := false } }) := by
  delta Acts.Met ActsSo.Met Serves.Met Defers.Met ant ant2 ant3 ant4 ant5 ant6; clear H; decide +kernel

theorem met_drainFrameTimeout (H : Claims.drainFrameTimeout) :
    (H 1).Met (streamUp .drain fun x => { x with frame := some smallFrame }) := by
  delta Acts.Met ActsSo.Met Serves.Met Defers.Met ant ant2 ant3 ant4 ant5 ant6; clear H; decide +kernel

theorem met_stagedFrameCopyDone (H : Claims.stagedFrameCopyDone) :
    ((H 4 ⟨[], 0, 1⟩ stagedFrame []).1 (by decide)).Met (streamUp .locked fun x => { x with staged := [stagedFrame] }) ∧
    ((H 4 ⟨[0], 0x1000, 0⟩ { stagedFrame with cfg := { smallStream with cls := .s } } []).2.1 (by decide) rfl).Met
      (streamUp .locked fun x => { x with staged := [{ stagedFrame with cfg := { smallStream with cls := .s } }] }) ∧
    ((H 4 ⟨[0], 0x1000, 0⟩ stagedFrame []).2.2 (by decide) (by decide)).Met
      (streamUp .locked fun x => { x with staged := [stagedFrame] }) := by
  delta Acts.Met ActsSo.Met Serves.Met Defers.Met ant ant2 ant3 ant4 ant5 ant6; clear H; decide +kernel

theorem met_streamHeadWrite (H : Claims.streamHeadWrite) :
    (H 0 4 1 smallRing).1.Met (streamUp .locked fun x => { x with tail := 1 }) ∧
    (H 0 4 1 smallRing).2.1.Met (streamUp .locked id) ∧
    (H 0 4 1 smallRing).2.2.Met (streamUp .locked fun x => { x with ring := none }) := by
  delta Acts.Met ActsSo.Met Serves.Met Defers.Met ant ant2 ant3 ant4 ant5 ant6; clear H; decide +kernel

theorem met_streamDropsRead (H : Claims.streamDropsRead) : (H 0 4).Met (streamUp .locked id) := by
  delta Acts.Met ActsSo.Met Serves.Met Defers.Met ant ant2 ant3 ant4 ant5 ant6; clear H; decide +kernel

theorem met_streamErrsRead (H : Claims.streamErrsRead) : (H 0 4).Met (streamUp .locked id) := by
  delta Acts.Met ActsSo.Met Serves.Met Defers.Met ant ant2 ant3 ant4 ant5 ant6; clear H; decide +kernel

theorem met_portConfig (H : Claims.portConfig) :
    (H 1 (portOfBytes true)).1.Met up (ask 0x201 (portBytes 1 1)) ∧
    (H 1 (portOfBytes false)).2.1.Met up (ask 0x201 (portBytes 1 0)) ∧
    (H 1 (portOfBytes false)).2.2.1.Met (portUp 1 .locked) (ask 0x201 (portBytes 1 0)) ∧
    (H 1 (portOfBytes false)).2.2.2.Met (streamUp .locked id) (ask 0x201 (portBytes 1 0)) := by
  delta Acts.Met ActsSo.Met Serves.Met Defers.Met ant ant2 ant3 ant4 ant5 ant6; clear H; decide +kernel

theorem met_portStatus (H : Claims.portStatus) : (H 1).Met (portUp 1 .locked) (ask 0x202 [1, 0, 0, 0]) := by
  delta Acts.Met ActsSo.Met Serves.Met Defers.Met ant ant2 ant3 ant4 ant5 ant6; clear H; decide +kernel

theorem met_portRestart (H : Claims.portRestart) :
    (H 1).1.Met (portUp 1 .lost) (ask 0x203 [1, 0, 0, 0]) ∧
    (H 1).2.Met (portUp 1 .drain) (ask 0x203 [1, 0, 0, 0]) := by
  delta Acts.Met ActsSo.Met Serves.Met Defers.Met ant ant2 ant3 ant4 ant5 ant6; clear H; decide +kernel

theorem met_portRestartDone (H : Claims.portRestartDone) :
    (H 1).1.Met ((portUp 1 .locked).modPort 1 fun x => { x with task := .restart }) ∧
    (H 1).2.Met ((portUp 1 .acquire).modPort 1 fun x => { x with task := .restart }) := by
  delta Acts.Met ActsSo.Met Serves.Met Defers.Met ant ant2 ant3 ant4 ant5 ant6; clear H; decide +kernel

theorem met_tunnelI2c (H : Claims.tunnelI2c) :
    (H 1).1.Met (portUp 1 .locked) (ask 0x204 (record [(1, 1), (1, 16), (1, 1), (1, 64), (2, 3), (2, 0)])) ∧
    (H 1).2.Met (portUp 1 .locked) (ask 0x204 (record [(1, 1), (1, 16), (1, 0), (1, 1), (2, 3), (2, 0), (64, 9)])) := by
  delta Acts.Met ActsSo.Met Serves.Met Defers.Met ant ant2 ant3 ant4 ant5 ant6; clear H; decide +kernel

/-- A TUNNEL_I2C read of port 1, fetched at this tick. -/
def tunnelled (t : Nat) : Owed := ⟨0x204, 1, 0, false, 7, record [(1, 1), (1, 16), (1, 1), (1, 1), (2, 3), (2, 0)], t⟩

theorem met_tunnelI2cAnswer (H : Claims.tunnelI2cAnswer) :
    ((H 1 [5] (tunnelled 999999999)).1 2 (by decide)).Met { portUp 1 .locked with owed := [tunnelled 999999999] } ∧
    (H 1 [] (tunnelled 0)).2.Met { portUp 1 .locked with owed := [tunnelled 0] } := by
  delta Acts.Met ActsSo.Met Serves.Met Defers.Met ant ant2 ant3 ant4 ant5 ant6; clear H; decide +kernel

theorem met_tunnelGpio (H : Claims.tunnelGpio) :
    (H 1 true).1.Met (portUp 1 .locked) (ask 0x205 [1, 3, 0, 0]) ∧
    (H 1 true).2.1.Met (portUp 1 .locked) (ask 0x205 [1, 3, 1, 0]) ∧
    (H 1 true).2.2.Met (portUp 1 .locked) (ask 0x205 [1, 3, 2, 0]) := by
  delta Acts.Met ActsSo.Met Serves.Met Defers.Met ant ant2 ant3 ant4 ant5 ant6; clear H; decide +kernel

theorem met_streamOpen (H : Claims.streamOpen) : ((H 4 smallStream).1).Met (portUp 1 .acquire) (ask 0x210 streamBytes) := by
  delta Acts.Met ActsSo.Met Serves.Met Defers.Met ant ant2 ant3 ant4 ant5 ant6; clear H; decide +kernel

theorem met_streamClose (H : Claims.streamClose) : ((H 4).1).Met (streamUp .locked id) (ask 0x211 [4, 0, 0, 0]) := by
  delta Acts.Met ActsSo.Met Serves.Met Defers.Met ant ant2 ant3 ant4 ant5 ant6; clear H; decide +kernel

theorem met_streamCloseQuiet (H : Claims.streamCloseQuiet) :
    (H 4).Met (streamUp .locked fun x => { x with mode := .closing }) := by
  delta Acts.Met ActsSo.Met Serves.Met Defers.Met ant ant2 ant3 ant4 ant5 ant6; clear H; decide +kernel

theorem met_streamStage (H : Claims.streamStage) : (H 4 smallStream).Met (streamUp .locked id) (ask 0x212 streamBytes) := by
  delta Acts.Met ActsSo.Met Serves.Met Defers.Met ant ant2 ant3 ant4 ant5 ant6; clear H; decide +kernel

theorem met_streamStatus (H : Claims.streamStatus) : (H 4).Met (streamUp .locked id) (ask 0x213 [4, 0, 0, 0]) := by
  delta Acts.Met ActsSo.Met Serves.Met Defers.Met ant ant2 ant3 ant4 ant5 ant6; clear H; decide +kernel

theorem met_streamBuffers (H : Claims.streamBuffers) :
    (H 4).Met (streamUp .locked id) (ask 0x214 (record [(1, 4), (1, 0), (2, 1024), (4, 64)] ++ hostBuf 0x10000 65536 ++
      hostBuf 0x90000 65536)) := by
  delta Acts.Met ActsSo.Met Serves.Met Defers.Met ant ant2 ant3 ant4 ant5 ant6; clear H; decide +kernel

theorem met_embeddedMapSet (H : Claims.embeddedMapSet) :
    (H 4).Met (streamUp .locked id) (ask 0x220 (record [(1, 4), (3, 0)] ++ hostBuf 0x1000 64)) := by
  delta Acts.Met ActsSo.Met Serves.Met Defers.Met ant ant2 ant3 ant4 ant5 ant6; clear H; decide +kernel

/-- An EMBEDDED_MAP_SET of stream 4 in progress. -/
def mapAsked : Accepted := ⟨0x220, 0, 7, 4, record [(1, 4), (3, 0)] ++ hostBuf 0x1000 1⟩
def mapOwed : State := { streamUp .locked id with accepted := [mapAsked] }

theorem met_embeddedMapSetDone (H : Claims.embeddedMapSetDone) :
    (H 4 mapAsked (.data [0x80]) [0x80] [] 0).1.Met mapOwed ∧ (H 4 mapAsked (.data [0x00]) [0x00] [] 0).2.1.Met mapOwed ∧
    (H 4 mapAsked .failed [] [] 0).2.2.Met mapOwed := by
  delta Acts.Met ActsSo.Met Serves.Met Defers.Met ant ant2 ant3 ant4 ant5 ant6; clear H; decide +kernel

/-- `up` with position channel `ch` changed. -/
def posUp (ch : Fin 4) (f : Pos → Pos) : State := (aged up).modPos ch f

/-- A running channel of kind `k`. -/
def running (k : PosKind) (ch : Fin 4) (f : Pos → Pos) : State :=
  posUp ch fun x => f { x with
    kind := k, mode := .running, cfg := { x.cfg with window := 4, stopMs := 100 }
    points := [⟨⟨0, 0⟩, ⟨0, 0⟩, 0, none, 0, 25600000000⟩] }

/-- A running channel of kind `k` whose balls have shown the levels `l` for long, its filtered levels at 0. -/
def settled (k : PosKind) (l : BitVec 4) (f : Pos → Pos) : State :=
  running k 1 fun x => f { x with raw := Vector.ofFn fun i => ⟨l.getLsbD i, 0, none⟩ }

/-- A sample of the balls at these levels. -/
def sampled (l : BitVec 4) : Vector Line 4 := Vector.ofFn fun i => ⟨l.getLsbD i, 0⟩

/-- An SSI channel of 12 bits in its cycle, changed by `f`, and the frame that spells 5. -/
def inCycle (f : Pos → Pos) : State :=
  posUp 1 fun x => f { x with
    kind := .ssi, mode := .running, cycle := some ⟨7, 0⟩, cfg := { x.cfg with dataBits := 12, clkKhz := 1000 } }

def fiveBits : List Bool := List.replicate 9 false ++ [true, false, true]

/-- A staged class P stream 4 of PF0, and the state in which a commit of it is not refused. -/
def stagedUp : State :=
  (up.modStream 4 fun x => { x with mode := .opened, cfg := ⟨0x2A, 64, 1, 0, 0, 0, .p, 0, 0, 0xFF, 0, 3000, 64, 1000⟩ }).modEpochs
    0 fun e => { e with items := [.stream 4 ⟨0x2A, 64, 1, 0, 0, 0, .p, 0, 0, 0xFF, 0, 3000, 64, 1000⟩] }

/-- The payload of a POS_CONFIG: kind, then what stands at offsets 2 to 15. -/
def posBytes (ch k invert : Nat) : List Byte :=
  record [(1, ch), (1, k), (1, 8), (1, 1), (1, invert), (1, 0), (1, 4), (1, 0), (4, 0), (1, 0), (1, 0), (2, 100), (16, 0)]

def emuBytes (source : Nat) : List Byte := record [(1, 1), (1, source), (1, 0), (1, 0), (4, 65536), (4, 1), (4, 0), (4, 0)]

theorem met_configCommit (H : Claims.configCommit) :
    (H.1).Met stagedUp (ask 0x10 [1, 0, 0, 0, 0, 0, 0, 0]) ∧
    ant4 (H.2 stagedUp 0 (ask 0x10 [0, 0, 0, 0, 0, 0, 0, 0]) (asked 0x10 [0, 0, 0, 0, 0, 0, 0, 0])) := by
  delta Acts.Met ActsSo.Met Serves.Met Defers.Met ant ant2 ant3 ant4 ant5 ant6; clear H; decide +kernel

theorem met_epochSwitchTimer (H : Claims.epochSwitchTimer) :
    (H 4 0 ⟨1, [4], [4], 0, [], 0, none⟩).Met
      (stagedUp.modEpochs 0 fun e => { e with commit := some ⟨1, [4], [4], 0, [], 0, none⟩ }) := by
  delta Acts.Met ActsSo.Met Serves.Met Defers.Met ant ant2 ant3 ant4 ant5 ant6; clear H; decide +kernel

theorem met_configDiscard (H : Claims.configDiscard) : H.Met stagedUp (ask 0x11 []) := by
  delta Acts.Met ActsSo.Met Serves.Met Defers.Met ant ant2 ant3 ant4 ant5 ant6; clear H; decide +kernel

theorem met_configStatus (H : Claims.configStatus) : H.Met stagedUp (ask 0x12 []) := by
  delta Acts.Met ActsSo.Met Serves.Met Defers.Met ant ant2 ant3 ant4 ant5 ant6; clear H; decide +kernel

theorem met_quadStep (H : Claims.quadStep) :
    (H 1 (sampled 1) 1 true []).1.Met (settled .quad 1 id) ∧
    (H 1 (sampled 2) 2 true []).2.1.Met (settled .quad 2 id) ∧
    (H 1 (sampled 3) 3 true []).2.2.1.Met (settled .quad 3 fun x => { x with cfg := { x.cfg with policy := 1 } }) ∧
    (H 1 (sampled 3) 3 false []).2.2.2.Met (settled .quad 3 fun x => { x with
      cfg := { x.cfg with policy := 2 }, fresh := false, dirs := [false] }) := by
  delta Acts.Met ActsSo.Met Serves.Met Defers.Met ant ant2 ant3 ant4 ant5 ant6; clear H; decide +kernel

theorem met_stepDirStep (H : Claims.stepDirStep) :
    (H 1 (sampled 1) 1).1.Met (settled .stepDir 1 id) ∧
    (H 1 (sampled 1) 1).2.Met (settled .stepDir 1 fun x => { x with cfg := { x.cfg with stepEdge := 1 } }) := by
  delta Acts.Met ActsSo.Met Serves.Met Defers.Met ant ant2 ant3 ant4 ant5 ant6; clear H; decide +kernel

theorem met_upDownCount (H : Claims.upDownCount) :
    (H 1 (sampled 2) 2).1.Met (settled .upDown 2 id) ∧ (H 1 (sampled 3) 3).2.Met (settled .upDown 3 id) := by
  delta Acts.Met ActsSo.Met Serves.Met Defers.Met ant ant2 ant3 ant4 ant5 ant6; clear H; decide +kernel

theorem met_hallChange (H : Claims.hallChange) :
    (H 1 (sampled 6) 6 1).1.Met (settled .hall 6 id) ∧ (H 1 (sampled 5) 5 5).2.1.Met (settled .hall 5 id) ∧
    (H 1 (sampled 3) 3 3).2.2.1.Met (settled .hall 3 id) ∧
    (H 1 (sampled 0) 0 0).2.2.2.Met (settled .hall 0 fun x => { x with lines := 3 }) := by
  delta Acts.Met ActsSo.Met Serves.Met Defers.Met ant ant2 ant3 ant4 ant5 ant6; clear H; decide +kernel

theorem met_indexEdge (H : Claims.indexEdge) :
    (H 1 (sampled 4) 4).1.Met (settled .quad 4 fun x => { x with cfg := { x.cfg with index := 1 } }) ∧
    (H 1 (sampled 4) 4).2.Met (settled .quad 4 fun x => { x with cfg := { x.cfg with index := 3 } }) := by
  delta Acts.Met ActsSo.Met Serves.Met Defers.Met ant ant2 ant3 ant4 ant5 ant6; clear H; decide +kernel

theorem met_standstillTimeout (H : Claims.standstillTimeout) : (H 1).Met (running .quad 1 id) := by
  delta Acts.Met ActsSo.Met Serves.Met Defers.Met ant ant2 ant3 ant4 ant5 ant6; clear H; decide +kernel

theorem met_serialCycleStart (H : Claims.serialCycleStart) : (H 1).Met (running .ssi 1 id) := by
  delta Acts.Met ActsSo.Met Serves.Met Defers.Met ant ant2 ant3 ant4 ant5 ant6; clear H; decide +kernel

theorem met_serialCycleEnd (H : Claims.serialCycleEnd) :
    ant2 (H.1 { PosCfg.reset with dataBits := 12 } fiveBits) ∧
    (H.2 1 ⟨7, 0⟩ (.ssi true fiveBits) 5 0 0 false).1.Met (inCycle fun x => { x with mode := .starting }) ∧
    (H.2 1 ⟨7, 0⟩ (.ssi false fiveBits) 0 6 0x3107 false).2.1.Met (inCycle fun x => { x with fails := 6 }) ∧
    (H.2 1 ⟨7, 0⟩ (.ssi true []) 0 6 0x3107 false).2.2.Met (inCycle fun x => { x with fails := 7 }) := by
  delta Acts.Met ActsSo.Met Serves.Met Defers.Met ant ant2 ant3 ant4 ant5 ant6; clear H; decide +kernel

theorem met_bissRegisterReadDone (H : Claims.bissRegisterReadDone) :
    (H 1 ⟨2, 0, false⟩ 9).1.Met (running .bissC 1 fun x => { x with biss := some ⟨2, 0, false⟩ }) ∧
    (H 1 ⟨2, 64, true⟩ 9).2.1.Met (running .bissC 1 fun x => { x with biss := some ⟨2, 64, true⟩ }) ∧
    (H 1 ⟨2, 64, false⟩ 9).2.2.1.Met (running .bissC 1 fun x => { x with biss := some ⟨2, 64, false⟩ }) ∧
    (H 1 ⟨2, 1, true⟩ 9).2.2.2.Met (running .bissC 1 fun x => { x with biss := some ⟨2, 1, true⟩ }) := by
  delta Acts.Met ActsSo.Met Serves.Met Defers.Met ant ant2 ant3 ant4 ant5 ant6; clear H; decide +kernel

/-- An emulator that follows channel 1. -/
def emulating (out : Int) : State :=
  (running .quad 1 id).modEmu 1 fun x => { x with running := true, source := 1, n := 1, d := 1, out := out }

theorem met_emuOutputStep (H : Claims.emuOutputStep) :
    (H 1).1.Met (emulating (-5)) ∧ (H 1).2.Met (emulating 5) := by
  delta Acts.Met ActsSo.Met Serves.Met Defers.Met ant ant2 ant3 ant4 ant5 ant6; clear H; decide +kernel

theorem met_posPLoRead (H : Claims.posPLoRead) : (H 0 1).Met (running .quad 1 id) := by
  delta Acts.Met ActsSo.Met Serves.Met Defers.Met ant ant2 ant3 ant4 ant5 ant6; clear H; decide +kernel

theorem met_posIdxLoRead (H : Claims.posIdxLoRead) : (H 0 1).Met (running .quad 1 id) := by
  delta Acts.Met ActsSo.Met Serves.Met Defers.Met ant ant2 ant3 ant4 ant5 ant6; clear H; decide +kernel

theorem met_posSerialErrsRead (H : Claims.posSerialErrsRead) : (H 0 1).Met (running .quad 1 id) := by
  delta Acts.Met ActsSo.Met Serves.Met Defers.Met ant ant2 ant3 ant4 ant5 ant6; clear H; decide +kernel

theorem met_posConfig (H : Claims.posConfig) :
    (H 1 .quad).1.Met up (ask 0x301 (posBytes 1 1 0)) ∧
    (H 1 .quad).2.1.Met (inCycle id) (ask 0x301 (posBytes 1 1 0)) ∧
    (H 1 .off).2.2.1.Met (emulating 0) (ask 0x301 (posBytes 1 0 0)) ∧
    ant2 ((H 1 .quad).2.2.2 up (posCfgOf (posBytes 1 1 0))).1 ∧
    ant ((H 1 .quad).2.2.2 (running .quad 1 id) (posCfgOf (posBytes 1 1 0))).2 := by
  delta Acts.Met ActsSo.Met Serves.Met Defers.Met ant ant2 ant3 ant4 ant5 ant6; clear H; decide +kernel

theorem met_posConfigApply (H : Claims.posConfigApply) :
    (H 1 ⟨0x301, 1, 0, false, 7, posBytes 1 1 0, 0⟩ .quad).Met
      { up with owed := [⟨0x301, 1, 0, false, 7, posBytes 1 1 0, 0⟩] } := by
  delta Acts.Met ActsSo.Met Serves.Met Defers.Met ant ant2 ant3 ant4 ant5 ant6; clear H; decide +kernel

theorem met_posStatus (H : Claims.posStatus) :
    (H 1).1.Met up (ask 0x302 [1, 0, 0, 0, 0, 0, 0, 0]) ∧
    (H 1).2.Met (running .bissC 1 fun x => { x with cfg := { x.cfg with serialFlags := 4 } })
      (ask 0x302 [1, 1, 127, 0, 0, 0, 0, 0]) := by
  delta Acts.Met ActsSo.Met Serves.Met Defers.Met ant ant2 ant3 ant4 ant5 ant6; clear H; decide +kernel

theorem met_posPreset (H : Claims.posPreset) :
    (H 1).1.Met (running .ssi 1 id) (ask 0x303 (record [(1, 1), (1, 0), (6, 0), (8, sval 8 (-(2 ^ 47)))])) ∧
    (H 1).2.1.Met (running .quad 1 id) (ask 0x303 (record [(1, 1), (1, 1), (6, 0), (8, sval 8 (2 ^ 47 - 1))])) := by
  delta Acts.Met ActsSo.Met Serves.Met Defers.Met ant ant2 ant3 ant4 ant5 ant6; clear H; decide +kernel

theorem met_emuConfig (H : Claims.emuConfig) :
    (H 1 2).1.Met up (ask 0x304 (emuBytes 2)) ∧ (H 1 2).2.Met up (ask 0x304 (emuBytes 0xFF)) := by
  delta Acts.Met ActsSo.Met Serves.Met Defers.Met ant ant2 ant3 ant4 ant5 ant6; clear H; decide +kernel

/-- `up` with comparator `n` changed. -/
def cmpUp (n : Fin 16) (f : Cmp → Cmp) : State := (aged up).modCmp n f

/-- `up` with a trigger output that is on, `delay` and `width` 100 ns, changed by `f`. -/
def trigUp (k : Fin 12) (f : Trig → Trig) : State :=
  up.modTrig k fun t => f { t with cfg := { t.cfg with on := true, delay := 100, width := 100, holdoff := 100, period := 1000 } }

def xtrUp (l : Fin 4) (f : Xtr → Xtr) : State :=
  up.modXtr l fun x => f { x with cfg := { x.cfg with drive := true, minNs := 100, driveNs := 2000, guardNs := 200, stuckMs := 1 } }

def armBytes (n source mode : Nat) (target : Int) : List Byte :=
  record [(1, n), (1, source), (1, 0), (1, 0), (1, mode), (1, 0), (2, 0), (8, sval 8 target), (8, 1000), (4, 0), (4, 0),
    (4, 0), (4, 0), (16, 0)]

def trigBytes (k : Nat) : List Byte :=
  record [(1, k), (1, 1), (1, 0), (1, 0), (2, 0xFFFF), (1, 15), (1, 3), (4, 1000000), (4, 10), (4, 0), (4, 1000), (8, 0)]

def xtrBytes (l : Nat) : List Byte :=
  record [(1, l), (1, 0), (1, 0), (1, 0), (2, 0), (1, 3), (1, 0), (4, 20), (4, 0), (4, 0), (2, 60000), (10, 0)]

def reach : Reach := ⟨⟨256000000000, 0⟩, 1000000000, 1000000000, 0, 1, false, false, false, false, 1000⟩

theorem met_comparatorFire (H : Claims.comparatorFire) :
    (H 15 reach).1.Met (cmpUp 15 fun c => { c with mode := .armed, source := 0, reached := some reach }) ∧
    (H 15 reach).2.1.Met (cmpUp 15 fun c => { c with
      mode := .armed, source := 4, grid := true, pitch := 1000, target := 0, nextTick := some 1000000000 }) ∧
    (H 15 reach).2.2.1.Met (cmpUp 15 fun c => { c with mode := .armed, source := 3, interp := true }) := by
  delta Acts.Met ActsSo.Met Serves.Met Defers.Met ant ant2 ant3 ant4 ant5 ant6; clear H; decide +kernel

/-- A TIME target that lies 1 ns ahead, and one that lies 1 ns back under policy 1. -/
def timed (policy : Nat) (target : Int) : State := cmpUp 15 fun c => { c with source := 4, policy := policy, target := target }

theorem met_cmpArm (H : Claims.cmpArm) :
    (H 15).1.Met (aged up) (ask 0x310 (armBytes 15 4 1 2000000000)) ∧
    (H 15).1.Met ((aged up).modPos 3 fun p => { p with kind := .quad, mode := .running }) (ask 0x310 (armBytes 15 3 0 4096)) ∧
    ant3 ((H 15).2 (timed 0 1000000001)) ∧
    ant ((H 15).2 (timed 0 1000000001) (by decide +kernel) (by decide +kernel) (by decide +kernel)).1 ∧
    ant2 ((H 15).2 (timed 1 999999999) (by decide +kernel) (by decide +kernel) (by decide +kernel)).2 := by
  delta Acts.Met ActsSo.Met Serves.Met Defers.Met ant ant2 ant3 ant4 ant5 ant6; clear H; decide +kernel

theorem met_cmpDisarm (H : Claims.cmpDisarm) :
    (H 15).Met (cmpUp 15 fun c => { c with mode := .armed }) (ask 0x311 [15, 0, 0, 0]) := by
  delta Acts.Met ActsSo.Met Serves.Met Defers.Met ant ant2 ant3 ant4 ant5 ant6; clear H; decide +kernel

theorem met_cmpStatus (H : Claims.cmpStatus) : (H 15).Met (cmpUp 15 id) (ask 0x312 [15, 0, 0, 0]) := by
  delta Acts.Met ActsSo.Met Serves.Met Defers.Met ant ant2 ant3 ant4 ant5 ant6; clear H; decide +kernel

theorem met_trigDelayEnd (H : Claims.trigDelayEnd) :
    (H 11).1.Met (trigUp 11 fun t => { t with mode := .delay, since := 999999980 }) ∧
    (H 11).2.1.Met (trigUp 11 fun t => { t with mode := .pulse, due := true }) := by
  delta Acts.Met ActsSo.Met Serves.Met Defers.Met ant ant2 ant3 ant4 ant5 ant6; clear H; decide +kernel

theorem met_trigPulseEnd (H : Claims.trigPulseEnd) :
    (H 11 159).Met (trigUp 11 fun t => { t with mode := .pulse, since := 999999980 }) := by
  delta Acts.Met ActsSo.Met Serves.Met Defers.Met ant ant2 ant3 ant4 ant5 ant6; clear H; decide +kernel

theorem met_trigHoldoffEnd (H : Claims.trigHoldoffEnd) :
    (H 11).Met (trigUp 11 fun t => { t with mode := .holdoff, since := 999999980 }) := by
  delta Acts.Met ActsSo.Met Serves.Met Defers.Met ant ant2 ant3 ant4 ant5 ant6; clear H; decide +kernel

theorem met_trigPeriodTick (H : Claims.trigPeriodTick) :
    (H 11).1.Met (trigUp 11 fun t => { t with periodFrom := 999999800 }) ∧
    ant ((H 11).2 (trigUp 11 id) false false ⟨0, 0, 40⟩) ∧
    ant ((H 11).2 (trigUp 11 id) false false ⟨0, 0, 40⟩ (by decide +kernel)).1 ∧
    ant3 ((H 11).2 (trigUp 11 fun t => { t with mode := .pulse }) false false ⟨0, 0, 40⟩ (by decide +kernel)).2 := by
  delta Acts.Met ActsSo.Met Serves.Met Defers.Met ant ant2 ant3 ant4 ant5 ant6; clear H; decide +kernel

theorem met_xtrFallingEdge (H : Claims.xtrFallingEdge) :
    (H 3 159).1.Met (xtrUp 3 id) ∧ (H 3 159).2.Met (xtrUp 3 fun x => { x with stuck := true }) := by
  delta Acts.Met ActsSo.Met Serves.Met Defers.Met ant ant2 ant3 ant4 ant5 ant6; clear H; decide +kernel

theorem met_xtrAssertionTaken (H : Claims.xtrAssertionTaken) :
    (H 3 ⟨7, 0⟩).1.Met (xtrUp 3 fun x => { x with low := true, edge := some ⟨7, 0⟩, since := 999999980 }) ∧
    (H 3 ⟨7, 0⟩).2.Met (xtrUp 3 fun x => { x with
      low := true, edge := some ⟨7, 0⟩, since := 999999980, close := true }) := by
  delta Acts.Met ActsSo.Met Serves.Met Defers.Met ant ant2 ant3 ant4 ant5 ant6; clear H; decide +kernel

theorem met_xtrDriveEnd (H : Claims.xtrDriveEnd) :
    (H 3 159).1.Met (xtrUp 3 fun x => { x with low := true, driving := true, since := 999999600 }) ∧
    (H 3 159).2.Met (xtrUp 3 fun x => { x with low := true, driving := true, since := 999999600 }) := by
  delta Acts.Met ActsSo.Met Serves.Met Defers.Met ant ant2 ant3 ant4 ant5 ant6; clear H; decide +kernel

theorem met_xtrGuardEnd (H : Claims.xtrGuardEnd) :
    (H 3).1.Met (xtrUp 3 fun x => { x with waiting := true, since := 999999960 }) ∧
    (H 3).2.Met (xtrUp 3 fun x => { x with waiting := true, low := true }) := by
  delta Acts.Met ActsSo.Met Serves.Met Defers.Met ant ant2 ant3 ant4 ant5 ant6; clear H; decide +kernel

theorem met_xtrReleaseCheck (H : Claims.xtrReleaseCheck) :
    (H 3 ⟨7, 0⟩ 999999960).1.Met (xtrUp 3 fun x => { x with released := some (⟨7, 0⟩, 999999960), low := true }) ∧
    (H 3 ⟨7, 0⟩ 999999960).2.Met (xtrUp 3 fun x => { x with released := some (⟨7, 0⟩, 999999960) }) := by
  delta Acts.Met ActsSo.Met Serves.Met Defers.Met ant ant2 ant3 ant4 ant5 ant6; clear H; decide +kernel

theorem met_xtrStuckTimeout (H : Claims.xtrStuckTimeout) :
    (H 3).Met (xtrUp 3 fun x => { x with low := true, since := 999800000 }) := by
  delta Acts.Met ActsSo.Met Serves.Met Defers.Met ant ant2 ant3 ant4 ant5 ant6; clear H; decide +kernel

theorem met_xtrStuckClear (H : Claims.xtrStuckClear) :
    (H 3).Met (xtrUp 3 fun x => { x with stuck := true, since := 999800000 }) := by
  delta Acts.Met ActsSo.Met Serves.Met Defers.Met ant ant2 ant3 ant4 ant5 ant6; clear H; decide +kernel

/-- `up` with an external input whose active level is high, a filter of 100 ns, changed by `f`. -/
def extUp (f : Ext → Ext) : State := up.modExt 1 fun x => f { x with rising := true, minNs := 100, level := false, edge := none }

theorem met_extEdge (H : Claims.extEdge) :
    (H 1 ⟨true, 159⟩ ⟨7, 0⟩).1.Met (extUp id) ∧
    (H 1 ⟨false, 159⟩ ⟨7, 0⟩).2.1.Met (extUp fun x => { x with level := true, edge := some ⟨7, 0⟩, since := 999999981 }) ∧
    (H 1 ⟨true, 159⟩ ⟨7, 0⟩).2.2.Met (extUp fun x => { x with level := true, edge := some ⟨7, 0⟩, since := 999999980 }) := by
  delta Acts.Met ActsSo.Met Serves.Met Defers.Met ant ant2 ant3 ant4 ant5 ant6; clear H; decide +kernel

theorem met_runtPulseEnd (H : Claims.runtPulseEnd) :
    ((H 159 ⟨7, 0⟩).1 3).1.Met (xtrUp 3 fun x => { x with low := true, edge := some ⟨7, 0⟩, since := 999999981 }) ∧
    ((H 159 ⟨7, 0⟩).1 3).2.Met (xtrUp 3 fun x => { x with low := true, edge := some ⟨7, 0⟩, since := 999999980 }) ∧
    ((H 159 ⟨7, 0⟩).2 1).Met (extUp fun x => { x with level := true, edge := some ⟨7, 0⟩, since := 999999981 }) := by
  delta Acts.Met ActsSo.Met Serves.Met Defers.Met ant ant2 ant3 ant4 ant5 ant6; clear H; decide +kernel

theorem met_cmpTargetLoRead (H : Claims.cmpTargetLoRead) : (H 0 15).Met up := by
  delta Acts.Met ActsSo.Met Serves.Met Defers.Met ant ant2 ant3 ant4 ant5 ant6; clear H; decide +kernel

theorem met_cmpFireLoRead (H : Claims.cmpFireLoRead) : (H 0 15).Met up := by
  delta Acts.Met ActsSo.Met Serves.Met Defers.Met ant ant2 ant3 ant4 ant5 ant6; clear H; decide +kernel

theorem met_trigMergedRead (H : Claims.trigMergedRead) : (H 15).Met up := by
  delta Acts.Met ActsSo.Met Serves.Met Defers.Met ant ant2 ant3 ant4 ant5 ant6; clear H; decide +kernel

theorem met_xtrRuntsRead (H : Claims.xtrRuntsRead) : (H 15).Met up := by
  delta Acts.Met ActsSo.Met Serves.Met Defers.Met ant ant2 ant3 ant4 ant5 ant6; clear H; decide +kernel

theorem met_trigConfig (H : Claims.trigConfig) :
    (H 11).1.Met up (ask 0x320 (trigBytes 11)) ∧
    (H 11).2.Met (trigUp 11 fun t => { t with mode := .holdoff }) (ask 0x320 (trigBytes 11)) := by
  delta Acts.Met ActsSo.Met Serves.Met Defers.Met ant ant2 ant3 ant4 ant5 ant6; clear H; decide +kernel

theorem met_xtrConfig (H : Claims.xtrConfig) :
    ((H.1 3).1).Met up (ask 0x321 (xtrBytes 3)) ∧
    ((H.1 3).2).Met (xtrUp 3 fun x => { x with driving := true }) (ask 0x321 (xtrBytes 3)) ∧
    (H.2 1).Met up (ask 0x321 (xtrBytes 5)) := by
  delta Acts.Met ActsSo.Met Serves.Met Defers.Met ant ant2 ant3 ant4 ant5 ant6; clear H; decide +kernel

theorem met_outputConfigApply (H : Claims.outputConfigApply) :
    ((H ⟨0x320, 11, 0, false, 7, trigBytes 11, 0⟩).1 11).Met { up with owed := [⟨0x320, 11, 0, false, 7, trigBytes 11, 0⟩] } ∧
    ((H ⟨0x321, 3, 0, false, 7, xtrBytes 3, 0⟩).2.1 3).Met { up with owed := [⟨0x321, 3, 0, false, 7, xtrBytes 3, 0⟩] } ∧
    ((H ⟨0x321, 5, 0, false, 7, xtrBytes 5, 0⟩).2.2 1).Met { up with owed := [⟨0x321, 5, 0, false, 7, xtrBytes 5, 0⟩] } := by
  delta Acts.Met ActsSo.Met Serves.Met Defers.Met ant ant2 ant3 ant4 ant5 ant6; clear H; decide +kernel

theorem met_trigFire (H : Claims.trigFire) :
    ant6 (H ((trigUp 11 id).modXtr 3 fun x => { x with cfg := { x.cfg with drive := true } }) 0
      (ask 0x322 (record [(2, 2048), (1, 8), (5, 0)])) (asked 0x322 (record [(2, 2048), (1, 8), (5, 0)]))) := by
  delta Acts.Met ActsSo.Met Serves.Met Defers.Met ant ant2 ant3 ant4 ant5 ant6; clear H; decide +kernel

/-- `up` with a ready LPDDR5X of 8 GiB at 6400 MT/s, and stream 4 of PF0 open. -/
def lpUp : State :=
  { up with weir := { up.weir with store := .available, mts := 6400, gib := 8, fixedFlows := true } }.modStream 4 fun x => { x with
    mode := .opened, cfg := ⟨0x2A, 64, 1, 0, 0, 0, .p, 0, 0, 0xFF, 0, 3000, 64, 1000⟩ }

/-- A hopper of stream 4 in mode `m` with two slots of 64 bytes. -/
def hopUp (m : HopMode) (f : Hop → Hop) : State :=
  lpUp.modHop 15 fun x => f { x with mode := m, stream := some 4, cls := .p, slots := 2, slotBytes := 64, units := 1 }

def bindBytes (stream : Nat) : List Byte :=
  record [(1, 15), (1, stream), (1, 1), (1, 31), (2, 2), (1, 0), (1, 0), (4, 64), (12, 0)]

def armingBytes : List Byte :=
  record [(1, 15), (1, 0), (2, 1), (2, 0), (2, 0), (16, 2 ^ 66), (8, 0), (1, 0xFF), (7, 0), (16, 0), (16, 0), (8, 0)]

def copyBytes : List Byte :=
  record [(1, 15), (1, 1), (2, 0), (2, 1), (1, 63), (9, 0)] ++ hostBuf 0x10000 64 ++ hostBuf 0x20000 128

/-- One entry of a ring. -/
def dotEntry : HopEntry :=
  ⟨⟨4, 0, 0, 0, none, ⟨0, 0⟩, false, ⟨0, 0⟩, 1, 0, 0, 0, 0, 0⟩, 0, 0, ⟨0, 0⟩, List.replicate 64 7, 0⟩

theorem met_hopperBind (H : Claims.hopperBind) :
    (((H 15).1 4 ((dynAlloc 2 15 stageKib lpUp.weir).getD lpUp.weir))).Met lpUp (ask 0x501 (bindBytes 4)) ∧
    ((H 15).2.1).Met (hopUp .bound id) (ask 0x501 (bindBytes 0xFF)) ∧
    ant5 ((H 15).2.2 (hopUp .pending id) 0 (ask 0x501 (bindBytes 0xFF)) (asked 0x501 (bindBytes 0xFF))) := by
  delta Acts.Met ActsSo.Met Serves.Met Defers.Met ant ant2 ant3 ant4 ant5 ant6; clear H; decide +kernel

theorem met_hopperArm (H : Claims.hopperArm) : (H 15 4).Met (hopUp .bound id) (ask 0x502 armingBytes) := by
  delta Acts.Met ActsSo.Met Serves.Met Defers.Met ant ant2 ant3 ant4 ant5 ant6; clear H; decide +kernel

theorem met_hopperDisarm (H : Claims.hopperDisarm) : (H 15).Met (hopUp .armed id) (ask 0x503 [15, 1, 0, 0]) := by
  delta Acts.Met ActsSo.Met Serves.Met Defers.Met ant ant2 ant3 ant4 ant5 ant6; clear H; decide +kernel

theorem met_hopperDisarmQuiet (H : Claims.hopperDisarmQuiet) :
    (H 15 1).1.Met (hopUp .armed fun x => { x with disarming := some 1 }) ∧
    ant ((H 15 1).2 (hopUp .armed id)) := by
  delta Acts.Met ActsSo.Met Serves.Met Defers.Met ant ant2 ant3 ant4 ant5 ant6; clear H; decide +kernel

theorem met_hopperTrigger (H : Claims.hopperTrigger) :
    (H.1).Met (hopUp .armed fun x => { x with trigMask := BitVec.ofNat 128 (2 ^ 66), preDepth := 1 })
      (ask 0x504 (record [(2, 0x8000), (2, 0)])) := by
  delta Acts.Met ActsSo.Met Serves.Met Defers.Met ant ant2 ant3 ant4 ant5 ant6; clear H; decide +kernel

theorem met_hopperStatus (H : Claims.hopperStatus) : (H 15).Met (hopUp .armed id) (ask 0x505 [15, 0, 0, 0]) := by
  delta Acts.Met ActsSo.Met Serves.Met Defers.Met ant ant2 ant3 ant4 ant5 ant6; clear H; decide +kernel

theorem met_hopperCopyout (H : Claims.hopperCopyout) :
    (H 15 63).Met (hopUp .captured fun x => { x with entries := [dotEntry], preDepth := 1, code := 0x42, endAt := some ⟨9, 0⟩ })
      (ask 0x506 copyBytes) := by
  delta Acts.Met ActsSo.Met Serves.Met Defers.Met ant ant2 ant3 ant4 ant5 ant6; clear H; decide +kernel

theorem met_hopperCopyEnd (H : Claims.hopperCopyEnd) :
    (H 15 1).1.Met (hopUp .captured fun x => { x with
      entries := [dotEntry], copy := some ⟨0, 1, 63, 0x10000, false, 0x20000, false, false, 0, 0, false⟩ }) ∧
    (H 15 0).2.Met (hopUp .captured fun x => { x with
      entries := [dotEntry], copy := some ⟨0, 1, 63, 0x10000, false, 0x20000, false, false, 0, 0, false⟩ }) := by
  delta Acts.Met ActsSo.Met Serves.Met Defers.Met ant ant2 ant3 ant4 ant5 ant6; clear H; decide +kernel

theorem met_hopIgnoredRead (H : Claims.hopIgnoredRead) : (H 0 15).Met up := by
  delta Acts.Met ActsSo.Met Serves.Met Defers.Met ant ant2 ant3 ant4 ant5 ant6; clear H; decide +kernel

/-- The payload of a PYRAMID_SUBMIT of kind MONO8, 64 by 2. -/
def pyrBytes (mode job stream : Nat) : List Byte :=
  record [(1, mode), (1, 31), (1, 2), (1, 1), (4, job), (1, 0), (1, 0), (1, 0), (1, if mode = 0 then 0x2A else 0),
    (1, stream), (1, if mode = 0 then 0 else 1), (1, 0), (1, 0), (2, if mode = 0 then 64 else 0), (2, if mode = 0 then 16 else 0),
    (4, if mode = 0 then 64 else 0)] ++
    hostBuf 0x10000 4096 ++ hostBuf 0x20000 65536 ++ record [(2, 2), (2, 0), (4, 4096)]

theorem met_pyramidSubmit (H : Claims.pyramidSubmit) :
    ((H 31).1).Met up (ask 0x601 (pyrBytes 0 9 0)) ∧
    ((H 31).2 5).Met (lpUp.modStream 5 fun x => { x with
      mode := .opened, cfg := ⟨0x2A, 64, 16, 0, 0, 0, .p, 0, 0, 0xFF, 0, 3000, 64, 1000⟩ }) (ask 0x601 (pyrBytes 1 0 5)) := by
  delta Acts.Met ActsSo.Met Serves.Met Defers.Met ant ant2 ant3 ant4 ant5 ant6; clear H; decide +kernel

/-- A stream's binding and a pyramid job. -/
def dotDesc : PyrDesc := ⟨2, true, 0, 0, 0, 0x2A, 64, 2, 64, false⟩
def dotBinding : Binding := ⟨4, 0, 31, dotDesc, .p, 0, 0, 0x20000, 2, 4096, 0, false⟩
def dotJob (pass : Nat) : PyrJob := ⟨9, 0, 31, none, dotDesc, none, 0, 0x20000, true, false, pass, none, false, 0, false⟩
def pyrUp (pass : Nat) : State := up.modPrep fun e => { e with jobs := [dotJob pass], bindings := [dotBinding] }

theorem met_pyramidCancel (H : Claims.pyramidCancel) :
    (H 31).1.Met (pyrUp 1) (ask 0x602 (record [(1, 0), (1, 31), (2, 0), (4, 9)])) ∧
    ((H 31).2.1 4).Met (pyrUp 1) (ask 0x602 (record [(1, 1), (1, 31), (1, 4), (1, 0), (4, 0)])) ∧
    ant ((H 31).2.2 (pyrUp 1) 0 8) := by
  delta Acts.Met ActsSo.Met Serves.Met Defers.Met ant ant2 ant3 ant4 ant5 ant6; clear H; decide +kernel

theorem met_pyramidPassEnd (H : Claims.pyramidPassEnd) :
    ((H (.data (List.replicate 128 7)) ⟨0, none⟩ 0 (dotJob 1)).1 [List.replicate 64 7, List.replicate 64 7] rfl rfl).Met
      (pyrUp 1) ∧
    ((H (.data (List.replicate 4096 7)) ⟨0, some 0⟩ 0 (dotJob 2)).2.1
      (levelIn dotDesc 1 (List.replicate 4096 7)) (by decide) (by decide)).Met (pyrUp 2) ∧
    (H .failed ⟨0, none⟩ 0 (dotJob 1)).2.2.Met (pyrUp 1) := by
  delta Acts.Met ActsSo.Met Serves.Met Defers.Met ant ant2 ant3 ant4 ant5 ant6; clear H; decide +kernel

theorem met_pyrDroppedRead (H : Claims.pyrDroppedRead) : (H 15).Met up := by
  delta Acts.Met ActsSo.Met Serves.Met Defers.Met ant ant2 ant3 ant4 ant5 ant6; clear H; decide +kernel

def decBytes : List Byte := record [(1, 31), (3, 0), (4, 9)] ++ hostBuf 0x10000 1 ++ hostBuf 0x20000 64

theorem met_decodeSubmit (H : Claims.decodeSubmit) : (H 31).Met up (ask 0x610 decBytes) := by
  delta Acts.Met ActsSo.Met Serves.Met Defers.Met ant ant2 ant3 ant4 ant5 ant6; clear H; decide +kernel

def dotDecode : DecJob := ⟨9, 0, 31, (0x10000, false, 1), (0x20000, false, 64), false⟩

theorem met_decodeCancel (H : Claims.decodeCancel) :
    (H 31 dotDecode 0).1.Met (up.modPrep fun e => { e with decRun := some dotDecode })
      (ask 0x611 (record [(1, 0), (1, 31), (2, 0), (4, 9)])) ∧
    (H 31 dotDecode 0).2.Met (up.modPrep fun e => { e with decQueue := [dotDecode] })
      (ask 0x611 (record [(1, 0), (1, 31), (2, 0), (4, 9)])) := by
  delta Acts.Met ActsSo.Met Serves.Met Defers.Met ant ant2 ant3 ant4 ant5 ant6; clear H; decide +kernel

theorem met_decodeJobEnd (H : Claims.decodeJobEnd) :
    ((H (.data [5]) ⟨0, none⟩ dotDecode [5]).1 rfl (by decide +kernel)).Met
      (up.modPrep fun e => { e with decRun := some dotDecode }) ∧
    ((H (.data [0x1F]) ⟨0, none⟩ dotDecode [0x1F]).2.1 rfl (by decide +kernel)).Met
      (up.modPrep fun e => { e with decRun := some dotDecode }) ∧
    (H .failed ⟨0, none⟩ dotDecode []).2.2.Met (up.modPrep fun e => { e with decRun := some dotDecode }) := by
  delta Acts.Met ActsSo.Met Serves.Met Defers.Met ant ant2 ant3 ant4 ant5 ant6; clear H; decide +kernel

theorem met_prepQuiet (H : Claims.prepQuiet) :
    (H 15 0 ⟨15, 3, 4, 1⟩).Met (up.modPrep fun e => { e with ended := [⟨15, 3, 4, 1⟩] }) := by
  delta Acts.Met ActsSo.Met Serves.Met Defers.Met ant ant2 ant3 ant4 ant5 ant6; clear H; decide +kernel

theorem met_engineStallReset (H : Claims.engineStallReset) :
    (H.1).Met (pyrUp 1) ∧
    (H.2.1).Met (up.modPrep fun e => { e with decRun := some dotDecode }) ∧
    (H.2.2).Met (up.modAudio 1 fun x => { x with mode := .running, hopStart := some ⟨7, 0⟩ }) := by
  delta Acts.Met ActsSo.Met Serves.Met Defers.Met ant ant2 ant3 ant4 ant5 ant6; clear H; decide +kernel

def audBytes (enable : Nat) : List Byte := record [(1, 1), (1, enable), (1, 1), (1, 8), (1, 32), (1, 24), (1, 7), (1, 255), (8, 0)]

theorem met_audioConfig (H : Claims.audioConfig) :
    (H 1).1.Met up (ask 0x620 (audBytes 1)) ∧ ant ((H 1).2 up (audCfgOf (audBytes 1))) := by
  delta Acts.Met ActsSo.Met Serves.Met Defers.Met ant ant2 ant3 ant4 ant5 ant6; clear H; decide +kernel

/-- An input with eight slots. -/
def audUp (m : AudMode) (f : Audio → Audio) : State :=
  (aged up).modAudio 1 fun x => f { x with mode := m, cfg := audCfgOf (audBytes 1), nextMask := 255 }

theorem met_audioRoute (H : Claims.audioRoute) :
    (H 1).1.Met (audUp .running fun x => { x with route := some ⟨0, 3, 1, 16, 0x1000, false⟩ })
      (ask 0x621 (record [(1, 1), (1, 0xFF), (30, 0)])) ∧
    ((H 1).2 31).Met (audUp .running id)
      (ask 0x621 (record [(1, 1), (1, 31), (1, 255), (1, 0), (4, 16)] ++ hostBuf 0x10000 2048 ++ record [(8, 0)])) := by
  delta Acts.Met ActsSo.Met Serves.Met Defers.Met ant ant2 ant3 ant4 ant5 ant6; clear H; decide +kernel

/-- The stamp of the frame before, one period of 48 kHz ago. -/
def fsBefore : Held := ⟨255994666667, 0⟩

theorem met_audioFrame (H : Claims.audioFrame) :
    (H 1 (-7) 0 [1, -1]).1.Met (audUp .running fun x => { x with frames := List.replicate 479 [0, 0] }) ∧
    (H 1 0 0 [1, -1]).2.1.Met (audUp .acquire fun x => { x with good := 14, lastFs := some fsBefore }) ∧
    (H 1 0 0 [1, -1]).2.2.1.Met (audUp .lost fun x => { x with good := 14, lastFs := some ⟨7, 0⟩ }) ∧
    (H 1 0 0 [1, -1]).2.2.2.1.Met (audUp .acquire fun x => { x with good := 15, lastFs := some fsBefore }) ∧
    (H 1 0 0 [1, -1]).2.2.2.2.Met (audUp .lost fun x => { x with good := 15, lastFs := some fsBefore }) := by
  delta Acts.Met ActsSo.Met Serves.Met Defers.Met ant ant2 ant3 ant4 ant5 ant6; clear H; decide +kernel

theorem met_audioLossTimeout (H : Claims.audioLossTimeout) :
    (H 1 ⟨7, 0⟩).Met (audUp .running fun x => { x with lastFs := some ⟨7, 0⟩ }) := by
  delta Acts.Met ActsSo.Met Serves.Met Defers.Met ant ant2 ant3 ant4 ant5 ant6; clear H; decide +kernel

theorem met_audioHop (H : Claims.audioHop) :
    (H 1).Met (audUp .running fun x => { x with frames := List.replicate 480 [0, 0] }) := by
  delta Acts.Met ActsSo.Met Serves.Met Defers.Met ant ant2 ant3 ant4 ant5 ant6; clear H; decide +kernel

theorem met_audioRecordsWritten (H : Claims.audioRecordsWritten) :
    (H 1 ⟨false, 0, []⟩).Met (audUp .running fun x => { x with ready := some ⟨false, 0, []⟩ }) := by
  delta Acts.Met ActsSo.Met Serves.Met Defers.Met ant ant2 ant3 ant4 ant5 ant6; clear H; decide +kernel

/-- `up` with Weir changed, its LPDDR5X of 8 GiB available. -/
def weirUp (f : Weir → Weir) : State :=
  up.modWeir fun w => f { w with store := .available, mts := 6400, gib := 8, fixedFlows := true, scrubPeriodH := 24 }

def dotFlow : Flow := ⟨1, 4, 0, .p, 0, .millpond, 1000, 0, 0, false, some 7⟩

theorem met_thermalSample (H : Claims.thermalSample) :
    (H 1520).1.Met up ∧ (H 1600).2.Met up := by
  delta Acts.Met ActsSo.Met Serves.Met Defers.Met ant ant2 ant3 ant4 ant5 ant6; clear H; decide +kernel

theorem met_fullRetrainRequest (H : Claims.fullRetrainRequest) :
    (H .temperature).Met (weirUp id) ∧
    (H .eccBurst).Met (weirUp fun w => { w with ueTimes := List.replicate 16 900000000 }) := by
  delta Acts.Met ActsSo.Met Serves.Met Defers.Met ant ant2 ant3 ant4 ant5 ant6; clear H; decide +kernel

theorem met_weirDrainEnd (H : Claims.weirDrainEnd) : H.Met (weirUp fun w => { w with store := .draining }) := by
  delta Acts.Met ActsSo.Met Serves.Met Defers.Met ant ant2 ant3 ant4 ant5 ant6; clear H; decide +kernel

theorem met_weirDrainTimeout (H : Claims.weirDrainTimeout) :
    (H 980000000).Met (weirUp fun w => { w with store := .draining, drainFrom := some 980000000 }) := by
  delta Acts.Met ActsSo.Met Serves.Met Defers.Met ant ant2 ant3 ant4 ant5 ant6; clear H; decide +kernel

theorem met_retrainDone (H : Claims.retrainDone) : H.Met (weirUp fun w => { w with store := .retraining }) := by
  delta Acts.Met ActsSo.Met Serves.Met Defers.Met ant ant2 ant3 ant4 ant5 ant6; clear H; decide +kernel

theorem met_shortRetrain (H : Claims.shortRetrain) : H.Met (weirUp id) := by
  delta Acts.Met ActsSo.Met Serves.Met Defers.Met ant ant2 ant3 ant4 ant5 ant6; clear H; decide +kernel

theorem met_controllerStall (H : Claims.controllerStall) :
    H.1.Met (weirUp id) ∧ H.2.Met (weirUp fun w => { w with store := .draining }) := by
  delta Acts.Met ActsSo.Met Serves.Met Defers.Met ant ant2 ant3 ant4 ant5 ant6; clear H; decide +kernel

theorem met_serveRestoreTimer (H : Claims.serveRestoreTimer) :
    (H 1 4 7 dotFlow).Met (weirUp fun w => { w with flows := [dotFlow] }) := by
  delta Acts.Met ActsSo.Met Serves.Met Defers.Met ant ant2 ant3 ant4 ant5 ant6; clear H; decide +kernel

theorem met_sFaultClearTimer (H : Claims.sFaultClearTimer) :
    (H 980000000).Met (weirUp fun w => { w with sFault := true, sCoverFrom := some 980000000 }) := by
  delta Acts.Met ActsSo.Met Serves.Met Defers.Met ant ant2 ant3 ant4 ant5 ant6; clear H; decide +kernel

theorem met_scrubBurst (H : Claims.scrubBurst) :
    H.1.Met (weirUp fun w => { w with scrubPos := 8 * 2 ^ 25 - 2 }) ∧
    H.2.1.Met (weirUp fun w => { w with scrubNow := true }) ∧
    H.2.2.1.Met (weirUp fun w => { w with scrubPos := 8 * 2 ^ 25 - 1 }) ∧
    H.2.2.2.1.Met (weirUp fun w => { w with scrubPos := 8 * 2 ^ 25 - 2 }) ∧
    H.2.2.2.2.1.Met (weirUp fun w => { w with scrubNow := true }) ∧
    (H.2.2.2.2.2 .clean).Met (weirUp fun w => { w with scrubFrom := some 999999999 }) := by
  delta Acts.Met ActsSo.Met Serves.Met Defers.Met ant ant2 ant3 ant4 ant5 ant6; clear H; decide +kernel

theorem met_weirShedRead (H : Claims.weirShedRead) : (H 15).Met up := by
  delta Acts.Met ActsSo.Met Serves.Met Defers.Met ant ant2 ant3 ant4 ant5 ant6; clear H; decide +kernel

theorem met_weirEccAddrLoRead (H : Claims.weirEccAddrLoRead) : (H 15).Met up := by
  delta Acts.Met ActsSo.Met Serves.Met Defers.Met ant ant2 ant3 ant4 ant5 ant6; clear H; decide +kernel

theorem met_weirStatus (H : Claims.weirStatus) : H.Met (weirUp id) (ask 0x701 []) := by
  delta Acts.Met ActsSo.Met Serves.Met Defers.Met ant ant2 ant3 ant4 ant5 ant6; clear H; decide +kernel

theorem met_weirShedOrder (H : Claims.weirShedOrder) :
    (H fun f => f).Met up (ask 0x702 (record [(8, 0x0706050403020100), (8, 0x0F0E0D0C0B0A0908), (2, 0xFFFF), (6, 0)])) := by
  delta Acts.Met ActsSo.Met Serves.Met Defers.Met ant ant2 ant3 ant4 ant5 ant6; clear H; decide +kernel

def checkBytes (kbps : Nat) : List Byte := record [(1, 1), (1, 1), (1, 0), (1, 0), (4, kbps), (4, 0)]

theorem met_weirCheck (H : Claims.weirCheck) :
    H.1.Met up (ask 0x703 (checkBytes 245760000)) ∧ H.2.Met up (ask 0x703 (checkBytes 245760001)) := by
  delta Acts.Met ActsSo.Met Serves.Met Defers.Met ant ant2 ant3 ant4 ant5 ant6; clear H; decide +kernel

theorem met_weirScrub (H : Claims.weirScrub) : H.Met up (ask 0x704 (record [(2, 720), (1, 1), (5, 0)])) := by
  delta Acts.Met ActsSo.Met Serves.Met Defers.Met ant ant2 ant3 ant4 ant5 ant6; clear H; decide +kernel

/-- An event and the entry of one like it. -/
def dotEvent : Event := ⟨0x2001, 255, 1, 7, 1⟩
def dotLogEntry (code sequence : Nat) : LogEntry :=
  ⟨code, 0, false, false, false, false, BitVec.ofNat 32 sequence, 5, 5, 1, 255, 1, 7⟩

theorem met_eventLogged (H : Claims.eventLogged) :
    ((H dotEvent []).1 0).Met (up.modLog fun g => { g with collector := [dotEvent], entries := [dotLogEntry 0x2001 1] }) ∧
    ((H dotEvent []).2).Met (up.modLog fun g => { g with collector := [dotEvent] }) := by
  delta Acts.Met ActsSo.Met Serves.Met Defers.Met ant ant2 ant3 ant4 ant5 ant6; clear H; decide +kernel

theorem met_mirrorTimer (H : Claims.mirrorTimer) :
    H.Met (up.modLog fun g => { g with newSinceMirror := true, faultSinceMirror := true }) := by
  delta Acts.Met ActsSo.Met Serves.Met Defers.Met ant ant2 ant3 ant4 ant5 ant6; clear H; decide +kernel

theorem met_logMirrorDone (H : Claims.logMirrorDone) :
    (H.1 1 (by decide) (by decide)).Met (up.modLog fun g => { g with mirroring := some 1 }) ∧
    (H.2.1).Met (up.modLog fun g => { g with mirroring := some 2 }) ∧
    (H.2.2).Met (up.modLog fun g => { g with mirroring := some 3 }) := by
  delta Acts.Met ActsSo.Met Serves.Met Defers.Met ant ant2 ant3 ant4 ant5 ant6; clear H; decide +kernel

theorem met_logRead (H : Claims.logRead) :
    H.1.Met (up.modLog fun g => { g with entries := [dotLogEntry 0x2001 2, dotLogEntry 0x2002 1] })
      (ask 0xC01 (record [(4, 2), (2, 1024), (1, 0), (1, 0)] ++ hostBuf 0x10000 32768)) ∧
    H.2.Met (up.modLog fun g => { g with entries := [dotLogEntry 0x2001 2, dotLogEntry 0x2002 1] })
      (ask 0xC01 (record [(4, 3), (2, 1024), (1, 0), (1, 0)] ++ hostBuf 0x10000 32768)) := by
  delta Acts.Met ActsSo.Met Serves.Met Defers.Met ant ant2 ant3 ant4 ant5 ant6; clear H; decide +kernel

theorem met_logClear (H : Claims.logClear) :
    H.1.Met (up.modLog fun g => { g with entries := [dotLogEntry 0x2001 1] }) (ask 0xC02 [0, 0, 0, 0]) ∧ ant (H.2 up) := by
  delta Acts.Met ActsSo.Met Serves.Met Defers.Met ant ant2 ant3 ant4 ant5 ant6; clear H; decide +kernel

theorem met_faultAck (H : Claims.faultAck) :
    (H.1).Met (up.modLog fun g => { g with faults := [⟨0x2001, 255, 1, 1, 1⟩] })
      (ask 0xC03 (record [(4, 0xFFFFFFFF), (4, 0)])) ∧
    (H.2.1 1 (by decide)).Met (up.modLog fun g => { g with faults := [⟨0x2001, 255, 1, 1, 1⟩] })
      (ask 0xC03 (record [(4, 1), (4, 0)])) := by
  delta Acts.Met ActsSo.Met Serves.Met Defers.Met ant ant2 ant3 ant4 ant5 ant6; clear H; decide +kernel

theorem met_faultStatus (H : Claims.faultStatus) : H.Met up (ask 0xC04 []) := by
  delta Acts.Met ActsSo.Met Serves.Met Defers.Met ant ant2 ant3 ant4 ant5 ant6; clear H; decide +kernel

theorem met_logFilter (H : Claims.logFilter) : H.Met up (ask 0xC05 [0xFE, 0x0F, 0, 0]) := by
  delta Acts.Met ActsSo.Met Serves.Met Defers.Met ant ant2 ant3 ant4 ant5 ant6; clear H; decide +kernel

theorem met_deviceReset (H : Claims.deviceReset) :
    ant4 (H up 0 (ask 8 (record [(4, 0x4C565253), (1, 1), (3, 0)])) (asked 8 (record [(4, 0x4C565253), (1, 1), (3, 0)]))) ∧
    fld (asked 8 (record [(4, 0x4C565253), (1, 1), (3, 0)])).payload 4 1 = 1 ∧
    ant4 (H up 0 (ask 8 (record [(4, 0x4C565253), (1, 0), (3, 0)])) (asked 8 (record [(4, 0x4C565253), (1, 0), (3, 0)]))) ∧
    fld (asked 8 (record [(4, 0x4C565253), (1, 0), (3, 0)])).payload 4 1 = 0 := by
  delta Acts.Met ActsSo.Met Serves.Met Defers.Met ant ant2 ant3 ant4 ant5 ant6; clear H; decide +kernel

theorem met_logLostRead (H : Claims.logLostRead) : H.Met up := by
  delta Acts.Met ActsSo.Met Serves.Met Defers.Met ant ant2 ant3 ant4 ant5 ant6; clear H; decide +kernel

theorem met_logFilteredRead (H : Claims.logFilteredRead) : H.Met up := by
  delta Acts.Met ActsSo.Met Serves.Met Defers.Met ant ant2 ant3 ant4 ant5 ant6; clear H; decide +kernel

/-- `up` with the watchdog armed. -/
def guarded (last : Nat) : State := up.modPower fun p => { p with wdtArmed := true, wdtLast := last }

theorem met_watchdogService (H : Claims.watchdogService) :
    H.1.Met (guarded 970000000) ∧ H.2.Met (guarded 969999999) := by
  delta Acts.Met ActsSo.Met Serves.Met Defers.Met ant ant2 ant3 ant4 ant5 ant6; clear H; decide +kernel

theorem met_watchdogExpiry (H : Claims.watchdogExpiry) :
    H.1.Met (guarded 955000000) ∧
    H.2.Met ((guarded 0).modPower fun p => { p with wdtHalt := some 7 }) := by
  delta Acts.Met ActsSo.Met Serves.Met Defers.Met ant ant2 ant3 ant4 ant5 ant6; clear H; decide +kernel

theorem met_lockstepMismatch (H : Claims.lockstepMismatch) : H.Met up := by
  delta Acts.Met ActsSo.Met Serves.Met Defers.Met ant ant2 ant3 ant4 ant5 ant6; clear H; decide +kernel

theorem met_resetNAssert (H : Claims.resetNAssert) : H.Met up := by
  delta Acts.Met ActsSo.Met Serves.Met Defers.Met ant ant2 ant3 ant4 ant5 ant6; clear H; decide +kernel

theorem met_resetNRelease (H : Claims.resetNRelease) :
    H.Met (up.modPower fun p => { p with resetHeld := [.resetN], resetNLow := true }) := by
  delta Acts.Met ActsSo.Met Serves.Met Defers.Met ant ant2 ant3 ant4 ant5 ant6; clear H; decide +kernel

theorem met_supplyFault (H : Claims.supplyFault) :
    H.1.Met up ∧ H.2.Met (up.modPower fun p => { p with pwrEn := false }) := by
  delta Acts.Met ActsSo.Met Serves.Met Defers.Met ant ant2 ant3 ant4 ant5 ant6; clear H; decide +kernel

theorem met_fullResetRelease (H : Claims.fullResetRelease) :
    H.Met (up.modPower fun p => { p with state := .starting, resetHeld := [.watchdog], releaseAt := some 7 }) := by
  delta Acts.Met ActsSo.Met Serves.Met Defers.Met ant ant2 ant3 ant4 ant5 ant6; clear H; decide +kernel

/-- The payload of a WITNESS_CONFIG: one input of each ADC, all DW lines, 8 KiB, one unit. -/
def witBytes (bytes : Nat) : List Byte :=
  record [(2, 0x0101), (2, 0xFFFF), (2, 1), (1, 4), (1, 0xFF), (4, 1), (4, bytes), (4, 4096), (12, 0)] ++ List.replicate 128 0

/-- A configured sampler in mode `m`. -/
def witUp (m : WitMode) (f : Wit → Wit) : State :=
  (aged up).modWit fun w => f { w with mode := m, cfg := witCfgOf (witBytes 8192) }

def witArmBytes : List Byte := record [(4, 1), (4, 1), (1, 1), (7, 0), (16, 0), (8, 0)]

theorem met_instanceQuiesce (H : Claims.instanceQuiesce) : H.Met up (ask 0x103 [255, 0]) := by
  delta Acts.Met ActsSo.Met Serves.Met Defers.Met ant ant2 ant3 ant4 ant5 ant6; clear H; decide +kernel

theorem met_instanceQuiesceDone (H : Claims.instanceQuiesceDone) :
    (H 15 3).Met (up.modFn 15 fun f => { f with quiesce := some ⟨[], 3⟩ }) := by
  delta Acts.Met ActsSo.Met Serves.Met Defers.Met ant ant2 ant3 ant4 ant5 ant6; clear H; decide +kernel

theorem met_witnessConfig (H : Claims.witnessConfig) :
    (H ((dynAlloc 7 0 8 (dynFree 7 0 up.weir)).getD up.weir)).1.Met up (ask 0x901 (witBytes 8192)) ∧
    (H up.weir).2.Met up (ask 0x901 (witBytes 0)) := by
  delta Acts.Met ActsSo.Met Serves.Met Defers.Met ant ant2 ant3 ant4 ant5 ant6; clear H; decide +kernel

theorem met_witnessArm (H : Claims.witnessArm) : H.Met (witUp .captured id) (ask 0x902 witArmBytes) := by
  delta Acts.Met ActsSo.Met Serves.Met Defers.Met ant ant2 ant3 ant4 ant5 ant6; clear H; decide +kernel

theorem met_witnessDisarm (H : Claims.witnessDisarm) :
    H.1.Met (witUp .triggered id) (ask 0x903 [1, 0, 0, 0]) ∧
    H.2.1.Met (witUp .pending id) (ask 0x903 [0, 0, 0, 0]) ∧
    H.2.2.1.Met (witUp .armed id) (ask 0x903 [2, 0, 0, 0]) ∧
    H.2.2.2.Met (witUp .triggered id) (ask 0x903 [2, 0, 0, 0]) := by
  delta Acts.Met ActsSo.Met Serves.Met Defers.Met ant ant2 ant3 ant4 ant5 ant6; clear H; decide +kernel

theorem met_witnessQuiet (H : Claims.witnessQuiet) :
    H.1.Met (witUp .armed fun w => { w with disarm := some (0, false) }) ∧
    H.2.1.Met (witUp .triggered fun w => { w with disarm := some (1, false) }) ∧
    (H.2.2 0).Met (witUp .configured fun w => { w with disarm := some (0, true) }) := by
  delta Acts.Met ActsSo.Met Serves.Met Defers.Met ant ant2 ant3 ant4 ant5 ant6; clear H; decide +kernel

theorem met_witnessStatus (H : Claims.witnessStatus) : H.Met (witUp .armed id) (ask 0x904 []) := by
  delta Acts.Met ActsSo.Met Serves.Met Defers.Met ant ant2 ant3 ant4 ant5 ant6; clear H; decide +kernel

theorem met_witnessRoute (H : Claims.witnessRoute) :
    H.1.Met (witUp .armed id) (ask 0x905 (record [(1, 0xFF), (39, 0)])) ∧
    (H.2 31).Met (witUp .armed id) (ask 0x905 (record [(1, 31), (1, 1), (2, 0), (4, 256), (4, 8320), (4, 0)] ++
      hostBuf 0x10000 2129920 ++ record [(8, 0)])) := by
  delta Acts.Met ActsSo.Met Serves.Met Defers.Met ant ant2 ant3 ant4 ant5 ant6; clear H; decide +kernel

theorem met_adcConversion (H : Claims.adcConversion) :
    (H 4095 0 0 8 0).1.Met (witUp .pending fun w => { w with cfg := { w.cfg with units := [] } }) ∧
    (H 4095 0 0 8 0).2.1.Met (witUp .armed fun w => { w with cfg := { w.cfg with units := [] }, fifo := 2045 }) ∧
    ((H 4095 0 0 8 0).2.2 none none).Met (witUp .armed fun w => { w with appliedAt := 999999999 }) := by
  delta Acts.Met ActsSo.Met Serves.Met Defers.Met ant ant2 ant3 ant4 ant5 ant6; clear H; decide +kernel

/-- An armed sampler with these edges in the TDC. -/
def edgeUp (tdc : List TdcStamp) : State := { witUp .armed id with clk := { (witUp .armed id).clk with tdc := tdc } }

theorem met_dwEdge (H : Claims.dwEdge) :
    (H 15 ⟨true, 159⟩ ⟨256000001272, 0⟩).1.Met (edgeUp []) ∧
    (H 15 ⟨true, 159⟩ Held.zero).2.1.Met (edgeUp [⟨.dw 15, 1000000000⟩]) ∧
    (H 15 ⟨true, 159⟩ Held.zero).2.2.1.Met (edgeUp (List.replicate 64 ⟨.dw 14, 999999999⟩)) ∧
    (H 15 ⟨true, 159⟩ Held.zero).2.2.2.1.Met up ∧
    (H 15 ⟨true, 0⟩ Held.zero).2.2.2.2.Met (up.modWit fun w => { w with raw := w.raw.set 15 ⟨true, 7, none⟩ }) := by
  delta Acts.Met ActsSo.Met Serves.Met Defers.Met ant ant2 ant3 ant4 ant5 ant6; clear H; decide +kernel

/-- A TIMEOUT unit on DW15. -/
def dotUnit : WitUnit := ⟨4, 31, false, false, 0, 0, 100, 0⟩

theorem met_witnessUnitTimeout (H : Claims.witnessUnitTimeout) :
    (H 7 dotUnit ⟨0, 0⟩).Met (witUp .configured fun w => { w with
      cfg := { w.cfg with units := List.replicate 8 dotUnit }, tracks := w.tracks.set 7 ⟨some true, some ⟨0, 0⟩, none, false, none, false⟩ }) := by
  delta Acts.Met ActsSo.Met Serves.Met Defers.Met ant ant2 ant3 ant4 ant5 ant6; clear H; decide +kernel

theorem met_witnessCaptureEnd (H : Claims.witnessCaptureEnd) :
    (H.1).Met (witUp .triggered fun w => { w with
      arm := witArmOf witArmBytes, trig := some ⟨0x50, ⟨7, 0⟩, 0, 3, 0, 0, none, 0⟩, ticks := [⟨4, ⟨7, 0⟩, 0, []⟩] }) := by
  delta Acts.Met ActsSo.Met Serves.Met Defers.Met ant ant2 ant3 ant4 ant5 ant6; clear H; decide +kernel

theorem met_witnessDeliveryEnd (H : Claims.witnessDeliveryEnd) :
    (H ⟨31, 256, 8320, 0x10000, false⟩).1.Met (witUp .captured fun w => { w with
      delivering := true, route := some ⟨31, 256, 8320, 0x10000, false⟩ }) ∧
    (H ⟨31, 256, 8320, 0x10000, false⟩).2.Met (witUp .captured fun w => { w with
      delivering := true, route := some ⟨31, 256, 8320, 0x10000, false⟩ }) := by
  delta Acts.Met ActsSo.Met Serves.Met Defers.Met ant ant2 ant3 ant4 ant5 ant6; clear H; decide +kernel

theorem met_witIgnoredRead (H : Claims.witIgnoredRead) : (H 15).Met up := by
  delta Acts.Met ActsSo.Met Serves.Met Defers.Met ant ant2 ant3 ant4 ant5 ant6; clear H; decide +kernel

/-- An instruction of sixteen bytes. -/
def insn (head : List Byte) : List Byte := padTo 16 head

/-- A programme of an instruction and END. -/
def dotProgramme (b : List Byte) : List Byte := b ++ insn [0x0F]

/-- Channel 63 of PF0, its door open with queue 31, its programme `b` and END, changed by `f`. -/
def chanUp (b : List Byte) (f : Chan → Chan) : State :=
  { withQueue 31 up with weir := { up.weir with grantKib := 64 } }.modChan 63 fun x => f { x with
    mode := .loaded, enabled := true, queue := 31, programme := dotProgramme b, depths := [0, 0] }

/-- It runs that programme. -/
def chanRuns (b : List Byte) (f : Chan → Chan) : State := chanUp b fun x => f { x with mode := .running }

def loadBytes (n : Nat) : List Byte := record [(1, 63), (1, 0), (2, n), (4, 0)] ++ hostBuf 0x10000 32

theorem met_chanLoad (H : Claims.chanLoad) :
    ((H 63 (.data (dotProgramme (insn [0x0A]))) (dotProgramme (insn [0x0A]))).1 [0, 0]).Met (chanUp [] id)
      (ask 0x801 (loadBytes 2)) ∧
    ((H 63 (.data (dotProgramme (insn [4]))) (dotProgramme (insn [4]))).2.1 0 4).Met (chanUp [] id)
      (ask 0x801 (loadBytes 2)) ∧
    ((H 63 .failed []).2.2.1).Met (chanUp [] id) (ask 0x801 (loadBytes 2)) ∧
    ((H 63 .failed []).2.2.2).Met (chanUp [] id) (ask 0x801 (loadBytes 0)) := by
  delta Acts.Met ActsSo.Met Serves.Met Defers.Met ant ant2 ant3 ant4 ant5 ant6; clear H; decide +kernel

def chanCfgBytes (enable : Nat) : List Byte := record [(1, 63), (1, enable), (1, 31), (1, 0), (2, 256), (2, 0)]

theorem met_chanConfig (H : Claims.chanConfig) :
    (H 63 31).1.Met (chanUp [] fun x => { x with enabled := false, queue := 0xFF }) (ask 0x802 (chanCfgBytes 1)) ∧
    (H 63 31).2.Met (chanUp [] id) (ask 0x802 (chanCfgBytes 0)) := by
  delta Acts.Met ActsSo.Met Serves.Met Defers.Met ant ant2 ant3 ant4 ant5 ant6; clear H; decide +kernel

theorem met_chanQuiet (H : Claims.chanQuiet) :
    (H 63 3 31).Met (chanUp [] fun x => { x with enabled := false, quietOwed := some 3 }) := by
  delta Acts.Met ActsSo.Met Serves.Met Defers.Met ant ant2 ant3 ant4 ant5 ant6; clear H; decide +kernel

theorem met_chanSignalMap (H : Claims.chanSignalMap) :
    (H 63).Met (chanUp [] id) (ask 0x803 (record [(1, 63), (3, 0), (1, 1), (1, 0), (2, 0), (1, 2), (1, 62), (2, 0),
      (1, 3), (1, 31), (2, 0), (1, 4), (1, 15), (2, 0), (1, 5), (1, 15), (2, 0), (12, 0)])) := by
  delta Acts.Met ActsSo.Met Serves.Met Defers.Met ant ant2 ant3 ant4 ant5 ant6; clear H; decide +kernel

theorem met_chanGo (H : Claims.chanGo) :
    (H 0 63 0 31).1.Met (chanUp [] id) ∧
    (H 0 63 1 31).2.1.Met (chanUp [] fun x => { x with mode := .halted, queued := List.replicate 15 (0, 7) }) ∧
    (H 0 63 0 31).2.2.1.Met up := by
  delta Acts.Met ActsSo.Met Serves.Met Defers.Met ant ant2 ant3 ant4 ant5 ant6; clear H; decide +kernel

theorem met_chanStop (H : Claims.chanStop) :
    (H 0 63).1.Met (chanRuns (insn [1]) id) ∧ (H 0 63).2.Met (chanUp [] fun x => { x with mode := .waiting }) := by
  delta Acts.Met ActsSo.Met Serves.Met Defers.Met ant ant2 ant3 ant4 ant5 ant6; clear H; decide +kernel

theorem met_chanFlush (H : Claims.chanFlush) :
    (H 0 63).Met (chanRuns [] fun x => { x with queued := [(0, 7), (1, 8)] }) := by
  delta Acts.Met ActsSo.Met Serves.Met Defers.Met ant ant2 ant3 ant4 ant5 ant6; clear H; decide +kernel

theorem met_chanRetry (H : Claims.chanRetry) : (H 0 63).Met (chanUp [] fun x => { x with mode := .halted }) := by
  delta Acts.Met ActsSo.Met Serves.Met Defers.Met ant ant2 ant3 ant4 ant5 ant6; clear H; decide +kernel

theorem met_chanSkip (H : Claims.chanSkip) : (H 0 63).Met (chanUp [] fun x => { x with mode := .halted }) := by
  delta Acts.Met ActsSo.Met Serves.Met Defers.Met ant ant2 ant3 ant4 ant5 ant6; clear H; decide +kernel

theorem met_chanKick (H : Claims.chanKick) :
    (H 0 63 0x00010007).1.Met (chanUp [] fun x => { x with slots := x.slots.set 7 ⟨1, 0, 65534⟩ }) ∧
    (H 0 63 0x00010007).2.Met (chanUp [] fun x => { x with slots := x.slots.set 7 ⟨0, 0, 0⟩ }) := by
  delta Acts.Met ActsSo.Met Serves.Met Defers.Met ant ant2 ant3 ant4 ant5 ant6; clear H; decide +kernel

theorem met_chanBytesLoRead (H : Claims.chanBytesLoRead) : (H 0 63).Met (chanUp [] id) := by
  delta Acts.Met ActsSo.Met Serves.Met Defers.Met ant ant2 ant3 ant4 ant5 ant6; clear H; decide +kernel

def hostPtr : Ptr := ⟨0, 0x1000⟩
def moveInsn : List Byte := insn [1, 1, 0x10, 0x44, 64, 0, 0, 0]

theorem met_move (H : Claims.move) :
    (H 63 (List.replicate 64 7) moveInsn hostPtr ⟨1, BitVec.ofNat 64 grantBase⟩ 1).1.Met
      (chanRuns moveInsn fun x => { x with
        ptrs := (x.ptrs.set 0 hostPtr).set 1 ⟨1, BitVec.ofNat 64 grantBase⟩ }) ∧
    ((H 63 (List.replicate 64 7) moveInsn hostPtr hostPtr 0).2 ⟨2, 63⟩ (by decide) (by decide) (by decide +kernel)).Met
      (chanRuns moveInsn fun x => { x with ptrs := (x.ptrs.set 0 hostPtr).set 1 hostPtr }) := by
  delta Acts.Met ActsSo.Met Serves.Met Defers.Met ant ant2 ant3 ant4 ant5 ant6; clear H; decide +kernel

def move2dInsn : List Byte := insn [2, 2, 0x10, 0x00, 0x10]

theorem met_move2d (H : Claims.move2d) :
    (H 63 (List.replicate 64 7) move2dInsn hostPtr ⟨1, BitVec.ofNat 64 grantBase⟩ ⟨32, 2, 100⟩ ⟨16, 4, 16⟩ 1).Met
      (chanRuns move2dInsn fun x => { x with
        ptrs := (x.ptrs.set 0 hostPtr).set 1 ⟨1, BitVec.ofNat 64 grantBase⟩,
        shapes := (x.shapes.set 0 ⟨32, 2, 100⟩).set 1 ⟨16, 4, 16⟩ }) := by
  delta Acts.Met ActsSo.Met Serves.Met Defers.Met ant ant2 ant3 ant4 ant5 ant6; clear H; decide +kernel

theorem met_loop (H : Claims.loop) :
    (H 63 (insn [3])).Met (chanRuns (insn [3]) fun x => { x with loops := List.replicate 3 ⟨0, 0, true⟩ }) := by
  delta Acts.Met ActsSo.Met Serves.Met Defers.Met ant ant2 ant3 ant4 ant5 ant6; clear H; decide +kernel

theorem met_endLoop (H : Claims.endLoop) :
    (H 63 (insn [4]) ⟨0, 2, false⟩ []).1.Met (chanRuns (insn [4]) fun x => { x with loops := [⟨0, 2, false⟩] }) ∧
    (H 63 (insn [4]) ⟨0, 0, true⟩ []).1.Met (chanRuns (insn [4]) fun x => { x with loops := [⟨0, 0, true⟩] }) ∧
    (H 63 (insn [4]) ⟨0, 1, false⟩ []).2.Met (chanRuns (insn [4]) fun x => { x with loops := [⟨0, 1, false⟩] }) := by
  delta Acts.Met ActsSo.Met Serves.Met Defers.Met ant ant2 ant3 ant4 ant5 ant6; clear H; decide +kernel

/-- The bytes of `LoopsRunTheirBodies`. -/
theorem met_loopBytes : fld (insn [3]) 0 1 = 3 ∧ instrBad up 0 (insn [3]) = 0 ∧ fld (insn [4]) 0 1 = 4 ∧
    instrBad up 0 (insn [4]) = 0 := by decide +kernel

/-- WAIT for 5 of slot 7. -/
def waitInsn : List Byte := insn [5, 0, 7, 0, 5]

theorem met_wait (H : Claims.wait) :
    (H 63 waitInsn).1.Met (chanRuns waitInsn fun x => { x with slots := x.slots.set 7 ⟨1, 0, 5⟩ }) ∧
    (H 63 waitInsn).2.1.Met (chanRuns waitInsn fun x => { x with slots := x.slots.set 7 ⟨1, 0, 4⟩ }) ∧
    (H 63 waitInsn).2.2.Met (chanRuns waitInsn fun x => { x with slots := x.slots.set 7 ⟨0, 0, 0⟩ }) := by
  delta Acts.Met ActsSo.Met Serves.Met Defers.Met ant ant2 ant3 ant4 ant5 ant6; clear H; decide +kernel

theorem met_waitSatisfied (H : Claims.waitSatisfied) :
    (H 63 ⟨7, 5, false, none⟩).Met (chanUp waitInsn fun x => { x with
      mode := .waiting, wait := some ⟨7, 5, false, none⟩, slots := x.slots.set 7 ⟨1, 0, 5⟩ }) := by
  delta Acts.Met ActsSo.Met Serves.Met Defers.Met ant ant2 ant3 ant4 ant5 ant6; clear H; decide +kernel

theorem met_waitTimeout (H : Claims.waitTimeout) :
    (H 63 ⟨7, 5, false, some 9⟩ 9 rfl).1.Met (chanUp waitInsn fun x => { x with
      mode := .waiting, wait := some ⟨7, 5, false, some 9⟩, slots := x.slots.set 7 ⟨1, 0, 4⟩ }) ∧
    (H 63 ⟨7, 5, true, some 9⟩ 9 rfl).2.Met (chanUp waitInsn fun x => { x with
      mode := .waiting, wait := some ⟨7, 5, true, some 9⟩, slots := x.slots.set 7 ⟨1, 0, 4⟩ }) := by
  delta Acts.Met ActsSo.Met Serves.Met Defers.Met ant ant2 ant3 ant4 ant5 ant6; clear H; decide +kernel

theorem met_signalEntry (H : Claims.signalEntry) :
    (H 63 (insn [6, 3])).1.Met (chanRuns (insn [6, 3]) id) ∧
    (H 63 (insn [6])).2.Met (chanRuns (insn [6]) fun x => { x with lastHost := some 0x1000 }) := by
  delta Acts.Met ActsSo.Met Serves.Met Defers.Met ant ant2 ant3 ant4 ant5 ant6; clear H; decide +kernel

/-- SIGNAL 5 to slot 7 of channel 62. -/
def slotInsn : List Byte := insn [6, 0, 1, 62, 7, 0, 5]

theorem met_signalSlot (H : Claims.signalSlot) :
    (H 63 62 slotInsn (by decide)).1.Met
      ((chanRuns slotInsn id).modChan 62 fun x => { x with slots := x.slots.set 7 ⟨2, 63, 65530⟩ }) ∧
    (H 63 62 slotInsn (by decide)).2.Met (chanRuns slotInsn id) := by
  delta Acts.Met ActsSo.Met Serves.Met Defers.Met ant ant2 ant3 ant4 ant5 ant6; clear H; decide +kernel

theorem met_setReg (H : Claims.setReg) :
    (H 63 (insn [7, 0, 7, 0, 0, 0, 0, 0, 9])).Met (chanRuns (insn [7, 0, 7, 0, 0, 0, 0, 0, 9]) id) ∧
    (H 63 (insn [7, 1, 7, 0, 0, 0, 0, 0, 9])).Met (chanRuns (insn [7, 1, 7, 0, 0, 0, 0, 0, 9]) id) ∧
    (H 63 (insn [7, 0, 0x20, 0, 9])).Met (chanRuns (insn [7, 0, 0x20, 0, 9]) id) ∧
    (H 63 (insn [7, 0, 0x13, 0, 9, 0, 0, 0, 9])).Met (chanRuns (insn [7, 0, 0x13, 0, 9, 0, 0, 0, 9]) id) := by
  delta Acts.Met ActsSo.Met Serves.Met Defers.Met ant ant2 ant3 ant4 ant5 ant6; clear H; decide +kernel

theorem met_crcStart (H : Claims.crcStart) :
    (H 63 (insn [8, 0, 2, 1])).Met (chanRuns (insn [8, 0, 2, 1]) id) ∧
    (H 63 (insn [8, 0, 0, 0])).Met (chanRuns (insn [8, 0, 0, 0]) id) := by
  delta Acts.Met ActsSo.Met Serves.Met Defers.Met ant ant2 ant3 ant4 ant5 ant6; clear H; decide +kernel

theorem met_crcStore (H : Claims.crcStore) :
    ((H 63 (insn [9, 0, 0x70]) ⟨1, BitVec.ofNat 64 grantBase⟩).1 ⟨1, true, 5⟩ (by decide)).Met
      (chanRuns (insn [9, 0, 0x70]) fun x => { x with
        crc := some ⟨1, true, 5⟩, ptrs := x.ptrs.set 7 ⟨1, BitVec.ofNat 64 grantBase⟩ }) ∧
    ((H 63 (insn [9, 0, 0x70]) hostPtr).2).Met
      (chanRuns (insn [9, 0, 0x70]) fun x => { x with ptrs := x.ptrs.set 7 hostPtr }) := by
  delta Acts.Met ActsSo.Met Serves.Met Defers.Met ant ant2 ant3 ant4 ant5 ant6; clear H; decide +kernel

theorem met_fence (H : Claims.fence) :
    (H 63 (insn [0x0A])).1.Met (chanRuns (insn [0x0A]) id) ∧
    (H 63 (insn [0x0A])).2.Met (chanRuns (insn [0x0A]) fun x => { x with lastHost := some 0x1000 }) := by
  delta Acts.Met ActsSo.Met Serves.Met Defers.Met ant ant2 ant3 ant4 ant5 ant6; clear H; decide +kernel

theorem met_endRun (H : Claims.endRun) :
    (H 63 (insn [0x0F])).1.Met (chanRuns (insn [0x0F]) id) ∧
    ((H 63 (insn [0x0F])).2.1 1 7 []).Met (chanRuns (insn [0x0F]) fun x => { x with queued := [(1, 7)] }) ∧
    (H 63 (insn [0x0F])).2.2.Met (chanRuns (insn [0x0F]) fun x => { x with lastHost := some 0x1000 }) := by
  delta Acts.Met ActsSo.Met Serves.Met Defers.Met ant ant2 ant3 ant4 ant5 ant6; clear H; decide +kernel

theorem met_arrivalReadbackDone (H : Claims.arrivalReadbackDone) :
    (H 63).1.Met (chanRuns (insn [0x0A]) fun x => { x with arrival := some .fence, lastHost := some 0x1000 }) ∧
    (H 63).2.Met (chanRuns (insn [0x0F]) fun x => { x with arrival := some .endRun, lastHost := some 0x1000 }) := by
  delta Acts.Met ActsSo.Met Serves.Met Defers.Met ant ant2 ant3 ant4 ant5 ant6; clear H; decide +kernel

end Sys2Proof.Machine
end

section
/-! SUPPORT. Accesses to the window of a resource that another function owns (R43), from the gate of one doubleword to the
five kinds of windows. -/

namespace Sys2Proof.Machine

/-! ### The gate of an unowned window -/

/-- Every window of a resource lies below the common end of all functions' registers. -/
theorem lt_of_windowOwner_eq_some {a : State} {off : Nat} {w : Fn × Nat} (hw : windowOwner a off = some w) :
    off < 0x40000 := by
  by_contra above
  have outside : windowOwner a off = none := by simp (disch := omega) only [windowOwner, if_neg]
  exact nomatch outside.symm.trans hw

theorem gateOf_unowned {a : State} {fn o : Fn} {off i : Nat} (k : Reached a fn)
    (hw : windowOwner a off = some (o, i)) (hne : o ≠ fn) : gateOf a fn off = .unowned i := by
  obtain ⟨-, -, mode⟩ := k
  have served : ¬ ((a.fns[fn]).mode = .wedged ∧ 0x2000 ≤ off) := by
    rintro ⟨wedged, -⟩
    rcases mode with alive | alive <;> exact nomatch wedged.symm.trans alive
  simp only [gateOf, if_neg served, hw, if_neg hne]

/-- A write to an unowned window never comes to the register. -/
theorem writeRegister_unowned {a : State} {fn o : Fn} {off i : Nat} (op : State → State) (k : Reached a fn)
    (hw : windowOwner a off = some (o, i)) (hne : o ≠ fn) : writeRegister fn off op a = flagUnowned fn off i a := by
  simp only [writeRegister, reaches_reached k (lt_of_windowOwner_eq_some hw), gated, gateOf_unowned k hw hne]

/-- A read of an unowned window never comes to the register and completes with 0. -/
theorem readRegister_unowned {a : State} {fn o : Fn} {off i : Nat} (op : State → Word × State) (k : Reached a fn)
    (hw : windowOwner a off = some (o, i)) (hne : o ≠ fn) :
    readRegister fn off op a = emit (.completion fn [0]) (flagUnowned fn off i a) := by
  simp only [readRegister, reaches_reached k (lt_of_windowOwner_eq_some hw), gated, gateOf_unowned k hw hne]

/-! ### Accesses of one whole doubleword -/

/-- A BAR0 write of one whole doubleword is the write of one register. -/
theorem bar0Write_doubleword (fn : Fn) (off : Nat) (v : Word) (s : State) (ha : off % 4 = 0) :
    bar0Write fn off [(v, 0xF)] s = writeRegister fn off (writeDword fn off v) s := by
  have aligned : off / 4 * 4 = off := by omega
  have full : ([(v, (0xF : BitVec 4))].any fun w => decide (w.2 ≠ 0xF)) = false := rfl
  unfold bar0Write writeRegister
  rcases reaches s fn off with _ | _ | _
  case some.true =>
    simp only [full, Bool.false_eq_true, if_false, List.zipIdx_cons, List.zipIdx_nil, List.foldl_cons, List.foldl_nil,
      Nat.mul_zero, Nat.add_zero, aligned]
  all_goals rfl

/-- A BAR0 read of one whole doubleword is the read of one register. -/
theorem bar0Read_doubleword (fn : Fn) (off : Nat) (s : State) (ha : off % 4 = 0) :
    bar0Read fn off 4 s = readRegister fn off (readDword fn off true) s := by
  have lanes : readLanes off 4 = [(off, true)] := by
    have one : (off % 4 + 4 + 3) / 4 = 1 := by omega
    have aligned : off / 4 * 4 = off := by omega
    simp [readLanes, one, aligned]
  unfold bar0Read readRegister
  rcases reaches s fn off with _ | _ | _
  case some.true =>
    simp only [lanes, List.foldl_cons, List.foldl_nil, List.nil_append, Nat.reduceLT, if_false, OfNat.ofNat_ne_zero]
  all_goals rfl

/-! ### Commands on an unowned window -/

section
variable {fn : Fn} {off reg index : Nat} {owner : State → Fn} {c : Nat → Instr}

/-- A command that writes one register of a window is ignored and flagged where the window is another function's. -/
theorem unowned_of_writeRegister {op : State → State} (hw : ∀ a, windowOwner a off = some (owner a, index))
    (hr : reg = off) (hx : ∀ dt s, exec (c dt) s = .next (writeRegister fn reg op (advance dt s))) :
    Claims.Unowned fn off index owner c false := by
  subst hr
  rintro s dt ⟨reached, other⟩
  refine ⟨_, hx dt s, ?_⟩
  rw [writeRegister_unowned op reached (hw _) other]
  rfl

/-- A command that reads one register of a window gets 0 and is flagged where the window is another function's. -/
theorem unowned_of_readRegister {op : State → Word × State} (hw : ∀ a, windowOwner a off = some (owner a, index))
    (hr : reg = off) (hx : ∀ dt s, exec (c dt) s = .next (readRegister fn reg op (advance dt s))) :
    Claims.Unowned fn off index owner c true := by
  subst hr
  rintro s dt ⟨reached, other⟩
  refine ⟨_, hx dt s, ?_⟩
  rw [readRegister_unowned op reached (hw _) other]
  rfl

/-- REGISTER_WRITE and BAR0_READ_REJECTED of one whole doubleword come to no register of an unowned window either. -/
theorem unowned_doubleword (v : Word) (hw : ∀ a, windowOwner a off = some (owner a, index)) (ha : off % 4 = 0) :
    Claims.Unowned fn off index owner (fun dt => .registerWrite dt fn off [(v, 0xF)]) false ∧
    Claims.Unowned fn off index owner (fun dt => .bar0ReadRejected dt fn off 4) true :=
  ⟨unowned_of_writeRegister hw rfl fun dt s =>
      congrArg Host.Outcome.next (bar0Write_doubleword fn off v (advance dt s) ha),
    unowned_of_readRegister hw rfl fun dt s =>
      congrArg Host.Outcome.next (bar0Read_doubleword fn off (advance dt s) ha)⟩

end

/-- CHAN_CTRL with stop set is the write of one register (R427). -/
theorem exec_chanStop {v : Word} (hv : v.getLsbD 0 = true) (dt : Nat) (fn : Fn) (n : Fin 64) (s : State) :
    exec (.chanStop dt fn n v) s = .next (writeRegister fn (chanOff n 4) (writeChanCtrl n v) (advance dt s)) :=
  congrArg Host.Outcome.next (if_pos hv)

/-- Settles O12: the gate of one doubleword answers every access to another function's window (R43), so that each command
needs only the window that its register lies in. -/
theorem unownedWindowsReadZero : Obligations.UnownedWindowsReadZero := by
  unfold Obligations.UnownedWindowsReadZero
  refine ⟨?channels, ?streams, ?queues, ?hoppers, ?comparators⟩
  case channels =>
    intro fn n v owner
    have window (k : Nat) (hk : k < 0x100) (a : State) :
        windowOwner a (0x10000 + 0x100 * n + k) = some (owner a, n.val) := windowOwner_channel a n _ k hk rfl
    exact ⟨unowned_of_writeRegister (window 0 (by decide)) rfl fun _ _ => rfl,
      unowned_of_writeRegister (window 0x2C (by decide)) rfl fun _ _ => rfl,
      unowned_of_readRegister (window 0x20 (by decide)) rfl fun _ _ => rfl,
      fun stop => unowned_of_writeRegister (window 4 (by decide)) rfl fun dt s => exec_chanStop stop dt fn n s,
      fun k hk => unowned_doubleword v (window (4 * k) hk) (by omega)⟩
  case streams =>
    intro fn n v owner
    have window (k : Nat) (hk : k < 0x20) (a : State) :
        windowOwner a (0x8000 + 0x20 * n + k) = some (owner a, n.val) := windowOwner_stream a n _ k hk rfl
    exact ⟨unowned_of_writeRegister (window 8 (by decide)) (by omega) fun _ _ => rfl,
      unowned_of_readRegister (window 0x10 (by decide)) (by omega) fun _ _ => rfl,
      unowned_of_readRegister (window 0x14 (by decide)) (by omega) fun _ _ => rfl,
      fun k hk => unowned_doubleword v (window (4 * k) hk) (by omega)⟩
  case queues =>
    intro fn q v owner
    have window (k : Nat) (hk : k < 0x20) (a : State) :
        windowOwner a (0x3000 + 0x20 * q + k) = some (owner a, q.val) := windowOwner_queue a q _ k hk rfl
    exact ⟨unowned_of_writeRegister (window 0 (by decide)) rfl fun _ _ => rfl,
      unowned_of_readRegister (window 12 (by decide)) (by omega) fun _ _ => rfl,
      fun k hk => unowned_doubleword v (window (4 * k) hk) (by omega)⟩
  case hoppers =>
    intro fn i v owner
    have window (k : Nat) (hk : k < 0x20) (a : State) :
        windowOwner a (0x8400 + 0x20 * i + k) = some (owner a, i.val) := windowOwner_hopper a i _ k hk rfl
    exact ⟨unowned_of_readRegister (window 8 (by decide)) (by omega) fun _ _ => rfl,
      fun k hk => unowned_doubleword v (window (4 * k) hk) (by omega)⟩
  case comparators =>
    intro fn n v owner
    have window (k : Nat) (hk : k < 0x20) (a : State) :
        windowOwner a (0x21200 + 0x20 * n + k) = some (owner a, n.val) := windowOwner_comparator a n _ k hk rfl
    exact ⟨unowned_of_readRegister (window 8 (by decide)) (by omega) fun _ _ => rfl,
      unowned_of_readRegister (window 16 (by decide)) (by omega) fun _ _ => rfl,
      fun k hk => unowned_doubleword v (window (4 * k) hk) (by omega)⟩

end Sys2Proof.Machine
end

section
/-! SUPPORT. The write of TQ_HEAD (R98), from the range of indices that a queue accepts to the command. -/

namespace Sys2Proof.Machine

/-- An index goes forward from the head no further than the tail does (R98). -/
theorem Queue.holds_iff (Q : Queue) (h : Nat) :
    Q.holds h = true ↔ h = Q.head ∨
      (h < Q.entries ∧ (h + Q.entries - Q.head) % Q.entries ≤ (Q.tail + Q.entries - Q.head) % Q.entries) := by
  simp only [Queue.holds, Bool.or_eq_true, beq_iff_eq, Bool.and_eq_true, decide_eq_true_eq]

theorem writeTqHead_of_holds {fn : Fn} {q : Fin 32} {v : Word} {a : State}
    (within : (a.queues[q]).holds (v.toNat % 0x10000) = true) :
    writeTqHead fn q v a = a.modQueue q fun Q => { Q with head := v.toNat % 0x10000 } :=
  if_pos within

theorem writeTqHead_of_not_holds {fn : Fn} {q : Fin 32} {v : Word} {a : State}
    (outside : ¬ (a.queues[q]).holds (v.toNat % 0x10000) = true) :
    writeTqHead fn q v a = post 0x1116 fn q (a.modQueue q fun Q => { Q with headErr := true }) :=
  if_neg outside

/-- TQ_HEAD is the first register of its queue's window, so the write of the queue's owner comes to it (R43, R107). -/
theorem exec_tqHeadWrite_owned {dt : Nat} {fn : Fn} {q : Fin 32} {s : State} (v : Word)
    (reached : Reached (advance dt s) fn) (owned : (advance dt s).plan.queues[q] = fn) :
    exec (.tqHeadWrite dt fn q v) s = .next (writeTqHead fn q v (advance dt s)) := by
  have window : windowOwner (advance dt s) (0x3000 + 0x20 * q) = some (fn, q.val) :=
    (windowOwner_queue _ q _ 0 (by decide) rfl).trans (by rw [owned])
  have passes := writeRegister_pass (writeTqHead fn q v)
    (reaches_reached reached (lt_of_windowOwner_eq_some window)) (gateOf_owned reached window)
  exact congrArg Host.Outcome.next passes

/-- Settles O13: the owner's write comes to the register, whose own test is the range from the head to the tail. -/
theorem queueHeadMovesWithinUnreadEntries : Obligations.QueueHeadMovesWithinUnreadEntries := by
  unfold Obligations.QueueHeadMovesWithinUnreadEntries
  intro fn q v h within
  have accepts (a : State) : (a.queues[q]).holds h = true ↔ within a := Queue.holds_iff _ h
  refine ⟨?accepted, ?ignored⟩
  case accepted =>
    rintro s dt ⟨reached, owned, inside⟩
    rw [exec_tqHeadWrite_owned v reached owned, writeTqHead_of_holds ((accepts _).mpr inside)]
  case ignored =>
    rintro s dt ⟨reached, owned, outside⟩
    rw [exec_tqHeadWrite_owned v reached owned, writeTqHead_of_not_holds (mt (accepts _).mp outside)]

end Sys2Proof.Machine
end

section
/-! SUPPORT. The loops of a Millrace programme (R411), from the step over a valid instruction to LOOP and ENDLOOP. -/

namespace Sys2Proof.Machine

/-! ### One valid instruction -/

/-- The channel carries a valid instruction out: neither the fetch nor the check of R405 halts it (R406). -/
theorem runInstr_of_runs {a : State} {c : Fin 64} {b : List Byte} {op : Nat} (body : List Byte → State → State)
    (runs : Claims.Runs a c b op) (nested : op = 4 → (a.chans[c]).loops ≠ [])
    (room : op = 3 → (a.chans[c]).loops.length < 4) : runInstr c (isOp op) body a = body b a := by
  obtain ⟨mode, arrival, borrowed, main, grant, inside, -, rfl, good, rfl⟩ := runs
  have executes : ((a.chans[c]).mode = .running ∨ (a.chans[c]).mode = .stopping) ∧ (a.chans[c]).arrival = none ∧
      ¬ (a.chans[c]).borrowed ∧ mainRuns a := ⟨.inl mode, arrival, by simpa using borrowed, main⟩
  have fetched : ¬ ((a.chans[c]).progMill ∧ ¬ inGrant a ((a.chans[c]).progAddr + 16 * (a.chans[c]).pc) 16) :=
    fun ⟨mill, outside⟩ => outside (grant mill)
  have valid : ¬ ((a.chans[c]).depths.length ≤ (a.chans[c]).pc ∨ instrBad a (chanFn a c) (chanInstr a c) ≠ 0 ∨
      (fld (chanInstr a c) 0 1 = 4 ∧ (a.chans[c]).loops = []) ∨
      (fld (chanInstr a c) 0 1 = 3 ∧ (a.chans[c]).loops.length ≥ 4)) := by
    rintro (past | bad | ⟨isEnd, none⟩ | ⟨isLoop, full⟩)
    · omega
    · exact bad good
    · exact nested isEnd none
    · have := room isLoop
      omega
  simp only [runInstr, if_pos executes, if_neg fetched, if_neg valid, isOp, beq_self_eq_true, if_true]

theorem chanDone_eq_chanNext {s : State} {c : Fin 64} (mode : (s.chans[c]).mode = .running)
    (noStop : (s.chans[c]).stopAfter = false) : chanDone c s = chanNext c s :=
  if_neg (by simp [-Fin.getElem_fin, mode, noStop])

/-- What the channel has after a valid instruction that changed it by `g` but left its mode and a stop alone (R406). -/
theorem chanDone_modChan_of_runs {a : State} {c : Fin 64} {b : List Byte} {op : Nat} (runs : Claims.Runs a c b op)
    (g : Chan → Chan) (mode : (g a.chans[c]).mode = (a.chans[c]).mode)
    (stop : (g a.chans[c]).stopAfter = (a.chans[c]).stopAfter) :
    ((chanDone c (a.modChan c g)).chans[c]).mode = .running ∧
    ((chanDone c (a.modChan c g)).chans[c]).pc = (g a.chans[c]).pc + 1 ∧
    ((chanDone c (a.modChan c g)).chans[c]).loops = (g a.chans[c]).loops := by
  obtain ⟨running, -, -, -, -, -, noStop, -⟩ := runs
  have given : (a.modChan c g).chans[c] = g a.chans[c] := vmod_same a.chans c g
  rw [chanDone_eq_chanNext (given ▸ mode.trans running) (given ▸ stop.trans noStop)]
  simp [chanNext, Chan.fill]

/-! ### LOOP and ENDLOOP -/

theorem instrBad_loop {b : List Byte} (op : fld b 0 1 = 3) (s : State) (fn : Fn) :
    instrBad s fn b = if !zeros b 1 3 || !zeros b 8 8 then 2 else 0 := by
  simp [instrBad, op]

theorem instrBad_endLoop {b : List Byte} (op : fld b 0 1 = 4) (s : State) (fn : Fn) :
    instrBad s fn b = if zeros b 1 15 then 0 else 2 := by
  simp [instrBad, op]

/-- ENDLOOP in a loop that has a pass left, or is unbounded, goes back to its LOOP, which has then ended (R411). -/
theorem runEndLoop_again {s : State} {c : Fin 64} {l : OpenLoop} {rest : List OpenLoop}
    (top : (s.chans[c]).loops = l :: rest) (left : l.unbounded = true ∨ 1 < l.left) :
    runEndLoop c s =
      chanDone c (s.modChan c fun x => { x with pc := l.at_, loops := { l with left := l.left - 1 } :: rest }) := by
  simp only [runEndLoop, top, if_pos left]

/-- ENDLOOP of the last pass closes the loop (R411). -/
theorem runEndLoop_last {s : State} {c : Fin 64} {l : OpenLoop} {rest : List OpenLoop}
    (top : (s.chans[c]).loops = l :: rest) (bounded : l.unbounded = false) (last : l.left ≤ 1) :
    runEndLoop c s = chanDone c (s.modChan c fun x => { x with loops := rest }) := by
  have used : ¬ (l.unbounded = true ∨ 1 < l.left) := by simp [bounded, last]
  simp only [runEndLoop, top, if_neg used]

theorem exec_loop_of_runs {s : State} {dt : Nat} {c : Fin 64} {b : List Byte} (runs : Claims.Runs (advance dt s) c b 3)
    (room : ((advance dt s).chans[c]).loops.length < 4) :
    exec (.loop dt c) s = .next (runLoop c b (advance dt s)) :=
  congrArg Host.Outcome.next (runInstr_of_runs (runLoop c) runs (fun h => nomatch h) fun _ => room)

theorem exec_endLoop_of_runs {s : State} {dt : Nat} {c : Fin 64} {b : List Byte} {l : OpenLoop} {rest : List OpenLoop}
    (runs : Claims.Runs (advance dt s) c b 4) (top : ((advance dt s).chans[c]).loops = l :: rest) :
    exec (.endLoop dt c) s = .next (runEndLoop c (advance dt s)) :=
  congrArg Host.Outcome.next (runInstr_of_runs (fun _ => runEndLoop c) runs
    (fun _ => top ▸ List.cons_ne_nil l rest) fun h => nomatch h)

theorem loop_pushes_count : Claims.loop := by
  rintro c b s dt ⟨runs, room⟩
  obtain ⟨running, next, pushed⟩ := chanDone_modChan_of_runs runs
    (fun x => { x with loops := ⟨x.pc, fld b 4 4, fld b 4 4 == 0⟩ :: x.loops }) rfl rfl
  exact ⟨_, exec_loop_of_runs runs room, ⟨running, next⟩, pushed⟩

theorem endLoop_repeats_or_closes : Claims.endLoop := by
  intro c b l rest
  refine ⟨?again, ?last⟩
  case again =>
    rintro s dt ⟨runs, top, left⟩
    refine ⟨_, exec_endLoop_of_runs runs top, ?_⟩
    rw [runEndLoop_again top left]
    exact chanDone_modChan_of_runs runs _ rfl rfl
  case last =>
    rintro s dt ⟨runs, top, bounded, last⟩
    refine ⟨_, exec_endLoop_of_runs runs top, ?_⟩
    rw [runEndLoop_last top bounded last]
    obtain ⟨running, next, closed⟩ := chanDone_modChan_of_runs runs (fun x => { x with loops := rest }) rfl rfl
    exact ⟨⟨running, next⟩, closed⟩

/-- Settles O15: a valid LOOP or ENDLOOP acts on the loop stack and, for another pass, on the index, before the channel
goes to the next index (R411); the check of R405 covers its reserved bytes. -/
theorem loopsRunTheirBodies : Obligations.LoopsRunTheirBodies := by
  unfold Obligations.LoopsRunTheirBodies
  refine ⟨loop_pushes_count, endLoop_repeats_or_closes, ?loopBytes, ?endLoopBytes⟩
  case loopBytes =>
    intro a fn b op good
    rw [instrBad_loop op] at good
    simpa using good
  case endLoopBytes =>
    intro a fn b op good
    rw [instrBad_endLoop op] at good
    simpa using good

end Sys2Proof.Machine
end

section
/-! SUPPORT. A new log entry (R483), from the operations that write none and end no pending fault to the drain of one
event. -/

namespace Sys2Proof.Machine

/-! ### What leaves the written log alone -/

/-- From `s` to `t` no entry is written and no pending fault ends; one may be added (R484). -/
structure LogKept (s t : State) : Prop where
  entries : t.log.entries = s.log.entries
  headSlot : t.log.headSlot = s.log.headSlot
  faults : s.log.faults ⊆ t.log.faults

theorem LogKept.of_log_eq {s t : State} (same : t.log = s.log) : LogKept s t :=
  ⟨congrArg Log.entries same, congrArg Log.headSlot same, same ▸ List.Subset.refl _⟩

theorem LogKept.trans {s t u : State} (h : LogKept s t) (k : LogKept t u) : LogKept s u :=
  ⟨k.entries.trans h.entries, k.headSlot.trans h.headSlot, List.Subset.trans h.faults k.faults⟩

theorem LogKept.ite {s t u : State} {p : Prop} [Decidable p] (h : LogKept s t) (k : LogKept s u) :
    LogKept s (if p then t else u) := by
  split
  · exact h
  · exact k

/-- A posted event goes no further than the collector (R480). -/
theorem logKept_postCount (code fn unit : Nat) (count : Word) (s : State) : LogKept s (postCount code fn unit count s) :=
  .ite ⟨rfl, rfl, List.Subset.refl _⟩ (.ite ⟨rfl, rfl, List.Subset.refl _⟩ ⟨rfl, rfl, List.Subset.refl _⟩)

@[simp] theorem hostSend_log (fn : Fn) (addr : Nat) (bytes : List Byte) (data : Bool) (s : State) :
    (hostSend fn addr bytes data s).log = s.log := by
  unfold hostSend
  split <;> rfl

@[simp] theorem signal_log (fn : Fn) (vector : Nat) (s : State) : (signal fn vector s).log = s.log := by
  unfold signal
  split
  case h_1 => rfl
  case h_2 =>
    dsimp only
    split_ifs <;> rfl

@[simp] theorem signalQueue_log (q : Fin 32) (s : State) : (signalQueue q s).log = s.log := by
  simp [signalQueue]

@[simp] theorem noteQuiet_log (fn : Fn) (code : Nat) (job count : Word) (s : State) :
    (noteQuiet fn code job count s).log = s.log := by
  unfold noteQuiet
  split <;> rfl

/-- A tailrace entry touches the log at most by the event of a full queue (R99). -/
theorem logKept_putEntry (q : Fin 32) (e : TqEntry) (s : State) : LogKept s (putEntry q e s) := by
  have dropped : LogKept s (s.modQueue q Queue.drop) := .of_log_eq rfl
  unfold putEntry
  refine .ite dropped (.ite dropped (.ite (dropped.trans (logKept_postCount ..)) (.of_log_eq ?written)))
  simp [apply_ite State.log]

/-- A notice writes a tailrace entry or is counted as discarded (R88). -/
theorem logKept_notice (fn : Fn) (code : Nat) (job : Word) (status : Nat) (count : Word) (s : State) :
    LogKept s (notice fn code job status count s) := by
  have noted : LogKept s (noteQuiet fn code job count s) := .of_log_eq (noteQuiet_log ..)
  refine noted.trans ?_
  unfold notice
  dsimp only
  split
  case h_1 => exact .ite (logKept_putEntry ..) (.of_log_eq rfl)
  case h_2 => exact .of_log_eq rfl

/-- A FAULT joins the pending ones or, past 32 of them, only sets the overflow (R484). -/
theorem logKept_raiseFault (e : Event) (sequence : Word) (s : State) : LogKept s (raiseFault e sequence s) := by
  unfold raiseFault
  refine LogKept.trans (.ite ?joins ?overflows) ((LogKept.of_log_eq (draw_log _)).trans (logKept_notice ..))
  case joins => exact ⟨rfl, rfl, List.subset_append_left ..⟩
  case overflows => exact ⟨rfl, rfl, List.Subset.refl _⟩

/-! ### The new entry -/

/-- The entry that an event takes (R481). -/
def freshEntry (e : Event) (s : State) : LogEntry :=
  { code := e.code, severity := severity e.code, acked := false, mirrored := false, saturated := false
    lostBefore := s.log.lostBefore, sequence := s.log.sequence + 1, firstNs := e.time, lastNs := e.time
    count := e.count, fn := e.fn, unit := e.unit, start := startLow s }

/-- The write of an event's entry alone, ahead of the report of lost events and of a pending fault (R483). -/
def placeEntry (e : Event) (s : State) : State :=
  s.modLog fun g => { g with
    entries := (freshEntry e s :: g.entries).take 1024
    headSlot := if g.entries.isEmpty then 0 else (g.headSlot + 1) % 1024
    sequence := s.log.sequence + 1
    lostBefore := false
    newSinceMirror := true
    faultSinceMirror := g.faultSinceMirror || severity e.code == 2 }

/-- What follows the write of the entry, the report of lost events (R480) and a pending fault (R484), leaves the entry. -/
theorem logKept_placeEntry_newEntry (e : Event) (s : State) : LogKept (placeEntry e s) (newEntry e s) := by
  have placed : LogKept (placeEntry e s) (placeEntry e s) := .of_log_eq rfl
  have told : LogKept (placeEntry e s) ((placeEntry e s).modLog fun g => { g with lostUnreported := 0 }) :=
    ⟨rfl, rfl, List.Subset.refl _⟩
  have reported := LogKept.ite (p := s.log.lostUnreported ≠ 0 ∧ s.log.lostBefore)
    (told.trans (logKept_postCount 0x9013 wide wide s.log.lostUnreported _)) placed
  exact .ite (reported.trans (logKept_raiseFault ..)) reported

theorem newEntry_entries (e : Event) (s : State) :
    (newEntry e s).log.entries = (freshEntry e s :: s.log.entries).take 1024 :=
  (logKept_placeEntry_newEntry e s).entries

theorem newEntry_headSlot {s : State} (e : Event) (held : s.log.entries ≠ []) :
    (newEntry e s).log.headSlot = (s.log.headSlot + 1) % 1024 :=
  (logKept_placeEntry_newEntry e s).headSlot.trans (if_neg (by simpa using held))

theorem faults_subset_newEntry (e : Event) (s : State) : s.log.faults ⊆ (newEntry e s).log.faults :=
  (logKept_placeEntry_newEntry e s).faults

/-! ### The drain of one event -/

theorem record1_of_not_merged {e : Event} {s : State} (unmerged : mergePlace s e = none) : record1 e s = newEntry e s := by
  simp only [record1, unmerged]

theorem drainOne_of_collected {e : Event} {rest : List Event} {s : State} (serving : serves s = true)
    (door : s.start.doorClosed = false) (oldest : s.log.collector = e :: rest) :
    drainOne s = record1 e (s.modLog fun g => { g with collector := rest }) := by
  have drains : serves s = true ∧ ¬ s.start.doorClosed = true := ⟨serving, by simp [door]⟩
  simp only [drainOne, if_pos drains, oldest]

/-- Settles O14: the drained event takes a new entry, and what follows the write of that entry keeps it, its slot and every
pending fault. -/
theorem newLogEntriesTakeTheNextSlot : Obligations.NewLogEntriesTakeTheNextSlot := by
  unfold Obligations.NewLogEntriesTakeTheNextSlot
  rintro e rest s dt ⟨serving, door, oldest, unmerged⟩
  have logged : exec (.eventLogged dt) s =
      .next (newEntry e ((advance dt s).modLog fun g => { g with collector := rest })) := by
    rw [← record1_of_not_merged unmerged, ← drainOne_of_collected serving door oldest]
    rfl
  refine ⟨_, logged, ⟨freshEntry e _, rfl, rfl, rfl, rfl, newEntry_entries ..⟩, ?slot, ?pending⟩
  case slot => exact fun held => newEntry_headSlot e held
  case pending => exact fun _ pending => faults_subset_newEntry e _ pending

end Sys2Proof.Machine
end

section
/-! SUPPORT. What every command answers and keeps, from the meanings of the single commands to the step of the block. -/

namespace Sys2Proof.Machine

/-! ### Every command -/

/-- No meaning ends in a fault or a refusal: each of them is a next state. -/
theorem exec_next (i : Instr) (s : State) : ∃ t, exec i s = .next t := by
  cases i <;> exact ⟨_, rfl⟩

/-- Each command, once its time has passed, keeps what its own meaning keeps within the parts that `touches` names. -/
theorem keeps_exec (i : Instr) (s : State) : KeepsA (touches i) (advance (ticksOf i) s) (exec i s) := by
  have k {m : Nat} {a : State} : Keeps m a a := Keeps.refl m a
  cases i with (unfold touches; dsimp only)
  | perstDeassert => exact keeps_execPerstDeassert _ k rfl
  | linkTrained => exact keeps_execLinkTrained _ _ _ _ k rfl
  | linkRetrainChange => exact keeps_execLinkRetrainChange _ _ _ k rfl
  | configRequest => exact keeps_execConfigRequest _ _ _ k rfl
  | flrInitiate => exact keeps_execFlrInitiate _ _ k rfl
  | fenceClosed => exact keeps_execFenceClosed _ _ k rfl
  | fenceTimeoutWedge => exact keeps_execFenceTimeoutWedge _ _ _ k rfl
  | vfEnableSet => exact keeps_execVfEnableSet _ k rfl
  | vfEnableClear => exact keeps_execVfEnableClear _ k rfl
  | busMasterEnableClear => exact keeps_execBusMasterEnableClear _ _ _ k rfl
  | busMasterEnableSet => exact keeps_execBusMasterEnableSet _ _ k rfl
  | dlDown => exact keeps_execDlDown _ k rfl
  | hotResetReceived => exact keeps_execHotResetReceived _ k rfl
  | perstAssert => exact keeps_execPerstAssert _ k rfl
  | registerWrite => exact keeps_execRegisterWrite _ _ _ _ k rfl
  | bar0ReadRejected => exact keeps_execBar0ReadRejected _ _ _ _ k rfl
  | bar2Write => exact keeps_execBar2Write _ _ k rfl
  | inboundTlpError => exact keeps_execInboundTlpError _ _ _ k rfl
  | readCompletion => exact keeps_execReadCompletion _ _ _ k rfl
  | completionTimeout => exact keeps_execCompletionTimeout _ _ k rfl
  | serialLoRead => exact keeps_execSerialLoRead _ _ k rfl
  | instancePlanSet => exact keeps_execInstancePlanSet _ _ k rfl
  | instancePlanGet => exact keeps_execInstancePlanGet _ _ k rfl
  | porchDoorbell => exact keeps_execPorchDoorbell _ _ k rfl
  | reqTailWrite => exact keeps_execReqTailWrite _ _ _ k rfl
  | repHeadWrite => exact keeps_execRepHeadWrite _ _ _ k rfl
  | deviceInfo => exact keeps_execDeviceInfo _ _ k rfl
  | ringsSet => exact keeps_execRingsSet _ _ k rfl
  | ringsClear => exact keeps_execRingsClear _ _ k rfl
  | noticeRoute => exact keeps_execNoticeRoute _ _ k rfl
  | echo => exact keeps_execEcho _ _ k rfl
  | queueSet => exact keeps_execQueueSet _ _ k rfl
  | queueClear => exact keeps_execQueueClear _ _ k rfl
  | queueModerate => exact keeps_execQueueModerate _ _ k rfl
  | tqHeadWrite => exact keeps_execTqHeadWrite _ _ _ _ k rfl
  | tqDroppedRead => exact keeps_execTqDroppedRead _ _ _ k rfl
  | tqModerationTimer => exact keeps_execTqModerationTimer _ _ k rfl
  | queueWriteFailed => exact keeps_execQueueWriteFailed _ _ k rfl
  | replyWriteFailed => exact keeps_execReplyWriteFailed _ _ k rfl
  | timeNsLoRead => exact keeps_execTimeNsLoRead _ _ k rfl
  | tdcDropRead => exact keeps_execTdcDropRead _ _ k rfl
  | ptmDialogueStart => exact keeps_execPtmDialogueStart _ _ k rfl
  | ptmDialogueResponse => exact keeps_execPtmDialogueResponse _ _ _ _ k rfl
  | ptmDialogueTimeout => exact keeps_execPtmDialogueTimeout _ k rfl
  | fantailHoldoverTimeout => exact keeps_execFantailHoldoverTimeout _ k rfl
  | ptmEnableChange => exact keeps_execPtmEnableChange _ _ k rfl
  | tdcCalibration => exact keeps_execTdcCalibration _ _ k rfl
  | clockLoss => exact keeps_execClockLoss _ _ k rfl
  | refclkLoss => exact keeps_execRefclkLoss _ k rfl
  | timeStatus => exact keeps_execTimeStatus _ _ k rfl
  | timeStep => exact keeps_execTimeStep _ _ k rfl
  | fantailConfig => exact keeps_execFantailConfig _ _ k rfl
  | timeCorrelate => exact keeps_execTimeCorrelate _ _ k rfl
  | carWakeRise => exact keeps_execCarWakeRise _ k rfl
  | carWakeDebounceExpiry => exact keeps_execCarWakeDebounceExpiry _ k rfl
  | xtr0WakeEdge => exact keeps_execXtr0WakeEdge _ k rfl
  | aonPowerApply => exact keeps_execAonPowerApply _ _ k rfl
  | aonPowerLoss => exact keeps_execAonPowerLoss _ k rfl
  | parkHoldExpiry => exact keeps_execParkHoldExpiry _ k rfl
  | mainSuppliesOff => exact keeps_execMainSuppliesOff _ k rfl
  | suppliesGood => exact keeps_execSuppliesGood _ k rfl
  | slotCheck => exact keeps_execSlotCheck _ k rfl
  | valtynRun => exact keeps_execValtynRun _ _ k rfl
  | journalFold => exact keeps_execJournalFold _ k rfl
  | outingRecord => exact keeps_execOutingRecord _ k rfl
  | guardianSurfaces => exact keeps_execGuardianSurfaces _ _ k rfl
  | tslReceive => exact keeps_execTslReceive _ k rfl
  | panelLinkTrained => exact keeps_execPanelLinkTrained _ _ _ k rfl
  | earlyPicture => exact keeps_execEarlyPicture _ _ _ k rfl
  | rearCameraLink => exact keeps_execRearCameraLink _ _ _ _ k rfl
  | rearSensor => exact keeps_execRearSensor _ _ _ k rfl
  | rearInsertion => exact keeps_execRearInsertion _ _ k rfl
  | lpddr5xTraining => exact keeps_execLpddr5xTraining _ _ _ _ k rfl
  | cameraPortStart => exact keeps_execCameraPortStart _ _ _ _ _ _ _ k rfl
  | positionChannels => exact keeps_execPositionChannels _ k rfl
  | audioInputs => exact keeps_execAudioInputs _ k rfl
  | witnessArmStep => exact keeps_execWitnessArmStep _ k rfl
  | startDone => exact keeps_execStartDone _ k rfl
  | startStepTimeout => exact keeps_execStartStepTimeout _ _ _ k rfl
  | lateRetry => exact keeps_execLateRetry _ _ _ _ _ _ _ k rfl
  | provision => exact keeps_execProvision _ _ k rfl
  | provisionDone => exact keeps_execProvisionDone _ _ k rfl
  | measReport => exact keeps_execMeasReport _ _ k rfl
  | measReportDone => exact keeps_execMeasReportDone _ _ k rfl
  | fwStage => exact keeps_execFwStage _ _ _ k rfl
  | fwStageDone => exact keeps_execFwStageDone _ _ k rfl
  | fwActivate => exact keeps_execFwActivate _ _ k rfl
  | outingWrite => exact keeps_execOutingWrite _ _ k rfl
  | outingWriteDone => exact keeps_execOutingWriteDone _ _ k rfl
  | journalRead => exact keeps_execJournalRead _ _ k rfl
  | journalClear => exact keeps_execJournalClear _ _ k rfl
  | slotSelect => exact keeps_execSlotSelect _ _ k rfl
  | liveQuietPoint => exact keeps_execLiveQuietPoint _ k rfl
  | liveArmTimeout => exact keeps_execLiveArmTimeout _ k rfl
  | liveSwitchOpen => exact keeps_execLiveSwitchOpen _ k rfl
  | liveSwitchRevert => exact keeps_execLiveSwitchRevert _ k rfl
  | debugPortOpen => exact keeps_execDebugPortOpen _ _ k rfl
  | debugPortClose => exact keeps_execDebugPortClose _ k rfl
  | spdmRequest => exact keeps_execSpdmRequest _ _ k rfl
  | compactReportReady => exact keeps_execCompactReportReady _ k rfl
  | tslFrame => exact keeps_execTslFrame _ _ k rfl
  | tslStaleTimeout => exact keeps_execTslStaleTimeout _ k rfl
  | tslLossTimeout => exact keeps_execTslLossTimeout _ k rfl
  | inputFrameStart => exact keeps_execInputFrameStart _ _ _ k rfl
  | inputRegionResult => exact keeps_execInputRegionResult _ _ _ _ k rfl
  | inputFrameEnd => exact keeps_execInputFrameEnd _ _ _ _ k rfl
  | outputFrameStart => exact keeps_execOutputFrameStart _ _ k rfl
  | outputFrameEnd => exact keeps_execOutputFrameEnd _ _ _ _ k rfl
  | digestSigned => exact keeps_execDigestSigned _ _ k rfl
  | inputLoss => exact keeps_execInputLoss _ _ _ k rfl
  | inputVerticalTimeout => exact keeps_execInputVerticalTimeout _ _ k rfl
  | psrEntry => exact keeps_execPsrEntry _ _ k rfl
  | psrExit => exact keeps_execPsrExit _ _ k rfl
  | psrRepeatPeriod => exact keeps_execPsrRepeatPeriod _ _ k rfl
  | panelHpdEvent _ _ ev => exact keeps_execPanelHpdEvent _ _ ev k rfl
  | panelRetrainDone => exact keeps_execPanelRetrainDone _ _ _ k rfl
  | sinkAuxRequest => exact keeps_execSinkAuxRequest _ _ _ k rfl
  | auxDeferExpiry => exact keeps_execAuxDeferExpiry _ _ k rfl
  | panelAuxTimeout => exact keeps_execPanelAuxTimeout _ _ k rfl
  | sinkHpdPulseEnd => exact keeps_execSinkHpdPulseEnd _ _ k rfl
  | settleWindowEnd => exact keeps_execSettleWindowEnd _ _ k rfl
  | chimeWindowEnd => exact keeps_execChimeWindowEnd _ _ k rfl
  | rearTapFrame => exact keeps_execRearTapFrame _ _ _ _ _ k rfl
  | rearCameraStale => exact keeps_execRearCameraStale _ k rfl
  | guardConfig => exact keeps_execGuardConfig _ _ k rfl
  | guardStatus => exact keeps_execGuardStatus _ _ k rfl
  | guardRegionsSet => exact keeps_execGuardRegionsSet _ _ _ k rfl
  | guardRefsLoad => exact keeps_execGuardRefsLoad _ _ _ k rfl
  | guardRefsLoadDone => exact keeps_execGuardRefsLoadDone _ _ _ k rfl
  | verdictRoute => exact keeps_execVerdictRoute _ _ k rfl
  | digestGet => exact keeps_execDigestGet _ _ k rfl
  | chainRead => exact keeps_execChainRead _ _ k rfl
  | chainReadDone => exact keeps_execChainReadDone _ _ k rfl
  | chimeTemplatesLoad => exact keeps_execChimeTemplatesLoad _ _ _ k rfl
  | chimeTemplatesLoadDone => exact keeps_execChimeTemplatesLoadDone _ _ k rfl
  | chimeStatus => exact keeps_execChimeStatus _ _ k rfl
  | portLock => exact keeps_execPortLock _ _ k rfl
  | portLoss => exact keeps_execPortLoss _ _ k rfl
  | relockAttempt => exact keeps_execRelockAttempt _ _ k rfl
  | gearRaiseTimeout => exact keeps_execGearRaiseTimeout _ _ k rfl
  | csi2FrameStart => exact keeps_execCsi2FrameStart _ _ _ _ k rfl
  | csi2LongPacket => exact keeps_execCsi2LongPacket _ _ _ _ _ _ k rfl
  | csi2FrameEnd => exact keeps_execCsi2FrameEnd _ _ _ _ k rfl
  | triggerEdgeAgeExpiry => exact keeps_execTriggerEdgeAgeExpiry _ _ k rfl
  | portDrainEnd => exact keeps_execPortDrainEnd _ _ k rfl
  | drainFrameTimeout => exact keeps_execDrainFrameTimeout _ _ k rfl
  | stagedFrameCopyDone => exact keeps_execStagedFrameCopyDone _ _ _ k rfl
  | streamHeadWrite => exact keeps_execStreamHeadWrite _ _ _ _ k rfl
  | streamDropsRead => exact keeps_execStreamDropsRead _ _ _ k rfl
  | streamErrsRead => exact keeps_execStreamErrsRead _ _ _ k rfl
  | portConfig => exact keeps_execPortConfig _ _ k rfl
  | portStatus => exact keeps_execPortStatus _ _ k rfl
  | portRestart => exact keeps_execPortRestart _ _ k rfl
  | portRestartDone => exact keeps_execPortRestartDone _ _ k rfl
  | tunnelI2c => exact keeps_execTunnelI2c _ _ k rfl
  | tunnelGpio => exact keeps_execTunnelGpio _ _ _ k rfl
  | streamOpen => exact keeps_execStreamOpen _ _ k rfl
  | streamClose => exact keeps_execStreamClose _ _ k rfl
  | streamCloseQuiet => exact keeps_execStreamCloseQuiet _ _ k rfl
  | streamStage => exact keeps_execStreamStage _ _ k rfl
  | streamStatus => exact keeps_execStreamStatus _ _ k rfl
  | streamBuffers => exact keeps_execStreamBuffers _ _ k rfl
  | embeddedMapSet => exact keeps_execEmbeddedMapSet _ _ k rfl
  | embeddedMapSetDone => exact keeps_execEmbeddedMapSetDone _ _ _ k rfl
  | quadStep => exact keeps_execQuadStep _ _ _ k rfl
  | stepDirStep => exact keeps_execStepDirStep _ _ _ k rfl
  | upDownCount => exact keeps_execUpDownCount _ _ _ k rfl
  | hallChange => exact keeps_execHallChange _ _ _ k rfl
  | indexEdge => exact keeps_execIndexEdge _ _ _ k rfl
  | standstillTimeout => exact keeps_execStandstillTimeout _ _ k rfl
  | serialCycleStart => exact keeps_execSerialCycleStart _ _ k rfl
  | serialCycleEnd => exact keeps_execSerialCycleEnd _ _ _ k rfl
  | bissRegisterReadDone => exact keeps_execBissRegisterReadDone _ _ _ k rfl
  | emuOutputStep => exact keeps_execEmuOutputStep _ _ k rfl
  | posPLoRead => exact keeps_execPosPLoRead _ _ _ k rfl
  | posIdxLoRead => exact keeps_execPosIdxLoRead _ _ _ k rfl
  | posSerialErrsRead => exact keeps_execPosSerialErrsRead _ _ _ k rfl
  | posConfig => exact keeps_execPosConfig _ _ k rfl
  | posConfigApply => exact keeps_execPosConfigApply _ _ k rfl
  | posStatus => exact keeps_execPosStatus _ _ k rfl
  | posPreset => exact keeps_execPosPreset _ _ k rfl
  | emuConfig => exact keeps_execEmuConfig _ _ k rfl
  | comparatorFire => exact keeps_execComparatorFire _ _ k rfl
  | trigDelayEnd => exact keeps_execTrigDelayEnd _ _ k rfl
  | trigPulseEnd => exact keeps_execTrigPulseEnd _ _ _ k rfl
  | trigHoldoffEnd => exact keeps_execTrigHoldoffEnd _ _ k rfl
  | trigPeriodTick => exact keeps_execTrigPeriodTick _ _ k rfl
  | xtrFallingEdge => exact keeps_execXtrFallingEdge _ _ _ k rfl
  | xtrAssertionTaken => exact keeps_execXtrAssertionTaken _ _ k rfl
  | xtrDriveEnd => exact keeps_execXtrDriveEnd _ _ _ _ k rfl
  | xtrGuardEnd => exact keeps_execXtrGuardEnd _ _ k rfl
  | xtrReleaseCheck => exact keeps_execXtrReleaseCheck _ _ k rfl
  | xtrStuckTimeout => exact keeps_execXtrStuckTimeout _ _ k rfl
  | xtrStuckClear => exact keeps_execXtrStuckClear _ _ k rfl
  | extEdge => exact keeps_execExtEdge _ _ _ k rfl
  | cmpTargetLoRead => exact keeps_execCmpTargetLoRead _ _ _ k rfl
  | cmpFireLoRead => exact keeps_execCmpFireLoRead _ _ _ k rfl
  | trigMergedRead => exact keeps_execTrigMergedRead _ _ k rfl
  | xtrRuntsRead => exact keeps_execXtrRuntsRead _ _ k rfl
  | cmpArm => exact keeps_execCmpArm _ _ k rfl
  | cmpDisarm => exact keeps_execCmpDisarm _ _ k rfl
  | cmpStatus => exact keeps_execCmpStatus _ _ k rfl
  | trigConfig => exact keeps_execTrigConfig _ _ k rfl
  | xtrConfig => exact keeps_execXtrConfig _ _ k rfl
  | outputConfigApply => exact keeps_execOutputConfigApply _ _ k rfl
  | trigFire => exact keeps_execTrigFire _ _ k rfl
  | configCommit => exact keeps_execConfigCommit _ _ k rfl
  | epochSwitchTimer => exact keeps_execEpochSwitchTimer _ _ k rfl
  | configDiscard => exact keeps_execConfigDiscard _ _ k rfl
  | configStatus => exact keeps_execConfigStatus _ _ k rfl
  | hopperBind => exact keeps_execHopperBind _ _ k rfl
  | hopperArm => exact keeps_execHopperArm _ _ k rfl
  | hopperDisarm => exact keeps_execHopperDisarm _ _ k rfl
  | hopperDisarmQuiet => exact keeps_execHopperDisarmQuiet _ _ k rfl
  | hopperTrigger => exact keeps_execHopperTrigger _ _ k rfl
  | hopperStatus => exact keeps_execHopperStatus _ _ k rfl
  | hopperCopyout => exact keeps_execHopperCopyout _ _ k rfl
  | hopperCopyEnd => exact keeps_execHopperCopyEnd _ _ _ _ k rfl
  | hopIgnoredRead => exact keeps_execHopIgnoredRead _ _ _ k rfl
  | pyramidSubmit => exact keeps_execPyramidSubmit _ _ k rfl
  | pyramidCancel => exact keeps_execPyramidCancel _ _ k rfl
  | pyramidPassEnd => exact keeps_execPyramidPassEnd _ _ _ k rfl
  | pyrDroppedRead => exact keeps_execPyrDroppedRead _ _ k rfl
  | decodeSubmit => exact keeps_execDecodeSubmit _ _ k rfl
  | decodeCancel => exact keeps_execDecodeCancel _ _ k rfl
  | decodeJobEnd => exact keeps_execDecodeJobEnd _ _ _ k rfl
  | prepQuiet => exact keeps_execPrepQuiet _ _ k rfl
  | engineStallReset => exact keeps_execEngineStallReset _ _ k rfl
  | audioConfig => exact keeps_execAudioConfig _ _ k rfl
  | audioRoute => exact keeps_execAudioRoute _ _ k rfl
  | audioFrame => exact keeps_execAudioFrame _ _ _ _ _ _ k rfl
  | audioLossTimeout => exact keeps_execAudioLossTimeout _ _ k rfl
  | audioHop => exact keeps_execAudioHop _ _ k rfl
  | audioRecordsWritten => exact keeps_execAudioRecordsWritten _ _ k rfl
  | thermalSample => exact keeps_execThermalSample _ _ k rfl
  | fullRetrainRequest => exact keeps_execFullRetrainRequest _ _ k rfl
  | weirDrainEnd => exact keeps_execWeirDrainEnd _ k rfl
  | weirDrainTimeout => exact keeps_execWeirDrainTimeout _ k rfl
  | retrainDone => exact keeps_execRetrainDone _ k rfl
  | shortRetrain => exact keeps_execShortRetrain _ k rfl
  | controllerStall => exact keeps_execControllerStall _ k rfl
  | serveRestoreTimer => exact keeps_execServeRestoreTimer _ _ _ k rfl
  | sFaultClearTimer => exact keeps_execSFaultClearTimer _ k rfl
  | scrubBurst => exact keeps_execScrubBurst _ _ k rfl
  | weirShedRead => exact keeps_execWeirShedRead _ _ k rfl
  | weirEccAddrLoRead => exact keeps_execWeirEccAddrLoRead _ _ k rfl
  | weirStatus => exact keeps_execWeirStatus _ _ k rfl
  | weirShedOrder => exact keeps_execWeirShedOrder _ _ k rfl
  | weirCheck => exact keeps_execWeirCheck _ _ k rfl
  | weirScrub => exact keeps_execWeirScrub _ _ k rfl
  | chanLoad => exact keeps_execChanLoad _ _ _ k rfl
  | chanConfig => exact keeps_execChanConfig _ _ k rfl
  | chanQuiet => exact keeps_execChanQuiet _ _ k rfl
  | chanSignalMap => exact keeps_execChanSignalMap _ _ k rfl
  | chanGo => exact keeps_execChanGo _ _ _ _ k rfl
  | chanStop => exact keeps_execChanStop _ _ _ _ k rfl
  | chanFlush => exact keeps_execChanFlush _ _ _ _ k rfl
  | chanRetry => exact keeps_execChanRetry _ _ _ _ k rfl
  | chanSkip => exact keeps_execChanSkip _ _ _ _ k rfl
  | chanKick => exact keeps_execChanKick _ _ _ _ k rfl
  | chanBytesLoRead => exact keeps_execChanBytesLoRead _ _ _ k rfl
  | move => exact keeps_execMove _ _ _ _ _ k rfl
  | move2d => exact keeps_execMove2d _ _ _ _ _ k rfl
  | loop => exact keeps_execLoop _ _ k rfl
  | endLoop => exact keeps_execEndLoop _ _ k rfl
  | wait => exact keeps_execWait _ _ k rfl
  | waitSatisfied => exact keeps_execWaitSatisfied _ _ k rfl
  | waitTimeout => exact keeps_execWaitTimeout _ _ k rfl
  | signalEntry => exact keeps_execSignalEntry _ _ k rfl
  | signalSlot => exact keeps_execSignalSlot _ _ k rfl
  | setReg => exact keeps_execSetReg _ _ k rfl
  | crcStart => exact keeps_execCrcStart _ _ k rfl
  | crcStore => exact keeps_execCrcStore _ _ k rfl
  | fence => exact keeps_execFence _ _ k rfl
  | endRun => exact keeps_execEndRun _ _ k rfl
  | arrivalReadbackDone => exact keeps_execArrivalReadbackDone _ _ k rfl
  | witnessConfig => exact keeps_execWitnessConfig _ _ k rfl
  | witnessArm => exact keeps_execWitnessArm _ _ k rfl
  | witnessDisarm => exact keeps_execWitnessDisarm _ _ k rfl
  | witnessQuiet => exact keeps_execWitnessQuiet _ k rfl
  | witnessStatus => exact keeps_execWitnessStatus _ _ k rfl
  | witnessRoute => exact keeps_execWitnessRoute _ _ k rfl
  | adcConversion => exact keeps_execAdcConversion _ _ _ _ k rfl
  | dwEdge => exact keeps_execDwEdge _ _ _ k rfl
  | witnessUnitTimeout => exact keeps_execWitnessUnitTimeout _ _ k rfl
  | witnessCaptureEnd => exact keeps_execWitnessCaptureEnd _ k rfl
  | witnessDeliveryEnd => exact keeps_execWitnessDeliveryEnd _ _ k rfl
  | witIgnoredRead => exact keeps_execWitIgnoredRead _ _ k rfl
  | instanceQuiesce => exact keeps_execInstanceQuiesce _ _ k rfl
  | instanceQuiesceDone => exact keeps_execInstanceQuiesceDone _ _ k rfl
  | eventLogged => exact keeps_execEventLogged _ k rfl
  | mirrorTimer => exact keeps_execMirrorTimer _ k rfl
  | logRead => exact keeps_execLogRead _ _ k rfl
  | logClear => exact keeps_execLogClear _ _ k rfl
  | faultAck => exact keeps_execFaultAck _ _ k rfl
  | faultStatus => exact keeps_execFaultStatus _ _ k rfl
  | logFilter => exact keeps_execLogFilter _ _ k rfl
  | deviceReset => exact keeps_execDeviceReset _ _ k rfl
  | logLostRead => exact keeps_execLogLostRead _ _ k rfl
  | logFilteredRead => exact keeps_execLogFilteredRead _ _ k rfl
  | watchdogService => exact keeps_execWatchdogService _ k rfl
  | watchdogExpiry => exact keeps_execWatchdogExpiry _ k rfl
  | lockstepMismatch => exact keeps_execLockstepMismatch _ k rfl
  | resetNAssert => exact keeps_execResetNAssert _ k rfl
  | resetNRelease => exact keeps_execResetNRelease _ k rfl
  | supplyFault => exact keeps_execSupplyFault _ k rfl
  | fullResetRelease => exact keeps_execFullResetRelease _ k rfl
  | avsStep => exact keeps_execAvsStep _ k rfl
  | carWakeFall => exact keeps_execCarWakeFall _ k rfl
  | runtPulseEnd => exact keeps_execRuntPulseEnd _ _ _ k rfl
  | tunnelI2cAnswer => exact keeps_execTunnelI2cAnswer _ _ _ k rfl
  | refclkRestored => exact keeps_execRefclkRestored _ k rfl
  | logMirrorDone => exact keeps_execLogMirrorDone _ k rfl
  | unknownOpcode => exact keeps_execUnknownOpcode _ _ k rfl

/-- Time moves only `elapsed` and the device clock. -/
theorem Kept.advance (dt : Nat) (s : State) : Kept s (advance dt s) :=
  ⟨rfl, Nat.le_add_right _ _, Nat.le_refl _, List.suffix_refl _, id, id, rfl, id⟩

/-- Settles O5: the time of the command and then its meaning keep what `Kept` names. -/
theorem everyCommandAnswersAndKeeps : Obligations.EveryCommandAnswersAndKeeps := by
  unfold Obligations.EveryCommandAnswersAndKeeps
  intro i s
  obtain ⟨t, answered⟩ := exec_next i s
  exact ⟨t, answered, (Kept.advance (ticksOf i) s).trans ((keeps_exec i s).out answered).kept⟩

/-- Settles O7: the meaning stays within its mask, and time leaves the queue alone. -/
theorem commandsStayWithinTheirParts : Obligations.CommandsStayWithinTheirParts := by
  unfold Obligations.CommandsStayWithinTheirParts
  intro i s t answered
  have keeps := (keeps_exec i s).out answered
  exact ⟨keeps.within, keeps.kept.pending⟩

/-! ### Every step -/

theorem Kept.canonical {s t : State} (k : Kept s t) (h : s.Canonical) : t.Canonical :=
  ⟨k.millpond h.1, k.lpddr h.2⟩

/-- Settles O6: an idle step changes nothing, and the command at the front keeps both memories canonical. -/
theorem stepKeepsMemoriesCanonical : Obligations.StepKeepsMemoriesCanonical := by
  unfold Obligations.StepKeepsMemoriesCanonical
  intro s t canonical stepped
  unfold step at stepped
  split at stepped
  case h_1 c rest _ =>
    obtain ⟨u, answered, kept⟩ := everyCommandAnswersAndKeeps c { s with pending := rest }
    obtain rfl : u = t := Host.Outcome.next.inj (answered.symm.trans stepped)
    exact kept.canonical canonical
  case h_2 =>
    obtain rfl : s = t := Host.Outcome.next.inj stepped
    exact canonical

/-- Settles O1: the front of the queue is the command itself. -/
theorem stepRunsFrontCommand : Obligations.StepRunsFrontCommand := by
  unfold Obligations.StepRunsFrontCommand
  intro c s
  rfl

/-- Settles O2: with an empty queue the step takes its idle branch. -/
theorem stepIdlesOnEmptyQueue : Obligations.StepIdlesOnEmptyQueue := by
  unfold Obligations.StepIdlesOnEmptyQueue
  intro s empty
  simp only [step, empty]

/-- Settles O3: the device clock moves exactly while the main domain runs. -/
theorem timeMovesOnlyTheClock : Obligations.TimeMovesOnlyTheClock := by
  unfold Obligations.TimeMovesOnlyTheClock
  intro dt s
  refine ⟨?frame, fun runs => ?moves, fun stands => ?rests⟩
  case frame =>
    unfold advance
    split <;> rfl
  case moves => simp only [advance, runs, if_true]
  case rests => simp only [advance, stands, Bool.false_eq_true, if_false]

/-! ### The state after reset -/

/-- Settles O4: both memories are empty, and each bank of the reset state is a literal table, read entry by entry. -/
theorem resetState : Obligations.ResetState := by
  unfold Obligations.ResetState
  refine ⟨⟨Memory.wf_nil, Memory.wf_nil⟩, rfl, rfl, ?queues, ?streams, ?ports, ?pos, ?comparators, ?outputs, ?hoppers,
    ?channels, ?audio, rfl, rfl, rfl⟩
  all_goals decide

end Sys2Proof.Machine
end

section
/-! SUPPORT. How a hamper is turned away before its own section (R14, R87, R93), from the single checks to the commands of
the opcode index. -/

namespace Sys2Proof.Machine

/-! ### The checks before the section -/

section
variable {a : State} {h : Hamper} {minor : Nat} {pf0 : Bool} {body : State → Hamper → Verdict}

theorem judge_wedged (wedged : (a.fns[h.fn]).mode = .wedged) :
    judge a h minor pf0 body = .refuse stInstanceReset [] := by
  rw [judge, if_pos wedged]

theorem judge_doorClosed (alive : (a.fns[h.fn]).mode ≠ .wedged) (door : a.start.doorClosed = true) :
    judge a h minor pf0 body = .refuse stBusyUpdating [] := by
  rw [judge, if_neg alive, if_pos door]

/-- Past the door: the function is not WEDGED and Valtyn's door is open. -/
theorem judge_headerBad (alive : (a.fns[h.fn]).mode ≠ .wedged) (door : a.start.doorClosed = false)
    (header : h.headerBad = true) : judge a h minor pf0 body = .refuse stBadArgument [] := by
  rw [judge, if_neg alive, if_neg (by simp [door]), if_pos header, badArg]

/-- While Valtyn runs, a good header is followed by the checks of version, sender and door. -/
theorem judge_valtyn (alive : (a.fns[h.fn]).mode ≠ .wedged) (door : a.start.doorClosed = false)
    (header : h.headerBad = false) (valtyn : a.start.core = .valtyn) :
    judge a h minor pf0 body =
      if a.start.minor < minor then .refuse stBadOpcode []
      else if pf0 && h.fn != 0 then .refuse stNotOwner []
      else if doorShut a h then .refuse stUnitOff []
      else body a h := by
  rw [judge, if_neg alive, if_neg (by simp [door]), if_neg (by simp [header]), if_neg (by simp [valtyn]), notOwner]

end

/-- A refusal changes no function's epochs, before or after its reply. -/
theorem answer_refuse_epochs (h : Hamper) (st : Nat) (p : List Byte) (a : State) :
    (answer h (.refuse st p) a).epochs = a.epochs :=
  (keeps_answer (msk := Area.reply) h (Keeps.refl _ a) (v := .refuse st p) trivial rfl).within.epochs rfl

/-! ### Commands that are turned away -/

/-- The command answers a refusal by its status, other than the WRONG_STATE of its own section, and nothing else. -/
def TurnsAway (c : Nat → Req → Instr) (op minor : Nat) (pf0 : Bool) (body : State → Hamper → Verdict) : Prop :=
  ∀ (s : State) (dt : Nat) (r : Req) (h : Hamper) (st : Nat), fetch (advance dt s) r = some h → h.op = op →
    judge (advance dt s) h minor pf0 body = .refuse st [] → st ≠ stWrongState →
    exec (c dt r) s = .next (answer h (.refuse st []) (advance dt s))

theorem serve_of_judge {a : State} {r : Req} {h : Hamper} {op minor : Nat} {pf0 : Bool}
    {body : State → Hamper → Verdict} {v : Verdict} (fetched : fetch a r = some h) (opcode : h.op = op)
    (judged : judge a h minor pf0 body = v) : serve r op minor pf0 body a = answer h v a := by
  simp only [serve, fetched, if_pos opcode, judged]

/-- The order of the checks, once for every command that answers refusals alike. -/
theorem TurnsAway.refuses {c : Nat → Req → Instr} {op minor : Nat} {pf0 : Bool} {body : State → Hamper → Verdict}
    (turns : TurnsAway c op minor pf0 body) : Claims.Refuses c op minor pf0 := by
  intro s dt r h fetched opcode valtyn
  have away {st : Nat} := turns s dt r h st fetched opcode
  refine ⟨?wedged, ?door, ?header, ?version, ?sender, ?block⟩
  case wedged =>
    intro wedged
    rw [away (judge_wedged wedged) (by decide)]
    simp [answer, logHeader, wedged, -Fin.getElem_fin]
  case door =>
    intro alive door
    rw [away (judge_doorClosed alive door) (by decide)]
    simp [answer, logHeader, door]
  case header =>
    rintro ⟨alive, door⟩ header
    rw [away (judge_headerBad alive door header) (by decide)]
    simp [answer, logHeader, alive, door, header, -Fin.getElem_fin]
  case version =>
    rintro ⟨⟨alive, door⟩, header⟩ early
    rw [away ((judge_valtyn alive door header valtyn).trans (if_pos early)) (by decide)]
    simp [answer, logHeader, header]
  case sender =>
    rintro ⟨⟨⟨alive, door⟩, header⟩, known⟩ only other
    rw [away (st := stNotOwner) ?judged (by decide)]
    case judged => rw [judge_valtyn alive door header valtyn, if_neg (Nat.not_lt.mpr known), if_pos (by simp [only, other])]
    simp [answer, logHeader, header]
  case block =>
    rintro ⟨⟨⟨⟨alive, door⟩, header⟩, known⟩, sender⟩ shut
    have allowed : ¬ (pf0 && h.fn != 0) = true := by
      simp only [Bool.and_eq_true, bne_iff_ne, not_and, not_not]
      exact sender
    rw [away (st := stUnitOff) ?judged (by decide)]
    case judged =>
      rw [judge_valtyn alive door header valtyn, if_neg (Nat.not_lt.mpr known), if_neg allowed, if_pos shut]
    simp [answer, logHeader, header]

/-- A command whose meaning is the way of a hamper and no more. -/
theorem refuses_of_serve {c : Nat → Req → Instr} {op minor : Nat} {pf0 : Bool}
    (served : ∃ body, ∀ dt r s, exec (c dt r) s = .next (serve r op minor pf0 body (advance dt s))) :
    Claims.Refuses c op minor pf0 := by
  obtain ⟨body, served⟩ := served
  refine TurnsAway.refuses (body := body) fun s dt r h st fetched opcode judged _ => ?_
  rw [served, serve_of_judge fetched opcode judged]

/-! ### The four commands whose section has consequences after its reply -/

/-- A commit that was refused does not begin to switch (R311). -/
theorem refuses_configCommit : Claims.Refuses .configCommit 0x0010 0 false := by
  refine TurnsAway.refuses (body := configCommitBody) fun s dt r h st fetched opcode judged _ => ?_
  refine congrArg Host.Outcome.next ?_
  have stays (a b : State) (f : Fn) (e : b.epochs = a.epochs) : commitAccepted f a b = b := by
    rw [commitAccepted, if_neg]
    rintro ⟨none, some⟩
    rw [e, Option.isSome_iff_ne_none] at some
    exact some (Option.isNone_iff_eq_none.mp none)
  rw [serve_of_judge fetched opcode judged]
  exact stays _ _ _ (answer_refuse_epochs ..)

/-- A refused DEVICE_RESET resets nothing (R499). -/
theorem refuses_deviceReset : Claims.Refuses .deviceReset 0x0008 0 true := by
  refine TurnsAway.refuses (body := deviceResetBody) fun s dt r h st fetched opcode judged _ => ?_
  refine congrArg Host.Outcome.next ?_
  simp only [fetched, if_pos opcode, judged]
  exact serve_of_judge fetched opcode judged

/-- A refused plan tells no function (R49). -/
theorem refuses_instancePlanSet : Claims.Refuses .instancePlanSet 0x0101 0 true := by
  refine TurnsAway.refuses (body := planSetBody) fun s dt r h st fetched opcode judged _ => ?_
  refine congrArg Host.Outcome.next ?_
  have untold : planAccepted (advance dt s) r = none := by
    simp only [planAccepted, fetched, judged, ite_self]
  simp only [untold]
  exact serve_of_judge fetched opcode judged

/-- Only the WRONG_STATE of HOPPER_BIND's own section cancels an arm (R323). -/
theorem refuses_hopperBind : Claims.Refuses .hopperBind 0x0501 0 false := by
  refine TurnsAway.refuses (body := hopperBindBody) fun s dt r h st fetched opcode judged other => ?_
  refine congrArg Host.Outcome.next ?_
  have kept : unbindRefused (advance dt s) r = none := by
    simp only [unbindRefused, fetched, judged, if_neg other, ite_self]
  simp only [kept]
  exact serve_of_judge fetched opcode judged

/-- Settles O8: every other hamper of the index is the shared way with its own section. -/
theorem hampersAreCheckedInOrder : Obligations.HampersAreCheckedInOrder := by
  unfold Obligations.HampersAreCheckedInOrder
  intro buffer level
  refine ⟨?_, ?_, ?_, ?_, ?_, refuses_deviceReset, ?_, refuses_configCommit, ?_, ?_, refuses_instancePlanSet, ?_, ?_, ?_, ?_,
    ?_, ?_, ?_, ?_, ?_, ?_, ?_, ?_, ?_, ?_, ?_, ?_, ?_, ?_, ?_, ?_, ?_, ?_, ?_, ?_, ?_, ?_, ?_, ?_, ?_, ?_, ?_, ?_, ?_, ?_, ?_,
    refuses_hopperBind, ?_, ?_, ?_, ?_, ?_, ?_, ?_, ?_, ?_, ?_, ?_, ?_, ?_, ?_, ?_, ?_, ?_, ?_, ?_, ?_, ?_, ?_, ?_, ?_, ?_, ?_,
    ?_, ?_, ?_, ?_, ?_, ?_, ?_, ?_, ?_, ?_, ?_, ?_, ?_⟩
  all_goals exact refuses_of_serve ⟨_, fun _ _ _ => rfl⟩

end Sys2Proof.Machine
end

section
/-! SUPPORT. Replies (R71 to R82), tailrace entries (R95 to R101) and events (R480): what each changes and leaves. -/

namespace Sys2Proof.Machine

/-! ### Writes to host memory and messages -/

theorem hostSend_of_busMaster {fn : Fn} {s : State} (addr : Nat) (bytes : List Byte) (master : (s.fns[fn]).busMaster = true) :
    hostSend fn addr bytes false s = emit (.hostWrite fn addr bytes false false) s := by
  rw [hostSend, if_pos master]
  rfl

theorem hostSend_of_not_busMaster {fn : Fn} {s : State} (addr : Nat) (bytes : List Byte) (data : Bool)
    (master : (s.fns[fn]).busMaster = false) : hostSend fn addr bytes data s = s := by
  rw [hostSend, if_neg (by simp [master, -Fin.getElem_fin])]

/-- A signalled vector sends at most its message, and of its function only the pending bits may change (R42, R101). -/
structure SignalKept (fn : Fn) (s t : State) : Prop where
  queues : t.queues = s.queues
  millpond : t.millpond = s.millpond
  lpddr : t.lpddr = s.lpddr
  out : ∃ l, t.out = l ++ s.out
  silent : (s.fns[fn]).busMaster = false → t.out = s.out
  fnState : ∃ msix, t.fns[fn] = { s.fns[fn] with msix := msix }

theorem signalKept_signal (fn : Fn) (vector : Nat) (s : State) : SignalKept fn s (signal fn vector s) := by
  have same : SignalKept fn s s := ⟨rfl, rfl, rfl, ⟨[], rfl⟩, fun _ => rfl, ⟨_, rfl⟩⟩
  unfold signal
  split
  case h_1 => exact same
  case h_2 v _ =>
    dsimp only
    split_ifs with off masked master
    · exact same
    · exact ⟨rfl, rfl, rfl, ⟨[], rfl⟩, fun _ => rfl, ⟨_, vmod_same ..⟩⟩
    · exact ⟨rfl, rfl, rfl, ⟨[_], rfl⟩, fun no => (Bool.false_ne_true (no.symm.trans master)).elim, ⟨_, rfl⟩⟩
    · exact same

/-! ### Replies -/

/-- The 256 bytes of a reply (R71, R73). -/
def replyBytes (h : Hamper) (status retry : Nat) (payload : List Byte) : List Byte :=
  record [(2, h.op), (2, if h.porch then 3 else 1), (4, h.sequence), (2, payload.length), (2, status), (4, retry)] ++
    padTo 240 payload

theorem reply_porch {h : Hamper} (status retry : Nat) (payload : List Byte) (a : State) (porch : h.porch = true) :
    reply h status retry payload a = a.modFn h.fn fun f => { f with
      porchReply := replyBytes h status retry payload, porchBusy := false, porchDone := true } := by
  rw [reply, if_pos porch, replyBytes]

/-- A ring that is not being cleared: the slot of REP_TAIL is written, REP_TAIL moves, and the vector is signalled. -/
theorem reply_ring {h : Hamper} (status retry : Nat) (payload : List Byte) {a : State} (ring : h.porch = false)
    (kept : (a.fns[h.fn]).clearing = false) :
    reply h status retry payload a =
      signal h.fn (a.fns[h.fn]).repVector
        ((hostSend h.fn ((a.fns[h.fn]).repBase + 256 * ((a.fns[h.fn]).repTail.toNat % 32))
          (replyBytes h status retry payload) false a).modFn h.fn fun f => { f with repTail := f.repTail + 1 }) := by
  simp only [reply, replyBytes, ring, Bool.false_eq_true, if_false, kept, Bool.false_and]

theorem hostSend_fns (fn : Fn) (addr : Nat) (bytes : List Byte) (data : Bool) (s : State) :
    (hostSend fn addr bytes data s).fns = s.fns := by
  unfold hostSend
  split <;> rfl

/-- Settles O9: a fetch is counted by `taken`, and a reply is one write to the porch or to the slot of REP_TAIL, ahead of
the message of its vector. -/
theorem repliesAreWritten : Obligations.RepliesAreWritten := by
  unfold Obligations.RepliesAreWritten
  intro h status retry payload a bytes b
  refine ⟨rfl, ?doorbells, ?reqHead, reply_porch status retry payload a, ?ring⟩
  case doorbells => simp [b, taken]
  case reqHead => simp [b, taken]
  case ring =>
    intro ring kept f t
    have written : t = _ := reply_ring status retry payload ring kept
    set sent := hostSend h.fn (f.repBase + 256 * (f.repTail.toNat % 32)) (replyBytes h status retry payload) false a
    have fns : sent.fns = a.fns := hostSend_fns ..
    have signalled := signalKept_signal h.fn f.repVector (sent.modFn h.fn fun f => { f with repTail := f.repTail + 1 })
    rw [← written] at signalled
    obtain ⟨-, millpond, lpddr, ⟨l, out⟩, silent, ⟨msix, fnState⟩⟩ := signalled
    have moved : (sent.modFn h.fn fun f => { f with repTail := f.repTail + 1 }).fns[h.fn] =
        { f with repTail := f.repTail + 1 } := by
      rw [State.modFn_fns, fns]
      exact vmod_same ..
    rw [moved] at fnState silent
    have memories : sent.millpond = a.millpond ∧ sent.lpddr = a.lpddr := by
      unfold sent hostSend
      split <;> exact ⟨rfl, rfl⟩
    refine ⟨by rw [fnState], by rw [fnState], by rw [fnState], millpond.trans memories.1, lpddr.trans memories.2,
      fun master => ⟨l, ?_⟩, fun master => (silent master).trans ?_⟩
    · rw [out, State.modFn_out]
      exact congrArg (l ++ ·.out) (hostSend_of_busMaster _ _ master)
    · rw [State.modFn_out]
      exact congrArg State.out (hostSend_of_not_busMaster _ _ _ master)

/-! ### Tailrace entries -/

/-- The write of an entry's bytes at the tail, in Millpond or in the owner's memory (R96). -/
def entrySent (q : Fin 32) (e : TqEntry) (s : State) : State :=
  let Q := s.queues[q]
  let bytes := entryBytes e Q.owed Q.phase
  if Q.millpond then millWrite (Q.base + 16 * Q.tail) bytes s
  else hostSend s.plan.queues[q] (Q.base + 16 * Q.tail) bytes false s

theorem entrySent_frame (q : Fin 32) (e : TqEntry) (s : State) :
    (entrySent q e s).elapsed = s.elapsed ∧ (entrySent q e s).queues = s.queues ∧ (entrySent q e s).lpddr = s.lpddr := by
  simp only [entrySent, hostSend]
  split_ifs <;> simp

theorem entrySent_millpond {q : Fin 32} {s : State} (e : TqEntry) (mill : (s.queues[q]).millpond = true) :
    entrySent q e s = millWrite ((s.queues[q]).base + 16 * (s.queues[q]).tail)
      (entryBytes e (s.queues[q]).owed (s.queues[q]).phase) s :=
  if_pos mill

theorem entrySent_host {q : Fin 32} {s : State} (e : TqEntry) (host : (s.queues[q]).millpond = false)
    (master : (s.fns[s.plan.queues[q]]).busMaster = true) :
    entrySent q e s = emit (.hostWrite s.plan.queues[q] ((s.queues[q]).base + 16 * (s.queues[q]).tail)
      (entryBytes e (s.queues[q]).owed (s.queues[q]).phase) false false) s :=
  (if_neg (by simp [host, -Fin.getElem_fin])).trans (hostSend_of_busMaster _ _ master)

/-- The state once an entry stands at the tail, before the queue's vector is signalled. -/
def entryPlaced (q : Fin 32) (e : TqEntry) (s : State) : State :=
  (entrySent q e s).modQueue q fun Q => Q.pushed s.elapsed

/-- From `s` to `t` at most the message of a queue's vector is sent, and its moderation begins anew (R101). -/
structure QueueSignalled (q : Fin 32) (s t : State) : Prop where
  millpond : t.millpond = s.millpond
  lpddr : t.lpddr = s.lpddr
  out : ∃ l, t.out = l ++ s.out
  queue : ∃ u timer, t.queues[q] = { s.queues[q] with unsignalled := u, timerFrom := timer }

theorem queueSignalled_signalQueue (q : Fin 32) (s : State) : QueueSignalled q s (signalQueue q s) := by
  obtain ⟨queues, millpond, lpddr, out, -, -⟩ := signalKept_signal s.plan.queues[q] (s.queues[q]).vector
    (s.modQueue q fun Q => { Q with unsignalled := 0, timerFrom := none })
  refine ⟨millpond, lpddr, out, 0, none, ?_⟩
  rw [signalQueue, queues]
  exact vmod_same ..

/-- An enabled, running queue with space, whose owner has Bus Master Enable, takes the entry. -/
theorem queueSignalled_putEntry {q : Fin 32} {s : State} (e : TqEntry) (enabled : (s.queues[q]).enabled = true)
    (running : (s.queues[q]).stopped = false) (master : (s.fns[s.plan.queues[q]]).busMaster = true)
    (space : (s.queues[q]).full = false) : QueueSignalled q (entryPlaced q e s) (putEntry q e s) := by
  have passes : ¬ ((s.queues[q]).stopped || !(s.fns[s.plan.queues[q]]).busMaster) = true := by
    simp [running, master, -Fin.getElem_fin]
  have placed : putEntry q e s = if e.status ≠ stOk ∨ ((entryPlaced q e s).queues[q]).unsignalled ≥ (s.queues[q]).threshold
      then signalQueue q (entryPlaced q e s) else entryPlaced q e s := by
    rw [entryPlaced, ← (entrySent_frame q e s).1]
    simp only [putEntry]
    rw [if_neg (not_not.mpr enabled), if_neg passes, if_neg (by simp [space, -Fin.getElem_fin])]
    rfl
  rw [placed]
  split
  · exact queueSignalled_signalQueue ..
  · exact ⟨rfl, rfl, ⟨[], rfl⟩, _, _, rfl⟩

/-- Settles O10: the three places where an entry is dropped, and what the write of one does before its queue's vector may
be signalled. -/
theorem tailraceEntriesAreWrittenOrCounted : Obligations.TailraceEntriesAreWrittenOrCounted := by
  unfold Obligations.TailraceEntriesAreWrittenOrCounted
  intro q e a Q fn
  refine ⟨?written, ?full, ?dropped⟩
  case full =>
    intro enabled running master full
    have open_ : ¬ ((a.queues[q]).stopped || !(a.fns[a.plan.queues[q]]).busMaster) = true := by
      simp [running, master, Q, fn, -Fin.getElem_fin]
    simp only [putEntry]
    rw [if_neg (not_not.mpr enabled), if_neg open_, if_pos full]
    rfl
  case dropped =>
    intro closed
    simp only [putEntry]
    rcases closed with disabled | idle
    · rw [if_pos (show ¬ (a.queues[q]).enabled = true by simp only [Q] at disabled; simp [disabled, -Fin.getElem_fin])]
      rfl
    · have idle : ((a.queues[q]).stopped || !(a.fns[a.plan.queues[q]]).busMaster) = true := by
        simpa [Q, fn] using idle
      rw [if_pos idle, ite_self]
      rfl
  case written =>
    intro enabled running master space t
    obtain ⟨millpond, lpddr, ⟨l, out⟩, ⟨u, timer, queue⟩⟩ := queueSignalled_putEntry e enabled running master space
    obtain ⟨-, queues, sentLpddr⟩ := entrySent_frame q e a
    have pushed : (entryPlaced q e a).queues[q] = Q.pushed a.elapsed := by
      rw [entryPlaced, State.modQueue_queues, queues]
      exact vmod_same ..
    rw [pushed] at queue
    simp only [t, queue]
    refine ⟨rfl, rfl, rfl, rfl, rfl, lpddr.trans sentLpddr, fun mill => millpond.trans ?_,
      fun host => ⟨millpond.trans ?_, l, out.trans ?_⟩⟩
    · exact congrArg State.millpond (entrySent_millpond e mill)
    · exact (congrArg State.millpond (entrySent_host e host master)).trans rfl
    · exact congrArg (l ++ ·.out) (entrySent_host e host master)

/-! ### Events -/

/-- Settles O11: the three branches of the collector. -/
theorem eventsEnterTheCollector : Obligations.EventsEnterTheCollector := by
  unfold Obligations.EventsEnterTheCollector
  intro code fn unit a filtered
  refine ⟨fun out => ?_, fun kept room => ?_, fun kept full => ?_⟩
  · rw [post, postCount, if_pos out]
  · rw [post, postCount, if_neg kept, if_pos room]
  · rw [post, postCount, if_neg kept, if_neg (Nat.not_lt.mpr full)]
    exact ⟨rfl, rfl, rfl, rfl⟩

end Sys2Proof.Machine
end

section
/-! SUPPORT. How a claim about a command follows from what its meaning does to the state once its time has passed. -/

namespace Sys2Proof.Machine

/-! ### Commands that act -/

/-- A command whose meaning is `f` after its time acts as `post` wherever `f` does. -/
theorem Acts.of_meaning {c : Nat → Instr} {pre : State → Prop} {post : State → State} (f : State → State)
    (meaning : ∀ s dt, exec (c dt) s = .next (f (advance dt s))) (h : ∀ a, pre a → f a = post a) : Acts c pre post :=
  fun s dt met => (meaning s dt).trans (congrArg Host.Outcome.next (h _ met))

theorem ActsSo.of_meaning {c : Nat → Instr} {pre : State → Prop} {rel : State → State → Prop} (f : State → State)
    (meaning : ∀ s dt, exec (c dt) s = .next (f (advance dt s))) (h : ∀ a, pre a → rel a (f a)) : ActsSo c pre rel :=
  fun s dt met => ⟨_, meaning s dt, h _ met⟩

/-! ### Requests that are served -/

section
variable {c : Nat → Req → Instr} {op minor : Nat} {pf0 : Bool} {pre : State → Hamper → Prop}
  {payload : State → Hamper → List Byte} {post : State → Hamper → State}

/-- A request that comes to a section answering OK. -/
theorem Serves.of_ok (body : State → Hamper → Verdict)
    (meaning : ∀ dt r s, exec (c dt r) s = .next (serve r op minor pf0 body (advance dt s)))
    (h : ∀ a x, pre a x → body a x = .ok (post a x) (payload a x)) : Serves c op minor pf0 pre stOk payload post := by
  intro s dt r x asked met
  rw [meaning, serve_asked body asked, h _ _ met]
  rfl

/-- A request that comes to a section answering ACCEPTED. -/
theorem Serves.of_accepted (body : State → Hamper → Verdict)
    (meaning : ∀ dt r s, exec (c dt r) s = .next (serve r op minor pf0 body (advance dt s)))
    (h : ∀ a x, pre a x → body a x = .accepted (post a x) (payload a x)) :
    Serves c op minor pf0 pre stAccepted payload post := by
  intro s dt r x asked met
  rw [meaning, serve_asked body asked, h _ _ met]
  rfl

theorem logHeader_good {h : Hamper} (header : h.headerBad = false) (s : State) : logHeader h s = s := by
  rw [logHeader, if_neg (by simp [header])]

/-- A request that its own section refuses changes nothing but its function's turn. -/
theorem Serves.of_refuse {status : Nat} (body : State → Hamper → Verdict)
    (meaning : ∀ dt r s, exec (c dt r) s = .next (serve r op minor pf0 body (advance dt s)))
    (other : status ≠ stBusyUpdating) (h : ∀ a x, pre a x → body a x = .refuse status (payload a x)) :
    Serves c op minor pf0 pre status payload fun a _ => a := by
  intro s dt r x asked met
  obtain ⟨-, -, header, -⟩ := id asked
  rw [meaning, serve_asked body asked, h _ _ met]
  simp only [answer, if_neg other, logHeader_good header]

/-- A request comes to its own section while Valtyn runs. -/
theorem Serves.while_valtyn {status : Nat}
    (h : Serves c op minor pf0 (fun a x => pre a x ∧ a.start.core = .valtyn) status payload post) :
    Serves c op minor pf0 pre status payload post :=
  fun s dt r x asked met => h s dt r x asked ⟨met, asked.2.2.2.2.1⟩

/-- A request whose section owes the reply. -/
theorem Defers.of_later {index : State → Hamper → Nat} (body : State → Hamper → Verdict)
    (meaning : ∀ dt r s, exec (c dt r) s = .next (serve r op minor pf0 body (advance dt s)))
    (h : ∀ a x, pre a x → body a x = .later (post a x) (index a x)) :
    Defers c op minor pf0 pre index post := by
  intro s dt r x asked met
  obtain ⟨-, opcode, -⟩ := id asked
  rw [meaning, serve_asked body asked, h _ _ met]
  simp only [answer, opcode]

end

/-! ### One element of a bank -/

@[simp] theorem vmod_get {α : Type} {n : Nat} (v : Vector α n) (i : Fin n) (f : α → α) : (vmod v i f)[i] = f v[i] :=
  vmod_same v i f

/-! ### Operands and times -/

theorem fin?_val {n : Nat} (i : Fin n) : fin? n i.val = some i := dif_pos i.isLt

/-- The element that a payload field names. -/
theorem fin?_eq {n v : Nat} {i : Fin n} (named : v = i.val) : fin? n v = some i := named ▸ fin?_val i

theorem since_some (s : State) (from_ ticks : Nat) : since s (some from_) ticks = decide (from_ + ticks ≤ s.elapsed) := rfl

theorem since_none (s : State) (ticks : Nat) : since s none ticks = false := rfl

/-! ### Lengths of records -/

theorem leBytes_length (n : Nat) : ∀ v : Nat, (leBytes n v).length = n := by
  induction n with
  | zero => exact fun _ => rfl
  | succ n ih => exact fun v => congrArg (· + 1) (ih _)

theorem record_length (fields : List (Nat × Nat)) : (record fields).length = (fields.map Prod.fst).sum := by
  simp only [record, List.length_flatMap, leBytes_length]

/-! ### Posted events -/

/-- The log once an event is posted at a time (R480, R499). -/
def Log.posted (code fn unit : Nat) (time : BitVec 64) (count : Word) (l : Log) : Log :=
  if severity code = 0 ∧ l.filterMask.getLsbD (code / 0x1000) = true then { l with filtered := l.filtered + 1 }
  else if l.collector.length < 256 then { l with collector := l.collector ++ [⟨code, fn, unit, time, count⟩] }
  else { l with
    lost := l.lost + 1, lostTotal := l.lostTotal + 1, lostUnreported := l.lostUnreported + 1
    lostSticky := true, lostBefore := true }

/-- A posted event changes the log alone. -/
theorem post_eq_modLog (code fn unit : Nat) (s : State) :
    post code fn unit s = s.modLog (Log.posted code fn unit (nowNs s) 1) := by
  simp only [post, postCount, Log.posted, State.modLog]
  split_ifs <;> rfl

end Sys2Proof.Machine
end

section
/-! SUPPORT. What entries, notices and messages leave of the functions: their modes, rings, registers and Bus Master Enable.
Shown of each operation under a fence (R56 to R66) in the order in which they call one another. -/

namespace Sys2Proof.Machine

/-- From `s` to `t` the functions' modes and registers stay; at most pending vectors (R42), counts of discarded notices (R88)
and the counts of an INSTANCE_QUIESCE (R475) change. -/
structure FnsKept (s t : State) : Prop where
  fns : ∀ f : Fn, ∃ msix discarded quiesce,
    t.fns[f] = { s.fns[f] with msix := msix, noticesDiscarded := discarded, quiesce := quiesce }

namespace FnsKept
variable {s₀ s t : State}

theorem refl (s : State) : FnsKept s s := ⟨fun _ => ⟨_, _, _, rfl⟩⟩

theorem trans (h : FnsKept s₀ s) (k : FnsKept s t) : FnsKept s₀ t := by
  refine ⟨fun f => ?_⟩
  obtain ⟨_, _, _, e⟩ := h.fns f
  obtain ⟨m, d, q, e'⟩ := k.fns f
  exact ⟨m, d, q, by rw [e', e]⟩

theorem mode (h : FnsKept s t) (f : Fn) : (t.fns[f]).mode = (s.fns[f]).mode := by
  obtain ⟨_, _, _, e⟩ := h.fns f
  rw [e]

theorem flrAt (h : FnsKept s t) (f : Fn) : (t.fns[f]).flrAt = (s.fns[f]).flrAt := by
  obtain ⟨_, _, _, e⟩ := h.fns f
  rw [e]

/-- An update that leaves the functions alone. -/
theorem upd (h : FnsKept s₀ s) (same : t.fns = s.fns) : FnsKept s₀ t :=
  ⟨fun f => same ▸ h.fns f⟩

/-- An operation whose mask leaves the functions out. -/
theorem of_keeps {m : Nat} (h : FnsKept s₀ s) (k : Keeps m s t) (out : m &&& Area.fns = 0) : FnsKept s₀ t :=
  h.upd (k.within.fns out)

theorem ite {p : Prop} [Decidable p] (h : FnsKept s₀ s) (k : FnsKept s₀ t) : FnsKept s₀ (if p then s else t) := by
  split
  · exact h
  · exact k

/-- An update of one function that stays within the three fields. -/
theorem modFn (h : FnsKept s₀ s) (f : Fn) (g : FnState → FnState)
    (within : ∃ msix discarded quiesce,
      g s.fns[f] = { s.fns[f] with msix := msix, noticesDiscarded := discarded, quiesce := quiesce }) :
    FnsKept s₀ (s.modFn f g) := by
  refine h.trans ⟨fun f' => ?_⟩
  by_cases same : f = f'
  · subst same
    obtain ⟨m, d, q, e⟩ := within
    exact ⟨m, d, q, (vmod_get s.fns f g).trans e⟩
  · exact ⟨_, _, _, vmod_other s.fns f f' g same⟩

theorem foldl {α : Type} {f : State → α → State} (each : ∀ s x, FnsKept s₀ s → FnsKept s₀ (f s x)) (l : List α)
    (h : FnsKept s₀ s) : FnsKept s₀ (l.foldl f s) := by
  induction l generalizing s with
  | nil => exact h
  | cons x l ih => exact ih (each s x h)

/-! ### Messages, entries and notices -/

theorem signal (fn : Fn) (vector : Nat) (h : FnsKept s₀ s) : FnsKept s₀ (signal fn vector s) := by
  unfold Machine.signal
  split
  case h_1 => exact h
  case h_2 =>
    dsimp only
    split_ifs
    · exact h
    · exact h.modFn _ _ ⟨_, _, _, rfl⟩
    · exact h.upd rfl
    · exact h

theorem post (code fn unit : Nat) (h : FnsKept s₀ s) : FnsKept s₀ (post code fn unit s) :=
  h.upd (by rw [post_eq_modLog]; rfl)

theorem hostSend (fn : Fn) (addr : Nat) (bytes : List Byte) (data : Bool) (h : FnsKept s₀ s) :
    FnsKept s₀ (hostSend fn addr bytes data s) := h.upd (hostSend_fns ..)

theorem millWrite (addr : Nat) (bytes : List Byte) (h : FnsKept s₀ s) : FnsKept s₀ (millWrite addr bytes s) :=
  h.upd (millWrite_fns ..)

theorem signalQueue (q : Fin 32) (h : FnsKept s₀ s) : FnsKept s₀ (signalQueue q s) :=
  (h.upd (State.modQueue_fns ..)).signal _ _

theorem putEntry (q : Fin 32) (e : TqEntry) (h : FnsKept s₀ s) : FnsKept s₀ (putEntry q e s) := by
  have dropped : FnsKept s₀ (s.modQueue q Queue.drop) := h.upd (State.modQueue_fns ..)
  have sent := fun at_ bytes fn =>
    FnsKept.ite (p := (s.queues[q]).millpond = true) (h.millWrite at_ bytes) (h.hostSend fn at_ bytes false)
  have pushed := fun at_ bytes fn n => (sent at_ bytes fn).upd (State.modQueue_fns _ q fun Q => Q.pushed n)
  unfold Machine.putEntry
  exact .ite dropped (.ite dropped (.ite (dropped.post ..) (.ite ((pushed ..).signalQueue q) (pushed ..))))

theorem noteQuiet (fn : Fn) (code : Nat) (job count : Word) (h : FnsKept s₀ s) :
    FnsKept s₀ (noteQuiet fn code job count s) := by
  unfold Machine.noteQuiet
  exact .ite (h.modFn _ _ ⟨_, _, _, rfl⟩) h

theorem notice (fn : Fn) (code : Nat) (job : Word) (status : Nat) (count : Word) (h : FnsKept s₀ s) :
    FnsKept s₀ (notice fn code job status count s) := by
  have noted := h.noteQuiet fn code job count
  unfold Machine.notice
  dsimp only
  split
  case h_1 => exact .ite (noted.putEntry ..) (noted.modFn _ _ ⟨_, _, _, rfl⟩)
  case h_2 => exact noted.modFn _ _ ⟨_, _, _, rfl⟩

theorem hamperDone (op index status : Nat) (count : Word) (h : FnsKept s₀ s) :
    FnsKept s₀ (hamperDone op index status count s) := by
  unfold Machine.hamperDone
  split
  case h_1 => exact h
  case h_2 => exact FnsKept.notice _ _ _ _ _ (h.upd rfl)

/-! ### Channels -/

theorem chanEntry (c : Fin 64) (status flags : Nat) (count : Word) (h : FnsKept s₀ s) :
    FnsKept s₀ (chanEntry c status flags count s) := by
  unfold Machine.chanEntry
  dsimp only
  split
  · exact h
  · split
    case h_1 => exact h.putEntry ..
    case h_2 => exact h

theorem haltChan (c : Fin 64) (cause status : Nat) (write : Bool) (space addr : Nat) (h : FnsKept s₀ s) :
    FnsKept s₀ (haltChan c cause status write space addr s) :=
  FnsKept.post _ _ _ (FnsKept.chanEntry _ _ _ _ (h.upd (State.modChan_fns ..)))

theorem failWait (c : Fin 64) (goOn : Bool) (status : Nat) (h : FnsKept s₀ s) :
    FnsKept s₀ (failWait c goOn status s) := by
  unfold Machine.failWait
  refine .ite ?_ (h.haltChan ..)
  exact (FnsKept.post _ _ _ (h.upd (State.modChan_fns ..))).of_keeps (keeps_chanNext c (Keeps.refl _ _) (Sub.refl _)) rfl

theorem sweepWaits (h : FnsKept s₀ s) : FnsKept s₀ (sweepWaits s) := by
  refine h.foldl (fun s c h => ?_) _
  dsimp only
  split
  case h_1 =>
    split
    case h_1 => exact .ite (h.failWait ..) h
    case h_2 => exact h
  case h_2 => exact h

/-! ### Hoppers, the sampler and comparators -/

theorem hopEntry (i : Fin 16) (status flags count : Nat) (h : FnsKept s₀ s) :
    FnsKept s₀ (hopEntry i status flags count s) := by
  unfold Machine.hopEntry
  dsimp only
  split
  case h_1 => exact h.putEntry ..
  case h_2 => exact h

theorem captureEnd (i : Fin 16) (mode : HopMode) (status flags : Nat) (h : FnsKept s₀ s) :
    FnsKept s₀ (captureEnd i mode status flags s) := FnsKept.hopEntry _ _ _ _ (h.upd (State.modHop_fns ..))

theorem judgeEnd (i : Fin 16) (h : FnsKept s₀ s) : FnsKept s₀ (judgeEnd i s) := .ite (h.captureEnd ..) h

theorem hopStart (i : Fin 16) (code : Nat) (stamp : Held) (flags event : Nat) (h : FnsKept s₀ s) :
    FnsKept s₀ (hopStart i code stamp flags event s) :=
  FnsKept.judgeEnd _ (FnsKept.of_keeps (FnsKept.hopEntry _ _ _ _ (h.upd (State.modHop_fns ..)))
    (keeps_autoCopy i (Keeps.refl _ _) (Sub.refl _)) rfl)

theorem hopTriggerMask (mask : Fin 16 → Bool) (code : Nat) (stamp : Held) (flags : Nat) (h : FnsKept s₀ s) :
    FnsKept s₀ (hopTriggerMask mask code stamp flags s).2 := by
  refine FnsKept.foldl (fun s i h => ?_) _ (.ite h (h.upd rfl))
  refine .ite (h.hopStart ..) (.ite (.ite (FnsKept.judgeEnd _ (h.upd (State.modHop_fns ..))) h) ?_)
  exact FnsKept.post _ _ _ (h.upd (State.modHop_fns ..))

theorem witEntry (status flags count : Nat) (h : FnsKept s₀ s) : FnsKept s₀ (witEntry status flags count s) := by
  unfold Machine.witEntry
  split
  case h_1 => exact h.putEntry ..
  case h_2 => exact h

theorem witTrigger (chosen : Bool) (code : Nat) (stamp : Held) (flags event : Nat) (h : FnsKept s₀ s) :
    FnsKept s₀ (witTrigger chosen code stamp flags event s) := by
  have ignored := FnsKept.post 0x7105 wide wide
    (h.upd (State.modWit_fns s fun w => { w with ignored := w.ignored + 1 }))
  unfold Machine.witTrigger
  refine .ite h ?_
  extract_lets
  refine .ite ?_ ?_
  · exact FnsKept.witEntry _ _ _ ((h.upd (State.modWit_fns ..)).upd (State.modWit_fns ..))
  · split
    case h_1 => exact .ite (h.upd (State.modWit_fns ..)) ignored
    case h_2 => exact ignored

theorem publish (code : Nat) (stamp : Held) (flags : Nat) (h : FnsKept s₀ s) : FnsKept s₀ (publish code stamp flags s) := by
  unfold Machine.publish publishMask
  exact ((h.hopTriggerMask ..).witTrigger ..).of_keeps (keeps_slotBump _ _ (Keeps.refl _ _) (Sub.refl _)) rfl

theorem cmpRecord (n : Fin 16) (skip : Bool) (r : Reach) (merged done : Bool) (h : FnsKept s₀ s) :
    FnsKept s₀ (cmpRecord n skip r merged done s) := by
  unfold Machine.cmpRecord
  extract_lets c fn event points moved
  have recorded : FnsKept s₀ moved := h.upd (State.modCmp_fns ..)
  obtain ⟨time, stepped⟩ := release s r.at_
  dsimp -zeta only
  extract_lets flags bytes delivered
  have delivered : FnsKept s₀ delivered :=
    recorded.ite (recorded.of_keeps (keeps_deliver _ _ _ _ (Keeps.refl _ _) (Sub.refl _)) rfl)
  split
  case h_1 => exact delivered.putEntry ..
  case h_2 => exact delivered

theorem cmpFires (n : Fin 16) (r : Reach) (h : FnsKept s₀ s) : FnsKept s₀ (cmpFires n r s) := by
  unfold Machine.cmpFires
  extract_lets c done
  have fired : FnsKept s₀ (fireTrigs (fun t => t.cmpMask.getLsbD n) r.late r.inferred (cmpLead s c r) s).2 :=
    h.of_keeps (keeps_fireTrigs _ _ _ _ (Keeps.refl _ _) (Sub.refl _)) rfl
  rcases e : fireTrigs (fun t => t.cmpMask.getLsbD n) r.late r.inferred (cmpLead s c r) s with ⟨merged, fires⟩
  rw [e] at fired
  dsimp -zeta only at fired ⊢
  extract_lets driven recorded moved late inferred published
  have driven : FnsKept s₀ driven := fired.of_keeps (keeps_driveXtrs _ (Keeps.refl _ _) (Sub.refl _)) rfl
  have moved : FnsKept s₀ moved := (driven.cmpRecord ..).upd (State.modCmp_fns ..)
  have late : FnsKept s₀ late := .ite (moved.post ..) moved
  have inferred : FnsKept s₀ inferred := .ite (late.post ..) late
  have published : FnsKept s₀ published :=
    (inferred.publish ..).of_keeps (keeps_slotBump _ _ (Keeps.refl _ _) (Sub.refl _)) rfl
  exact .ite published.sweepWaits published

theorem timeFires (n : Fin 16) (r : Reach) (h : FnsKept s₀ s) : FnsKept s₀ (timeFires n r s) :=
  FnsKept.cmpFires _ _ (h.upd (State.modCmp_fns ..))

theorem interpStep (n : Fin 16) (until_ : Int) (h : FnsKept s₀ s) : FnsKept s₀ (interpStep n until_ s).2 := by
  unfold Machine.interpStep
  extract_lets c
  split
  case h_1 => exact h
  case h_2 ch _ =>
    extract_lets p stop
    split
    · exact h
    · split
      case h_1 => exact FnsKept.cmpFires _ _ (h.upd (State.modCmp_fns ..))
      case h_2 => exact h.upd (State.modCmp_fns ..)

theorem interpAll (k : Nat) (n : Fin 16) (until_ : Int) (h : FnsKept s₀ s) : FnsKept s₀ (interpAll k n until_ s) := by
  induction k generalizing s with
  | zero => exact h
  | succ k ih =>
    unfold Machine.interpAll
    have stepped := h.interpStep n until_
    rcases e : Machine.interpStep n until_ s with ⟨more, next⟩
    rw [e] at stepped
    dsimp only at stepped ⊢
    exact .ite (ih stepped) stepped

theorem comparatorFires (n : Fin 16) (h : FnsKept s₀ s) : FnsKept s₀ (comparatorFires n s) := by
  unfold Machine.comparatorFires
  refine .ite h ?_
  split
  case h_1 => exact .ite (h.timeFires ..) (h.cmpFires ..)
  case h_2 =>
    refine .ite ?_ (h.interpStep ..)
    split
    case h_1 => exact h.timeFires ..
    case h_2 => exact h

theorem settleOne (n : Fin 16) (h : FnsKept s₀ s) : FnsKept s₀ (settleOne n s) := by
  unfold Machine.settleOne
  extract_lets c
  split
  case h_1 => exact .ite (h.comparatorFires n) h
  case h_2 => exact .ite h (h.interpAll ..)

/-! ### Epochs -/

theorem finishCommit (f : Fn) (h : FnsKept s₀ s) : FnsKept s₀ (finishCommit f s) := by
  unfold Machine.finishCommit
  split
  case h_1 => exact h
  case h_2 c _ =>
    refine .ite h ?_
    extract_lets ended released readmitted count done
    have readmitted : FnsKept s₀ readmitted := by
      refine FnsKept.foldl (fun s n h => .ite ?_ h) _ (h.upd rfl)
      refine h.of_keeps (m := Area.prep ||| Area.weir ||| Area.log)
        (keeps_pyrReadmit _ _ (Keeps.foldl (fun _ _ k => ?_) ?_) rfl) rfl
      · exact keeps_setFlow _ k rfl
      · exact keeps_admitStream _ _ (Keeps.refl _ _) rfl
    refine FnsKept.foldl (fun s g h => .ite (h.notice ..) h) _ (readmitted.hamperDone ..)

theorem switchStream (n : Fin 32) (h : FnsKept s₀ s) : FnsKept s₀ (switchStream n s) := by
  refine h.foldl (fun s f h => ?_) _
  dsimp only
  split
  case h_1 => exact .ite (FnsKept.finishCommit _ ((h.upd (State.modStream_fns ..)).upd (State.modEpochs_fns ..))) h
  case h_2 => exact h

end FnsKept

end Sys2Proof.Machine
end

section
/-! SUPPORT. The fence of a function (R56 to R65): which functions a fence marks, and what it leaves of the others. -/

namespace Sys2Proof.Machine

/-! ### What a fence does to the functions -/

/-- What a fence settles before its function's registers are reset. -/
def fenceSettled (fn : Fn) (s : State) : State := fenceCmps fn (settleCmpsOf fn (cutChans fn s))

/-- What a fence stops once its function's registers are reset. -/
def fenceStopped (fn : Fn) (s : State) : State :=
  sweepWaits (fenceRoutes fn (fencePrep fn (fenceChans fn (fenceHoppers fn (fenceStreams fn (fenceHampers fn
    (fenceQueues fn s)))))))

theorem beginFence_of_mode {fn : Fn} {s : State} (mode : (s.fns[fn]).mode = .bare ∨ (s.fns[fn]).mode = .ready) :
    beginFence fn s = fenceStopped fn (fenceRegisters fn (fenceSettled fn s)) := by
  rcases mode with mode | mode <;> simp only [beginFence, mode] <;> rfl

theorem beginFence_other {fn : Fn} {s : State} (mode : ¬ ((s.fns[fn]).mode = .bare ∨ (s.fns[fn]).mode = .ready)) :
    beginFence fn s = s := by
  unfold beginFence
  split
  case h_1 e => exact (mode (.inl e)).elim
  case h_2 e => exact (mode (.inr e)).elim
  case h_3 => rfl

theorem fnsKept_fenceSettled (fn : Fn) (s : State) : FnsKept s (fenceSettled fn s) := by
  have cut : FnsKept s (cutChans fn s) :=
    (FnsKept.refl s).of_keeps (keeps_cutChans fn (Keeps.refl _ s) (Sub.refl _)) rfl
  have settled : FnsKept s (settleCmpsOf fn (cutChans fn s)) := cut.foldl (fun _ n h => .ite (h.settleOne n) h) _
  exact settled.of_keeps (keeps_fenceCmps fn (Keeps.refl _ _) (Sub.refl _)) rfl

theorem fnsKept_fenceStreams (fn : Fn) (s : State) : FnsKept s (fenceStreams fn s) :=
  ((FnsKept.refl s).upd (State.modEpochs_fns ..)).foldl
    (fun _ n h => .ite (FnsKept.switchStream n (h.upd (State.modStream_fns ..))) h) _

theorem fnsKept_fenceStopped (fn : Fn) (s : State) : FnsKept s (fenceStopped fn s) := by
  have queues : FnsKept s (fenceQueues fn s) := (FnsKept.refl s).upd (by simp only [fenceQueues])
  have hampers := queues.of_keeps (keeps_fenceHampers fn (Keeps.refl _ _) (Sub.refl _)) rfl
  have streams := hampers.trans (fnsKept_fenceStreams fn _)
  have hoppers := streams.of_keeps (keeps_fenceHoppers fn (Keeps.refl _ _) (Sub.refl _)) rfl
  have chans : FnsKept s (fenceChans fn (fenceHoppers fn (fenceStreams fn (fenceHampers fn (fenceQueues fn s))))) :=
    hoppers.upd (by simp only [fenceChans])
  have prep := chans.of_keeps (keeps_fencePrep fn (Keeps.refl _ _) (Sub.refl _)) rfl
  have routes := prep.of_keeps (keeps_fenceRoutes fn (Keeps.refl _ _) (Sub.refl _)) rfl
  exact routes.sweepWaits

theorem fenceSettled_elapsed (fn : Fn) (s : State) : (fenceSettled fn s).elapsed = s.elapsed := by
  have cut := keeps_cutChans fn (Keeps.refl _ s) (Sub.refl _)
  have settled := keeps_settleCmpsOf fn (Keeps.refl _ (cutChans fn s)) (Sub.refl _)
  have disarmed := keeps_fenceCmps fn (Keeps.refl _ (settleCmpsOf fn (cutChans fn s))) (Sub.refl _)
  exact disarmed.within.elapsed.trans (settled.within.elapsed.trans cut.within.elapsed)

/-- A fence marks its function with the time at which it began (R56), if it was BARE or READY. -/
theorem beginFence_marks {fn : Fn} {s : State} (mode : (s.fns[fn]).mode = .bare ∨ (s.fns[fn]).mode = .ready) :
    ((beginFence fn s).fns[fn]).mode = .fencing ∧ ((beginFence fn s).fns[fn]).flrAt = some s.elapsed := by
  have stopped := fnsKept_fenceStopped fn (fenceRegisters fn (fenceSettled fn s))
  have reset : (fenceRegisters fn (fenceSettled fn s)).fns[fn] = { FnState.reset .fencing with
      flrAt := some (fenceSettled fn s).elapsed, transPending := true
      aer := ((fenceSettled fn s).fns[fn]).aer, serialHi := ((fenceSettled fn s).fns[fn]).serialHi } := by
    rw [fenceRegisters, State.modFn_fns, vmod_get]
  rw [beginFence_of_mode mode, stopped.mode, stopped.flrAt, reset, fenceSettled_elapsed]
  exact ⟨rfl, rfl⟩

/-- A fence leaves the modes and marks of the other functions. -/
theorem beginFence_leaves {fn f : Fn} (s : State) (other : fn ≠ f) :
    ((beginFence fn s).fns[f]).mode = (s.fns[f]).mode ∧ ((beginFence fn s).fns[f]).flrAt = (s.fns[f]).flrAt := by
  by_cases mode : (s.fns[fn]).mode = .bare ∨ (s.fns[fn]).mode = .ready
  · have settled := fnsKept_fenceSettled fn s
    have stopped := fnsKept_fenceStopped fn (fenceRegisters fn (fenceSettled fn s))
    have same : (fenceRegisters fn (fenceSettled fn s)).fns[f] = (fenceSettled fn s).fns[f] := by
      rw [fenceRegisters, State.modFn_fns]
      exact vmod_other _ _ _ _ other
    rw [beginFence_of_mode mode, stopped.mode, stopped.flrAt, same, settled.mode, settled.flrAt]
    exact ⟨rfl, rfl⟩
  · rw [beginFence_other mode]
    exact ⟨rfl, rfl⟩

theorem beginFence_elapsed (fn : Fn) (s : State) : (beginFence fn s).elapsed = s.elapsed :=
  (keeps_beginFence fn (Keeps.refl _ s) (Sub.refl _)).within.elapsed

/-! ### The fences of several functions -/

/-- While functions are fenced one by one from `a` on, each one that was BARE or READY there still is, or is marked with the
time of `a`. -/
structure Fencing (a s : State) : Prop where
  elapsed : s.elapsed = a.elapsed
  fns : ∀ f : Fn, ((a.fns[f]).mode = .bare ∨ (a.fns[f]).mode = .ready) →
    (s.fns[f]).mode = (a.fns[f]).mode ∨ ((s.fns[f]).mode = .fencing ∧ (s.fns[f]).flrAt = some a.elapsed)

theorem Fencing.refl (a : State) : Fencing a a := ⟨rfl, fun _ _ => .inl rfl⟩

theorem Fencing.beginFence {a s : State} (h : Fencing a s) (fn : Fn) : Fencing a (beginFence fn s) := by
  refine ⟨(beginFence_elapsed fn s).trans h.elapsed, fun f was => ?_⟩
  by_cases same : fn = f
  · subst same
    rcases h.fns fn was with now | now
    · right
      rw [← h.elapsed]
      exact beginFence_marks (now ▸ was)
    · right
      rw [beginFence_other (by simp [now, -Fin.getElem_fin])]
      exact now
  · obtain ⟨mode, flrAt⟩ := beginFence_leaves s same
    rw [mode, flrAt]
    exact h.fns f was

/-- A marked function stays marked. -/
theorem marked_beginFence {fn f : Fn} {s : State} {t : Nat}
    (marked : (s.fns[f]).mode = .fencing ∧ (s.fns[f]).flrAt = some t) :
    ((beginFence fn s).fns[f]).mode = .fencing ∧ ((beginFence fn s).fns[f]).flrAt = some t := by
  by_cases same : fn = f
  · subst same
    rw [beginFence_other (by simp [marked, -Fin.getElem_fin])]
    exact marked
  · obtain ⟨mode, flrAt⟩ := beginFence_leaves s same
    rw [mode, flrAt]
    exact marked

/-- The virtual functions of a list are fenced. -/
theorem fences_mark (a : State) (f : Fn) (was : (a.fns[f]).mode = .bare ∨ (a.fns[f]).mode = .ready) (l : List Fn) :
    ∀ s, Fencing a s →
      ((s.fns[f]).mode = .fencing ∧ (s.fns[f]).flrAt = some a.elapsed ∨ f ≠ 0 ∧ f ∈ l) →
      ((l.foldl (fun s f => if f = 0 then s else beginFence f s) s).fns[f]).mode = .fencing ∧
      ((l.foldl (fun s f => if f = 0 then s else beginFence f s) s).fns[f]).flrAt = some a.elapsed := by
  induction l with
  | nil =>
    rintro s - (marked | ⟨-, none⟩)
    · exact marked
    · exact nomatch none
  | cons g l ih =>
    intro s fencing turn
    rw [List.foldl_cons]
    by_cases pf : g = 0
    · rw [if_pos pf]
      refine ih s fencing (turn.imp_right fun ⟨vf, mem⟩ => ⟨vf, ?_⟩)
      exact (List.mem_cons.mp mem).resolve_left fun e => vf (e.trans pf)
    · rw [if_neg pf]
      refine ih _ (fencing.beginFence g) ?_
      rcases turn with marked | ⟨vf, mem⟩
      · exact .inl (marked_beginFence marked)
      · rcases List.mem_cons.mp mem with same | later
        · subst same
          rcases fencing.fns f was with now | now
          · exact .inl (fencing.elapsed ▸ beginFence_marks (now ▸ was))
          · exact .inl (marked_beginFence now)
        · exact .inr ⟨vf, later⟩

end Sys2Proof.Machine
end

section
/-! SUPPORT. The PCIe link (R31 to R34, R65, R131, R492, R494): training, PERST#, hot reset and DL_Down. -/

namespace Sys2Proof.Machine

/-! ### PERST# and full resets -/

theorem mainIsReset_mainReset (warm : Bool) (s : State) : MainIsReset s (mainReset warm s) :=
  ⟨rfl, rfl, rfl, rfl, rfl, rfl, rfl, rfl, rfl, rfl, rfl, rfl, rfl, rfl, rfl, rfl, rfl, rfl, rfl, rfl, rfl, rfl, rfl, rfl, rfl⟩

theorem MainIsReset.of_wake {s : State} (source : WakeSource) (from_ : Nat) (parked : s.pwr.state = .parked) :
    MainIsReset s (wake source from_ s) := by
  simp only [wake, parked]
  exact mainIsReset_mainReset false s

theorem assertReset_running {s : State} (src : ResetSource)
    (on : s.pwr.state = .starting ∨ s.pwr.state = .running ∨ s.pwr.state = .shutdown) (first : s.pwr.resetHeld = []) :
    MainIsReset s (assertReset src s) ∧ (assertReset src s).pwr.state = .starting ∧
      (assertReset src s).pwr.resetHeld = [src] ∧ (assertReset src s).pwr.cause = src.code ∧
      (assertReset src s).link.perstLow = s.link.perstLow := by
  have held : (if s.pwr.resetHeld.contains src then s.pwr.resetHeld else src :: s.pwr.resetHeld) = [src] := by
    simp [first]
  rcases on with on | on | on <;>
    (simp only [assertReset, on, held]; exact ⟨mainIsReset_mainReset _ s, trivial, trivial, rfl, rfl⟩)

theorem running_of_mainRuns {s : State} (runs : mainRuns s = true) :
    (s.pwr.state = .starting ∨ s.pwr.state = .running ∨ s.pwr.state = .shutdown) ∧ s.pwr.resetHeld = [] := by
  simp only [mainRuns, Bool.and_eq_true, List.isEmpty_iff] at runs
  obtain ⟨⟨-, none⟩, state⟩ := runs
  refine ⟨?_, none⟩
  split at state <;> simp_all

theorem claims_perstDeassert : Claims.perstDeassert := by
  refine ⟨?inRun, ?parked, ?shutdown⟩
  case inRun =>
    refine Acts.of_meaning perstDeasserts (fun _ _ => rfl) ?_
    rintro a ⟨low, on | on⟩ <;> simp [perstDeasserts, State.modPower, low, on]
  case parked =>
    refine ActsSo.of_meaning perstDeasserts (fun _ _ => rfl) ?_
    rintro a ⟨low, parked⟩
    simp only [perstDeasserts, State.modPower, low, parked, not_true_eq_false, if_false, wake]
    exact ⟨trivial, trivial, trivial, trivial, mainIsReset_mainReset false a⟩
  case shutdown =>
    refine Acts.of_meaning perstDeasserts (fun _ _ => rfl) ?_
    rintro a ⟨low, down, none⟩
    simp [perstDeasserts, State.modPower, low, down, none, wake]

theorem claims_hotResetReceived : Claims.hotResetReceived := by
  refine ActsSo.of_meaning (fun a => if a.link.up then assertReset .hotReset a else a) (fun _ _ => rfl) ?_
  rintro a ⟨up, on, first⟩
  obtain ⟨main, state, held, cause, -⟩ := assertReset_running .hotReset on first
  simp only [up, if_true]
  exact ⟨state, held, cause, main⟩

theorem claims_perstAssert : Claims.perstAssert := by
  refine ActsSo.of_meaning perstAsserts (fun _ _ => rfl) ?_
  rintro a ⟨high, runs, ended⟩
  obtain ⟨on, first⟩ := running_of_mainRuns runs
  let b : State := { a with
    link := { a.link with perstLow := true }
    pwr := { a.pwr with parkFrom := if a.pwr.carWake then none else some a.elapsed } }
  have asserted : perstAsserts a = assertReset .perst b := by
    rw [perstAsserts, if_neg (by simp [high])]
    exact if_pos (.inl ⟨runs, ended⟩)
  obtain ⟨main, state, held, cause, low⟩ := assertReset_running (s := b) .perst on first
  rw [asserted]
  exact ⟨state, held, cause, low, main⟩

/-! ### Training -/

theorem linkChange_same {speed width : Nat} {a : State}
    (same : a.link.width = 0 ∨ (a.link.speed.toNat = speed ∧ a.link.width.toNat = width)) :
    linkChange speed width a = { a with link := { a.link with
      speed := BitVec.ofNat 4 speed, width := BitVec.ofNat 3 width, flit := decide (speed = 6) } } := by
  have steady : (a.link.width != 0 && (a.link.speed.toNat != speed || a.link.width.toNat != width)) = false := by
    rcases same with first | ⟨speed, width⟩
    · simp [first]
    · simp [speed, width]
  simp only [linkChange, steady, Bool.or_false, Bool.false_eq_true, if_false]

theorem linkChange_other {speed width : Nat} {a : State} (trained : a.link.width ≠ 0)
    (other : a.link.speed.toNat ≠ speed ∨ a.link.width.toNat ≠ width) :
    linkChange speed width a = post 0x1109 wide wide { a with link := { a.link with
      speed := BitVec.ofNat 4 speed, width := BitVec.ofNat 3 width, flit := decide (speed = 6), changed := true } } := by
  have differs : (a.link.width != 0 && (a.link.speed.toNat != speed || a.link.width.toNat != width)) = true := by
    simpa only [Bool.and_eq_true, bne_iff_ne, Bool.or_eq_true] using ⟨trained, other⟩
  simp only [linkChange, differs, Bool.or_true, if_true]

theorem linkLegal_of {speed width : Nat} (low : 1 ≤ speed) (high : speed ≤ 6) (lanes : width = 1 ∨ width = 2 ∨ width = 4) :
    linkLegal speed width = true := by
  simp [linkLegal, low, high, or_assoc, lanes]

theorem claims_linkTrained : Claims.linkTrained := by
  intro speed width reversed legal trained
  have trains {a : State} (l : legal a) : linkTrains speed width reversed a =
      { linkChange speed width a with
        link := { (linkChange speed width a).link with up := true, reversed := reversed } } := by
    obtain ⟨low, high, lanes, runs, clock, perst, down⟩ := l
    rw [linkTrains, if_pos (by simp [linkLegal_of low high lanes, runs, clock, perst, down])]
  refine ⟨Acts.of_meaning (linkTrains speed width reversed) (fun _ _ => rfl) ?_,
    Acts.of_meaning (linkTrains speed width reversed) (fun _ _ => rfl) ?_⟩
  · rintro a ⟨l, same⟩
    rw [trains l, linkChange_same same]
  · rintro a ⟨l, before, differs⟩
    rw [trains l, linkChange_other before differs]
    simp only [post_eq_modLog]
    rfl

theorem claims_linkRetrainChange : Claims.linkRetrainChange := by
  intro speed width
  refine Acts.of_meaning (fun a => if linkLegal speed width && a.link.up then linkChange speed width a else a)
    (fun _ _ => rfl) ?_
  rintro a ⟨low, high, lanes, up, before, differs⟩
  exact (if_pos (by simp [linkLegal_of low high lanes, up])).trans (linkChange_other before differs)

/-! ### DL_Down -/

theorem jot_fns (kind step inst route durationUs cause detail : Nat) (s : State) :
    (jot kind step inst route durationUs cause detail s).fns = s.fns := State.modMram_fns ..

theorem jot_link (kind step inst route durationUs cause detail : Nat) (s : State) :
    (jot kind step inst route durationUs cause detail s).link = s.link := State.modMram_link ..

theorem setPtmEnable_fns (on : Bool) (s : State) : (setPtmEnable on s).fns = s.fns := by
  unfold setPtmEnable
  split <;> rfl

theorem linkDown_of_up {a : State} (up : a.link.up = true) :
    (linkDown a).link.up = false ∧ (linkDown a).link.vfEnable = false ∧ (linkDown a).link.ptmEnable = false ∧
      (linkDown a).link.numVfs = 0 ∧
      (linkDown a).fns = (fenceVfs (beginFence 0 a)).fns.map fun f =>
        { f with aer := Aer.reset, cfg := [], malformedMasked := false } := by
  simp only [linkDown, up, not_true_eq_false, if_false, jot_link, jot_fns, setPtmEnable_fns, true_and]

/-- Every function that was BARE or READY is marked once PF0 and the virtual functions are fenced. -/
theorem fenceVfs_beginFence_marks {a : State} {f : Fn} (was : (a.fns[f]).mode = .bare ∨ (a.fns[f]).mode = .ready) :
    ((fenceVfs (beginFence 0 a)).fns[f]).mode = .fencing ∧
      ((fenceVfs (beginFence 0 a)).fns[f]).flrAt = some a.elapsed := by
  have first := (Fencing.refl a).beginFence 0
  have begun : Fencing a { beginFence 0 a with link := { (beginFence 0 a).link with vfEnable := false } } :=
    ⟨first.elapsed, first.fns⟩
  refine fences_mark a f was (allFin 16) _ begun ?_
  by_cases pf : f = 0
  · subst pf
    exact .inl (beginFence_marks was)
  · exact .inr ⟨pf, List.mem_finRange f⟩

theorem claims_dlDown : Claims.dlDown := by
  refine ActsSo.of_meaning linkDown (fun _ _ => rfl) fun a up => ?_
  obtain ⟨down, vf, ptm, vfs, fns⟩ := linkDown_of_up up
  have each (f : Fn) : (linkDown a).fns[f] =
      { (fenceVfs (beginFence 0 a)).fns[f] with aer := Aer.reset, cfg := [], malformedMasked := false } := by
    rw [fns]
    exact Vector.getElem_map ..
  refine ⟨down, vf, ptm, vfs, fun f => ?_, fun f was => ?_⟩
  · rw [each]
    exact ⟨rfl, rfl⟩
  · simp only [each]
    exact fenceVfs_beginFence_marks was

/-- Settles O16: the claims of the link's commands, each from its meaning. -/
theorem linkTrainsAndResets : Obligations.LinkTrainsAndResets := by
  unfold Obligations.LinkTrainsAndResets
  exact ⟨claims_perstDeassert, claims_linkTrained, claims_linkRetrainChange, claims_hotResetReceived, claims_perstAssert,
    claims_dlDown⟩

end Sys2Proof.Machine
end

section
/-! SUPPORT. Configuration requests, FLR and its fence, VF Enable and Bus Master Enable (R34 to R40, R56 to R66). -/

namespace Sys2Proof.Machine

/-! ### What reaches a function -/

theorem cfgReaches_reached {a : State} {fn : Fn} (reached : Reached a fn) : cfgReaches a fn = true := by
  obtain ⟨up, past, mode⟩ := reached
  have late : since a (some a.link.rrsFrom) (ticksMs 60) = true := decide_eq_true past
  rcases mode with mode | mode <;> simp only [cfgReaches, up, late, mode, Bool.and_self]

/-- Past the 60 ms of RRS a BARE or READY function takes the request (R34, R56). -/
theorem configAccess_reached {a : State} {fn : Fn} (req : ConfigReq) (reached : Reached a fn) :
    configAccess fn req a =
      match req with
      | .read off => emit (.completion fn [cfgRead a fn (off / 4 * 4)]) a
      | .write off v => cfgActs fn (off / 4 * 4) v
          (cfgStore fn (off / 4 * 4) (cfgTaken (emit (.completion fn []) a) fn (off / 4 * 4) v) (emit (.completion fn []) a)) := by
  obtain ⟨up, past, mode⟩ := reached
  have late : since a (some a.link.rrsFrom) (ticksMs 60) = true := decide_eq_true past
  rcases mode with mode | mode <;> cases req <;>
    simp [configAccess, up, late, mode, -Fin.getElem_fin]

theorem claims_configRequest : Claims.configRequest := by
  refine ⟨fun fn req => ?rrs, ?identity, fun fn v => ?command⟩
  case rrs =>
    refine Acts.of_meaning (configAccess fn req) (fun _ _ => rfl) ?_
    rintro a ⟨up, early⟩
    have young : ¬ since a (some a.link.rrsFrom) (ticksMs 60) = true := by
      simpa [since] using early
    rw [configAccess, if_neg (not_not.mpr up), if_pos young]
  case identity =>
    refine Acts.of_meaning (configAccess 0 (.read 0)) (fun _ _ => rfl) fun a reached => ?_
    have awake : ¬ (a.fns[(0 : Fn)]).mode = .wedged := by
      rcases reached.2.2 with mode | mode <;> (rw [mode]; decide)
    have read : cfgRead a 0 (0 / 4 * 4) = 0x06481F86 := by
      simp only [cfgRead, cfgView, if_neg awake]
      rfl
    rw [configAccess_reached _ reached]
    exact congrArg (fun w => emit (.completion 0 [w]) a) read
  case command =>
    refine Acts.of_meaning (configAccess fn (.write 4 v)) (fun _ _ => rfl) ?_
    rintro a ⟨reached, master⟩
    have taken : cfgTaken (emit (.completion fn []) a) fn (4 / 4 * 4) v = v := if_neg fun h => nomatch h.2.1
    rw [configAccess_reached _ reached]
    simp only [taken, cfgActs, master, if_true, cfgStore, State.modFn, vmod_vmod]

/-! ### FLR -/

theorem claims_flrInitiate : Claims.flrInitiate := by
  intro fn
  refine ⟨?fences, fun a => ?registers, fun a q mine => ?queues, fun a c mine => ?chans⟩
  case fences =>
    refine Acts.of_meaning (fun a => if cfgReaches a fn then flr fn a else a) (fun _ _ => rfl) ?_
    rintro a ⟨vf, reached⟩
    rw [if_pos (cfgReaches_reached reached), flr, if_pos vf]
    exact beginFence_of_mode reached.2.2
  case registers => rw [fenceRegisters, State.modFn_fns, vmod_get]
  case queues => simpa [fenceQueues] using fun other => (other mine).elim
  case chans => simpa [fenceChans] using fun other => (other mine).elim

theorem claims_fenceClosed : Claims.fenceClosed := by
  intro fn t0
  refine ActsSo.of_meaning (fenceCloses fn) (fun _ _ => rfl) ?_
  rintro a ⟨fencing, began, inTime⟩
  have open_ : ¬ due a ((a.fns[fn]).flrAt.map fun t => t + ticksMs 100 + 1) = true := by
    simp only [began, Option.map_some, due, decide_eq_true_eq]
    omega
  rw [fenceCloses]
  simp only [if_pos (And.intro fencing open_), State.modFn_fns, vmod_get]
  exact ⟨rfl, trivial, trivial⟩

theorem claims_fenceTimeoutWedge : Claims.fenceTimeoutWedge := by
  intro fn holder t0
  refine Acts.of_meaning (fenceWedges fn holder) (fun _ _ => rfl) ?_
  rintro a ⟨fencing, began, late⟩
  have past : since a (a.fns[fn]).flrAt (ticksMs 100) = true := by
    rw [began]
    exact decide_eq_true late
  exact if_pos ⟨fencing, past⟩

/-! ### SR-IOV -/

theorem claims_vfEnableSet : Claims.vfEnableSet := by
  refine ActsSo.of_meaning (fun a => if cfgReaches a 0 ∧ ¬ a.link.vfEnable then enableVfs a else a) (fun _ _ => rfl) ?_
  rintro a ⟨reached, off⟩
  rw [if_pos ⟨cfgReaches_reached reached, by simp [off]⟩]
  refine ⟨rfl, fun f => ?_⟩
  simp only [enableVfs, Fin.getElem_fin, Vector.getElem_ofFn]
  split <;> rfl

theorem claims_vfEnableClear : Claims.vfEnableClear := by
  refine Acts.of_meaning (fun a => if cfgReaches a 0 ∧ a.link.vfEnable then fenceVfs a else a) (fun _ _ => rfl) ?_
  rintro a ⟨reached, on⟩
  exact if_pos ⟨cfgReaches_reached reached, on⟩

/-! ### Bus Master Enable -/

theorem claims_busMasterEnableClear : Claims.busMasterEnableClear := by
  intro fn addrs
  refine ActsSo.of_meaning
    (fun a => if cfgReaches a fn && (a.fns[fn]).busMaster then clearBusMaster fn addrs a else a) (fun _ _ => rfl) ?_
  rintro a ⟨reached, master⟩
  rw [if_pos (by simp [cfgReaches_reached reached, master, -Fin.getElem_fin])]
  refine ⟨rfl, fun q mine enabled => ?_⟩
  simp only [clearBusMaster, Fin.getElem_fin, Vector.getElem_ofFn] at mine enabled ⊢
  split at enabled
  case isTrue owned => rw [if_pos owned]
  case isFalse other => exact (other ⟨mine, enabled⟩).elim

theorem claims_busMasterEnableSet : Claims.busMasterEnableSet := by
  intro fn
  refine Acts.of_meaning (fun a => if cfgReaches a fn then a.modFn fn fun f => { f with busMaster := true } else a)
    (fun _ _ => rfl) fun a reached => ?_
  exact if_pos (cfgReaches_reached reached)

/-- Settles O17: the claims of configuration, of the fence and of Bus Master Enable, each from its meaning. -/
theorem functionsAreConfiguredAndFenced : Obligations.FunctionsAreConfiguredAndFenced := by
  unfold Obligations.FunctionsAreConfiguredAndFenced
  exact ⟨claims_configRequest, claims_flrInitiate, claims_fenceClosed, claims_fenceTimeoutWedge, claims_vfEnableSet,
    claims_vfEnableClear, claims_busMasterEnableClear, claims_busMasterEnableSet⟩

end Sys2Proof.Machine
end

section
/-! SUPPORT. BAR0 registers, BAR2 and bus errors (R32, R40, R44, R50 to R55, R67, R68, R106). -/

namespace Sys2Proof.Machine

/-! ### Registers outside the windows of resources -/

theorem readRegister_open {a : State} {fn : Fn} {off : Nat} (op : State → Word × State) (reached : Reached a fn)
    (low : off < 0x40000) (window : windowOwner a off = none) :
    readRegister fn off op a = emit (.completion fn [(op a).1]) (op a).2 :=
  readRegister_pass op (reaches_reached reached low) (gateOf_open reached window)

theorem writeRegister_open {a : State} {fn : Fn} {off : Nat} (op : State → State) (reached : Reached a fn)
    (low : off < 0x40000) (window : windowOwner a off = none) : writeRegister fn off op a = op a :=
  writeRegister_pass op (reaches_reached reached low) (gateOf_open reached window)

theorem readRegister_owned {a : State} {fn : Fn} {off i : Nat} (op : State → Word × State) (reached : Reached a fn)
    (window : windowOwner a off = some (fn, i)) :
    readRegister fn off op a = emit (.completion fn [(op a).1]) (op a).2 :=
  readRegister_pass op (reaches_reached reached (lt_of_windowOwner_eq_some window)) (gateOf_owned reached window)

theorem writeRegister_owned {a : State} {fn : Fn} {off i : Nat} (op : State → State) (reached : Reached a fn)
    (window : windowOwner a off = some (fn, i)) : writeRegister fn off op a = op a :=
  writeRegister_pass op (reaches_reached reached (lt_of_windowOwner_eq_some window)) (gateOf_owned reached window)

/-! ### Writes and reads of BAR0 -/

theorem claims_registerWrite : Claims.registerWrite := by
  intro fn v
  refine ⟨?scratch, fun off be low part => ?lacks⟩
  case scratch =>
    refine Acts.of_meaning (bar0Write fn 0x30 [(v, 0xF)]) (fun _ _ => rfl) fun a reached => ?_
    rw [bar0Write_doubleword fn 0x30 v a rfl, writeRegister_open _ reached (by decide) rfl]
    rfl
  case lacks =>
    refine Acts.of_meaning (bar0Write fn off [(v, be)]) (fun _ _ => rfl) fun a reached => ?_
    have lacks : ([(v, be)].any fun w => decide (w.2 ≠ 0xF)) = true := by simpa using part
    simp only [bar0Write, reaches_reached reached low, lacks, if_true]
    rfl

theorem claims_bar0ReadRejected : Claims.bar0ReadRejected := by
  intro fn
  refine ⟨fun off bytes low long => ?aborted, ?unimplemented⟩
  case aborted =>
    refine Acts.of_meaning (bar0Read fn off bytes) (fun _ _ => rfl) fun a reached => ?_
    simp only [bar0Read, reaches_reached reached low, if_pos long]
  case unimplemented =>
    refine Acts.of_meaning (bar0Read fn 0x34 4) (fun _ _ => rfl) fun a reached => ?_
    rw [bar0Read_doubleword fn 0x34 a rfl, readRegister_open _ reached (by decide) rfl]
    rfl

theorem claims_serialLoRead : Claims.serialLoRead := by
  intro fn
  refine Acts.of_meaning (readRegister fn 0x1C (readSerialLo fn)) (fun _ _ => rfl) fun a reached => ?_
  rw [readRegister_open _ reached (by decide) rfl]
  rfl

/-! ### BAR2 -/

/-- The enabled bytes of a BAR2 write as they change a memory. -/
def storeEnabled : Nat → List (Option Byte) → Memory → Memory
  | _, [], m => m
  | off, none :: rest, m => storeEnabled (off + 1) rest m
  | off, some b :: rest, m => storeEnabled (off + 1) rest (Memory.write m off b)

/-- Inside the grant every enabled byte is stored. -/
theorem bar2Store_inside (bytes : List (Option Byte)) : ∀ (off : Nat) (s : State), grantBase ≤ off →
    off + bytes.length ≤ grantBase + s.weir.grantKib * 1024 →
    bar2Store off bytes s = { s with millpond := storeEnabled off bytes s.millpond } := by
  induction bytes with
  | nil => intro off s _ _; rfl
  | cons b rest ih =>
    intro off s low high
    rw [List.length_cons] at high
    cases b with
    | none => exact ih (off + 1) s (by omega) (by omega)
    | some v =>
      have granted : inGrant s off 1 = true := by
        simp only [inGrant, Bool.and_eq_true, decide_eq_true_eq]
        omega
      simp only [bar2Store, granted, if_true]
      exact ih (off + 1) (millWrite off [v] s) (by omega) (by simpa using by omega)

theorem bar2Strays_inside (bytes : List (Option Byte)) (s : State) : ∀ off : Nat, grantBase ≤ off →
    off + bytes.length ≤ grantBase + s.weir.grantKib * 1024 → bar2Strays s off bytes = false := by
  induction bytes with
  | nil => intro off _ _; rfl
  | cons b rest ih =>
    intro off low high
    rw [List.length_cons] at high
    have granted : inGrant s off 1 = true := by
      simp only [inGrant, Bool.and_eq_true, decide_eq_true_eq]
      omega
    simp only [bar2Strays, granted, Bool.not_true, Bool.and_false, Bool.false_or]
    exact ih (off + 1) (by omega) (by omega)

/-- Below the grant nothing is stored, and every enabled byte strays. -/
theorem bar2_below (bytes : List (Option Byte)) (s : State) : ∀ off : Nat, off + bytes.length ≤ grantBase →
    bar2Store off bytes s = s ∧ bar2Strays s off bytes = bytes.any Option.isSome := by
  induction bytes with
  | nil => intro off _; exact ⟨rfl, rfl⟩
  | cons b rest ih =>
    intro off low
    rw [List.length_cons] at low
    have outside : inGrant s off 1 = false := by
      simp only [inGrant, Bool.and_eq_false_iff, decide_eq_false_iff_not]
      omega
    obtain ⟨stored, strays⟩ := ih (off + 1) (by omega)
    refine ⟨?_, ?_⟩
    · cases b with
      | none => exact stored
      | some v => simpa only [bar2Store, outside, Bool.false_eq_true, if_false] using stored
    · rw [bar2Strays, outside, Bool.not_false, Bool.and_true, strays, List.any_cons]

/-- What is read after the enabled bytes of a write are stored. -/
theorem read_storeEnabled (bytes : List (Option Byte)) : ∀ (off : Nat) (m : Memory), Memory.wf m → ∀ x : Nat,
    Memory.read (storeEnabled off bytes m) x =
      if off ≤ x then ((bytes[x - off]?).join).getD (Memory.read m x) else Memory.read m x := by
  induction bytes with
  | nil => intro off m _ x; simp [storeEnabled]
  | cons b rest ih =>
    intro off m canonical x
    have index : off + 1 ≤ x → (b :: rest)[x - off]? = rest[x - (off + 1)]? := fun later => by
      rw [show x - off = x - (off + 1) + 1 by omega, List.getElem?_cons_succ]
    cases b with
    | none =>
      simp only [storeEnabled, ih (off + 1) m canonical x]
      rcases Nat.lt_trichotomy x off with below | rfl | above
      · rw [if_neg (by omega), if_neg (by omega)]
      · simp
      · rw [if_pos (by omega), if_pos (by omega), index above]
    | some v =>
      simp only [storeEnabled, ih (off + 1) _ (Memory.write_wf off v canonical) x, Memory.read_write canonical]
      rcases Nat.lt_trichotomy x off with below | rfl | above
      · simp only [show ¬ off + 1 ≤ x by omega, show ¬ off ≤ x by omega, Nat.ne_of_lt below, if_false]
      · simp
      · simp only [show off + 1 ≤ x from above, Nat.le_of_lt above, Nat.ne_of_gt above, if_true, if_false, index above]

/-- Bytes within what was read of Millpond. -/
theorem slice_millRead (s : State) (addr : Nat) {n k len : Nat} (fits : k + len ≤ n) :
    slice (millRead s addr n) k len = millRead s (addr + k) len := by
  apply List.ext_getElem
  · simp [slice, millRead, Memory.readList]
    omega
  · intro i _ _
    simp [slice, millRead, Memory.readList, Nat.add_assoc]

/-- A write that reaches BAR2. -/
theorem bar2Access_write {a : State} {off : Nat} {bytes : List (Option Byte)} (reached : Reached a 0)
    (enabled : a.start.ident.bar2Enable = true) (fits : off + bytes.length ≤ millpondSize) :
    bar2Access (.write off bytes) a =
      if bar2Strays a off bytes then post 0x1106 0 wide (bar2Store off bytes a) else bar2Store off bytes a := by
  have holds : bar2Holds a off bytes.length = true := by simp [bar2Holds, enabled, fits]
  simp only [bar2Access, reaches_reached reached (show 0 < 0x40000 by decide), holds, not_true_eq_false, or_self, if_false]

theorem claims_bar2Write : Claims.bar2Write := by
  refine ⟨fun off bytes => ⟨?inside, ?below⟩, fun off n => ?read⟩
  case inside =>
    refine ActsSo.of_meaning (bar2Access (.write off bytes)) (fun _ _ => rfl) ?_
    rintro a ⟨⟨reached, enabled, fits⟩, ⟨low, high⟩, canonical⟩
    have stored : bar2Access (.write off bytes) a = { a with millpond := storeEnabled off bytes a.millpond } := by
      rw [bar2Access_write reached enabled fits, if_neg (by simp [bar2Strays_inside bytes a off low high]),
        bar2Store_inside bytes off a low high]
    rw [stored]
    exact ⟨rfl, read_storeEnabled bytes off a.millpond canonical⟩
  case below =>
    refine Acts.of_meaning (bar2Access (.write off bytes)) (fun _ _ => rfl) ?_
    rintro a ⟨⟨reached, enabled, fits⟩, low, some⟩
    obtain ⟨stored, strays⟩ := bar2_below bytes a off low
    rw [bar2Access_write reached enabled fits, strays, if_pos some, stored]
  case read =>
    refine Acts.of_meaning (bar2Access (.read off (4 * n))) (fun _ _ => rfl) ?_
    rintro a ⟨reached, enabled, fits, low⟩
    have holds : bar2Holds a off (4 * n) = true := by simp [bar2Holds, enabled, fits]
    have words : bar2Words a off (4 * n) =
        (List.range n).map fun k => BitVec.ofNat 32 (ofLeBytes (millRead a (off + 4 * k) 4)) := by
      have nothing : min (4 * n) (grantBase - off) = 0 := by omega
      have count : (4 * n + 3) / 4 = n := by omega
      have bytes : bar2Bytes a off (4 * n) = millRead a off (4 * n) := by
        simp [bar2Bytes, nothing, padTo, slice]
      simp only [bar2Words, bytes, count]
      refine List.map_congr_left fun k inside => congrArg (BitVec.ofNat 32 <| ofLeBytes ·) ?_
      exact slice_millRead a off (by have := List.mem_range.mp inside; omega)
    simp only [bar2Access, reaches_reached reached (show 0 < 0x40000 by decide), holds, not_true_eq_false, or_self, if_false,
      words]

/-! ### Violations and completions -/

theorem claims_inboundTlpError : Claims.inboundTlpError := by
  intro fn
  refine ⟨?malformed, ?nonposted, ?posted, ?poisoned, ?ecrc, ?unexpected⟩
  case malformed =>
    refine Acts.of_meaning (tlpError fn .malformed) (fun _ _ => rfl) ?_
    rintro a ⟨up, unmasked⟩
    have after : ((setAer fn (fun x => { x with malformed := true }) a).fns[fn]).malformedMasked = false := by
      rw [setAer, State.modFn_fns, vmod_get]
      exact unmasked
    simp only [tlpError, up, not_true_eq_false, if_false, after, Bool.false_eq_true]
  case ecrc =>
    refine Acts.of_meaning (tlpError fn .ecrc) (fun _ _ => rfl) ?_
    rintro a ⟨up, checked⟩
    simp only [tlpError, up, not_true_eq_false, if_false, checked, if_true]
  case nonposted =>
    refine Acts.of_meaning (tlpError fn (.unsupported false)) (fun _ _ => rfl) fun a up => ?_
    simp only [tlpError, up, not_true_eq_false, if_false, Bool.false_eq_true]
  case posted =>
    refine Acts.of_meaning (tlpError fn (.unsupported true)) (fun _ _ => rfl) fun a up => ?_
    simp only [tlpError, up, not_true_eq_false, if_false, if_true]
  case poisoned => exact Acts.of_meaning (tlpError fn .poisonedWrite) (fun _ _ => rfl) fun a up => if_neg (not_not.mpr up)
  case unexpected =>
    exact Acts.of_meaning (tlpError fn .unexpectedCompletion) (fun _ _ => rfl) fun a up => if_neg (not_not.mpr up)

/-- Whose turn it is does not depend on the log. -/
theorem nextTurn_post (code fn unit : Nat) (s : State) : nextTurn (post code fn unit s) = nextTurn s := by
  rw [post_eq_modLog]
  rfl

theorem serves_post (code fn unit : Nat) (s : State) : serves (post code fn unit s) = serves s := by
  rw [post_eq_modLog]
  rfl

/-- The failed fetch of a ring request whose function has its turn (R106). -/
theorem ringFetchFails_of_turn {fn : Fn} {s : State} (serving : serves s = true) (turn : nextTurn s = some fn)
    (ring : (s.fns[fn]).doorbells.head? = some false) :
    ringFetchFails fn s = reply ⟨fn, false, 0, 0, 0, 0, 0, 0, []⟩ stBusError 0 []
      (taken fn false (post 0x1111 fn wide (s.modFn fn fun f => { f with fetchErr := true }))) := by
  have fetched : (serves s && nextTurn s == some fn && (s.fns[fn]).doorbells.head? == some false) = true := by
    rw [serving, turn, ring]
    simp
  simp only [ringFetchFails, fetched, if_true]

theorem claims_readCompletion : Claims.readCompletion := by
  refine ⟨fun fn => ?success, fun fn st failed => ?failure⟩
  case success =>
    refine Acts.of_meaning (completionFor (.ringFetch fn) .success) (fun _ _ => rfl) ?_
    rintro a ⟨up, awake⟩
    simp only [completionFor, readerFn, up, not_true_eq_false, awake, or_self, if_false]
    rfl
  case failure =>
    refine Acts.of_meaning (completionFor (.ringFetch fn) st) (fun _ _ => rfl) ?_
    rintro a ⟨up, ready, serving, turn, ring⟩
    have awake : ¬ (a.fns[fn]).mode = .fencing := by
      rw [ready]
      decide
    have fails := ringFetchFails_of_turn (s := post 0x110E fn wide a) ((serves_post ..).trans serving)
      ((nextTurn_post ..).trans turn) ((post_fns ..).symm ▸ ring)
    rcases failed with rfl | rfl <;>
      (simp only [completionFor, readerFn, up, not_true_eq_false, awake, or_self, if_false, readFails]; exact fails)

theorem claims_completionTimeout : Claims.completionTimeout := by
  intro fn
  refine Acts.of_meaning (completionLate (.hamperBuffer fn)) (fun _ _ => rfl) fun a awake => ?_
  simp only [completionLate, readerFn, awake, if_false, readFails]

/-- Settles O18: the claims of registers, of BAR2 and of the partner's errors, each from its meaning. -/
theorem registersAndBusErrors : Obligations.RegistersAndBusErrors := by
  unfold Obligations.RegistersAndBusErrors
  exact ⟨claims_registerWrite, claims_bar0ReadRejected, claims_bar2Write, claims_inboundTlpError, claims_readCompletion,
    claims_completionTimeout, claims_serialLoRead⟩

end Sys2Proof.Machine
end

section
/-! SUPPORT. INSTANCE_PLAN_SET and _GET, INSTANCE_QUIESCE, device information, ECHO and unknown opcodes (R69, R70, R87,
R108, R475). -/

namespace Sys2Proof.Machine

/-! ### Plans -/

/-- No owner byte of a plan is above 15. -/
theorem ownersBad_false {owners : List Byte} (small : ∀ b ∈ owners, b.toNat ≤ 15) :
    (owners.any fun b => decide (15 < b.toNat)) = false :=
  List.any_eq_false.mpr fun b inside => by simpa using small b inside

theorem planSetBody_dryRun {a : State} {h : Hamper} (fits : planConflict a (planOf h.payload) = none)
    (tail : h.tail 168 = false) (zero : zeros h.payload 6 2 = true)
    (owners : ∀ b ∈ slice h.payload 8 160, b.toNat ≤ 15) (dry : fld h.payload 4 2 = 1) :
    planSetBody a h = .ok a (planReply a (fld h.payload 0 4) 0 0) := by
  simp only [planSetBody, fits, tail, dry, zero, ownersBad_false owners]
  rfl

theorem planSetBody_applies {a : State} {h : Hamper} (fits : planConflict a (planOf h.payload) = none)
    (tail : h.tail 168 = false) (zero : zeros h.payload 6 2 = true)
    (owners : ∀ b ∈ slice h.payload 8 160, b.toNat ≤ 15) (wet : fld h.payload 4 2 = 0) :
    planSetBody a h =
      .ok (extend 3 2 (slice h.payload 0 168) (planApplies (planOf h.payload) a))
        (planReply (extend 3 2 (slice h.payload 0 168) (planApplies (planOf h.payload) a)) (fld h.payload 0 4) 0 0) := by
  simp only [planSetBody, fits, tail, wet, zero, ownersBad_false owners]
  rfl

/-- What a request that comes to its own section is judged by. -/
theorem judge_asked {a : State} {r : Req} {h : Hamper} {op minor : Nat} {pf0 : Bool} (body : State → Hamper → Verdict)
    (asked : Asked a r h op minor pf0) : judge a h minor pf0 body = body a h := by
  obtain ⟨-, -, header, alive, valtyn, version, sender, door, block⟩ := asked
  have sent : (pf0 && h.fn != 0) = false := by
    cases pf0 with
    | false => rfl
    | true => simp [sender rfl]
  rw [judge_valtyn alive door header valtyn, if_neg (Nat.not_lt.mpr version), if_neg (by simp [sent]),
    if_neg (by simp [block])]

theorem claims_instancePlanSet : Claims.instancePlanSet := by
  refine ⟨?dry, ?live⟩
  case dry =>
    intro s dt r h asked ⟨⟨fits, tail, zero, owners⟩, dry⟩
    have unsaid : planAccepted (advance dt s) r = none := by
      simp only [planAccepted, asked.1, dry, show bit 1 0 = true from rfl, not_true_eq_false, and_false, if_false]
    show Host.Outcome.next (match planAccepted (advance dt s) r with
      | some id => noticeAll nPlanChanged id stOk 0 (serve r 0x0101 0 true planSetBody (advance dt s))
      | none => serve r 0x0101 0 true planSetBody (advance dt s)) = _
    rw [unsaid, serve_asked _ asked, planSetBody_dryRun fits tail zero owners dry]
    rfl
  case live =>
    intro s dt r h asked ⟨fits, tail, zero, owners⟩ wet
    have said : planAccepted (advance dt s) r = some (BitVec.ofNat 32 (fld h.payload 0 4)) := by
      simp only [planAccepted, asked.1, asked.2.1, wet, show bit 0 0 = false from rfl, Bool.false_eq_true,
        not_false_eq_true, and_self, if_true, judge_asked _ asked, planSetBody_applies fits tail zero owners wet]
    show Host.Outcome.next (match planAccepted (advance dt s) r with
      | some id => noticeAll nPlanChanged id stOk 0 (serve r 0x0101 0 true planSetBody (advance dt s))
      | none => serve r 0x0101 0 true planSetBody (advance dt s)) = _
    rw [said, serve_asked _ asked, planSetBody_applies fits tail zero owners wet]
    rfl

theorem claims_instancePlanGet : Claims.instancePlanGet :=
  Serves.of_ok planGetBody (fun _ _ _ => rfl) fun a h tail => by simp only [planGetBody, tail]; rfl

/-! ### Quiescing -/

theorem claims_instanceQuiesce : Claims.instanceQuiesce := by
  refine Serves.of_accepted quiesceBody (fun _ _ _ => rfl) ?_
  rintro a h ⟨ready, idle, tail, scope⟩
  have known : (h.tail 2 || decide (255 < fld h.payload 0 2)) = false := by simp [tail, scope]
  rw [quiesceBody, if_neg (by simp [-Fin.getElem_fin, ready, idle]), known]
  rfl

theorem claims_instanceQuiesceDone : Claims.instanceQuiesceDone := by
  intro fn n
  refine Acts.of_meaning (quiesceEnds fn) (fun _ _ => rfl) ?_
  rintro a ⟨quiet, still⟩
  simp only [quiesceEnds, quiet, still, List.isEmpty_nil, Bool.false_eq_true, not_false_eq_true, and_self, if_true]

/-! ### Information -/

theorem claims_deviceInfo : Claims.deviceInfo :=
  Serves.of_ok deviceInfoBody (fun _ _ _ => rfl) fun a h tail => by
    rw [deviceInfoBody, if_neg (by simp [tail])]

theorem claims_echo : Claims.echo :=
  Serves.of_ok echoBody (fun _ _ _ => rfl) fun _ _ _ => rfl

theorem claims_unknownOpcode : Claims.unknownOpcode := by
  intro s dt r h asked unknown
  obtain ⟨fetched, -, header, alive, valtyn, -, -, door, block⟩ := asked
  have judged : judge (advance dt s) h 256 false (fun _ _ => .refuse stBadOpcode []) = .refuse stBadOpcode [] := by
    simp only [judge_valtyn alive door header valtyn, Bool.false_and, Bool.false_eq_true, if_false, block, ite_self]
  show Host.Outcome.next (unknownHamper r (advance dt s)) = _
  simp only [unknownHamper, fetched, unknown, Bool.false_eq_true, if_false, judged, answer, logHeader_good header]
  rfl

/-- Settles O19: each command's meaning, once its request has passed the checks before its own section. -/
theorem instancePlanAndQuiesce : Obligations.InstancePlanAndQuiesce := by
  unfold Obligations.InstancePlanAndQuiesce
  exact ⟨claims_instancePlanSet, claims_instancePlanGet, claims_instanceQuiesce, claims_instanceQuiesceDone,
    claims_deviceInfo, claims_echo, claims_unknownOpcode⟩

end Sys2Proof.Machine
end

section
/-! SUPPORT. The porch, the rings and their indices, and the notice route (R77 to R81, R88, R106, R108). -/

namespace Sys2Proof.Machine

/-! ### Doorbells and indices -/

theorem mode_ne_absent {a : State} {fn : Fn} (reached : Reached a fn) : (a.fns[fn]).mode ≠ .absent := by
  obtain ⟨-, -, bare | ready⟩ := reached
  · rw [bare]; decide
  · rw [ready]; decide

theorem claims_porchDoorbell : Claims.porchDoorbell := by
  intro fn
  refine ⟨?free, ?busy⟩
  case free =>
    refine Acts.of_meaning (writeRegister fn 0x1200 (ringPorch fn)) (fun _ _ => rfl) ?_
    rintro a ⟨reached, valtyn, idle⟩
    have free : (porchReady a fn && !(a.fns[fn]).porchBusy) = true := by
      simp [-Fin.getElem_fin, porchReady, mode_ne_absent reached, valtyn, idle]
    rw [writeRegister_open _ reached (by decide) rfl, ringPorch, if_pos free]
  case busy =>
    refine Acts.of_meaning (writeRegister fn 0x1200 (ringPorch fn)) (fun _ _ => rfl) ?_
    rintro a ⟨reached, busy⟩
    have taken : ¬ (porchReady a fn && !(a.fns[fn]).porchBusy) = true := by simp [-Fin.getElem_fin, busy]
    rw [writeRegister_open _ reached (by decide) rfl, ringPorch, if_neg taken]

theorem ringsUp_iff (f : FnState) : ringsUp f = true ↔ f.mode = .ready := by
  simp [ringsUp]

theorem claims_reqTailWrite : Claims.reqTailWrite := by
  intro fn v
  refine ⟨?free, ?refused⟩
  case free =>
    refine Acts.of_meaning (writeRegister fn 0x2000 (writeReqTail fn v)) (fun _ _ => rfl) ?_
    rintro a ⟨reached, free, unclear⟩
    simp only [writeRegister_open _ reached (show 0x2000 < 0x40000 by decide) rfl, writeReqTail, ringsUp_iff, if_pos free,
      State.modFn, vmod, unclear, Bool.false_eq_true, if_false]
  case refused =>
    refine Acts.of_meaning (writeRegister fn 0x2000 (writeReqTail fn v)) (fun _ _ => rfl) ?_
    rintro a ⟨reached, refused⟩
    simp only [writeRegister_open _ reached (show 0x2000 < 0x40000 by decide) rfl, writeReqTail, ringsUp_iff, if_neg refused,
      indexError]

theorem claims_repHeadWrite : Claims.repHeadWrite := by
  intro fn v
  refine ⟨?unread, ?refused⟩
  case unread =>
    refine Acts.of_meaning (writeRegister fn 0x200C (writeRepHead fn v)) (fun _ _ => rfl) ?_
    rintro a ⟨reached, unread⟩
    simp only [writeRegister_open _ reached (show 0x200C < 0x40000 by decide) rfl, writeRepHead, ringsUp_iff, if_pos unread]
  case refused =>
    refine Acts.of_meaning (writeRegister fn 0x200C (writeRepHead fn v)) (fun _ _ => rfl) ?_
    rintro a ⟨reached, refused⟩
    simp only [writeRegister_open _ reached (show 0x200C < 0x40000 by decide) rfl, writeRepHead, ringsUp_iff, if_neg refused,
      indexError]

theorem claims_replyWriteFailed : Claims.replyWriteFailed := fun fn =>
  Acts.of_meaning (replyLost fn) (fun _ _ => rfl) fun _ unread => if_pos unread

/-! ### Setting and clearing the rings -/

theorem vectorBad_false {v : Nat} (known : v ≤ 31 ∨ v = 0xFF) : vectorBad v = false := by
  simp only [vectorBad, Bool.and_eq_false_iff, decide_eq_false_iff_not, bne_eq_false_iff_eq]
  omega

theorem claims_ringsSet : Claims.ringsSet := by
  refine Serves.of_ok ringsSetBody (fun _ _ _ => rfl) ?_
  rintro a h ⟨porch, bare, tail, zero, reqPage, repPage, reqFits, repFits, apart, vector⟩
  have disjoint : (decide (fld h.payload 0 8 < fld h.payload 8 8 + 8192) &&
      decide (fld h.payload 8 8 < fld h.payload 0 8 + 8192)) = false := by
    simp only [Bool.and_eq_false_iff, decide_eq_false_iff_not, not_lt]
    omega
  rw [ringsSetBody, if_neg (by simp [-Fin.getElem_fin, porch, bare]),
    if_neg (by simp [tail, zero, reqPage, repPage, disjoint, vectorBad_false vector]; omega)]

theorem claims_ringsClear : Claims.ringsClear := by
  refine ⟨?none, ?some⟩
  case none =>
    refine Serves.of_ok ringsClearBody (fun _ _ _ => rfl) ?_
    rintro a h ⟨porch, ready, tail, none⟩
    rw [ringsClearBody, if_neg (by simp [-Fin.getElem_fin, porch, ready]), if_neg (by simp [tail])]
    simp only [none, if_true]
  case some =>
    refine Serves.of_ok ringsClearBody (fun _ _ _ => rfl) ?_
    rintro a h ⟨porch, ready, tail, some⟩
    rw [ringsClearBody, if_neg (by simp [-Fin.getElem_fin, porch, ready]), if_neg (by simp [tail])]
    simp only [some, if_false]

/-! ### The notice route -/

theorem claims_noticeRoute : Claims.noticeRoute := by
  refine ⟨fun q => ?owned, ?none⟩
  case owned =>
    refine Serves.of_ok noticeRouteBody (fun _ _ _ => rfl) ?_
    rintro a h ⟨queue, owner, tail, zero⟩
    have other : ¬ fld h.payload 0 1 = 0xFF := by omega
    simp only [noticeRouteBody, if_neg other, fin?_eq queue, owner, ne_eq, not_true_eq_false, if_false, tail, zero,
      Bool.not_true, Bool.or_self, Bool.false_eq_true]
  case none =>
    refine Serves.of_ok noticeRouteBody (fun _ _ _ => rfl) ?_
    rintro a h ⟨none, tail, zero⟩
    simp only [noticeRouteBody, if_pos none, tail, zero, Bool.not_true, Bool.or_self, Bool.false_eq_true, if_false]

/-- Settles O20: each command's meaning on the function's porch, indices and route. -/
theorem porchAndRings : Obligations.PorchAndRings := by
  unfold Obligations.PorchAndRings
  exact ⟨claims_porchDoorbell, claims_reqTailWrite, claims_repHeadWrite, claims_ringsSet, claims_ringsClear,
    claims_noticeRoute, claims_replyWriteFailed⟩

end Sys2Proof.Machine
end

section
/-! SUPPORT. Tailrace queues are set, cleared and moderated, and count what they drop (R94 to R107). -/

namespace Sys2Proof.Machine

/-! ### The hampers of a queue -/

theorem claims_queueSet : Claims.queueSet := by
  intro q
  refine ⟨?host, ?millpond⟩
  case host =>
    refine Serves.of_ok queueSetBody (fun _ _ _ => rfl) ?_
    rintro a h ⟨queue, owner, off, tail, zero, place, order, entries, page, vector, threshold, fits⟩
    simp only [queueSetBody, fin?_eq queue]
    rw [if_neg (by simp [-Fin.getElem_fin, owner]), if_neg (by simp [-Fin.getElem_fin, off]),
      if_neg (by simp [tail, zero, place, Nat.not_lt.mpr order, entries, page, vectorBad_false vector, threshold]; omega)]
    simp only [place, Nat.zero_ne_one, if_false, decide_false]
  case millpond =>
    refine Serves.of_ok queueSetBody (fun _ _ _ => rfl) ?_
    rintro a h ⟨queue, owner, off, tail, zero, place, pf0, bar2, granted, order, entries, page, vector, threshold⟩
    simp only [queueSetBody, fin?_eq queue]
    rw [if_neg (by simp [-Fin.getElem_fin, owner]), if_neg (by simp [-Fin.getElem_fin, off]),
      if_neg (by simp [tail, zero, place, Nat.not_lt.mpr order, entries, page, vectorBad_false vector, threshold, pf0,
        bar2, granted])]
    simp only [place, if_true, decide_true]

theorem claims_queueClear : Claims.queueClear := by
  intro q
  refine Serves.of_ok queueClearBody (fun _ _ _ => rfl) ?_
  rintro a h ⟨queue, owner, enabled, unused, tail, zero⟩
  have user : (if (a.queues[q]).stopped then none else queueUser a q) = none := by
    rcases unused with stopped | free
    · rw [if_pos stopped]
    · rw [free, ite_self]
  simp only [queueClearBody, fin?_eq queue, owner, enabled, user, tail, zero, ne_eq, not_true_eq_false, if_false,
    Bool.not_true, Bool.or_self, Bool.false_eq_true]

/-- QUEUE_MODERATE of an enabled queue with a threshold that it takes. -/
theorem queueModerateBody_good {a : State} {h : Hamper} {q : Fin 32} (queue : fld h.payload 0 1 = q.val)
    (owner : a.plan.queues[q] = h.fn) (enabled : (a.queues[q]).enabled = true) (tail : h.tail 8 = false)
    (zero1 : zeros h.payload 1 1 = true) (zero6 : zeros h.payload 6 2 = true)
    (threshold : thresholdBad (fld h.payload 2 2) (fld h.payload 4 2) (a.queues[q]).entries = false) :
    let t := a.modQueue q fun Q => { Q with threshold := fld h.payload 2 2, timeUs := fld h.payload 4 2 }
    queueModerateBody a h = .ok (if (a.queues[q]).unsignalled ≠ 0 ∧ ((a.queues[q]).unsignalled ≥ fld h.payload 2 2 ∨
      (fld h.payload 4 2 ≠ 0 ∧ since a (a.queues[q]).timerFrom (ticksUs (fld h.payload 4 2)))) then signalQueue q t
        else t) [] := by
  simp only [queueModerateBody, fin?_eq queue, owner, enabled, tail, zero1, zero6, threshold, ne_eq, not_true_eq_false,
    if_false, Bool.not_true, Bool.or_self, Bool.false_eq_true, State.modQueue_queues, vmod_get]
  rfl

/-- A moderation timer that has run out since the first unsignalled entry. -/
theorem since_iff (s : State) (from_ : Option Nat) (ticks : Nat) :
    since s from_ ticks = true ↔ ∃ t0, from_ = some t0 ∧ t0 + ticks ≤ s.elapsed := by
  cases from_ <;> simp [since]

theorem claims_queueModerate : Claims.queueModerate := by
  intro q
  have timer (a : State) (us : Nat) : since a (a.queues[q]).timerFrom (ticksUs us) = true ↔
      ∃ t0, (a.queues[q]).timerFrom = some t0 ∧ t0 + 200 * us ≤ a.elapsed := by
    rw [since_iff, ticksUs, Nat.mul_comm]
  refine ⟨?unmet, ?met⟩
  case unmet =>
    refine Serves.of_ok queueModerateBody (fun _ _ _ => rfl) ?_
    rintro a h ⟨⟨queue, owner, enabled, tail, zero1, zero6, threshold⟩, unmet⟩
    rw [queueModerateBody_good queue owner enabled tail zero1 zero6 threshold, if_neg (by rwa [timer])]
  case met =>
    refine Serves.of_ok queueModerateBody (fun _ _ _ => rfl) ?_
    rintro a h ⟨⟨queue, owner, enabled, tail, zero1, zero6, threshold⟩, met⟩
    rw [queueModerateBody_good queue owner enabled tail zero1 zero6 threshold, if_pos (by rwa [timer])]

/-! ### Registers, the moderation timer and failed writes -/

theorem claims_tqDroppedRead : Claims.tqDroppedRead := by
  intro fn q
  refine Acts.of_meaning (readRegister fn (0x300C + 0x20 * q) (readTqDropped q)) (fun _ _ => rfl) ?_
  rintro a ⟨reached, rfl⟩
  rw [readRegister_owned _ reached (windowOwner_queue a q _ 0xC (by decide) (by omega))]
  rfl

theorem claims_tqModerationTimer : Claims.tqModerationTimer := by
  intro q t0
  refine Acts.of_meaning (moderationTimer q) (fun _ _ => rfl) ?_
  rintro a ⟨enabled, timed, waiting, from_, ran⟩
  have run : since a (a.queues[q]).timerFrom (ticksUs (a.queues[q]).timeUs) = true := by
    rw [from_, since_some, decide_eq_true_eq, ticksUs, Nat.mul_comm]
    exact ran
  rw [moderationTimer, if_pos ⟨enabled, timed, waiting, run⟩, signalQueue]

theorem claims_queueWriteFailed : Claims.queueWriteFailed := by
  intro q
  refine Acts.of_meaning (queueStops q) (fun _ _ => rfl) ?_
  rintro a ⟨enabled, running⟩
  rw [queueStops, if_pos (by simp [-Fin.getElem_fin, queueOpen, enabled, running])]

/-- Settles O21: each command's meaning on its queue. -/
theorem tailraceQueues : Obligations.TailraceQueues := by
  unfold Obligations.TailraceQueues
  exact ⟨claims_queueSet, claims_queueClear, claims_queueModerate, claims_tqDroppedRead, claims_tqModerationTimer,
    claims_queueWriteFailed⟩

end Sys2Proof.Machine
end

section
/-! SUPPORT. Device time is read, correlated, stepped and steered (R118 to R122, R125, R129, R130). -/

namespace Sys2Proof.Machine

/-! ### Registers and the calibration -/

theorem claims_timeNsLoRead : Claims.timeNsLoRead := by
  intro fn
  refine Acts.of_meaning (readRegister fn 0x20000 (readTimeLo fn)) (fun _ _ => rfl) fun a reached => ?_
  rw [readRegister_open _ reached (by decide) rfl]
  rfl

theorem claims_tdcDropRead : Claims.tdcDropRead := by
  intro fn
  refine Acts.of_meaning (readRegister fn 0x2001C readTdcDrop) (fun _ _ => rfl) fun a reached => ?_
  rw [readRegister_open _ reached (by decide) rfl]
  rfl

theorem claims_tdcCalibration : Claims.tdcCalibration :=
  ⟨Acts.of_meaning (tdcCalibrate true) (fun _ _ => rfl) fun _ _ => rfl,
    Acts.of_meaning (tdcCalibrate false) (fun _ _ => rfl) fun _ _ => rfl⟩

/-! ### Status and correlation -/

theorem claims_timeStatus : Claims.timeStatus :=
  Serves.of_ok timeStatusBody (fun _ _ _ => rfl) fun a h tail => by rw [timeStatusBody, if_neg (by simp [tail])]

theorem claims_timeCorrelate : Claims.timeCorrelate := by
  intro d
  refine Serves.of_ok timeCorrelateBody (fun _ _ _ => rfl) ?_
  rintro a h ⟨last, correlated, tail⟩
  simp only [timeCorrelateBody, last, correlated, tail, not_true_eq_false, if_false, Bool.false_eq_true]

/-! ### Steps -/

/-- Beyond its notices, a step of device time changes the clock, the comparators and the streams. -/
theorem stepTime_clk (d : Int) (a : State) : (stepTime d a).clk = { a.clk with
    dev := a.clk.dev + BitVec.ofInt 104 (d * 2 ^ 32)
    stepSum := a.clk.stepSum + BitVec.ofInt 72 d
    stepCount := a.clk.stepCount + 1
    fantail := { a.clk.fantail.toAcquire a.elapsed with correlated := false } } := by
  unfold stepTime
  exact (keeps_noticeAll (msk := 0x280000092) _ _ _ _ (keeps_post _ _ _ (Keeps.refl _ _) rfl) rfl).within.clk rfl

theorem stepTime_streams (d : Int) (a : State) :
    (stepTime d a).streams = a.streams.map fun x => { x with steppedOwed := x.steppedOwed || x.isOpen } := by
  unfold stepTime
  exact (keeps_noticeAll (msk := 0x280000092) _ _ _ _ (keeps_post _ _ _ (Keeps.refl _ _) rfl) rfl).within.streams rfl

theorem claims_timeStep : Claims.timeStep := by
  intro d _ size
  refine ⟨?served, fun a => ⟨?dev, ?count, ?streams⟩⟩
  case served =>
    refine Serves.of_ok timeStepBody (fun _ _ _ => rfl) ?_
    rintro a h ⟨amount, given, flags, tail, zero, positive⟩
    have noHost : bit (fld h.payload 9 1) 0 = false := by rw [flags]; rfl
    have some : (sfld h.payload 0 8 == 0 && fld h.payload 8 1 == 0) = false := by
      simpa only [Bool.and_eq_false_iff, beq_eq_false_iff_ne] using given
    simp only [timeStepBody, noHost, Bool.false_eq_true, if_false, Bool.false_and, Bool.not_false, Bool.true_and, some,
      amount]
    rw [if_neg (by simp [tail, flags, zero]; omega)]
  case dev => rw [stepTime_clk]
  case count => rw [stepTime_clk]
  case streams =>
    intro i opened
    simp only [stepTime_streams, Fin.getElem_fin, Vector.getElem_map] at opened ⊢
    rw [opened, Bool.or_true]

/-! ### Fantail's settings -/

theorem fantailConfigBody_good {a : State} {h : Hamper} {c : FantailMode × Nat × Nat × Nat × Nat × Nat}
    (settings : fantailSettings h.payload = some c) (tail : h.tail 20 = false) :
    fantailConfigBody a h = .ok (a.modFantail (applyFantail c a.elapsed)) [] := by
  simp only [fantailConfigBody, settings, tail, Bool.false_eq_true, if_false]

theorem applyFantail_steered {m : FantailMode} (steered : m ≠ .free) (i n slew lock jump at_ : Nat) (f : Fantail) :
    applyFantail (m, i, n, slew, lock, jump) at_ f = { f with
      mode := m, intervalMs := i, loopDialogues := n, maxSlewPpm := slew, lockNs := lock, jumpNs := jump
      freq := if f.mode = .free then 0 else f.freq, r := if f.mode = .free then 0 else f.r
      needsStep := false, state := .acquire, prevOffset := none, within := 0, outside := 0, jump := false
      validAt := at_ } := by
  by_cases free : f.mode = .free <;> simp [applyFantail, Fantail.toAcquire, steered, free]

theorem claims_fantailConfig : Claims.fantailConfig := by
  intro m i n slew lock jump steered
  refine ⟨?steered, ?free, fun f at_ => ⟨rfl, rfl⟩⟩
  case steered =>
    refine Serves.of_ok fantailConfigBody (fun _ _ _ => rfl) ?_
    rintro a h ⟨settings, tail⟩
    rw [fantailConfigBody_good settings tail, State.modFantail, applyFantail_steered steered]
    rfl
  case free =>
    refine Serves.of_ok fantailConfigBody (fun _ _ _ => rfl) ?_
    rintro a h ⟨settings, tail⟩
    exact fantailConfigBody_good settings tail

/-- Settles O22: each command's meaning on the clock and on Fantail. -/
theorem deviceTimeIsReadAndStepped : Obligations.DeviceTimeIsReadAndStepped := by
  unfold Obligations.DeviceTimeIsReadAndStepped
  exact ⟨claims_timeNsLoRead, claims_tdcDropRead, claims_tdcCalibration, claims_timeStatus, claims_timeStep,
    claims_fantailConfig, claims_timeCorrelate⟩

end Sys2Proof.Machine
end

section
/-! SUPPORT. PTM dialogues, holdover, and the loss and return of clocks (R117 to R119, R123, R127, R128, R492, R494). -/

namespace Sys2Proof.Machine

/-! ### Markers -/

/-- The TDC has no other PTM marker of this tick. -/
theorem tdcEdge_ptm {s : State} (step : Nat) (none : ∀ x ∈ s.clk.tdc, x.line ≠ .ptm) :
    tdcEdge .ptm step s = (.stamped (hold s (now s + BitVec.ofNat 72 (8 * step))),
      { s with clk := { s.clk with
        tdc := ⟨.ptm, s.elapsed⟩ :: s.clk.tdc.filter fun x => decide (s.elapsed < x.at_ + tdcDrain) } }) := by
  have first : ((s.clk.tdc.filter fun x => decide (s.elapsed < x.at_ + tdcDrain)).any
      fun x => x.line == .ptm && x.at_ == s.elapsed) = false := by
    refine List.any_eq_false.mpr fun x held => ?_
    simp [none x (List.mem_of_mem_filter held)]
  simp only [tdcEdge, first, Bool.false_eq_true, if_false, TdcLine.group, Option.isSome_none, Bool.false_and]

/-- A stamp is released as it was held while the steps are the same. -/
theorem release_hold {s t : State} (same : t.clk.stepSum = s.clk.stepSum) (x : Stamp) : (release t (hold s x)).1 = x := by
  simp only [release, hold, same, BitVec.sub_add_cancel]

theorem toHoldover_steered {f : Fantail} (steered : f.mode ≠ .free) :
    f.toHoldover = { f with state := .holdover, prevOffset := none, within := 0, outside := 0 } := if_neg steered

/-! ### The request -/

theorem claims_ptmDialogueStart : Claims.ptmDialogueStart := by
  intro step ready
  have due {a : State} (r : ready a) : mainRuns a = true ∧ (a.clk.fantail.startedAt = none ∨
      since a a.clk.fantail.startedAt (ticksMs a.clk.fantail.intervalMs) = true) := by
    obtain ⟨runs, never | before⟩ := r
    · exact ⟨runs, .inl never⟩
    · exact ⟨runs, .inr ((since_iff ..).mpr before)⟩
  refine ⟨?sent, ?disabled⟩
  case sent =>
    refine Acts.of_meaning (ptmStart step) (fun _ _ => rfl) ?_
    rintro a ⟨r, enabled, up, none⟩
    have stamped := tdcEdge_ptm (s := a.modFantail fun f => { f with startedAt := some a.elapsed }) step none
    have linked : (a.modFantail fun f => { f with startedAt := some a.elapsed }).link = a.link := rfl
    simp only [ptmStart, if_pos (due r), linked, enabled, up, not_true_eq_false, if_false, if_true, tdcNote, stamped]
    rfl
  case disabled =>
    refine Acts.of_meaning (ptmStart step) (fun _ _ => rfl) ?_
    rintro a ⟨r, disabled, steered⟩
    simp only [ptmStart, if_pos (due r), disabled, Bool.false_eq_true, not_false_eq_true, if_true, State.modFantail,
      Fantail.toHoldover, steered, if_false]

/-! ### The response -/

section
variable {a : State} {step masterNs turnaroundNs t0 : Nat} {sent : Held}

/-- A response in time is judged by the two markers. -/
theorem ptmResponse_heard (waiting : a.clk.fantail.waiting = some (t0, sent)) (inTime : a.elapsed ≤ t0 + ticksMs 1)
    (none : ∀ x ∈ a.clk.tdc, x.line ≠ .ptm) :
    let noted := tdcNote .ptm step (a.modFantail fun f => { f with silent := 0 })
    let t1 : Int := (release a sent).1.toNat
    let rt : Nat := (((now a + BitVec.ofNat 72 (8 * step)).toNat : Int) - t1 - 256 * turnaroundNs).toNat
    ptmResponse step masterNs turnaroundNs a =
      if roundTripBad a.clk.fantail.roundTrips rt then
        post 0xA103 wide wide (noted.modFantail fun f => { f with waiting := Option.none })
      else validDialogue (BitVec.ofInt 72 (t1 + rt / 2)) masterNs rt noted := by
  have stamped := tdcEdge_ptm (s := a.modFantail fun f => { f with silent := 0 }) step none
  simp only [ptmResponse, waiting, if_neg (Nat.not_lt.mpr inTime), tdcNote, stamped, TdcAnswer.held?, Option.getD_some]
  rw [release_hold (by rfl)]
  rfl

end

theorem judgeLock_kept (f : Fantail) (o : Rat) : (f.judgeLock o).freq = f.freq ∧ (f.judgeLock o).r = f.r ∧
    (f.judgeLock o).rate = f.rate ∧ (f.judgeLock o).dialogues = f.dialogues ∧ (f.judgeLock o).waiting = f.waiting ∧
    (f.judgeLock o).validAt = f.validAt := by
  unfold Fantail.judgeLock
  dsimp only
  split
  case h_1 => split_ifs <;> simp
  case h_2 => split_ifs <;> simp
  case h_3 => simp

/-- In ACQUIRE, the eighth dialogue in a row within the lock window locks. -/
theorem judgeLock_acquire {f : Fantail} (acquire : f.state = .acquire) (o : Rat) :
    (f.judgeLock o).prevOffset = f.prevOffset ∧
      (f.judgeLock o).state = if |o| ≤ (f.lockNs : Rat) ∧ 7 ≤ f.within then .locked else .acquire := by
  by_cases near : |o| ≤ (f.lockNs : Rat) <;> by_cases long : 7 ≤ f.within <;>
    simp [Fantail.judgeLock, acquire, near, long]

/-- A valid dialogue in ACQUIRE with no offset before it. -/
theorem validDialogue_first {s : State} {device : Stamp} {masterNs rt : Nat} (steered : s.clk.fantail.mode ≠ .free)
    (acquire : s.clk.fantail.state = .acquire) (first : s.clk.fantail.prevOffset = none) :
    let o : Rat := (device.toNat : Rat) / 256 - masterNs
    validDialogue device masterNs rt s = (noteDialogue device masterNs rt o s).modFantail fun f =>
      ({ f with prevOffset := some o, needsStep := f.mode == .slew && decide ((f.jumpNs : Rat) < |o|) } :
        Fantail).judgeLock o := by
  simp only [validDialogue, steered, acquire, first, reduceCtorEq, false_and, if_false]

/-- A valid dialogue in ACQUIRE or LOCKED after one at offset `p`. -/
theorem validDialogue_next {s : State} {device : Stamp} {masterNs rt : Nat} {p : Rat}
    (steered : s.clk.fantail.mode ≠ .free) (tracking : s.clk.fantail.state = .acquire ∨ s.clk.fantail.state = .locked)
    (before : s.clk.fantail.prevOffset = some p) :
    let o : Rat := (device.toNat : Rat) / 256 - masterNs
    let t : Rat := (s.clk.fantail.lastDevice.map fun h =>
      (((device.toNat : Int) - ((release s h).1.toNat : Int) : Rat) / 256)).getD 0
    validDialogue device masterNs rt s =
      if (s.clk.fantail.jumpNs : Rat) < |o - p| then
        post 0xA104 wide wide (s.modFantail fun f => { f with jump := true, state := .holdover, waiting := none })
      else (noteDialogue device masterNs rt o s).modFantail fun f => (f.steer o p t).judgeLock o := by
  have held : ¬ s.clk.fantail.state = .holdover := by
    rcases tracking with acquire | locked
    · rw [acquire]; decide
    · rw [locked]; decide
  cases last : s.clk.fantail.lastDevice with
  | none => simp only [validDialogue, steered, held, before, last, false_and, if_false, Option.map_none, Option.getD_none]
  | some d => simp only [validDialogue, steered, held, before, last, false_and, if_false, Option.map_some, Option.getD_some]

theorem claims_ptmDialogueResponse : Claims.ptmDialogueResponse := by
  intro step masterNs turnaroundNs t0 sent d p heard noted t1 rt device o valid
  have judged {a : State} (v : valid a) :
      ptmResponse step masterNs turnaroundNs a = validDialogue (device a) masterNs (rt a) (noted a) := by
    obtain ⟨⟨waiting, inTime, none⟩, good⟩ := v
    exact (ptmResponse_heard waiting inTime none).trans (if_neg (ne_true_of_eq_false good))
  have clock {a : State} (v : heard a) : (noted a).clk.fantail = { a.clk.fantail with silent := 0 } ∧
      (noted a).clk.stepSum = a.clk.stepSum ∧ (noted a).elapsed = a.elapsed := by
    have stamped := tdcEdge_ptm (s := a.modFantail fun f => { f with silent := 0 }) step v.2.2
    simp only [noted, tdcNote, stamped]
    exact ⟨rfl, rfl, rfl⟩
  refine ⟨?discarded, ?first, ?jumped, ?steered⟩
  case discarded =>
    refine Acts.of_meaning (ptmResponse step masterNs turnaroundNs) (fun _ _ => rfl) ?_
    rintro a ⟨⟨waiting, inTime, none⟩, bad⟩
    exact (ptmResponse_heard waiting inTime none).trans (if_pos bad)
  case first =>
    refine ActsSo.of_meaning (ptmResponse step masterNs turnaroundNs) (fun _ _ => rfl) ?_
    rintro a ⟨v, steered, acquire, first⟩
    obtain ⟨fantail, -, elapsed⟩ := clock v.1
    obtain ⟨-, -, rate, dialogues, waits, validAt⟩ := judgeLock_kept
      { (noteDialogue (device a) masterNs (rt a) (o a) (noted a)).clk.fantail with
        prevOffset := some (o a)
        needsStep := a.clk.fantail.mode == .slew && decide ((a.clk.fantail.jumpNs : Rat) < |o a|) } (o a)
    have result : (ptmResponse step masterNs turnaroundNs a).clk.fantail =
        ({ (noteDialogue (device a) masterNs (rt a) (o a) (noted a)).clk.fantail with
          prevOffset := some (o a)
          needsStep := a.clk.fantail.mode == .slew && decide ((a.clk.fantail.jumpNs : Rat) < |o a|) } :
          Fantail).judgeLock (o a) := by
      rw [judged v, validDialogue_first (by rwa [fantail]) (by rwa [fantail]) (by rwa [fantail])]
      simp only [noteDialogue, State.modFantail, fantail, o]
    obtain ⟨prev, state⟩ := judgeLock_acquire (f := { (noteDialogue (device a) masterNs (rt a) (o a) (noted a)).clk.fantail with
        prevOffset := some (o a)
        needsStep := a.clk.fantail.mode == .slew && decide ((a.clk.fantail.jumpNs : Rat) < |o a|) })
      (by simp only [noteDialogue, State.modFantail, fantail, acquire]) (o a)
    rw [result]
    refine ⟨prev, dialogues.trans ?_, rate.trans ?_, waits, validAt.trans elapsed, state.trans ?_⟩
    all_goals simp only [noteDialogue, State.modFantail, fantail]
  case jumped =>
    refine Acts.of_meaning (ptmResponse step masterNs turnaroundNs) (fun _ _ => rfl) ?_
    rintro a ⟨v, steered, tracking, before, jumps⟩
    obtain ⟨fantail, -⟩ := clock v.1
    rw [judged v, validDialogue_next (by rwa [fantail]) (by rwa [fantail]) (by rwa [fantail] : _ = some p)]
    exact if_pos (by rw [fantail]; exact jumps)
  case steered =>
    refine ActsSo.of_meaning (ptmResponse step masterNs turnaroundNs) (fun _ _ => rfl) ?_
    rintro a ⟨v, mode, tracking, before, last, near⟩
    obtain ⟨fantail, sum, -⟩ := clock v.1
    have result : ptmResponse step masterNs turnaroundNs a =
        (noteDialogue (device a) masterNs (rt a) (o a) (noted a)).modFantail fun f =>
          (f.steer (o a) p ((((device a).toNat : Int) - ((release a d).1.toNat : Int) : Rat) / 256)).judgeLock (o a) := by
      rw [judged v, validDialogue_next (by rw [fantail, mode]; decide) (by rwa [fantail]) (by rwa [fantail] : _ = some p),
        if_neg (by rw [fantail]; exact not_lt.mpr near)]
      simp only [fantail, last, release, sum, o, Option.map_some, Option.getD_some]
    rw [result]
    obtain ⟨freq, r, rate, -⟩ := judgeLock_kept (((noteDialogue (device a) masterNs (rt a) (o a) (noted a)).clk.fantail.steer
      (o a) p ((((device a).toNat : Int) - ((release a d).1.toNat : Int) : Rat) / 256))) (o a)
    refine ⟨freq.trans ?_, r.trans ?_, rate.trans ?_⟩
    all_goals simp [Fantail.steer, noteDialogue, State.modFantail, fantail, mode]

/-! ### Holdover -/

theorem claims_ptmDialogueTimeout : Claims.ptmDialogueTimeout := by
  intro t0 sent missing ended
  have gone {a : State} (m : missing a) : since a (a.clk.fantail.waiting.map Prod.fst) (ticksMs 1) = true := by
    rw [m.1, Option.map_some, since_some, decide_eq_true_eq]
    exact m.2
  have silent (a : State) : (ended a).clk.fantail.silent = a.clk.fantail.silent + 1 := by
    simp only [ended, post_eq_modLog]
    rfl
  refine ⟨?more, ?fourth⟩
  case more =>
    refine Acts.of_meaning ptmMissing (fun _ _ => rfl) ?_
    rintro a ⟨m, fewer⟩
    have under : ¬ (ended a).clk.fantail.silent = silentLimit := by
      rw [silent]
      exact fun four => fewer (Nat.succ.inj four)
    rw [ptmMissing, if_pos (gone m)]
    exact if_neg under
  case fourth =>
    refine Acts.of_meaning ptmMissing (fun _ _ => rfl) ?_
    rintro a ⟨m, three⟩
    have limit : (ended a).clk.fantail.silent = silentLimit := by rw [silent, three]
    rw [ptmMissing, if_pos (gone m)]
    exact if_pos limit

theorem claims_fantailHoldoverTimeout : Claims.fantailHoldoverTimeout := by
  refine Acts.of_meaning fantailQuiet (fun _ _ => rfl) ?_
  rintro a ⟨steered, tracking, long⟩
  have held : a.clk.fantail.state ≠ .holdover := by
    rcases tracking with acquire | locked
    · rw [acquire]; decide
    · rw [locked]; decide
  rw [fantailQuiet, if_pos ⟨steered, held, long⟩, State.modFantail, toHoldover_steered steered]
  rfl

theorem claims_ptmEnableChange : Claims.ptmEnableChange := by
  refine ⟨Acts.of_meaning (setPtmEnable true) (fun _ _ => rfl) fun _ _ => rfl, ?_⟩
  refine Acts.of_meaning (setPtmEnable false) (fun _ _ => rfl) fun a steered => ?_
  simp only [setPtmEnable, Bool.false_eq_true, if_false, State.modFantail, toHoldover_steered steered]

/-! ### Clocks -/

theorem claims_refclkLoss : Claims.refclkLoss := by
  refine Acts.of_meaning refclkLost (fun _ _ => rfl) ?_
  rintro a ⟨runs, good⟩
  rw [refclkLost, if_neg (by simp [good])]
  exact if_pos runs

theorem claims_refclkRestored : Claims.refclkRestored :=
  Acts.of_meaning (fun a => { a with clk := { a.clk with refclkOk := true } }) (fun _ _ => rfl) fun _ _ => rfl

theorem MainIsReset.of_mram {a b t : State} (main : MainIsReset b t) (mram : b.mram = a.mram) : MainIsReset a t := by
  unfold MainIsReset at main ⊢
  rwa [← mram]

/-- A full reset with cause clock, of a state that differs by the clock and by what the log's events bring about. -/
theorem assertReset_clock {a : State} (code : Nat) (c : Clocks)
    (on : a.pwr.state = .starting ∨ a.pwr.state = .running ∨ a.pwr.state = .shutdown) (first : a.pwr.resetHeld = []) :
    let t := assertReset .clock (recordAll 257 (post code wide wide { a with clk := c }))
    t.pwr.state = .starting ∧ t.pwr.resetHeld = [.clock] ∧ t.pwr.cause = 0x15 ∧ MainIsReset a t ∧
      t.pwr.releaseAt = some (max (a.elapsed + ticksUs 1100) (a.pwr.releaseAt.getD 0)) := by
  have logged : Keeps 0x680000092 { a with clk := c } (recordAll 257 (post code wide wide { a with clk := c })) :=
    keeps_recordAll _ (keeps_post _ _ _ (Keeps.refl _ _) rfl) rfl
  generalize recordAll 257 (post code wide wide { a with clk := c }) = b at logged
  have pwr : b.pwr = a.pwr := logged.within.pwr rfl
  obtain ⟨main, state, held, cause, -⟩ := assertReset_running (s := b) .clock (by rwa [pwr]) (by rwa [pwr])
  refine ⟨state, held, cause, main.of_mram (logged.within.mram rfl), ?_⟩
  rw [← logged.within.elapsed, ← pwr]
  rw [← pwr] at on
  rcases on with on | on | on <;> simp only [assertReset, on] <;> rfl

theorem claims_clockLoss : Claims.clockLoss := by
  intro f
  refine ActsSo.of_meaning (clockLost f) (fun _ _ => rfl) ?_
  rintro a ⟨runs, first⟩
  obtain ⟨on, -⟩ := running_of_mainRuns runs
  have lost : ∃ code c, clockLost f a = assertReset .clock (recordAll 257 (post code wide wide { a with clk := c })) := by
    rcases on with on | on | on <;> cases f <;> simp only [clockLost, on] <;> exact ⟨_, _, rfl⟩
  obtain ⟨code, c, lost⟩ := lost
  rw [lost]
  exact assertReset_clock code c on first

/-- Settles O23: the dialogue's two markers, Fantail's judgement of it, and the resets and losses of the clocks. -/
theorem ptmAndReferences : Obligations.PtmAndReferences := by
  unfold Obligations.PtmAndReferences
  exact ⟨claims_ptmDialogueStart, claims_ptmDialogueResponse, claims_ptmDialogueTimeout, claims_fantailHoldoverTimeout,
    claims_ptmEnableChange, claims_clockLoss, claims_refclkLoss, claims_refclkRestored⟩

end Sys2Proof.Machine
end

section
/-! SUPPORT. Wake sources, always-on power, parking and the main supplies (R114, R131 to R134, R141, R161, R164, R494, R502
to R508). -/

namespace Sys2Proof.Machine

/-! ### Wake sources -/

theorem claims_carWakeRise : Claims.carWakeRise := by
  refine Acts.of_meaning carWakeRises (fun _ _ => rfl) ?_
  rintro a ⟨low, powered⟩
  simp only [carWakeRises, low, Bool.false_eq_true, if_false, State.modPower, powered]

theorem withEffects_congr {f g : State → State} {s : State} (same : f s = g s) : withEffects f s = withEffects g s := by
  unfold withEffects
  rw [same]

/-- No step runs after `f`: nothing follows it. -/
theorem withEffects_of_no_steps {f : State → State} {s : State} (none : (f s).start.steps = []) : withEffects f s = f s := by
  unfold withEffects
  dsimp only
  rw [none, List.foldl_nil]

theorem claims_carWakeDebounceExpiry : Claims.carWakeDebounceExpiry := by
  intro t0 high
  refine ⟨?parked, ?starting⟩
  case parked =>
    refine ActsSo.of_meaning (withEffects carWakeTaken) (fun _ _ => rfl) ?_
    rintro a ⟨⟨up, from_, long⟩, parked⟩
    have taken : carWakeTaken a = wake .carWake t0 (a.modPower fun p => { p with debounceFrom := none }) := by
      simp only [carWakeTaken, from_, up, not_true_eq_false, Nat.not_lt.mpr long, or_self, if_false, State.modPower, parked]
    have woken : wake .carWake t0 (a.modPower fun p => { p with debounceFrom := none }) =
        carWakeTaken a := taken.symm
    have none : (carWakeTaken a).start.steps = [] := by
      simp only [taken, wake, State.modPower, parked]
      rfl
    rw [withEffects_of_no_steps none, taken]
    simp only [wake, State.modPower, parked]
    exact ⟨trivial, trivial, rfl, trivial, trivial, rfl, mainIsReset_mainReset false _⟩
  case starting =>
    refine Acts.of_meaning (withEffects carWakeTaken) (fun _ _ => rfl) ?_
    rintro a ⟨⟨up, from_, long⟩, starting, valtyn⟩
    refine withEffects_congr ?_
    simp only [carWakeTaken, from_, up, not_true_eq_false, Nat.not_lt.mpr long, or_self, if_false, State.modPower, starting,
      valtyn, if_true]

theorem claims_carWakeFall : Claims.carWakeFall := by
  unfold Claims.carWakeFall
  intro fallen
  refine ⟨?debounced, fun t0 => ⟨?runs, ?held⟩⟩
  case debounced =>
    refine Acts.of_meaning carWakeFalls (fun _ _ => rfl) ?_
    rintro a ⟨up, long⟩
    simp only [carWakeFalls, up, long, not_true_eq_false, if_false, Option.isSome_none, Bool.false_eq_true, not_false_eq_true,
      if_true, fallen]
  case runs =>
    refine Acts.of_meaning carWakeFalls (fun _ _ => rfl) ?_
    rintro a ⟨up, short, runs⟩
    have still : mainRuns (fallen a) = true := runs
    simp only [carWakeFalls, up, short, not_true_eq_false, if_false, Option.isSome_some, if_pos still, fallen]
  case held =>
    refine Acts.of_meaning carWakeFalls (fun _ _ => rfl) ?_
    rintro a ⟨up, short, stopped⟩
    have still : ¬ mainRuns (fallen a) = true := ne_true_of_eq_false stopped
    simp only [carWakeFalls, up, short, not_true_eq_false, if_false, Option.isSome_some, if_neg still, fallen]

theorem claims_xtr0WakeEdge : Claims.xtr0WakeEdge := by
  refine ActsSo.of_meaning xtr0Wakes (fun _ _ => rfl) ?_
  rintro a ⟨parked, enabled⟩
  simp only [xtr0Wakes, parked, enabled, if_true, wake]
  exact ⟨trivial, trivial, rfl, trivial, trivial, mainIsReset_mainReset false _⟩

/-! ### Always-on power -/

theorem claims_aonPowerApply : Claims.aonPowerApply := by
  intro sris
  refine ActsSo.of_meaning (aonApplied sris) (fun _ _ => rfl) fun a off => ?_
  simp only [aonApplied, off, if_true, wake, State.modPower]
  exact ⟨trivial, trivial, trivial, trivial, rfl, trivial, mainIsReset_mainReset false _⟩

theorem claims_aonPowerLoss : Claims.aonPowerLoss :=
  ActsSo.of_meaning aonLost (fun _ _ => rfl) fun a _ => ⟨rfl, rfl, rfl, mainIsReset_mainReset false a⟩

/-! ### Parking -/

theorem mirrorEnd_parkFrom (s : State) :
    (mirrorEnd s).pwr.parkFrom = s.pwr.parkFrom ∧ (mirrorEnd s).pwr.state = s.pwr.state := ⟨rfl, rfl⟩

/-- Whatever mirror was in progress, the power state stays as it is. -/
theorem mirrorBegin_power (reason : Nat) (s : State) :
    (mirrorBegin reason s).pwr.parkFrom = s.pwr.parkFrom ∧ (mirrorBegin reason s).pwr.state = s.pwr.state := by
  simp only [mirrorBegin]
  split_ifs
  · exact mirrorEnd_parkFrom s
  · exact ⟨rfl, rfl⟩

theorem claims_parkHoldExpiry : Claims.parkHoldExpiry := by
  intro t0
  refine ActsSo.of_meaning shutDown (fun _ _ => rfl) ?_
  rintro a ⟨running, runs, from_, ran⟩
  have held : since a a.pwr.parkFrom (parkHoldTicks a) = true := by
    rw [from_, since_some, decide_eq_true_eq]
    exact ran
  let shut : State := jot 0x11 0 noInst 0 0 0 0 (a.modStart fun x => { x with allDoorsClosed := true })
  let parked : State := { shut.modPower fun p =>
    { p with state := .shutdown, wakeOnXtr0 := (nextRecord shut).wakeOnXtr0, parkFrom := none } with
    guard := { shut.guard with paths := shut.guard.paths.map GPath.shut } }
  have down : shutDown a = mirrorBegin 2 (drainAll 256 parked) := by
    rw [shutDown, if_pos ⟨.inl running, runs, held⟩]
    rfl
  have drained : Keeps 0x680000092 parked (drainAll 256 parked) := keeps_drainAll 256 (Keeps.refl _ _) rfl
  have kept : Keeps 0x680000B92 parked (shutDown a) := by
    rw [down]
    exact keeps_mirrorBegin 2 (keeps_drainAll 256 (Keeps.refl _ _) rfl) rfl
  obtain ⟨parkFrom, state⟩ := mirrorBegin_power 2 (drainAll 256 parked)
  have pwr : (drainAll 256 parked).pwr = parked.pwr := drained.within.pwr rfl
  have start : (shutDown a).start = parked.start := kept.within.start rfl
  have guard : (shutDown a).guard = parked.guard := kept.within.guard rfl
  have paths : (shutDown a).guard.paths = a.guard.paths.map GPath.shut := by rw [guard]; rfl
  refine ⟨?_, ?_, ?_, paths, fun p => ?_, kept.within.mram rfl⟩
  · rw [down, state, pwr]
    rfl
  · rw [down, parkFrom, pwr]
    rfl
  · rw [start]
    rfl
  · rw [paths, Fin.getElem_fin, Vector.getElem_map, GPath.shut]

/-! ### The main supplies -/

theorem claims_mainSuppliesOff : Claims.mainSuppliesOff := by
  refine ⟨?parked, fun t0 => ?woken⟩
  case parked =>
    refine ActsSo.of_meaning suppliesOff (fun _ _ => rfl) ?_
    rintro a ⟨down, off, none⟩
    simp only [suppliesOff, down, off, none, Bool.false_eq_true, not_false_eq_true, and_self, if_true]
    exact ⟨trivial, trivial, rfl, mainIsReset_mainReset false _⟩
  case woken =>
    refine ActsSo.of_meaning suppliesOff (fun _ _ => rfl) ?_
    rintro a ⟨down, off, source⟩
    simp only [suppliesOff, down, off, source, Bool.false_eq_true, not_false_eq_true, and_self, if_true, wake]
    exact ⟨trivial, trivial, trivial, trivial, mainIsReset_mainReset false _⟩

/-- What no step that begins, ends or fails changes: the start's number and cause, and the clock, the link and the
supplies. -/
structure StartKept (s t : State) : Prop where
  number : t.start.number = s.start.number
  cause : t.start.cause = s.start.cause
  lastStart : t.mram.lastStart = s.mram.lastStart
  clk : t.clk = s.clk
  link : t.link = s.link
  supplies : t.pwr.suppliesGood = s.pwr.suppliesGood

namespace StartKept

variable {s t u : State}

theorem refl (s : State) : StartKept s s := ⟨rfl, rfl, rfl, rfl, rfl, rfl⟩

theorem trans (h : StartKept s t) (k : StartKept t u) : StartKept s u :=
  ⟨k.number.trans h.number, k.cause.trans h.cause, k.lastStart.trans h.lastStart, k.clk.trans h.clk, k.link.trans h.link,
    k.supplies.trans h.supplies⟩

/-- An operation on the log and the measurements alone. -/
theorem of_keeps (h : StartKept s t) (k : Keeps 0x4080 t u) : StartKept s u :=
  h.trans ⟨by rw [k.within.start rfl], by rw [k.within.start rfl], by rw [k.within.mram rfl], k.within.clk rfl,
    k.within.link rfl, by rw [k.within.pwr rfl]⟩

theorem post (h : StartKept s t) (code fn unit : Nat) : StartKept s (post code fn unit t) :=
  h.of_keeps (keeps_post _ _ _ (Keeps.refl _ _) rfl)

theorem jot (h : StartKept s t) (kind step inst route us cause detail : Nat) :
    StartKept s (jot kind step inst route us cause detail t) := h.trans ⟨rfl, rfl, rfl, rfl, rfl, rfl⟩

theorem setStep (h : StartKept s t) (step inst : Nat) (st : StepStatus) : StartKept s (setStep step inst st t) :=
  h.trans ⟨rfl, rfl, rfl, rfl, rfl, rfl⟩

theorem skipStep (h : StartKept s t) (step inst : Nat) : StartKept s (skipStep step inst t) :=
  (h.jot 4 step inst 0 0 0 0).trans ⟨rfl, rfl, rfl, rfl, rfl, rfl⟩

theorem routeFails (h : StartKept s t) (step inst route cause : Nat) : StartKept s (routeFails step inst route cause t) :=
  (h.jot 3 step inst route _ cause _).trans ⟨rfl, rfl, rfl, rfl, rfl, rfl⟩

theorem runStep (h : StartKept s t) (step inst route : Nat) : StartKept s (runStep step inst route t) := by
  have begun := (h.setStep step inst (.running route t.elapsed)).jot 1 step inst route 0 0 0
  unfold Machine.runStep
  dsimp only
  split_ifs
  · exact (begun.of_keeps (keeps_extendDebug _ (Keeps.refl _ _) rfl)).of_keeps (keeps_measureValtyn (Keeps.refl _ _) rfl)
  · exact begun.of_keeps (keeps_measureValtyn (Keeps.refl _ _) rfl)
  · exact begun.of_keeps (keeps_extendDebug _ (Keeps.refl _ _) rfl)
  · exact begun

theorem startAgain (h : StartKept s t) : StartKept s (startAgain t) := by
  have other : StartKept s (t.modStart fun a => { a with otherTried := true, trySlot := 1 - a.trySlot }) :=
    h.trans ⟨rfl, rfl, rfl, rfl, rfl, rfl⟩
  exact (other.runStep 3 noInst 1).runStep 2 noInst 1

theorem beginStep (h : StartKept s t) (x : Nat × Nat) : StartKept s (beginStep x t) := by
  obtain ⟨step, inst⟩ := x
  unfold Machine.beginStep
  dsimp only
  split_ifs
  · exact (h.setStep step inst .skipped).skipStep step inst
  · exact h.startAgain
  · exact (h.skipStep step inst).runStep step inst 1
  · exact h.runStep step inst 1
  · exact h.runStep step inst 0

theorem foldl {α : Type} {f : State → α → State} (each : ∀ u x, StartKept s u → StartKept s (f u x)) (l : List α)
    (h : StartKept s t) : StartKept s (l.foldl f t) := by
  induction l generalizing t with
  | nil => exact h
  | cons x l ih => exact ih (each t x h)

theorem beginReady (h : StartKept s t) : StartKept s (beginReady t) := by
  have each (u : State) (x : Nat × Nat) (k : StartKept s u) : StartKept s (if canBegin u x then Machine.beginStep x u else u) := by
    split
    · exact k.beginStep x
    · exact k
  exact foldl each _ (foldl each _ h)

theorem stepDone (h : StartKept s t) (step inst detail : Nat) : StartKept s (stepDone step inst detail t) := by
  unfold Machine.stepDone
  split
  · exact h
  · exact ((h.jot ..).setStep ..).beginReady

end StartKept

/-- The release of the main domain's reset begins a start (R114, R141). -/
theorem releaseMain_starts (cause : Nat) (a : State) (powered : a.pwr.suppliesGood = true) :
    let t := releaseMain cause a
    t.pwr.suppliesGood = true ∧ t.clk.dev = 0 ∧ t.start.number = a.mram.lastStart + 1 ∧
      t.mram.lastStart = a.mram.lastStart + 1 ∧ t.start.cause = cause ∧ t.link.rrsFrom = a.elapsed := by
  unfold releaseMain
  extract_lets n offset late b _ _ _ _ s1 s2 s3 s4 t
  have begun : StartKept s1 s2 := ((StartKept.refl s1).setStep ..).jot ..
  have skipped : StartKept s1 s3 := by
    unfold s3
    split
    · exact (begun.trans (u := s2.modStart _) ⟨rfl, rfl, rfl, rfl, rfl, rfl⟩).skipStep ..
    · exact begun
  have told : StartKept s1 s4 :=
    (StartKept.foldl (fun u c k => k.post c wide wide) _ skipped).trans ⟨rfl, rfl, rfl, rfl, rfl, rfl⟩
  have kept : StartKept s1 t := by
    unfold t
    clear_value s4
    split
    · exact ((((told.trans (u := s4.modPower _) ⟨rfl, rfl, rfl, rfl, rfl, rfl⟩).post ..).routeFails ..).setStep ..).beginReady
    · exact told.stepDone ..
  clear_value t
  exact ⟨kept.supplies.trans powered, by rw [kept.clk], kept.number, kept.lastStart, kept.cause, by rw [kept.link]⟩

theorem wakeLate_inTime {a : State} (inTime : a.elapsed ≤ a.clk.wakeAt + ticksMs 40) : wakeLate a = a := by
  rw [wakeLate, if_neg fun late => Nat.not_lt.mpr inTime late.2]

theorem claims_suppliesGood : Claims.suppliesGood := by
  unfold Claims.suppliesGood
  intro good
  have released {a : State} (g : good a) :
      suppliesAreGood a = releaseMain a.start.cause (a.modPower fun p => { p with suppliesGood := true }) := by
    obtain ⟨starting, enabled, off, first, inTime⟩ := g
    simp only [suppliesAreGood, starting, enabled, off, Bool.false_eq_true, not_false_eq_true, and_self, if_true,
      wakeLate_inTime inTime, State.modPower, first, List.isEmpty_nil]
  refine ⟨Acts.of_meaning suppliesAreGood (fun _ _ => rfl) fun _ => released, ?_⟩
  refine ActsSo.of_meaning suppliesAreGood (fun _ _ => rfl) fun a g => ?_
  rw [released g]
  exact releaseMain_starts a.start.cause _ rfl

/-! ### The AVS code -/

theorem claims_avsStep : Claims.avsStep := by
  unfold Claims.avsStep
  intro ready
  have due {a : State} (r : ready a) : mainRuns a = true ∧ (a.pwr.avsAt = none ∨ since a a.pwr.avsAt (ticksMs 1) = true) := by
    obtain ⟨runs, never | before⟩ := r
    · exact ⟨runs, .inl never⟩
    · exact ⟨runs, .inr ((since_iff ..).mpr before)⟩
  refine ⟨?up, ?down⟩
  case up =>
    refine Acts.of_meaning avsMove (fun _ _ => rfl) ?_
    rintro a ⟨r, below⟩
    obtain ⟨runs, ran⟩ := due r
    rw [avsMove, if_pos ⟨runs, ran, Nat.ne_of_lt below⟩]
    simp only [State.modPower, below, if_true]
  case down =>
    refine Acts.of_meaning avsMove (fun _ _ => rfl) ?_
    rintro a ⟨r, above⟩
    obtain ⟨runs, ran⟩ := due r
    rw [avsMove, if_pos ⟨runs, ran, Nat.ne_of_gt above⟩]
    simp only [State.modPower, Nat.not_lt.mpr (Nat.le_of_lt above), if_false]

/-- Settles O24: each source's meaning on the power state, and what a start's release leaves as it made it. -/
theorem powerAndWake : Obligations.PowerAndWake := by
  unfold Obligations.PowerAndWake
  exact ⟨claims_carWakeRise, claims_carWakeDebounceExpiry, claims_carWakeFall, claims_xtr0WakeEdge, claims_aonPowerApply,
    claims_aonPowerLoss, claims_parkHoldExpiry, claims_mainSuppliesOff, claims_suppliesGood, claims_avsStep⟩

end Sys2Proof.Machine
end

section
/-! SUPPORT. The start steps up to the early picture (R135, R141 to R148, R155, R195, R488, R489). -/

namespace Sys2Proof.Machine

/-! ### Steps within their budget -/

theorem stepRunning_of_inBudget {a : State} {step inst route : Nat} (within : inBudget a step inst = some route) :
    ∃ t, stepRunning a step inst = some (route, t) := by
  unfold inBudget at within
  split at within
  case h_1 r t running =>
    split at within
    · exact ⟨t, running.trans (by rw [Option.some.inj within])⟩
    · cases within
  case h_2 => cases within

/-- A step that ends on its first route or its alternate. -/
theorem finish_done {a t : State} {f : State → State} {step inst route detail : Nat}
    (within : inBudget a step inst = some route) (early : route ≠ 2) (done : f a = doneStep step inst detail t) :
    finish step inst detail (some t) a = withEffects f a := by
  rw [withEffects_congr (g := fun _ => doneStep step inst detail t) done]
  unfold finish
  split
  case h_1 late => exact absurd (Option.some.inj (within.symm.trans late)) early
  case h_2 => rfl
  case h_3 none => cases within.symm.trans none

theorem finish_failed {a : State} {step inst route detail : Nat} (within : inBudget a step inst = some route)
    (early : route ≠ 2) : finish step inst detail none a = withEffects (failStep step inst 0) a := by
  unfold finish
  split
  case h_1 late => exact absurd (Option.some.inj (within.symm.trans late)) early
  case h_2 => rfl
  case h_3 none => cases within.symm.trans none

/-! ### Slots, Valtyn and the journal -/

theorem claims_slotCheck : Claims.slotCheck := by
  unfold Claims.slotCheck
  intro done runs
  have checked {a : State} (r : runs a) : slotCheckEnds a =
      if intact (a.mram.slots[a.start.trySlot]).image then
        if (stepRunning a 3 noInst).isSome then measureValtyn (done a) else done a
      else withEffects (failStep 2 noInst 0) a := by
    rcases r with first | alternate
    · simp only [slotCheckEnds, first, done]
    · simp only [slotCheckEnds, alternate, done]
  refine ⟨?first, ?again, ?bad⟩
  case first =>
    refine Acts.of_meaning slotCheckEnds (fun _ _ => rfl) ?_
    rintro a ⟨r, good, only⟩
    rw [checked r, if_pos good, only, if_neg (by simp)]
  case again =>
    refine Acts.of_meaning slotCheckEnds (fun _ _ => rfl) ?_
    rintro a ⟨r, good, both⟩
    rw [checked r, if_pos good, if_pos (Option.isSome_iff_ne_none.mpr both)]
  case bad =>
    refine Acts.of_meaning slotCheckEnds (fun _ _ => rfl) ?_
    rintro a ⟨r, bad⟩
    rw [checked r, bad, if_neg Bool.false_ne_true]

/-- What ST03 ends with. -/
def valtynEnds (res : StepResult) (s : State) : State :=
  match inBudget s 3 noInst with
  | none => s
  | some _ =>
    if ¬ stepEnded s (2, noInst) then s
    else if res.ok then withEffects (doneStep 3 noInst s.start.trySlot) (valtynRuns s)
    else withEffects (failStep 3 noInst 0) s

theorem exec_valtynRun (res : StepResult) (s : State) (dt : Nat) :
    exec (.valtynRun dt res) s = .next (valtynEnds res (advance dt s)) := rfl

theorem claims_valtynRun : Claims.valtynRun := by
  intro res route
  refine ⟨?runs, ?fails⟩
  case runs =>
    refine Acts.of_meaning (valtynEnds res) (exec_valtynRun res) ?_
    rintro a ⟨within, ended, ok⟩
    simp only [valtynEnds, within, ended, ok, not_true_eq_false, if_false, if_true]
    rfl
  case fails =>
    refine Acts.of_meaning (valtynEnds res) (exec_valtynRun res) ?_
    rintro a ⟨within, ended, failed⟩
    simp only [valtynEnds, within, ended, failed, not_true_eq_false, if_false, Bool.false_eq_true]

theorem claims_journalFold : Claims.journalFold := by
  intro b l ok failed
  refine ⟨?folds, fun a => ⟨rfl, ?_⟩⟩
  case folds =>
    refine Acts.of_meaning journalFolds (fun _ _ => rfl) ?_
    rintro a ⟨within, newest, folded⟩
    simp only [journalFolds, within, newest, folded, Bool.false_eq_true, if_false, Nat.zero_ne_one]
  simp only [foldApplies, post_eq_modLog, Bool.false_eq_true, if_false]
  rfl

theorem claims_outingRecord : Claims.outingRecord := by
  intro o
  refine ⟨?good, ?bad⟩
  case good =>
    refine Acts.of_meaning recordRead (fun _ _ => rfl) ?_
    rintro a ⟨within, good⟩
    simp only [recordRead, within, copyOf, Nat.zero_ne_one, if_false, good]
  case bad =>
    refine Acts.of_meaning recordRead (fun _ _ => rfl) ?_
    rintro a ⟨within, bad⟩
    simp only [recordRead, within, copyOf, Nat.zero_ne_one, if_false, bad]

/-! ### The guardian and the panels -/

theorem claims_guardianSurfaces : Claims.guardianSurfaces := by
  intro res
  let surfaces (s : State) : State :=
    if ((stepRunning s 6 noInst).map Prod.fst).getD 0 = 2 then s
    else finish 6 noInst 0
      (if res.ok then some (buildSurfaces (((stepRunning s 6 noInst).map Prod.fst).getD 0 == 1) s) else none) s
  have first {a : State} (within : inBudget a 6 noInst = some 0) : ((stepRunning a 6 noInst).map Prod.fst).getD 0 = 0 := by
    obtain ⟨t, running⟩ := stepRunning_of_inBudget within
    rw [running]
    rfl
  refine ⟨?built, ?failed⟩
  case built =>
    refine Acts.of_meaning surfaces (fun _ _ => rfl) ?_
    rintro a ⟨within, ok⟩
    simp only [surfaces, first within, ok, if_true]
    rw [if_neg (by decide)]
    exact finish_done within (by decide) rfl
  case failed =>
    refine Acts.of_meaning surfaces (fun _ _ => rfl) ?_
    rintro a ⟨within, failed⟩
    simp only [surfaces, first within, failed, Bool.false_eq_true, if_false]
    rw [if_neg (by decide)]
    exact finish_failed within (by decide)

theorem claims_tslReceive : Claims.tslReceive := by
  refine Acts.of_meaning
    (fun s => finish 7 noInst 0 (some (s.modTsl fun t => { t with on := true, lastAt := s.elapsed })) s) (fun _ _ => rfl) ?_
  exact fun a within => finish_done within (by decide) rfl

theorem claims_panelLinkTrained : Claims.panelLinkTrained := by
  intro p l
  refine ⟨?trained, ?failed⟩
  case trained =>
    refine Acts.of_meaning (fun s => finish (8 + p) p (linkDetail l) (some (panelLink p s)) s) (fun _ _ => rfl) ?_
    exact fun a within => finish_done within (by decide) rfl
  case failed =>
    refine Acts.of_meaning (fun s => finish (8 + p) p 0 none s) (fun _ _ => rfl) ?_
    exact fun a within => finish_failed within (by decide)

theorem claims_earlyPicture : Claims.earlyPicture := by
  intro p res
  let picture (s : State) : State :=
    finish 10 p 0 (if res.ok then some (s.modPath p fun x => { x with showing := x.mode == .early }) else none) s
  refine ⟨?shown, ?failed⟩
  case shown =>
    refine Acts.of_meaning picture (fun _ _ => rfl) ?_
    rintro a ⟨within, ok⟩
    simp only [picture, ok, if_true]
    exact finish_done within (by decide) rfl
  case failed =>
    refine Acts.of_meaning picture (fun _ _ => rfl) ?_
    rintro a ⟨within, failed⟩
    simp only [picture, failed, Bool.false_eq_true, if_false]
    exact finish_failed within (by decide)

/-- Settles O25: each step's meaning on its first route, or on the routes that its claim names. -/
theorem earlyStartSteps : Obligations.EarlyStartSteps := by
  unfold Obligations.EarlyStartSteps
  exact ⟨claims_slotCheck, claims_valtynRun, claims_journalFold, claims_outingRecord, claims_guardianSurfaces,
    claims_tslReceive, claims_panelLinkTrained, claims_earlyPicture⟩

end Sys2Proof.Machine
end

section
/-! SUPPORT. The start steps from the rear camera to the end of the start, missed budgets and late retries (R135 to R138,
R143, R161, R216, R217, R234, R235, R269, R372, R460). -/

namespace Sys2Proof.Machine

/-! ### What a budget depends on -/

/-- A step's budget depends on the step table, the power state and the time. -/
theorem inBudget_congr {s t : State} (start : t.start = s.start) (pwr : t.pwr = s.pwr) (elapsed : t.elapsed = s.elapsed)
    (step inst : Nat) : inBudget t step inst = inBudget s step inst := by
  unfold inBudget stepRunning stepStatus mainRuns
  rw [start, pwr, elapsed]

theorem inBudget_of_keeps {m : Nat} {s t : State} (k : Keeps m s t) (start : m &&& Area.start = 0)
    (pwr : m &&& Area.pwr = 0) (step inst : Nat) : inBudget t step inst = inBudget s step inst :=
  inBudget_congr (k.within.start start) (k.within.pwr pwr) k.within.elapsed step inst

/-! ### The cameras -/

theorem portFits_of {a : State} {p : Fin 8} {gear profile : Nat} (on : (a.ports[p]).mode ≠ .off)
    (low : (a.ports[p]).cfg.gear ≤ gear) (high : gear ≤ 5) (same : profile = (a.ports[p]).cfg.profile) :
    portFits a p gear profile = true := by
  simp [-Fin.getElem_fin, portFits, on, low, high, same]

theorem claims_rearCameraLink : Claims.rearCameraLink := by
  intro p res gear profile
  let link (s : State) : State :=
    match s.start.outing.rearPort with
    | some p => rearLink p res gear profile s
    | none => s
  refine ⟨?locked, ?failed⟩
  case locked =>
    refine Acts.of_meaning link (fun _ _ => rfl) ?_
    rintro a ⟨rear, within, ok, on, low, high, same⟩
    simp only [link, rear, rearLink, ok, not_true_eq_false, if_false, portFits_of on low high same]
    exact finish_done within (by decide) rfl
  case failed =>
    refine Acts.of_meaning link (fun _ _ => rfl) ?_
    rintro a ⟨rear, within, failed⟩
    simp only [link, rear, rearLink, failed, Bool.false_eq_true, not_false_eq_true, if_true]
    exact finish_failed within (by decide)

/-- A sensor step by what its script reaches. -/
theorem sensorStep_runs {a : State} {step : Nat} {p : Fin 8} {route : Nat} (detail : Nat)
    (answers : List (List I2cAnswer)) (frame : Bool) (within : inBudget a step p = some route) (early : route ≠ 2) :
    let r := sensorRuns p (step == 12 && route == 1) answers a
    sensorStep step p detail answers frame a =
      if r.1 then (if frame then withEffects (doneStep step p detail) r.2 else r.2)
      else withEffects (failStep step p 0) r.2 := by
  intro r
  have still : inBudget r.2 step p = some route := by
    rw [inBudget_of_keeps (keeps_sensorRuns (msk := 0x200010080) p (step == 12 && route == 1) answers (Keeps.refl _ a) rfl)
      rfl rfl, within]
  have unfolded : sensorStep step p detail answers frame a =
      if ¬ r.1 then finish step p detail none r.2
      else if frame then finish step p detail (some r.2) r.2 else r.2 := by
    simp only [sensorStep, within]
    rfl
  rw [unfolded, finish_failed still early, finish_done still early rfl, ite_not]

theorem claims_rearSensor : Claims.rearSensor := by
  intro p answers frame route early script
  have two : route ≠ 2 := by omega
  let sensor (frame : Bool) (s : State) : State :=
    match s.start.outing.rearPort with
    | some p => sensorStep 12 p 0 answers frame s
    | none => s
  have runs {a : State} (frame : Bool) (rear : a.start.outing.rearPort = some p) (within : inBudget a 12 p = some route) :
      sensor frame a = if (script a).1 then (if frame then withEffects (doneStep 12 p 0) (script a).2 else (script a).2)
        else withEffects (failStep 12 p 0) (script a).2 := by
    simp only [sensor, rear]
    exact sensorStep_runs 0 answers frame within two
  refine ⟨?framed, ?waits, ?fails⟩
  case framed =>
    refine Acts.of_meaning (sensor true) (fun _ _ => rfl) ?_
    rintro a ⟨rear, within, ended⟩
    rw [runs true rear within, if_pos ended, if_pos rfl]
  case waits =>
    refine Acts.of_meaning (sensor false) (fun _ _ => rfl) ?_
    rintro a ⟨rear, within, ended⟩
    rw [runs false rear within, if_pos ended, if_neg Bool.false_ne_true]
  case fails =>
    refine Acts.of_meaning (sensor frame) (fun _ _ => rfl) ?_
    rintro a ⟨rear, within, broke⟩
    rw [runs frame rear within, broke, if_neg Bool.false_ne_true]

theorem claims_rearInsertion : Claims.rearInsertion := by
  intro res
  refine Acts.of_meaning (fun s => finish 13 1 0 (if res.ok then some s else none) s) (fun _ _ => rfl) fun a within => ?_
  cases res.ok
  case true => exact finish_done within (by decide) rfl
  case false => exact finish_failed within (by decide)

theorem claims_cameraPortStart : Claims.cameraPortStart := by
  intro p res gear profile answers frame
  refine ⟨?done, ?failed⟩
  case done =>
    refine Acts.of_meaning (cameraStep p res gear profile answers true) (fun _ _ => rfl) ?_
    rintro a ⟨within, ok, on, low, high, same, ended⟩
    have still : inBudget (portLockedAt p gear a) 15 p = some 0 := by
      rw [inBudget_of_keeps (keeps_portLockedAt (msk := 0x10080) p gear (Keeps.refl _ a) rfl) rfl rfl, within]
    rw [cameraStep, if_neg (by simp [ok]), if_neg (by simp [within, portFits_of on low high same]),
      sensorStep_runs _ answers true still (by decide)]
    exact (if_pos ended).trans (if_pos rfl)
  case failed =>
    refine Acts.of_meaning (cameraStep p res gear profile answers frame) (fun _ _ => rfl) ?_
    rintro a ⟨within, failed⟩
    rw [cameraStep, if_pos (by simp [failed])]
    exact finish_failed within (by decide)

/-! ### LPDDR5X and the record's defaults -/

theorem claims_lpddr5xTraining : Claims.lpddr5xTraining := by
  intro res mts gib
  let training (s : State) : State :=
    if res.ok ∧ ¬ (2 ≤ gib ∧ gib ≤ 16) then s else finish 14 noInst 0
      (if res.ok then some (s.modWeir fun w => { w with store := .available, mts := mts, gib := gib }) else none) s
  refine ⟨?trained, ?failed⟩
  case trained =>
    refine Acts.of_meaning training (fun _ _ => rfl) ?_
    rintro a ⟨within, ok, low, high⟩
    simp only [training, ok, low, high, and_self, not_true_eq_false, and_false, if_false, if_true]
    exact finish_done within (by decide) rfl
  case failed =>
    refine Acts.of_meaning training (fun _ _ => rfl) ?_
    rintro a ⟨within, failed⟩
    simp only [training, failed, Bool.false_eq_true, false_and, if_false]
    exact finish_failed within (by decide)

/-- The record's defaults are applied in order; what they change leaves the step within its budget. -/
theorem finishDefaults_ends {a : State} {step m : Nat} {apply : State → State × Bool}
    (within : inBudget a step noInst = some 0) (k : Keeps m a (apply a).1) (start : m &&& Area.start = 0)
    (pwr : m &&& Area.pwr = 0) :
    finishDefaults step apply a =
      if (apply a).2 then withEffects (doneStep step noInst 0) (apply a).1
      else withEffects (failStep step noInst 0) (apply a).1 := by
  have still : inBudget (apply a).1 step noInst = some 0 := (inBudget_of_keeps k start pwr step noInst).trans within
  simp only [finishDefaults, within]
  cases (apply a).2
  case true => exact finish_done still (by decide) rfl
  case false => exact finish_failed still (by decide)

/-- A step that applies defaults of the record, from what the defaults leave as it is. -/
theorem acts_finishDefaults {c : Nat → Instr} {step m : Nat} {apply : State → State × Bool}
    (meaning : ∀ s dt, exec (c dt) s = .next (finishDefaults step apply (advance dt s)))
    (k : ∀ a, Keeps m a (apply a).1) (start : m &&& Area.start = 0) (pwr : m &&& Area.pwr = 0) :
    Acts c (fun a => inBudget a step noInst = some 0 ∧ (apply a).2 = true)
      (fun a => withEffects (doneStep step noInst 0) (apply a).1) ∧
    Acts c (fun a => inBudget a step noInst = some 0 ∧ (apply a).2 = false)
      (fun a => withEffects (failStep step noInst 0) (apply a).1) := by
  refine ⟨Acts.of_meaning _ meaning ?_, Acts.of_meaning _ meaning ?_⟩
  · rintro a ⟨within, applied⟩
    rw [finishDefaults_ends within (k a) start pwr, if_pos applied]
  · rintro a ⟨within, refused⟩
    rw [finishDefaults_ends within (k a) start pwr, refused, if_neg Bool.false_ne_true]

theorem claims_positionChannels : Claims.positionChannels :=
  acts_finishDefaults (m := 0x6E3F004B2) (fun _ _ => rfl) (fun a => keeps_applyPositions (Keeps.refl _ a) rfl) rfl rfl

theorem claims_audioInputs : Claims.audioInputs :=
  acts_finishDefaults (m := 0x6FF018092) (fun _ _ => rfl) (fun a => keeps_applyAudio (Keeps.refl _ a) rfl) rfl rfl

theorem claims_witnessArmStep : Claims.witnessArmStep :=
  acts_finishDefaults (m := 0x50000000) (fun _ _ => rfl) (fun a => keeps_applyWitness (Keeps.refl _ a) rfl) rfl rfl

/-! ### The end of the start -/

theorem runStep_startDone (step inst route : Nat) (s : State) :
    (runStep step inst route s).start.startDone = s.start.startDone := by
  let begun := jot 1 step inst route 0 0 0 (setStep step inst (.running route s.elapsed) s)
  have debug : (extendDebug begun.meas.debugOpen begun).start = begun.start :=
    (keeps_extendDebug (msk := 0x4080) _ (Keeps.refl _ _) rfl).within.start rfl
  have measured (u : State) : (measureValtyn u).start = u.start :=
    (keeps_measureValtyn (msk := 0x4080) (Keeps.refl _ _) rfl).within.start rfl
  unfold runStep
  dsimp only
  split_ifs
  · rw [measured, debug]; rfl
  · rw [measured]; rfl
  · rw [debug]; rfl
  · rfl

theorem nextRetry_startDone (s : State) : (nextRetry s).start.startDone = s.start.startDone := by
  unfold nextRetry
  split
  · split
    · rw [runStep_startDone]
      rfl
    · rfl
  · rfl

theorem claims_startDone : Claims.startDone := by
  refine ⟨Acts.of_meaning (withEffects startCloses) (fun _ _ => rfl) fun _ _ => rfl, fun a within => ?_⟩
  unfold startCloses
  rw [within]
  extract_lets s1 s2 s3 s4 c s5
  have told : Keeps 0x280000092 s3 s4 := keeps_noticeAll _ _ _ _ (Keeps.refl _ _) rfl
  have caused : Keeps 0x280000092 s3 s5 := by
    unfold s5
    split
    · exact keeps_post _ _ _ told rfl
    · exact told
  have last : Keeps 0x280000092 s3 (if s5.pwr.lockstep then post 0x9015 wide 0 s5 else s5) := by
    split
    · exact keeps_post _ _ _ caused rfl
    · exact caused
  refine ⟨?_, ?_⟩
  · rw [nextRetry_startDone, last.within.start rfl]
    rfl
  · rw [(keeps_nextRetry (msk := 0x7080) (Keeps.refl _ _) rfl).within.pwr rfl, last.within.pwr rfl]
    rfl

/-! ### Missed budgets and late retries -/

theorem claims_startStepTimeout : Claims.startStepTimeout := by
  intro step inst t0
  let timeout (step inst : Nat) (s : State) : State := if step = 1 then wakeTimesOut s else stepTimesOut step inst s
  refine ⟨fun other => ?later, ?first⟩
  case later =>
    refine Acts.of_meaning (timeout step inst) (fun _ _ => rfl) ?_
    rintro a ⟨runs, running, late⟩
    simp only [timeout, if_neg other, stepTimesOut, running]
    rw [if_neg (by simpa [runs] using late)]
    rfl
  case first =>
    refine Acts.of_meaning (timeout 1 inst) (fun _ _ => rfl) ?_
    rintro a ⟨starting, off, free, late⟩
    simp only [timeout, if_true, wakeTimesOut]
    rw [if_pos ⟨starting, by simp [off], by simp [free], late⟩]

theorem claims_lateRetry : Claims.lateRetry := by
  intro step inst detail res answers frame plain ok
  refine Acts.of_meaning (withEffects (lateRetryEnds step inst res detail answers frame)) (fun _ _ => rfl) fun a within => ?_
  refine withEffects_congr ?_
  have plainEnd : lateRetryEnds step inst res detail answers frame a =
      finish step inst 0 (if res.ok then some a else none) a := by
    simp only [List.mem_cons, List.not_mem_nil, or_false, not_or] at plain
    obtain ⟨no2, no5, no15, no16, no17, no18⟩ := plain
    simp only [lateRetryEnds, within]
  simp only [plainEnd, ok, if_true, finish, within]

/-- Settles O26: each step's meaning, with the budget that its inputs leave it, and the end of the start. -/
theorem lateStartSteps : Obligations.LateStartSteps := by
  unfold Obligations.LateStartSteps
  exact ⟨claims_rearCameraLink, claims_rearSensor, claims_rearInsertion, claims_lpddr5xTraining, claims_cameraPortStart,
    claims_positionChannels, claims_audioInputs, claims_witnessArmStep, claims_startDone, claims_startStepTimeout,
    claims_lateRetry⟩

end Sys2Proof.Machine
end

section
/-! SUPPORT. Provisioning, measurement reports, SPDM, the journal and the debug port (R144, R155, R158 to R162, R175,
R489). -/

namespace Sys2Proof.Machine

/-! ### Provisioning -/

theorem claims_provision : Claims.provision := by
  refine ⟨?open_, ?locked⟩
  case open_ =>
    refine Serves.of_accepted provisionBody (fun _ _ _ => rfl) ?_
    rintro a h ⟨unlocked, tail, flags, zero, reserved, buffer⟩
    have chain : (bit (fld h.payload 4 1) 2 && bufferBad a h.fn (bufferAt h.payload 8)) = false := by
      cases wanted : bit (fld h.payload 4 1) 2
      · rfl
      · exact buffer wanted
    rw [provisionBody, if_neg (by simp [unlocked]),
      if_neg (by simp [tail, Nat.not_lt.mpr flags, zero, reserved, chain])]
  case locked =>
    exact Serves.of_refuse provisionBody (fun _ _ _ => rfl) (by decide) fun a h locked => if_pos locked

theorem claims_provisionDone : Claims.provisionDone := by
  intro cert x c written
  refine ⟨?plain, ?chain, ?failed⟩
  case plain =>
    refine Acts.of_meaning (provisionEnds cert) (fun _ _ => rfl) ?_
    rintro a ⟨found, none⟩
    simp only [provisionEnds, found, none, Bool.false_eq_true, if_false, written, List.length_nil, State.modMram]
  case chain =>
    refine Acts.of_meaning (provisionEnds cert) (fun _ _ => rfl) ?_
    rintro a ⟨found, wanted, read⟩
    simp only [provisionEnds, found, wanted, read, if_true, written]
  case failed =>
    refine Acts.of_meaning (provisionEnds cert) (fun _ _ => rfl) ?_
    rintro a ⟨found, wanted, failed⟩
    simp only [provisionEnds, found, wanted, failed, if_true]

/-! ### Reports -/

theorem claims_measReport : Claims.measReport := by
  refine Serves.of_accepted measReportBody (fun _ _ _ => rfl) ?_
  rintro a h ⟨tail, flags, zero, buffer, long⟩
  rw [measReportBody]
  exact if_neg (by simp only [tail, Nat.not_lt.mpr flags, zero, buffer, Nat.not_lt.mpr long]; decide)

theorem claims_measReportDone : Claims.measReportDone := by
  intro x
  refine ⟨?written, ?failed⟩
  case written =>
    refine Acts.of_meaning (measReportEnds true) (fun _ _ => rfl) fun a found => ?_
    simp only [measReportEnds, found, if_true]
    rfl
  case failed =>
    refine Acts.of_meaning (measReportEnds false) (fun _ _ => rfl) fun a found => ?_
    simp only [measReportEnds, found, Bool.false_eq_true, if_false]

/-- A signature is 96 bytes. -/
theorem signBytes_length (bytes : List Byte) (s : State) : (signBytes bytes s).1.length = 96 := by
  simp only [signBytes, padTo, List.length_append, List.length_replicate, List.length_take]
  omega

theorem claims_spdmRequest : Claims.spdmRequest := by
  intro msg q c heard
  have hears {a : State} (h : heard a) : ¬ (¬ a.link.up = true ∨ (a.fns[(0 : Fn)]).mode = .fencing) := by
    rintro (down | fencing)
    · exact down h.1
    · exact h.2 fencing
  refine ⟨?answered, ?refused⟩
  case answered =>
    refine ActsSo.of_meaning (spdmAnswer msg) (fun _ _ => rfl) ?_
    rintro a ⟨h, asked, sequence⟩
    have next : spdmNext a msg = some c := by simp only [spdmNext, asked, Option.bind_some, sequence]
    simp only [spdmAnswer, if_neg (hears h), asked, next]
    split_ifs
    · exact ⟨_, .inr (signBytes_length _ a), rfl⟩
    · exact ⟨[], .inl rfl, rfl⟩
  case refused =>
    refine Acts.of_meaning (spdmAnswer msg) (fun _ _ => rfl) ?_
    rintro a ⟨h, none⟩
    cases asked : spdmReq a msg <;> simp only [spdmAnswer, if_neg (hears h), none, asked]

theorem claims_compactReportReady : Claims.compactReportReady := by
  intro nonce
  refine ActsSo.of_meaning compactReady (fun _ _ => rfl) fun a pending => ?_
  simp only [compactReady, pending]
  exact ⟨_, signBytes_length _ a, rfl⟩

/-! ### The journal -/

theorem claims_journalRead : Claims.journalRead := by
  intro k
  refine Serves.of_ok journalReadBody (fun _ _ _ => rfl) ?_
  rintro a h ⟨tail, back, zero, buffer, long, good, number, bank⟩
  have bank' : a.mram.banks[bankOf (a.start.number - BitVec.ofNat 32 (fld h.payload 0 1))] = some k := by
    simpa only [number] using bank
  simp only [journalReadBody]
  rw [if_neg (by simp [tail, Nat.not_lt.mpr back, zero, buffer, Nat.not_lt.mpr long]), bank']
  exact (if_pos ⟨number, .inl good⟩).trans (by rw [← number])

theorem claims_journalClear : Claims.journalClear :=
  ⟨Serves.of_ok journalClearBody (fun _ _ _ => rfl) fun a h tail => if_neg (by simp [tail]), fun _ _ kind => if_pos kind⟩

/-! ### The debug port -/

/-- An extension of a measurement slot leaves the debug state, the watchdog and the time as they are. -/
theorem extend_kept (slot : Fin 8) (extender : Nat) (bytes : List Byte) (s : State) :
    (extend slot extender bytes s).meas.debugOpen = s.meas.debugOpen ∧ (extend slot extender bytes s).pwr = s.pwr ∧
      (extend slot extender bytes s).elapsed = s.elapsed := by
  have kept : Keeps 0x4080 s (extend slot extender bytes s) := keeps_extend _ _ _ (Keeps.refl _ s) rfl
  refine ⟨?_, kept.within.pwr rfl, kept.within.elapsed⟩
  unfold extend
  dsimp only
  split
  · split
    · rw [post_eq_modLog]
      rfl
    · rfl
  · rfl

theorem claims_debugPortOpen : Claims.debugPortOpen := by
  unfold Claims.debugPortOpen
  intro opened
  have opens {a : State} (closed : a.meas.debugOpen = false) (runs : mainRuns a = true) : debugPort true a = opened a := by
    rw [debugPort, if_neg (by simp [closed])]
    exact if_pos runs
  refine ⟨?plain, ?halts⟩
  case plain =>
    refine Acts.of_meaning (debugPort true) (fun _ _ => rfl) ?_
    rintro a ⟨closed, runs⟩
    exact opens closed runs
  case halts =>
    refine Acts.of_meaning (fun a => haltCore (debugPort true a)) (fun _ _ => rfl) ?_
    rintro a ⟨closed, runs, free⟩
    obtain ⟨debug, pwr, elapsed⟩ := extend_kept 6 3 (record [(1, 1), (7, 0), (8, (nowNs a).toNat)])
      { a with meas := { a.meas with debugOpen := true } }
    have halt : haltCore (opened a) = (opened a).modPower fun p => { p with wdtHalt := some (opened a).elapsed } :=
      if_pos ⟨debug, by rw [pwr]; exact free⟩
    rw [opens closed runs, halt, show (opened a).elapsed = a.elapsed from elapsed]

theorem claims_debugPortClose : Claims.debugPortClose := by
  unfold Claims.debugPortClose
  intro closed
  have closes {a : State} (opened : a.meas.debugOpen = true) (runs : mainRuns a = true) : debugPort false a = closed a := by
    rw [debugPort, if_neg (by simp [opened])]
    exact if_pos runs
  have kept (a : State) := extend_kept 6 3 (record [(1, 0), (7, 0), (8, (nowNs a).toNat)])
    { a with meas := { a.meas with debugOpen := false } }
  refine ⟨?free, fun t0 => ?halted⟩
  case free =>
    refine Acts.of_meaning (fun a => freeCore (debugPort false a)) (fun _ _ => rfl) ?_
    rintro a ⟨opened, runs, free⟩
    have still : (closed a).pwr.wdtHalt = none := by rw [(kept a).2.1]; exact free
    rw [closes opened runs, freeCore, still]
  case halted =>
    refine Acts.of_meaning (fun a => freeCore (debugPort false a)) (fun _ _ => rfl) ?_
    rintro a ⟨opened, runs, halted⟩
    have still : (closed a).pwr.wdtHalt = some t0 := by rw [(kept a).2.1]; exact halted
    rw [closes opened runs, freeCore, still]
    dsimp only
    rw [show (closed a).elapsed = a.elapsed from (kept a).2.2]

/-- Settles O27: each command's meaning on MRAM, the measurements and the watchdog. -/
theorem provisioningAndMeasurement : Obligations.ProvisioningAndMeasurement := by
  unfold Obligations.ProvisioningAndMeasurement
  exact ⟨claims_provision, claims_provisionDone, claims_measReport, claims_measReportDone, claims_spdmRequest,
    claims_compactReportReady, claims_journalRead, claims_journalClear, claims_debugPortOpen, claims_debugPortClose⟩

end Sys2Proof.Machine
end

section
/-! SUPPORT. Firmware staging and activation, outing records, slots and the live switch (R91, R144, R148, R151 to R155,
R161, R162). -/

namespace Sys2Proof.Machine

/-! ### Staging -/

theorem claims_fwStage : Claims.fwStage := by
  intro slot f d
  refine ⟨?accepted, ?running⟩
  case accepted =>
    refine Serves.of_accepted (fwStageBody f) (fun _ _ _ => rfl) ?_
    rintro a h ⟨named, other, tail, zero, buffer, low, high, read, good, header, fits⟩
    have idle : ¬ runningSlot a = some slot := by
      unfold runningSlot
      split
      · exact fun same => other (Option.some.inj same)
      · exact fun none => by cases none
    simp only [fwStageBody, fin?_eq named, if_neg idle, read]
    rw [if_neg (by simp [tail, zero, buffer, Nat.not_lt.mpr low, Nat.not_lt.mpr high]),
      if_neg (by simp [good, Nat.not_lt.mpr header, Nat.not_lt.mpr fits])]
  case running =>
    refine Serves.while_valtyn (Serves.of_refuse (fwStageBody f) (fun _ _ _ => rfl) (by decide) ?_)
    rintro a h ⟨⟨named, running⟩, valtyn⟩
    simp only [fwStageBody, fin?_eq named, runningSlot, valtyn, running, if_true, wrongState]

theorem claims_fwStageDone : Claims.fwStageDone := by
  intro x slot f d staged
  refine ⟨?valid, ?invalid⟩
  case valid =>
    refine Acts.of_meaning (fwStageEnds f) (fun _ _ => rfl) ?_
    rintro a ⟨⟨found, named, read⟩, good⟩
    simp only [fwStageEnds, found, fin?_eq named, read, good, if_true]
  case invalid =>
    refine Acts.of_meaning (fwStageEnds f) (fun _ _ => rfl) ?_
    rintro a ⟨⟨found, named, read⟩, bad⟩
    simp only [fwStageEnds, found, fin?_eq named, read, bad, Bool.false_eq_true, if_false]

theorem claims_fwActivate : Claims.fwActivate := by
  intro slot
  refine ⟨?next, ?live⟩
  case next =>
    refine Serves.of_ok fwActivateBody (fun _ _ _ => rfl) ?_
    rintro a h ⟨named, mode, valid, tail, zero⟩
    simp only [fwActivateBody, fin?_eq named, mode, valid, tail, zero, ne_eq, not_true_eq_false, and_false, if_false,
      Nat.zero_ne_one, false_and, Bool.not_true, Bool.or_false, if_true]
    rfl
  case live =>
    refine Serves.while_valtyn (Serves.of_ok fwActivateBody (fun _ _ _ => rfl) ?_)
    rintro a h ⟨⟨named, mode, valid, tail, zero, other, major, idle⟩, valtyn⟩
    simp only [fwActivateBody, fin?_eq named, mode, valtyn, reduceCtorEq, false_and, valid, runningSlot, if_true,
      Option.some.injEq, other, major, liveBusy, idle, ne_eq, not_true_eq_false, Bool.false_eq_true, or_self, and_false,
      if_false]
    rw [if_neg (by simp [tail, zero])]

/-! ### Outing records and slots -/

theorem claims_outingWrite : Claims.outingWrite := by
  intro copy
  refine ⟨?accepted, ?active⟩
  case accepted =>
    refine Serves.of_accepted outingWriteBody (fun _ _ _ => rfl) ?_
    rintro a h ⟨named, other, tail, flags, zero, buffer, long⟩
    simp only [outingWriteBody, fin?_eq named, if_neg other]
    rw [if_neg (by simp [tail, Nat.not_lt.mpr flags, zero, buffer, Nat.not_lt.mpr long])]
  case active =>
    refine Serves.of_refuse outingWriteBody (fun _ _ _ => rfl) (by decide) ?_
    rintro a h ⟨named, active⟩
    simp only [outingWriteBody, fin?_eq named, if_pos active, wrongState]

theorem claims_outingWriteDone : Claims.outingWriteDone := by
  intro x copy f d off read held
  refine ⟨?good, ?bad⟩
  case good =>
    refine Acts.of_meaning (outingWriteEnds f) (fun _ _ => rfl) ?_
    rintro a ⟨⟨found, named, ended, bytes⟩, good⟩
    simp only [outingWriteEnds, found, ended, not_true_eq_false, if_false, fin?_eq named, bytes, good, held]
  case bad =>
    refine Acts.of_meaning (outingWriteEnds f) (fun _ _ => rfl) ?_
    rintro a ⟨⟨found, named, ended, bytes⟩, bad⟩
    simp only [outingWriteEnds, found, ended, not_true_eq_false, if_false, fin?_eq named, bytes, bad, held]

theorem claims_slotSelect : Claims.slotSelect := by
  intro f c slotGood copyGood clean
  have noOne : fin? 2 0xFF = none := rfl
  have le (i : Fin 2) : ¬ 1 < i.val := by omega
  refine ⟨?both, ?slot, ?copy, ?invalid⟩
  case both =>
    refine Serves.of_ok slotSelectBody (fun _ _ _ => rfl) ?_
    rintro a h ⟨⟨slot, valid⟩, ⟨copy, decodes⟩, tail, zero⟩
    simp [-Fin.getElem_fin, slotSelectBody, slot, copy, fin?_val, valid, decodes, tail, zero, le]
  case slot =>
    refine Serves.of_ok slotSelectBody (fun _ _ _ => rfl) ?_
    rintro a h ⟨⟨slot, valid⟩, copy, tail, zero⟩
    simp [-Fin.getElem_fin, slotSelectBody, slot, copy, fin?_val, noOne, valid, tail, zero, le]
  case copy =>
    refine Serves.of_ok slotSelectBody (fun _ _ _ => rfl) ?_
    rintro a h ⟨slot, ⟨copy, decodes⟩, tail, zero⟩
    simp [-Fin.getElem_fin, slotSelectBody, slot, copy, fin?_val, noOne, decodes, tail, zero, le]
  case invalid =>
    refine Serves.of_refuse slotSelectBody (fun _ _ _ => rfl) (by decide) ?_
    rintro a h ⟨slot, copy, invalid⟩
    simp [-Fin.getElem_fin, slotSelectBody, slot, copy, fin?_val, invalid, wrongState]

/-! ### The live switch -/

theorem claims_liveQuietPoint : Claims.liveQuietPoint := by
  intro slot t0
  refine Acts.of_meaning quietPoint (fun _ _ => rfl) ?_
  rintro a ⟨armed, accepted, owed, idle⟩
  simp only [quietPoint, armed]
  rw [if_pos (by simp [accepted, owed, idle])]
  rfl

theorem claims_liveArmTimeout : Claims.liveArmTimeout := by
  intro slot t0
  refine Acts.of_meaning armTimeout (fun _ _ => rfl) ?_
  rintro a ⟨armed, late⟩
  simp only [armTimeout, armed, if_pos late]

theorem claims_liveSwitchOpen : Claims.liveSwitchOpen := by
  intro slot t0 v
  refine Acts.of_meaning switchOpens (fun _ _ => rfl) ?_
  rintro a ⟨switching, inTime, version⟩
  simp only [switchOpens, switching, if_pos inTime, version]

theorem claims_liveSwitchRevert : Claims.liveSwitchRevert := by
  intro slot t0
  refine Acts.of_meaning switchReverts (fun _ _ => rfl) ?_
  rintro a ⟨switching, late⟩
  simp only [switchReverts, switching, if_pos late]

/-- Settles O28: each command's meaning on the slots, the record's copies and the switch. -/
theorem firmwareAndLiveUpdate : Obligations.FirmwareAndLiveUpdate := by
  unfold Obligations.FirmwareAndLiveUpdate
  exact ⟨claims_fwStage, claims_fwStageDone, claims_fwActivate, claims_outingWrite, claims_outingWriteDone,
    claims_slotSelect, claims_liveQuietPoint, claims_liveArmTimeout, claims_liveSwitchOpen, claims_liveSwitchRevert⟩

end Sys2Proof.Machine
end

section
/-! SUPPORT. The guardian judges input frames, hands over, repairs and signs (R163 to R198). -/

namespace Sys2Proof.Machine

/-! ### What the guardian's operations leave of a path -/

theorem modPath_path (s : State) (p : Fin 2) (f : GPath → GPath) : (s.modPath p f).guard.paths[p] = f s.guard.paths[p] :=
  vmod_get ..

theorem publish_guard (code : Nat) (stamp : Held) (flags : Nat) (s : State) : (publish code stamp flags s).guard = s.guard :=
  (keeps_publish (msk := 0x2E3000092) code stamp flags (Keeps.refl _ s) rfl).within.guard rfl

theorem putEntry_guard (q : Fin 32) (e : TqEntry) (s : State) : (putEntry q e s).guard = s.guard :=
  (keeps_putEntry (msk := 0x280000092) q e (Keeps.refl _ s) rfl).within.guard rfl

theorem deliver_guard (fn : Fn) (mill : Bool) (addr : Nat) (bytes : List Byte) (s : State) :
    (deliver fn mill addr bytes s).guard = s.guard :=
  (keeps_deliver (msk := 0x280000000) fn mill addr bytes (Keeps.refl _ s) rfl).within.guard rfl

theorem leaveRepair_guard (p : Fin 2) (s : State) : (leaveRepair p s).guard = s.guard := by
  unfold leaveRepair
  split
  · exact post_guard ..
  · rfl

/-- What starts of frames leave of a path and of the guardian. -/
structure PathHeld (p : Fin 2) (s t : State) : Prop where
  elapsed : t.elapsed = s.elapsed
  tsl : t.guard.tsl = s.guard.tsl
  settle : t.guard.settle = s.guard.settle
  powerOn : t.guard.powerOn = s.guard.powerOn
  lossSet : t.guard.lossSet = s.guard.lossSet
  mode : (t.guard.paths[p]).mode = (s.guard.paths[p]).mode
  outs : (t.guard.paths[p]).outs = (s.guard.paths[p]).outs
  stream : (t.guard.paths[p]).stream = (s.guard.paths[p]).stream
  showing : (t.guard.paths[p]).showing = (s.guard.paths[p]).showing
  boundary : (s.guard.paths[p]).boundary = false → (t.guard.paths[p]).boundary = false
  good : (s.guard.paths[p]).good = 0 → (t.guard.paths[p]).good = 0

namespace PathHeld

variable {p : Fin 2} {s t u : State}

theorem refl (p : Fin 2) (s : State) : PathHeld p s s := ⟨rfl, rfl, rfl, rfl, rfl, rfl, rfl, rfl, rfl, id, id⟩

theorem trans (h : PathHeld p s t) (k : PathHeld p t u) : PathHeld p s u where
  elapsed := k.elapsed.trans h.elapsed
  tsl := k.tsl.trans h.tsl
  settle := k.settle.trans h.settle
  powerOn := k.powerOn.trans h.powerOn
  lossSet := k.lossSet.trans h.lossSet
  mode := k.mode.trans h.mode
  outs := k.outs.trans h.outs
  stream := k.stream.trans h.stream
  showing := k.showing.trans h.showing
  boundary b := k.boundary (h.boundary b)
  good b := k.good (h.good b)

/-- A change of the path that leaves these fields. -/
theorem modPath (h : PathHeld p s t) (f : GPath → GPath) (mode : ∀ x, (f x).mode = x.mode) (outs : ∀ x, (f x).outs = x.outs)
    (stream : ∀ x, (f x).stream = x.stream) (showing : ∀ x, (f x).showing = x.showing)
    (boundary : ∀ x, x.boundary = false → (f x).boundary = false) (good : ∀ x, x.good = 0 → (f x).good = 0) :
    PathHeld p s (t.modPath p f) := by
  refine h.trans ⟨rfl, rfl, rfl, rfl, rfl, ?_, ?_, ?_, ?_, ?_, ?_⟩ <;> rw [modPath_path]
  · exact mode _
  · exact outs _
  · exact stream _
  · exact showing _
  · exact boundary _
  · exact good _

theorem emit (h : PathHeld p s t) (o : Output) : PathHeld p s (emit o t) :=
  h.trans ⟨rfl, rfl, rfl, rfl, rfl, rfl, rfl, rfl, rfl, id, id⟩

theorem psrEnds (h : PathHeld p s t) : PathHeld p s (psrEnds p t) := by
  unfold Machine.psrEnds
  split
  · refine emit ?_ _
    exact h.modPath _ (fun _ => rfl) (fun _ => rfl) (fun _ => rfl) (fun _ => rfl) (fun _ b => b) fun _ g => g
  · exact h

theorem takeTiming (h : PathHeld p s t) (m : Msa) : PathHeld p s (takeTiming p m t) := by
  unfold Machine.takeTiming
  split
  · exact h
  · refine emit ?_ _
    exact h.modPath _ (fun _ => rfl) (fun _ => rfl) (fun _ => rfl) (fun _ => rfl) (fun _ b => b) fun _ g => g

theorem takeLatch (h : PathHeld p s t) : PathHeld p s (takeLatch t).2 :=
  h.trans ⟨rfl, rfl, rfl, rfl, rfl, rfl, rfl, rfl, rfl, id, id⟩

theorem inputLatch (h : PathHeld p s t) : PathHeld p s (inputLatch p t).2 := by
  unfold Machine.inputLatch
  dsimp only
  split
  · exact h
  · exact h.takeLatch

/-- A boundary that hands nothing over. -/
theorem frameBoundary (h : PathHeld p s t) (soc : Bool) (checked : (t.guard.paths[p]).mode ≠ .unchecked)
    (own : soc = true → (t.guard.paths[p]).boundary = false) : PathHeld p s (frameBoundary p soc t) := by
  unfold Machine.frameBoundary
  extract_lets t1 x toChecked
  have fresh : PathHeld p t t1 := by
    refine (refl p t).modPath _ (fun x => ?_) (fun x => ?_) (fun x => ?_) (fun x => ?_) (fun x b => ?_) fun x g => ?_
    · dsimp only; split <;> rfl
    · dsimp only; split <;> rfl
    · dsimp only; split <;> rfl
    · dsimp only; split <;> rfl
    · dsimp only; split <;> simp [b]
    · dsimp only; split <;> simp [g]
  have mode : x.mode ≠ .unchecked := fun e => checked (fresh.mode.symm.trans e)
  have no : ¬ (soc = true ∧ x.boundary = true) := fun e => by
    rw [fresh.boundary (own e.1)] at e
    cases e.2
  rw [if_neg (fun e => mode e.1), if_neg (fun e => no ⟨e.1, e.2.1⟩), if_neg (fun e => no ⟨e.1, e.2.1⟩)]
  exact h.trans fresh

end PathHeld

/-! ### Input frames -/

theorem expectedState_held {p : Fin 2} {s t : State} (h : PathHeld p s t) :
    expectedState t.guard (tslView t) = expectedState s.guard (tslView s) := by
  simp only [expectedState, tslView, Guard.tslNow, h.tsl, h.settle, h.powerOn, h.lossSet, h.elapsed]

/-- The loss of an input that the path judges takes it to EARLY. -/
theorem inputLost_early {p : Fin 2} {s : State}
    (mode : (s.guard.paths[p]).mode = .trial ∨ (s.guard.paths[p]).mode = .checked ∨ (s.guard.paths[p]).mode = .repair) :
    let x := (inputLost p s).guard.paths[p]
    x.mode = .early ∧ x.stream = none ∧ x.good = 0 ∧ x.input = none := by
  have lost : (inputLost p s).guard = (enterEarly p s).guard := by
    rw [inputLost, if_pos mode, publish_guard, post_guard]
  dsimp only
  rw [lost, enterEarly, modPath_path]
  exact ⟨rfl, rfl, rfl, rfl⟩

theorem claims_inputFrameStart : Claims.inputFrameStart := by
  intro p m
  refine ⟨fun inside => ?good, fun outside => ?lost⟩
  case good =>
    refine ActsSo.of_meaning (inputStarts p m) (fun _ _ => rfl) ?_
    rintro a ⟨early, shown, none, later⟩
    have opened : (a.guard.paths[p]).opened = true := by rw [GPath.opened, early]; rfl
    have fresh : ((a.guard.paths[p]).stream.any fun o => msaSize o != msaSize m) = false := by rw [none]; rfl
    have ended : PathHeld p a (psrEnds p a) := (PathHeld.refl p a).psrEnds
    unfold inputStarts
    rw [if_neg (by simp [-Fin.getElem_fin, opened]), if_neg (by simp [inside])]
    extract_lets x s1 started bounded timed
    have same : s1 = psrEnds p a := congrArg (psrEnds p) (if_neg (ne_true_of_eq_false fresh))
    have mode : (s1.guard.paths[p]).mode = .early := by rw [same, ended.mode, early]
    have shows : (s1.guard.paths[p]).showing = true := by rw [same, ended.showing, shown]
    have trial : (started.guard.paths[p]).mode = .trial := by
      unfold started
      rw [modPath_path]
      exact if_pos ⟨mode, shows⟩
    have good : (started.guard.paths[p]).good = 0 := by
      unfold started
      rw [modPath_path]
      exact if_pos mode
    have later' : (started.guard.paths[p]).boundary = false := by
      unfold started
      rw [modPath_path]
      exact same ▸ ended.boundary later
    have stream : (started.guard.paths[p]).stream = some m := by
      unfold started
      rw [modPath_path]
    have boundary : PathHeld p started bounded :=
      (PathHeld.refl p started).frameBoundary true (by rw [trial]; exact PathMode.noConfusion) fun _ => later'
    have latched : PathHeld p started (inputLatch p timed).2 := by
      refine PathHeld.inputLatch ?_
      unfold timed
      split
      · exact boundary.takeTiming m
      · exact boundary
    clear_value timed bounded started
    rcases last : inputLatch p timed with ⟨l, s2⟩
    rw [last] at latched
    simp only [modPath_path]
    exact ⟨latched.mode.trans trial, latched.good good, latched.stream.trans stream, rfl⟩
  case lost =>
    refine Acts.of_meaning (inputStarts p m) (fun _ _ => rfl) fun a opened => ?_
    simp only [inputStarts, opened, outside, not_true_eq_false, if_false, Bool.false_eq_true, not_false_eq_true, if_true]

/-- The REPAIR trigger is published with the time of the state that enters REPAIR. -/
theorem repair_published {s : State} {p : Fin 2} {f : GPath → GPath} {e : Nat} (same : s.elapsed = e) :
    ∃ b : State, b.elapsed = e ∧ publish (0x60 + p) (hold s (now s)) 0 (post 0x4001 wide p (s.modPath p f)) =
      publish (0x60 + p) (hold b (now b)) 0 (post 0x4001 wide p b) := ⟨s.modPath p f, same, rfl⟩

theorem claims_inputRegionResult : Claims.inputRegionResult := by
  intro p n pixels f r m look judged
  have size (a : State) (stream : (a.guard.paths[p]).stream = some m) :
      (((a.guard.paths[p]).stream.map Msa.bpc).getD 10) = m.bpc := by rw [stream]; rfl
  refine ⟨?fails, ?passes⟩
  case fails =>
    refine ActsSo.of_meaning (inputResult p n pixels) (fun _ _ => rfl) ?_
    rintro a ⟨⟨input, mode, stream, shown, found, inForce, code⟩, wrong⟩
    have counts : (f.mode != .unchecked && judgedIn f.latch r) = true := by simp [shown, inForce]
    have fails (b : Bool) : lookPasses (codeOfTell f.latch.codes r.telltale) (look (a.guard.paths[p])) b = false := by
      rw [code]
      exact beq_eq_false_iff_ne.mpr wrong
    simp only [look] at fails
    simp only [inputResult, input, found, size a stream, mode, counts, fails, Bool.not_false, Bool.and_true, and_self,
      if_true, publish_guard, post_guard, modPath_path]
    exact ⟨trivial, trivial, repair_published rfl, _, rfl, rfl, rfl⟩
  case passes =>
    refine ActsSo.of_meaning (inputResult p n pixels) (fun _ _ => rfl) ?_
    rintro a ⟨⟨input, mode, stream, shown, found, inForce, code⟩, right⟩
    have counts : (f.mode != .unchecked && judgedIn f.latch r) = true := by simp [shown, inForce]
    have passes (b : Bool) : lookPasses (codeOfTell f.latch.codes r.telltale) (look (a.guard.paths[p])) b = true := by
      rw [code, right]
      rfl
    simp only [look] at passes
    simp only [inputResult, input, found, size a stream, counts, passes, Bool.not_true, Bool.and_false, Bool.false_eq_true,
      false_and, if_true, if_false, modPath_path]
    exact ⟨mode, _, rfl, rfl, rfl⟩

theorem mode_ite {c : Prop} [Decidable c] {s t : State} {p : Fin 2} {m : PathMode} (pos : c → (s.guard.paths[p]).mode = m)
    (neg : ¬ c → (t.guard.paths[p]).mode = m) : ((if c then s else t).guard.paths[p]).mode = m := by
  by_cases h : c
  · simpa only [if_pos h] using pos h
  · simpa only [if_neg h] using neg h

/-- An input frame of a path in TRIAL ends: it counts, or sets the count to 0. -/
theorem inputEnds_trial {a : State} {p : Fin 2} {f : GFrame} (complete symbolErrors : Bool)
    (input : (a.guard.paths[p]).input = some f) (trial : (a.guard.paths[p]).mode = .trial) :
    let sized := (a.guard.paths[p]).wanted p == (a.guard.paths[p]).stream.map msaSize && (a.guard.paths[p]).stream.isSome
    let all := f.regions.all fun r =>
      !judgedIn f.latch r || (f.judgedIn.getLsbD r.region && !f.failedIn.getLsbD r.region)
    let count := if complete && !symbolErrors && sized && all then min 3 ((a.guard.paths[p]).good + 1) else 0
    ∃ x, (inputEnds p complete symbolErrors a).guard.paths[p] = x ∧ x.good = count ∧ x.boundary = (count == 3) ∧
      x.input = none := by
  intro sized all count
  unfold inputEnds
  extract_lets y s1 s2 sized' s3
  rw [show y.input = some f from input]
  dsimp -zeta only
  extract_lets good' count'
  have mode : (s3.guard.paths[p]).mode = .trial := by
    have before : s2.guard = a.guard := by
      unfold s2 s1
      split_ifs <;> simp only [post_guard]
    refine mode_ite (fun _ => ?_) fun _ => ?_
    · rw [post_guard, modPath_path, before]
      exact trial
    · rw [before]
      exact trial
  refine ⟨_, modPath_path .., ?_⟩
  simp only [mode, true_or, if_true, beq_self_eq_true, Bool.true_or, Bool.true_and, and_true]
  exact ⟨rfl, rfl⟩

theorem claims_inputFrameEnd : Claims.inputFrameEnd := by
  intro p f
  refine ⟨?whole, ?partial_⟩
  case whole =>
    refine ActsSo.of_meaning (inputEnds p true false) (fun _ _ => rfl) ?_
    rintro a ⟨input, trial, streaming, size, passed⟩
    have all : (f.regions.all fun r =>
        !judgedIn f.latch r || (f.judgedIn.getLsbD r.region && !f.failedIn.getLsbD r.region)) = true := by
      refine List.all_eq_true.mpr fun r inside => ?_
      cases judged : judgedIn f.latch r
      · rfl
      · obtain ⟨seen, good⟩ := passed r inside judged
        rw [seen, good]
        rfl
    have sized : ((a.guard.paths[p]).wanted p == (a.guard.paths[p]).stream.map msaSize &&
        (a.guard.paths[p]).stream.isSome) = true := by simp [-Fin.getElem_fin, size, streaming]
    obtain ⟨x, path, good, boundary, none⟩ := inputEnds_trial true false input trial
    rw [all, sized] at good boundary
    rw [path]
    refine ⟨good, boundary.trans ?_, none⟩
    rw [Bool.eq_iff_iff, beq_iff_eq, decide_eq_true_eq]
    simp only [Bool.not_false, Bool.and_self, if_true]
    omega
  case partial_ =>
    refine ActsSo.of_meaning (inputEnds p false false) (fun _ _ => rfl) ?_
    rintro a ⟨input, trial⟩
    obtain ⟨x, path, result⟩ := inputEnds_trial false false input trial
    rw [path]
    exact result

theorem claims_inputLoss : Claims.inputLoss := by
  intro p cause
  refine ActsSo.of_meaning (sinkLoses p cause) (fun _ _ => rfl) fun a mode => ?_
  have opened : (a.guard.paths[p]).opened = true := by
    rcases mode with mode | mode | mode <;> (rw [GPath.opened, mode]; rfl)
  unfold sinkLoses
  rw [if_neg (by simp [-Fin.getElem_fin, opened])]
  refine inputLost_early ?_
  cases cause
  · rwa [post_guard]
  · rwa [post_guard]
  · exact mode

theorem claims_inputVerticalTimeout : Claims.inputVerticalTimeout := by
  intro p m
  refine ActsSo.of_meaning (verticalTimeout p) (fun _ _ => rfl) ?_
  rintro a ⟨mode, stream, psr, late⟩
  have waits : (a.guard.paths[p]).awaits = true := by
    simp [-Fin.getElem_fin, GPath.awaits, GPath.opened, mode, stream, psr]
  have period : (((a.guard.paths[p]).stream <|> (a.guard.paths[p]).timing).map msaTicks).getD 0 = msaTicks m := by
    rw [stream]
    rfl
  have over_ : since a (some (a.guard.paths[p]).startAt) (2 * msaTicks m) = true := by
    rw [since_some]
    exact decide_eq_true late
  simp only [verticalTimeout, period, waits, over_, and_self, if_true]
  have lost (b : State) (same : b.guard = (a.modPath p fun x => { x with gapOwed := x.gapOwed || x.passes }).guard) :
      let x := (inputLost p b).guard.paths[p]
      x.mode = .early ∧ x.stream = none := by
    have checked : (b.guard.paths[p]).mode = .checked := by rw [same, modPath_path]; exact mode
    obtain ⟨early, none, -⟩ := inputLost_early (.inr (.inl checked))
    exact ⟨early, none⟩
  refine lost _ ?_
  split
  · exact post_guard ..
  · rfl

/-! ### Output frames -/

/-- A latch holds the expected state of the state that it leaves (R177). -/
theorem takeLatch_codes (s : State) : (takeLatch s).1.codes = expectedState (takeLatch s).2.guard (tslView (takeLatch s).2) ∧
    (takeLatch s).1.at_ = (takeLatch s).2.elapsed := ⟨rfl, rfl⟩

theorem claims_outputFrameStart : Claims.outputFrameStart := by
  intro p f
  refine ⟨?own, ?soc⟩
  case own =>
    refine ActsSo.of_meaning (outputStarts p) (fun _ _ => rfl) ?_
    rintro a ⟨sends, early⟩
    have bounded : PathHeld p a (frameBoundary p false a) :=
      (PathHeld.refl p a).frameBoundary false (by rw [early]; exact PathMode.noConfusion) (fun e => by cases e)
    have open_ : ¬ ((frameBoundary p false a).guard.paths[p]).mode = .checked := by
      rw [bounded.mode, early]
      exact PathMode.noConfusion
    unfold outputStarts
    rw [if_pos sends]
    dsimp -zeta only
    rw [if_neg open_]
    extract_lets x s1 h
    have timed : PathHeld p a s1 := by
      unfold s1
      split
      · exact bounded.takeTiming _
      · exact bounded
    have latched : PathHeld p a (takeLatch s1).2 := timed.takeLatch
    obtain ⟨codes, at_⟩ := takeLatch_codes s1
    rw [expectedState_held latched] at codes
    rw [latched.elapsed] at at_
    simp only [modPath_path]
    refine ⟨_, congrArg (· ++ [_]) latched.outs, rfl, latched.mode.trans early, codes, at_, rfl⟩
  case soc =>
    refine Acts.of_meaning (outputStarts p) (fun _ _ => rfl) ?_
    rintro a ⟨other, passes, input, unstamped⟩
    simp only [outputStarts, other, Bool.false_eq_true, if_false, State.modPath, State.modGuard, vmod, input, Option.map_some,
      passes, unstamped, and_self, if_true]

/-- A record's route leaves the path but for its undelivered verdicts. -/
theorem routeRecord_path (p : Fin 2) (digest : Bool) (place : Nat) (bytes : List Byte) (e : TqEntry) (s : State) :
    ∃ n, (routeRecord p digest place bytes e s).guard.paths[p] = { s.guard.paths[p] with undelivered := n } := by
  unfold routeRecord
  split
  · dsimp only
    split_ifs
    all_goals simp only [putEntry_guard, deliver_guard, modPath_path]
    all_goals exact ⟨_, rfl⟩
  · split
    · exact ⟨_, rfl⟩
    · exact ⟨_, modPath_path ..⟩

theorem carryChime_path (c : Option ChimeResult) (seq : Word) (p : Fin 2) (s : State) :
    (carryChime c seq s).guard.paths[p] = s.guard.paths[p] := by
  cases c <;> rfl

theorem path_alarmed (passes : Bool) (p : Fin 2) (s : State) :
    (if passes then s else publish (0x62 + p) (hold s (now s)) 0 s).guard.paths[p] = s.guard.paths[p] := by
  cases passes
  · exact congrArg (fun g : Guard => g.paths[p]) (publish_guard ..)
  · rfl

/-- The path `y` once one verdict is written on a path `x` with chain value `h`: 56 bytes of body and 8 of the chain before
it (R184, R185). -/
structure VerdictWritten (x : GPath) (h : List Byte) (outFail : List Nat) (y : GPath) : Prop where
  outs : y.outs = x.outs
  nextSeq : y.nextSeq = x.nextSeq + 1
  newestSeq : y.newestSeq = x.nextSeq
  newestFail : y.newestFail = BitVec.ofNat 32 (regionBits outFail)
  gapOwed : y.gapOwed = false
  psr : y.psr = x.psr
  body : ∃ body : List Byte, body.length = 56 ∧ y.chain = sha384 (h ++ body) ∧
    y.verdicts = ((body ++ h.take 8) :: x.verdicts).take 4096

theorem writeVerdict_path (p : Fin 2) (k : VerdictKind) (l : Latch) (sof : Held) (id : Word) (lines : Nat)
    (judged outFail inFail : List Nat) (expected looks : List (Nat × Nat)) (s : State) :
    VerdictWritten s.guard.paths[p] (chainOf s p) outFail
      (writeVerdict p k l sof id lines judged outFail inFail expected looks s).guard.paths[p] := by
  unfold writeVerdict
  extract_lets x chime t flags body h bytes h1 seq s1 s2 status s3
  obtain ⟨n, routed⟩ := routeRecord_path p false seq.toNat bytes
    ⟨kVerdict, p, seq, status, 0, BitVec.ofNat 32 (regionBits outFail)⟩ s2
  have path : (if outFail.isEmpty then s3 else publish (0x62 + p) (hold s3 (now s3)) 0 s3).guard.paths[p] =
      { s2.guard.paths[p] with undelivered := n } :=
    (path_alarmed outFail.isEmpty p s3).trans routed
  rw [path]
  have before : s1.guard.paths[p] = x := carryChime_path chime seq p s
  have length : body.length = 56 := by
    simp only [body, record_length, List.map_cons, List.map_nil, List.sum_cons, List.sum_nil, Nat.reduceAdd]
  clear_value body
  have after := modPath_path s1 p
  rw [before] at after
  rw [show s2.guard.paths[p] = _ from after _]
  exact ⟨rfl, rfl, rfl, rfl, rfl, rfl, ⟨body, length, rfl, rfl⟩⟩

theorem guardReads_guard (p : Fin 2) (ecc : MemErrors) (s : State) : (guardReads p ecc s).2.guard = s.guard ∧
    (guardReads p ecc s).2.start = s.start := by
  have kept : Keeps 0x410000080 s (guardReads p ecc s).2 := keeps_guardReads p ecc (Keeps.refl _ s) rfl
  exact ⟨kept.within.guard rfl, kept.within.start rfl⟩

theorem chainOf_congr {s t : State} {p : Fin 2} (chain : (t.guard.paths[p]).chain = (s.guard.paths[p]).chain)
    (start : t.start = s.start) : chainOf t p = chainOf s p := by
  simp only [chainOf, chain, start]

theorem claims_outputFrameEnd : Claims.outputFrameEnd := by
  intro p seen ecc f rest
  refine ActsSo.of_meaning (outputEnds p seen ecc) (fun _ _ => rfl) fun a outs => ?_
  unfold outputEnds
  extract_lets x
  rw [show x.outs = f :: rest from outs]
  dsimp -zeta only
  extract_lets s1 judging px looks judged fails outFail inFail expected painted passedIn lastOn s2 s3 s4
  have same : ∃ looks check, s4.guard.paths[p] = { a.guard.paths[p] with outs := rest, lastLooks := looks, outCheck := check } ∧
      s4.start = a.start := by
    have sent : s4.guard = s3.guard ∧ s4.start = s3.start := by
      unfold s4
      cases f.sof <;> exact ⟨rfl, rfl⟩
    have logged : s3.guard = s2.guard ∧ s3.start = s2.start := by
      unfold s3
      split_ifs
      · exact ⟨rfl, rfl⟩
      · exact ⟨post_guard .., post_start ..⟩
    obtain ⟨guard, start⟩ := guardReads_guard p ecc s1
    have path := modPath_path (guardReads p ecc s1).2 p fun x =>
      { x with lastLooks := looks, outCheck := { x.outCheck with lastOn := lastOn } }
    have popped := modPath_path a p fun x => { x with outs := rest }
    simp only [guard, popped, s1] at path
    rw [sent.1, logged.1]
    exact ⟨_, _, path, sent.2.trans (logged.2.trans start)⟩
  clear_value s4
  obtain ⟨looks', check, path, start⟩ := same
  have chain : chainOf s4 p = chainOf a p := by
    refine chainOf_congr ?_ start
    rw [path]
  have written (sof : Held) := writeVerdict_path p ⟨f.mode, f.own && judging, painted, false⟩ f.latch sof
    f.regionsId f.lines (judged.map Region.region) outFail inFail expected looks s4
  rw [path, chain] at written
  obtain ⟨outs, nextSeq, newestSeq, -, gapOwed, -, body⟩ := written _
  exact ⟨outs, nextSeq, newestSeq, gapOwed, body⟩

/-! ### Digests -/

theorem claims_digestSigned : Claims.digestSigned := by
  intro p d rest
  refine ActsSo.of_meaning (digestSigns p) (fun _ _ => rfl) ?_
  rintro a ⟨owed, valtyn, door⟩
  unfold digestSigns
  rw [owed]
  dsimp -zeta only
  rw [if_neg (by simp [valtyn, door])]
  extract_lets body bytes s1
  obtain ⟨n, routed⟩ := routeRecord_path p true d.k bytes
    ⟨kVerdict, p, BitVec.ofNat 32 (64 * d.k + 63), stOk, fLast, BitVec.ofNat 32 d.k⟩ s1
  rw [routed, show s1.guard.paths[p] = _ from modPath_path ..]
  exact ⟨rfl, rfl, _, signBytes_length body a, rfl⟩

/-- Settles O30: each command's meaning on the path, past what a frame boundary, a latch and a verdict's route leave. -/
theorem guardianFrames : Obligations.GuardianFrames := by
  unfold Obligations.GuardianFrames
  exact ⟨claims_inputFrameStart, claims_inputRegionResult, claims_inputFrameEnd, claims_outputFrameStart,
    claims_outputFrameEnd, claims_digestSigned, claims_inputLoss, claims_inputVerticalTimeout⟩

end Sys2Proof.Machine
end

section
/-! SUPPORT. Panel self refresh, panel events, and AUX requests of the SoC (R165, R166, R169, R206). -/

namespace Sys2Proof.Machine

theorem modPath_congr {s : State} {p : Fin 2} {f g : GPath → GPath} (same : f s.guard.paths[p] = g s.guard.paths[p]) :
    s.modPath p f = s.modPath p g := by
  have paths : vmod s.guard.paths p f = vmod s.guard.paths p g := congrArg (s.guard.paths.set p.val · p.isLt) same
  exact congrArg (fun v => s.modGuard fun x => { x with paths := v }) paths

/-! ### Panel self refresh -/

theorem claims_psrEntry : Claims.psrEntry := by
  intro p
  refine Acts.of_meaning (psrEnters p) (fun _ _ => rfl) ?_
  rintro a ⟨passes, stream, trained, out⟩
  exact if_pos ⟨passes, stream, trained, ne_true_of_eq_false out⟩

theorem claims_psrExit : Claims.psrExit := by
  intro p
  refine ⟨?inside, ?outside⟩
  case inside =>
    refine Acts.of_meaning (fun a => psrEnds p (a.modPath p fun x => { x with startAt := a.elapsed })) (fun _ _ => rfl)
      fun a psr => ?_
    rw [psrEnds, if_pos (by rw [modPath_path]; exact psr)]
    simp only [State.modPath, State.modGuard, vmod_vmod]
  case outside =>
    refine Acts.of_meaning (fun a => psrEnds p (a.modPath p fun x => { x with startAt := a.elapsed })) (fun _ _ => rfl)
      fun a psr => ?_
    rw [psrEnds, if_neg (by rw [modPath_path]; exact ne_true_of_eq_false psr)]

theorem psrEnds_path (p : Fin 2) (s : State) :
    ∃ gap, (psrEnds p s).guard.paths[p] = { s.guard.paths[p] with psr := false, gapOwed := gap } := by
  unfold psrEnds
  by_cases inside : (s.guard.paths[p]).psr = true
  · rw [if_pos inside]
    exact ⟨_, modPath_path ..⟩
  · rw [if_neg inside]
    exact ⟨_, by rw [← eq_false_of_ne_true inside]⟩

/-- A path that enters EARLY is out of PSR and keeps its next sequence number. -/
theorem enterEarly_path (p : Fin 2) (s : State) :
    let y := (enterEarly p s).guard.paths[p]
    y.mode = .early ∧ y.psr = false ∧ y.nextSeq = (s.guard.paths[p]).nextSeq := by
  intro y
  obtain ⟨gap, ended⟩ := psrEnds_path p (leaveRepair p s)
  rw [leaveRepair_guard] at ended
  have path : y = _ := modPath_path ..
  rw [path, ended]
  exact ⟨rfl, rfl, rfl⟩

theorem claims_psrRepeatPeriod : Claims.psrRepeatPeriod := by
  intro p
  refine ⟨?repeats, ?fails⟩
  case repeats =>
    refine ActsSo.of_meaning (psrRepeats p) (fun _ _ => rfl) ?_
    rintro a ⟨psr, mode⟩
    have passes : (a.guard.paths[p]).passes = true := by rw [GPath.passes, mode]; rfl
    unfold psrRepeats
    rw [if_neg (not_not_intro ⟨psr, passes⟩)]
    dsimp -zeta only
    extract_lets y regions check judged fails s1 expected lines
    have same : y = a.guard.paths[p] := rfl
    have none_ : fails = [] := by simp only [fails, judged, same, mode, bne_self_eq_false, Bool.false_and, List.filter_false,
      List.filter_nil]
    rw [none_, if_pos List.isEmpty_nil]
    clear_value y
    have path : s1.guard.paths[p] = _ := modPath_path ..
    obtain ⟨-, nextSeq, -, newestFail, -, out, -⟩ := writeVerdict_path p ⟨y.mode, false, false, true⟩ (takeLatch a).1
      (hold s1 (now s1)) y.set.id lines (judged.map Region.region) [] [] expected
      (regions.map fun r => (r.region, (y.lastLooks.lookup r.region).getD 0)) s1
    rw [path] at nextSeq out
    exact ⟨nextSeq, newestFail, out.trans psr⟩
  case fails =>
    refine ActsSo.of_meaning (psrRepeats p) (fun _ _ => rfl) ?_
    rintro a ⟨psr, mode, r, inSet, inForce, on, dark⟩
    have passes : (a.guard.paths[p]).passes = true := by rw [GPath.passes, mode]; rfl
    unfold psrRepeats
    rw [if_neg (not_not_intro ⟨psr, passes⟩)]
    dsimp -zeta only
    extract_lets y regions check judged fails s1 expected lines
    have same : y = a.guard.paths[p] := rfl
    have wrong : r ∈ fails := by
      refine List.mem_filter.mpr ⟨List.mem_filter.mpr ⟨inSet, ?_⟩, ?_⟩
      · simp only [same, mode, inForce]
        rfl
      · rw [on]
        rw [same]
        simpa only [lookPasses, Bool.not_eq_true', beq_eq_false_iff_ne] using dark
    rw [if_neg (by simp [List.ne_nil_of_mem wrong]), same, if_neg (by rw [mode]; exact PathMode.noConfusion), post_guard]
    exact enterEarly_path p _

/-! ### Events of the panel -/

theorem claims_panelHpdEvent : Claims.panelHpdEvent := fun p _ =>
  Acts.of_meaning (panelFails p) (fun _ _ => rfl) fun _ met => if_pos met

theorem claims_panelRetrainDone : Claims.panelRetrainDone := by
  intro p l
  refine ⟨?trained, ?held⟩
  case trained =>
    exact Acts.of_meaning (panelRetrainEnds p (some l)) (fun _ _ => rfl) fun a met => if_neg (not_not_intro met)
  case held =>
    refine ActsSo.of_meaning (panelRetrainEnds p none) (fun _ _ => rfl) ?_
    rintro a ⟨retrains, opened⟩
    rw [panelRetrainEnds, if_neg (not_not_intro retrains), holdPath, if_pos opened]
    simp only [post_guard, modPath_path, and_self]

theorem claims_panelAuxTimeout : Claims.panelAuxTimeout := by
  intro p t0
  refine Acts.of_meaning (panelSilent p) (fun _ _ => rfl) ?_
  rintro a ⟨waits, late⟩
  exact if_pos (by rw [waits, since_some]; exact decide_eq_true late)

theorem claims_sinkHpdPulseEnd : Claims.sinkHpdPulseEnd := by
  intro p t0
  refine Acts.of_meaning (hpdRises p) (fun _ _ => rfl) ?_
  rintro a ⟨low, late⟩
  exact if_pos (by rw [low, since_some]; exact decide_eq_true late)

/-! ### AUX requests of the SoC -/

theorem claims_auxDeferExpiry : Claims.auxDeferExpiry := by
  intro p t0
  refine Acts.of_meaning (deferEnds p) (fun _ _ => rfl) ?_
  rintro a ⟨untrained, from_, late⟩
  exact if_pos ⟨ne_true_of_eq_false untrained, by rw [from_, since_some]; exact decide_eq_true late⟩

theorem claims_sinkAuxRequest : Claims.sinkAuxRequest := by
  intro p req
  refine ⟨fun malformed => ?malformed, fun formed psr2 => ?psr2, fun formed psr2 native write low high => ?config,
    fun formed native read addr one => ?rate, fun formed psr2 other => ?defers, fun formed psr2 other answers => ?passed⟩
  case malformed =>
    refine Acts.of_meaning (auxRequest p req) (fun _ _ => rfl) fun a opened => ?_
    rw [auxRequest, if_neg (not_not_intro opened), if_pos malformed]
  case psr2 =>
    refine Acts.of_meaning (auxRequest p req) (fun _ _ => rfl) fun a opened => ?_
    rw [auxRequest, if_neg (not_not_intro opened), if_neg (ne_true_of_eq_false formed), if_pos psr2]
  case config =>
    have own : auxOwn req = true := by
      simp only [auxOwn, native, Bool.not_false, Bool.true_and, Bool.or_eq_true, decide_eq_true_eq]
      omega
    refine Acts.of_meaning (auxRequest p req) (fun _ _ => rfl) fun a opened => ?_
    rw [auxRequest, if_neg (not_not_intro opened), if_neg (ne_true_of_eq_false formed),
      if_neg (ne_true_of_eq_false psr2), if_pos own, if_pos write]
    dsimp only
    rw [if_pos ⟨low, high⟩]
  case rate =>
    have own : auxOwn req = true := by simp [auxOwn, native, addr]
    have psr2 : asksPsr2 req = false := by simp [asksPsr2, read]
    refine Acts.of_meaning (auxRequest p req) (fun _ _ => rfl) fun a opened => ?_
    rw [auxRequest, if_neg (not_not_intro opened), if_neg (ne_true_of_eq_false formed),
      if_neg (ne_true_of_eq_false psr2), if_pos own, if_neg (ne_true_of_eq_false read)]
    simp [auxRead, one, auxByte, addr]
  case defers =>
    refine Acts.of_meaning (auxRequest p req) (fun _ _ => rfl) ?_
    rintro a ⟨opened, untrained, early, first⟩
    rw [auxRequest, if_neg (not_not_intro opened), if_neg (ne_true_of_eq_false formed),
      if_neg (ne_true_of_eq_false psr2), if_neg (ne_true_of_eq_false other), if_pos (ne_true_of_eq_false untrained),
      if_neg (ne_true_of_eq_false early)]
    refine congrArg _ (modPath_congr ?_)
    rw [first]
    rfl
  case passed =>
    refine Acts.of_meaning (auxRequest p req) (fun _ _ => rfl) ?_
    rintro a ⟨opened, trained⟩
    rw [auxRequest, if_neg (not_not_intro opened), if_neg (ne_true_of_eq_false formed),
      if_neg (ne_true_of_eq_false psr2), if_neg (ne_true_of_eq_false other), if_neg (not_not_intro trained)]
    dsimp only
    rw [if_neg (by simpa using answers)]

/-- Settles O31: each claim is its command's meaning in the mode that it names. -/
theorem panelsAndAux : Obligations.PanelsAndAux := by
  unfold Obligations.PanelsAndAux
  exact ⟨claims_psrEntry, claims_psrExit, claims_psrRepeatPeriod, claims_panelHpdEvent, claims_panelRetrainDone,
    claims_sinkAuxRequest, claims_auxDeferExpiry, claims_panelAuxTimeout, claims_sinkHpdPulseEnd⟩

end Sys2Proof.Machine
end

section
/-! SUPPORT. The guardian's configuration, regions, references and verdict route (R177 to R180, R188, R203, R207). -/

namespace Sys2Proof.Machine

theorem claims_guardConfig : Claims.guardConfig := by
  refine fun c => ⟨?waits, ?latched⟩
  case waits =>
    refine Serves.of_ok guardConfigBody (fun _ _ _ => rfl) ?_
    rintro a h ⟨owner, parses, tail⟩
    simp only [guardConfigBody, owner, not_true_eq_false, ne_eq, if_false, parses, tail, Bool.false_eq_true]
  case latched =>
    intro a waits
    exact ⟨congrArg (Option.getD · a.guard.cfg) waits, rfl⟩

theorem claims_guardStatus : Claims.guardStatus := by
  refine Serves.of_ok guardStatusBody (fun _ _ _ => rfl) fun a h tail => ?_
  rw [guardStatusBody, if_neg (ne_true_of_eq_false tail)]
  cases a.meas.compact <;> rfl

/-- A buffer that is not bad sets no reserved bit (R76). -/
theorem bufferBad_reserved {s : State} {fn : Fn} {b : Buffer} (good : bufferBad s fn b = false) : b.reserved = false := by
  simp only [bufferBad, Bool.or_eq_false_iff] at good
  exact good.1.1.1

theorem claims_guardRegionsSet : Claims.guardRegionsSet := by
  intro k f d rs after
  refine Serves.of_ok (guardRegionsBody f) (fun _ _ _ => rfl) ?_
  rintro a h ⟨owner, named, tail, few, some_, zero, buffer, long, read, parses, fits⟩
  unfold guardRegionsBody
  extract_lets p count b
  rw [if_neg (not_not_intro owner), fin?_eq named]
  dsimp only
  rw [if_neg (by simp [tail, Nat.not_lt.mpr few, zero, bufferBad_reserved buffer, buffer, b, p, count, Nat.not_lt.mpr long]), read]
  simp only [p, count, parses, fits, if_true]
  rfl

theorem claims_guardRefsLoad : Claims.guardRefsLoad := by
  intro k f d looks used
  refine ⟨?accepted, ?second⟩
  case accepted =>
    refine Serves.of_accepted (guardRefsBody f) (fun _ _ _ => rfl) ?_
    rintro a h ⟨owner, named, free, tail, zero1, low, some_, last, zero2, buffer, read, parses, fits, area⟩
    unfold guardRefsBody
    extract_lets p first count b
    rw [if_neg (not_not_intro owner), named, if_neg (by rw [free]; exact Bool.noConfusion), fin?_val]
    dsimp only
    have room : areaFits (if k = 0 then placeLooks first looks (refsNext a k) else refsNext a (1 - k))
        (if k = 0 then refsNext a (1 - k) else placeLooks first looks (refsNext a k)) (templatesNext a) a = true := by
      by_cases zero : k = 0
      · simpa only [if_pos zero] using area
      · simpa only [if_neg zero] using area
    rw [if_neg (by simp [tail, zero1, first, count, Nat.not_lt.mpr low, some_, Nat.not_lt.mpr last, zero2, buffer, p, b]),
      read]
    dsimp only
    rw [parses]
    dsimp only
    rw [if_neg (not_not_intro fits), if_neg (not_not_intro room)]
  case second =>
    refine Serves.of_refuse (guardRefsBody f) (fun _ _ _ => rfl) (by decide) ?_
    rintro a h ⟨owner, named, busy⟩
    unfold guardRefsBody
    extract_lets p first count b
    rw [if_neg (not_not_intro owner), named, if_pos busy]
    rfl

theorem claims_guardRefsLoadDone : Claims.guardRefsLoadDone := by
  intro k x blob
  refine ⟨?read, ?failed⟩
  case read =>
    refine Acts.of_meaning (refsLoaded k true) (fun _ _ => rfl) fun a found => ?_
    rw [refsLoaded, found]
    rfl
  case failed =>
    refine Acts.of_meaning (refsLoaded k false) (fun _ _ => rfl) fun a found => ?_
    rw [refsLoaded, found]
    rfl

theorem claims_verdictRoute : Claims.verdictRoute := by
  refine fun k => ⟨?off, fun q => ?on⟩
  case off =>
    refine Serves.of_ok verdictRouteBody (fun _ _ _ => rfl) ?_
    rintro a h ⟨owner, named, none_, tail, zero1, zero2, verdicts, digests⟩
    unfold verdictRouteBody
    extract_lets p vs ds v d
    rw [if_neg (not_not_intro owner), fin?_eq named]
    dsimp only
    rw [if_neg (by simp [tail, zero1, zero2, verdicts, digests, p, v, d]), if_pos none_]
  case on =>
    refine Serves.of_ok verdictRouteBody (fun _ _ _ => rfl) ?_
    rintro a h ⟨owner, named, queue, tail, zero1, zero2, owned, slots, slotsD, verdicts, digests, long, longD⟩
    have other : ¬ fld h.payload 1 1 = 0xFF := by have := q.isLt; omega
    unfold verdictRouteBody
    extract_lets p vs ds v d
    rw [if_neg (not_not_intro owner), fin?_eq named]
    dsimp only
    rw [if_neg (by simp [tail, zero1, zero2, bufferBad_reserved verdicts, bufferBad_reserved digests, p, v, d]), if_neg other,
      fin?_eq queue]
    dsimp only
    rw [if_neg (by simp [-Fin.getElem_fin, owned, slots, slotsD, verdicts, digests, Nat.not_lt.mpr long, Nat.not_lt.mpr longD, p, vs, ds, v, d])]

/-- Settles O32: each hamper's section on the payloads that its claim names. -/
theorem guardianTables : Obligations.GuardianTables := by
  unfold Obligations.GuardianTables
  exact ⟨claims_guardConfig, claims_guardStatus, claims_guardRegionsSet, claims_guardRefsLoad, claims_guardRefsLoadDone,
    claims_verdictRoute⟩

end Sys2Proof.Machine
end

section
/-! SUPPORT. Digests, the verdict chain and chime templates (R186, R187, R200 to R203, R207). -/

namespace Sys2Proof.Machine

theorem claims_digestGet : Claims.digestGet := by
  refine fun k d rest => ⟨?newest, ?numbered⟩
  case newest =>
    refine Serves.of_ok digestGetBody (fun _ _ _ => rfl) ?_
    rintro a h ⟨named, newest, tail, zero, held⟩
    unfold digestGetBody
    extract_lets p n
    rw [fin?_eq named]
    dsimp only
    rw [if_neg (by simp [tail, zero, p]), if_pos newest, held]
    rfl
  case numbered =>
    refine Serves.of_ok digestGetBody (fun _ _ _ => rfl) ?_
    rintro a h ⟨named, numbered, tail, zero, held⟩
    unfold digestGetBody
    extract_lets p n
    rw [fin?_eq named]
    dsimp only
    rw [if_neg (by simp [tail, zero, p]), if_neg numbered, held]

theorem claims_chainRead : Claims.chainRead := by
  intro k
  refine Serves.of_accepted chainReadBody (fun _ _ _ => rfl) ?_
  rintro a h ⟨owner, named, tail, zero, some_, few, buffer, long, first, last⟩
  unfold chainReadBody
  extract_lets p from_ count b
  rw [if_neg (not_not_intro owner), fin?_eq named]
  dsimp only
  rw [if_neg (by simp [-Fin.getElem_fin, -Option.isNone_iff_eq_none, Option.isNone_eq_false_iff.mpr first,
    Option.isNone_eq_false_iff.mpr last, tail, zero, some_, Nat.not_lt.mpr few, buffer, Nat.not_lt.mpr long,
    p, from_, count, b])]

theorem path_of_index : ∀ k : Fin 2, (if k.val = 0 then (0 : Fin 2) else 1) = k := by decide

theorem claims_chainReadDone : Claims.chainReadDone := by
  intro k x records
  refine ⟨?written, ?failed⟩
  case written =>
    refine Acts.of_meaning (chainCopied true) (fun _ _ => rfl) ?_
    rintro a ⟨found, index⟩
    have path : (if x.index = 0 then (0 : Fin 2) else 1) = k := by
      rw [index]
      exact path_of_index k
    have records' : (List.range (fld x.payload 8 4)).filterMap (fun i =>
        (a.guard.paths[if x.index = 0 then (0 : Fin 2) else 1]).heldVerdict (fld x.payload 4 4 + i)) = records a :=
      congrArg (fun j : Fin 2 => (List.range (fld x.payload 8 4)).filterMap fun i =>
        (a.guard.paths[j]).heldVerdict (fld x.payload 4 4 + i)) path
    rw [chainCopied, found]
    dsimp only
    rw [if_pos rfl, ← records']
    exact congrArg (hamperDone 0x0407 · stOk _ _) index
  case failed =>
    refine Acts.of_meaning (chainCopied false) (fun _ _ => rfl) fun a found => ?_
    rw [chainCopied, found]
    rfl

theorem claims_chimeTemplatesLoad : Claims.chimeTemplatesLoad := by
  intro f d l used
  refine Serves.of_accepted (chimeLoadBody f) (fun _ _ _ => rfl) ?_
  rintro a h ⟨owner, tail, low, some_, last, zero, buffer, read, parses, fits⟩
  unfold chimeLoadBody
  extract_lets p first count b
  rw [if_neg (not_not_intro owner), if_neg (by simp [tail, Nat.not_lt.mpr low, some_, Nat.not_lt.mpr last, zero, buffer,
    p, first, count, b]), read]
  dsimp only
  rw [parses]
  dsimp only
  rw [if_pos fits]

theorem claims_chimeTemplatesLoadDone : Claims.chimeTemplatesLoadDone := by
  intro x loaded rest
  refine ⟨?read, ?failed⟩
  case read =>
    refine Acts.of_meaning (templatesLoaded true) (fun _ _ => rfl) fun a found => ?_
    rw [templatesLoaded, found]
    rfl
  case failed =>
    refine Acts.of_meaning (templatesLoaded false) (fun _ _ => rfl) fun a found => ?_
    rw [templatesLoaded, found]
    rfl

theorem claims_chimeStatus : Claims.chimeStatus :=
  Serves.of_ok chimeStatusBody (fun _ _ _ => rfl) fun _ _ tail => if_neg (ne_true_of_eq_false tail)

/-- Settles O33: each command's meaning on the digests, loads and reads that its claim names. -/
theorem digestsAndChimeTemplates : Obligations.DigestsAndChimeTemplates := by
  unfold Obligations.DigestsAndChimeTemplates
  exact ⟨claims_digestGet, claims_chainRead, claims_chainReadDone, claims_chimeTemplatesLoad, claims_chimeTemplatesLoadDone,
    claims_chimeStatus⟩

end Sys2Proof.Machine
end

section
/-! SUPPORT. Camera ports lock, are lost, relock, change gear and drain (R208, R216 to R221, R232). -/

namespace Sys2Proof.Machine

theorem modPort_port (s : State) (p : Fin 8) (f : Port → Port) : (s.modPort p f).ports[p] = f s.ports[p] := vmod_get ..

theorem modPort_congr {s : State} {p : Fin 8} {f g : Port → Port} (same : f s.ports[p] = g s.ports[p]) :
    s.modPort p f = s.modPort p g := by
  have ports : vmod s.ports p f = vmod s.ports p g := congrArg (s.ports.set p.val · p.isLt) same
  exact congrArg (fun v => { s with ports := v }) ports

/-! ### Locks and gears -/

theorem lockHere_keeps {p : Fin 8} {a : State} (reached : (a.ports[p]).cfg.gear ≤ (a.ports[p]).gear ∨ (a.ports[p]).degraded = true) :
    ¬ ((a.ports[p]).gear < (a.ports[p]).cfg.gear ∧ ¬ (a.ports[p]).degraded = true) :=
  fun ⟨low, full⟩ => reached.elim (fun h => absurd low (Nat.not_lt.mpr h)) full

theorem portLocks_meets {p : Fin 8} {a : State} (meets : (a.ports[p]).mode = .acquire ∨
    ((a.ports[p]).mode = .lost ∧ (a.ports[p]).attempts ≠ 0 ∧ a.elapsed ≤ (a.ports[p]).attemptAt + ticksMs 100)) :
    portLocks p a = lockHere p a := by
  rcases meets with mode | ⟨mode, tries, inTime⟩
  · simp only [portLocks, mode]
  · simp only [portLocks, mode, if_pos (And.intro tries inTime)]

theorem claims_portLock : Claims.portLock := by
  intro p meets locked
  refine ⟨?reached, ?below⟩
  case reached =>
    refine Acts.of_meaning (portLocks p) (fun _ _ => rfl) ?_
    rintro a ⟨met, reached⟩
    rw [portLocks_meets met, lockHere, if_neg (lockHere_keeps reached)] <;> rfl
  case below =>
    refine ActsSo.of_meaning (portLocks p) (fun _ _ => rfl) ?_
    rintro a ⟨met, low, full⟩
    rw [portLocks_meets met]
    unfold lockHere
    extract_lets x s1
    rw [if_pos ⟨low, ne_true_of_eq_false full⟩, post_elapsed]
    have port : s1.ports[p] = _ := (congrArg (fun v : Vector Port 8 => v[p]) (post_ports ..)).trans (modPort_port ..)
    have out : s1.out = a.out := post_out ..
    rw [show (emit _ (s1.modPort p _)).ports[p] = _ from modPort_port .., port]
    exact ⟨rfl, rfl, rfl, rfl, congrArg _ out⟩

theorem claims_relockAttempt : Claims.relockAttempt := fun p =>
  Acts.of_meaning (relockStarts p) (fun _ _ => rfl) fun _ met => if_pos met

theorem claims_gearRaiseTimeout : Claims.gearRaiseTimeout := by
  intro p t0
  refine Acts.of_meaning (fun a => if ((raiseFails p a).ports[p]).degraded ∧ ¬ (a.ports[p]).degraded then
      (if (stepRunning (raiseFails p a) 11 p).isSome then withEffects (failStep 11 p 0) (raiseFails p a)
      else if (stepRunning (raiseFails p a) 15 p).isSome then withEffects (failStep 15 p 0) (raiseFails p a)
      else raiseFails p a)
    else raiseFails p a) (fun _ _ => rfl) ?_
  rintro a ⟨mode, raising, late, no11, no15⟩
  have fails : raiseFails p a = post 0x2002 wide p (a.modPort p fun x => { x with raising := none, gear := 1, degraded := true }) :=
    if_pos ⟨mode, by rw [raising, since_some]; exact decide_eq_true late⟩
  have start : (raiseFails p a).start = a.start := by rw [fails, post_start]; rfl
  have none_ (n inst : Nat) (h : stepRunning a n inst = none) : ¬ (stepRunning (raiseFails p a) n inst).isSome = true := by
    rw [show stepRunning (raiseFails p a) n inst = stepRunning a n inst by simp only [stepRunning, stepStatus, start], h]
    exact Bool.noConfusion
  rw [if_neg (none_ 11 p no11), if_neg (none_ 15 p no15), ite_self, fails]

/-! ### What the end of a frame leaves of every context's mode -/

/-- Every context keeps what `g` reads of it. -/
def EachKept {α : Type} (g : Stream → α) (s t : State) : Prop := ∀ n : Fin 32, g t.streams[n] = g s.streams[n]

/-- What the ends of frames leave of a context, but for the intervals that they open. -/
def Stream.standing (st : Stream) : StreamMode × List Edge × Option Gap := (st.mode, st.edges, st.gap)

theorem judge_standing (st : Stream) (q : Word) : (st.judge q).1.standing = st.standing := by
  unfold Stream.judge
  split
  · rfl
  · dsimp only
    split <;> rfl

theorem finishCommit_streams (f : Fn) (s : State) : (finishCommit f s).streams = s.streams :=
  (keeps_finishCommit (msk := 0x2940800B2) f (Keeps.refl _ s) rfl).within.streams rfl

theorem finishCommit_modEpochs (f : Fn) (e : Epochs → Epochs) (s : State) :
    (finishCommit f (s.modEpochs f e)).streams = s.streams := finishCommit_streams ..

namespace EachKept

variable {α : Type} {g : Stream → α} {s t u : State}

theorem refl (s : State) : EachKept g s s := fun _ => rfl

theorem trans (h : EachKept g s t) (k : EachKept g t u) : EachKept g s u := fun n => (k n).trans (h n)

theorem of_streams (h : EachKept g s t) (same : u.streams = t.streams) : EachKept g s u := h.trans fun n => by rw [same]

theorem modStream (h : EachKept g s t) (n : Fin 32) (f : Stream → Stream) (same : ∀ x, g (f x) = g x) :
    EachKept g s (t.modStream n f) := by
  refine h.trans fun m => ?_
  by_cases own : n = m
  · subst own
    exact (congrArg g (vmod_get ..)).trans (same _)
  · exact congrArg g (vmod_other _ _ _ _ own)

theorem foldl {β : Type} {f : State → β → State} (each : ∀ s x, EachKept g s (f s x)) (l : List β) (h : EachKept g s t) :
    EachKept g s (l.foldl f t) := by
  induction l generalizing t with
  | nil => exact h
  | cons x l ih => exact ih (h.trans (each t x))

theorem ite {c : Prop} [Decidable c] (h : EachKept g s t) (k : EachKept g s u) : EachKept g s (if c then t else u) := by
  split
  · exact h
  · exact k

/-- A switch sets a context's settings and its epoch alone. -/
theorem switchStream (h : EachKept g s t) (n : Fin 32)
    (same : ∀ x c e, g { x with cfg := c, nextCfg := none, epoch := e } = g x) : EachKept g s (switchStream n t) := by
  refine h.foldl (fun s f => ?_) _
  split
  · refine ite ?_ (refl s)
    dsimp only
    refine EachKept.trans (t := s.modStream n _) ?_ ((refl _).of_streams (finishCommit_modEpochs ..))
    exact (refl s).modStream n _ fun _ => same ..
  · exact refl s

theorem judge (h : EachKept Stream.standing s t) (n : Fin 32) (q : Word) : EachKept Stream.standing s (judgeSlot n q t).2 := by
  refine h.trans fun m => ?_
  by_cases same : n = m
  · subst same
    exact (congrArg Stream.standing (vmod_get ..)).trans (judge_standing _ _)
  · exact congrArg Stream.standing (vmod_other _ _ _ _ same)

theorem putEntry (h : EachKept Stream.standing s t) (q : Fin 32) (e : TqEntry) : EachKept Stream.standing s (putEntry q e t) :=
  h.of_streams ((keeps_putEntry (msk := 0x280000092) q e (Keeps.refl _ t) rfl).within.streams rfl)

theorem putTag (h : EachKept Stream.standing s t) (n : Fin 32) (x : Staged) : EachKept Stream.standing s (putTag n x t) := by
  unfold Machine.putTag
  extract_lets st r g flags slot payload s1 s2 s3
  have data : EachKept Stream.standing s s1 :=
    ite h (h.of_streams ((keeps_deliverData (msk := 0x2A0000000) _ _ _ _ (Keeps.refl _ t) rfl).within.streams rfl))
  have tagged : EachKept Stream.standing s s2 :=
    data.of_streams ((keeps_deliver (msk := 0x280000000) _ _ _ _ (Keeps.refl _ s1) rfl).within.streams rfl)
  have counted : EachKept Stream.standing s s3 := tagged.modStream n _ fun _ => rfl
  refine ite h ?_
  split
  · exact counted.putEntry _ _
  · exact counted

theorem queueTag (h : EachKept Stream.standing s t) (n : Fin 32) (x : Staged) : EachKept Stream.standing s (queueTag n x t) := by
  unfold Machine.queueTag
  dsimp only
  have owed : EachKept Stream.standing s (if (t.fns[(t.streams[n]).fn]).busMaster then
      t.modStream n fun st => { st with lastEof := x.tag.eof, edgeCount := 0 } else t) :=
    ite (h.modStream n _ fun _ => rfl) h
  exact ite (owed.modStream n _ fun _ => rfl) (owed.putTag n x)

theorem putGapTag (h : EachKept Stream.standing s t) (n : Fin 32) (k : EntryKind) (g : Tag) : EachKept Stream.standing s (putGapTag n k g t) := by
  unfold Machine.putGapTag
  split
  · exact h
  · dsimp only
    split
    · exact (h.judge n _).queueTag n _
    · exact (h.judge n _).modStream n _ fun _ => rfl

theorem post (h : EachKept Stream.standing s t) (code fn unit : Nat) : EachKept Stream.standing s (post code fn unit t) :=
  h.of_streams (post_streams ..)

theorem judgeEmbedded (h : EachKept Stream.standing s t) (n : Fin 32) (f : Frame) : EachKept Stream.standing s (judgeEmbedded n f t) := by
  unfold Machine.judgeEmbedded
  extract_lets st lines s1
  have missing : EachKept Stream.standing s s1 := ite (h.post _ _ _) h
  split
  · exact missing
  · split
    · exact missing
    next v _ =>
      have counted : EachKept Stream.standing s (s1.modStream n fun st => { st with prevCounter := some v }) :=
        missing.modStream n _ fun _ => rfl
      refine ite ?_ counted
      refine post ?_ _ _ _
      exact counted.modStream n _ fun _ => rfl

theorem boundary (h : EachKept Stream.standing s t) (n : Fin 32) : EachKept Stream.standing s (boundary n t) := by
  unfold Machine.boundary
  dsimp only
  have applied := (h.modStream n (fun st =>
      match st.nextRing with
      | some r => { st with
          ring := some r, nextRing := none, head := 0, tail := 0, unreleased := []
          release := st.nextSeq - BitVec.ofNat 32 (st.nextSeq.toNat % r.slots) }
      | none => st) fun x => by split <;> rfl).modStream n (fun st =>
      match st.nextMap with
      | some m => { st with embMap := m, nextMap := none, prevCounter := none }
      | none => st) fun x => by split <;> rfl
  exact ite h (ite applied (applied.switchStream n fun _ _ _ => rfl))

theorem openGap (h : EachKept g s t) (n : Fin 32) (loss : Bool)
    (same : ∀ (x : Stream) gap edges, g { x with gap := gap, edges := edges } = g x) : EachKept g s (openGap n loss t) := by
  refine h.modStream n _ fun x => ?_
  split
  · exact same x _ x.edges
  · exact same x _ _

theorem mode (h : EachKept Stream.standing s t) : EachKept Stream.mode s t := fun n => congrArg Prod.fst (h n)

theorem endFrame (h : EachKept Stream.mode s t) (n : Fin 32) (eof : Held) (aborted : Bool) : EachKept Stream.mode s (endFrame n eof aborted t) := by
  unfold Machine.endFrame
  split
  · exact h
  next f _ =>
    have quiet : EachKept Stream.mode s (t.modStream n fun st => { st with frame := none }) := h.modStream n _ fun _ => rfl
    refine ite (quiet.trans ((refl _).boundary n).mode) ?_
    extract_lets s1 g lines payload s2 s3 s4 s5 s6
    have ended : EachKept Stream.mode s s2 :=
      (h.trans ((refl t).judgeEmbedded n f).mode).modStream n _ fun _ => rfl
    have tagged : EachKept Stream.mode s s3 := by
      refine ite (ended.trans ((refl s2).putGapTag n _ _).mode) ?_
      split
      · exact ended
      · exact ended.trans ((refl s2).queueTag n _).mode
    have pushed : EachKept Stream.mode s s4 :=
      tagged.of_streams ((keeps_hopFrameEnd (msk := 0x281000092) _ _ _ (Keeps.refl _ s3) rfl).within.streams rfl)
    have fed : EachKept Stream.mode s s5 :=
      pushed.of_streams ((keeps_pyrFrameEnd (msk := 0x3A4000092) _ _ _ _ (Keeps.refl _ s4) rfl).within.streams rfl)
    have gap : EachKept Stream.mode s s6 := ite (fed.openGap n false fun _ _ _ => rfl) fed
    exact gap.trans ((refl s6).boundary n).mode

theorem cutFrames (h : EachKept Stream.mode s t) (p : Fin 8) (partner : Bool) : EachKept Stream.mode s (cutFrames p partner t) := by
  refine h.foldl (fun s n => ?_) _
  refine endFrame ?_ n _ _
  refine ite ?_ (refl s)
  exact (refl s).modStream n _ fun _ => rfl

end EachKept

/-! ### Losses and drains -/

theorem cutFrames_ports (p : Fin 8) (partner : Bool) (s : State) : (cutFrames p partner s).ports = s.ports ∧
    (cutFrames p partner s).elapsed = s.elapsed := by
  have kept : Keeps 0x3B50A00B2 s (cutFrames p partner s) := keeps_cutFrames p partner (Keeps.refl _ s) rfl
  exact ⟨kept.within.ports rfl, kept.within.elapsed⟩

/-- The contexts of a port switch, each once its interval is open; ports and time stay. -/
theorem gapsOpen_ports (loss : Bool) (l : List (Fin 32)) (s : State) :
    (l.foldl (fun s n => switchStream n (openGap n loss s)) s).ports = s.ports ∧
      (l.foldl (fun s n => switchStream n (openGap n loss s)) s).elapsed = s.elapsed := by
  have all : Sub 0x2940A00B2 0x2940A00B2 := Sub.refl _
  have kept : Keeps 0x2940A00B2 s (l.foldl (fun s n => switchStream n (openGap n loss s)) s) :=
    Keeps.foldl (fun s n k => keeps_switchStream n (keeps_openGap n loss k (Sub.of all rfl)) all) (Keeps.refl _ s)
  exact ⟨kept.within.ports rfl, kept.within.elapsed⟩

theorem openGap_gap (n m : Fin 32) (loss : Bool) (s : State)
    (gap : m = n ∨ (s.streams[m]).gap.isSome = true) : ((openGap n loss s).streams[m]).gap.isSome = true := by
  by_cases own : n = m
  · subst own
    refine (congrArg (fun x : Stream => x.gap.isSome) (vmod_get ..)).trans ?_
    split <;> rfl
  · refine (congrArg (fun x : Stream => x.gap.isSome) (vmod_other _ _ _ _ own)).trans ?_
    exact gap.resolve_left fun e => own e.symm

/-- The contexts of a port stand in an interval once each has one. -/
theorem gapsOpen_gap (loss : Bool) (m : Fin 32) (l : List (Fin 32)) (s : State)
    (gap : m ∈ l ∨ (s.streams[m]).gap.isSome = true) :
    ((l.foldl (fun s n => switchStream n (openGap n loss s)) s).streams[m]).gap.isSome = true := by
  induction l generalizing s with
  | nil =>
    rw [List.foldl_nil]
    exact gap.resolve_left List.not_mem_nil
  | cons n l ih =>
    have switched : EachKept (fun x => x.gap.isSome) (openGap n loss s) (switchStream n (openGap n loss s)) :=
      (EachKept.refl _).switchStream n fun _ _ _ => rfl
    rw [List.foldl_cons]
    refine ih _ ?_
    rcases gap with inside | gap
    · rcases List.mem_cons.mp inside with own | inside
      · exact .inr ((switched m).trans (openGap_gap n m loss s (.inl own)))
      · exact .inl inside
    · exact .inr ((switched m).trans (openGap_gap n m loss s (.inr gap)))

/-- The drain's end takes the settings that wait (R208, R232). -/
theorem drainEnds_port (p : Fin 8) (loss : Bool) (s : State) :
    let x := s.ports[p]
    let c := x.next.getD x.cfg
    let y := (drainEnds p loss s).ports[p]
    y.cfg = c ∧ y.next = none ∧ y.losses = x.losses ∧ y.fifo = 0 ∧ y.mode = (if c.enable then .acquire else .off) ∧
      (c.enable = true → y.gear = c.gear ∧ y.since = s.elapsed) := by
  intro x c
  unfold drainEnds
  extract_lets _ _ s1 y
  obtain ⟨ports, elapsed⟩ := gapsOpen_ports loss (openOf s p) s
  have same : s1.ports[p] = x := congrArg (fun v : Vector Port 8 => v[p]) ports
  have time : s1.elapsed = s.elapsed := elapsed
  clear_value s1
  by_cases on : c.enable = true
  · have path : y = _ := (congrArg (fun t : State => t.ports[p]) (if_pos on)).trans (modPort_port ..)
    rw [path, same, time, if_pos on]
    exact ⟨rfl, rfl, rfl, rfl, rfl, fun _ => ⟨rfl, rfl⟩⟩
  · have off : (portOff p c s1).ports = _ := (keeps_sweepWaits (msk := 0x2A0000092) (Keeps.refl _ _) rfl).within.ports rfl
    have path : y = _ := (congrArg (fun t : State => t.ports[p]) (if_neg on)).trans
      ((congrArg (fun v : Vector Port 8 => v[p]) off).trans (modPort_port ..))
    rw [path, same, if_neg on]
    exact ⟨rfl, rfl, rfl, rfl, rfl, fun e => absurd e on⟩

/-- The port of a loss in DRAIN, before its drain ends. -/
def drainLost (p : Fin 8) (s : State) : State :=
  (cutFrames p true s).modPort p fun x => { x with losses := x.losses + 1, fifo := 0, bad := [] }

theorem losePort_drain {p : Fin 8} {a : State} (mode : (a.ports[p]).mode = .drain) :
    losePort p a = post 0x2101 wide p (drainEnds p true (drainLost p a)) := by
  simp only [losePort, mode, drainLost]

/-- The port of a loss in LOCKED. -/
def lockLost (p : Fin 8) (s : State) : State :=
  let t := cutFrames p true s
  t.modPort p fun x => { x with
    mode := .lost, since := t.elapsed, losses := x.losses + 1, attempts := 0, fifo := 0, bad := [], raising := none }

theorem losePort_locked {p : Fin 8} {a : State} (mode : (a.ports[p]).mode = .locked) :
    losePort p a = post 0x2101 wide p
      ((openOf (lockLost p a) p).foldl (fun s n => switchStream n (openGap n true s)) (lockLost p a)) := by
  simp only [losePort, mode, lockLost]

theorem claims_portLoss : Claims.portLoss := by
  intro p
  refine ⟨?locked, ?drain⟩
  case locked =>
    refine ActsSo.of_meaning (losePort p) (fun _ _ => rfl) fun a mode => ?_
    rw [losePort_locked mode]
    obtain ⟨ports, elapsed⟩ := cutFrames_ports p true a
    have before : (lockLost p a).ports[p] = _ := modPort_port ..
    have cut : (cutFrames p true a).ports[p] = a.ports[p] := congrArg (fun v : Vector Port 8 => v[p]) ports
    rw [cut, elapsed] at before
    obtain ⟨kept, -⟩ := gapsOpen_ports true (openOf (lockLost p a) p) (lockLost p a)
    have port : (post 0x2101 wide p ((openOf (lockLost p a) p).foldl
        (fun s n => switchStream n (openGap n true s)) (lockLost p a))).ports[p] = (lockLost p a).ports[p] :=
      congrArg (fun v : Vector Port 8 => v[p]) ((post_ports ..).trans kept)
    rw [port, before]
    refine ⟨rfl, rfl, rfl, rfl, rfl, fun k open_ => ?_⟩
    have modes : EachKept Stream.mode a (lockLost p a) := ((EachKept.refl a).cutFrames p true).of_streams rfl
    have still : ((lockLost p a).streams[streamOf p k]).isOpen = true := by
      rw [Stream.isOpen, modes]
      exact open_
    have inside : streamOf p k ∈ openOf (lockLost p a) p :=
      List.mem_filter.mpr ⟨List.mem_map_of_mem (List.mem_finRange k), still⟩
    have gap := gapsOpen_gap true (streamOf p k) (openOf (lockLost p a) p) (lockLost p a) (.inl inside)
    rwa [post_streams]
  case drain =>
    refine ActsSo.of_meaning (losePort p) (fun _ _ => rfl) fun a mode => ?_
    obtain ⟨cfg, -, losses, fifo, mode', -⟩ := drainEnds_port p true (drainLost p a)
    have port : (losePort p a).ports[p] = (drainEnds p true (drainLost p a)).ports[p] := by
      rw [losePort_drain mode]
      exact congrArg (fun v : Vector Port 8 => v[p]) (post_ports ..)
    obtain ⟨ports, -⟩ := cutFrames_ports p true a
    have before : (drainLost p a).ports[p] = _ := modPort_port ..
    have cut : (cutFrames p true a).ports[p] = a.ports[p] := congrArg (fun v : Vector Port 8 => v[p]) ports
    rw [cut] at before
    rw [port, cfg, mode', losses, fifo, before]
    exact ⟨rfl, rfl, rfl, rfl⟩

theorem claims_portDrainEnd : Claims.portDrainEnd := by
  intro p drained settings
  have meaning (a : State) (met : drained a) :
      (if (a.ports[p]).mode = .drain ∧ portBusy a p = false then drainEnds p false a else a) = drainEnds p false a := if_pos met
  refine ⟨?on, ?off⟩
  case on =>
    refine ActsSo.of_meaning (fun a => if (a.ports[p]).mode = .drain ∧ portBusy a p = false then drainEnds p false a else a)
      (fun _ _ => rfl) ?_
    rintro a ⟨met, on⟩
    obtain ⟨cfg, next, -, -, mode, taken⟩ := drainEnds_port p false a
    obtain ⟨gear, since⟩ := taken on
    rw [meaning a met]
    exact ⟨mode.trans (if_pos on), cfg, gear, next, since⟩
  case off =>
    refine ActsSo.of_meaning (fun a => if (a.ports[p]).mode = .drain ∧ portBusy a p = false then drainEnds p false a else a)
      (fun _ _ => rfl) ?_
    rintro a ⟨met, off⟩
    obtain ⟨cfg, next, -, -, mode, -⟩ := drainEnds_port p false a
    rw [meaning a met]
    exact ⟨mode.trans (if_neg (ne_true_of_eq_false off)), cfg, next⟩

theorem claims_drainFrameTimeout : Claims.drainFrameTimeout := fun p =>
  Acts.of_meaning (drainCuts p) (fun _ _ => rfl) fun _ met => if_pos met

/-! ### Restarts -/

theorem claims_portRestartDone : Claims.portRestartDone := by
  intro p
  refine ⟨?locked, ?late⟩
  case locked =>
    refine Acts.of_meaning (fun a => restartMisses p (restartLocked p a)) (fun _ _ => rfl) ?_
    rintro a ⟨mode, task⟩
    have ends : restartLocked p a = hamperDone 0x0203 p stOk 0 (a.modPort p fun x => { x with task := .none }) := by
      rcases mode with mode | mode <;> simp only [restartLocked, mode, task]
    have kept := keeps_hamperDone (msk := 0x2800000B2) 0x0203 p stOk 0
      (Keeps.refl _ (a.modPort p fun x => { x with task := .none })) rfl
    have port : ((hamperDone 0x0203 p stOk 0 (a.modPort p fun x => { x with task := .none })).ports[p]).task = .none := by
      rw [kept.within.ports rfl, modPort_port]
    rw [ends, restartMisses]
    exact if_neg fun ⟨_, waits, _⟩ => by rw [port] at waits; rcases waits with e | e <;> cases e
  case late =>
    refine Acts.of_meaning (fun a => restartMisses p (restartLocked p a)) (fun _ _ => rfl) ?_
    rintro a ⟨mode, task, late⟩
    have waits : restartLocked p a = a := by simp only [restartLocked, mode, task]
    rw [waits, restartMisses, if_pos ⟨.inl mode, .inl task, late⟩]
    refine congrArg (hamperDone 0x0203 p stTimeout 0) (modPort_congr ?_)
    rw [if_neg (by rw [mode]; exact PortMode.noConfusion)]

/-- Settles O34: each command's meaning on the port, past what the ends of frames and the contexts' switches leave. -/
theorem cameraPortsLockAndDrain : Obligations.CameraPortsLockAndDrain := by
  unfold Obligations.CameraPortsLockAndDrain
  exact ⟨claims_portLock, claims_portLoss, claims_relockAttempt, claims_gearRaiseTimeout, claims_portDrainEnd,
    claims_drainFrameTimeout, claims_portRestartDone⟩

end Sys2Proof.Machine
end

section
/-! SUPPORT. The hampers of camera ports and their tunnels (R208, R213, R214, R218, R231, R232, R236, R238). -/

namespace Sys2Proof.Machine

/-! ### Settings of a port -/

theorem portSettings_enable {p : List Byte} {c : PortCfg} (parses : portSettings p = some c) :
    (fld p 1 1 == 0) = !c.enable := by
  unfold portSettings at parses
  extract_lets vc used gear profile at parses
  split at parses
  next valid =>
    obtain ⟨few, -⟩ := valid
    have enable : decide (fld p 1 1 = 1) = c.enable := congrArg PortCfg.enable (Option.some.inj parses)
    rw [← enable, Bool.eq_iff_iff]
    simp only [beq_iff_eq, Bool.not_eq_true', decide_eq_false_iff_not]
    omega
  next => cases parses

/-- The section of PORT_CONFIG on settings that parse. -/
theorem portConfigBody_parses {a : State} {h : Hamper} {p : Fin 8} {c : PortCfg} (named : fld h.payload 0 1 = p.val)
    (parses : portSettings h.payload = some c) (tail : h.tail 24 = false) :
    portConfigBody a h = if rearRefuses a p c || ((a.ports[p]).mode != .off && !c.enable && portHasOpen a p) then wrongState
      else if (a.ports[p]).mode != .off then .ok (stageItem h.fn (.port p c) a) []
      else if c.enable then .ok (acquire p c c.gear (a.modPort p fun x => x.withTask .start)) []
      else .ok (a.modPort p fun x => { x with cfg := c }) [] := by
  simp only [portConfigBody, fin?_eq named, parses, portSettings_enable parses, tail, Bool.false_eq_true, if_false]

theorem claims_portConfig : Claims.portConfig := by
  intro p c asked
  refine ⟨?enable, ?disable, ?stage, ?wrong⟩
  case enable =>
    refine Serves.of_ok portConfigBody (fun _ _ _ => rfl) ?_
    rintro a h ⟨⟨named, parses, tail⟩, on, off, rear⟩
    simp only [portConfigBody_parses named parses tail, rear, off, bne_self_eq_false, Bool.false_and, Bool.or_false,
      Bool.false_eq_true, if_false, on, if_true]
  case disable =>
    refine Serves.of_ok portConfigBody (fun _ _ _ => rfl) ?_
    rintro a h ⟨⟨named, parses, tail⟩, on, off, rear⟩
    simp only [portConfigBody_parses named parses tail, rear, off, bne_self_eq_false, Bool.false_and, Bool.or_false,
      Bool.false_eq_true, if_false, on]
  case stage =>
    refine Serves.of_ok portConfigBody (fun _ _ _ => rfl) ?_
    rintro a h ⟨⟨named, parses, tail⟩, quiet, on, rear⟩
    have up : ((a.ports[p]).mode != .off) = true := bne_iff_ne.mpr on
    have stays : (!c.enable && portHasOpen a p) = false := by
      rcases quiet with e | e <;> simp [e]
    rw [portConfigBody_parses named parses tail, rear, up, Bool.true_and, stays]
    rfl
  case wrong =>
    refine Serves.of_refuse portConfigBody (fun _ _ _ => rfl) (by decide) ?_
    rintro a h ⟨⟨named, parses, tail⟩, ⟨off, busy, on⟩ | rear⟩
    · rw [portConfigBody_parses named parses tail, off, busy, bne_iff_ne.mpr on, if_pos (by simp)]
      rfl
    · rw [portConfigBody_parses named parses tail, rear]
      rfl

theorem claims_portStatus : Claims.portStatus := by
  intro p
  refine Serves.of_ok portStatusBody (fun _ _ _ => rfl) ?_
  rintro a h ⟨named, tail, zero⟩
  rw [portStatusBody, fin?_eq named]
  exact if_neg (by simp [tail, zero])

theorem claims_portRestart : Claims.portRestart := by
  intro p
  refine ⟨?restarts, ?wrong⟩
  case restarts =>
    refine Serves.of_accepted portRestartBody (fun _ _ _ => rfl) ?_
    rintro a h ⟨named, mode, free, tail, zero⟩
    rw [portRestartBody, fin?_eq named]
    dsimp only
    rw [if_neg (fun e => e.elim (fun other => mode.elim other.1 other.2) (ne_true_of_eq_false free)), if_neg (by simp [tail, zero])]
  case wrong =>
    refine Serves.of_refuse portRestartBody (fun _ _ _ => rfl) (by decide) ?_
    rintro a h ⟨named, wrong⟩
    rw [portRestartBody, fin?_eq named]
    exact if_pos wrong

/-! ### Tunnels -/

theorem claims_tunnelI2c : Claims.tunnelI2c := by
  intro k asked register
  refine ⟨?read, ?write⟩
  case read =>
    refine Defers.of_later tunnelI2cBody (fun _ _ _ => rfl) ?_
    rintro a h ⟨⟨named, mode, tail, addr, flags, low, high, zero⟩, read⟩
    unfold tunnelI2cBody
    extract_lets p flags' n addr'
    rw [fin?_eq named]
    dsimp only
    rw [if_neg (not_not_intro mode), if_neg (by simp [p, flags', n, tail, Nat.not_lt.mpr addr, Nat.not_lt.mpr flags,
      Nat.ne_of_gt low, Nat.not_lt.mpr high, zero]), if_pos read]
  case write =>
    refine Defers.of_later tunnelI2cBody (fun _ _ _ => rfl) ?_
    rintro a h ⟨⟨named, mode, tail, addr, flags, low, high, zero⟩, write⟩
    unfold tunnelI2cBody
    extract_lets p flags' n addr'
    rw [fin?_eq named]
    dsimp only
    rw [if_neg (not_not_intro mode), if_neg (by simp [p, flags', n, tail, Nat.not_lt.mpr addr, Nat.not_lt.mpr flags,
      Nat.ne_of_gt low, Nat.not_lt.mpr high, zero]), if_neg (ne_true_of_eq_false write)]

theorem claims_tunnelI2cAnswer : Claims.tunnelI2cAnswer := by
  refine fun p bytes o => ⟨fun result known => ?answered, ?silent⟩
  case answered =>
    refine Acts.of_meaning (i2cAnswered p (.answered result bytes)) (fun _ _ => rfl) ?_
    rintro a ⟨owed, early⟩
    simp only [i2cAnswered, owed, decide_eq_false (Nat.not_le.mpr early), Bool.false_eq_true, if_false,
      if_neg (Nat.not_lt.mpr known)]
  case silent =>
    refine Acts.of_meaning (i2cAnswered p .silent) (fun _ _ => rfl) ?_
    rintro a ⟨owed, late⟩
    simp only [i2cAnswered, owed, decide_eq_true late, if_true]

theorem claims_tunnelGpio : Claims.tunnelGpio := by
  intro k level asked mask free
  refine ⟨?low, ?high, ?read⟩
  case low =>
    refine Serves.of_ok (tunnelGpioBody level) (fun _ _ _ => rfl) ?_
    rintro a h ⟨⟨named, mode, tail, line, zero⟩, action, free⟩
    unfold tunnelGpioBody
    extract_lets p line' action' v g
    rw [fin?_eq named]
    dsimp only
    rw [if_neg (not_not_intro mode), if_neg (by simp [-Fin.getElem_fin, p, line', action', tail, Nat.not_lt.mpr line, zero, action]; exact not_and.mp free)]
    simp only [v, g, action', line', p, action]
    rfl
  case high =>
    refine Serves.of_ok (tunnelGpioBody level) (fun _ _ _ => rfl) ?_
    rintro a h ⟨⟨named, mode, tail, line, zero⟩, action, free⟩
    unfold tunnelGpioBody
    extract_lets p line' action' v g
    rw [fin?_eq named]
    dsimp only
    rw [if_neg (not_not_intro mode), if_neg (by simp [-Fin.getElem_fin, p, line', action', tail, Nat.not_lt.mpr line, zero, action]; exact not_and.mp free)]
    simp only [v, g, action', line', p, action]
    rfl
  case read =>
    refine Serves.of_ok (tunnelGpioBody level) (fun _ _ _ => rfl) ?_
    rintro a h ⟨⟨named, mode, tail, line, zero⟩, action⟩
    unfold tunnelGpioBody
    extract_lets p line' action' v g
    rw [fin?_eq named]
    dsimp only
    rw [if_neg (not_not_intro mode), if_neg (by simp [-Fin.getElem_fin, p, line', action', tail, Nat.not_lt.mpr line, zero, action])]
    simp only [v, g, action', line', p, action, if_true]
    rfl

/-- Settles O36: each hamper's section on the payloads that its claim names. -/
theorem cameraPortHampers : Obligations.CameraPortHampers := by
  unfold Obligations.CameraPortHampers
  exact ⟨claims_portConfig, claims_portStatus, claims_portRestart, claims_tunnelI2c, claims_tunnelI2cAnswer,
    claims_tunnelGpio⟩

end Sys2Proof.Machine
end

section
/-! SUPPORT. The hampers of streams (R209, R224, R229, R231, R233, R238, R303, R310, R383). -/

namespace Sys2Proof.Machine

/-! ### Streams that open and close -/

theorem modStream_stream (s : State) (n : Fin 32) (f : Stream → Stream) : (s.modStream n f).streams[n] = f s.streams[n] :=
  vmod_get ..

theorem admitStream_streams (n : Fin 32) (c : StreamCfg) (s : State) : (admitStream n c s).streams = s.streams :=
  (keeps_admitStream (msk := 0x10000080) n c (Keeps.refl _ s) rfl).within.streams rfl

/-- What STREAM_OPEN sets, but for the interval that it opens. -/
def Stream.opened (st : Stream) : StreamMode × StreamCfg × Fn × Word × Word × Word × Word :=
  (st.mode, st.cfg, st.fn, st.nextSeq, st.lastSeq, st.drops, st.delivered)

theorem openStream_opened (n : Fin 32) (fn : Fn) (c : StreamCfg) (s : State) :
    ((openStream n fn c s).streams[n]).opened = (.opened, c, fn, 0, 0, 0, 0) := by
  unfold openStream
  extract_lets old first _ s1 x s2
  have opens : (s1.streams[n]).opened = (.opened, c, fn, 0, 0, 0, 0) := congrArg Stream.opened (modStream_stream ..)
  have gap : EachKept Stream.opened s1 s2 := by
    refine .ite ?_ (.ite ?_ (.refl s1))
    · exact (EachKept.refl s1).openGap n true fun _ _ _ => rfl
    · exact (EachKept.refl s1).openGap n false fun _ _ _ => rfl
  exact ((gap.of_streams (admitStream_streams n c s2)) n).trans opens

theorem isOpen_iff {st : Stream} : st.isOpen = true ↔ st.mode = .opened := by
  unfold Stream.isOpen
  cases st.mode <;> decide

theorem claims_streamOpen : Claims.streamOpen := by
  refine fun n c => ⟨?opens, fun a fn => ?opened⟩
  case opens =>
    refine Serves.of_ok streamOpenBody (fun _ _ _ => rfl) ?_
    rintro a h ⟨named, owned, cls, closed, on, parses, tail, admitted⟩
    rw [streamOpenBody, fin?_eq named]
    dsimp only
    rw [if_neg (by simp [-Fin.getElem_fin, owned, cls]), if_neg (by simp [-Fin.getElem_fin, closed, on]), parses]
    dsimp only
    rw [if_neg (ne_true_of_eq_false tail), admitted]
  case opened =>
    simpa only [Stream.opened, Prod.mk.injEq] using openStream_opened n fn c a

/-- The waiting frames of a closing stream leave its mode, its edges and its interval. -/
theorem putWaiting_standing (n : Fin 32) (s : State) : EachKept Stream.standing s (putWaiting n s) := by
  unfold putWaiting
  refine EachKept.foldl (fun s x => (EachKept.refl s).putTag n x) _ ?_
  exact (EachKept.refl s).modStream n _ fun _ => rfl

theorem discardStaged_standing (n : Fin 32) (s : State) : EachKept Stream.standing s (discardStaged n s) := by
  refine EachKept.trans (t := State.modStream s n _) ?_ (putWaiting_standing n _)
  exact (EachKept.refl _).modStream n _ fun _ => rfl

theorem hopDisarms_streams (l : List (Fin 16)) (s : State) : (l.foldl (fun s i => hopDisarm i 0 s) s).streams = s.streams := by
  have all : Sub 0x1000000 0x1000000 := Sub.refl _
  have kept : Keeps 0x1000000 s (l.foldl (fun s i => hopDisarm i 0 s) s) :=
    Keeps.foldl (fun s i k => keeps_hopDisarm i 0 k all) (Keeps.refl _ s)
  exact kept.within.streams rfl

/-- An interval of a closing stream ends with its tag. -/
theorem intervalEnds_standing (n : Fin 32) (g : Gap) (s : State) :
    let r := takeSeq n s
    let t := intervalTag r.2 n r.1 g (holdNow r.2)
    ((hopInterval n t (putGapTag n .interval t (r.2.modStream n fun st => { st with gap := none }))).streams[n]).standing =
      ((s.streams[n]).mode, (s.streams[n]).edges, none) := by
  intro r t
  have numbered : EachKept Stream.standing s r.2 := (EachKept.refl s).modStream n _ fun _ => rfl
  have ended : ((r.2.modStream n fun st => { st with gap := none }).streams[n]).standing =
      ((s.streams[n]).mode, (s.streams[n]).edges, none) := by
    rw [modStream_stream]
    exact congrArg (fun x : StreamMode × List Edge × Option Gap => (x.1, x.2.1, (none : Option Gap))) (numbered n)
  have tagged := ((EachKept.refl (r.2.modStream n fun st => { st with gap := none })).putGapTag n .interval t).of_streams
    ((keeps_hopInterval (msk := 0x681000092) n t (Keeps.refl _ _) rfl).within.streams rfl)
  exact (tagged n).trans ended

theorem beginClose_standing (n : Fin 32) (s : State) : ((beginClose n s).streams[n]).standing = (.closing, [], none) := by
  unfold beginClose
  extract_lets s1 s2 s3 s4
  obtain ⟨gap, marked⟩ : ∃ gap, (s1.streams[n]).standing = (.closing, [], gap) :=
    ⟨_, (discardStaged_standing n _ n).trans (congrArg Stream.standing (modStream_stream ..))⟩
  clear_value s1
  have unstaged : EachKept Stream.standing s1 (unstage n s1) := (EachKept.refl s1).of_streams rfl
  have switched : (s2.streams[n]).standing = (.closing, [], gap) :=
    ((unstaged.switchStream n fun _ _ _ => rfl) n).trans marked
  clear_value s2
  have mode : (s2.streams[n]).mode = .closing := congrArg Prod.fst switched
  have edges : (s2.streams[n]).edges = [] := congrArg (fun x : StreamMode × List Edge × Option Gap => x.2.1) switched
  have interval : (s3.streams[n]).standing = (.closing, [], none) := by
    unfold s3
    split
    · rw [← mode, ← edges]
      exact intervalEnds_standing n _ s2
    · rw [← mode, ← edges]
      exact congrArg Stream.standing (modStream_stream ..)
  clear_value s3
  have unbound : EachKept Stream.standing s3 (endBinding n s4) :=
    ((EachKept.refl s3).of_streams (hopDisarms_streams _ s3)).of_streams
      ((keeps_endBinding (msk := 0x2B4000092) n (Keeps.refl _ s4) rfl).within.streams rfl)
  have swept := unbound.of_streams ((keeps_sweepWaits (msk := 0x2A0000092) (Keeps.refl _ (endBinding n s4)) rfl).within.streams rfl)
  exact (swept n).trans interval

theorem claims_streamClose : Claims.streamClose := by
  refine fun n => ⟨?closes, fun a => ?closing⟩
  case closes =>
    refine Serves.of_ok streamCloseBody (fun _ _ _ => rfl) ?_
    rintro a h ⟨named, owned, mode, tail, zero⟩
    rw [streamCloseBody, fin?_eq named]
    dsimp only
    rw [if_neg (not_not_intro owned), if_neg (not_not_intro (isOpen_iff.mpr mode)), if_neg (by simp [tail, zero])]
  case closing =>
    simpa only [Stream.standing, Prod.mk.injEq] using beginClose_standing n a

theorem claims_streamCloseQuiet : Claims.streamCloseQuiet := by
  intro n ended
  refine Acts.of_meaning (closeCompletes n) (fun _ _ => rfl) fun a closing => ?_
  rw [closeCompletes, if_neg (not_not_intro closing)]

/-! ### The other hampers -/

theorem claims_streamStage : Claims.streamStage := by
  intro n c
  refine Serves.of_ok streamStageBody (fun _ _ _ => rfl) ?_
  rintro a h ⟨named, owned, cls, mode, parses, tail⟩
  rw [streamStageBody, fin?_eq named]
  dsimp only
  rw [if_neg (by simp [-Fin.getElem_fin, owned, cls]), if_neg (not_not_intro (isOpen_iff.mpr mode)), parses]
  dsimp only
  rw [if_neg (ne_true_of_eq_false tail)]

theorem claims_streamStatus : Claims.streamStatus := by
  intro n
  refine Serves.of_ok streamStatusBody (fun _ _ _ => rfl) ?_
  rintro a h ⟨named, owned, tail, zero⟩
  rw [streamStatusBody, fin?_eq named]
  dsimp only
  rw [if_neg (not_not_intro owned), if_neg (by simp [tail, zero])]

theorem claims_streamBuffers : Claims.streamBuffers := by
  intro n ring
  refine Serves.of_ok streamBuffersBody (fun _ _ _ => rfl) ?_
  rintro a h ⟨named, owned, mode, tail, zero1, zero2, low, high, power, bytes, bufferA, bufferB, longA, longB⟩
  unfold streamBuffersBody
  extract_lets p slots bytes' x y
  rw [fin?_eq named]
  dsimp only
  rw [if_neg (not_not_intro owned), if_neg (not_not_intro (isOpen_iff.mpr mode)), if_neg (by
    simp [-Fin.getElem_fin, p, slots, bytes', x, y, tail, zero1, zero2, Nat.not_lt.mpr low, Nat.not_lt.mpr high, power,
      Nat.not_lt.mpr bytes, bufferA, bufferB, Nat.not_lt.mpr longA, Nat.not_lt.mpr longB])]

theorem claims_embeddedMapSet : Claims.embeddedMapSet := by
  intro n
  refine Serves.of_accepted embeddedMapBody (fun _ _ _ => rfl) ?_
  rintro a h ⟨named, owned, mode, tail, zero, buffer⟩
  rw [embeddedMapBody, fin?_eq named]
  dsimp only
  rw [if_neg (not_not_intro owned), if_neg (not_not_intro (isOpen_iff.mpr mode)), if_neg (by simp [tail, zero, buffer])]

theorem claims_embeddedMapSetDone : Claims.embeddedMapSetDone := by
  intro n x table d m off owes read
  refine ⟨?good, ?bad, ?failed⟩
  case good =>
    refine Acts.of_meaning (mapLoaded n table) (fun _ _ => rfl) ?_
    rintro a ⟨owed, data, parses⟩
    simp only [mapLoaded, show findAccepted a 0x0220 n = some x from owed,
      show bufferRead a x.fn (bufferAt x.payload 4) table = .data d from data, parses]
  case bad =>
    refine Acts.of_meaning (mapLoaded n table) (fun _ _ => rfl) ?_
    rintro a ⟨owed, data, fails⟩
    simp only [mapLoaded, show findAccepted a 0x0220 n = some x from owed,
      show bufferRead a x.fn (bufferAt x.payload 4) table = .data d from data, fails]
  case failed =>
    refine Acts.of_meaning (mapLoaded n table) (fun _ _ => rfl) ?_
    rintro a ⟨owed, failed⟩
    simp only [mapLoaded, show findAccepted a 0x0220 n = some x from owed,
      show bufferRead a x.fn (bufferAt x.payload 4) table = .failed from failed]

/-- Settles O37: each command's section or meaning; an opened stream keeps what its flow's admission leaves, and a closing
one what its discarded frames and its last interval leave. -/
theorem streamHampers : Obligations.StreamHampers := by
  unfold Obligations.StreamHampers
  exact ⟨claims_streamOpen, claims_streamClose, claims_streamCloseQuiet, claims_streamStage, claims_streamStatus,
    claims_streamBuffers, claims_embeddedMapSet, claims_embeddedMapSetDone⟩

end Sys2Proof.Machine
end

section
/-! SUPPORT. Staged sets, commits and epochs (R310 to R313, R317). -/

namespace Sys2Proof.Machine

theorem fetch_fn {s : State} {r : Req} {h : Hamper} (fetched : fetch s r = some h) : h.fn = r.fn := by
  unfold fetch at fetched
  split at fetched
  · split at fetched
    · rw [← Option.some.inj fetched]
      rfl
    · rw [← Option.some.inj fetched]
      rfl
    · cases fetched
  · cases fetched

theorem reply_epochs (h : Hamper) (status retry : Nat) (payload : List Byte) (fn : Fn) (porch : Bool) (s : State) :
    (reply h status retry payload (taken fn porch s)).epochs = s.epochs :=
  (keeps_reply (msk := 0x200000006) h status retry payload (keeps_taken fn porch (Keeps.refl _ s) rfl) rfl).within.epochs rfl

/-- Settings that a commit gives to its streams leave the time and the other parts of the state. -/
theorem nextCfgs_kept (cfg : Fin 32 → Stream → Option StreamCfg) (l : List (Fin 32)) (s : State) :
    let t := l.foldl (fun s n => s.modStream n fun st => { st with nextCfg := cfg n st }) s
    t.epochs = s.epochs ∧ t.deviceEpoch = s.deviceEpoch ∧ t.elapsed = s.elapsed := by
  induction l generalizing s with
  | nil => exact ⟨rfl, rfl, rfl⟩
  | cons n l ih => exact ih _

/-- The state in which a commit is validated: its epoch, what it reserves, and the settings that its streams will take. -/
def committed (s : State) (h : Hamper) : State :=
  let items := (s.epochs[h.fn]).items
  let s1 := { s with deviceEpoch := s.deviceEpoch + 1 }.modWeir fun w => { w with
    reserved := w.reserved ++ ((epochFlows s items).filterMap (extraOf s.weir)).map fun f => (h.fn, f) }
  let s2 := (epochStreams s items).foldl (fun s n => s.modStream n fun st => { st with
    nextCfg := some ((stagedStream items n).getD (st.nextCfg.getD st.cfg)) }) s1
  s2.modEpochs h.fn fun x => { x with
    items := []
    commit := some ⟨s.deviceEpoch + 1, epochStreams s items, epochStreams s items, 0, portsRestarting s items, s2.elapsed, none⟩ }

theorem committed_epochs (s : State) (h : Hamper) :
    (committed s h).deviceEpoch = s.deviceEpoch + 1 ∧ ((committed s h).epochs[h.fn]).items = [] ∧
      ((committed s h).epochs[h.fn]).commit = some ⟨s.deviceEpoch + 1, epochStreams s (s.epochs[h.fn]).items,
        epochStreams s (s.epochs[h.fn]).items, 0, portsRestarting s (s.epochs[h.fn]).items, s.elapsed, none⟩ := by
  unfold committed
  extract_lets items s1 s2
  obtain ⟨-, number, elapsed⟩ := nextCfgs_kept (fun n st => some ((stagedStream items n).getD (st.nextCfg.getD st.cfg)))
    (epochStreams s items) s1
  have time : s2.elapsed = s.elapsed := elapsed
  have own (f : Epochs → Epochs) : (s2.modEpochs h.fn f).epochs[h.fn] = f s2.epochs[h.fn] := vmod_get ..
  rw [own, time]
  exact ⟨number, rfl, rfl⟩

/-- The section of CONFIG_COMMIT on a staged set that no check refuses. -/
theorem configCommitBody_passes {a : State} {h : Hamper} (some_ : (a.epochs[h.fn]).items ≠ []) (tail : h.tail 8 = false)
    (zero : zeros h.payload 1 7 = true) (legal : commitIllegal a (a.epochs[h.fn]).items = false)
    (admitted : commitRefused a h.fn (a.epochs[h.fn]).items = none) (mode : fld h.payload 0 1 ≤ 1) :
    let items := (a.epochs[h.fn]).items
    let answer (k : Nat) : List Byte := record [(4, k), (2, (epochStreams a items).length),
      (1, (portsRestarting a items).length), (1, 0)]
    configCommitBody a h = if !bit (fld h.payload 0 1) 0 && (a.epochs[h.fn]).commit.isSome then wrongState
      else if bit (fld h.payload 0 1) 0 then .ok a (answer 0)
      else .accepted (accept h h.fn (committed a h)) (answer (a.deviceEpoch + 1).toNat) := by
  intro items answer
  have staged : (a.epochs[h.fn]).items.isEmpty = false := by rw [List.isEmpty_eq_false_iff]; exact some_
  simp only [configCommitBody, staged, Bool.and_false, Bool.false_or, legal, Bool.or_false, tail, zero, Bool.not_true,
    admitted, gt_iff_lt, Nat.not_lt.mpr mode, decide_false, Bool.false_eq_true, if_false]
  rfl

theorem claims_configCommit : Claims.configCommit := by
  unfold Claims.configCommit
  intro passes
  have meaning (s : State) (dt : Nat) (r : Req) : exec (.configCommit dt r) s =
      .next (commitAccepted r.fn (advance dt s) (serve r 0x0010 0 false configCommitBody (advance dt s))) := rfl
  refine ⟨?dry, ?commits⟩
  case dry =>
    intro s dt r h asked met
    obtain ⟨fetched, -⟩ := id asked
    obtain ⟨⟨items, tail, zero, legal, admitted⟩, dry⟩ := met
    have body : configCommitBody (advance dt s) h = .ok (advance dt s) (record [(4, 0),
        (2, (epochStreams (advance dt s) ((advance dt s).epochs[h.fn]).items).length),
        (1, (portsRestarting (advance dt s) ((advance dt s).epochs[h.fn]).items).length), (1, 0)]) := by
      rw [configCommitBody_passes items tail zero legal admitted dry.le, dry]
      simp only [show bit 1 0 = true from rfl, Bool.not_true, Bool.false_and, Bool.false_eq_true, if_false, if_true]
    rw [meaning, serve_asked _ asked, body, commitAccepted, if_neg]
    · rfl
    · rintro ⟨none_, some_⟩
      rw [answer, reply_epochs, Option.isNone_iff_eq_none.mp none_] at some_
      cases some_
  case commits =>
    intro s dt r h asked met live free a items
    obtain ⟨fetched, -⟩ := id asked
    obtain ⟨some_, tail, zero, legal, admitted⟩ := met
    have body : configCommitBody a h = .accepted (accept h h.fn (committed a h)) (record [(4, (a.deviceEpoch + 1).toNat),
        (2, (epochStreams a items).length), (1, (portsRestarting a items).length), (1, 0)]) := by
      rw [configCommitBody_passes some_ tail zero legal admitted (by rw [live]; exact Nat.zero_le 1), live, free]
      rfl
    obtain ⟨number, staged, commit⟩ := committed_epochs a h
    refine ⟨accept h h.fn (committed a h), number, staged, commit, ?_⟩
    have begins : ((advance dt s).epochs[h.fn]).commit.isNone = true ∧ ((answer h (.accepted (accept h h.fn (committed a h))
        (record [(4, (a.deviceEpoch + 1).toNat), (2, (epochStreams a items).length),
          (1, (portsRestarting a items).length), (1, 0)])) (advance dt s)).epochs[h.fn]).commit.isSome = true := by
      refine ⟨by rw [free]; rfl, ?_⟩
      rw [answer, reply_epochs, show (accept h h.fn (committed a h)).epochs = (committed a h).epochs from rfl, commit]
      rfl
    rw [meaning, serve_asked _ asked, body, commitAccepted, ← fetch_fn fetched, if_pos begins]
    rfl

theorem claims_epochSwitchTimer : Claims.epochSwitchTimer := by
  intro n f c
  refine Acts.of_meaning (epochTimer n) (fun _ _ => rfl) ?_
  rintro a ⟨commit, waits, stays, late⟩
  refine if_pos (List.any_eq_true.mpr ⟨f, List.mem_finRange f, ?_⟩)
  rw [commit]
  simp [-Fin.getElem_fin, waits, stays, late]

theorem claims_configDiscard : Claims.configDiscard :=
  Serves.of_ok configDiscardBody (fun _ _ _ => rfl) fun _ _ tail => if_neg (ne_true_of_eq_false tail)

theorem claims_configStatus : Claims.configStatus :=
  Serves.of_ok configStatusBody (fun _ _ _ => rfl) fun _ _ tail => if_neg (ne_true_of_eq_false tail)

/-- Settles O38: a commit's section, then the start of its switches on the state that answered it. -/
theorem epochs : Obligations.Epochs := by
  unfold Obligations.Epochs
  exact ⟨claims_configCommit, claims_epochSwitchTimer, claims_configDiscard, claims_configStatus⟩

end Sys2Proof.Machine
end

section
/-! SUPPORT. The hampers of position channels and emulators (R263 to R268, R272). -/

namespace Sys2Proof.Machine

/-! ### Channels -/

theorem modPos_pos (s : State) (c : Fin 4) (f : Pos → Pos) : (s.modPos c f).pos[c] = f s.pos[c] := vmod_get ..

theorem settleCmps_pos (ch : Fin 4) (until_ : Int) (s : State) : (settleCmps ch until_ s).pos = s.pos :=
  (keeps_settleCmps (msk := 0x6E3C00492) ch until_ (Keeps.refl _ s) rfl).within.pos rfl

theorem presetCmps_pos (ch : Fin 4) (s : State) : (presetCmps ch s).pos = s.pos :=
  (keeps_presetCmps (msk := 0x6E3C00492) ch (Keeps.refl _ s) rfl).within.pos rfl

theorem judgeEmus_pos (ch : Fin 4) (s : State) : (judgeEmus ch s).pos = s.pos :=
  (keeps_judgeEmus (msk := 0x200080) ch (Keeps.refl _ s) rfl).within.pos rfl

theorem cancelPreset_of_none {ch : Fin 4} {s : State} (waiting : (s.pos[ch]).waiting = none) : cancelPreset ch s = s := by
  exact if_neg (by rw [waiting]; exact Bool.noConfusion)

theorem presetNow_pos (ch : Fin 4) (v : Int) (h : Held) (a : State) :
    ((presetNow ch v h a).2.pos[ch]).count = v ∧ ((presetNow ch v h a).2.pos[ch]).presets = (a.pos[ch]).presets + 1 := by
  unfold presetNow
  extract_lets s1 delta s2
  have settled : s1.pos[ch] = a.pos[ch] := congrArg (fun v : Vector Pos 4 => v[ch]) (settleCmps_pos ..)
  have path : (presetCmps ch (judgeEmus ch (post 0x3010 wide ch s2))).pos[ch] = s2.pos[ch] :=
    congrArg (fun v : Vector Pos 4 => v[ch]) ((presetCmps_pos ..).trans ((judgeEmus_pos ..).trans (post_pos ..)))
  have set_ : s2.pos[ch] = _ := modPos_pos ..
  have before : (setPosition ch v h s1).pos[ch] = _ := modPos_pos ..
  dsimp only
  rw [path, set_, before, settled]
  exact ⟨rfl, rfl⟩

/-! ### Configurations -/

/-- The section of POS_CONFIG on a configuration that is good. -/
theorem posConfigBody_asked {a : State} {h : Hamper} {ch : Fin 4} {k : PosKind} (named : fld h.payload 0 1 = ch.val)
    (kind : posKindOf (fld h.payload 1 1) = some k) (tail : h.tail 32 = false) (good : posCfgBad k h.payload = false)
    (waiting : (a.pos[ch]).waiting = none) :
    posConfigBody a h = if posResets a.pos[ch] k (posCfgOf h.payload) ∧ posInUse a ch then wrongState
      else if posResets a.pos[ch] k (posCfgOf h.payload) ∧ (a.pos[ch]).cycle.isSome then .later a ch
      else .ok (applyPosCfg ch k (posCfgOf h.payload) a) [] := by
  simp only [posConfigBody, fin?_eq named, kind, tail, good, Bool.or_self, Bool.false_eq_true, if_false,
    cancelPreset_of_none waiting]

theorem claims_posConfig : Claims.posConfig := by
  refine fun ch k => ⟨?applies, ?waits, ?wrong, fun a c => ⟨?resets, ?keeps⟩⟩
  case applies =>
    refine Serves.of_ok posConfigBody (fun _ _ _ => rfl) ?_
    rintro a h ⟨⟨named, kind, tail, good, waiting⟩, resets⟩
    rw [posConfigBody_asked named kind tail good waiting, if_neg, if_neg]
    · rintro ⟨reset, cycle⟩
      rw [(resets reset).2] at cycle
      cases cycle
    · rintro ⟨reset, used⟩
      exact ne_true_of_eq_false (resets reset).1 used
  case waits =>
    refine Defers.of_later posConfigBody (fun _ _ _ => rfl) ?_
    rintro a h ⟨⟨named, kind, tail, good, waiting⟩, resets, free, cycle⟩
    rw [posConfigBody_asked named kind tail good waiting, if_neg fun e => ne_true_of_eq_false free e.2,
      if_pos ⟨resets, cycle⟩]
  case wrong =>
    refine Serves.of_refuse posConfigBody (fun _ _ _ => rfl) (by decide) ?_
    rintro a h ⟨named, kind, resets, used⟩
    simp only [posConfigBody, fin?_eq named, kind]
    exact if_pos ⟨resets, used⟩
  case resets =>
    intro resets incremental
    have path : (applyPosCfg ch k c a).pos[ch] = _ :=
      (congrArg (fun s : State => s.pos[ch]) (if_neg (not_not_intro resets))).trans (modPos_pos ..)
    rw [path]
    have on : k ≠ .off := by rintro rfl; cases incremental
    have live : k.serial = false := by revert incremental; cases k <;> decide
    refine ⟨rfl, ?_, rfl, rfl⟩
    dsimp only
    rw [if_neg on, live]
    rfl
  case keeps =>
    intro stays
    have path : (applyPosCfg ch k c a).pos[ch] = _ :=
      (congrArg (fun s : State => s.pos[ch]) (if_pos (ne_true_of_eq_false stays))).trans (modPos_pos ..)
    rw [path]
    refine ⟨?_, rfl⟩
    have settled : (settleCmps ch (now a).toNat a).pos[ch] = a.pos[ch] :=
      congrArg (fun v : Vector Pos 4 => v[ch]) (settleCmps_pos ..)
    rw [settled]
    dsimp only
    split <;> rfl

theorem claims_posConfigApply : Claims.posConfigApply := by
  intro ch o k
  refine Acts.of_meaning (posConfigApplies ch) (fun _ _ => rfl) ?_
  rintro a ⟨owed, idle, kind⟩
  simp only [posConfigApplies, owed, idle, Option.isSome_none, Bool.false_eq_true, if_false, kind]

theorem claims_posStatus : Claims.posStatus := by
  refine fun ch => ⟨?status, ?register⟩
  case status =>
    refine Serves.of_ok posStatusBody (fun _ _ _ => rfl) ?_
    rintro a h ⟨named, plain, tail, zero⟩
    unfold posStatusBody
    extract_lets p asks
    have unasked : asks = false := by
      unfold asks p
      rw [plain]
      rfl
    rw [fin?_eq named]
    dsimp only
    rw [unasked, if_neg (by simp), if_neg (by simp [p, tail, zero, plain])]
    rfl
  case register =>
    refine Serves.of_accepted posStatusBody (fun _ _ _ => rfl) ?_
    rintro a h ⟨named, read, addr, tail, zero, kind, registers, free⟩
    unfold posStatusBody
    extract_lets p asks
    have asked : asks = true := by
      unfold asks p
      rw [read]
      rfl
    rw [fin?_eq named]
    dsimp only
    rw [asked, if_neg (by simp [-Fin.getElem_fin, kind, registers, free]),
      if_neg (by simp [p, tail, zero, read, Nat.not_lt.mpr addr]), if_pos rfl]

theorem claims_posPreset : Claims.posPreset := by
  refine fun ch => ⟨?now_, ?index, fun a v h => presetNow_pos ch v h a⟩
  case now_ =>
    refine Serves.of_ok posPresetBody (fun _ _ _ => rfl) ?_
    rintro a h ⟨named, mode, on, tail, zero, low, high, waiting⟩
    unfold posPresetBody
    extract_lets p v
    rw [fin?_eq named]
    dsimp only
    rw [mode, if_neg (by simp [-Fin.getElem_fin, on]), if_neg (by simp [p, v, tail, zero]; omega),
      cancelPreset_of_none waiting, if_neg (by decide)]
  case index =>
    refine Serves.of_accepted posPresetBody (fun _ _ _ => rfl) ?_
    rintro a h ⟨named, mode, kind, tail, zero, low, high, waiting⟩
    unfold posPresetBody
    extract_lets p v
    rw [fin?_eq named]
    dsimp only
    rw [mode, if_neg (by simp [-Fin.getElem_fin, kind]), if_neg (by simp [p, v, tail, zero]; omega),
      cancelPreset_of_none waiting, if_pos rfl]

/-! ### Emulators -/

theorem modEmu_congr {s : State} {m : Fin 2} {f g : Emu → Emu} (same : f s.emu[m] = g s.emu[m]) :
    s.modEmu m f = s.modEmu m g := by
  have emu : vmod s.emu m f = vmod s.emu m g := congrArg (s.emu.set m.val · m.isLt) same
  exact congrArg (fun v => { s with emu := v }) emu

theorem claims_emuConfig : Claims.emuConfig := by
  intro m c asked
  refine ⟨?starts, ?stops⟩
  case starts =>
    refine Serves.of_ok emuConfigBody (fun _ _ _ => rfl) ?_
    rintro a h ⟨⟨named, tail, flags, zero1, n1, n2, d1, d2, zero2⟩, source⟩
    have known : ¬ 3 < fld h.payload 1 1 := by have := c.isLt; omega
    unfold emuConfigBody
    extract_lets p source' n d
    rw [fin?_eq named]
    dsimp only
    rw [if_neg (by simp [p, source', n, d, tail, known, Nat.not_lt.mpr flags, zero1, zero2, Nat.ne_of_gt n1,
      Nat.ne_of_gt d1, Nat.not_lt.mpr n2, Nat.not_lt.mpr d2]), fin?_eq source]
    dsimp only
    refine congrArg (fun t => Verdict.ok (emuOut m t) []) (modEmu_congr ?_)
    rw [show source' = c.val from source]
  case stops =>
    refine Serves.of_ok emuConfigBody (fun _ _ _ => rfl) ?_
    rintro a h ⟨⟨named, tail, flags, zero1, n1, n2, d1, d2, zero2⟩, source⟩
    unfold emuConfigBody
    extract_lets p source' n d
    rw [fin?_eq named]
    dsimp only
    rw [if_neg (by simp [p, source', n, d, tail, source, Nat.not_lt.mpr flags, zero1, zero2, Nat.ne_of_gt n1,
      Nat.ne_of_gt d1, Nat.not_lt.mpr n2, Nat.not_lt.mpr d2]), show source' = 0xFF from source]
    rfl

/-- Settles O41: each hamper's section on the payloads that its claim names, and what a configuration and a preset leave of
the channel. -/
theorem positionHampers : Obligations.PositionHampers := by
  unfold Obligations.PositionHampers
  exact ⟨claims_posConfig, claims_posConfigApply, claims_posStatus, claims_posPreset, claims_emuConfig⟩

end Sys2Proof.Machine
end

section
/-! SUPPORT. Comparators fire, are armed, disarmed and read; outputs and lines take their settings (R273 to R285, R293, R296,
R297). -/

namespace Sys2Proof.Machine

/-! ### Fires -/

theorem modCmp_cmp (s : State) (n : Fin 16) (f : Cmp → Cmp) : (s.modCmp n f).cmps[n] = f s.cmps[n] := vmod_get ..

theorem cmp_of_cmps {s t : State} (n : Fin 16) (same : t.cmps = s.cmps) : t.cmps[n] = s.cmps[n] :=
  congrArg (fun v : Vector Cmp 16 => v[n]) same

/-- A record of an event counts it, and leaves the comparator's mode and target list. -/
theorem cmpRecord_cmp (n : Fin 16) (r : Reach) (merged done : Bool) (s : State) :
    ∃ k t : _, (cmpRecord n false r merged done s).cmps[n] = { s.cmps[n] with
      events := (s.cmps[n]).events + 1, sticky := k, lastPos := r.pos, lastTime := t } := by
  unfold cmpRecord
  extract_lets c fn event points s1
  dsimp -zeta only
  extract_lets flags bytes s2
  have own : s1.cmps[n] = _ := modCmp_cmp ..
  have slot : s2.cmps = s1.cmps := by
    unfold s2
    split
    · rfl
    · exact (keeps_deliver (msk := 0x280000000) _ _ _ _ (Keeps.refl _ s1) rfl).within.cmps rfl
  refine ⟨_, _, (cmp_of_cmps n ?_).trans own⟩
  clear_value s2
  split
  · exact ((keeps_putEntry (msk := 0x280000092) _ _ (Keeps.refl _ s2) rfl).within.cmps rfl).trans slot
  · exact slot

theorem fireTrigs_cmps (mask : TrigCfg → Bool) (late inferred : Bool) (lead : Lead) (s : State) :
    (fireTrigs mask late inferred lead s).2.cmps = s.cmps :=
  (keeps_fireTrigs (msk := 0x400800080) mask late inferred lead (Keeps.refl _ s) rfl).within.cmps rfl

theorem driveXtrs_cmps (mask : XtrCfg → Bool) (s : State) : (driveXtrs mask s).2.cmps = s.cmps :=
  (keeps_driveXtrs (msk := 0x800480) mask (Keeps.refl _ s) rfl).within.cmps rfl

theorem publish_cmps (code : Nat) (stamp : Held) (flags : Nat) (s : State) : (publish code stamp flags s).cmps = s.cmps :=
  (keeps_publish (msk := 0x2E3000092) code stamp flags (Keeps.refl _ s) rfl).within.cmps rfl

theorem slotBump_cmps (kind index : Nat) (s : State) : (slotBump kind index s).cmps = s.cmps :=
  (keeps_slotBump (msk := 0x20000080) kind index (Keeps.refl _ s) rfl).within.cmps rfl

theorem fireTold_cmps (n : Fin 16) (r : Reach) (s : State) :
    (slotBump 4 n (publish n r.at_ (trigFlags r.late r.inferred) s)).cmps = s.cmps :=
  (slotBump_cmps ..).trans (publish_cmps ..)

theorem sweepIf_cmps (done : Bool) (s : State) : (if done = true then sweepWaits s else s).cmps = s.cmps := by
  cases done
  · rfl
  · exact (keeps_sweepWaits (msk := 0x2A0000092) (Keeps.refl _ s) rfl).within.cmps rfl

theorem logIf_cmps (due : Bool) (code fn unit : Nat) (s : State) :
    (if due = true then post code fn unit s else s).cmps = s.cmps := by
  cases due
  · rfl
  · exact post_cmps ..

theorem after_fired (c : Cmp) (r : Reach) (k : BitVec 3) (t : Held) :
    let x : Cmp := { c with events := c.events + 1, sticky := k, lastPos := r.pos, lastTime := t }
    let y := (x.after r c.ends).moved x.value
    y.events = c.events + 1 ∧ y.mode = (if c.ends then .done else .armed) ∧ y.reached = none ∧ y.lastPos = r.pos := by
  cases c.ends
  · by_cases either : c.qual = 2 <;> simp [Cmp.after, Cmp.moved, either]
  · exact ⟨rfl, rfl, rfl, rfl⟩

/-- What becomes of a comparator that has fired. -/
def Cmp.fired_ (c : Cmp) (r : Reach) (k : BitVec 3) (t : Held) : Cmp :=
  ({ c with events := c.events + 1, sticky := k, lastPos := r.pos, lastTime := t }.after r c.ends).moved c.value

theorem cmpFires_fired (n : Fin 16) (r : Reach) (a : State) :
    ∃ k t, (cmpFires n r a).cmps[n] = (a.cmps[n]).fired_ r k t := by
  unfold cmpFires
  extract_lets c done
  dsimp -zeta only
  extract_lets s2 s3 s4 s5 s6 s7
  have driven : s2.cmps = a.cmps := (driveXtrs_cmps ..).trans (fireTrigs_cmps ..)
  obtain ⟨k, t, recorded⟩ := cmpRecord_cmp n r
    (!(fireTrigs (fun t => t.cmpMask.getLsbD n) r.late r.inferred (cmpLead a c r) a).1.isEmpty) done s2
  have marked : s3.cmps[n] = { a.cmps[n] with
      events := (a.cmps[n]).events + 1, sticky := k, lastPos := r.pos, lastTime := t } :=
    recorded.trans (by rw [cmp_of_cmps n driven])
  have fired : s4.cmps[n] = (s3.cmps[n].after r done).moved (s3.cmps[n]).value := modCmp_cmp ..
  rw [marked] at fired
  have logged : s6.cmps = s4.cmps := (logIf_cmps ..).trans (logIf_cmps ..)
  clear_value s6
  have told : s7.cmps = s6.cmps := fireTold_cmps n r s6
  have swept : (if done = true then sweepWaits s7 else s7).cmps = s7.cmps := sweepIf_cmps ..
  exact ⟨k, t, (cmp_of_cmps n (swept.trans (told.trans logged))).trans fired⟩

theorem cmpFires_cmp (n : Fin 16) (r : Reach) (a : State) : ((cmpFires n r a).cmps[n]).events = (a.cmps[n]).events + 1 ∧
    ((cmpFires n r a).cmps[n]).mode = (if (a.cmps[n]).ends then .done else .armed) ∧
    ((cmpFires n r a).cmps[n]).reached = none ∧ ((cmpFires n r a).cmps[n]).lastPos = r.pos := by
  obtain ⟨k, t, fired⟩ := cmpFires_fired n r a
  rw [fired]
  exact after_fired ..

theorem comparatorFires_waits {n : Fin 16} {a : State} (waits : mainRuns a = true ∧ (a.cmps[n]).live = true) :
    comparatorFires n a = match (a.cmps[n]).reached with
      | some r => if (a.cmps[n]).source = 4 then timeFires n r a else cmpFires n r a
      | none =>
        if (a.cmps[n]).source = 4 then
          match timeReach a a.cmps[n] with
          | some r => timeFires n r a
          | none => a
        else (interpStep n (now a).toNat a).2 := if_neg (not_not_intro waits)

theorem claims_comparatorFire : Claims.comparatorFire := by
  intro n r waits
  refine ⟨?marked, ?time, ?judged, cmpFires_cmp n r⟩
  case marked =>
    refine Acts.of_meaning (comparatorFires n) (fun _ _ => rfl) ?_
    rintro a ⟨waits, reached, source⟩
    rw [comparatorFires_waits waits, reached]
    exact if_neg source
  case time =>
    refine Acts.of_meaning (comparatorFires n) (fun _ _ => rfl) ?_
    rintro a ⟨waits, source, reached | ⟨unmarked, reached⟩⟩
    · rw [comparatorFires_waits waits, reached]
      exact if_pos source
    · rw [comparatorFires_waits waits, unmarked]
      dsimp only
      rw [if_pos source, reached]
      rfl
  case judged =>
    refine Acts.of_meaning (comparatorFires n) (fun _ _ => rfl) ?_
    rintro a ⟨waits, source, unmarked⟩
    rw [comparatorFires_waits waits, unmarked]
    exact if_neg source

/-! ### Hampers of comparators -/

section
variable {n : Fin 16} {a : State} (source : (a.cmps[n]).source = 4) (single : (a.cmps[n]).grid = false)
  (up : (a.cmps[n]).qual = 0)
include source single up

/-- A single TIME target in the future waits. -/
theorem writeTarget_ahead (ahead : ((nowNs a).toNat : Int) < (a.cmps[n]).target) :
    ∃ t, writeTarget n a = (⟨0, 0⟩, t) ∧ (t.cmps[n]).mode = .armed := by
  unfold writeTarget
  extract_lets c v stamp pos d vel at_ p reach lattice s1 names onTick next passed
  have value : v = (nowNs a).toNat := by
    unfold v cmpValue
    rw [source]
    rfl
  have tick : onTick = false := by
    unfold onTick
    rw [if_neg (by simp [c, -Fin.getElem_fin, single]), value]
    exact decide_eq_false (ne_of_gt ahead)
  have rising : d = some true := by
    unfold d pos
    rw [source]
    rfl
  have named : names true = true := by
    unfold names c
    rw [up]
    rfl
  rw [tick, if_neg Bool.noConfusion, rising]
  dsimp only
  rw [if_neg (fun e => e.2 named), if_neg]
  · exact ⟨s1, rfl, congrArg Cmp.mode (modCmp_cmp ..)⟩
  · rintro ⟨-, behind⟩
    rw [value] at behind
    simp only [sign, if_true, c] at behind
    omega

/-- A single TIME target in the past fires LATE under policy 1. -/
theorem writeTarget_past (past : (a.cmps[n]).target < ((nowNs a).toNat : Int)) (policy : (a.cmps[n]).policy = 1) :
    ∃ r t, writeTarget n a = (⟨2, 1⟩, cmpFires n r t) ∧ (t.cmps[n]).ends = true := by
  unfold writeTarget
  extract_lets c v stamp pos d vel at_ p reach lattice s1 names onTick next passed
  have value : v = (nowNs a).toNat := by
    unfold v cmpValue
    rw [source]
    rfl
  have tick : onTick = false := by
    unfold onTick
    rw [if_neg (by simp [c, -Fin.getElem_fin, single]), value]
    exact decide_eq_false (ne_of_lt past)
  have rising : d = some true := by
    unfold d pos
    rw [source]
    rfl
  have named : names true = true := by
    unfold names c
    rw [up]
    rfl
  have one : passed = 1 := if_neg (by simp [c, -Fin.getElem_fin, single])
  have behind : (c.target - v) * sign true < 0 := by
    rw [value]
    simp only [sign, if_true, c]
    omega
  rw [tick, if_neg Bool.noConfusion, rising]
  dsimp only
  rw [if_neg (fun e => e.2 named), if_pos ⟨named, behind⟩, show c.policy = 1 from policy, one]
  have cmp : s1.cmps[n] = _ := modCmp_cmp ..
  refine ⟨_, s1, rfl, ?_⟩
  rw [cmp]
  simp only [Cmp.ends, single, Bool.not_false, Bool.true_or]

end

theorem claims_cmpArm : Claims.cmpArm := by
  intro n settled asked armed after
  refine ⟨?arms, ?time⟩
  case arms =>
    refine Serves.of_ok cmpArmBody (fun _ _ _ => rfl) ?_
    rintro a h ⟨named, owned, source, on, good⟩
    have runs : ¬ ((fin? 4 (fld h.payload 1 1)).any fun ch => (a.pos[ch]).mode == .off) = true := by
      cases known : fin? 4 (fld h.payload 1 1) with
      | none => exact Bool.noConfusion
      | some ch => simpa using on ch known
    unfold cmpArmBody
    extract_lets p source'
    rw [fin?_eq named]
    dsimp only
    rw [if_neg (not_not_intro owned), if_neg runs, if_neg (by simp [p, source', Nat.not_lt.mpr source, good])] <;> rfl
  case time =>
    intro a source single up
    refine ⟨fun ahead => ?_, fun past policy => ?_⟩
    · obtain ⟨t, waits, mode⟩ := writeTarget_ahead source single up ahead
      rw [waits]
      exact ⟨rfl, mode⟩
    · obtain ⟨r, t, fires, ends⟩ := writeTarget_past source single up past policy
      obtain ⟨-, mode, -⟩ := cmpFires_cmp n r t
      rw [fires]
      exact ⟨rfl, mode.trans (if_pos ends)⟩

theorem claims_cmpDisarm : Claims.cmpDisarm := by
  intro n
  refine Serves.of_ok cmpDisarmBody (fun _ _ _ => rfl) ?_
  rintro a h ⟨named, owned, tail, zero⟩
  rw [cmpDisarmBody, fin?_eq named]
  dsimp only
  rw [if_neg (not_not_intro owned), if_neg (by simp [tail, zero]), modCmp_cmp]

theorem claims_cmpStatus : Claims.cmpStatus := by
  intro n
  refine Serves.of_ok cmpStatusBody (fun _ _ _ => rfl) ?_
  rintro a h ⟨named, owned, tail, zero⟩
  rw [cmpStatusBody, fin?_eq named]
  dsimp only
  rw [if_neg (not_not_intro owned), if_neg (by simp [tail, zero])]

theorem claims_cmpTargetLoRead : Claims.cmpTargetLoRead := by
  intro fn n
  refine Acts.of_meaning (readRegister fn (0x21208 + 0x20 * n) (readCmpTargetLo n)) (fun _ _ => rfl) ?_
  rintro a ⟨reached, rfl⟩
  rw [readRegister_owned _ reached (windowOwner_comparator a n _ 0x8 (by decide) (by omega))]
  rfl

theorem claims_cmpFireLoRead : Claims.cmpFireLoRead := by
  intro fn n
  refine Acts.of_meaning (readRegister fn (0x21210 + 0x20 * n) (readCmpFireLo n)) (fun _ _ => rfl) ?_
  rintro a ⟨reached, rfl⟩
  rw [readRegister_owned _ reached (windowOwner_comparator a n _ 0x10 (by decide) (by omega))]
  rfl

/-! ### Outputs and lines -/

theorem claims_trigConfig : Claims.trigConfig := by
  refine fun k => ⟨?applies, ?waits⟩
  case applies =>
    refine Serves.of_ok trigConfigBody (fun _ _ _ => rfl) ?_
    rintro a h ⟨named, tail, good, idle⟩
    rw [trigConfigBody, fin?_eq named]
    dsimp only
    rw [if_neg (by simp [tail, good]), if_pos idle]
    rfl
  case waits =>
    refine Defers.of_later trigConfigBody (fun _ _ _ => rfl) ?_
    rintro a h ⟨named, tail, good, busy⟩
    rw [trigConfigBody, fin?_eq named]
    dsimp only
    rw [if_neg (by simp [tail, good]), if_neg busy]

theorem lineBusy_line (s : State) (l : Fin 4) :
    lineBusy s l = ((s.trigs.xtr[l]).driving || (s.trigs.xtr[l]).waiting) := by
  rw [lineBusy, fin?_val]

theorem claims_xtrConfig : Claims.xtrConfig := by
  refine ⟨fun l => ⟨?applies, ?waits⟩, fun e => ?ext⟩
  case applies =>
    refine Serves.of_ok xtrConfigBody (fun _ _ _ => rfl) ?_
    rintro a h ⟨⟨named, tail, good⟩, idle, free⟩
    have known : ¬ 5 < l.val := by omega
    rw [xtrConfigBody, named]
    rw [if_neg (by simp [known, tail, good]), lineBusy_line, idle, free, if_neg (by decide), applyXtrCfg, fin?_val]
  case waits =>
    refine Defers.of_later xtrConfigBody (fun _ _ _ => rfl) ?_
    rintro a h ⟨⟨named, tail, good⟩, busy⟩
    have known : ¬ 5 < l.val := by omega
    rw [xtrConfigBody, named]
    rw [if_neg (by simp [known, tail, good]), lineBusy_line, if_pos (Bool.or_eq_true_iff.mpr busy)]
  case ext =>
    refine Serves.of_ok xtrConfigBody (fun _ _ _ => rfl) ?_
    rintro a h ⟨named, tail, good⟩
    have known : ¬ 5 < 4 + e.val := by omega
    have line : fin? 4 (4 + e.val) = none := dif_neg (by omega)
    rw [xtrConfigBody, named]
    rw [if_neg (by simp [known, tail, good]), lineBusy, line, if_neg Bool.noConfusion, applyXtrCfg, line,
      Nat.add_sub_cancel_left, fin?_val]

theorem claims_outputConfigApply : Claims.outputConfigApply := by
  refine fun o => ⟨fun k => ?trig, fun l => ?line, fun e => ?ext⟩
  case trig =>
    refine Acts.of_meaning (outputConfigApplies (.trig k)) (fun _ _ => rfl) ?_
    rintro a ⟨owed, idle⟩
    rw [outputConfigApplies, owed]
    exact if_pos idle
  case line =>
    refine Acts.of_meaning (outputConfigApplies (.xtr l)) (fun _ _ => rfl) ?_
    rintro a ⟨owed, idle, free⟩
    rw [outputConfigApplies, owed]
    simp only [lineBusy_line, idle, free, Bool.or_self, Bool.false_eq_true, if_false, applyXtrCfg, fin?_val]
  case ext =>
    refine Acts.of_meaning (outputConfigApplies (.ext e)) (fun _ _ => rfl) fun a owed => ?_
    rw [outputConfigApplies, owed]

/-- Settles O42: each command's meaning on the comparator, the output or the line, past what a fire leaves. -/
theorem comparatorsAndOutputSettings : Obligations.ComparatorsAndOutputSettings := by
  unfold Obligations.ComparatorsAndOutputSettings
  exact ⟨claims_comparatorFire, claims_cmpArm, claims_cmpDisarm, claims_cmpStatus, claims_cmpTargetLoRead,
    claims_cmpFireLoRead, claims_trigConfig, claims_xtrConfig, claims_outputConfigApply⟩

end Sys2Proof.Machine
end

section
/-! SUPPORT. Hoppers are bound, armed, triggered, disarmed and copied out (R319 to R343, R433, R472). -/

namespace Sys2Proof.Machine

/-! ### What operations leave of a hopper -/

theorem modHop_hop (s : State) (i : Fin 16) (f : Hop → Hop) : (s.modHop i f).hoppers[i] = f s.hoppers[i] := vmod_get ..

theorem hop_of_hoppers {s t : State} (i : Fin 16) (same : t.hoppers = s.hoppers) : t.hoppers[i] = s.hoppers[i] :=
  congrArg (fun v : Vector Hop 16 => v[i]) same

theorem hopEntry_hoppers (i : Fin 16) (status flags count : Nat) (s : State) :
    (hopEntry i status flags count s).hoppers = s.hoppers :=
  (keeps_hopEntry (msk := 0x280000092) i status flags count (Keeps.refl _ s) rfl).within.hoppers rfl

theorem notice_hoppers (fn : Fn) (code : Nat) (job : Word) (status : Nat) (count : Word) (s : State) :
    (notice fn code job status count s).hoppers = s.hoppers :=
  (keeps_notice (msk := 0x280000092) fn code job status count (Keeps.refl _ s) rfl).within.hoppers rfl

theorem deliver_hoppers (fn : Fn) (mill : Bool) (addr : Nat) (bytes : List Byte) (s : State) :
    (deliver fn mill addr bytes s).hoppers = s.hoppers :=
  (keeps_deliver (msk := 0x280000000) fn mill addr bytes (Keeps.refl _ s) rfl).within.hoppers rfl

theorem deliverData_hoppers (fn : Fn) (mill : Bool) (addr : Nat) (bytes : List Byte) (s : State) :
    (deliverData fn mill addr bytes s).hoppers = s.hoppers :=
  (keeps_deliverData (msk := 0x280000000) fn mill addr bytes (Keeps.refl _ s) rfl).within.hoppers rfl

/-- A hopper keeps what `g` reads of it. -/
def HopKept {α : Type} (g : Hop → α) (i : Fin 16) (s t : State) : Prop := g t.hoppers[i] = g s.hoppers[i]

namespace HopKept

variable {α : Type} {g : Hop → α} {i : Fin 16} {s t u : State}

theorem refl (i : Fin 16) (s : State) : HopKept g i s s := rfl

theorem trans (h : HopKept g i s t) (k : HopKept g i t u) : HopKept g i s u := Eq.trans k h

theorem of_hoppers (h : HopKept g i s t) (same : u.hoppers = t.hoppers) : HopKept g i s u :=
  h.trans (congrArg g (hop_of_hoppers i same))

theorem modHop (h : HopKept g i s t) (f : Hop → Hop) (same : ∀ x, g (f x) = g x) : HopKept g i s (t.modHop i f) :=
  h.trans ((congrArg g (modHop_hop ..)).trans (same _))

theorem ite {c : Prop} [Decidable c] (h : HopKept g i s t) (k : HopKept g i s u) : HopKept g i s (if c then t else u) := by
  split
  · exact h
  · exact k

end HopKept

/-! ### Bindings -/

theorem claims_hopperBind : Claims.hopperBind := by
  intro i
  have meaning (s : State) (dt : Nat) (r : Req) : exec (.hopperBind dt r) s =
      .next (match unbindRefused (advance dt s) r with
        | some i => cancelArm i (serve r 0x0501 0 false hopperBindBody (advance dt s))
        | none => serve r 0x0501 0 false hopperBindBody (advance dt s)) := rfl
  refine ⟨fun n w => ?binds, ?unbinds, ?refused⟩
  case binds =>
    intro flow s dt r h asked met
    obtain ⟨fetched, op, -⟩ := id asked
    obtain ⟨named, stream, owned, ownedS, store, unbound, mode, tail, cls, rank, plain, low, high, queue, zero1, whole,
      some_, most, zero2, stage, free, admitted⟩ := met
    have other : fld h.payload 1 1 ≠ 0xFF := by have := n.isLt; omega
    have accepts : unbindRefused (advance dt s) r = none := by
      rw [unbindRefused, fetched]
      exact if_neg fun e => other e.2
    have body : hopperBindBody (advance dt s) h = .ok (bindHopper i n (flow (advance dt s) h) (fld h.payload 4 2)
        (fld h.payload 8 4) (fld h.payload 6 1) w (advance dt s))
        (record [(8, 0x200000 * (flow (advance dt s) h).units), (4, (flow (advance dt s) h).demand), (4, 0)]) := by
      unfold hopperBindBody
      extract_lets p
      rw [fin?_eq named]
      dsimp only
      rw [if_neg (not_not_intro owned), if_neg other, fin?_eq stream]
      dsimp only
      rw [if_neg (not_not_intro ownedS), if_neg (not_not_intro unbound)]
      unfold hopperBindTo
      extract_lets cls' rank' slots bytes owned' f
      rw [if_neg store, if_neg (not_not_intro (isOpen_iff.mpr mode)), if_neg, stage]
      · dsimp only
        rw [if_neg (Nat.not_lt.mpr free), admitted]
      · simp [p, cls', rank', slots, bytes, owned', tail, Nat.not_lt.mpr rank, Nat.not_lt.mpr low, Nat.not_lt.mpr high,
          queue, zero1, whole, some_, Nat.not_lt.mpr most, zero2]
        exact ⟨cls.resolve_left, plain.resolve_left⟩
    rw [meaning, accepts, serve_asked _ asked, body]
    rfl
  case unbinds =>
    intro s dt r h asked met
    obtain ⟨fetched, op, -⟩ := id asked
    obtain ⟨named, none_, owned, bound, tail, zero1, zero2⟩ := met
    have body : hopperBindBody (advance dt s) h = .ok (hopFree i (advance dt s)) (List.replicate 16 0) := by
      unfold hopperBindBody
      extract_lets p
      rw [fin?_eq named]
      dsimp only
      rw [if_neg (not_not_intro owned), if_pos none_, if_neg (not_not_intro bound), if_neg (by simp [p, tail, zero1, zero2])]
    have accepts : unbindRefused (advance dt s) r = none := by
      simp only [unbindRefused, fetched, judge_asked _ asked, body, ite_self]
    rw [meaning, accepts, serve_asked _ asked, body]
    rfl
  case refused =>
    intro s dt r h asked named none_ owned pending
    obtain ⟨fetched, op, header, -⟩ := id asked
    have body : hopperBindBody (advance dt s) h = wrongState := by
      unfold hopperBindBody
      extract_lets p
      rw [fin?_eq named]
      dsimp only
      rw [if_neg (not_not_intro owned), if_pos none_, if_pos (by rw [pending]; exact HopMode.noConfusion)]
    have refused : unbindRefused (advance dt s) r = some i := by
      simp only [unbindRefused, fetched, judge_asked _ asked, body, wrongState, op, none_, and_self, if_true, named, fin?_val]
      simp [-Fin.getElem_fin, pending]
    rw [meaning, refused, serve_asked _ asked, body]
    simp only [wrongState, answer, logHeader_good header]
    rfl

/-! ### Arms and disarms -/

theorem claims_hopperArm : Claims.hopperArm := by
  intro i n entries
  refine Serves.of_ok hopperArmBody (fun _ _ _ => rfl) ?_
  rintro a h ⟨named, owned, mode, idle, still, stream, tail, flags, pre1, pre2, post, zero1, ring, both, codes, zero2, zero3,
    bufferA, bufferB, frame, auto⟩
  unfold hopperArmBody
  extract_lets p copies pre' post' mask x y total
  rw [fin?_eq named]
  dsimp -zeta only
  extract_lets hop legal cfg
  have may : legal = true := by
    unfold legal hop
    rcases mode with mode | mode | mode <;> rw [mode, idle] <;> rfl
  have settings : cfg = (a.streams[n]).cfg := by
    unfold cfg hop
    rw [stream]
  rw [if_neg (not_not_intro owned), if_neg (by simp [may]), if_neg (by simp [hop, -Fin.getElem_fin, still]), if_neg, if_neg]
  · rintro bad
    cases copied : copies with
    | false => simp [copied] at bad
    | true =>
      obtain ⟨channel, bufferA', bufferB', longA, longB⟩ := auto copied
      change (fld h.payload 2 2 + fld h.payload 4 2) * _ ≤ _ at longA
      change 64 * (fld h.payload 2 2 + fld h.payload 4 2 + 1) ≤ _ at longB
      simp [-Fin.getElem_fin, copied, hop, p, x, y, total, pre', post', channel, bufferA', bufferB'] at bad
      omega
  · have room : (!copies && decide (hop.slots < total)) = false := by
      cases copied : copies with
      | false => exact decide_eq_false (Nat.not_lt.mpr (both copied))
      | true => rfl
    simp [-Fin.getElem_fin, p, pre', post', mask, x, y, hop, room, settings, tail, Nat.not_lt.mpr flags, Nat.ne_of_gt pre1,
      Nat.not_lt.mpr pre2, Nat.not_lt.mpr post, zero1, Nat.not_lt.mpr ring, codes, zero2, zero3, bufferA, bufferB,
      Nat.not_lt.mpr frame]

theorem claims_hopperDisarm : Claims.hopperDisarm := by
  intro i
  refine Serves.of_ok hopperDisarmBody (fun _ _ _ => rfl) ?_
  rintro a h ⟨named, owned, bound, tail, mode, zero⟩
  unfold hopperDisarmBody
  extract_lets p
  rw [fin?_eq named]
  dsimp only
  rw [if_neg (not_not_intro owned), if_neg bound, if_neg (by simp [p, tail, Nat.not_lt.mpr mode, zero])]
  rfl

theorem claims_hopperDisarmQuiet : Claims.hopperDisarmQuiet := by
  refine fun i m => ⟨?quiet, fun a armed => ?armed⟩
  case quiet =>
    refine Acts.of_meaning (fun a => sweepWaits (disarmQuiet i a)) (fun _ _ => rfl) fun a owed => ?_
    rw [disarmQuiet, owed]
  case armed =>
    unfold disarmNow
    extract_lets _ s1 left running s2 s3 s4
    have ended : s1.hoppers[i] = { a.hoppers[i] with mode := .bound, entries := [], partialSeq := none, event := 0 } := by
      unfold s1
      rw [armed]
      exact (hop_of_hoppers i (hopEntry_hoppers ..)).trans (modHop_hop ..)
    have same : s3 = s1 := rfl
    have last : s4.hoppers[i] = _ := modHop_hop ..
    rw [hop_of_hoppers i (notice_hoppers ..), last, same, ended]
    exact ⟨rfl, rfl, rfl, rfl⟩

/-! ### Triggers -/

theorem judgeEnd_kept {α : Type} {g : Hop → α}
    (same : ∀ (x : Hop) m e o b, g { x with mode := m, partialSeq := none, endAt := e, overflow := o, aborted := b } = g x)
    (i : Fin 16) (s : State) : HopKept g i s (judgeEnd i s) := by
  unfold judgeEnd
  refine .ite ?_ (.refl i s)
  unfold captureEnd
  refine HopKept.of_hoppers (t := s.modHop i _) ?_ (hopEntry_hoppers ..)
  exact (HopKept.refl i s).modHop _ fun x => same x _ _ _ _

theorem autoCopy_kept {α : Type} {g : Hop → α} (same : ∀ (x : Hop) c, g { x with copied := 0, copy := c } = g x) (i : Fin 16)
    (s : State) : HopKept g i s (autoCopy i s) := by
  unfold autoCopy
  dsimp only
  split
  · refine .ite ?_ (.refl i s)
    exact (HopKept.refl i s).modHop _ fun x => same x _
  · exact .refl i s

/-- What a trigger sets of a hopper. -/
def Hop.trigger (x : Hop) : Nat × Held × Nat × Nat := (x.code, x.stamp, x.event, x.trigAt)

theorem hopStart_trigger (i : Fin 16) (code : Nat) (stamp : Held) (flags event : Nat) (a : State) :
    ((hopStart i code stamp flags event a).hoppers[i]).trigger = (code, stamp, event, a.elapsed) := by
  unfold hopStart
  extract_lets s1 h
  have started : (s1.hoppers[i]).trigger = (code, stamp, event, a.elapsed) := congrArg Hop.trigger (modHop_hop ..)
  refine Eq.trans ?_ started
  refine HopKept.trans ?_ (judgeEnd_kept (fun _ _ _ _ _ => rfl) i _)
  exact ((HopKept.refl i s1).of_hoppers (hopEntry_hoppers ..)).trans (autoCopy_kept (fun _ _ => rfl) i _)

theorem claims_hopperTrigger : Claims.hopperTrigger := by
  unfold Claims.hopperTrigger
  intro hit
  refine ⟨?starts, fun a i code stamp flags event => ?trigger⟩
  case starts =>
    refine Serves.of_ok hopperTriggerBody (fun _ _ _ => rfl) ?_
    rintro a h ⟨tail, zero, some_, owned⟩
    have mine : ((allFin 16).any fun i => bit (fld h.payload 0 2) i && a.plan.hoppers[i] != h.fn) = false := by
      refine List.any_eq_false.mpr fun i _ => ?_
      simpa [-Fin.getElem_fin] using owned i
    unfold hopperTriggerBody
    extract_lets p mask
    rw [if_neg (by simp [-Fin.getElem_fin, -List.any_eq_true, p, mask, tail, zero, some_, mine])]
  case trigger =>
    simpa only [Hop.trigger, Prod.mk.injEq] using hopStart_trigger i code stamp flags event a

theorem classCode (m : HopMode) (k : Nat) :
    (if (m != .unbound) = true then k else 0) = if m = .unbound then 0 else k := by
  cases m <;> rfl

theorem claims_hopperStatus : Claims.hopperStatus := by
  intro i
  refine Serves.of_ok hopperStatusBody (fun _ _ _ => rfl) ?_
  rintro a h ⟨named, owned, tail, zero⟩
  unfold hopperStatusBody
  rw [fin?_eq named]
  dsimp only
  rw [if_neg (not_not_intro owned), if_neg (by simp [tail, zero]), classCode]

/-! ### Copies -/

theorem claims_hopperCopyout : Claims.hopperCopyout := by
  intro i c entries
  refine Serves.of_ok hopperCopyoutBody (fun _ _ _ => rfl) ?_
  rintro a h ⟨named, owned, channel, chan, free, mode, idle, tail, flags, zero, inside, bufferA, bufferB, longA, longB⟩
  unfold hopperCopyoutBody
  extract_lets p first count x y chan_
  rw [fin?_eq named]
  dsimp -zeta only
  extract_lets hop total n legal
  have may : legal = true := by
    unfold legal hop
    rcases mode with mode | mode | mode <;> rw [mode, idle] <;> rfl
  have own : chan_ = some c := by
    unfold chan_ p
    rw [fin?_eq channel]
    simp [chan]
  rw [if_neg (not_not_intro owned), if_neg (by simp [may, own, free]), if_neg, own]
  change n * _ ≤ _ at longA
  change 64 * (n + 1) ≤ _ at longB
  simp [-Fin.getElem_fin, p, first, count, x, y, hop, total, tail, Nat.not_lt.mpr flags, zero, Nat.not_lt.mpr inside,
    bufferA, bufferB, Nat.not_lt.mpr longA, Nat.not_lt.mpr longB]

/-- The part of a hopper that its copy leaves. -/
def Hop.held (x : Hop) : List HopEntry × HopMode := (x.entries, x.mode)

theorem copyEntry_held (i : Fin 16) (s : State) : HopKept Hop.held i s (copyEntry i s) := by
  unfold copyEntry
  extract_lets h
  split
  · exact .refl i s
  · split
    · exact .refl i s
    · extract_lets pre flags s1 s2 total c1 s3
      have data : HopKept Hop.held i s s1 := .ite (.refl i s) (.of_hoppers (.refl i s) (deliverData_hoppers ..))
      have tag : HopKept Hop.held i s s2 := data.of_hoppers (deliver_hoppers ..)
      have moved : HopKept Hop.held i s s3 := tag.modHop _ fun _ => rfl
      exact .ite (moved.of_hoppers (hopEntry_hoppers ..)) moved

theorem copyEntries_held (i : Fin 16) (k : Nat) (s : State) : HopKept Hop.held i s (copyEntries i k s) := by
  induction k generalizing s with
  | zero => exact .refl i s
  | succ k ih => exact (copyEntry_held i s).trans (ih _)

theorem copyProgress_held (i : Fin 16) (s : State) : HopKept Hop.held i s (copyProgress i s) := by
  unfold copyProgress
  refine .ite (.refl i s) ?_
  exact HopKept.trans (t := (draw s).2) (.of_hoppers (.refl i s) rfl) (copyEntries_held i _ _)

theorem correctedReads_hoppers (st : Store) (n : Nat) (s : State) : (correctedReads st n s).hoppers = s.hoppers :=
  (keeps_correctedReads (msk := 0x10000080) st n (Keeps.refl _ s) rfl).within.hoppers rfl

/-- A failed copy ends, and leaves the hopper's entries (R341). -/
theorem copyFails_hop (i : Fin 16) (s : State) :
    ((copyFails i s).hoppers[i]).copy = none ∧ HopKept Hop.held i s (copyFails i s) := by
  have of_copy {t u : State} (none_ : (t.hoppers[i]).copy = none) (kept : HopKept Hop.held i s t)
      (same : u.hoppers = t.hoppers) : (u.hoppers[i]).copy = none ∧ HopKept Hop.held i s u :=
    ⟨(congrArg Hop.copy (hop_of_hoppers i same)).trans none_, kept.of_hoppers same⟩
  unfold copyFails
  split
  case h_1 idle => exact of_copy idle (.refl i s) rfl
  case h_2 =>
    have moved := copyProgress_held i s
    extract_lets s1 fn
    split
    case h_1 idle => exact of_copy idle moved rfl
    case h_2 c copy =>
      dsimp -zeta only
      extract_lets s2 ecc s3 s4
      have sent : s2.hoppers = s1.hoppers := deliver_hoppers ..
      have counted : s3.hoppers = s1.hoppers := by
        unfold s3
        split
        · exact ((keeps_uncorrectable (msk := 0x10000080) _ _ _ (Keeps.refl _ s2) rfl).within.hoppers rfl).trans sent
        · exact sent
      have halted : s4.hoppers = (s3.modHop i fun h => { h with copy := none }).hoppers :=
        (keeps_haltBorrow (msk := 0x20000080) _ _ _ _ _ (Keeps.refl _ _) rfl).within.hoppers rfl
      have held : HopKept Hop.held i s (s3.modHop i fun h => { h with copy := none }) :=
        (moved.of_hoppers counted).modHop _ fun _ => rfl
      have told : (post 0x6404 fn i (hopEntry i stBusError fFull c.bytes s4)).hoppers = s4.hoppers := by
        rw [post_eq_modLog]
        exact hopEntry_hoppers ..
      exact of_copy (congrArg Hop.copy (modHop_hop ..)) held (told.trans halted)

theorem claims_hopperCopyEnd : Claims.hopperCopyEnd := by
  intro i corrected moved
  refine ⟨?ends, ?fails⟩
  case ends =>
    refine Acts.of_meaning (copyFinishes i false corrected) (fun _ _ => rfl) ?_
    rintro a ⟨copies, may, share, bounded⟩
    unfold copyFinishes
    extract_lets s1 s2
    rw [if_neg (by rw [Option.isNone_iff_eq_none]; exact Option.isSome_iff_ne_none.mp copies), if_neg Bool.noConfusion,
      if_pos may, if_pos ⟨share, bounded⟩]
  case fails =>
    refine ActsSo.of_meaning (copyFinishes i true corrected) (fun _ _ => rfl) fun a copies => ?_
    unfold copyFinishes
    extract_lets s1 s2
    rw [if_neg (by rw [Option.isNone_iff_eq_none]; exact Option.isSome_iff_ne_none.mp copies), if_pos rfl]
    obtain ⟨ended, held⟩ := copyFails_hop i (correctedReads .lpddr corrected a)
    have kept := ((HopKept.refl i a).of_hoppers (correctedReads_hoppers .lpddr corrected a)).trans held
    exact ⟨ended, congrArg Prod.fst kept, congrArg Prod.snd kept⟩

theorem claims_hopIgnoredRead : Claims.hopIgnoredRead := by
  intro fn i
  refine Acts.of_meaning (readRegister fn (0x8408 + 0x20 * i) (readIgnored i)) (fun _ _ => rfl) ?_
  rintro a ⟨reached, rfl⟩
  rw [readRegister_owned _ reached (windowOwner_hopper a i _ 0x8 (by decide) (by omega))]
  rfl

/-- Settles O45: each command's meaning on the hopper, past what its entries, its copy and its notices leave. -/
theorem hoppers : Obligations.Hoppers := by
  unfold Obligations.Hoppers
  exact ⟨claims_hopperBind, claims_hopperArm, claims_hopperDisarm, claims_hopperDisarmQuiet, claims_hopperTrigger,
    claims_hopperStatus, claims_hopperCopyout, claims_hopperCopyEnd, claims_hopIgnoredRead⟩

end Sys2Proof.Machine
end

section
/-! SUPPORT. Millrace channels are loaded, opened, mapped and fall quiet (R405, R421, R426, R429, R437). -/

namespace Sys2Proof.Machine

/-! ### One channel of the bank -/

theorem modChan_chan (s : State) (c : Fin 64) (g : Chan → Chan) : (s.modChan c g).chans[c] = g s.chans[c] := vmod_get ..

theorem modChan_chan_other (s : State) {c d : Fin 64} (g : Chan → Chan) (other : d ≠ c) :
    (s.modChan c g).chans[d] = s.chans[d] := vmod_other _ _ _ _ other.symm

theorem modChan_modChan (s : State) (c : Fin 64) (f g : Chan → Chan) :
    (s.modChan c f).modChan c g = s.modChan c fun x => g (f x) := by
  simp only [State.modChan, vmod_vmod]

/-! ### Programmes -/

/-- A programme of a count that its buffer can hold is read and checked (R405). -/
def loadProgramme (c : Fin 64) (got : Fetched) (s : State) (h : Hamper) : Verdict :=
  match bufferRead s h.fn (bufferAt h.payload 8) got with
  | .failed => .refuse stBusError []
  | .data bytes =>
    let bytes := padTo (16 * fld h.payload 2 2) (bytes.take (16 * fld h.payload 2 2))
    match checkFrom s h.fn (fld h.payload 2 2) 0 0 bytes with
    | .inr (i, r) => .refuse stBadArgument (record [(2, i), (1, r), (1, 0)])
    | .inl ds =>
      .ok (s.modChan c fun x => { x with
        mode := .loaded, programme := bytes, progAddr := (bufferAt h.payload 8).addr
        progMill := (bufferAt h.payload 8).millpond, depths := ds, ptrs := Chan.reset.ptrs, shapes := Chan.reset.shapes
        slots := Chan.reset.slots, runs := 0, runId := 0, crc := none, loops := [], pc := 0, bytes := 0 })
        (record [(4, crc32c bytes), (2, (ds.filter (· == 0)).length), (1, ds.foldl max 0), (1, 0)])

theorem chanLoadBody_legal {c : Fin 64} {a : State} {h : Hamper} (got : Fetched) (named : fld h.payload 0 1 = c.val)
    (owned : chanFn a c = h.fn) (own : (a.chans[c]).borrowed = false)
    (mode : (a.chans[c]).mode = .idle ∨ (a.chans[c]).mode = .loaded) (tail : h.tail 24 = false)
    (zero1 : zeros h.payload 1 1 = true) (zero2 : zeros h.payload 4 4 = true) (most : fld h.payload 2 2 ≤ 4096)
    (plain : (bufferAt h.payload 8).reserved = false) :
    chanLoadBody got a h =
      if fld h.payload 2 2 = 0 then
        .ok (sweepWaits (a.modChan c fun x => { x with
          mode := .idle, programme := [], depths := [], slots := Chan.reset.slots, runs := 0 }))
          (record [(4, 0), (2, 0), (2, 0)])
      else if bufferBad a h.fn (bufferAt h.payload 8) ||
          decide ((bufferAt h.payload 8).length < 16 * fld h.payload 2 2) then badArg
      else loadProgramme c got a h := by
  unfold chanLoadBody
  extract_lets p count b
  rw [fin?_eq named]
  dsimp only
  rw [if_neg (not_not_intro owned), if_neg (by simp [-Fin.getElem_fin, own, mode]),
    if_neg (by simp [p, count, b, tail, zero1, zero2, plain, Nat.not_lt.mpr most])]
  rfl

theorem claims_chanLoad : Claims.chanLoad := by
  intro c got bytes n code asks sized reads
  have fetched {a : State} {h : Hamper} (met : sized a h) : chanLoadBody got a h = loadProgramme c got a h := by
    obtain ⟨⟨named, owned, own, mode, tail, zero1, zero2, most, plain⟩, some_, buffer, long⟩ := met
    rw [chanLoadBody_legal got named owned own mode tail zero1 zero2 most plain, if_neg some_,
      if_neg (by simp only [buffer, Bool.false_or, decide_eq_true_eq]; exact Nat.not_lt.mpr long)]
  refine ⟨fun ds => Serves.of_ok (chanLoadBody got) (fun _ _ _ => rfl) ?loads,
    fun i why => Serves.of_refuse (chanLoadBody got) (fun _ _ _ => rfl) (by decide) ?breaks,
    Serves.of_refuse (chanLoadBody got) (fun _ _ _ => rfl) (by decide) ?fails,
    Serves.of_ok (chanLoadBody got) (fun _ _ _ => rfl) ?unloads⟩
  case loads =>
    rintro a h ⟨⟨met, read⟩, checked⟩
    rw [fetched met, loadProgramme, read]
    dsimp only
    rw [show checkFrom a h.fn (fld h.payload 2 2) 0 0 _ = _ from checked]
  case breaks =>
    rintro a h ⟨⟨met, read⟩, checked⟩
    rw [fetched met, loadProgramme, read]
    dsimp only
    rw [show checkFrom a h.fn (fld h.payload 2 2) 0 0 _ = _ from checked]
  case fails =>
    rintro a h ⟨met, failed⟩
    rw [fetched met, loadProgramme, failed]
  case unloads =>
    rintro a h ⟨⟨named, owned, own, mode, tail, zero1, zero2, most, plain⟩, none_⟩
    rw [chanLoadBody_legal got named owned own mode tail zero1 zero2 most plain, if_pos none_]
    rfl

/-! ### Doors, quiet and signals -/

/-- A loaded channel without queued runs is disabled, and owes the quiet of no run. -/
theorem disableChan_loaded {c : Fin 64} {s : State} (enabled : (s.chans[c]).enabled = true)
    (loaded : (s.chans[c]).mode = .loaded) (none_ : (s.chans[c]).queued = []) : disableChan c s =
      sweepWaits (s.modChan c fun x => { x with enabled := false, queued := [], quietOwed := some 0 }) := by
  unfold disableChan
  rw [if_pos enabled]
  extract_lets s1
  have empty : flushRuns c s1 = (0, s.modChan c fun x => { x with enabled := false, queued := [] }) := by
    unfold flushRuns s1
    rw [modChan_chan, none_, modChan_modChan]
    rfl
  rw [empty]
  dsimp only
  rw [stopChan, modChan_chan]
  dsimp only
  rw [loaded]
  dsimp only
  rw [modChan_modChan]

theorem claims_chanConfig : Claims.chanConfig := by
  intro c q asks settled
  have judged {a : State} {h : Hamper} (met : asks a h) (known : fld h.payload 1 1 ≤ 1) : chanConfigBody a h =
      if fld h.payload 1 1 = 1 then
        .ok ((a.modChan c (settled a h)).modChan c fun x => { x with enabled := true, quiet := false, quietOwed := none }) []
      else .ok (disableChan c (a.modChan c (settled a h))) [] := by
    obtain ⟨named, owned, own, tail, queue, mine, open_, zero1, low, high, zero2, settles⟩ := met
    unfold chanConfigBody
    extract_lets p share bad
    rw [fin?_eq named]
    dsimp -zeta only
    extract_lets x
    have good : bad = false := by
      simp [bad, share, p, tail, zero1, zero2, known, high, Nat.ne_of_gt low]
    have same : (x.queue != q.val && (x.inUse || !x.queued.isEmpty)) = false := by
      unfold x
      rcases settles with same | ⟨idle, none_⟩
      · simp [-Fin.getElem_fin, same]
      · simp [-Fin.getElem_fin, idle, none_]
    rw [if_neg (not_not_intro owned), fin?_eq queue]
    dsimp -zeta only
    extract_lets mine' s1
    have isMine : mine' = true := by simpa [mine', -Fin.getElem_fin] using mine
    rw [if_neg (by simp [same, isMine, open_, x, own, -Fin.getElem_fin]), if_neg (by simp [good, isMine])]
    rfl
  refine ⟨Serves.of_ok chanConfigBody (fun _ _ _ => rfl) ?opens, Serves.of_ok chanConfigBody (fun _ _ _ => rfl) ?closes⟩
  case opens =>
    rintro a h ⟨met, on⟩
    rw [judged met on.le, if_pos on, modChan_modChan]
  case closes =>
    rintro a h ⟨met, off, enabled, loaded, none_⟩
    have same : ((a.modChan c (settled a h)).chans[c]) = settled a h a.chans[c] := modChan_chan ..
    rw [judged met (by omega), if_neg (by omega), disableChan_loaded ((congrArg Chan.enabled same).trans enabled)
      ((congrArg Chan.mode same).trans loaded) ((congrArg Chan.queued same).trans none_), modChan_modChan]

theorem claims_chanQuiet : Claims.chanQuiet := by
  intro c n q
  refine Acts.of_meaning (chanQuiet c) (fun _ _ => rfl) ?_
  rintro a ⟨owed, idle, queue, written⟩
  have none_ : ((a.queues[q]).jobs.any fun j => j.kind == kMillrace && j.index == c.val) = false := by
    refine List.any_eq_false.mpr fun j held => ?_
    simpa using written j held
  unfold chanQuiet
  dsimp only
  rw [owed]
  dsimp only
  rw [fin?_eq queue]
  dsimp only
  rw [if_neg (by rw [none_, idle]; exact Bool.noConfusion)]

theorem claims_chanSignalMap : Claims.chanSignalMap := by
  intro c
  refine Serves.of_ok chanSignalMapBody (fun _ _ _ => rfl) ?_
  rintro a h ⟨named, owned, own, mode, tail, zero, maps⟩
  have good : ((List.range 8).any fun k =>
      mapBad a h.fn (fld h.payload (4 + 4 * k) 1) (fld h.payload (5 + 4 * k) 1) || !zeros h.payload (6 + 4 * k) 2) = false := by
    refine List.any_eq_false.mpr fun k small => ?_
    obtain ⟨mapped, plain⟩ := maps ⟨k, List.mem_range.mp small⟩
    simp only at mapped plain
    simp [mapped, plain]
  unfold chanSignalMapBody
  extract_lets p
  rw [fin?_eq named]
  dsimp only
  rw [if_neg (not_not_intro owned), if_neg (by simp [-Fin.getElem_fin, own, mode]), if_neg]
  rw [tail, zero, good]
  exact Bool.noConfusion

/-- Settles O54: each hamper's section on the channel it names, and the quiet of a channel. -/
theorem channelHampers : Obligations.ChannelHampers := by
  unfold Obligations.ChannelHampers
  exact ⟨claims_chanLoad, claims_chanConfig, claims_chanQuiet, claims_chanSignalMap⟩

end Sys2Proof.Machine
end

section
/-! SUPPORT. Runs start, stop, flush, retry and skip through a channel's registers (R134, R407, R423, R427, R436). -/

namespace Sys2Proof.Machine

theorem modChan_congr {s : State} {c : Fin 64} {f g : Chan → Chan} (same : f s.chans[c] = g s.chans[c]) :
    s.modChan c f = s.modChan c g := by
  simp only [State.modChan, vmod, same]

theorem chan_of_chans {s t : State} (c : Fin 64) (same : t.chans = s.chans) : t.chans[c] = s.chans[c] :=
  congrArg (fun v : Vector Chan 64 => v[c]) same

theorem finalEntry_chans (c : Fin 64) (key runId : Word) (status flags : Nat) (count : Word) (s : State) :
    (finalEntry c key runId status flags count s).chans = s.chans :=
  (keeps_finalEntry (msk := 0x280000092) c key runId status flags count (Keeps.refl _ s) rfl).within.chans rfl

/-! ### CHAN_CTRL -/

theorem writeRegister_chan {a : State} {fn : Fn} {c : Fin 64} (f : State → State) (open_ : Claims.ChanOpen a fn c)
    {r : Nat} (inside : r < 0x100) : writeRegister fn (chanOff c r) f a = f a := by
  obtain ⟨reached, rfl⟩ := open_
  exact writeRegister_owned _ reached (windowOwner_channel a c _ r inside rfl)

theorem claims_chanStop : Claims.chanStop := by
  intro fn c
  have stops (a : State) (open_ : Claims.ChanOpen a fn c) (own : (a.chans[c]).borrowed = false) :
      writeRegister fn (chanOff c 4) (writeChanCtrl c 1) a = stopChan c a := by
    rw [writeRegister_chan _ open_ (by decide)]
    unfold writeChanCtrl
    extract_lets n x s1
    have kept : s1 = a := if_neg (by decide)
    rw [if_neg (by decide), if_neg (by simp [x, own, n, -Fin.getElem_fin]), if_neg (by decide), if_pos (by decide), kept]
  refine ⟨Acts.of_meaning (writeRegister fn (chanOff c 4) (writeChanCtrl c 1)) (fun _ _ => rfl) ?data,
    Acts.of_meaning (writeRegister fn (chanOff c 4) (writeChanCtrl c 1)) (fun _ _ => rfl) ?waits⟩
  case data =>
    rintro a ⟨open_, own, running, arrived, data⟩
    rw [stops a open_ own, stopChan]
    rw [running]
    dsimp only
    rw [arrived]
    exact if_pos data
  case waits =>
    rintro a ⟨open_, own, waiting, settled⟩
    rw [stops a open_ own, stopChan]
    rw [waiting]
    dsimp only
    rw [stopRun, if_neg (by rw [settled]; exact Bool.noConfusion)]

/-- Cancelled runs count, and change nothing else of the channel. -/
theorem cancelRuns_chan (c : Fin 64) (l : List (Nat × Word)) (s : State) :
    (l.foldl (fun s r => finalEntry c r.2 0 stCancelled (fNeverStarted ||| fLast) 0
      (s.modChan c fun x => { x with runs := x.runs + 1 })) s).chans[c] =
    { s.chans[c] with runs := (s.chans[c]).runs + BitVec.ofNat 32 l.length } := by
  induction l generalizing s with
  | nil => simp
  | cons r rest ih =>
    rw [List.foldl_cons, ih, chan_of_chans c (finalEntry_chans ..), modChan_chan, List.length_cons]
    have count : (s.chans[c]).runs + 1 + BitVec.ofNat 32 rest.length =
        (s.chans[c]).runs + BitVec.ofNat 32 (rest.length + 1) := by
      rw [Nat.add_comm rest.length 1, BitVec.ofNat_add, BitVec.add_assoc]
      rfl
    exact congrArg (fun n => { s.chans[c] with runs := n }) count

theorem flushRuns_chan (c : Fin 64) (s : State) : (flushRuns c s).2.chans[c] =
    { s.chans[c] with
      queued := [], runs := (s.chans[c]).runs + BitVec.ofNat 32 (s.chans[c]).queued.length } := by
  unfold flushRuns
  dsimp only
  rw [cancelRuns_chan, modChan_chan]

theorem claims_chanFlush : Claims.chanFlush := by
  intro fn c
  refine ActsSo.of_meaning (writeRegister fn (chanOff c 4) (writeChanCtrl c 2)) (fun _ _ => rfl) ?_
  rintro a ⟨open_, own⟩
  have flushes : writeRegister fn (chanOff c 4) (writeChanCtrl c 2) a = (flushRuns c a).2 := by
    rw [writeRegister_chan _ open_ (by decide)]
    unfold writeChanCtrl
    extract_lets n x s1
    have flushed : s1 = (flushRuns c a).2 := if_pos (by decide)
    rw [if_neg (by decide), if_neg (by simp [x, own, n, -Fin.getElem_fin]), if_neg (by decide), if_neg (by decide), flushed]
  rw [flushes, flushRuns_chan]
  exact ⟨rfl, rfl, rfl, rfl⟩

theorem claims_chanRetry : Claims.chanRetry := by
  intro fn c
  refine ActsSo.of_meaning (writeRegister fn (chanOff c 4) (writeChanCtrl c 4)) (fun _ _ => rfl) ?_
  rintro a ⟨open_, own, halted, run⟩
  have retries : writeRegister fn (chanOff c 4) (writeChanCtrl c 4) a =
      a.modChan c fun x => { x.fill a.elapsed with mode := .running, arrival := none, wait := none } := by
    rw [writeRegister_chan _ open_ (by decide)]
    unfold writeChanCtrl
    extract_lets n x
    rw [if_neg (by decide), if_neg (by simp [x, own, n, -Fin.getElem_fin]), if_pos (by decide),
      if_pos (by simp [x, halted, run, -Fin.getElem_fin]), if_pos (by decide)]
  rw [retries, modChan_chan]
  exact ⟨rfl, rfl, rfl, rfl, rfl, fun d other => modChan_chan_other _ _ other⟩

theorem claims_chanSkip : Claims.chanSkip := by
  intro fn c
  refine ActsSo.of_meaning (writeRegister fn (chanOff c 4) (writeChanCtrl c 8)) (fun _ _ => rfl) ?_
  rintro a ⟨open_, own, halted, run⟩
  have skips : writeRegister fn (chanOff c 4) (writeChanCtrl c 8) a = chanNext c a := by
    rw [writeRegister_chan _ open_ (by decide)]
    unfold writeChanCtrl
    extract_lets n x
    rw [if_neg (by decide), if_neg (by simp [x, own, n, -Fin.getElem_fin]), if_pos (by decide),
      if_pos (by simp [x, halted, run, -Fin.getElem_fin]), if_neg (by decide)]
  rw [skips, chanNext, modChan_chan]
  exact ⟨rfl, rfl, rfl, rfl, rfl, fun d other => modChan_chan_other _ _ other⟩

/-! ### CHAN_GO, CHAN_KICK and CHAN_BYTES -/

theorem claims_chanGo : Claims.chanGo := by
  intro fn c v q fits submitted
  have queued (a : State) : (submitted a).chans[c] = { a.chans[c] with nextKey := (a.chans[c]).nextKey + 1 } :=
    modChan_chan ..
  have submits {a : State} (met : fits a) (executes : (a.chans[c]).mode = .loaded ∨ (a.chans[c]).mode = .running ∨
      (a.chans[c]).mode = .waiting ∨ (a.chans[c]).mode = .halted) :
      writeRegister fn (0x10000 + 0x100 * c) (writeChanGo c v) a =
      if (a.chans[c]).mode = .loaded then startRun c (v.toNat % 4096) (a.chans[c]).nextKey (submitted a)
      else (submitted a).modChan c fun x => { x with
        queued := (a.chans[c]).queued ++ [(v.toNat % 4096, (a.chans[c]).nextKey)] } := by
    obtain ⟨open_, enabled, opened, own, room, entry, queue, may⟩ := met
    rw [show 0x10000 + 0x100 * c.val = chanOff c 0 from rfl, writeRegister_chan _ open_ (by decide)]
    unfold writeChanGo
    extract_lets x entry' ok key s1 s2
    have legal : ok = true := by
      unfold ok x entry'
      rw [entry, fin?_eq queue]
      dsimp only
      rw [may, enabled, own, opened]
      rcases executes with mode | mode | mode | mode <;> simp [-Fin.getElem_fin, mode, room]
    rw [if_pos legal]
    have next_ : s2 = submitted a := by
      unfold s2 x
      rw [fin?_eq queue]
    rw [next_]
    have same : (submitted a).chans[c].queued = (a.chans[c]).queued := by
      rw [queued a]
    congr 1
    exact modChan_congr (by rw [same])
  have refuses {a : State} (open_ : Claims.ChanOpen a fn c)
      (shut : (a.chans[c]).enabled = false ∨ a.start.allDoorsClosed = true) :
      writeRegister fn (0x10000 + 0x100 * c) (writeChanGo c v) a =
      post 0x510B fn c (a.modChan c fun x => { x with goRefused := true }) := by
    rw [show 0x10000 + 0x100 * c.val = chanOff c 0 from rfl, writeRegister_chan _ open_ (by decide)]
    obtain ⟨-, rfl⟩ := open_
    unfold writeChanGo
    extract_lets x entry ok key s1
    have illegal : ok = false := by
      unfold ok x
      rcases shut with shut | shut <;> simp [-Fin.getElem_fin, shut]
    rw [if_neg (by rw [illegal]; exact Bool.noConfusion)]
  refine ⟨Acts.of_meaning (writeRegister fn (0x10000 + 0x100 * c) (writeChanGo c v)) (fun _ _ => rfl) ?starts,
    Acts.of_meaning (writeRegister fn (0x10000 + 0x100 * c) (writeChanGo c v)) (fun _ _ => rfl) ?queues,
    Acts.of_meaning (writeRegister fn (0x10000 + 0x100 * c) (writeChanGo c v)) (fun _ _ => rfl)
      fun a ⟨open_, shut⟩ => refuses open_ shut, fun a entry key => ?run⟩
  case starts =>
    rintro a ⟨met, loaded⟩
    rw [submits met (.inl loaded), if_pos loaded]
  case queues =>
    rintro a ⟨met, mode⟩
    rw [submits met (.inr mode), if_neg]
    rcases mode with mode | mode | mode <;> rw [mode] <;> exact ChanMode.noConfusion
  case run =>
    extract_lets x
    have started : x = _ := modChan_chan ..
    rw [started]
    exact ⟨rfl, rfl, rfl, rfl, rfl, rfl, rfl⟩

theorem writeChanKick_slot (c : Fin 64) (v : Word) (s : State) : writeChanKick c v s =
    if v.toNat / 65536 = 0 then s
    else if ((s.chans[c]).slots[ptrIx v.toNat]).kind = 1 then slotAdd c (ptrIx v.toNat) (v.toNat / 65536) s
    else ctrlIgnored c s := rfl

theorem claims_chanKick : Claims.chanKick := by
  intro fn c v
  refine ⟨Acts.of_meaning (writeRegister fn (chanOff c 0x2C) (writeChanKick c v)) (fun _ _ => rfl) ?counts,
    Acts.of_meaning (writeRegister fn (chanOff c 0x2C) (writeChanKick c v)) (fun _ _ => rfl) ?ignored⟩
  case counts =>
    rintro a ⟨open_, some_, host, room⟩
    rw [writeRegister_chan _ open_ (by decide), writeChanKick_slot, if_neg some_, if_pos host, slotAdd,
      if_pos room]
    exact modChan_congr rfl
  case ignored =>
    rintro a ⟨open_, some_, other⟩
    rw [writeRegister_chan _ open_ (by decide), writeChanKick_slot]
    obtain ⟨-, rfl⟩ := open_
    rw [if_neg some_, if_neg other]
    rfl

theorem claims_chanBytesLoRead : Claims.chanBytesLoRead := by
  intro fn c
  refine Acts.of_meaning (readRegister fn (chanOff c 0x20) (readChanBytes c)) (fun _ _ => rfl) ?_
  rintro a ⟨reached, rfl⟩
  rw [readRegister_owned _ reached (windowOwner_channel a c (chanOff c 0x20) 0x20 (by decide) rfl), readChanBytes]
  exact congrArg _ (modChan_congr rfl)

/-- Settles O55: what each control register of a channel brings about on the channel. -/
theorem channelControl : Obligations.ChannelControl := by
  unfold Obligations.ChannelControl
  exact ⟨claims_chanGo, claims_chanStop, claims_chanFlush, claims_chanRetry, claims_chanSkip, claims_chanKick,
    claims_chanBytesLoRead⟩

end Sys2Proof.Machine
end

section
/-! SUPPORT. SET, the CRC accumulator, FENCE, END and their arrival (R407, R414 to R416, R424, R425). -/

namespace Sys2Proof.Machine

/-! ### What ends an instruction -/

theorem chanDone_chan {s : State} {c : Fin 64} (mode : (s.chans[c]).mode = .running)
    (noStop : (s.chans[c]).stopAfter = false) : (chanDone c s).chans[c] =
      { (s.chans[c]).fill s.elapsed with
        pc := (s.chans[c]).pc + 1, mode := .running, wait := none, arrival := none } := by
  rw [chanDone_eq_chanNext mode noStop]
  exact modChan_chan ..

theorem chanDone_modChan_chan {s : State} {c : Fin 64} (g : Chan → Chan) (mode : (g s.chans[c]).mode = .running)
    (noStop : (g s.chans[c]).stopAfter = false) : (chanDone c (s.modChan c g)).chans[c] =
      { (g s.chans[c]).fill s.elapsed with
        pc := (g s.chans[c]).pc + 1, mode := .running, wait := none, arrival := none } := by
  have given := modChan_chan s c g
  rw [chanDone_chan (given ▸ mode) (given ▸ noStop), given]
  rfl

theorem haltChan_chan (c : Fin 64) (cause status : Nat) (write : Bool) (space addr : Nat) (s : State) :
    (haltChan c cause status write space addr s).chans[c] = { s.chans[c] with
      mode := .halted, haltCause := cause, haltStatus := status, haltWrite := write, haltSpace := space
      haltAddr := addr, arrival := none, wait := none, entryBytes := 0 } := by
  unfold haltChan
  extract_lets count s1
  have halted : s1.chans[c] = _ := modChan_chan ..
  rw [post_eq_modLog]
  refine Eq.trans (chan_of_chans (s := s1) c ?_) halted
  exact (keeps_chanEntry (msk := 0x280000092) c status 0 _ (Keeps.refl _ _) rfl).within.chans rfl

/-- A run that ends with no other queued leaves the channel LOADED (R407). -/
theorem endRunNow_chan_last {c : Fin 64} {s : State} (status : Nat) (none_ : (s.chans[c]).queued = []) :
    (endRunNow c status s).chans[c] = { s.chans[c] with
      mode := .loaded, runs := (s.chans[c]).runs + 1, arrival := none, wait := none, stopAfter := false, loops := [] } := by
  unfold endRunNow
  extract_lets x s1 s2
  have ended : s2.chans[c] = { s.chans[c] with
      mode := .loaded, runs := (s.chans[c]).runs + 1, arrival := none, wait := none, stopAfter := false, loops := [] } := by
    unfold s2
    rw [modChan_chan, show s1.chans[c] = s.chans[c] from chan_of_chans c (finalEntry_chans ..)]
  have none_' : (s2.chans[c]).queued = [] := by
    rw [ended]
    exact none_
  rw [none_']
  exact ended

/-- A run that ends starts the first of the queued ones (R407). -/
theorem endRunNow_chan_next {c : Fin 64} {s : State} {e : Nat} {k : Word} {rest : List (Nat × Word)} (status : Nat)
    (queued : (s.chans[c]).queued = (e, k) :: rest) :
    ((endRunNow c status s).chans[c]).mode = .running ∧ ((endRunNow c status s).chans[c]).pc = e ∧
    ((endRunNow c status s).chans[c]).queued = rest ∧
    ((endRunNow c status s).chans[c]).runs = (s.chans[c]).runs + 1 := by
  unfold endRunNow
  extract_lets x s1 s2
  have ended : s2.chans[c] = { s.chans[c] with
      mode := .loaded, runs := (s.chans[c]).runs + 1, arrival := none, wait := none, stopAfter := false, loops := [] } := by
    unfold s2
    rw [modChan_chan, show s1.chans[c] = s.chans[c] from chan_of_chans c (finalEntry_chans ..)]
  rw [ended]
  dsimp only
  rw [queued]
  dsimp only
  rw [startRun, modChan_chan, modChan_chan, ended]
  exact ⟨rfl, rfl, rfl, rfl⟩

/-! ### SET and CRCSTART -/

theorem claims_setReg : Claims.setReg := by
  unfold Claims.setReg Claims.WentOn
  intro c b
  refine ActsSo.of_meaning (runInstr c (isOp 7) (runSet c)) (fun _ _ => rfl) fun a runs => ?_
  rw [runInstr_of_runs _ runs (fun e => absurd e (by decide)) (fun e => absurd e (by decide))]
  obtain ⟨mode, -, -, -, -, -, noStop, -⟩ := runs
  unfold runSet
  extract_lets t v
  generalize set_ : (fun x : Chan => _) = g
  have kept : ∀ x, (g x).mode = x.mode ∧ (g x).stopAfter = x.stopAfter ∧ (g x).pc = x.pc := by
    subst set_
    intro x
    dsimp only
    split_ifs <;> exact ⟨rfl, rfl, rfl⟩
  obtain ⟨keptMode, keptStop, keptPc⟩ := kept a.chans[c]
  rw [chanDone_modChan_chan g (keptMode.trans mode) (keptStop.trans noStop)]
  refine ⟨⟨rfl, congrArg (· + 1) keptPc⟩, fun small zero => ?loads, fun small one => ?adds, fun id_ => ?runId,
    fun k shape => ?shape⟩
  case loads =>
    show (g _).ptrs = _
    subst set_
    dsimp only
    rw [if_pos small, if_pos zero]
  case adds =>
    show ((g a.chans[c]).ptrs[ptrIx (fld b 2 1)]).addr = _ ∧ ((g a.chans[c]).ptrs[ptrIx (fld b 2 1)]).space = _
    subst set_
    dsimp only
    rw [if_pos small, if_neg (by omega), vmod_get]
    exact ⟨rfl, rfl⟩
  case runId =>
    show (g _).runId = _ ∧ (g _).ptrs = _
    subst set_
    dsimp only
    rw [if_neg (by omega), if_pos id_]
    exact ⟨rfl, rfl⟩
  case shape =>
    have index : t % 4 = k.val := by
      simp only [t]
      omega
    show (g _).shapes = _ ∧ (g _).ptrs = _
    subst set_
    dsimp only
    rw [if_neg (by omega), if_neg (by omega)]
    simp only [index, and_self]

theorem claims_crcStart : Claims.crcStart := by
  unfold Claims.crcStart Claims.WentOn
  intro c b
  refine ActsSo.of_meaning (runInstr c (isOp 8) (runCrcStart c)) (fun _ _ => rfl) fun a runs => ?_
  rw [runInstr_of_runs _ runs (fun e => absurd e (by decide)) (fun e => absurd e (by decide))]
  obtain ⟨mode, -, -, -, -, -, noStop, -⟩ := runs
  rw [runCrcStart, chanDone_modChan_chan _ mode noStop]
  exact ⟨⟨rfl, rfl⟩, rfl⟩

/-! ### CRCSTORE -/

theorem crcFinal_of_crc32 {kind : Nat} (small : kind < 2) (v : Nat) : crcFinal kind v = v ^^^ 0xFFFFFFFF :=
  if_neg (Nat.ne_of_lt small)

/-- Sluice's account of an instruction changes the buckets alone (R426). -/
theorem spend_kept (x : Chan) (at_ reads writes : Nat) :
    (x.spend at_ reads writes).mode = x.mode ∧ (x.spend at_ reads writes).stopAfter = x.stopAfter ∧
    (x.spend at_ reads writes).pc = x.pc ∧ (x.spend at_ reads writes).bytes = x.bytes := by
  unfold Chan.spend
  split <;> exact ⟨rfl, rfl, rfl, rfl⟩

theorem writeSide_mill4 (fn : Fn) (addr v : Nat) (s : State) :
    writeSide fn 1 false [(addr, 4)] (leBytes 4 v) s = millWrite addr (leBytes 4 v) s := by
  have whole : (leBytes 4 v).take 4 = leBytes 4 v := List.take_of_length_le (leBytes_length 4 v).le
  rw [writeSide, whole]
  rfl

theorem claims_crcStore : Claims.crcStore := by
  unfold Claims.crcStore Claims.WentOn
  intro c b p runs
  have carried {a : State} (met : runs a) : runInstr c (isOp 9) (runCrcStore c) a = runCrcStore c b a :=
    runInstr_of_runs _ met.1 (fun e => absurd e (by decide)) (fun e => absurd e (by decide))
  refine ⟨fun k crc32 => ActsSo.of_meaning (runInstr c (isOp 9) (runCrcStore c)) (fun _ _ => rfl) ?stores,
    ActsSo.of_meaning (runInstr c (isOp 9) (runCrcStore c)) (fun _ _ => rfl) ?halts⟩
  case stores =>
    rintro a ⟨met, active, space, aligned, inside, share⟩
    rw [carried met]
    obtain ⟨⟨mode, -, -, -, -, -, noStop, -⟩, pointer⟩ := met
    unfold runCrcStore
    extract_lets x pi q
    have same : q = p := pointer
    rw [same, show x.crc = some k from active]
    dsimp -zeta only
    extract_lets n v d s1 s2
    have four : n = 4 := if_neg (Nat.ne_of_lt crc32)
    have value : v = k.value ^^^ 0xFFFFFFFF := crcFinal_of_crc32 crc32 _
    have side : d = ⟨1, [(p.addr.toNat, 4)]⟩ := by
      unfold d
      rw [space, four]
    have written : s1 = accountWrite c ⟨1, [(p.addr.toNat, 4)]⟩ 4
        (millWrite p.addr.toNat (leBytes 4 (k.value ^^^ 0xFFFFFFFF)) a) := by
      unfold s1
      rw [side, four, value, writeSide_mill4]
    have account : s1.chans[c] = { a.chans[c] with
        bytes := (a.chans[c]).bytes + 4, entryBytes := (a.chans[c]).entryBytes + 4
        lastHost := (a.chans[c]).lastHost } := by
      rw [written]
      exact modChan_chan ..
    have moved : (s2.chans[c]).mode = (s1.chans[c]).mode ∧ (s2.chans[c]).stopAfter = (s1.chans[c]).stopAfter ∧
        (s2.chans[c]).pc = (s1.chans[c]).pc ∧ (s2.chans[c]).bytes = (s1.chans[c]).bytes ∧ s2.millpond = s1.millpond := by
      unfold s2
      split
      · rw [addPtr, modChan_chan]
        exact ⟨rfl, rfl, rfl, rfl, rfl⟩
      · exact ⟨rfl, rfl, rfl, rfl, rfl⟩
    obtain ⟨keptMode, keptStop, keptPc, keptBytes, keptMill⟩ := moved
    rw [account] at keptMode keptStop keptPc keptBytes
    have running : ((s2.chans[c]).spend s2.elapsed 0 n).mode = .running :=
      (spend_kept ..).1.trans (keptMode.trans mode)
    have noStop' : ((s2.chans[c]).spend s2.elapsed 0 n).stopAfter = false :=
      (spend_kept ..).2.1.trans (keptStop.trans noStop)
    rw [if_neg (by rw [four]; exact not_not_intro aligned), if_neg (by rw [side, inside]; exact Bool.noConfusion),
      if_neg (by simp [x, four, share, side, lpWaits, -Fin.getElem_fin])]
    have done := chanDone_modChan_chan (s := s2) (c := c)
      (fun x => { x.spend s2.elapsed 0 n with crc := none, lastCrc := BitVec.ofNat 32 v }) running noStop'
    have mill : (chanDone c (s2.modChan c fun x =>
        { x.spend s2.elapsed 0 n with crc := none, lastCrc := BitVec.ofNat 32 v })).millpond = s2.millpond := by
      rw [chanDone_eq_chanNext]
      · rfl
      · rw [modChan_chan]
        exact running
      · rw [modChan_chan]
        exact noStop'
    refine ⟨⟨congrArg Chan.mode done, (congrArg Chan.pc done).trans ?pc⟩, congrArg Chan.crc done,
      (congrArg Chan.lastCrc done).trans (congrArg (BitVec.ofNat 32) value), (congrArg Chan.bytes done).trans ?bytes,
      (mill.trans keptMill).trans ?stored⟩
    case stored =>
      rw [written]
      rfl
    case pc => exact congrArg (· + 1) ((spend_kept ..).2.2.1.trans keptPc)
    case bytes => exact (spend_kept ..).2.2.2.trans keptBytes
  case halts =>
    rintro a ⟨met, idle⟩
    have halts : runCrcStore c b a = haltOperand c p a := by
      rw [runCrcStore, idle]
      dsimp only
      rw [met.2]
    rw [carried met, halts, haltOperand, haltChan_chan]
    exact ⟨rfl, rfl, rfl⟩

/-! ### FENCE, END and arrival -/

theorem arrived_fence_chan {c : Fin 64} {a : State} (mode : (a.chans[c]).mode = .running)
    (noStop : (a.chans[c]).stopAfter = false) : (arrived c .fence a).chans[c] =
      { (a.chans[c]).fill a.elapsed with
        lastHost := none, pc := (a.chans[c]).pc + 1, mode := .running, wait := none, arrival := none } :=
  chanDone_modChan_chan (fun x => { x with lastHost := none, arrival := none }) mode noStop

theorem arrived_endRun_last {c : Fin 64} {a : State} (none_ : (a.chans[c]).queued = []) :
    (arrived c .endRun a).chans[c] = { a.chans[c] with
      lastHost := none, mode := .loaded, runs := (a.chans[c]).runs + 1, arrival := none, wait := none
      stopAfter := false, loops := [] } := by
  unfold arrived
  extract_lets s1
  have settled : s1.chans[c] = { a.chans[c] with lastHost := none, arrival := none } := modChan_chan ..
  have queued : (s1.chans[c]).queued = [] := by
    rw [settled]
    exact none_
  exact (endRunNow_chan_last _ queued).trans (by rw [settled])

theorem arrived_endRun_next {c : Fin 64} {a : State} {e : Nat} {k : Word} {rest : List (Nat × Word)}
    (queued : (a.chans[c]).queued = (e, k) :: rest) :
    ((arrived c .endRun a).chans[c]).mode = .running ∧ ((arrived c .endRun a).chans[c]).pc = e ∧
    ((arrived c .endRun a).chans[c]).queued = rest ∧
    ((arrived c .endRun a).chans[c]).runs = (a.chans[c]).runs + 1 := by
  unfold arrived
  extract_lets s1
  have settled : s1.chans[c] = { a.chans[c] with lastHost := none, arrival := none } := modChan_chan ..
  have queued' : (s1.chans[c]).queued = (e, k) :: rest := by
    rw [settled]
    exact queued
  obtain ⟨mode, pc, left, count⟩ := endRunNow_chan_next (s1.chans[c]).keptStatus queued'
  exact ⟨mode, pc, left, count.trans (by rw [settled])⟩

theorem claims_fence : Claims.fence := by
  unfold Claims.fence Claims.WentOn
  intro c b
  refine ⟨ActsSo.of_meaning (runInstr c (isOp 0x0A) fun _ => arrivalPoint c .fence) (fun _ _ => rfl) ?ends,
    Acts.of_meaning (runInstr c (isOp 0x0A) fun _ => arrivalPoint c .fence) (fun _ _ => rfl) ?reads⟩
  case ends =>
    rintro a ⟨runs, settled⟩
    rw [runInstr_of_runs _ runs (fun e => absurd e (by decide)) (fun e => absurd e (by decide)), arrivalPoint,
      if_neg (by rw [settled]; exact Bool.noConfusion)]
    obtain ⟨mode, -, -, -, -, -, noStop, -⟩ := runs
    rw [arrived_fence_chan mode noStop]
    exact ⟨⟨rfl, rfl⟩, rfl⟩
  case reads =>
    rintro a ⟨runs, outstanding⟩
    rw [runInstr_of_runs _ runs (fun e => absurd e (by decide)) (fun e => absurd e (by decide)), arrivalPoint,
      if_pos (Option.isSome_iff_ne_none.mpr outstanding)]

theorem claims_endRun : Claims.endRun := by
  intro c b
  have ends {a : State} (runs : Claims.Runs a c b 0x0F) (settled : (a.chans[c]).lastHost = none) :
      runInstr c (isOp 0x0F) (fun _ => arrivalPoint c .endRun) a = arrived c .endRun a := by
    rw [runInstr_of_runs _ runs (fun e => absurd e (by decide)) (fun e => absurd e (by decide)), arrivalPoint,
      if_neg (by rw [settled]; exact Bool.noConfusion)]
  refine ⟨ActsSo.of_meaning (runInstr c (isOp 0x0F) fun _ => arrivalPoint c .endRun) (fun _ _ => rfl) ?last,
    fun e k rest => ActsSo.of_meaning (runInstr c (isOp 0x0F) fun _ => arrivalPoint c .endRun) (fun _ _ => rfl) ?next,
    Acts.of_meaning (runInstr c (isOp 0x0F) fun _ => arrivalPoint c .endRun) (fun _ _ => rfl) ?reads⟩
  case last =>
    rintro a ⟨runs, settled, none_⟩
    rw [ends runs settled, arrived_endRun_last none_]
    exact ⟨rfl, rfl⟩
  case next =>
    rintro a ⟨runs, settled, queued⟩
    rw [ends runs settled]
    exact arrived_endRun_next queued
  case reads =>
    rintro a ⟨runs, outstanding⟩
    rw [runInstr_of_runs _ runs (fun e => absurd e (by decide)) (fun e => absurd e (by decide)), arrivalPoint,
      if_pos (Option.isSome_iff_ne_none.mpr outstanding)]

/-- What a command of the read-back does to a channel that awaits it. -/
def readbackDone (c : Fin 64) (s : State) : State :=
  match (s.chans[c]).arrival with
  | some a => arrived c a s
  | none => s

theorem claims_arrivalReadbackDone : Claims.arrivalReadbackDone := by
  unfold Claims.arrivalReadbackDone Claims.WentOn
  intro c
  refine ⟨ActsSo.of_meaning (readbackDone c) (fun _ _ => rfl) ?fence, ActsSo.of_meaning (readbackDone c) (fun _ _ => rfl) ?ends⟩
  case fence =>
    rintro a ⟨awaits, mode, noStop⟩
    rw [readbackDone, awaits]
    dsimp only
    rw [arrived_fence_chan mode noStop]
    exact ⟨⟨rfl, rfl⟩, rfl, rfl⟩
  case ends =>
    rintro a ⟨awaits, mode, none_⟩
    rw [readbackDone, awaits]
    dsimp only
    rw [arrived_endRun_last none_]
    exact ⟨rfl, rfl, rfl⟩

/-- Settles O58: each instruction's effect on the channel, its end, and what its arrival brings. -/
theorem channelsSetCheckAndEnd : Obligations.ChannelsSetCheckAndEnd := by
  unfold Obligations.ChannelsSetCheckAndEnd
  exact ⟨claims_setReg, claims_crcStart, claims_crcStore, claims_fence, claims_endRun, claims_arrivalReadbackDone⟩

end Sys2Proof.Machine
end

section
/-! SUPPORT. What a full reset does, from each of its sources (R489 to R505). -/

namespace Sys2Proof.Machine

/-! ### The assertion -/

theorem reset_bypass : ∀ p : Fin 2, (State.reset.guard.paths[p]).bypass = true := by decide

/-- A source that asserts on a running part resets it (R492 to R496). -/
theorem assertReset_full (src : ResetSource) {a : State} (on : a.pwr.state = .running) :
    Claims.fullReset a (assertReset src a) src := by
  have held : src ∈ (if a.pwr.resetHeld.contains src then a.pwr.resetHeld else src :: a.pwr.resetHeld) := by
    split
    case isTrue already => exact List.contains_iff_mem.mp already
    case isFalse => exact List.mem_cons_self
  simp only [assertReset, on]
  exact ⟨rfl, held, rfl, rfl, reset_bypass, rfl, rfl, rfl⟩

theorem fullReset_congr {a b t : State} {src : ResetSource} (reset : Claims.fullReset b t src)
    (elapsed : b.elapsed = a.elapsed) (release : b.pwr.releaseAt = a.pwr.releaseAt) (mram : b.mram = a.mram)
    (mirror : b.mirror = a.mirror) : Claims.fullReset a t src := by
  unfold Claims.fullReset at reset ⊢
  rwa [← elapsed, ← release, ← mram, ← mirror]

theorem claims_lockstepMismatch : Claims.lockstepMismatch := by
  refine ActsSo.of_meaning lockstepFails (fun _ _ => rfl) ?_
  rintro a ⟨runs, on⟩
  rw [lockstepFails, if_pos runs]
  exact ⟨assertReset_full .watchdog on, rfl⟩

theorem claims_resetNAssert : Claims.resetNAssert := by
  refine ActsSo.of_meaning (fun a => assertReset .resetN (a.modPower fun p => { p with resetNLow := true }))
    (fun _ _ => rfl) fun a on => ⟨?_, ?_⟩
  · exact fullReset_congr (assertReset_full (a := a.modPower fun p => { p with resetNLow := true }) .resetN on) rfl rfl rfl rfl
  · simp only [assertReset, State.modPower, on]

theorem claims_resetNRelease : Claims.resetNRelease := by
  refine Acts.of_meaning resetNRises (fun _ _ => rfl) fun a held => ?_
  simp only [resetNRises, State.modPower, if_pos (List.contains_iff_mem.mpr held)]

theorem claims_supplyFault : Claims.supplyFault := by
  refine ⟨ActsSo.of_meaning (fun a => if a.pwr.suppliesGood ∧ a.pwr.pwrEn then assertReset .supply a else a)
      (fun _ _ => rfl) ?falls,
    Acts.of_meaning (fun a => if a.pwr.suppliesGood ∧ a.pwr.pwrEn then assertReset .supply a else a)
      (fun _ _ => rfl) ?begun⟩
  case falls =>
    rintro a ⟨good, enabled, on⟩
    simp only [if_pos (And.intro good enabled)]
    refine ⟨assertReset_full .supply on, ?_⟩
    simp only [assertReset, on]
    exact Bool.and_false _
  case begun =>
    intro a off
    exact if_neg (by simp [off])

/-! ### The watchdog -/

theorem claims_watchdogExpiry : Claims.watchdogExpiry := by
  refine ⟨ActsSo.of_meaning (fun a => if a.pwr.wdtArmed ∧ a.pwr.wdtHalt = none ∧
        a.pwr.wdtLast + a.pwr.wdtPause + ticksMs 225 ≤ a.elapsed then assertReset .watchdog a else a) (fun _ _ => rfl) ?expires,
    Acts.of_meaning (fun a => if a.pwr.wdtArmed ∧ a.pwr.wdtHalt = none ∧
        a.pwr.wdtLast + a.pwr.wdtPause + ticksMs 225 ≤ a.elapsed then assertReset .watchdog a else a) (fun _ _ => rfl) ?halted⟩
  case expires =>
    rintro a ⟨armed, runs, late, on⟩
    simp only [if_pos (And.intro armed (And.intro runs late))]
    exact assertReset_full .watchdog on
  case halted =>
    intro a halted
    refine if_neg fun ⟨_, runs, _⟩ => ?_
    rw [runs] at halted
    exact Bool.noConfusion halted

theorem claims_watchdogService : Claims.watchdogService := by
  have serves {a : State} (armed : a.pwr.wdtArmed = true) (runs : mainRuns a = true) :
      ¬ (¬ a.pwr.wdtArmed = true ∨ ¬ mainRuns a = true) := fun e => e.elim (· armed) (· runs)
  refine ⟨Acts.of_meaning serviceWatchdog (fun _ _ => rfl) ?inTime, Acts.of_meaning serviceWatchdog (fun _ _ => rfl) ?late⟩
  case inTime =>
    rintro a ⟨armed, runs, inTime⟩
    rw [serviceWatchdog, if_neg (serves armed runs), if_neg (Nat.not_lt.mpr inTime)]
    simp only [Nat.not_lt.mpr inTime, false_and, if_false]
  case late =>
    rintro a ⟨armed, runs, late, room⟩
    rw [serviceWatchdog, if_neg (serves armed runs), if_pos late]
    simp only [State.modPower, if_pos (And.intro late room)]

/-! ### The release -/

/-- A start's release leaves what holds internal reset. -/
theorem releaseMain_power (cause : Nat) (a : State) : ∃ late,
    (releaseMain cause a).pwr = { a.pwr with deferred := [], st01Late := late } := by
  unfold releaseMain
  extract_lets n offset late b _ _ _ _ s1 s2 s3 s4 t
  have begun : s3.pwr = a.pwr := by
    have jotted : Keeps 0x7080 s1 s2 := keeps_jot _ _ _ _ _ _ _ (keeps_setStep _ _ _ (Keeps.refl _ s1) rfl) rfl
    have skipped : Keeps 0x7080 s1 s3 :=
      Keeps.ite (keeps_skipStep _ _ (keeps_State_modStart _ jotted rfl) rfl) jotted
    exact skipped.within.pwr rfl
  have told : s4.pwr = { a.pwr with deferred := [] } := by
    have all : Sub 0x7080 0x7080 := Sub.refl _
    have posted : Keeps 0x7080 s3 (s3.pwr.deferred.foldl (fun s c => post c wide wide s) s3) :=
      Keeps.foldl (fun _ _ k => keeps_post _ _ _ k (Sub.of all rfl)) (Keeps.refl _ s3)
    unfold s4
    rw [State.modPower]
    dsimp only
    rw [posted.within.pwr rfl, begun]
  unfold t
  clear_value s4
  split
  · refine ⟨false, ?_⟩
    rw [(keeps_beginReady (msk := 0x7080) (keeps_setStep _ _ _ (keeps_routeFails _ _ _ _ (keeps_post _ _ _
      (Keeps.refl _ _) rfl) rfl) rfl) rfl).within.pwr rfl, State.modPower, told]
  · refine ⟨a.pwr.st01Late, ?_⟩
    rw [(keeps_stepDone (msk := 0x7080) _ _ _ (Keeps.refl _ _) rfl).within.pwr rfl, told]

theorem releaseMain_idle {cause : Nat} {b : State} (none_ : b.pwr.resetHeld = []) (released : b.pwr.releaseAt = none)
    (powered : b.pwr.suppliesGood = true) : (releaseMain cause b).pwr.resetHeld = [] ∧
      (releaseMain cause b).pwr.releaseAt = none ∧ (releaseMain cause b).start.cause = cause := by
  obtain ⟨late, power⟩ := releaseMain_power cause b
  obtain ⟨-, -, -, -, begun, -⟩ := releaseMain_starts cause b powered
  rw [power]
  exact ⟨none_, released, begun⟩

theorem claims_fullResetRelease : Claims.fullResetRelease := by
  refine ActsSo.of_meaning releaseReset (fun _ _ => rfl) ?_
  rintro a ⟨held, high, good, over_⟩
  have ends : ¬ a.pwr.resetHeld.isEmpty = true ∧ ¬ a.pwr.resetNLow = true ∧ a.pwr.suppliesGood = true ∧
      due a a.pwr.releaseAt = true := ⟨by simpa using held, by simp [high], good, over_⟩
  rw [releaseReset, if_pos ends]
  extract_lets cause
  exact releaseMain_idle rfl rfl good

/-! ### DEVICE_RESET -/

theorem claims_deviceReset : Claims.deviceReset := by
  intro s dt r h asked tail key zero
  extract_lets a replied
  have body (flag_ : fld h.payload 4 1 ≤ 1) : deviceResetBody a h =
      .ok ((post 0x9016 wide wide a).modStart fun x => { x with live := .idle }) [] := by
    rw [deviceResetBody]
    exact if_neg (by simp [tail, key, zero, Nat.not_lt.mpr flag_])
  have follows (flag_ : fld h.payload 4 1 ≤ 1) :
      exec (.deviceReset dt r) s = .next (deviceResetFollows (bit (fld h.payload 4 1) 0) replied) := by
    have meaning : exec (.deviceReset dt r) s = .next (match fetch a r with
      | some h =>
        if h.op = 0x0008 then
          (match judge a h 0 true deviceResetBody with
            | .ok _ _ => deviceResetFollows (bit (fld h.payload 4 1) 0) (serve r 0x0008 0 true deviceResetBody a)
            | _ => serve r 0x0008 0 true deviceResetBody a)
        else serve r 0x0008 0 true deviceResetBody a
      | none => serve r 0x0008 0 true deviceResetBody a) := rfl
    rw [meaning, asked.1]
    dsimp only
    rw [if_pos asked.2.1, judge_asked _ asked, serve_asked _ asked, body flag_]
    rfl
  refine ⟨fun skip => ?skips, fun mirror => ?mirrors, fun p => ?shut⟩
  case skips =>
    rw [follows skip.le, skip]
    rfl
  case mirrors =>
    have core : replied.start.core = .valtyn := by
      have kept : Keeps 0x200000086 ((post 0x9016 wide wide a).modStart fun x => { x with live := .idle }) replied :=
        keeps_reply _ _ _ _ (keeps_taken _ _ (Keeps.refl _ _) rfl) rfl
      rw [kept.within.start rfl]
      obtain ⟨-, -, -, -, valtyn, -⟩ := asked
      rw [post_eq_modLog]
      exact valtyn
    rw [follows (by omega), mirror, deviceResetFollows, if_neg]
    rw [core]
    decide
  case shut => simp [GPath.shut]

/-- Settles O51: each source asserts the one full reset, which the end of its hold turns into a new start. -/
theorem fullResets : Obligations.FullResets := by
  unfold Obligations.FullResets
  exact ⟨claims_deviceReset, claims_watchdogService, claims_watchdogExpiry, claims_lockstepMismatch, claims_resetNAssert,
    claims_resetNRelease, claims_supplyFault, claims_fullResetRelease⟩

end Sys2Proof.Machine
end

section
/-! SUPPORT. Weir's marks return, the scrubber runs, and Weir answers (R382 to R402). -/

namespace Sys2Proof.Machine

/-! ### Marks -/

theorem claims_serveRestoreTimer : Claims.serveRestoreTimer := by
  intro kind index c f
  refine Acts.of_meaning (restoreFlow kind index) (fun _ _ => rfl) ?_
  rintro a ⟨found, off, cls, covered, over_⟩
  rw [restoreFlow, found]
  dsimp only
  rw [if_pos ⟨by simp [off], cls, by rw [covered, since_some]; exact decide_eq_true over_⟩]

theorem claims_sFaultClearTimer : Claims.sFaultClearTimer := by
  intro c
  refine Acts.of_meaning clearSFault (fun _ _ => rfl) ?_
  rintro a ⟨fault, covered, over_⟩
  rw [clearSFault, if_pos ⟨fault, by rw [covered, since_some]; exact decide_eq_true over_⟩]

/-! ### The scrubber -/

theorem scrub_due {a : State} (res : ScrubResult) (store : a.weir.store = .available) (size : a.weir.gib ≠ 0)
    (due : scrubDue a = true) : scrub res a =
      let s := if a.weir.scrubPos = 0 then a.modWeir fun w => { w with scrubFrom := some a.elapsed } else a
      scrubAdvance (match res with
        | .clean => s
        | .corrected => correctedRead .lpddr (s.modWeir fun w => { w with scrubCorrected := w.scrubCorrected + 1 })
        | .uncorrectable => uncorrectable (32 * s.weir.scrubPos) 0x6103 wide
            (s.modWeir fun w => { w with scrubUncorrectable := w.scrubUncorrectable + 1 })) :=
  if_neg (by simp [store, size, due])

/-- A burst within a pass. -/
theorem scrubAdvance_within {s : State} (more : s.weir.scrubPos + 1 < burstCount s.weir) :
    scrubAdvance s = s.modWeir fun w => { w with scrubPos := w.scrubPos + 1 } := by
  simp only [scrubAdvance, State.modWeir, if_neg (Nat.not_le.mpr more)]

theorem claims_scrubBurst : Claims.scrubBurst := by
  unfold Claims.scrubBurst
  intro scrubs
  have begun {a b : State} (passes : b = if a.weir.scrubPos = 0
      then a.modWeir fun w => { w with scrubFrom := some a.elapsed } else a) : b.weir.ce = a.weir.ce ∧ b.weir.ue = a.weir.ue ∧ b.weir.scrubPos = a.weir.scrubPos ∧
      b.weir.gib = a.weir.gib ∧ b.weir.scrubCorrected = a.weir.scrubCorrected ∧
      b.weir.scrubUncorrectable = a.weir.scrubUncorrectable := by
    subst passes
    split <;> exact ⟨rfl, rfl, rfl, rfl, rfl, rfl⟩
  have within {a b : State} (pos : b.weir.scrubPos = a.weir.scrubPos) (gib : b.weir.gib = a.weir.gib)
      (more : a.weir.scrubPos + 1 < burstCount a.weir) : b.weir.scrubPos + 1 < b.weir.gib * 2 ^ 25 := by
    rw [pos, gib]
    exact more
  refine ⟨Acts.of_meaning (scrub .clean) (fun _ _ => rfl) ?within, Acts.of_meaning (scrub .clean) (fun _ _ => rfl) ?first,
    Acts.of_meaning (scrub .clean) (fun _ _ => rfl) ?last, ActsSo.of_meaning (scrub .corrected) (fun _ _ => rfl) ?corrected,
    ActsSo.of_meaning (scrub .uncorrectable) (fun _ _ => rfl) ?uncorrectable,
    fun r => Acts.of_meaning (scrub r) (fun _ _ => rfl) ?idle⟩
  case within =>
    rintro a ⟨⟨store, size, due, more⟩, some_⟩
    rw [scrub_due .clean store size due]
    dsimp only
    rw [if_neg some_, scrubAdvance_within more]
  case first =>
    rintro a ⟨⟨store, size, due, more⟩, none_⟩
    rw [scrub_due .clean store size due]
    dsimp only
    rw [if_pos none_, scrubAdvance_within (by exact more)]
    simp only [State.modWeir, none_]
  case last =>
    rintro a ⟨store, size, due, last⟩
    have some_ : a.weir.scrubPos ≠ 0 := by
      unfold burstCount at last
      omega
    rw [scrub_due .clean store size due]
    dsimp only
    rw [if_neg some_]
    simp only [scrubAdvance, State.modWeir, if_pos last.ge]
  case corrected =>
    rintro a ⟨⟨store, size, due, more⟩, room⟩
    rw [scrub_due .corrected store size due]
    extract_lets s
    obtain ⟨ce, ue, pos, gib, corrected, -⟩ := begun (b := s) rfl
    dsimp only
    have told : (correctedRead .lpddr (s.modWeir fun w => { w with scrubCorrected := w.scrubCorrected + 1 })).weir =
        { s.weir with
          scrubCorrected := s.weir.scrubCorrected + 1, ce := if s.weir.ce = 0xFFFFFFFF then s.weir.ce else s.weir.ce + 1 } := by
      unfold correctedRead
      rw [post_eq_modLog]
      rfl
    generalize correctedRead _ _ = b at told ⊢
    rw [scrubAdvance_within (by rw [told]; exact within pos gib more)]
    simp only [State.modWeir, told, ce, ue, pos, corrected, if_neg room, and_self]
  case uncorrectable =>
    rintro a ⟨⟨store, size, due, more⟩, room⟩
    rw [scrub_due .uncorrectable store size due]
    extract_lets s
    obtain ⟨ce, ue, pos, gib, -, uncorrectable_⟩ := begun (b := s) rfl
    dsimp only
    have told : (uncorrectable (32 * s.weir.scrubPos) 0x6103 wide
        (s.modWeir fun w => { w with scrubUncorrectable := w.scrubUncorrectable + 1 })).weir = { s.weir with
          scrubUncorrectable := s.weir.scrubUncorrectable + 1
          ue := if s.weir.ue = 0xFFFFFFFF then s.weir.ue else s.weir.ue + 1
          ueAddr := BitVec.ofNat 64 (32 * s.weir.scrubPos), ueTimes := (s.elapsed :: s.weir.ueTimes).take 16 } := by
      unfold uncorrectable
      rw [post_eq_modLog]
      rfl
    generalize uncorrectable _ _ _ _ = b at told ⊢
    rw [scrubAdvance_within (by rw [told]; exact within pos gib more)]
    simp only [State.modWeir, told, ce, ue, pos, uncorrectable_, if_neg room, and_self]
  case idle =>
    intro a idle
    exact if_pos (.inr (.inr (by simp [idle])))

/-! ### Registers -/

theorem claims_weirShedRead : Claims.weirShedRead := by
  intro fn
  refine Acts.of_meaning (readRegister fn 0x8710 (readWeirShed fn)) (fun _ _ => rfl) fun a reached => ?_
  rw [readRegister_open _ reached (by decide) rfl]
  rfl

theorem claims_weirEccAddrLoRead : Claims.weirEccAddrLoRead := by
  intro fn
  refine Acts.of_meaning (readRegister fn 0x871C readEccAddr) (fun _ _ => rfl) fun a reached => ?_
  rw [readRegister_open _ reached (by decide) rfl]
  rfl

/-! ### Hampers -/

theorem claims_weirStatus : Claims.weirStatus := by
  refine Serves.of_ok weirStatusBody (fun _ _ _ => rfl) fun a h tail => ?_
  exact if_neg (by simp [tail])

theorem claims_weirShedOrder : Claims.weirShedOrder := by
  intro band
  refine Serves.of_ok weirShedOrderBody (fun _ _ _ => rfl) ?_
  rintro a h ⟨tail, bands, zero⟩
  have small : ((List.range 16).all fun f => fld h.payload f 1 ≤ 15) = true := by
    refine List.all_eq_true.mpr fun f within => ?_
    have named := bands ⟨f, List.mem_range.mp within⟩
    have := (band ⟨f, List.mem_range.mp within⟩).isLt
    simp only at named
    exact decide_eq_true (by omega)
  have order : shedOrderOf h.payload =
      some (Vector.ofFn fun f => (band f).val, BitVec.ofNat 16 (fld h.payload 16 2)) := by
    rw [shedOrderOf, if_pos ⟨small, zero⟩]
    congr 3
    exact funext fun f => bands f
  rw [weirShedOrderBody, order]
  exact if_neg (by simp [tail])

theorem record_append (xs ys : List (Nat × Nat)) : record (xs ++ ys) = record xs ++ record ys := List.flatMap_append

theorem sDemand_append_p (w : Weir) (st : Store) (fs : List Flow) {f : Flow} (cls : f.cls = .p) :
    sDemand w st (fs ++ [f]) = sDemand w st fs := by
  simp [sDemand, List.filter_append, cls]

theorem pDemand_append_p (w : Weir) (fs : List Flow) {f : Flow} (cls : f.cls = .p) (store : f.store = .millpond) :
    pDemand w .millpond (fs ++ [f]) = pDemand w .millpond fs + f.demand := by
  simp [pDemand, List.filter_append, cls, flowDemand, store]

theorem claims_weirCheck : Claims.weirCheck := by
  unfold Claims.weirCheck
  intro total ordinary
  have checked {a : State} {h : Hamper} (met : ordinary a h) : weirCheckBody a h = .ok a
      (if 245760000 < total a h then
        record [(1, 0), (3, 0), (1, 1), (1, 1), (1, 0), (1, 0), (4, 245760), (4, mbps (total a h)),
          (4, mbps (total a h) - 245760)]
      else record [(1, 1), (3, 0), (1, 1), (1, 1), (1, 0), (1, 0), (4, 245760), (4, mbps (total a h)), (4, 0)]) := by
    obtain ⟨tail, store, cls, scope, zero1, zero2, fits⟩ := met
    unfold weirCheckBody
    extract_lets p st d w c f fs now sd t body
    have pond : st = .millpond := if_neg (by simp [p, store])
    have low : c = .p := if_neg (by simp [p, cls])
    have fixed : sd = sDemand a.weir .millpond (heldFlows a.weir) := by
      unfold sd fs
      rw [sDemand_append_p w st (heldFlows w) (f := f) low, pond]
    have asked : t = total a h := by
      unfold t
      rw [fixed]
      unfold fs
      rw [pond, pDemand_append_p w (heldFlows w) (f := f) low pond, ← Nat.add_assoc]
    have free : now = 245760000 := by
      unfold now
      rw [pond, show fld p 2 1 = 0 from scope, if_neg (by decide)]
      rfl
    rw [if_neg (by simp [p, tail, store, cls, scope, zero1, zero2])]
    have answer_ : body = if 245760000 < total a h
        then (0, refusal .millpond 1 0 0 (mbps 245760000) (mbps (total a h)))
        else (1, record [(1, 1), (1, 1), (1, 0), (1, 0), (4, mbps 245760000), (4, mbps (total a h)), (4, 0)]) := by
      unfold body
      rw [if_neg (by rw [fixed, pond]; exact Nat.not_lt.mpr fits), asked, free, pond, show fld p 0 1 = 1 from store]
    rw [answer_, show mbps 245760000 = 245760 from by decide]
    split
    · exact congrArg (Verdict.ok a) (record_append ..).symm
    · exact congrArg (Verdict.ok a) (record_append ..).symm
  refine ⟨Serves.of_ok weirCheckBody (fun _ _ _ => rfl) ?fits, Serves.of_ok weirCheckBody (fun _ _ _ => rfl) ?exceeds⟩
  case fits =>
    rintro a h ⟨met, fits⟩
    rw [checked met, if_neg (Nat.not_lt.mpr fits)]
  case exceeds =>
    rintro a h ⟨met, exceeds⟩
    rw [checked met, if_pos exceeds]

theorem claims_weirScrub : Claims.weirScrub := by
  refine Serves.of_ok weirScrubBody (fun _ _ _ => rfl) ?_
  rintro a h ⟨tail, period, flag_, zero⟩
  unfold weirScrubBody
  extract_lets p w
  rw [if_neg (by simp [p, tail, zero, Nat.not_lt.mpr period, Nat.not_lt.mpr flag_])]
  congr 1
  have either : fld h.payload 2 1 = 0 ∨ fld h.payload 2 1 = 1 := by omega
  rcases either with off | on
  · simp [State.modWeir, p, off, bit]
  · simp [State.modWeir, p, on, bit]

/-- Settles O49: the timers of the marks, the scrubber's next burst, and each answer of Weir. -/
theorem weirMarksAndHampers : Obligations.WeirMarksAndHampers := by
  unfold Obligations.WeirMarksAndHampers
  exact ⟨claims_serveRestoreTimer, claims_sFaultClearTimer, claims_scrubBurst, claims_weirShedRead,
    claims_weirEccAddrLoRead, claims_weirStatus, claims_weirShedOrder, claims_weirCheck, claims_weirScrub⟩

end Sys2Proof.Machine
end

section
/-! SUPPORT. Pyramid and decode jobs are submitted, cancelled and ended (R345 to R375, R468). -/

namespace Sys2Proof.Machine

/-! ### Pyramid jobs -/

theorem claims_pyramidSubmit : Claims.pyramidSubmit := by
  intro q
  refine ⟨?buffer, fun n => ?binding⟩
  case buffer =>
    intro job
    refine Serves.of_ok pyramidSubmitBody (fun _ _ _ => rfl) ?_
    rintro a h ⟨kind, queue, owned, good, room, may⟩
    unfold pyramidSubmitBody
    extract_lets p
    rw [fin?_eq queue]
    dsimp only
    rw [if_neg (not_not_intro owned), if_pos kind, pyrBufferBody]
    dsimp only
    rw [if_neg (by rw [good]; exact Bool.noConfusion), if_neg (not_or.mpr ⟨Nat.not_le.mpr room, not_not_intro may⟩)]
  case binding =>
    intro pool desc asked flow base
    refine Serves.of_ok pyramidSubmitBody (fun _ _ _ => rfl) ?_
    rintro a h ⟨kind, queue, owned, stream, ownedS, open_, unbound, store, good, load, admitted⟩
    have free : (a.prep.bindings.any fun b => b.stream = n) = false :=
      List.any_eq_false.mpr fun b held => by simpa using unbound b held
    unfold pyramidSubmitBody
    extract_lets p
    rw [fin?_eq queue]
    dsimp only
    rw [if_neg (not_not_intro owned), if_neg (by rw [show fld p 0 1 = 1 from kind]; decide), if_pos kind, fin?_eq stream]
    dsimp only
    unfold pyrBindBody
    extract_lets c lp d slots bytes dst b f
    have fits : ¬ pyramidCapacity < bindingsLoad a + bindingLoad d c.maxFps := Nat.not_lt.mpr load
    rw [if_neg (not_not_intro ownedS), if_neg (by simp [free, isOpen_iff.mpr open_, -Fin.getElem_fin]),
      if_neg fun ⟨on, off⟩ => store on off, if_neg (by rw [show pyrBindBad a h d = false from good]; exact Bool.noConfusion),
      if_neg fits, show admission a.weir [f] = none from admitted] <;> rfl

theorem cancelPyrJob_unknown {q : Fin 32} {a : State} {fn : Fn} {job : Word}
    (none_ : ∀ j ∈ a.prep.jobs, ¬ (j.fn = fn ∧ j.queue = q ∧ j.job = job)) : cancelPyrJob fn q job a = (2, a) := by
  have missing : (a.prep.jobs.findIdx? fun j => j.fn = fn ∧ j.queue = q ∧ j.job = job) = none :=
    List.findIdx?_eq_none_iff.mpr fun j held => decide_eq_false (none_ j held)
  rw [cancelPyrJob, missing]

theorem claims_pyramidCancel : Claims.pyramidCancel := by
  intro q
  refine ⟨Serves.of_ok pyramidCancelBody (fun _ _ _ => rfl) ?job, fun n => Serves.of_ok pyramidCancelBody (fun _ _ _ => rfl) ?binding,
    fun a fn job => cancelPyrJob_unknown⟩
  case job =>
    rintro a h ⟨kind, queue, owned, tail, zero⟩
    unfold pyramidCancelBody
    extract_lets p
    rw [fin?_eq queue]
    dsimp only
    rw [if_neg (not_not_intro owned), if_pos kind, if_neg (by simp [p, tail, zero])]
  case binding =>
    rintro a h ⟨kind, queue, owned, stream, ownedS, tail, zero, b, bound, named⟩
    have held : (a.prep.bindings.any fun b => b.stream = n) = true :=
      List.any_eq_true.mpr ⟨b, bound, decide_eq_true named⟩
    unfold pyramidCancelBody
    extract_lets p
    rw [fin?_eq queue]
    dsimp only
    rw [if_neg (not_not_intro owned), if_neg (by rw [show fld p 0 1 = 1 from kind]; decide), if_pos kind, fin?_eq stream]
    dsimp only
    rw [if_neg (not_not_intro ownedS), if_neg (by simp [p, tail, zero]), if_pos held]

theorem claims_pyramidPassEnd : Claims.pyramidPassEnd := by
  intro input ecc i j runs broken read
  have passes {a : State} (met : runs a) : pyramidPass input ecc a =
      if (passStore j).1.isSome ∧ ecc.uncorrectable.isSome then pyrBusError i (read a)
      else if j.pass = 1 then
        match passInput j input (read a) with
        | some lines =>
          let r := passOne j (level0 j.desc lines) (levelSize j.desc 0).2 (read a)
          passDone i r.1 r.2
        | none => pyrBusError i (read a)
      else
        match passLevel j input (read a) with
        | some rows =>
          let z := levelSize j.desc (j.pass - 1)
          let out := levelOut j.desc j.pass (nextLevel z.1 z.2 rows)
          passDone i out.length (pyrWrite j (levelOffset j.desc j.pass) out (read a))
        | none => pyrBusError i (read a) := by
    rw [pyramidPass, met.1]
    dsimp only
    rw [met.2] <;> rfl
  have breaks : ((passStore j).1.isSome ∧ ecc.uncorrectable.isSome) ↔ broken = true := by
    rw [show broken = ((passStore j).1.isSome && ecc.uncorrectable.isSome) from rfl, Bool.and_eq_true]
  refine ⟨fun lines one whole => Acts.of_meaning (pyramidPass input ecc) (fun _ _ => rfl) ?first,
    fun rows later whole => Acts.of_meaning (pyramidPass input ecc) (fun _ _ => rfl) ?next,
    Acts.of_meaning (pyramidPass input ecc) (fun _ _ => rfl) ?fails⟩
  case first =>
    rintro a ⟨met, given⟩
    rw [passes met, if_neg (by rw [breaks, whole]; exact Bool.noConfusion), if_pos one, given]
  case next =>
    rintro a ⟨met, given⟩
    rw [passes met, if_neg (by rw [breaks, whole]; exact Bool.noConfusion), if_neg later, given]
  case fails =>
    rintro a ⟨met, fails⟩
    rw [passes met]
    by_cases bad : broken = true
    · rw [if_pos (breaks.mpr bad)]
    · rw [if_neg (mt breaks.mp bad)]
      rcases fails with bad' | ⟨one, missing⟩ | ⟨later, missing⟩
      · exact absurd bad' bad
      · rw [if_pos one, missing]
      · rw [if_neg later, missing]

theorem claims_pyrDroppedRead : Claims.pyrDroppedRead := by
  intro fn
  refine Acts.of_meaning (readRegister fn 0x8604 (readPyrDropped fn)) (fun _ _ => rfl) fun a reached => ?_
  rw [readRegister_open _ reached (by decide) rfl]
  rfl

/-! ### Decode jobs -/

theorem claims_decodeSubmit : Claims.decodeSubmit := by
  intro q job
  refine Serves.of_ok decodeSubmitBody (fun _ _ _ => rfl) ?_
  rintro a h ⟨queue, owned, tail, zero, bufferA, bufferB, most, least, room, may⟩
  unfold decodeSubmitBody
  extract_lets p x y
  rw [fin?_eq queue]
  dsimp only
  rw [if_neg (not_not_intro owned), if_neg (by
      simp [p, x, y, tail, zero, bufferA, bufferB, Nat.not_lt.mpr most, Nat.not_lt.mpr least]),
    if_neg (not_or.mpr ⟨Nat.not_le.mpr room, not_not_intro may⟩)]

theorem claims_decodeCancel : Claims.decodeCancel := by
  intro q j i mine
  refine ⟨Serves.of_ok decodeCancelBody (fun _ _ _ => rfl) ?running, Serves.of_ok decodeCancelBody (fun _ _ _ => rfl) ?queued⟩
  case running =>
    rintro a h ⟨kind, queue, owned, tail, zero, runs, same⟩
    unfold decodeCancelBody
    extract_lets p job
    rw [fin?_eq queue]
    dsimp only
    rw [if_neg (not_not_intro owned), if_neg (by simp [p, tail, zero, kind]), if_pos (by rw [runs]; exact same)]
    simp only [State.modPrep, runs, Option.map_some]
  case queued =>
    rintro a h ⟨kind, queue, owned, tail, zero, other, place⟩
    unfold decodeCancelBody
    extract_lets p job
    rw [fin?_eq queue]
    dsimp -zeta only
    extract_lets mine'
    rw [if_neg (not_not_intro owned), if_neg (by simp [p, tail, zero, kind]),
      if_neg (by rw [show a.prep.decRun.any mine' = false from other]; exact Bool.noConfusion),
      show a.prep.decQueue.findIdx? mine' = some i from place]

theorem claims_decodeJobEnd : Claims.decodeJobEnd := by
  intro input ecc j bytes broken read given r
  have runs {a : State} (met : a.prep.decRun = some j) : decodeJobEnds input ecc a =
      match given a with
      | none => decBusError j (read a)
      | some bytes =>
        let full := cborDecode ((j.output.2.2 - 32) / 16) bytes
        let (r, s) := if j.stopping then
            (let d := draw (read a)
             (cborCut full (d.1 % (full.topItems + 1)), d.2))
          else (full, read a)
        let s := deliver j.fn j.output.2.1 j.output.1 (cborOutput r) s
        if r.error = 0 then decEnd j stOk r.items.length s
        else decEnd j stAborted r.errorOff (post 0xB201 j.fn wide s) := by
    have failed : ((if j.input.2.1 = true then some Store.millpond else none).isSome ∧ ecc.uncorrectable.isSome) ↔
        broken = true := by
      rw [show broken = (j.input.2.1 && ecc.uncorrectable.isSome) from rfl, Bool.and_eq_true]
      cases j.input.2.1 <;> simp
    rw [decodeJobEnds, met]
    dsimp only
    simp only [failed]
    rfl
  refine ⟨fun goesOn good => Acts.of_meaning (decodeJobEnds input ecc) (fun _ _ => rfl) ?ends,
    fun goesOn bad => Acts.of_meaning (decodeJobEnds input ecc) (fun _ _ => rfl) ?fails,
    Acts.of_meaning (decodeJobEnds input ecc) (fun _ _ => rfl) ?lost⟩
  case ends =>
    rintro a ⟨met, decoded⟩
    rw [runs met, decoded]
    dsimp only
    rw [goesOn]
    exact if_pos good
  case fails =>
    rintro a ⟨met, decoded⟩
    rw [runs met, decoded]
    dsimp only
    rw [goesOn]
    exact if_neg bad
  case lost =>
    rintro a ⟨met, missing⟩
    rw [runs met, missing]

/-! ### Quiet and stalls -/

theorem claims_prepQuiet : Claims.prepQuiet := by
  intro fn i e
  refine Acts.of_meaning (prepQuiet fn) (fun _ _ => rfl) ?_
  rintro a ⟨place, ended⟩
  rw [prepQuiet, place]
  dsimp only
  rw [ended]

/-- An audio input without the hop in progress and the records not yet written. -/
def Audio.dropped (a : Audio) : Audio :=
  { a with frames := [], before := [], hopStart := none, hopFs := none, submitted := false, ready := none }

theorem vmod_both {α : Type} (v : Vector α 2) (f : α → α) (k : Fin 2) : (vmod (vmod v 0 f) 1 f)[k] = f v[k] := by
  match k with
  | 0 => exact (vmod_other _ _ _ _ (by decide)).trans (vmod_get ..)
  | 1 => exact (vmod_get ..).trans (congrArg f (vmod_other _ _ _ _ (by decide)))

theorem dropHop_audio (i : Fin 2) (status : Nat) (s : State) :
    (dropHop i status s).audio = vmod s.audio i Audio.dropped := by
  unfold dropHop
  extract_lets a hop s1
  have all : Sub 0x280000092 0x280000092 := Sub.refl _
  split
  · exact (Keeps.foldl (m := 0x280000092) (fun s k h => keeps_finishJob _ _ h all) (Keeps.refl _ s1)).within.audio rfl
  · rfl

theorem claims_engineStallReset : Claims.engineStallReset := by
  have all : Sub 0x280000092 0x280000092 := Sub.refl _
  refine ⟨ActsSo.of_meaning (engineStall .pyramid) (fun _ _ => rfl) ?pyramid,
    ActsSo.of_meaning (engineStall .decoder) (fun _ _ => rfl) ?decoder,
    ActsSo.of_meaning (engineStall .audio) (fun _ _ => rfl) ?audio⟩
  case pyramid =>
    rintro a ⟨⟨j, held, runs⟩, old⟩
    have stalled : (a.prep.jobs.any PyrJob.running && since a (some a.prep.pyrAt) (ticksMs 100)) = true := by
      rw [since_some, decide_eq_true old, List.any_eq_true.mpr ⟨j, held, runs⟩]
      rfl
    have resets : engineStall .pyramid a = pyramidReset (post 0xB105 wide wide a) := if_pos stalled
    rw [resets]
    unfold pyramidReset
    extract_lets jobs s1 s2
    have left : s1.prep = { a.prep with jobs := [] } := by
      unfold s1
      rw [post_eq_modLog]
      rfl
    have ended : s2.prep = s1.prep :=
      (Keeps.foldl (m := 0x280000092) (fun s k h => keeps_finishJob _ _ h all) (Keeps.refl _ s1)).within.prep rfl
    have kept : (resetWaits 7 s2).prep = { a.prep with jobs := [] } :=
      ((keeps_resetWaits (msk := 0x2A0000092) 7 (Keeps.refl _ s2) rfl).within.prep rfl).trans (ended.trans left)
    rw [kept]
    exact ⟨rfl, rfl⟩
  case decoder =>
    rintro a ⟨runs, old⟩
    have stalled : ((a.prep.decRun.isSome || a.accepted.any fun x => [0x0220, 0x0404, 0x0B04].contains x.op) &&
        since a (some a.prep.decAt) (ticksMs 100)) = true := by
      rw [since_some, decide_eq_true old, runs]
      rfl
    have resets : engineStall .decoder a = decoderReset (post 0xB203 wide wide a) := if_pos stalled
    rw [resets]
    unfold decoderReset
    extract_lets jobs s1 s2 open_
    have ended : s2.prep = s1.prep :=
      (Keeps.foldl (m := 0x280000092) (fun s k h => keeps_finishJob _ _ h all) (Keeps.refl _ s1)).within.prep rfl
    have wide_ : Sub 0x2800000B2 0x2800000B2 := Sub.refl _
    rw [(Keeps.foldl (m := 0x2800000B2) (fun s k h => keeps_hamperDone _ _ _ _ h wide_) (Keeps.refl _ s2)).within.prep rfl,
      ended]
    exact ⟨rfl, rfl⟩
  case audio =>
    rintro a ⟨⟨i, runs, hop⟩, old⟩
    have stalled : ((allFin 2).any (fun i => (a.audio[i]).mode == .running && (a.audio[i]).hopStart.isSome) &&
        since a (some a.prep.audAt) (ticksMs 100)) = true := by
      rw [since_some, decide_eq_true old, List.any_eq_true.mpr ⟨i, List.mem_finRange i, by rw [runs, hop]; rfl⟩]
      rfl
    have resets : engineStall .audio a = audioReset (post 0xB306 wide wide a) := if_pos stalled
    have dropped (k : Fin 2) : (audioReset (post 0xB306 wide wide a)).audio[k] = (a.audio[k]).dropped := by
      have both : (audioReset (post 0xB306 wide wide a)).audio = vmod (vmod a.audio 0 Audio.dropped) 1 Audio.dropped :=
        (dropHop_audio 1 stUnitReset _).trans (congrArg (vmod · 1 Audio.dropped)
          ((dropHop_audio 0 stUnitReset _).trans (by rw [post_eq_modLog]; rfl)))
      rw [both, vmod_both]
    intro k
    rw [resets, dropped]
    exact ⟨rfl, rfl, rfl, rfl⟩

/-- Settles O46: each job's submission, cancellation and end, and what a stalled engine's reset drops. -/
theorem pyramidsAndDecoder : Obligations.PyramidsAndDecoder := by
  unfold Obligations.PyramidsAndDecoder
  exact ⟨claims_pyramidSubmit, claims_pyramidCancel, claims_pyramidPassEnd, claims_pyrDroppedRead, claims_decodeSubmit,
    claims_decodeCancel, claims_decodeJobEnd, claims_prepQuiet, claims_engineStallReset⟩

end Sys2Proof.Machine
end

section
/-! SUPPORT. The witness sampler samples, fires, ends and delivers (R113, R123, R126, R439 to R456). -/

namespace Sys2Proof.Machine

/-! ### What operations leave of the sampler -/

theorem witEntry_wit (status flags count : Nat) (s : State) : (witEntry status flags count s).wit = s.wit :=
  (keeps_witEntry (msk := 0x280000092) status flags count (Keeps.refl _ s) rfl).within.wit rfl

theorem deliver_wit (fn : Fn) (mill : Bool) (addr : Nat) (bytes : List Byte) (s : State) :
    (deliver fn mill addr bytes s).wit = s.wit :=
  (keeps_deliver (msk := 0x280000000) fn mill addr bytes (Keeps.refl _ s) rfl).within.wit rfl

theorem tdcEdge_kept (line : TdcLine) (step : Nat) (s : State) :
    (tdcEdge line step s).2.wit = s.wit ∧ (tdcEdge line step s).2.elapsed = s.elapsed := by
  have kept : Keeps 0x480 s (tdcEdge line step s).2 := keeps_tdcEdge line step (Keeps.refl _ s) rfl
  exact ⟨kept.within.wit rfl, kept.within.elapsed⟩

/-! ### Captures end -/

theorem witEnd_wit (mode : WitMode) (status flags : Nat) (s : State) :
    (witEnd mode status flags s).wit.mode = mode ∧ (witEnd mode status flags s).wit.overflow = s.wit.overflow ∧
    (witEnd mode status flags s).wit.cause = s.wit.cause ∧ (witEnd mode status flags s).wit.cfg = s.wit.cfg ∧
    (witEnd mode status flags s).wit.raw = s.wit.raw ∧ (witEnd mode status flags s).wit.level = s.wit.level ∧
    (witEnd mode status flags s).wit.aborted = (status == stAborted) ∧
    (witEnd mode status flags s).wit.delivered = false ∧
    (witEnd mode status flags s).wit.delivering = s.wit.route.isSome ∧
    (witEnd mode status flags s).wit.capture = s.wit.capture ∧
    (witEnd mode status flags s).wit.endAt = some (hold s (now s)) := by
  unfold witEnd
  extract_lets w kept inSpan s1
  rw [witEntry_wit]
  exact ⟨rfl, rfl, rfl, rfl, rfl, rfl, rfl, rfl, rfl, rfl, rfl⟩

theorem witOverflow_wit (cause event : Nat) (s : State) :
    (witOverflow cause event s).wit.mode = .stopped ∧ (witOverflow cause event s).wit.overflow = true ∧
    (witOverflow cause event s).wit.cause = cause ∧ (witOverflow cause event s).wit.cfg = s.wit.cfg ∧
    (witOverflow cause event s).wit.raw = s.wit.raw ∧ (witOverflow cause event s).wit.level = s.wit.level := by
  unfold witOverflow
  extract_lets s1
  have marked : s1.wit = { s.wit with overflow := true, cause := cause } := post_wit ..
  obtain ⟨mode, lost, why, cfg, raw, level, -⟩ := witEnd_wit .stopped stOverflow (fLast ||| fOverflow) s1
  rw [marked] at lost why cfg raw level
  exact ⟨mode, lost, why, cfg, raw, level⟩

theorem claims_witnessCaptureEnd : Claims.witnessCaptureEnd := by
  refine ⟨Acts.of_meaning captureEnds (fun _ _ => rfl) fun a met => if_pos met, fun a => ?_⟩
  extract_lets t
  obtain ⟨mode, -, -, -, -, -, aborted, delivered, delivering, capture, endAt⟩ := witEnd_wit .captured stOk fLast a
  exact ⟨mode, aborted, delivered, delivering, capture, endAt⟩

theorem claims_witnessDeliveryEnd : Claims.witnessDeliveryEnd := by
  intro r
  refine ⟨Acts.of_meaning (deliveryEnds true) (fun _ _ => rfl) ?ends, ActsSo.of_meaning (deliveryEnds false) (fun _ _ => rfl) ?fails⟩
  case ends =>
    rintro a ⟨delivers, route⟩
    rw [deliveryEnds, delivers, route]
    rfl
  case fails =>
    rintro a ⟨delivers, route⟩
    unfold deliveryEnds
    rw [delivers, route]
    dsimp only
    rw [if_neg Bool.noConfusion, post_wit, witEntry_wit]
    dsimp only [State.modWit]
    rw [deliver_wit]
    exact ⟨rfl, rfl, rfl, rfl, rfl⟩

/-! ### Units -/

theorem claims_witnessUnitTimeout : Claims.witnessUnitTimeout := by
  intro k u r stamp
  refine Acts.of_meaning (unitTimesOut k) (fun _ _ => rfl) ?_
  rintro a ⟨unit, kind, line, on, above, first, rose, over_⟩
  rw [unitTimesOut, unit]
  dsimp only
  rw [rose]
  dsimp only
  rw [if_pos ⟨on, kind, line, above, by simp [first, -Fin.getElem_fin], over_⟩, setTrack, fin?_val]

/-- Units that are off feed nothing. -/
theorem feedAnalog_off {s : State} (input code : Nat) (h : Held) (off : ∀ u ∈ s.wit.cfg.units, u.kind = 0) :
    feedAnalog input code h s = s := by
  unfold feedAnalog
  refine List.foldlRecOn (motive := fun t => t = s) _ _ rfl ?_
  rintro t rfl k -
  split
  case h_1 u unit => exact if_neg fun on => on.1 (off u (List.mem_of_getElem? unit))
  case h_2 => rfl

/-! ### Conversions -/

theorem storeTick_whole {n : Nat} {h : Held} {samples : List (Nat × Nat)} {s : State}
    (whole : s.wit.cfg.reduced = false) : storeTick n h samples s =
      storePlace ⟨n, h, s.wit.rawLevel, samples.map fun x => analogWord x.1 x.2⟩ s :=
  if_neg (by simp [whole])

theorem claims_adcConversion : Claims.adcConversion := by
  intro c0 c1 i j drained place fills stores
  have converts {a : State} (met : stores a) : ∃ b next0 next1 codes,
      b.wit = { a.wit with
        mode := .armed, tick := a.wit.tick + 1, tickAt := some (hold a (now a)), next0 := next0, next1 := next1
        codes := codes, fifo := if a.wit.mode = .pending then 0 else a.wit.fifo } ∧
      adcConverts (some c0) (some c1) drained a =
        if fills a ≤ 2048 then storePlace (place a) (b.modWit fun w => { w with fifo := fills a })
        else witOverflow 1 0x7101 b := by
    obtain ⟨tick, mode, on, idle, whole, off, sample0, sample1⟩ := met
    unfold adcConverts
    extract_lets w h sample samples s1 s2 s3 s4
    have two : samples = [(i, c0.toNat), (j, c1.toNat)] := by
      unfold samples sample
      rw [sample0, sample1]
      rfl
    have armed : s2.wit = { s1.wit with mode := .armed, fifo := if a.wit.mode = .pending then 0 else a.wit.fifo } := by
      unfold s2
      rcases mode with mode | mode
      · rw [if_neg fun e => WitMode.noConfusion (mode.symm.trans e.1), if_neg (by rw [mode]; exact WitMode.noConfusion),
          ← mode]
        rfl
      · rw [if_pos ⟨mode, on⟩, if_pos mode]
        rfl
    have told : s3.wit = s2.wit := by
      unfold s3
      split
      · exact post_wit ..
      · rfl
    refine ⟨s3, _, _, _, told.trans armed, ?_⟩
    have runs : s2.wit.storing = true ∧ ¬ s2.wit.complete = true := by
      rw [armed]
      constructor
      · simp [Wit.storing, on, s1, State.modWit]
      · simp [Wit.complete, idle, s1, State.modWit]
    have cfg : s3.wit.cfg = a.wit.cfg := by
      rw [told, armed]
      rfl
    have words : s3.wit.takeWords drained samples.length =
        if fills a ≤ 2048 then some { s3.wit with fifo := fills a } else none := by
      rw [two, Wit.takeWords, told, armed]
      rfl
    have done : s4 = if fills a ≤ 2048 then storePlace (place a) (s3.modWit fun w => { w with fifo := fills a })
        else witOverflow 1 0x7101 s3 := by
      unfold s4
      rw [if_pos runs, words]
      by_cases fits : fills a ≤ 2048
      · rw [if_pos fits, if_pos fits]
        dsimp only
        have raw : Wit.rawLevel { s3.wit with fifo := fills a } = a.wit.rawLevel := by
          rw [told, armed]
          rfl
        refine (storeTick_whole (by rw [show (s3.modWit _).wit.cfg = s3.wit.cfg from rfl, cfg]; exact whole)).trans ?_
        rw [two]
        exact congrArg (fun v => storePlace ⟨w.tick, h, v, _⟩ _) raw
      · rw [if_neg fits, if_neg fits]
    rw [if_neg (not_not_intro tick), two]
    have units : s4.wit.cfg = a.wit.cfg := by
      rw [done]
      split
      · exact cfg
      · exact (witOverflow_wit ..).2.2.2.1.trans cfg
    have quiet (x : Nat × Nat) : feedAnalog x.1 x.2 h s4 = s4 := feedAnalog_off _ _ _ (by rw [units]; exact off)
    rw [← done, List.foldl_cons, List.foldl_cons, List.foldl_nil, quiet, quiet]
  refine ⟨ActsSo.of_meaning (adcConverts (some c0) (some c1) drained) (fun _ _ => rfl) ?stored,
    ActsSo.of_meaning (adcConverts (some c0) (some c1) drained) (fun _ _ => rfl) ?overflow,
    fun x y => Acts.of_meaning (adcConverts x y drained) (fun _ _ => rfl) ?off⟩
  case stored =>
    rintro a ⟨met, fits⟩
    obtain ⟨b, next0, next1, codes, armed, converted⟩ := converts met
    rw [converted, if_pos fits]
    simp only [storePlace, State.modWit, armed]
    exact ⟨rfl, rfl, rfl, rfl, rfl, rfl⟩
  case overflow =>
    rintro a ⟨met, full⟩
    obtain ⟨b, next0, next1, codes, armed, converted⟩ := converts met
    rw [converted, if_neg (Nat.not_le.mpr full)]
    obtain ⟨mode, lost, why, -⟩ := witOverflow_wit 1 0x7101 b
    exact ⟨mode, lost, why⟩
  case off =>
    intro a off
    exact if_pos (by simp [off])

/-! ### Edges -/

/-- A line whose filtered level is the raw one stays as it is. -/
theorem dwFilter_settled {line : Fin 16} {s : State} (t : Nat)
    (same : (s.wit.raw[line]).level = s.wit.level.getLsbD line) : dwFilter line t s = s := by
  have level : (s.wit.raw[line]).filter s.wit.cfg.glitch t (s.wit.level.getLsbD line) = s.wit.level.getLsbD line := by
    unfold RawLine.filter
    rw [same, ite_self]
  exact if_pos level

/-- A line that has not shown its level for long enough stays as it is. -/
theorem dwFilter_recent {line : Fin 16} {s : State} {t : Nat} (recent : t < (s.wit.raw[line]).since + s.wit.cfg.glitch) :
    dwFilter line t s = s :=
  if_pos (if_neg (Nat.not_le.mpr recent))

/-- A line that has shown another level for long enough takes it; without a configuration nothing follows. -/
theorem dwFilter_takes {line : Fin 16} {s : State} {t : Nat} (off : s.wit.mode = .unconfigured)
    (late : (s.wit.raw[line]).since + s.wit.cfg.glitch ≤ t)
    (other : (s.wit.raw[line]).level ≠ s.wit.level.getLsbD line) :
    dwFilter line t s = s.modWit fun w => { w with level := w.level ^^^ BitVec.ofNat 16 (2 ^ line.val) } := by
  have level : ¬ (s.wit.raw[line]).filter s.wit.cfg.glitch t (s.wit.level.getLsbD line) = s.wit.level.getLsbD line := by
    unfold RawLine.filter
    rwa [if_pos late]
  unfold dwFilter
  dsimp only
  rw [if_neg level]
  exact if_pos off

/-- The state once a raw edge of a line has its stamp. -/
def rawMoved (line : Fin 16) (ball : Line) (s : State) : State :=
  (tdcEdge (.dw line) ball.step s).2.modWit fun w => { w with
    raw := w.raw.set line ⟨ball.level, s.elapsed, (tdcEdge (.dw line) ball.step s).1.held?⟩ }

theorem rawMoved_wit (line : Fin 16) (ball : Line) (s : State) : (rawMoved line ball s).wit = { s.wit with
    raw := s.wit.raw.set line ⟨ball.level, s.elapsed, (tdcEdge (.dw line) ball.step s).1.held?⟩ } := by
  unfold rawMoved
  dsimp only [State.modWit]
  rw [(tdcEdge_kept ..).1]

theorem dwMoves_edge {line : Fin 16} {ball : Line} {a : State} (runs : mainRuns a = true)
    (settled : (a.wit.raw[line]).level = a.wit.level.getLsbD line) (other : ball.level ≠ (a.wit.raw[line]).level) :
    dwMoves line ball a = dwFilter line a.elapsed (dwGlitch line ball.level
      (dwRecord line (tdcEdge (.dw line) ball.step a).1 ball.level (rawMoved line ball a))) := by
  unfold dwMoves
  rw [if_neg (not_not_intro runs)]
  dsimp only
  rw [dwFilter_settled _ settled, if_neg other, rawMoved]
  simp only [State.modWit, (tdcEdge_kept (.dw line) ball.step a).2]

theorem rawEdge_wit (s : State) : ∃ head, (rawEdge s).wit = { s.wit with edgeHead := head } := by
  unfold rawEdge
  extract_lets c
  split
  · exact ⟨s.wit.edgeHead, rfl⟩
  · exact ⟨_, rfl⟩

/-- An edge for which the ring has room goes behind the others (R442). -/
theorem storeEdge_room {s : State} (e : WitEdge) (room : s.wit.edges.length < s.wit.cfg.edgePlaces) :
    ∃ head, (storeEdge e s).wit = { s.wit with edges := s.wit.edges ++ [e], edgeHead := head } := by
  obtain ⟨head, moved⟩ := rawEdge_wit s
  refine ⟨head, ?_⟩
  unfold storeEdge
  extract_lets s1 w full t0
  have same : s1.wit = { s.wit with edgeHead := head } := moved
  have free : full = false := by
    refine decide_eq_false (Nat.not_le.mpr ?_)
    rw [show w = s1.wit from rfl, same]
    exact room
  have edges : w.edges = s.wit.edges := by
    rw [show w = s1.wit from rfl, same]
  rw [edges, free]
  cases held : s.wit.edges with
  | nil =>
    show { s1.wit with edges := [e] } = _
    rw [same]
    rfl
  | cons old rest =>
    have all : s1.wit.edges = old :: rest := edges.trans held
    show { s1.wit with edges := s1.wit.edges ++ [e] } = _
    rw [all, same]

theorem dwRecord_storing {line : Fin 16} {s : State} (answer : TdcAnswer) (level : Bool)
    (chosen : s.wit.cfg.dw.getLsbD line = true) (on : s.wit.storing = true) : dwRecord line answer level s =
      match answer with
      | .full => witOverflow 2 0x7102 s
      | .dense => post 0x7203 wide wide (s.modWit fun w => { w with
          dense := w.dense + 1, denseOwed := w.denseOwed ||| BitVec.ofNat 16 (2 ^ line.val) })
      | .stamped h => storeEdge ⟨h, line, s.wit.denseOwed.getLsbD line, level⟩ (s.modWit fun w => { w with
          denseOwed := w.denseOwed &&& ~~~ BitVec.ofNat 16 (2 ^ line.val) }) := by
  exact (if_neg (not_not_intro ⟨chosen, on⟩)).trans (by cases answer <;> rfl)

theorem lineMark_bit : ∀ l : Fin 16, (BitVec.ofNat 16 (2 ^ l.val)).getLsbD l = true := by decide

theorem claims_dwEdge : Claims.dwEdge := by
  intro l ball h settled edge mark
  have recorded {a : State} (met : edge a) (u : State)
      (record_ : dwRecord l (tdcEdge (.dw l) ball.step a).1 ball.level (rawMoved l ball a) = u)
      (raw : u.wit.raw = (rawMoved l ball a).wit.raw) (level : u.wit.level = a.wit.level)
      (cfg : u.wit.cfg = a.wit.cfg) : dwMoves l ball a = u := by
    obtain ⟨⟨runs, settled, other⟩, glitch, -, -⟩ := met
    have quiet : dwGlitch l ball.level u = u :=
      if_neg fun e => other ((e.2.symm.trans (by rw [level])).trans settled.symm)
    have since : (u.wit.raw[l]).since = a.elapsed := by
      rw [raw, rawMoved_wit]
      simp
    rw [dwMoves_edge runs settled other, record_, quiet, dwFilter_recent]
    rw [since, cfg]
    omega
  have records {a : State} (met : edge a) : dwRecord l (tdcEdge (.dw l) ball.step a).1 ball.level (rawMoved l ball a) =
      match (tdcEdge (.dw l) ball.step a).1 with
      | .full => witOverflow 2 0x7102 (rawMoved l ball a)
      | .dense => post 0x7203 wide wide ((rawMoved l ball a).modWit fun w => { w with
          dense := w.dense + 1, denseOwed := w.denseOwed ||| mark })
      | .stamped h => storeEdge ⟨h, l, (rawMoved l ball a).wit.denseOwed.getLsbD l, ball.level⟩
          ((rawMoved l ball a).modWit fun w => { w with denseOwed := w.denseOwed &&& ~~~ mark }) := by
    obtain ⟨-, -, on, chosen⟩ := met
    exact dwRecord_storing _ _ (by rw [rawMoved_wit]; exact chosen) (by rw [rawMoved_wit]; exact on)
  refine ⟨ActsSo.of_meaning (dwMoves l ball) (fun _ _ => rfl) ?stampedEdge, ActsSo.of_meaning (dwMoves l ball) (fun _ _ => rfl) ?denseEdge,
    ActsSo.of_meaning (dwMoves l ball) (fun _ _ => rfl) ?fullEdge, ActsSo.of_meaning (dwMoves l ball) (fun _ _ => rfl) ?unfilteredEdge,
    Acts.of_meaning (dwMoves l ball) (fun _ _ => rfl) ?filteredEdge⟩
  case stampedEdge =>
    rintro a ⟨met, room, stamp⟩
    have moved := rawMoved_wit l ball a
    have record_ := records met
    rw [stamp] at moved record_
    dsimp only at record_
    obtain ⟨head, stored⟩ := storeEdge_room
      (s := (rawMoved l ball a).modWit fun w => { w with denseOwed := w.denseOwed &&& ~~~ mark })
      ⟨h, l, (rawMoved l ball a).wit.denseOwed.getLsbD l, ball.level⟩ (by simp only [State.modWit, moved]; exact room)
    generalize storeEdge _ _ = u at record_ stored
    simp only [State.modWit, moved] at stored
    have acts := recorded met u (by rw [stamp]; exact record_) (by rw [stored, moved]) (by rw [stored]) (by rw [stored])
    rw [acts, stored]
    exact ⟨rfl, rfl, rfl, rfl⟩
  case denseEdge =>
    rintro a ⟨met, dense⟩
    have moved := rawMoved_wit l ball a
    have record_ := records met
    rw [dense] at moved record_
    dsimp only at record_
    generalize posted : post 0x7203 wide wide ((rawMoved l ball a).modWit fun w => { w with
      dense := w.dense + 1, denseOwed := w.denseOwed ||| mark }) = u at record_
    have marked : u.wit = _ := posted ▸ post_wit ..
    simp only [State.modWit, moved] at marked
    have acts := recorded met u (by rw [dense]; exact record_) (by rw [marked, moved]) (by rw [marked]) (by rw [marked])
    rw [acts, marked]
    exact ⟨rfl, rfl, rfl, rfl, rfl⟩
  case fullEdge =>
    rintro a ⟨met, full⟩
    have moved := rawMoved_wit l ball a
    have record_ := records met
    rw [full] at record_
    dsimp only at record_
    obtain ⟨mode, lost, why, cfg, raw, level⟩ := witOverflow_wit 2 0x7102 (rawMoved l ball a)
    have acts := recorded met _ (by rw [full]; exact record_) raw (by rw [level, moved]) (by rw [cfg, moved])
    rw [acts]
    exact ⟨mode, lost, why⟩
  case unfilteredEdge =>
    rintro a ⟨⟨runs, same, other⟩, glitch, off⟩
    have moved := rawMoved_wit l ball a
    have record_ : dwRecord l (tdcEdge (.dw l) ball.step a).1 ball.level (rawMoved l ball a) = rawMoved l ball a := by
      refine if_pos fun ⟨_, on⟩ => ?_
      rw [moved] at on
      simp [Wit.storing, off] at on
    have quiet : dwGlitch l ball.level (rawMoved l ball a) = rawMoved l ball a :=
      if_neg fun e => e.1 (by rw [moved]; exact off)
    have line : (rawMoved l ball a).wit.raw[l] = ⟨ball.level, a.elapsed, (tdcEdge (.dw l) ball.step a).1.held?⟩ := by
      rw [moved]
      simp
    have late : ((rawMoved l ball a).wit.raw[l]).since + (rawMoved l ball a).wit.cfg.glitch ≤ a.elapsed := by
      rw [line, moved]
      show a.elapsed + a.wit.cfg.glitch ≤ a.elapsed
      omega
    have unlike : ((rawMoved l ball a).wit.raw[l]).level ≠ (rawMoved l ball a).wit.level.getLsbD l := by
      rw [line, moved]
      exact same ▸ other
    rw [dwMoves_edge runs same other, record_, quiet, dwFilter_takes (by rw [moved]; exact off) late unlike]
    refine ⟨congrArg RawLine.level line, ?_, ?_⟩
    · simp only [State.modWit, moved]
      rfl
    · simp only [State.modWit, moved]
  case filteredEdge =>
    rintro a ⟨runs, off, same, other, late⟩
    have rests : (a.wit.raw[l]).level = (a.wit.level ^^^ mark).getLsbD l := by
      rw [BitVec.getLsbD_xor, show mark.getLsbD l = true from lineMark_bit l, Bool.xor_true]
      exact Bool.eq_not_iff.mpr other
    unfold dwMoves
    rw [if_neg (not_not_intro runs)]
    by_cases early : (a.wit.raw[l]).since + a.wit.cfg.glitch ≤ a.elapsed - 1
    · rw [dwFilter_takes off early other]
      exact (if_pos same).trans (dwFilter_settled _ rests)
    · rw [dwFilter_recent (Nat.not_le.mp early)]
      exact (if_pos same).trans (dwFilter_takes off late other)

/-- Settles O53: each tick, edge and unit on the sampler, and the end of a capture and of its delivery. -/
theorem witnessCaptures : Obligations.WitnessCaptures := by
  unfold Obligations.WitnessCaptures
  exact ⟨claims_adcConversion, claims_dwEdge, claims_witnessUnitTimeout, claims_witnessCaptureEnd, claims_witnessDeliveryEnd⟩

end Sys2Proof.Machine
end

section
/-! SUPPORT. Serial sensors, encoder emulators, and the registers of position channels (R259 to R266, R271). -/

namespace Sys2Proof.Machine

/-! ### What operations leave of a position channel -/

/-- A position channel keeps what `g` reads of it. -/
def PosKept {α : Type} (g : Pos → α) (ch : Fin 4) (s t : State) : Prop := g t.pos[ch] = g s.pos[ch]

namespace PosKept

variable {α : Type} {g : Pos → α} {ch : Fin 4} {s t u : State}

theorem refl (ch : Fin 4) (s : State) : PosKept g ch s s := rfl

theorem trans (h : PosKept g ch s t) (k : PosKept g ch t u) : PosKept g ch s u := Eq.trans k h

theorem of_pos (h : PosKept g ch s t) (same : u.pos = t.pos) : PosKept g ch s u :=
  h.trans (congrArg (fun v : Vector Pos 4 => g v[ch]) same)

theorem modPos (h : PosKept g ch s t) (f : Pos → Pos) (same : ∀ x, g (f x) = g x) : PosKept g ch s (t.modPos ch f) :=
  h.trans ((congrArg g (modPos_pos ..)).trans (same _))

theorem ite {c : Prop} [Decidable c] (h : PosKept g ch s t) (k : PosKept g ch s u) : PosKept g ch s (if c then t else u) := by
  split
  · exact h
  · exact k

theorem post (h : PosKept g ch s t) (code fn unit : Nat) : PosKept g ch s (post code fn unit t) := h.of_pos (post_pos ..)

theorem posFlag (h : PosKept g ch s t) (i : Nat) (same : ∀ (x : Pos) f, g { x with flags := f } = g x) :
    PosKept g ch s (posFlag ch i t) := h.modPos _ fun x => same x _

theorem judgeEmus (h : PosKept g ch s t) (c : Fin 4) : PosKept g ch s (judgeEmus c t) := h.of_pos (judgeEmus_pos ..)

theorem judgeVel (h : PosKept g ch s t) (v : Rat) (same : ∀ (x : Pos) f, g { x with flags := f } = g x) :
    PosKept g ch s (judgeVel ch v t) := by
  unfold Machine.judgeVel
  exact .ite ((h.posFlag 11 same).post ..) h

theorem emuSourceGone (h : PosKept g ch s t) (same : ∀ (x : Pos) f, g { x with flags := f } = g x) :
    PosKept g ch s (emuSourceGone ch t) := by
  unfold Machine.emuSourceGone
  exact .ite (h.posFlag 12 same) h

theorem markCmps (h : PosKept g ch s t) (c : Fin 4) (x : Held) (inferred coarse : Bool) :
    PosKept g ch s (markCmps c x inferred coarse t) :=
  h.of_pos ((keeps_markCmps (msk := 0x400000) c x inferred coarse (Keeps.refl _ t) rfl).within.pos rfl)

end PosKept

/-! ### Cycles -/

theorem claims_serialCycleStart : Claims.serialCycleStart := by
  intro ch
  exact Acts.of_meaning (cycleStarts ch) (fun _ _ => rfl) fun a met => if_pos met

theorem readFrame_ssi {c : PosCfg} {bits : List Bool} (plain : bit c.serialFlags 1 = false)
    (whole : c.dataBits ≤ bits.length) :
    readFrame .ssi c (.ssi true bits) = .sample (bitsNat (bits.take c.dataBits)) false := by
  have pulses : c.ssiPulses = c.dataBits := by
    rw [PosCfg.ssiPulses, plain]
    rfl
  rw [readFrame, if_neg (by simp [pulses, Nat.not_lt.mpr whole]), if_neg (by simp [plain])]

/-- What the end of a cycle shows of a channel. -/
def Pos.shown (p : Pos) : PosMode × Nat × Option Held × Option Nat × Option Int :=
  (p.mode, p.fails, p.cycle, p.rPrev, p.samples.head?.map PosSample.p)

theorem takeSample_first {ch : Fin 4} {s : State} (h : Held) (raw : Nat) (warn : Bool) (first : (s.pos[ch]).rPrev = none) :
    ((takeSample ch h raw warn s).pos[ch]).shown =
      (.running, 0, (s.pos[ch]).cycle,
        some (if bit (s.pos[ch]).cfg.serialFlags 0 then grayDecode (s.pos[ch]).cfg.dataBits raw else raw),
        some (4096 * ((if bit (s.pos[ch]).cfg.serialFlags 0 then grayDecode (s.pos[ch]).cfg.dataBits raw else raw : Nat) : Int))) := by
  unfold takeSample
  extract_lets p c m r delta s1 at_ old new v s2 s3 s4
  have settled : s1.pos[ch] = s.pos[ch] := congrArg (fun v : Vector Pos 4 => v[ch]) (settleCmps_pos ..)
  have start : new = 4096 * (r : Int) := if_pos (by rw [show p.rPrev = none from first]; rfl)
  have taken_ : (s2.pos[ch]).shown = (.running, 0, (s.pos[ch]).cycle, some r, some (4096 * (r : Int))) := by
    unfold s2
    clear_value v s1 at_
    rw [modPos_pos, settled, ← start]
    rfl
  rw [if_neg (by rw [show p.rPrev = none from first]; exact fun e => Bool.noConfusion e.1)]
  refine Eq.trans ?_ taken_
  have flagged : PosKept Pos.shown ch s2 s3 :=
    .ite (((PosKept.refl ch s2).posFlag 10 fun _ _ => rfl).post ..) (.refl ch s2)
  have warned : PosKept Pos.shown ch s2 s4 := .ite ((flagged.posFlag 8 fun _ _ => rfl).post ..) flagged
  exact ((warned.judgeVel v fun _ _ => rfl).judgeEmus ch).markCmps ch at_ false false

/-- A channel after a cycle that failed (R262). -/
def Pos.failed (flag : Nat) (p : Pos) : Pos :=
  { p with
    serialErrs := p.serialErrs + 1, serialTotal := p.serialTotal + 1, fails := p.fails + 1
    flags := p.flags ||| BitVec.ofNat 13 (2 ^ flag) }

/-- A channel whose sensor is lost (R262). -/
def Pos.lost (p : Pos) : Pos := { p with mode := .serialLost, heldP := p.sampled }

theorem cycleFails_pos {ch : Fin 4} {s : State} (flag code : Nat) :
    (post code wide ch (posFlag ch flag (s.modPos ch fun p => { p with
      serialErrs := p.serialErrs + 1, serialTotal := p.serialTotal + 1, fails := p.fails + 1 }))).pos[ch] =
      (s.pos[ch]).failed flag := by
  refine (congrArg (fun v : Vector Pos 4 => v[ch]) (post_pos ..)).trans ?_
  unfold posFlag
  rw [modPos_pos, modPos_pos]
  rfl

theorem cycleFails_few {ch : Fin 4} {s : State} (flag code : Nat) (few : (s.pos[ch]).fails < 7) :
    (cycleFails ch flag code s).pos[ch] = (s.pos[ch]).failed flag := by
  have failed := cycleFails_pos (ch := ch) (s := s) flag code
  unfold cycleFails
  extract_lets s1
  rw [if_neg, failed]
  rw [failed]
  exact fun ⟨many, _⟩ => absurd (show 8 ≤ (s.pos[ch]).fails + 1 from many) (by omega)

theorem cycleFails_last {ch : Fin 4} {s : State} (flag code : Nat) (seven : (s.pos[ch]).fails = 7)
    (runs : (s.pos[ch]).mode = .running) : ((cycleFails ch flag code s).pos[ch]).mode = .serialLost ∧
      ((cycleFails ch flag code s).pos[ch]).serialErrs = (s.pos[ch]).serialErrs + 1 := by
  have failed := cycleFails_pos (ch := ch) (s := s) flag code
  unfold cycleFails
  extract_lets s1
  rw [if_pos]
  · have judged : (judgeEmus ch s1).pos[ch] = (s.pos[ch]).failed flag :=
      (congrArg (fun v : Vector Pos 4 => v[ch]) (judgeEmus_pos ..)).trans failed
    have gone : PosKept (fun p => (p.mode, p.serialErrs)) ch ((judgeEmus ch s1).modPos ch Pos.lost)
        (emuSourceGone ch (post 0x310D wide ch ((judgeEmus ch s1).modPos ch Pos.lost))) :=
      ((PosKept.refl ch _).post ..).emuSourceGone fun _ _ => rfl
    unfold PosKept at gone
    rw [modPos_pos, judged] at gone
    simp only [Prod.mk.injEq] at gone
    rw [show (fun p : Pos => { p with mode := .serialLost, heldP := p.sampled }) = Pos.lost from rfl]
    exact gone
  · rw [failed]
    exact ⟨show 8 ≤ (s.pos[ch]).fails + 1 by omega, runs⟩

/-- What the end of a cycle leaves of a channel for the judgement of its frame. -/
def Pos.awaited (p : Pos) : PosMode × Nat × Option Nat × Word × BitVec 13 × PosCfg :=
  (p.mode, p.fails, p.rPrev, p.serialErrs, p.flags, p.cfg)

theorem cycleEnds_ended {ch : Fin 4} {h : Held} {outcome : SerialOutcome} {a : State}
    (cycle : (a.pos[ch]).cycle = some h)
    (clocked : 200000 * frameClocks outcome ≤ (a.elapsed - (a.pos[ch]).cycleFrom) * (a.pos[ch]).cfg.clkKhz) :
    ∃ b, (b.pos[ch]).cycle = none ∧ (b.pos[ch]).awaited = (a.pos[ch]).awaited ∧ cycleEnds ch outcome a =
      match readFrame (a.pos[ch]).kind (a.pos[ch]).cfg outcome with
      | .failed flag code => cycleFails ch flag code b
      | .sample raw warn => takeSample ch h raw warn b := by
  unfold cycleEnds
  extract_lets p b
  rw [show p.cycle = some h from cycle]
  dsimp -zeta only
  rw [if_neg (Nat.not_lt.mpr clocked)]
  refine ⟨b, ?_, ?_, rfl⟩
  · exact congrArg Pos.cycle (modPos_pos ..)
  · have set_ : b.pos[ch] = _ := modPos_pos ..
    rw [set_]
    rfl

theorem claims_serialCycleEnd : Claims.serialCycleEnd := by
  refine ⟨fun c bits => readFrame_ssi, fun ch h outcome raw flag code warn => ?_⟩
  extract_lets ends value
  refine ⟨ActsSo.of_meaning (cycleEnds ch outcome) (fun _ _ => rfl) ?first, ActsSo.of_meaning (cycleEnds ch outcome) (fun _ _ => rfl) ?few,
    ActsSo.of_meaning (cycleEnds ch outcome) (fun _ _ => rfl) ?last⟩
  case first =>
    rintro a ⟨⟨cycle, clocked, frame⟩, none_⟩
    obtain ⟨b, ended, kept, meant⟩ := cycleEnds_ended cycle clocked
    simp only [Pos.awaited, Prod.mk.injEq] at kept
    obtain ⟨-, -, before, -, -, cfg⟩ := kept
    have sampled := takeSample_first h raw warn (before.trans none_)
    rw [cfg, ended] at sampled
    simp only [Pos.shown, Prod.mk.injEq] at sampled
    obtain ⟨mode, fails, cycle', value', sample⟩ := sampled
    rw [meant, frame]
    exact ⟨mode, fails, cycle', value', sample⟩
  case few =>
    rintro a ⟨⟨cycle, clocked, frame⟩, few⟩
    obtain ⟨b, ended, kept, meant⟩ := cycleEnds_ended cycle clocked
    simp only [Pos.awaited, Prod.mk.injEq] at kept
    obtain ⟨mode, fails, -, errs, flags, -⟩ := kept
    rw [meant, frame]
    dsimp only
    rw [cycleFails_few flag code (fails ▸ few)]
    exact ⟨mode, congrArg (· + 1) fails, congrArg (· + 1) errs, ended, congrArg (· ||| _) flags⟩
  case last =>
    rintro a ⟨⟨cycle, clocked, frame⟩, seven, runs⟩
    obtain ⟨b, ended, kept, meant⟩ := cycleEnds_ended cycle clocked
    simp only [Pos.awaited, Prod.mk.injEq] at kept
    obtain ⟨mode, fails, -, errs, -, -⟩ := kept
    obtain ⟨lost, counted⟩ := cycleFails_last flag code (fails.trans seven) (mode.trans runs)
    rw [meant, frame]
    exact ⟨lost, counted.trans (congrArg (· + 1) errs)⟩

/-! ### BiSS reads -/

theorem claims_bissRegisterReadDone : Claims.bissRegisterReadDone := by
  intro ch b v ends
  refine ⟨Acts.of_meaning (bissReadEnds ch (.value v)) (fun _ _ => rfl) ?value,
    Acts.of_meaning (bissReadEnds ch .timeout) (fun _ _ => rfl) ?timeout,
    Acts.of_meaning (bissReadEnds ch .crcFailed) (fun _ _ => rfl) ?again,
    Acts.of_meaning (bissReadEnds ch .crcFailed) (fun _ _ => rfl) ?fails⟩
  case value =>
    intro a reading
    rw [bissReadEnds, reading]
  case timeout =>
    rintro a ⟨reading, late⟩
    rw [bissReadEnds, reading]
    exact if_pos late
  case again =>
    rintro a ⟨reading, first⟩
    rw [bissReadEnds, reading]
    exact if_neg (by rw [first]; exact Bool.noConfusion)
  case fails =>
    rintro a ⟨reading, second⟩
    rw [bissReadEnds, reading]
    exact if_pos second

/-! ### Emulators -/

section
variable {s t : State} (sum : t.clk.stepSum = s.clk.stepSum)
include sum

theorem timeOf_congr (h : Held) : timeOf t h = timeOf s h := by
  rw [timeOf, timeOf, release, release, sum]

theorem pointAt_congr (x : Int) (l : List PosPoint) : pointAt t x l = pointAt s x l := by
  induction l with
  | nil => rfl
  | cons p rest ih =>
    cases rest with
    | nil => rfl
    | cons q rest =>
      show (if timeOf t p.at_ ≤ x then some p else pointAt t x (q :: rest)) =
        if timeOf s p.at_ ≤ x then some p else pointAt s x (q :: rest)
      rw [timeOf_congr sum, ih]

theorem serialP_congr (c : PosCfg) (x : Int) (l : List PosSample) : serialP t c x l = serialP s c x l := by
  induction l with
  | nil => rfl
  | cons p rest ih =>
    unfold serialP
    simp only [timeOf_congr sum, ih]

/-- P at a time follows from the channel and the sum of the time steps alone. -/
theorem posP_congr (p : Pos) (x : Int) : posP t p x = posP s p x := by
  simp only [posP, serialP_congr sum, pointAt_congr sum, timeOf_congr sum]

end

theorem pNow_congr {s t : State} (clk : t.clk = s.clk) (pos : t.pos = s.pos) (c : Fin 4) : pNow t c = pNow s c := by
  rw [pNow, pNow, posP_congr (congrArg (·.stepSum) clk), pos, now, now, clk]

/-- The part of an emulator that its judgement leaves. -/
def Emu.followed (e : Emu) : Bool × Int × Nat × Nat × Nat × Nat × Int :=
  (e.running, e.out, e.stepAt, e.source, e.n, e.d, e.p0)

theorem judgeEmu_followed (m : Fin 2) (s : State) : ((judgeEmu m s).emu[m]).followed = (s.emu[m]).followed := by
  unfold judgeEmu
  extract_lets e g far s1
  have moved : s1.emu[m] = _ := vmod_get ..
  have set_ : (s1.emu[m]).followed = (s.emu[m]).followed := by
    rw [moved]
    rfl
  split
  · rfl
  · split
    · rw [post_eq_modLog]
      exact set_
    · exact set_

theorem judgeEmu_held {m : Fin 2} {s : State} (runs : (s.emu[m]).running = true) :
    ((judgeEmu m s).emu[m]).held = emuTarget s m := by
  unfold judgeEmu
  extract_lets e g far s1
  have moved : s1.emu[m] = _ := vmod_get ..
  have set_ : (s1.emu[m]).held = emuTarget s m := by
    rw [moved]
  rw [if_neg (not_not_intro runs)]
  split
  · rw [post_eq_modLog]
    exact set_
  · exact set_

theorem judgeEmu_kept (m : Fin 2) (s : State) : Keeps 0x200080 s (judgeEmu m s) := keeps_judgeEmu m (Keeps.refl _ s) rfl

/-- Its judgement leaves an emulator's target. -/
theorem emuTarget_judgeEmu {m : Fin 2} {s : State} (runs : (s.emu[m]).running = true) :
    emuTarget (judgeEmu m s) m = emuTarget s m := by
  have held := judgeEmu_held runs
  have pos : (judgeEmu m s).pos = s.pos := (judgeEmu_kept m s).within.pos rfl
  have now_ := pNow_congr ((judgeEmu_kept m s).within.clk rfl) pos
  have same := judgeEmu_followed m s
  simp only [Emu.followed, Prod.mk.injEq] at same
  obtain ⟨-, -, -, source, n, d, p0⟩ := same
  unfold emuTarget at held ⊢
  dsimp only at held ⊢
  rw [source, n, d, p0]
  cases place : fin? 4 (s.emu[m]).source with
  | none =>
    rw [place] at held
    exact held
  | some c =>
    rw [place] at held
    dsimp only at held ⊢
    rw [show (judgeEmu m s).pos[c] = s.pos[c] from congrArg (fun v : Vector Pos 4 => v[c]) pos, now_]
    revert held
    cases (s.pos[c]).mode with
    | off => exact id
    | serialLost => exact id
    | starting => exact fun _ => rfl
    | running => exact fun _ => rfl

theorem claims_emuOutputStep : Claims.emuOutputStep := by
  intro m may shown
  have steps {a : State} (met : may a) (behind : emuTarget a m ≠ (a.emu[m]).out) :
      ((emuSteps m a).emu[m]).out = (if (a.emu[m]).out < emuTarget a m then (a.emu[m]).out + 1 else (a.emu[m]).out - 1) ∧
      ((emuSteps m a).emu[m]).stepAt = a.elapsed ∧ shown (emuSteps m a) := by
    obtain ⟨runs, rested⟩ := met
    have same := judgeEmu_followed m a
    simp only [Emu.followed, Prod.mk.injEq] at same
    obtain ⟨running, out, stepAt, -⟩ := same
    have elapsed : (judgeEmu m a).elapsed = a.elapsed := (judgeEmu_kept m a).within.elapsed
    have target := emuTarget_judgeEmu runs
    unfold emuSteps
    extract_lets s1 e g
    have due : e.running = true ∧ g ≠ e.out ∧ sinceNs s1 e.stepAt 40 = true := by
      refine ⟨running.trans runs, ?_, ?_⟩
      · rw [show g = emuTarget a m from target, show e.out = (a.emu[m]).out from out]
        exact behind
      · rw [show e.stepAt = (a.emu[m]).stepAt from stepAt, sinceNs, elapsed]
        exact rested
    rw [if_pos due]
    generalize stepped : (s1.modEmu m fun e => { e with
      out := if e.out < g then e.out + 1 else e.out - 1, stepAt := s1.elapsed }) = s2
    have moved : s2.emu[m] = { s1.emu[m] with
        out := if e.out < g then e.out + 1 else e.out - 1, stepAt := s1.elapsed } := stepped ▸ vmod_get ..
    have shows := judgeEmu_followed m s2
    rw [moved] at shows
    simp only [Emu.followed, Prod.mk.injEq] at shows
    obtain ⟨-, out', stepAt', -⟩ := shows
    rw [show g = emuTarget a m from target, show e.out = (a.emu[m]).out from out] at out'
    exact ⟨out', stepAt'.trans elapsed, rfl⟩
  refine ⟨ActsSo.of_meaning (emuSteps m) (fun _ _ => rfl) ?up, ActsSo.of_meaning (emuSteps m) (fun _ _ => rfl) ?down⟩
  case up =>
    rintro a ⟨met, below⟩
    have stepped := steps met below.ne'
    rwa [if_pos below] at stepped
  case down =>
    rintro a ⟨met, above⟩
    have stepped := steps met above.ne
    rwa [if_neg above.not_gt] at stepped

/-! ### Registers -/

theorem windowOwner_positions (a : State) {off : Nat} (low : 0x14000 ≤ off) (high : off < 0x21200) :
    windowOwner a off = none := by
  unfold windowOwner
  rw [if_neg (by omega), if_neg (by omega), if_neg (by omega), if_neg (by omega), if_neg (by omega)]

theorem claims_posPLoRead : Claims.posPLoRead := by
  intro fn ch
  refine Acts.of_meaning (readRegister fn (0x21000 + 0x40 * ch) (readPosPLo ch)) (fun _ _ => rfl) fun a reached => ?_
  rw [readRegister_open _ reached (by omega) (windowOwner_positions a (by omega) (by omega))]
  rfl

theorem claims_posIdxLoRead : Claims.posIdxLoRead := by
  intro fn ch
  refine Acts.of_meaning (readRegister fn (0x21020 + 0x40 * ch) (readPosIdxLo ch)) (fun _ _ => rfl) fun a reached => ?_
  rw [readRegister_open _ reached (by omega) (windowOwner_positions a (by omega) (by omega))]
  rfl

theorem claims_posSerialErrsRead : Claims.posSerialErrsRead := by
  intro fn ch
  refine Acts.of_meaning (readRegister fn (0x21028 + 0x40 * ch) (readSerialErrs ch)) (fun _ _ => rfl) fun a reached => ?_
  rw [readRegister_open _ reached (by omega) (windowOwner_positions a (by omega) (by omega))]
  rfl

/-- Settles O40: each cycle's start and end on the channel, the emulator's step, and what a register read latches. -/
theorem serialSensorsAndEmulators : Obligations.SerialSensorsAndEmulators := by
  unfold Obligations.SerialSensorsAndEmulators
  exact ⟨claims_serialCycleStart, claims_serialCycleEnd, claims_bissRegisterReadDone, claims_emuOutputStep,
    claims_posPLoRead, claims_posIdxLoRead, claims_posSerialErrsRead⟩

end Sys2Proof.Machine
end

section
/-! SUPPORT. What samples of its balls do to the filtered levels of a position channel (R123, R241). -/

namespace Sys2Proof.Machine

/-! ### A channel that a change leaves as it was -/

theorem modPos_congr {s : State} {ch : Fin 4} {f g : Pos → Pos} (same : f s.pos[ch] = g s.pos[ch]) :
    s.modPos ch f = s.modPos ch g := by
  unfold State.modPos vmod
  rw [same]

theorem modPos_idle {s : State} {ch : Fin 4} {f : Pos → Pos} (same : f s.pos[ch] = s.pos[ch]) : s.modPos ch f = s := by
  have whole : s.pos.set ch s.pos[ch] = s.pos := Vector.set_getElem_self _
  unfold State.modPos vmod
  rw [same, whole]

/-! ### Filtered levels (R241) -/

/-- One line of a filtered word takes its level. -/
theorem getLsbD_take {v : BitVec 4} {i j : Fin 4} (x : Bool) :
    (if x then v ||| BitVec.ofNat 4 (2 ^ i.val) else v &&& ~~~ BitVec.ofNat 4 (2 ^ i.val)).getLsbD j =
      if j = i then x else v.getLsbD j := by
  have one : (BitVec.ofNat 4 (2 ^ i.val)).getLsbD j = decide (j = i) := by
    revert i j
    decide
  cases x
  · rw [if_neg Bool.false_ne_true, BitVec.getLsbD_and, BitVec.getLsbD_not, one]
    by_cases e : j = i
    · simp [e]
    · simp [e, j.isLt]
  · rw [if_pos rfl, BitVec.getLsbD_or, one]
    by_cases e : j = i
    · simp [e]
    · simp [e]

/-- The lines that a pass over `is` takes show what `level` gives of the word before it; the others stay. -/
theorem getLsbD_pass (mask : BitVec 4) (level : Fin 4 → Bool → Bool) (j : Fin 4) :
    ∀ (is : List (Fin 4)) (v : BitVec 4), is.Nodup →
    (is.foldl (fun (v : BitVec 4) (i : Fin 4) =>
      if ¬ mask.getLsbD i then v
      else if level i (v.getLsbD i) then v ||| BitVec.ofNat 4 (2 ^ i.val)
      else v &&& ~~~ BitVec.ofNat 4 (2 ^ i.val)) v).getLsbD j =
      if j ∈ is ∧ mask.getLsbD j then level j (v.getLsbD j) else v.getLsbD j
  | [], v, _ => by simp
  | i :: is, v, once => by
    obtain ⟨new, once⟩ := List.nodup_cons.mp once
    rw [List.foldl_cons, getLsbD_pass mask level j is _ once]
    by_cases e : j = i
    · subst e
      by_cases m : mask.getLsbD j = true
      · rw [if_neg fun h => new h.1, if_neg (by simp [m]), getLsbD_take, if_pos rfl,
          if_pos ⟨List.mem_cons_self, m⟩]
      · rw [if_neg fun h => m h.2, if_pos m, if_neg fun h => m h.2]
    · have other : (if ¬ mask.getLsbD i then v else if level i (v.getLsbD i) then v ||| BitVec.ofNat 4 (2 ^ i.val)
          else v &&& ~~~ BitVec.ofNat 4 (2 ^ i.val)).getLsbD j = v.getLsbD j := by
        by_cases m : ¬ mask.getLsbD i = true
        · rw [if_pos m]
        · rw [if_neg m, getLsbD_take, if_neg e]
      simp only [other, List.mem_cons, e, false_or]

/-- A filtered word is `l` where every line in the mask filters to it and the others show it already. -/
theorem Pos.filtered_eq {p : Pos} {now_ : Nat} {mask l : BitVec 4}
    (takes : ∀ i : Fin 4, mask.getLsbD i = true → (p.raw[i]).filter p.cfg.glitch now_ (p.lines.getLsbD i) = l.getLsbD i)
    (keeps : ∀ i : Fin 4, ¬ mask.getLsbD i = true → p.lines.getLsbD i = l.getLsbD i) : p.filtered now_ mask = l := by
  apply BitVec.eq_of_getLsbD_eq
  intro j lt
  have bit_ := getLsbD_pass mask (fun i x => (p.raw[i]).filter p.cfg.glitch now_ x) ⟨j, lt⟩ (allFin 4) p.lines
    (List.nodup_finRange 4)
  refine Eq.trans bit_ ?_
  by_cases m : mask.getLsbD j = true
  · rw [if_pos ⟨List.mem_finRange _, m⟩]
    exact takes ⟨j, lt⟩ m
  · rw [if_neg fun h => m h.2]
    exact keeps ⟨j, lt⟩ m

theorem RawLine.filter_same {r : RawLine} {x : Bool} (same : r.level = x) (glitch now_ : Nat) : r.filter glitch now_ x = x := by
  unfold RawLine.filter
  rw [same, ite_self]

theorem RawLine.filter_ripe {r : RawLine} {glitch now_ : Nat} (ripe : r.since + glitch ≤ now_) (x : Bool) :
    r.filter glitch now_ x = r.level := if_pos ripe

/-- Lines whose balls show their levels stay. -/
theorem Pos.filtered_idle {p : Pos} {mask : BitVec 4} (now_ : Nat)
    (shown : ∀ i : Fin 4, mask.getLsbD i = true → (p.raw[i]).level = p.lines.getLsbD i) : p.filtered now_ mask = p.lines :=
  Pos.filtered_eq (fun i m => RawLine.filter_same (shown i m) ..) fun _ _ => rfl

/-- A decoder that does nothing where no line has changed. -/
abbrev CountsChanges (ch : Fin 4) (count : Pos → State → State) : Prop := ∀ s : State, count s.pos[ch] s = s

/-- A channel whose filtered levels have become `l`. -/
def Pos.taking (l : BitVec 4) (p : Pos) : Pos := { p with lines := l }

theorem filterMoves_idle {ch : Fin 4} {count : Pos → State → State} {s : State} {mask : BitVec 4} (t : Nat)
    (changes : CountsChanges ch count)
    (shown : ∀ i : Fin 4, mask.getLsbD i = true → ((s.pos[ch]).raw[i]).level = (s.pos[ch]).lines.getLsbD i) :
    filterMoves ch mask t count s = s := by
  unfold filterMoves
  rw [modPos_idle (by rw [Pos.filtered_idle t shown])]
  exact changes s

theorem filterMoves_takes {ch : Fin 4} (count : Pos → State → State) {s : State} {mask l : BitVec 4} {t : Nat}
    (filtered : (s.pos[ch]).filtered t mask = l) :
    filterMoves ch mask t count s = count s.pos[ch] (s.modPos ch (Pos.taking l)) := by
  unfold filterMoves
  rw [modPos_congr (g := Pos.taking l) (by rw [filtered]; rfl)]

/-! ### Samples (R123, R241) -/

/-- A channel whose balls have been sampled to `raw`. -/
def Pos.sampledTo (raw : Vector RawLine 4) (p : Pos) : Pos := { p with raw := raw }

theorem RawLine.sample_shows (line : TdcLine) (x : Line) (r : RawLine) (s : State) :
    (r.sample line x s).1.level = x.level ∧
    ((r.sample line x s).1 = r ∨ (r.sample line x s).1.since = s.elapsed) ∧
    (r.sample line x s).2.elapsed = s.elapsed ∧ (r.sample line x s).2.pos = s.pos := by
  unfold RawLine.sample
  by_cases same : x.level = r.level
  · rw [if_pos same]
    exact ⟨same.symm, .inl rfl, rfl, rfl⟩
  · rw [if_neg same]
    have kept : Keeps 0x480 s (tdcEdge line x.step s).2 := keeps_tdcEdge line x.step (Keeps.refl _ s) rfl
    exact ⟨rfl, .inr kept.within.elapsed, kept.within.elapsed, kept.within.pos rfl⟩

/-- What samples of some balls have made of a state: a channel differs in its raw lines alone, and in those only where they are
of now. -/
structure SampledFrom (ch : Fin 4) (s u : State) (raw : Vector RawLine 4) : Prop where
  elapsed : u.elapsed = s.elapsed
  pos : u.pos[ch] = (s.pos[ch]).sampledTo raw
  fresh : ∀ j : Fin 4, raw[j] = (s.pos[ch]).raw[j] ∨ (raw[j]).since = s.elapsed

theorem SampledFrom.refl (ch : Fin 4) (s : State) : SampledFrom ch s s (s.pos[ch]).raw := ⟨rfl, rfl, fun _ => .inl rfl⟩

theorem SampledFrom.sampleBall {ch : Fin 4} {s u : State} {raw : Vector RawLine 4} (h : SampledFrom ch s u raw)
    (balls : Vector Line 4) (i : Fin 4) :
    ∃ r : RawLine, SampledFrom ch s (sampleBall ch balls u i) (raw.set i r) ∧ r.level = balls[i].level := by
  obtain ⟨elapsed, pos, fresh⟩ := h
  obtain ⟨level, new, elapsed', pos'⟩ := RawLine.sample_shows (.pos ch i) balls[i] (u.pos[ch]).raw[i] u
  have before : (u.pos[ch]).raw[i] = raw[i] := by rw [pos]; rfl
  unfold Machine.sampleBall
  generalize RawLine.sample (.pos ch i) balls[i] (u.pos[ch]).raw[i] u = sampled at level new elapsed' pos'
  obtain ⟨r, v⟩ := sampled
  refine ⟨r, ⟨elapsed'.trans elapsed, ?_, fun j => ?_⟩, level⟩
  · have set_ : (v.modPos ch fun p => { p with raw := p.raw.set i r }).pos[ch] = _ := modPos_pos ..
    rw [set_, pos', pos]
    rfl
  · by_cases e : j = i
    · subst e
      have at_ : (raw.set j r)[j] = r := Vector.getElem_set_self _
      rw [at_]
      cases new with
      | inl same => rw [show r = raw[j] from same.trans before]; exact fresh j
      | inr now_ => exact .inr (now_.trans elapsed)
    · have other : (raw.set i r)[j] = raw[j] := Vector.getElem_set_ne _ _ fun h => e (Fin.ext h.symm)
      rw [other]
      exact fresh j

theorem SampledFrom.sampleBalls {ch : Fin 4} {s : State} (balls : Vector Line 4) :
    ∀ (is : List (Fin 4)) (u : State) (raw : Vector RawLine 4), SampledFrom ch s u raw →
    ∃ raw' : Vector RawLine 4, SampledFrom ch s (is.foldl (Machine.sampleBall ch balls) u) raw' ∧
      ∀ j : Fin 4, j ∈ is ∨ (raw[j]).level = balls[j].level → (raw'[j]).level = balls[j].level
  | [], u, raw, h => ⟨raw, h, fun _ shown => shown.resolve_left List.not_mem_nil⟩
  | i :: is, u, raw, h => by
    obtain ⟨r, sampled, level⟩ := h.sampleBall balls i
    obtain ⟨raw', all, shown⟩ := SampledFrom.sampleBalls balls is _ _ sampled
    refine ⟨raw', all, fun j found => shown j ?_⟩
    by_cases e : j = i
    · subst e
      have at_ : (raw.set j r)[j] = r := Vector.getElem_set_self _
      exact .inr ((congrArg RawLine.level at_).trans level)
    · have other : (raw.set i r)[j] = raw[j] := Vector.getElem_set_ne _ _ fun h => e (Fin.ext h.symm)
      rw [other]
      exact found.imp_left fun mem => (List.mem_cons.mp mem).resolve_left e

/-- All four balls of a channel are sampled: its raw lines show them. -/
theorem sampleBalls_shown (ch : Fin 4) (balls : Vector Line 4) (s : State) :
    ∃ raw : Vector RawLine 4, SampledFrom ch s ((allFin 4).foldl (sampleBall ch balls) s) raw ∧
      ∀ j : Fin 4, (raw[j]).level = balls[j].level := by
  obtain ⟨raw, sampled, shown⟩ := SampledFrom.sampleBalls balls (allFin 4) s _ (.refl ch s)
  exact ⟨raw, sampled, fun j => shown j (.inl (List.mem_finRange j))⟩

/-! ### One change of the lines (R241) -/

theorem ballMoves_eq {ch : Fin 4} {mask : BitVec 4} {balls : Vector Line 4} {count : Pos → State → State} {s u : State}
    (before : filterMoves ch mask (s.elapsed - 1) count s = u) :
    ballMoves ch mask balls count s = filterMoves ch mask u.elapsed count ((allFin 4).foldl (sampleBall ch balls) u) := by
  subst before
  rfl

/-- The balls of a channel bring its filtered levels to `l`: its decoder sees that one change, either before the samples (the
filter was ripe) or after them (there is no filter), and the samples leave what it made of the channel. -/
theorem ballMoves_becomes {ch : Fin 4} {mask l : BitVec 4} {balls : Vector Line 4} {count : Pos → State → State} {s : State}
    (becomes : Claims.Becomes s ch balls l)
    (others : ∀ i : Fin 4, ¬ mask.getLsbD i = true → (s.pos[ch]).lines.getLsbD i = l.getLsbD i)
    (changes : CountsChanges ch count) (rel : Pos → Prop) (stable : ∀ x raw, rel x → rel (x.sampledTo raw))
    (counted : ∀ (raw : Vector RawLine 4) (u : State), u.elapsed = s.elapsed →
      u.pos[ch] = ((s.pos[ch]).sampledTo raw).taking l →
      (u = s.modPos ch (Pos.taking l) ∨ ∀ i : Fin 4, ((s.pos[ch]).raw[i]).level = (s.pos[ch]).lines.getLsbD i) →
      ((count ((s.pos[ch]).sampledTo raw) u).pos[ch]).lines = l ∧ rel (count ((s.pos[ch]).sampledTo raw) u).pos[ch]) :
    rel (ballMoves ch mask balls count s).pos[ch] := by
  obtain ⟨levels, ripe | ⟨plain, shown⟩⟩ := becomes
  · have filtered : (s.pos[ch]).filtered (s.elapsed - 1) mask = l :=
      Pos.filtered_eq (fun i _ => (RawLine.filter_ripe (Nat.le_sub_one_of_lt (ripe i).2) _).trans (ripe i).1) others
    rw [ballMoves_eq (filterMoves_takes count filtered)]
    obtain ⟨lines, holds⟩ := counted (s.pos[ch]).raw (s.modPos ch (Pos.taking l)) rfl (modPos_pos ..) (.inl rfl)
    rw [show (s.pos[ch]).sampledTo (s.pos[ch]).raw = s.pos[ch] from rfl] at lines holds
    generalize count s.pos[ch] (s.modPos ch (Pos.taking l)) = u at lines holds
    obtain ⟨raw, ⟨-, pos, -⟩, shown⟩ := sampleBalls_shown ch balls u
    generalize (allFin 4).foldl (sampleBall ch balls) u = v at pos
    rw [filterMoves_idle _ changes, pos]
    · exact stable _ _ holds
    · intro i _
      rw [pos]
      exact (shown i).trans ((levels i).trans (congrArg (·.getLsbD i) lines).symm)
  · rw [ballMoves_eq (filterMoves_idle _ changes fun i _ => shown i)]
    obtain ⟨raw, ⟨elapsed, pos, fresh⟩, sampled⟩ := sampleBalls_shown ch balls s
    generalize (allFin 4).foldl (sampleBall ch balls) s = v at elapsed pos
    have filtered : (v.pos[ch]).filtered s.elapsed mask = l := by
      rw [pos]
      refine Pos.filtered_eq (fun i _ => ?_) others
      have now_ : (raw[i]).level = l.getLsbD i := (sampled i).trans (levels i)
      refine Eq.trans ?_ now_
      cases fresh i with
      | inl same =>
        have old : (raw[i]).level = (s.pos[ch]).lines.getLsbD i := (congrArg RawLine.level same).trans (shown i)
        exact (RawLine.filter_same old ..).trans old.symm
      | inr since =>
        exact RawLine.filter_ripe (Nat.le_of_eq (congrArg₂ (· + ·) since plain)) _
    rw [filterMoves_takes count filtered, pos]
    have after : (v.modPos ch (Pos.taking l)).pos[ch] = ((s.pos[ch]).sampledTo raw).taking l := by rw [modPos_pos, pos]
    exact (counted raw (v.modPos ch (Pos.taking l)) elapsed after (.inr shown)).2

end Sys2Proof.Machine
end

section
/-! SUPPORT. What the decoders make of one change of a channel's lines (R248 to R254). -/

namespace Sys2Proof.Machine

/-! ### Events (R244, R245) -/

/-- What an event shows of a position channel. -/
def Pos.tally (p : Pos) : Int × Option Nat × Word × BitVec 4 × Nat := (p.count, p.eventAt, p.skips, p.lines, p.hallRef)

/-- A coarse stamp changes a channel in its flags alone. -/
theorem noteCoarse_kept {α : Type} {g : Pos → α} (ch : Fin 4) (coarse : Bool) (s : State)
    (same : ∀ (x : Pos) f, g { x with flags := f } = g x) : PosKept g ch s (noteCoarse ch coarse s) := by
  unfold noteCoarse
  exact .ite (((PosKept.refl ch s).posFlag 4 same).post ..) (.refl ch s)

/-- An event counts its weight in its direction, now; it leaves the lines, the skips and the Hall place. -/
theorem posEvent_tally (ch : Fin 4) (fwd : Bool) (weight : Nat) (h : Held) (coarse inferred : Bool) (s : State) :
    ((posEvent ch fwd weight h coarse inferred s).pos[ch]).tally =
      (wrapS 48 ((s.pos[ch]).count + sign fwd * weight), some s.elapsed, (s.pos[ch]).skips, (s.pos[ch]).lines,
        (s.pos[ch]).hallRef) := by
  unfold posEvent
  extract_lets t s1 p n count loc onward run
  have noted : (p.tally) = (s.pos[ch]).tally :=
    ((noteCoarse_kept ch coarse s fun _ _ => rfl).of_pos (settleCmps_pos ..) : PosKept Pos.tally ch s s1)
  have clock : s1.elapsed = s.elapsed :=
    (keeps_settleCmps (msk := 0x6E3D00492) ch t (keeps_noteCoarse ch coarse (Keeps.refl _ s) rfl) rfl).within.elapsed
  clear_value s1 t
  split
  rename_i speed s2 drawn
  have same : s2.pos = s1.pos ∧ s2.elapsed = s1.elapsed := by
    split at drawn
    · cases drawn
      exact ⟨rfl, rfl⟩
    · cases drawn
      exact ⟨rfl, rfl⟩
  obtain ⟨pos, elapsed⟩ := same
  extract_lets s3 s4
  have counted : (s3.pos[ch]).tally = (count, some s.elapsed, p.skips, p.lines, p.hallRef) := by
    have set_ : s3.pos[ch] = _ := modPos_pos ..
    rw [set_, pos, elapsed, clock]
    rfl
  clear_value s3
  have followed : PosKept Pos.tally ch s3 s4 := .ite (((PosKept.refl ch s3).posFlag 10 fun _ _ => rfl).post ..) (.refl ch s3)
  refine Eq.trans (((followed.judgeVel speed fun _ _ => rfl).judgeEmus ch).markCmps ch h inferred coarse) (counted.trans ?_)
  simp only [Pos.tally, Prod.mk.injEq] at noted
  obtain ⟨count_, -, skips, lines, hallRef⟩ := noted
  have count' : count = wrapS 48 ((s.pos[ch]).count + sign fwd * weight) := by
    unfold count n
    rw [count_]
  rw [count', skips, lines, hallRef]

/-! ### Illegal steps (R251 to R253) -/

/-- A channel whose lines have taken an illegal step. -/
def Pos.skipped (h : Held) (p : Pos) : Pos :=
  { p with skips := p.skips + 1, skipAt := ((h, p.skips + 1) :: p.skipAt).take 16, flags := p.flags ||| 1 }

theorem illegalStep_pos (ch : Fin 4) (h : Held) (code : Nat) (s : State) :
    (post code wide ch (posFlag ch 0 (s.modPos ch fun p => { p with
      skips := p.skips + 1, skipAt := ((h, p.skips + 1) :: p.skipAt).take 16 }))).pos[ch] = (s.pos[ch]).skipped h := by
  refine (congrArg (fun v : Vector Pos 4 => v[ch]) (post_pos ..)).trans ?_
  unfold posFlag
  rw [modPos_pos, modPos_pos]
  rfl

/-- An illegal step is counted and flagged alone under policy 1, and where it is a Hall step to the opposite place. -/
theorem illegalStep_counts {ch : Fin 4} {way : Option Bool} {opposite : Bool} {h : Held} {coarse : Bool} {s : State}
    (alone : opposite = true ∨ (s.pos[ch]).cfg.policy = 1) :
    (illegalStep ch way opposite h coarse s).pos[ch] = (s.pos[ch]).skipped h := by
  unfold illegalStep
  extract_lets p s1 s2 infer
  have skips : s2.pos[ch] = (s.pos[ch]).skipped h := illegalStep_pos ..
  have none_ : infer = false := by
    unfold infer
    cases alone with
    | inl opposite_ => rw [opposite_, Bool.not_true, Bool.false_and, Bool.false_and]
    | inr one =>
      rw [show p.cfg.policy = 1 from one]
      simp only [Bool.and_false]
  clear_value s2 infer
  rw [none_]
  exact skips

/-- Under policy 2 an illegal step after an event is counted, and moves the count by two in that event's direction. -/
theorem illegalStep_infers {ch : Fin 4} {h : Held} {coarse fwd : Bool} {rest : List Bool} {s : State}
    (two : (s.pos[ch]).cfg.policy = 2) (known : (s.pos[ch]).fresh = false) (last : (s.pos[ch]).dirs = fwd :: rest) :
    ((illegalStep ch none false h coarse s).pos[ch]).tally =
      (wrapS 48 ((s.pos[ch]).count + sign fwd * 2), some s.elapsed, (s.pos[ch]).skips + 1, (s.pos[ch]).lines,
        (s.pos[ch]).hallRef) := by
  unfold illegalStep
  extract_lets p s1 s2 infer
  have pos : s2.pos[ch] = (s.pos[ch]).skipped h := illegalStep_pos ..
  have infers : infer = true := by
    unfold infer
    rw [show p.cfg.policy = 2 from two, show p.fresh = false from known]
    rfl
  have elapsed : s2.elapsed = s.elapsed :=
    (keeps_post (msk := 0x100080) _ _ _ (keeps_posFlag ch 0 (keeps_State_modPos ch _ (Keeps.refl _ s) rfl) rfl)
      rfl).within.elapsed
  clear_value s2 infer
  rw [infers, show p.dirs = fwd :: rest from last]
  dsimp only
  rw [if_pos (.inl rfl), posEvent_tally, pos, elapsed]
  rfl

/-- A channel at another Hall place (R251). -/
def Pos.placed (j : Nat) (p : Pos) : Pos := { p with hallRef := j }

/-! ### The decoders -/

theorem quadCount_changes (ch : Fin 4) : CountsChanges ch (quadCount ch) := by
  intro s
  unfold quadCount
  extract_lets q k
  split
  · rfl
  · exact if_pos (by unfold k q; omega)

theorem stepCount_changes (ch : Fin 4) : CountsChanges ch (stepCount ch) := fun _ => if_pos (.inr rfl)

theorem upDownCounts_changes (ch : Fin 4) : CountsChanges ch (upDownCounts ch) := by
  intro s
  refine if_pos (.inr ?_)
  simp

theorem hallCount_changes (ch : Fin 4) : CountsChanges ch (hallCount ch) := fun _ => if_pos (.inr rfl)

theorem indexCount_changes (ch : Fin 4) : CountsChanges ch (indexCount ch) := fun _ => if_neg fun h => h.2 h.1

section
variable {ch : Fin 4} {p : Pos} {u : State} {l : BitVec 4} (after : u.pos[ch] = p.taking l)
include after

/-- A counted quadrature step is an event. -/
theorem quadCount_step {k : Nat} (counts : p.counts .quad = true) (steps : Claims.quadSteps p l = k) (legal : k = 1 ∨ k = 3) :
    ((quadCount ch p u).pos[ch]).tally =
      (wrapS 48 (p.count + sign (k = 1)), some u.elapsed, p.skips, l, p.hallRef) := by
  unfold quadCount
  extract_lets q k'
  have k_ : k' = k := by
    refine Eq.trans ?_ steps
    unfold k' q
    rw [after]
    rfl
  rw [if_neg (not_not_intro counts), if_neg (by omega), k_]
  split
  rw [if_neg (by omega), posEvent_tally, after]
  simp [Pos.taking]

theorem quadCount_illegal (counts : p.counts .quad = true) (steps : Claims.quadSteps p l = 2) :
    ∃ h coarse, quadCount ch p u = illegalStep ch none false h coarse u := by
  unfold quadCount
  extract_lets q k'
  have k_ : k' = 2 := by
    refine Eq.trans ?_ steps
    unfold k' q
    rw [after]
    rfl
  rw [if_neg (not_not_intro counts), if_neg (by omega), k_]
  split
  rename_i h coarse _
  exact ⟨h, coarse, if_pos rfl⟩

/-- An edge of STEP that step_edge counts is an event. -/
theorem stepCount_edge (counts : p.counts .stepDir = true) (edge : (p.taking l).level 0 ≠ p.level 0)
    (rises : p.cfg.stepEdge = 0 → (p.taking l).level 0 = true) (falls : p.cfg.stepEdge = 1 → (p.taking l).level 0 = false) :
    ((stepCount ch p u).pos[ch]).tally =
      (wrapS 48 (p.count + sign (p.level 1)), some u.elapsed, p.skips, l, p.hallRef) := by
  unfold stepCount
  extract_lets q s1
  have q_ : q = p.taking l := after
  rw [q_, if_neg fun h => h.elim (· counts) edge, if_neg]
  · split
    have noted : PosKept Pos.tally ch u s1 := .ite (((PosKept.refl ch u).posFlag 2 fun _ _ => rfl).post ..) (.refl ch u)
    have elapsed : s1.elapsed = u.elapsed :=
      (Keeps.ite (keeps_post (msk := 0x100080) _ _ _ (keeps_posFlag ch 2 (Keeps.refl _ u) rfl) rfl)
        (Keeps.refl _ u)).within.elapsed
    unfold PosKept at noted
    simp only [Pos.tally, Prod.mk.injEq, after] at noted
    obtain ⟨count, -, skips, lines, hallRef⟩ := noted
    rw [posEvent_tally, count, skips, lines, hallRef, elapsed]
    simp [Pos.taking]
  · rintro (⟨zero, low⟩ | ⟨one, high⟩)
    · exact low (rises zero)
    · exact Bool.false_ne_true ((falls one).symm.trans high)

theorem stepCount_other (uncounted : ¬ ((p.cfg.stepEdge = 0 → (p.taking l).level 0 = true) ∧
    (p.cfg.stepEdge = 1 → (p.taking l).level 0 = false))) : stepCount ch p u = u := by
  unfold stepCount
  extract_lets q
  have q_ : q = p.taking l := after
  rw [q_, ite_eq_left_iff]
  intro _
  refine if_pos ?_
  by_contra h
  rw [not_or] at h
  refine uncounted ⟨fun zero => ?_, fun one => ?_⟩
  · by_contra low
    exact h.1 ⟨zero, low⟩
  · by_contra high
    exact h.2 ⟨one, Bool.of_not_eq_false high⟩

/-- A rising edge of UP alone or of DOWN alone is an event. -/
theorem upDownCounts_edge (counts : p.counts .upDown = true)
    (alone : ((p.taking l).level 0 && !p.level 0) ≠ ((p.taking l).level 1 && !p.level 1)) :
    ((upDownCounts ch p u).pos[ch]).tally =
      (wrapS 48 (p.count + sign ((p.taking l).level 0 && !p.level 0)), some u.elapsed, p.skips, l, p.hallRef) := by
  unfold upDownCounts
  extract_lets q rises
  have q_ : q = p.taking l := after
  have rises_ (i : Nat) : rises i = ((p.taking l).level i && !p.level i) := by
    unfold rises
    rw [q_]
  rw [rises_ 0, rises_ 1, if_neg fun h => h.elim (· counts) alone]
  split
  rw [posEvent_tally, after]
  simp [Pos.taking]

theorem upDownCounts_other (both : ((p.taking l).level 0 && !p.level 0) = ((p.taking l).level 1 && !p.level 1)) :
    upDownCounts ch p u = u := by
  refine if_pos (.inr ?_)
  dsimp only
  rw [after]
  exact both

/-- A Hall change to the next place or to the one before is an event. -/
theorem hallCount_step {j k : Nat} (counts : p.counts .hall = true) (edge : (p.taking l).hall ≠ p.hall)
    (place : hallPlace (p.taking l).hall = some j) (known : p.hallRef ≤ 5) (steps : (j + 6 - p.hallRef) % 6 = k)
    (next : k = 1 ∨ k = 5) :
    ((hallCount ch p u).pos[ch]).tally =
      (wrapS 48 (p.count + sign (k = 1)), some u.elapsed, p.skips, l, j) := by
  unfold hallCount
  extract_lets q i
  have q_ : q = p.taking l := after
  rw [q_, if_neg fun h => h.elim (· counts) edge, place]
  dsimp -zeta only
  extract_lets s1 k'
  have k_ : k' = k := steps
  have pos : s1.pos[ch] = (p.taking l).placed j := by
    have set_ : s1.pos[ch] = _ := modPos_pos ..
    rw [set_, after]
    rfl
  have elapsed : s1.elapsed = u.elapsed := rfl
  rw [if_neg (by unfold i; omega), k_]
  clear_value s1
  rw [if_pos next, posEvent_tally, pos, elapsed]
  simp [Pos.placed, Pos.taking]

/-- A step to the opposite Hall place is counted as skipped. -/
theorem hallCount_opposite {j : Nat} (counts : p.counts .hall = true) (edge : (p.taking l).hall ≠ p.hall)
    (place : hallPlace (p.taking l).hall = some j) (known : p.hallRef ≤ 5) (steps : (j + 6 - p.hallRef) % 6 = 3) :
    ∃ h, (hallCount ch p u).pos[ch] = Pos.skipped h ((p.taking l).placed j) := by
  unfold hallCount
  extract_lets q i
  have q_ : q = p.taking l := after
  rw [q_, if_neg fun h => h.elim (· counts) edge, place]
  dsimp -zeta only
  extract_lets s1 k'
  have k_ : k' = 3 := steps
  have pos : s1.pos[ch] = (p.taking l).placed j := by
    have set_ : s1.pos[ch] = _ := modPos_pos ..
    rw [set_, after]
    rfl
  rw [if_neg (by unfold i; omega), k_]
  clear_value s1
  rw [if_neg (by omega), if_pos rfl, illegalStep_counts (.inl rfl), pos]
  exact ⟨_, rfl⟩

/-- An invalid Hall state is counted and flagged. -/
theorem hallCount_invalid (counts : p.counts .hall = true) (edge : (p.taking l).hall ≠ p.hall)
    (invalid : hallPlace (p.taking l).hall = none) :
    (hallCount ch p u).pos[ch] =
      { p.taking l with hallInvalid := p.hallInvalid + 1, flags := p.flags ||| 2 } := by
  unfold hallCount
  extract_lets q
  have q_ : q = p.taking l := after
  rw [q_, if_neg fun h => h.elim (· counts) edge, invalid]
  refine (congrArg (fun v : Vector Pos 4 => v[ch]) (post_pos ..)).trans ?_
  unfold posFlag
  rw [modPos_pos, modPos_pos, after]
  rfl

end

/-! ### Index edges (R255) -/

/-- What carrying out fires leaves of the clock: the sum of the time steps. -/
def SumKept (s t : State) : Prop := t.clk.stepSum = s.clk.stepSum

namespace SumKept

variable {s t u : State}

theorem refl (s : State) : SumKept s s := rfl

theorem trans (h : SumKept s t) (k : SumKept t u) : SumKept s u := Eq.trans k h

theorem of_keeps {msk : Nat} (h : SumKept s t) (kept : Keeps msk t u) (apart : msk &&& Area.clk = 0) : SumKept s u :=
  h.trans (by rw [SumKept, kept.within.clk apart])

theorem ite {c : Prop} [Decidable c] (h : SumKept s t) (k : SumKept s u) : SumKept s (if c then t else u) := by
  split
  · exact h
  · exact k

theorem foldl {α : Type} {f : State → α → State} (kept : ∀ u x, SumKept s u → SumKept s (f u x)) :
    ∀ (l : List α) (t : State), SumKept s t → SumKept s (l.foldl f t)
  | [], _, h => h
  | x :: l, t, h => foldl kept l (f t x) (kept t x h)

theorem tdcEdge (h : SumKept s t) (line : TdcLine) (step : Nat) : SumKept s (tdcEdge line step t).2 := by
  have dropped : SumKept s (tdcDropped t) :=
    of_keeps (t := { t with clk := { t.clk with tdcDrop := t.clk.tdcDrop + 1, dense := true } }) h
      (keeps_post (msk := 0x80) _ _ _ (Keeps.refl _ _) rfl) rfl
  unfold Machine.tdcEdge
  extract_lets held
  split
  · exact dropped
  · split
    · exact dropped
    · exact h

theorem driveXtr (h : SumKept s t) (l : Fin 4) : SumKept s (driveXtr l t).2 := by
  unfold Machine.driveXtr
  extract_lets x
  split
  · exact h
  · split
    · exact h.of_keeps (keeps_joinLine (msk := 0x800080) l (Keeps.refl _ t) rfl) rfl
    · split
      · exact SumKept.tdcEdge (t := t.modXtr l _) h ..
      · exact h

theorem driveXtrs (h : SumKept s t) (mask : XtrCfg → Bool) : SumKept s (driveXtrs mask t).2 := by
  unfold Machine.driveXtrs
  suffices all : ∀ (ls : List (Fin 4)) (r : List (Fin 4) × State), SumKept s r.2 →
      SumKept s (ls.foldl (fun (r : List (Fin 4) × State) l =>
        if mask (r.2.trigs.xtr[l]).cfg then
          let (j, s) := Machine.driveXtr l r.2
          (if j then r.1 ++ [l] else r.1, s)
        else r) r).2 from all _ _ h
  intro ls
  induction ls with
  | nil => exact fun _ h => h
  | cons l ls ih =>
    intro r h
    refine ih _ ?_
    dsimp only
    split
    · exact h.driveXtr l
    · exact h

theorem cmpFires (h : SumKept s t) (n : Fin 16) (r : Reach) : SumKept s (cmpFires n r t) := by
  unfold Machine.cmpFires
  extract_lets c done
  split
  rename_i merged s1 fired
  extract_lets s2 s3 s4 s5 s6 s7
  have trigs : SumKept s s1 := by
    have kept := h.of_keeps (keeps_fireTrigs (msk := 0x400800080) (fun t => t.cmpMask.getLsbD n) r.late r.inferred
      (cmpLead t c r) (Keeps.refl _ t) rfl) rfl
    rw [fired] at kept
    exact kept
  have recorded : SumKept s s3 := (trigs.driveXtrs _).of_keeps
    (keeps_cmpRecord (msk := 0x280400092) n false r _ done (Keeps.refl _ _) rfl) rfl
  have late : SumKept s s5 := .ite
    (recorded.of_keeps (keeps_post (msk := 0x400080) _ _ _ (keeps_State_modCmp n _ (Keeps.refl _ _) rfl) rfl) rfl)
    (recorded.of_keeps (keeps_State_modCmp (msk := 0x400000) n _ (Keeps.refl _ _) rfl) rfl)
  have inferred : SumKept s s6 := .ite (late.of_keeps (keeps_post (msk := 0x80) _ _ _ (Keeps.refl _ _) rfl) rfl) late
  have bumped : SumKept s s7 := inferred.of_keeps
    (keeps_slotBump (msk := 0x2EB000092) 4 n (keeps_publish _ _ _ (Keeps.refl _ _) rfl) rfl) rfl
  exact .ite (bumped.of_keeps (keeps_sweepWaits (msk := 0x2A0000092) (Keeps.refl _ _) rfl) rfl) bumped

theorem modCmp (h : SumKept s t) (n : Fin 16) (f : Cmp → Cmp) : SumKept s (t.modCmp n f) := h

theorem carryOut (h : SumKept s t) (n : Fin 16) : SumKept s (carryOut n t) := by
  unfold Machine.carryOut
  split
  · exact .ite (h.cmpFires ..) (h.modCmp ..)
  · exact h

theorem interpStep (h : SumKept s t) (n : Fin 16) (until_ : Int) : SumKept s (interpStep n until_ t).2 := by
  unfold Machine.interpStep
  extract_lets c
  split
  · exact h
  · extract_lets p stop
    split
    · exact h
    · split
      · exact (h.modCmp ..).cmpFires ..
      · exact h.modCmp ..

theorem interpAll (n : Fin 16) (until_ : Int) : ∀ (k : Nat) (t : State), SumKept s t → SumKept s (interpAll k n until_ t)
  | 0, _, h => h
  | k + 1, t, h => by
    have step := h.interpStep n until_
    unfold Machine.interpAll
    split
    rename_i more u stepped
    rw [stepped] at step
    exact .ite (interpAll n until_ k u step) step

theorem settleCmps (h : SumKept s t) (ch : Fin 4) (until_ : Int) : SumKept s (settleCmps ch until_ t) :=
  foldl (fun _ n h => .ite (interpAll n until_ 32 _ (h.carryOut n)) h) _ _ h

end SumKept

/-- What an index edge shows of a channel beside the position that it latched. -/
def Pos.indexed (p : Pos) : BitVec 4 × Word × Int := (p.lines, p.idxCount, p.count)

theorem setPosition_indexed (ch : Fin 4) (value : Int) (h : Held) (s : State) :
    ((setPosition ch value h s).pos[ch]).indexed = ((s.pos[ch]).lines, (s.pos[ch]).idxCount, value) := by
  unfold setPosition
  extract_lets p old delta
  rw [modPos_pos]
  rfl

section
variable {ch : Fin 4} {h : Held} {s : State} (counts : (s.pos[ch]).counts .quad = true) (waits : (s.pos[ch]).waiting = none)
include counts waits

/-- The channel once an index edge has latched P, and the state it is in then: without a preset that waits, what is left is the
reset of modes 2 and 3. -/
theorem indexRises_latches (odd : (s.pos[ch]).cfg.index = 1 ∨ (s.pos[ch]).cfg.index = 3) :
    ∃ u, (u.pos[ch]).indexed = ((s.pos[ch]).lines, (s.pos[ch]).idxCount + 1, (s.pos[ch]).count) ∧
      (u.pos[ch]).idx = posP s s.pos[ch] (timeOf s h) ∧
      indexRises ch h s = if (s.pos[ch]).cfg.index = 3 then presetCmps ch (judgeEmus ch (setPosition ch 0 h u)) else u := by
  unfold indexRises
  extract_lets p mode gated s1 p1 z dir wrong s2 s3 s4
  have odd : p.cfg.index = 1 ∨ p.cfg.index = 3 := odd
  have same : p1 = p := congrArg (fun v : Vector Pos 4 => v[ch]) (settleCmps_pos ..)
  have settled : s1.pos[ch] = p := same
  have sum : SumKept s s1 := (SumKept.refl s).settleCmps ch (timeOf s h)
  clear_value s1
  have latched : z = posP s p (timeOf s h) := by
    unfold z
    rw [same, posP_congr sum, timeOf_congr sum]
  have plain : mode = p.cfg.index ∧ gated = false := by
    unfold mode gated
    cases odd with
    | inl one => rw [one]; exact ⟨rfl, rfl⟩
    | inr three => rw [three]; exact ⟨rfl, rfl⟩
  obtain ⟨mode_, free⟩ := plain
  have shown : ((s2.pos[ch]).indexed, (s2.pos[ch]).idx) = ((p.lines, p.idxCount + 1, p.count), z) := by
    have set_ : s2.pos[ch] = _ := modPos_pos ..
    rw [set_, settled]
    rfl
  have marked : PosKept (fun p => (p.indexed, p.idx)) ch s2 s4 := by
    refine PosKept.modPos ?_ _ fun _ => rfl
    unfold s3
    rw [if_neg (by rw [mode_]; omega)]
    exact .ite (((PosKept.refl ch s2).posFlag 3 fun _ _ => rfl).post ..) (.refl ch s2)
  have left := Eq.trans marked shown
  simp only [Prod.mk.injEq] at left
  refine ⟨s4, left.1, left.2.trans latched, ?_⟩
  rw [if_neg, same, show p.waiting = none from waits]
  · dsimp -zeta only
    clear_value s4
    rw [mode_]
    have reset : (p.cfg.index = 3 ∨ p.cfg.index = 2 ∧ ¬ p.idxReset = true) ↔ p.cfg.index = 3 := by omega
    exact if_congr reset rfl rfl
  · rw [mode_, free]
    rintro (other | ⟨zero, -⟩ | ⟨gate, -⟩)
    · exact other counts
    · omega
    · exact Bool.noConfusion gate

/-- In mode 1 an index edge latches P and leaves it. -/
theorem indexRises_latch (one : (s.pos[ch]).cfg.index = 1) :
    ((indexRises ch h s).pos[ch]).indexed = ((s.pos[ch]).lines, (s.pos[ch]).idxCount + 1, (s.pos[ch]).count) ∧
    ((indexRises ch h s).pos[ch]).idx = posP s s.pos[ch] (timeOf s h) := by
  obtain ⟨u, shown, latched, meant⟩ := indexRises_latches (h := h) counts waits (.inl one)
  rw [meant, if_neg (by omega)]
  exact ⟨shown, latched⟩

/-- In mode 3 an index edge resets the count. -/
theorem indexRises_reset (three : (s.pos[ch]).cfg.index = 3) :
    ((indexRises ch h s).pos[ch]).indexed = ((s.pos[ch]).lines, (s.pos[ch]).idxCount + 1, 0) := by
  obtain ⟨u, shown, -, meant⟩ := indexRises_latches (h := h) counts waits (.inr three)
  simp only [Pos.indexed, Prod.mk.injEq] at shown
  obtain ⟨lines, times, -⟩ := shown
  rw [meant, if_pos three, presetCmps_pos, judgeEmus_pos, setPosition_indexed, lines, times]

end

/-- The edge that an index decoder sees on Z: its stamp is taken, and a coarse one is noted. -/
theorem indexCount_rises {ch : Fin 4} {p : Pos} {u : State} {l : BitVec 4} (after : u.pos[ch] = p.taking l)
    (low : p.level 2 = false) (high : (p.taking l).level 2 = true) :
    ∃ coarse, indexCount ch p u = indexRises ch (edgeTime ch 2 u).1 (noteCoarse ch coarse u) := by
  unfold indexCount
  rw [after, low, high, if_pos ⟨rfl, Bool.false_ne_true⟩]
  exact ⟨_, rfl⟩

end Sys2Proof.Machine
end

section
/-! SUPPORT. Position events move the count by their rule (R241, R248 to R257). -/

namespace Sys2Proof.Machine

/-! ### Quadrature and index lines -/

section
variable {ch : Fin 4} {balls : Vector Line 4} {l : BitVec 4} {a : State}

/-- Balls that bring a line to `l` show its level, where `l` leaves that. -/
theorem becomes_shown (becomes : Claims.Becomes a ch balls l) {i : Fin 4}
    (same : l.getLsbD i = (a.pos[ch]).lines.getLsbD i) : ((a.pos[ch]).raw[i]).level = (a.pos[ch]).lines.getLsbD i := by
  obtain ⟨-, ripe | ⟨-, shown⟩⟩ := becomes
  · exact (ripe i).1.trans same
  · exact shown i

/-- A change of A, B or the unused line alone: Z does nothing before it. -/
theorem quadMoves_eq (becomes : Claims.Becomes a ch balls l) (index : l.getLsbD 2 = (a.pos[ch]).lines.getLsbD 2) :
    quadMoves ch balls a = ballMoves ch quadMask balls (quadCount ch) a := by
  unfold quadMoves
  rw [filterMoves_idle _ (indexCount_changes ch)]
  intro i chosen
  have two : i = 2 := by revert i; decide
  subst two
  exact becomes_shown becomes index

/-- A change of Z alone: A and B do nothing before it. -/
theorem indexMoves_eq (becomes : Claims.Becomes a ch balls l)
    (others : ∀ i : Fin 4, i ≠ 2 → l.getLsbD i = (a.pos[ch]).lines.getLsbD i) :
    indexMoves ch balls a = ballMoves ch indexMask balls (indexCount ch) a := by
  unfold indexMoves
  rw [filterMoves_idle _ (quadCount_changes ch)]
  intro i chosen
  have other : i ≠ 2 := by revert i; decide
  exact becomes_shown becomes (others i other)

/-- What a quadrature decoder makes of the change, once for every relation to be shown of the channel. -/
theorem quadMoves_becomes (becomes : Claims.Becomes a ch balls l)
    (index : l.getLsbD 2 = (a.pos[ch]).lines.getLsbD 2) (rel : Pos → Prop) (stable : ∀ x raw, rel x → rel (x.sampledTo raw))
    (counted : ∀ (raw : Vector RawLine 4) (u : State), u.elapsed = a.elapsed →
      u.pos[ch] = ((a.pos[ch]).sampledTo raw).taking l →
      ((quadCount ch ((a.pos[ch]).sampledTo raw) u).pos[ch]).lines = l ∧
      rel (quadCount ch ((a.pos[ch]).sampledTo raw) u).pos[ch]) : rel (quadMoves ch balls a).pos[ch] := by
  rw [quadMoves_eq becomes index]
  refine ballMoves_becomes becomes (fun i other => ?_) (quadCount_changes ch) rel stable
    fun raw u elapsed pos _ => counted raw u elapsed pos
  have two : i = 2 := by revert i; decide
  subst two
  exact index.symm

/-- What a decoder of all four lines makes of the change. -/
theorem allMoves_becomes {count : Pos → State → State} (changes : CountsChanges ch count)
    (becomes : Claims.Becomes a ch balls l) (rel : Pos → Prop) (stable : ∀ x raw, rel x → rel (x.sampledTo raw))
    (counted : ∀ (raw : Vector RawLine 4) (u : State), u.elapsed = a.elapsed →
      u.pos[ch] = ((a.pos[ch]).sampledTo raw).taking l →
      ((count ((a.pos[ch]).sampledTo raw) u).pos[ch]).lines = l ∧
      rel (count ((a.pos[ch]).sampledTo raw) u).pos[ch]) : rel (ballMoves ch 0b1111 balls count a).pos[ch] := by
  refine ballMoves_becomes becomes (fun i none_ => absurd ?_ none_) changes rel stable
    fun raw u elapsed pos _ => counted raw u elapsed pos
  revert i
  decide

theorem quadMoves_step {k : Nat} {n : Int} (counts : (a.pos[ch]).counts .quad = true) (becomes : Claims.Becomes a ch balls l)
    (index : l.getLsbD 2 = (a.pos[ch]).lines.getLsbD 2) (steps : Claims.quadSteps a.pos[ch] l = k) (legal : k = 1 ∨ k = 3)
    (moves : (a.pos[ch]).count + sign (k = 1) = n) :
    ((quadMoves ch balls a).pos[ch]).count = wrapS 48 n ∧
    ((quadMoves ch balls a).pos[ch]).eventAt = some a.elapsed ∧
    ((quadMoves ch balls a).pos[ch]).skips = (a.pos[ch]).skips ∧ ((quadMoves ch balls a).pos[ch]).lines = l := by
  refine quadMoves_becomes becomes index (fun t => t.count = _ ∧ t.eventAt = _ ∧ t.skips = _ ∧ t.lines = _)
    (fun _ _ holds => holds) fun raw u elapsed pos => ?_
  have event := quadCount_step pos counts steps legal
  simp only [Pos.tally, Prod.mk.injEq] at event
  obtain ⟨count, eventAt, skips, lines, -⟩ := event
  exact ⟨lines, moves ▸ count, eventAt.trans (congrArg some elapsed), skips, lines⟩

theorem hallMoves_step {j k : Nat} {n : Int} (counts : (a.pos[ch]).counts .hall = true) (becomes : Claims.Becomes a ch balls l)
    (edge : ((a.pos[ch]).taking l).hall ≠ (a.pos[ch]).hall) (place : hallPlace ((a.pos[ch]).taking l).hall = some j)
    (known : (a.pos[ch]).hallRef ≤ 5) (steps : (j + 6 - (a.pos[ch]).hallRef) % 6 = k) (next : k = 1 ∨ k = 5)
    (moves : (a.pos[ch]).count + sign (k = 1) = n) :
    ((ballMoves ch 0b1111 balls (hallCount ch) a).pos[ch]).count = wrapS 48 n ∧
    ((ballMoves ch 0b1111 balls (hallCount ch) a).pos[ch]).hallRef = j := by
  refine allMoves_becomes (hallCount_changes ch) becomes (fun t => t.count = _ ∧ t.hallRef = _) (fun _ _ holds => holds)
    fun raw u elapsed pos => ?_
  have event := hallCount_step pos counts edge place known steps next
  simp only [Pos.tally, Prod.mk.injEq] at event
  obtain ⟨count, -, -, lines, ref⟩ := event
  exact ⟨lines, moves ▸ count, ref⟩

/-- What an index decoder makes of the change; a ball that already shows Z's new level makes it before the samples. -/
theorem indexMoves_becomes (becomes : Claims.Becomes a ch balls l)
    (others : ∀ i : Fin 4, i ≠ 2 → l.getLsbD i = (a.pos[ch]).lines.getLsbD i)
    (low : (a.pos[ch]).level 2 = false) (high : ((a.pos[ch]).taking l).level 2 = true)
    (rel : Pos → Prop) (stable : ∀ x raw, rel x → rel (x.sampledTo raw))
    (counted : ∀ (raw : Vector RawLine 4) (u : State) (coarse : Bool),
      u.pos[ch] = ((a.pos[ch]).sampledTo raw).taking l →
      (((a.pos[ch]).raw[(2 : Fin 4)]).level = l.getLsbD 2 → u = a.modPos ch (Pos.taking l)) →
      ((indexRises ch (edgeTime ch 2 u).1 (noteCoarse ch coarse u)).pos[ch]).lines = l ∧
      rel (indexRises ch (edgeTime ch 2 u).1 (noteCoarse ch coarse u)).pos[ch]) : rel (indexMoves ch balls a).pos[ch] := by
  rw [indexMoves_eq becomes others]
  refine ballMoves_becomes becomes (fun i other => ?_) (indexCount_changes ch) rel stable fun raw u _ pos from_ => ?_
  · have other : i ≠ 2 := by revert i; decide
    exact (others i other).symm
  · obtain ⟨coarse, meant⟩ := indexCount_rises pos low high
    rw [meant]
    refine counted raw u coarse pos fun shows => from_.resolve_right fun shown => ?_
    have same : l.getLsbD 2 = (a.pos[ch]).lines.getLsbD 2 := shows.symm.trans (shown 2)
    have unmoved : ((a.pos[ch]).taking l).level 2 = (a.pos[ch]).level 2 := congrArg (· != bit (a.pos[ch]).cfg.invert 2) same
    exact Bool.false_ne_true (low.symm.trans (unmoved.symm.trans high))

end

section
variable {ch : Fin 4} {l : BitVec 4}

/-- A noted stamp leaves what an index edge goes by. -/
theorem noteCoarse_index {p : Pos} {u : State} (after : u.pos[ch] = p.taking l) (coarse : Bool) :
    ((noteCoarse ch coarse u).pos[ch]).counts .quad = p.counts .quad ∧
    ((noteCoarse ch coarse u).pos[ch]).waiting = p.waiting ∧ ((noteCoarse ch coarse u).pos[ch]).cfg = p.cfg ∧
    ((noteCoarse ch coarse u).pos[ch]).indexed = (l, p.idxCount, p.count) := by
  have kept := noteCoarse_kept (g := fun p => (p.counts .quad, p.waiting, p.cfg, p.indexed)) ch coarse u fun _ _ => rfl
  unfold PosKept at kept
  rw [after] at kept
  simp only [Prod.mk.injEq] at kept
  exact kept

theorem posP_noteCoarse (coarse : Bool) (u : State) (h : Held) :
    posP (noteCoarse ch coarse u) (noteCoarse ch coarse u).pos[ch] (timeOf (noteCoarse ch coarse u) h) =
      posP u u.pos[ch] (timeOf u h) := by
  have sum : (noteCoarse ch coarse u).clk.stepSum = u.clk.stepSum :=
    congrArg (·.stepSum) ((keeps_noteCoarse (msk := 0x100080) ch coarse (Keeps.refl _ u) rfl).within.clk rfl)
  rw [posP_congr sum, timeOf_congr sum]
  exact noteCoarse_kept (g := fun p => posP u p (timeOf u h)) ch coarse u fun _ _ => rfl

/-- P at the stamp of an edge on Z does not see the filtered levels. -/
theorem posP_taking (a : State) :
    posP (a.modPos ch (Pos.taking l)) (a.modPos ch (Pos.taking l)).pos[ch]
      (timeOf (a.modPos ch (Pos.taking l)) (edgeTime ch 2 (a.modPos ch (Pos.taking l))).1) =
      posP a a.pos[ch] (timeOf a (edgeTime ch 2 a).1) := by
  have edge : edgeTime ch 2 (a.modPos ch (Pos.taking l)) = edgeTime ch 2 a := by
    unfold edgeTime
    rw [modPos_pos]
    rfl
  have sum : (a.modPos ch (Pos.taking l)).clk.stepSum = a.clk.stepSum := rfl
  rw [edge, modPos_pos, posP_congr sum, timeOf_congr sum]
  rfl

end

/-! ### The claims -/

theorem claims_quadStep : Claims.quadStep := by
  intro ch balls l fwd rest steps
  refine ⟨ActsSo.of_meaning (quadMoves ch balls) (fun _ _ => rfl) ?forth,
    ActsSo.of_meaning (quadMoves ch balls) (fun _ _ => rfl) ?back,
    ActsSo.of_meaning (quadMoves ch balls) (fun _ _ => rfl) ?skips,
    ActsSo.of_meaning (quadMoves ch balls) (fun _ _ => rfl) ?infers⟩
  case forth =>
    rintro a ⟨counts, becomes, index, one⟩
    exact quadMoves_step counts becomes index one (.inl rfl) rfl
  case back =>
    rintro a ⟨counts, becomes, index, three⟩
    exact quadMoves_step counts becomes index three (.inr rfl) rfl
  case skips =>
    rintro a ⟨⟨counts, becomes, index, two⟩, one⟩
    refine quadMoves_becomes becomes index (fun t => t.count = _ ∧ t.skips = _ ∧ t.flags = _)
      (fun _ _ holds => holds) fun raw u elapsed pos => ?_
    obtain ⟨h, coarse, meant⟩ := quadCount_illegal pos counts two
    rw [meant, illegalStep_counts (.inr (by rw [pos]; exact one)), pos]
    exact ⟨rfl, rfl, rfl, rfl⟩
  case infers =>
    rintro a ⟨⟨counts, becomes, index, two⟩, policy, known, last⟩
    refine quadMoves_becomes becomes index (fun t => t.count = _ ∧ t.skips = _)
      (fun _ _ holds => holds) fun raw u elapsed pos => ?_
    obtain ⟨h, coarse, meant⟩ := quadCount_illegal pos counts two
    have event := illegalStep_infers (h := h) (coarse := coarse) (fwd := fwd) (rest := rest) (by rw [pos]; exact policy)
      (by rw [pos]; exact known) (by rw [pos]; exact last)
    rw [← meant, pos] at event
    simp only [Pos.tally, Prod.mk.injEq] at event
    obtain ⟨count, -, skips, lines, -⟩ := event
    exact ⟨lines, count, skips⟩

theorem claims_stepDirStep : Claims.stepDirStep := by
  intro ch balls l now_ edge counted
  refine ⟨ActsSo.of_meaning (ballMoves ch 0b1111 balls (stepCount ch)) (fun _ _ => rfl) ?counts,
    ActsSo.of_meaning (ballMoves ch 0b1111 balls (stepCount ch)) (fun _ _ => rfl) ?other⟩
  case counts =>
    rintro a ⟨⟨counts, becomes, edge_⟩, rises, falls⟩
    refine allMoves_becomes (stepCount_changes ch) becomes
      (fun t => t.count = _ ∧ t.eventAt = _) (fun _ _ holds => holds) fun raw u elapsed pos => ?_
    have event := stepCount_edge pos counts edge_ rises falls
    simp only [Pos.tally, Prod.mk.injEq] at event
    obtain ⟨count, eventAt, -, lines, -⟩ := event
    exact ⟨lines, count, eventAt.trans (congrArg some elapsed)⟩
  case other =>
    rintro a ⟨⟨counts, becomes, edge_⟩, uncounted⟩
    refine allMoves_becomes (stepCount_changes ch) becomes
      (fun t => t.count = _ ∧ t.eventAt = _) (fun _ _ holds => holds) fun raw u _ pos => ?_
    rw [stepCount_other pos uncounted, pos]
    exact ⟨rfl, rfl, rfl⟩

theorem claims_upDownCount : Claims.upDownCount := by
  intro ch balls l rises
  refine ⟨ActsSo.of_meaning (ballMoves ch 0b1111 balls (upDownCounts ch)) (fun _ _ => rfl) ?alone,
    ActsSo.of_meaning (ballMoves ch 0b1111 balls (upDownCounts ch)) (fun _ _ => rfl) ?both⟩
  case alone =>
    rintro a ⟨counts, becomes, alone⟩
    refine allMoves_becomes (upDownCounts_changes ch) becomes
      (fun t => t.count = _ ∧ t.eventAt = _) (fun _ _ holds => holds) fun raw u elapsed pos => ?_
    have event := upDownCounts_edge pos counts alone
    simp only [Pos.tally, Prod.mk.injEq] at event
    obtain ⟨count, eventAt, -, lines, -⟩ := event
    exact ⟨lines, count, eventAt.trans (congrArg some elapsed)⟩
  case both =>
    rintro a ⟨counts, becomes, both⟩
    refine allMoves_becomes (upDownCounts_changes ch) becomes
      (fun t => t.count = _ ∧ t.lines = _) (fun _ _ holds => holds) fun raw u _ pos => ?_
    rw [upDownCounts_other pos both, pos]
    exact ⟨rfl, rfl, rfl⟩

theorem claims_hallChange : Claims.hallChange := by
  intro ch balls l j state changes steps
  refine ⟨ActsSo.of_meaning (ballMoves ch 0b1111 balls (hallCount ch)) (fun _ _ => rfl) ?up,
    ActsSo.of_meaning (ballMoves ch 0b1111 balls (hallCount ch)) (fun _ _ => rfl) ?down,
    ActsSo.of_meaning (ballMoves ch 0b1111 balls (hallCount ch)) (fun _ _ => rfl) ?opposite,
    ActsSo.of_meaning (ballMoves ch 0b1111 balls (hallCount ch)) (fun _ _ => rfl) ?invalid⟩
  case up =>
    rintro a ⟨⟨counts, becomes, edge⟩, place, known, one⟩
    exact hallMoves_step counts becomes edge place known one (.inl rfl) rfl
  case down =>
    rintro a ⟨⟨counts, becomes, edge⟩, place, known, five⟩
    exact hallMoves_step counts becomes edge place known five (.inr rfl) rfl
  case opposite =>
    rintro a ⟨⟨counts, becomes, edge⟩, place, known, three⟩
    refine allMoves_becomes (hallCount_changes ch) becomes
      (fun t => t.count = _ ∧ t.skips = _ ∧ t.flags = _ ∧ t.hallRef = _) (fun _ _ holds => holds)
      fun raw u _ pos => ?_
    obtain ⟨h, meant⟩ := hallCount_opposite pos counts edge place known three
    rw [meant]
    exact ⟨rfl, rfl, rfl, rfl, rfl⟩
  case invalid =>
    rintro a ⟨⟨counts, becomes, edge⟩, invalid⟩
    refine allMoves_becomes (hallCount_changes ch) becomes
      (fun t => t.count = _ ∧ t.hallInvalid = _ ∧ t.flags = _ ∧ t.hallRef = _) (fun _ _ holds => holds)
      fun raw u _ pos => ?_
    rw [hallCount_invalid pos counts edge invalid]
    exact ⟨rfl, rfl, rfl, rfl, rfl⟩

theorem claims_indexEdge : Claims.indexEdge := by
  intro ch balls l rises
  refine ⟨ActsSo.of_meaning (indexMoves ch balls) (fun _ _ => rfl) ?latch,
    ActsSo.of_meaning (indexMoves ch balls) (fun _ _ => rfl) ?reset⟩
  case latch =>
    rintro a ⟨⟨counts, waits, becomes, others, low, high⟩, one⟩
    refine indexMoves_becomes becomes others low high (fun t => t.idxCount = _ ∧ t.count = _ ∧ (_ → t.idx = _))
      (fun _ _ holds => holds) fun raw u coarse pos from_ => ?_
    obtain ⟨counts', waits', cfg, before⟩ := noteCoarse_index pos coarse
    obtain ⟨shown, latched⟩ := indexRises_latch (h := (edgeTime ch 2 u).1) (counts'.trans counts) (waits'.trans waits)
      ((congrArg PosCfg.index cfg).trans one)
    simp only [Pos.indexed, Prod.mk.injEq] at before shown
    obtain ⟨lines, times, count⟩ := shown
    refine ⟨lines.trans before.1, times.trans (congrArg (· + 1) before.2.1), count.trans before.2.2, fun shows => ?_⟩
    rw [latched, posP_noteCoarse, from_ shows]
    exact posP_taking a
  case reset =>
    rintro a ⟨⟨counts, waits, becomes, others, low, high⟩, three⟩
    refine indexMoves_becomes becomes others low high (fun t => t.idxCount = _ ∧ t.count = _)
      (fun _ _ holds => holds) fun raw u coarse pos _ => ?_
    obtain ⟨counts', waits', cfg, before⟩ := noteCoarse_index pos coarse
    have shown := indexRises_reset (h := (edgeTime ch 2 u).1) (counts'.trans counts) (waits'.trans waits)
      ((congrArg PosCfg.index cfg).trans three)
    simp only [Pos.indexed, Prod.mk.injEq] at before shown
    obtain ⟨lines, times, count⟩ := shown
    exact ⟨lines.trans before.1, times.trans (congrArg (· + 1) before.2.1), count⟩

theorem claims_standstillTimeout : Claims.standstillTimeout := by
  intro ch
  exact Acts.of_meaning (standsStill ch) (fun _ _ => rfl) fun a met => if_pos met

/-- Settles O39: position events move the count by their rule. -/
theorem positionEventsCount : Obligations.PositionEventsCount :=
  ⟨claims_quadStep, claims_stepDirStep, claims_upDownCount, claims_hallChange, claims_indexEdge, claims_standstillTimeout⟩

end Sys2Proof.Machine
end
